-- ==== Sys2Proof/Word.lean ====
section
/-! DEFINITION. The word types of the module: 64-bit registers, 32-bit instruction words, 1,024-bit vector entries and bytes (R248, R254, R255). -/

namespace Sys2Proof

/-- A scalar register, a device register or a handle address (R15, R254). -/
abbrev Word := BitVec 64

/-- An instruction word (R248). -/
abbrev IWord := BitVec 32

/-- One entry of a vector register or operand queue (R255). -/
abbrev Entry := BitVec 1024

/-- One byte of memory. -/
abbrev Byte := BitVec 8

end Sys2Proof
end

