-- ==== Sys2Proof/Config.lean ====
section
/-! DEFINITION. What the spec leaves open and the model leaves free: constants with no body, so that no proof can see a value. -/

namespace Sys2Proof.Config

/-- The 1,024-bit value of the n-th undefined vector read (R10, R258, log 4). -/
opaque freeEntry : Nat → Entry

/-- The value of the n-th undefined word (R10, log 4). -/
opaque freeWord : Nat → Word

/-- Bytes of the n-th undefined range (R10, log 4). -/
opaque freeByte : Nat → Nat → Byte

/-- What an absent physical address reads as: the count of free values drawn and the address (R11, R28, log 45). -/
opaque absentByte : Nat → Nat → Byte

/-- What a function unit answers, from its number, its type code and the operand bits; used inside the bound of R246 (R247). -/
opaque unitValue : Nat → Nat → Nat → Nat

/-- The order in which the matrix engine adds equal-rank terms where R242 leaves it free. -/
opaque tieBreak : Nat → Nat

/-- SHA-256 of bytes, as a number (R461, R462). -/
opaque sha256 : List Byte → Nat

/-- Whether an ECDSA P-256 signature verifies: key, digest, signature bytes (R461). -/
opaque ecdsaVerify : List Byte → Nat → List Byte → Bool

/-- An ECDSA P-256 signature by the module's key (R462). -/
opaque ecdsaSign : Nat → List Byte

/-- The public key whose digest is fused in the module (R461). -/
opaque fusedKeyDigest : Nat

/-- The minimum image version fused in the module (R461). -/
opaque fusedVersion : Nat

/-- SHA-256 of the boot ROM, as a number (R462). -/
opaque romDigest : Nat

/-- The module's unique id and die ids in a report (R462). -/
opaque moduleUid : List Byte

end Sys2Proof.Config
end

