-- ==== Sys2Proof/Syntax.lean ====
section
/-! DEFINITION. The instructions and steps of the module, one constructor for each row of the opcode table, and the records their operands use. -/

namespace Sys2Proof

/-- The four strands of a core (R2, R186). -/
inductive StrandId where
  | l | x | s | k
  deriving DecidableEq, Repr

/-- The strand's number: L 0, X 1, S 2, K 3 (R2). -/
def StrandId.num : StrandId → Nat
  | .l => 0 | .x => 1 | .s => 2 | .k => 3

/-- The fields of an X word (R252). -/
structure XOp where
  /-- Destination register code. -/
  vd : BitVec 4
  /-- First source register code. -/
  va : BitVec 4
  /-- Second source register code, or a format code (R341). -/
  vb : BitVec 4
  /-- Type code. -/
  ty : BitVec 3
  /-- Mask register, condition or part (R341). -/
  m : BitVec 3
  /-- 1 = agnostic masking. -/
  ma : BitVec 1
  /-- Latency code: 2, 4, 8 or 16 issues. -/
  lat : BitVec 2
  /-- Sync field (R263). -/
  sync : BitVec 2
  /-- Peek va. -/
  pa : BitVec 1
  /-- Peek vb. -/
  pb : BitVec 1
  deriving DecidableEq, Repr

/-- What a request asks of a home agent (R65, R66, R69). -/
inductive ReqKind where
  | readShared | readExclusive | uncachedRead | uncachedWrite | writeback
  deriving DecidableEq, Repr

/-- A request at a home agent (R65). -/
structure HomeReq where
  kind : ReqKind
  /-- Physical address of the first byte. -/
  addr : Nat
  /-- Bytes written by an uncached write or a write-back. -/
  data : List Byte
  /-- Requesting context. -/
  ctx : Nat
  /-- Requesting caching agent, 0-16 (R71). -/
  agent : Nat
  /-- Requesting die for the trackers: 0-7 compute, 8 hub, 9 companion (R77). -/
  die : Nat
  /-- Requested grain code (R29, R68). -/
  grain : Nat
  /-- Handle policy, which decides MSC allocation (R52). -/
  pol : Nat
  deriving DecidableEq, Repr

/-- A coherence probe of one grain unit (R70). -/
structure Probe where
  /-- The caching agent probed, 0-16 (R71). -/
  agent : Nat
  /-- Super-line number p[51:9]. -/
  sline : Nat
  /-- Grain unit within the super-line. -/
  unit : Nat
  /-- Context of the request; unused by PRBSYS. -/
  ctx : Nat
  /-- 0 = downgrade, 1 = invalidate, 2 = recall. -/
  kind : Nat
  /-- Cluster of the requester, or 256 and up for an agent outside the compute dies (R75). -/
  from_ : Nat
  deriving DecidableEq, Repr

/-- A probe answer (R70). -/
inductive Answer where
  | data | ack | notheld (other : Bool) | retry
  deriving DecidableEq, Repr

/-- A flit of the package ring or of the rack ring: its slot header (R120), its bytes and the module ids of its link header (R130). -/
structure Flit where
  kind : Nat
  /-- Destination and source station. -/
  dst : Nat
  src : Nat
  /-- It goes clockwise; it claims a reservation; it was refused once; it is the last of its message (R120). -/
  cw : Bool
  rsv : Bool
  rfs : Bool
  last : Bool
  idx : Nat
  ctx : Nat
  agent : Nat
  tag : Nat
  e2e : Nat
  addr : Nat
  data : List Byte
  /-- It travels on the rack ring, between the bridge stations of two modules (R126). -/
  rack : Bool
  dmod : Nat
  smod : Nat
  deriving DecidableEq, Repr

/-- A posted window write as it reaches its target (R139-R141). -/
structure WinWrite where
  /-- Source module, cluster, slot, sequence and context. -/
  smod : Nat
  sclu : Nat
  slot : Nat
  seq : Nat
  sctx : Nat
  /-- Target cluster and offset. -/
  clu : Nat
  off : Nat
  data : List Byte
  /-- Stamp of a `.sc` write: time and issuer (R99, R100). -/
  stamp : Option (Nat × Nat)
  deriving DecidableEq, Repr

/-- A named-tile message (R165). -/
structure AgMsg where
  /-- The 96-bit name. -/
  name : Nat
  relaxed : Bool
  hit : Bool
  ostn : Nat
  omod : Nat
  /-- Tile size in units of 128 bytes. -/
  size : Nat
  exp : Nat
  segoff : Nat
  data : List Byte
  deriving DecidableEq, Repr

/-- What a message between modules asks (R127, R128). -/
inductive PeerKind where
  | read (len : Nat)
  | write (data : List Byte)
  /-- An atomic with its operator number (R326) and operands. -/
  | atomic (op size : Nat) (v exp : Word)
  /-- A row add: element bytes, saturation and the addend row (R330). -/
  | rowAdd (esize : Nat) (sat : Bool) (row : List Byte)
  | window (w : WinWrite)
  /-- An interest, cancel, refresh or refusal, by its `AKIND` (R165). -/
  | interest (akind : Nat) (m : AgMsg)
  /-- A tile segment or an announcement. -/
  | publish (akind : Nat) (m : AgMsg)
  deriving DecidableEq, Repr

/-- A request that crosses modules (R128). -/
structure PeerReq where
  kind : PeerKind
  /-- Peer region (0 HBM, 1 LPDDR6) × 2^40 + offset (R28). -/
  addr : Nat
  deriving DecidableEq, Repr

/-- The answer to a request: 0 performed, 1 refused, 2 poisoned, and its bytes. -/
structure PeerAnswer where
  status : Nat
  data : List Byte
  deriving DecidableEq, Repr

/-- The end of training at a receiver: its lane group and how many flits its sender then resends (R137, R138). -/
structure LinkLock where
  lg : Nat
  resent : Nat
  deriving DecidableEq, Repr

/-- What retraining found: the wavelengths lit at both ends, and whether it succeeded (R135). -/
structure LinkTrained where
  mask : BitVec 16
  good : Bool
  deriving DecidableEq, Repr

/-- A data burst of a Zheuc plane (R148). -/
structure Burst where
  src : Nat
  plane : Nat
  burst : Nat
  ctx : Nat
  /-- Group address and data of each item. -/
  items : List (Nat × List Byte)
  crcGood : Bool
  deriving DecidableEq, Repr

/-- One constructor for each row of the opcode table: 193 encoded words and 133 steps and events. -/
inductive Instr where
  -- common half (every strand)
  /-- Does nothing; the all-zero word is NOP in every strand (R265). -/
  | nop
  /-- Applies the ordering of R95 at the named scope for the executing strand, including window drains, and completes when its obligations are met (R298). -/
  | fence (scope : BitVec 3) (ord : BitVec 3)
  /-- Sends the held NREQ, NPUB and BST entries of the hold buffer in order and closes the buffer (R300). -/
  | commit
  /-- Discards every held entry of the hold buffer and closes it (R300). -/
  | abort
  /-- Waits until the strand's pending event set is nonempty, then returns and empties it (R302). -/
  | wfe (rd : BitVec 5)
  /-- Pushes one token into the named strand-pair counter at retirement (R303). -/
  | tsig (pair : BitVec 4)
  /-- Waits for a token in the named counter and pops it (R303). -/
  | twait (pair : BitVec 4)
  /-- Pops a token if one is present and writes 1, otherwise writes 0 (R303). -/
  | ttry (rd : BitVec 5) (pair : BitVec 4)
  /-- Sets a condition-code sync bit (R193). -/
  | ccset (cc : BitVec 4)
  /-- Clears a condition-code sync bit (R193). -/
  | ccclr (cc : BitVec 4)
  /-- Waits until a condition-code sync bit is 1 (R193). -/
  | ccwait (cc : BitVec 4)
  /-- L, X or S lands its work, sets a sync bit and parks; K waits for all three to park and returns the core to bundle mode (R192). -/
  | join (cc : BitVec 4)
  /-- Writes ra + rb to rd (R278). -/
  | add (rd : BitVec 5) (ra : BitVec 5) (rb : BitVec 5)
  /-- Writes ra - rb to rd (R278). -/
  | sub (rd : BitVec 5) (ra : BitVec 5) (rb : BitVec 5)
  /-- Writes the bitwise AND of ra and rb (R278). -/
  | and (rd : BitVec 5) (ra : BitVec 5) (rb : BitVec 5)
  /-- Writes the bitwise OR of ra and rb (R278). -/
  | or (rd : BitVec 5) (ra : BitVec 5) (rb : BitVec 5)
  /-- Writes the bitwise XOR of ra and rb (R278). -/
  | xor (rd : BitVec 5) (ra : BitVec 5) (rb : BitVec 5)
  /-- Writes ra AND NOT rb (R278). -/
  | andn (rd : BitVec 5) (ra : BitVec 5) (rb : BitVec 5)
  /-- Shifts ra left by rb[5:0] (R278). -/
  | sll (rd : BitVec 5) (ra : BitVec 5) (rb : BitVec 5)
  /-- Shifts ra right logically by rb[5:0] (R278). -/
  | srl (rd : BitVec 5) (ra : BitVec 5) (rb : BitVec 5)
  /-- Shifts ra right arithmetically by rb[5:0] (R278). -/
  | sra (rd : BitVec 5) (ra : BitVec 5) (rb : BitVec 5)
  /-- Rotates ra left by rb[5:0] (R278). -/
  | rol (rd : BitVec 5) (ra : BitVec 5) (rb : BitVec 5)
  /-- Writes the low 64 bits of ra times rb (R278). -/
  | mul (rd : BitVec 5) (ra : BitVec 5) (rb : BitVec 5)
  /-- Writes the high 64 bits of the signed product (R278). -/
  | mulh (rd : BitVec 5) (ra : BitVec 5) (rb : BitVec 5)
  /-- Writes the high 64 bits of the unsigned product (R278). -/
  | mulhu (rd : BitVec 5) (ra : BitVec 5) (rb : BitVec 5)
  /-- Signed 64-bit division truncated toward zero, with the zero-divisor and overflow rules (R279). -/
  | div (rd : BitVec 5) (ra : BitVec 5) (rb : BitVec 5)
  /-- Unsigned 64-bit division (R279). -/
  | divu (rd : BitVec 5) (ra : BitVec 5) (rb : BitVec 5)
  /-- Signed 64-bit remainder (R279). -/
  | rem (rd : BitVec 5) (ra : BitVec 5) (rb : BitVec 5)
  /-- Unsigned 64-bit remainder (R279). -/
  | remu (rd : BitVec 5) (ra : BitVec 5) (rb : BitVec 5)
  /-- Signed 32-bit division, sign-extended (R279). -/
  | divw (rd : BitVec 5) (ra : BitVec 5) (rb : BitVec 5)
  /-- Signed 32-bit remainder, sign-extended (R279). -/
  | remw (rd : BitVec 5) (ra : BitVec 5) (rb : BitVec 5)
  /-- Writes the signed smaller of ra and rb (R278). -/
  | min (rd : BitVec 5) (ra : BitVec 5) (rb : BitVec 5)
  /-- Writes the signed larger of ra and rb (R278). -/
  | max (rd : BitVec 5) (ra : BitVec 5) (rb : BitVec 5)
  /-- Writes the unsigned smaller of ra and rb (R278). -/
  | minu (rd : BitVec 5) (ra : BitVec 5) (rb : BitVec 5)
  /-- Writes the unsigned larger of ra and rb (R278). -/
  | maxu (rd : BitVec 5) (ra : BitVec 5) (rb : BitVec 5)
  /-- Writes 1 if ra is signed-less than rb (R278). -/
  | slt (rd : BitVec 5) (ra : BitVec 5) (rb : BitVec 5)
  /-- Writes 1 if ra is unsigned-less than rb (R278). -/
  | sltu (rd : BitVec 5) (ra : BitVec 5) (rb : BitVec 5)
  /-- Writes 1 if ra equals rb (R278). -/
  | seq (rd : BitVec 5) (ra : BitVec 5) (rb : BitVec 5)
  /-- Counts leading zero bits of ra (R278). -/
  | clz (rd : BitVec 5) (ra : BitVec 5)
  /-- Counts trailing zero bits of ra (R278). -/
  | ctz (rd : BitVec 5) (ra : BitVec 5)
  /-- Counts the one bits of ra (R278). -/
  | popc (rd : BitVec 5) (ra : BitVec 5)
  /-- Adds a sign-extended 15-bit immediate to ra (R280). -/
  | addi (rd : BitVec 5) (ra : BitVec 5) (imm : BitVec 15)
  /-- ANDs ra with a sign-extended immediate (R280). -/
  | andi (rd : BitVec 5) (ra : BitVec 5) (imm : BitVec 15)
  /-- ORs ra with a sign-extended immediate (R280). -/
  | ori (rd : BitVec 5) (ra : BitVec 5) (imm : BitVec 15)
  /-- XORs ra with a sign-extended immediate (R280). -/
  | xori (rd : BitVec 5) (ra : BitVec 5) (imm : BitVec 15)
  /-- Shifts ra left by an immediate amount (R280). -/
  | slli (rd : BitVec 5) (ra : BitVec 5) (sh : BitVec 6)
  /-- Shifts ra right logically by an immediate amount (R280). -/
  | srli (rd : BitVec 5) (ra : BitVec 5) (sh : BitVec 6)
  /-- Shifts ra right arithmetically by an immediate amount (R280). -/
  | srai (rd : BitVec 5) (ra : BitVec 5) (sh : BitVec 6)
  /-- Writes 1 if ra is signed-less than a 14-bit immediate (R280). -/
  | slti (rd : BitVec 5) (ra : BitVec 5) (imm : BitVec 14)
  /-- Writes 1 if ra is unsigned-less than a sign-extended 14-bit immediate (R280). -/
  | sltiu (rd : BitVec 5) (ra : BitVec 5) (imm : BitVec 14)
  /-- Shifts ra left by 15 and inserts a 15-bit field (R281). -/
  | movhi (rd : BitVec 5) (ra : BitVec 5) (imm : BitVec 15)
  /-- Branches if ra equals rb (R282). -/
  | beq (ra : BitVec 5) (rb : BitVec 5) (off : BitVec 15)
  /-- Branches if ra differs from rb (R282). -/
  | bne (ra : BitVec 5) (rb : BitVec 5) (off : BitVec 15)
  /-- Branches if ra is signed-less than rb (R282). -/
  | blt (ra : BitVec 5) (rb : BitVec 5) (off : BitVec 15)
  /-- Branches if ra is signed-greater or equal to rb (R282). -/
  | bge (ra : BitVec 5) (rb : BitVec 5) (off : BitVec 15)
  /-- Branches if ra is unsigned-less than rb (R282). -/
  | bltu (ra : BitVec 5) (rb : BitVec 5) (off : BitVec 15)
  /-- Branches if ra is unsigned-greater or equal to rb (R282). -/
  | bgeu (ra : BitVec 5) (rb : BitVec 5) (off : BitVec 15)
  /-- Jumps to B + 4 x off25 (R283). -/
  | j (off : BitVec 25)
  /-- Writes the link to g7 and jumps (R283). -/
  | jal (off : BitVec 25)
  /-- Windowed call: advances the window base by the frame, spills if needed, writes the link to g31 and jumps (R286). -/
  | call (fc : BitVec 2) (off : BitVec 23)
  /-- Jumps to the handle address in ra (R284). -/
  | jr (ra : BitVec 5)
  /-- Windowed call to the address in ra with the frame code in fn (R286). -/
  | callr (ra : BitVec 5) (fc : BitVec 2)
  /-- Returns through g31, restoring the window base and filling spilled granules (R287). -/
  | ret
  /-- Starts loop level k with a register count over the following body (R290). -/
  | loop (k : BitVec 5) (ra : BitVec 5) (len : BitVec 8)
  /-- Starts loop level k with an immediate count over the following body (R290). -/
  | loopi (k : BitVec 5) (cnt : BitVec 7) (len : BitVec 8)
  /-- Sets a step slot of loop level k to add a latched stride to a register at each end test (R292). -/
  | lstep (rd : BitVec 5) (ra : BitVec 5) (k : BitVec 3) (j : BitVec 2)
  /-- Marks the next n body words to issue only in the first iteration (R293). -/
  | lfirst (n : BitVec 5) (k : BitVec 3)
  /-- Marks the next n body words to issue only in the last iteration (R293). -/
  | llast (n : BitVec 5) (k : BitVec 3)
  /-- Ends loop level k and all levels nested in it at once (R294). -/
  | lbreak (k : BitVec 3)
  /-- Loads a sign-extended byte (R297). -/
  | ldb (rd : BitVec 5) (ra : BitVec 5) (sync : BitVec 2) (off : BitVec 13)
  /-- Loads a zero-extended byte (R297). -/
  | ldbu (rd : BitVec 5) (ra : BitVec 5) (sync : BitVec 2) (off : BitVec 13)
  /-- Loads a sign-extended half word (R297). -/
  | ldh (rd : BitVec 5) (ra : BitVec 5) (sync : BitVec 2) (off : BitVec 13)
  /-- Loads a zero-extended half word (R297). -/
  | ldhu (rd : BitVec 5) (ra : BitVec 5) (sync : BitVec 2) (off : BitVec 13)
  /-- Loads a sign-extended word (R297). -/
  | ldw (rd : BitVec 5) (ra : BitVec 5) (sync : BitVec 2) (off : BitVec 13)
  /-- Loads a zero-extended word (R297). -/
  | ldwu (rd : BitVec 5) (ra : BitVec 5) (sync : BitVec 2) (off : BitVec 13)
  /-- Loads a double word (R297). -/
  | ldd (rd : BitVec 5) (ra : BitVec 5) (sync : BitVec 2) (off : BitVec 13)
  /-- Stores a byte (R297). -/
  | stb (rd : BitVec 5) (ra : BitVec 5) (sync : BitVec 2) (off : BitVec 13)
  /-- Stores a half word (R297). -/
  | sth (rd : BitVec 5) (ra : BitVec 5) (sync : BitVec 2) (off : BitVec 13)
  /-- Stores a word (R297). -/
  | stw (rd : BitVec 5) (ra : BitVec 5) (sync : BitVec 2) (off : BitVec 13)
  /-- Stores a double word (R297). -/
  | std (rd : BitVec 5) (ra : BitVec 5) (sync : BitVec 2) (off : BitVec 13)
  /-- Arrives at a named barrier of the core with a participant mask (R305). -/
  | bararr (mask : BitVec 4) (bar : BitVec 8)
  /-- Waits until the strand's arrival at a named barrier has completed its phase (R305). -/
  | barwait (bar : BitVec 8)
  /-- Arrives at a named barrier and waits for its phase (R305). -/
  | barsync (mask : BitVec 4) (bar : BitVec 8)
  /-- Arrives at the domain of the named level and completes at its departure (R306). -/
  | dsync (level : BitVec 3)
  /-- K starts L, X and S at three handle addresses and enters split mode (R191). -/
  | fork (rd : BitVec 5) (ra : BitVec 5) (rb : BitVec 5)
  /-- Reads a control register into rd (R309). -/
  | mfc (rd : BitVec 5) (crn : BitVec 8)
  /-- Writes ra to a control register under its access rules (R309). -/
  | mtc (ra : BitVec 5) (crn : BitVec 8)
  /-- K pops one entry of XQ into rd, waiting while it is empty (R309). -/
  | mfcXq (rd : BitVec 5)
  /-- K pushes ra into q3, waiting while it is full (R309). -/
  | mtcQ3 (ra : BitVec 5)
  -- L half (R267)
  /-- Loads 128 bytes, or an atomic row with the row flag, into q0 or q1 (R312). -/
  | vld (rsz : BitVec 2) (q : BitVec 1) (ga : BitVec 5) (off : BitVec 13) (sync : BitVec 2) (row : BitVec 1)
  /-- Gathers strided elements into one entry of q0 or q1 (R314). -/
  | vlds (esz : BitVec 2) (q : BitVec 1) (ga : BitVec 5) (gs : BitVec 5) (off : BitVec 8) (sync : BitVec 2)
  /-- Broadcasts one element to every lane of an entry of q0 or q1 (R315). -/
  | vldb (esz : BitVec 2) (q : BitVec 1) (ga : BitVec 5) (off : BitVec 13) (sync : BitVec 2)
  /-- Checks a range for an intent and takes XLATE precisely on the first failing byte (R35). -/
  | probe (gl : BitVec 3) (ga : BitVec 5) (off : BitVec 13) (sync : BitVec 2) (intent : BitVec 2)
  /-- Prefetches 128 bytes toward a cache level with no architectural effect (R318). -/
  | pref (lvl : BitVec 3) (ga : BitVec 5) (off : BitVec 13) (sync : BitVec 2) (wr : BitVec 1)
  /-- Acquire or sequentially consistent load into a g register (R319). -/
  | lda (gd : BitVec 3) (ga : BitVec 5) (scope : BitVec 3) (ord : BitVec 3) (off : BitVec 7) (sync : BitVec 2) (sz : BitVec 2)
  /-- Sends an interest for a named tile into an arrival slot, or holds it in the hold buffer (R320). -/
  | nreq (gl : BitVec 3) (ga : BitVec 5) (gn : BitVec 5) (slot : BitVec 6) (rlx : BitVec 1) (sync : BitVec 2)
  /-- Waits on an arrival slot and returns its arrival word, or takes NEVERPROD on expiry (R321). -/
  | nwait (gd : BitVec 3) (slot : BitVec 6) (sync : BitVec 2)
  /-- Removes an arrival slot's record and frees the slot (R322). -/
  | ncancel (slot : BitVec 6) (sync : BitVec 2)
  -- S half (R269)
  /-- Pops a q2 entry and stores 128, 64 or 32 bytes (R323). -/
  | vst (vsz : BitVec 2) (ga : BitVec 5) (off : BitVec 13) (sync : BitVec 2)
  /-- Pops a q2 entry and scatters its lanes with a stride (R324). -/
  | vsts (esz : BitVec 2) (ga : BitVec 5) (gs : BitVec 5) (off : BitVec 8) (sync : BitVec 2)
  /-- Release or sequentially consistent store of a g register (R325). -/
  | stl (gd : BitVec 3) (ga : BitVec 5) (scope : BitVec 3) (ord : BitVec 3) (off : BitVec 7) (sync : BitVec 2) (sz : BitVec 2)
  /-- Atomic add returning the old value (R326). -/
  | amoadd (gd : BitVec 3) (ga : BitVec 5) (scope : BitVec 3) (ord : BitVec 3) (gs : BitVec 5) (sync : BitVec 2) (sz : BitVec 2)
  /-- Atomic signed or unsigned minimum returning the old value (R326). -/
  | amomin (gd : BitVec 3) (ga : BitVec 5) (scope : BitVec 3) (ord : BitVec 3) (gs : BitVec 5) (u : BitVec 1) (sync : BitVec 2) (sz : BitVec 2)
  /-- Atomic signed or unsigned maximum returning the old value (R326). -/
  | amomax (gd : BitVec 3) (ga : BitVec 5) (scope : BitVec 3) (ord : BitVec 3) (gs : BitVec 5) (u : BitVec 1) (sync : BitVec 2) (sz : BitVec 2)
  /-- Atomic AND returning the old value (R326). -/
  | amoand (gd : BitVec 3) (ga : BitVec 5) (scope : BitVec 3) (ord : BitVec 3) (gs : BitVec 5) (sync : BitVec 2) (sz : BitVec 2)
  /-- Atomic OR returning the old value (R326). -/
  | amoor (gd : BitVec 3) (ga : BitVec 5) (scope : BitVec 3) (ord : BitVec 3) (gs : BitVec 5) (sync : BitVec 2) (sz : BitVec 2)
  /-- Atomic XOR returning the old value (R326). -/
  | amoxor (gd : BitVec 3) (ga : BitVec 5) (scope : BitVec 3) (ord : BitVec 3) (gs : BitVec 5) (sync : BitVec 2) (sz : BitVec 2)
  /-- Atomic swap returning the old value (R326). -/
  | amoswp (gd : BitVec 3) (ga : BitVec 5) (scope : BitVec 3) (ord : BitVec 3) (gs : BitVec 5) (sync : BitVec 2) (sz : BitVec 2)
  /-- Atomic compare-and-swap against g[aux], returning the old value (R326). -/
  | amocas (gd : BitVec 3) (ga : BitVec 5) (scope : BitVec 3) (ord : BitVec 3) (gs : BitVec 5) (sync : BitVec 2) (sz : BitVec 2)
  /-- Adds q2 entries into a memory row as one atomic row update (R330). -/
  | vradd (rsz : BitVec 2) (ty : BitVec 1) (ga : BitVec 5) (scope : BitVec 3) (ord : BitVec 3) (off : BitVec 7) (sync : BitVec 2) (sat : BitVec 1)
  /-- Publishes a named tile from source bytes, or holds the publish (R331). -/
  | npub (gz : BitVec 3) (ga : BitVec 5) (gn : BitVec 5) (sync : BitVec 2)
  /-- Broadcast store to a group address on every member, placed in sync-plane order (R332). -/
  | bst (bsz : BitVec 3) (ga : BitVec 5) (gs : BitVec 5) (off : BitVec 8) (sync : BitVec 2)
  -- X half (R268)
  /-- Lane-wise floating add rounded once (R345). -/
  | vadd (o : XOp)
  /-- Lane-wise floating subtract rounded once (R345). -/
  | vsub (o : XOp)
  /-- Lane-wise floating multiply rounded once (R345). -/
  | vmul (o : XOp)
  /-- Fused a x b + c with c popped from vd (R346). -/
  | vfma (o : XOp)
  /-- Fused a x b - c with c popped from vd (R346). -/
  | vfms (o : XOp)
  /-- Fused c - a x b with c popped from vd (R346). -/
  | vfnma (o : XOp)
  /-- Lane-wise floating minimum (R345). -/
  | vmin (o : XOp)
  /-- Lane-wise floating maximum (R345). -/
  | vmax (o : XOp)
  /-- Lane-wise floating absolute value (R345). -/
  | vabs (o : XOp)
  /-- Lane-wise floating negation (R345). -/
  | vneg (o : XOp)
  /-- Lane-wise reciprocal within the R246 bound (R347). -/
  | vrcp (o : XOp)
  /-- Lane-wise reciprocal square root within the R246 bound (R347). -/
  | vrsq (o : XOp)
  /-- Lane-wise base-2 exponential within the R246 bound (R347). -/
  | vexp2 (o : XOp)
  /-- Lane-wise base-2 logarithm within the R246 bound (R347). -/
  | vlog2 (o : XOp)
  /-- Compares lanes under a condition and pushes a mask entry (R350). -/
  | vcmp (o : XOp)
  /-- Selects va or vb lanes by a mask register (R351). -/
  | vsel (o : XOp)
  /-- Converts element types, widening one part or narrowing into one part (R354). -/
  | vcvt (o : XOp)
  /-- Packs lanes to FP4, OB4 or OB8 codes into one part of an entry (R355). -/
  | vpack (o : XOp)
  /-- Unpacks one part of packed FP4, OB4 or OB8 elements (R356). -/
  | vunpk (o : XOp)
  /-- Subtracts OB zero points, pushing one or two entries (R357). -/
  | vzp (o : XOp)
  /-- Applies BF16 band scales to an FP32 accumulator and adds vd's entry (R349). -/
  | vscacc (o : XOp)
  /-- Scales lanes by a power of two from vb (R348). -/
  | vscalex (o : XOp)
  /-- Reduces lanes by the fixed add tree and broadcasts the result (R358). -/
  | vredadd (o : XOp)
  /-- Reduces lanes by the fixed max tree and broadcasts the result (R358). -/
  | vredmax (o : XOp)
  /-- Reduces lanes by the fixed min tree and broadcasts the result (R358). -/
  | vredmin (o : XOp)
  /-- Permutes lanes by per-lane indices (R359). -/
  | vperm (o : XOp)
  /-- Slides lanes by a signed amount (R359). -/
  | vslide (o : XOp)
  /-- Broadcasts one lane to all lanes (R359). -/
  | vbcast (o : XOp)
  /-- Copies an entry lane by lane (R359). -/
  | vmov (o : XOp)
  /-- Sets a v register's logical occupancy to zero and discards its pending pushes (R360). -/
  | vclr (o : XOp)
  /-- Lane-wise wrapping integer add (R361). -/
  | viadd (o : XOp)
  /-- Lane-wise wrapping integer subtract (R361). -/
  | visub (o : XOp)
  /-- Lane-wise low integer product (R361). -/
  | vimul (o : XOp)
  /-- Lane-wise high signed integer product (R361). -/
  | vimulh (o : XOp)
  /-- Lane-wise signed integer minimum (R361). -/
  | vimin (o : XOp)
  /-- Lane-wise signed integer maximum (R361). -/
  | vimax (o : XOp)
  /-- Lane-wise integer absolute value (R361). -/
  | viabs (o : XOp)
  /-- Bitwise AND of lane encodings (R362). -/
  | vand (o : XOp)
  /-- Bitwise OR of lane encodings (R362). -/
  | vor (o : XOp)
  /-- Bitwise XOR of lane encodings (R362). -/
  | vxor (o : XOp)
  /-- Lane-wise shift left (R361). -/
  | vsll (o : XOp)
  /-- Lane-wise logical shift right (R361). -/
  | vsrl (o : XOp)
  /-- Lane-wise arithmetic shift right (R361). -/
  | vsra (o : XOp)
  /-- AND of mask bits (R352). -/
  | vmand (o : XOp)
  /-- OR of mask bits (R352). -/
  | vmor (o : XOp)
  /-- XOR of mask bits (R352). -/
  | vmxor (o : XOp)
  /-- NOT of mask bits (R352). -/
  | vmnot (o : XOp)
  /-- Pushes the count of enabled set lanes to XQ (R353). -/
  | vmpop (o : XOp)
  /-- Pushes the index of the lowest enabled set lane to XQ (R353). -/
  | vmfirst (o : XOp)
  /-- Writes to each lane the count of lower set mask bits (R352). -/
  | viota (o : XOp)
  /-- Extracts one lane to XQ as a 64-bit scalar (R363). -/
  | vxtr (o : XOp)
  -- K half (R270)
  /-- Stages one or two command-record words into the core's open job for an engine (R366). -/
  | jcmd (ra : BitVec 5) (rb : BitVec 5) (eng : BitVec 2) (two : BitVec 1)
  /-- Closes the open job, checks its records, allocates its id and releases to the engine (R367). -/
  | jend (rd : BitVec 5) (tok : BitVec 2)
  /-- Waits for a held job, retires it, acquires its writes and returns its completion word (R371). -/
  | jwait (rd : BitVec 5) (ra : BitVec 5) (stat : BitVec 1)
  /-- Returns a job's completion word if completed, else 0, without retiring (R371). -/
  | jpoll (rd : BitVec 5) (ra : BitVec 5)
  /-- Waits for the earliest completed held job of an engine and retires it (R371). -/
  | jpop (rd : BitVec 5) (eng : BitVec 2) (stat : BitVec 1)
  /-- Defines or undefines a scratchpad ring of the cluster (R385). -/
  | ringdef (n : BitVec 5) (ra : BitVec 5)
  /-- Advances a ring's tail, releasing the added tiles to engines (R386). -/
  | ringadv (n : BitVec 5) (cnt : BitVec 7)
  /-- Reads a ring's configuration or position word (R387). -/
  | ringst (rd : BitVec 5) (n : BitVec 4) (sel : BitVec 1)
  /-- Raises SWTRAP with a number and value, resuming after it on TRET (R396). -/
  | trap (ra : BitVec 5) (n : BitVec 10)
  /-- Returns from the current trap level, reloading the translation array after XLATE (R397). -/
  | tret
  /-- Reads a context register such as DISCRD, STALERD or LQSTAT, optionally clearing LQSTAT.V (R398). -/
  | syscReadContext (rd : BitVec 5) (ra : BitVec 5)
  /-- An XLATE handler enqueues a pager request message, or receives BUSY or retry at once (R40). -/
  | syscPagerRequest (rd : BitVec 5)
  /-- A pager core waits for and takes the next pager request into a 32-byte area (R398). -/
  | syscPagerTake (rd : BitVec 5) (ra : BitVec 5)
  /-- A pager core sends a grant, deny or retry reply to the requesting core as a .sys release (R399). -/
  | syscPagerReply (rd : BitVec 5) (ra : BitVec 5)
  /-- Privileged read of a device register (R400). -/
  | mfs (rd : BitVec 5) (ra : BitVec 5) (off : BitVec 10)
  /-- Privileged write of a device register (R400). -/
  | mts (ra : BitVec 5) (rb : BitVec 5) (off : BitVec 10)
  /-- Saves the task and returns it to the back of its ready order (R402). -/
  | yield
  /-- Ends the task: drains, releases at .sys, cancels slots and futures, and frees its number (R403). -/
  | tend
  /-- Appends a launch descriptor to a launch queue of the context in one indivisible step (R404). -/
  | lnch (rd : BitVec 5) (ra : BitVec 5) (q : BitVec 5)
  /-- Allocates a future for a tool call and dispatches the request (R408). -/
  | fcall (rd : BitVec 5) (ra : BitVec 5)
  /-- Returns a terminal future's result, or saves the task into FUTWAIT (R409). -/
  | fawait (rd : BitVec 5) (ra : BitVec 5)
  /-- Returns a terminal future's result and frees it, or 0 (R409). -/
  | fpoll (rd : BitVec 5) (ra : BitVec 5)
  /-- Cancels a non-terminal future, or returns a terminal one, and frees the entry (R409). -/
  | fcancel (rd : BitVec 5) (ra : BitVec 5)
  /-- Reads Quartz at issue (R412). -/
  | qtzr (rd : BitVec 5)
  /-- Waits outside the core until Quartz reaches a deadline (R412). -/
  | qtzrUntil (rd : BitVec 5) (ra : BitVec 5)
  /-- Validates and binds a translation image to a task or as the context default (R413). -/
  | lttld (rd : BitVec 5) (ra : BitVec 5) (rb : BitVec 5)
  /-- Halts the cluster if breaks are enabled, otherwise raises DEBUG (R415). -/
  | dbg (n : BitVec 10)
  -- Xkredunfut extension of the Ferle harts (R438)
  /-- A sandbox hart claims the oldest pending future and stores its request bytes (R438). -/
  | fget (rs2 : BitVec 5) (rs1 : BitVec 5) (rd : BitVec 5)
  /-- The claiming hart copies its reply into the reply range and resolves the future (R438). -/
  | fres (rs2 : BitVec 5) (rs1 : BitVec 5) (rd : BitVec 5)
  /-- The claiming hart extends a future's deadline (R438). -/
  | fext (rs2 : BitVec 5) (rs1 : BitVec 5) (rd : BitVec 5)
  -- steps and events with no encoding
  /-- A 128-bit bundle issues its four slots in one cycle when every slot can issue (R187). -/
  | bundleIssue (wl : BitVec 32) (wx : BitVec 32) (ws : BitVec 32) (wk : BitVec 32)
  /-- Matrix command accumulating ring tiles A and B into an accumulator in block order (R380). -/
  | mma (clu : Nat) (job : Nat)
  /-- Matrix command accumulating squared differences of ring tiles (R380). -/
  | mdist (clu : Nat) (job : Nat)
  /-- Ranks accumulator columns per row and writes the k best, optionally merging (R382). -/
  | mtopk (clu : Nat) (job : Nat)
  /-- Sets the named accumulators to +0 (R381). -/
  | mzero (clu : Nat) (job : Nat)
  /-- Loads an accumulator from memory (R381). -/
  | mload (clu : Nat) (job : Nat)
  /-- Writes an accumulator to memory converted under RNE (R381). -/
  | mout (clu : Nat) (job : Nat)
  /-- Copy-engine move of a tensor of up to 12 dimensions (R388). -/
  | cpy (clu : Nat) (job : Nat)
  /-- Fills a byte range with a 64-bit pattern (R389). -/
  | cfill (clu : Nat) (job : Nat)
  /-- Gathers rows by an index list (R390). -/
  | cgath (clu : Nat) (job : Nat)
  /-- Scatters rows by an index list (R390). -/
  | cscat (clu : Nat) (job : Nat)
  /-- Copies one tile into a ring slot and advances its tail, one step per tile (R391). -/
  | cring (clu : Nat) (job : Nat)
  /-- An engine command retires after its duration, popping ring heads and freeing the engine (R376). -/
  | commandRetire (clu : Nat) (job : Nat)
  /-- At its stamp a stamped command that cannot issue ends its job with MISS (R225). -/
  | stampMiss (clu : Nat) (job : Nat)
  /-- A job's last write is performed and its completion word is formed (R370). -/
  | jobComplete (clu : Nat) (job : Nat)
  /-- A completed job pushes its token into the named counter once it has room (R372). -/
  | jobTokenPush (clu : Nat) (job : Nat)
  /-- The cluster vector unit binds ready queue heads to free lane groups by weighted arbitration (R223). -/
  | vectorBind (clu : Nat) (free : Nat)
  /-- An X instruction's pushes land in their registers and its flags are ORed into XFCTL (R258). -/
  | xResultLand (n : Nat)
  /-- A read response returns data, writing the load's register or queue and retiring it (R263). -/
  | readResponse (uid : Nat) (data : List Byte)
  /-- A write is performed at its coherence point and the store retires, pushing any token (R263). -/
  | writeCompletion (uid : Nat)
  /-- A task is first placed: its start state is set and its array loaded (R196). -/
  | taskStart (t : Nat)
  /-- A saved task is restored on a core, its array loaded and held notifications applied (R427). -/
  | taskResume (t : Nat)
  /-- The launch manager chooses a task for a free core by class and weighted credit (R216). -/
  | placementDecision (k : Nat)
  /-- The launch manager preloads the next task for a busy core (R221). -/
  | preload (k : Nat)
  /-- A borrowed reserved core is pre-empted for an eligible latency task (R218). -/
  | vacate (t : Nat)
  /-- A task's budget count reaches its budget and the task is pre-empted (R219). -/
  | budgetOverrun (k : Nat)
  /-- A task stops at instruction boundaries and its save proceeds through drains and writes (R426). -/
  | contextSave (k : Nat) (why : Nat)
  /-- The save finishes, the core is freed and the task enters its next state (R426). -/
  | saveComplete (k : Nat)
  /-- A core whose strands all wait on one another raises DEADLOCK within 1,024 cycles (R209). -/
  | deadlockDetect (k : Nat)
  /-- A write of KILL raises the fatal error KILL in an ACTIVE context within 64 cycles (R424). -/
  | ctxkillWrite (c : Nat)
  /-- A write of CTXCTL.RST starts a context reset (R206). -/
  | ctxReset (c : Nat)
  /-- The reset steps complete and the context becomes FREE (R205). -/
  | ctxResetComplete (c : Nat)
  /-- Writing CTXCTL.EN = 1 makes a FREE context ACTIVE (R205). -/
  | ctxEnable (c : Nat)
  /-- Writing CTXCTL.EN = 0 makes new descriptors be rejected (R205). -/
  | ctxDisable (c : Nat)
  /-- The launch manager sees a write to a queue TAIL and reads it with an acquire (R211). -/
  | lqTailUpdate (c : Nat) (q : Nat)
  /-- The launch manager takes and checks the descriptor at HEAD and advances HEAD (R212). -/
  | launchTake (c : Nat) (q : Nat)
  /-- The launch manager places a pager task on an idle pager core from PAGERDESC (R487). -/
  | pagerTaskPlace (k : Nat)
  /-- A write of PAGERDESC names the pager program, re-enabling idle pager cores (R487). -/
  | pagerdescWrite (v : Word)
  /-- A write of PAGERCFG adds or removes pager cores as their tasks end (R37). -/
  | pagercfgWrite (clu : Nat) (v : Word)
  /-- A pager reply from a pager core or the host reaches the requesting core, is held or discarded (R42). -/
  | pagerReplyArrival (src : Option Nat) (v : Word)
  /-- A write of CSSPLIT.SIZE sets PEND until no core of the cluster holds a task (R48). -/
  | cssplitWrite (clu : Nat) (v : Word)
  /-- The split change writes back the L1, zeroes rows and clears PEND and BUSY (R48). -/
  | cssplitChange (clu : Nat)
  /-- Writing MSCWL.EN = 1 accepts or rejects a pinned MSC window (R61). -/
  | mscWindowEnable (stack : Nat) (n : Nat) (v : Word)
  /-- Writing MSCWL.EN = 0 unpins a window at once (R61). -/
  | mscWindowDisable (stack : Nat) (n : Nat) (v : Word)
  /-- The MSC fetches window lines in the background after an enable with FILL (R61). -/
  | mscWindowFill (stack : Nat) (n : Nat)
  /-- At each fade period end, window fade counters reload or count down and may unpin (R62). -/
  | mscFadeBoundary (stack : Nat)
  /-- A request reaches a home agent and is performed in arrival order per line (R65). -/
  | homeAgentRequest (q : HomeReq)
  /-- A downgrade probe reaches a caching agent, which downgrades and answers (R69). -/
  | prbs (p : Probe)
  /-- An invalidate probe reaches a caching agent, which invalidates and answers (R69). -/
  | prbx (p : Probe)
  /-- A recall probe invalidates the copies of every context (R70). -/
  | prbsys (p : Probe)
  /-- A DATA, ACK, NOTHELD or RETRY answer reaches the home agent (R70). -/
  | probeResponse (p : Probe) (a : Answer)
  /-- An agent with no copy under the probe's context answers NOTHELD after exactly 40 cycles (R74). -/
  | notheld (p : Probe)
  /-- A request refused by a pin is re-issued every 64 cycles (R75). -/
  | pinRetry (p : Probe)
  /-- At each epoch end trackers report busy frames and are cleared (R77). -/
  | hptEpochEnd
  /-- Writing MIGCTL.GO submits a migration and decides its status (R79). -/
  | migSubmit (v : Word)
  /-- One 2 KiB line is recalled, read and written at the new frame (R80). -/
  | migLineCopy (old : Nat) (line : Nat)
  /-- When every line is copied, queued requests are forwarded and the old frame holds a redirect (R80). -/
  | migComplete (old : Nat)
  /-- A waiting completion record is written once the event ring has room (R84). -/
  | migCompletionRecord
  /-- Writing MIGREL.GO releases a frame's redirect (R78). -/
  | migRelease (v : Word)
  /-- A destination station accepts or refuses the first flit of a message (R122). -/
  | ringFirstFlit (f : Flit) (room : Bool)
  /-- A twice-refused flit reaches its source station and is removed (R122). -/
  | ringFlitReturn (f : Flit)
  /-- After its backoff the source re-inserts a returned message with RSV set (R122). -/
  | ringReinsert (src : Nat) (tag : Nat)
  /-- A bridge station forwards a rack flit for another module on the same direction, or enters its own into the package ring (R125). -/
  | rackForward (f : Flit) (cw : Bool)
  /-- After the rack backoff a returned message is re-sent (R126). -/
  | rackReinsert (src : Nat) (tag : Nat)
  /-- A region 0x4 access at a bridge station is admitted through the peer-pinned list or refused (R127). -/
  | peerAccess (src : Nat) (p : PeerReq)
  /-- A destination bridge accepts, refuses or drops a protected request by its sequence (R129). -/
  | e2eRequest (src : Nat) (sq : Nat) (room : Bool) (p : PeerReq)
  /-- A response or end-to-end acknowledgement reaches the source bridge (R128). -/
  | e2eAck (dst : Nat) (sq : Nat) (ans : PeerAnswer)
  /-- The end-to-end timer expires and the request is re-sent or given up (R128). -/
  | e2eTimeout (dst : Nat) (sq : Nat)
  /-- A lane-group sender sends a ready flit with the next sequence (R134). -/
  | linkSend (lg : Nat) (f : Flit)
  /-- A lane-group receiver delivers, discards or NAKs a data flit, given by its 160 bytes (R130, R133). -/
  | linkDataFlit (lg : Nat) (body : List Byte) (crc : Word) (room : Bool)
  /-- An acknowledgement frees the sender's copies (R134). -/
  | linkAck (lg : Nat) (n : Nat)
  /-- A NAK frees copies and starts a replay (R134). -/
  | linkNak (lg : Nat) (n : Nat)
  /-- After 128 cycles without 64 deliveries the receiver acknowledges (R133). -/
  | linkAckTimer (lg : Nat)
  /-- The 256-cycle NAK timer expires; the NAK is re-sent or retraining starts (R133). -/
  | linkNakTimer (lg : Nat)
  /-- A receiver detects light lost on a wavelength and sends a notice with the new mask (R137). -/
  | lossOfLight (lg : Nat) (mask : BitVec 16)
  /-- An ELSU monitor reports a fault; the sender stops and trains on the new mask (R134). -/
  | elsuFault (lg : Nat) (e : Nat)
  /-- A loss-of-light notice reaches the sender (R134). -/
  | linkNotice (lg : Nat) (n : Nat) (mask : BitVec 16)
  /-- The sender's training ends and it resends from the receiver's N (R134). -/
  | linkTrainingDone (lg : Nat)
  /-- The receiver locks on the new mask and accepts again (R133). -/
  | linkTrainingLocked (lock : LinkLock)
  /-- Retraining of a lane group succeeds or fails (R135). -/
  | linkRetrainResult (lg : Nat) (trained : LinkTrained)
  /-- A posted window write reaches the target, is reordered by sequence and admitted or refused (R141). -/
  | windowWriteArrival (w : WinWrite)
  /-- A window acknowledgement returns the write's outstanding units (R139). -/
  | windowAck (clu : Nat) (slot : Nat) (seq : Nat) (refused : Bool)
  /-- A pass frame commits earlier messages at a member and hands on the token (R147). -/
  | zgPassFrame (f : List Word)
  /-- A regenerate frame restores a plane's token after loss (R150). -/
  | zgRegenerateFrame (f : List Word)
  /-- A loss report frame is received in the token-loss procedure (R150). -/
  | zgLossReport (f : List Word)
  /-- A sync message is received and held until it commits (R147). -/
  | zgSyncMessage (f : List Word)
  /-- A data burst is received and kept or discarded awaiting its marker (R148). -/
  | zgDataBurst (b : Burst)
  /-- Quartz holds or skips one count per correction interval (R152). -/
  | qtzCorrection
  /-- No frame for 4 x TROT starts the token-loss procedure (R150). -/
  | zgTokenLossTimeout (plane : Nat)
  /-- At its slot a member sends its loss report (R150). -/
  | zgLossReportSlot (plane : Nat)
  /-- After the last slot the lowest reporter regenerates the token (R150). -/
  | zgRegenerate (plane : Nat)
  /-- A router receives an interest and answers, merges, forwards, holds or refuses it (R172). -/
  | agateInterest (rt : Nat) (m : AgMsg) (down : Nat)
  /-- A tile segment arrives; a whole tile is delivered, forwarded and stored (R165). -/
  | agateTileSegment (rt : Nat) (m : AgMsg)
  /-- An announcement updates the announcement cache and learned routes (R164). -/
  | agateAnnouncement (rt : Nat) (m : AgMsg)
  /-- A cancel removes a downstream entry and may propagate upstream (R175). -/
  | agateCancel (rt : Nat) (m : AgMsg) (down : Nat)
  /-- A refresh extends an entry's expiry or acts as a new interest (R168). -/
  | agateRefresh (rt : Nat) (m : AgMsg) (down : Nat)
  /-- A refusal reaches the consumer station and removes nothing (R172). -/
  | agateRefusal (rt : Nat) (m : AgMsg)
  /-- A router frees a pending-interest entry when Quartz reaches its EXP (R173). -/
  | agateEntryExpiry (rt : Nat) (n : Nat)
  /-- A consumer record expires at E; the slot becomes EXPIRED and a waiting NWAIT traps (R174). -/
  | agateRecordExpiry (n : Nat)
  /-- A routing entry write re-examines NOROUTE interests (R163). -/
  | routingEntryWrite (rt : Nat) (n : Nat) (w0 : Word) (w1 : Word)
  /-- A future reaches its deadline and its timeout record is written (R437). -/
  | futureDeadline (f : Nat)
  /-- The endpoint's send of a remote request completes and the entry is dispatched (R437). -/
  | remoteSendComplete (f : Nat)
  /-- A remote tool's tagged reply resolves its entry or is dropped as stale (R441). -/
  | remoteReply (gen : Nat) (f : Nat) (data : List Byte)
  /-- A resolution or timeout record is written to the prefill queue once it has room (R439). -/
  | prefillRecordWrite (f : Nat)
  /-- A terminal future's waiting task enters the front of its ready order (R227). -/
  | futureWake (f : Nat)
  /-- Quartz reaches a QTZR deadline and the wait ends (R412). -/
  | qtzrWake (k : Nat)
  /-- A write of DBGCTL.HALT halts the cluster's cores of the debugged context (R443). -/
  | debugHalt (clu : Nat)
  /-- A write of DBGCTL.RESUME resumes the halted cores and engines (R444). -/
  | debugResume (clu : Nat)
  /-- A cross-trigger signal halts a cluster whose XIN shares the channel (R443). -/
  | crossTrigger (clu : Nat) (ch : Nat)
  /-- At each sample period every core of the debugged context writes a sample record (R450). -/
  | debugSample (clu : Nat)
  /-- A held atomic exceeds REPLAYLIM and divergence is declared (R455). -/
  | berylReplayLimit (p : Nat)
  /-- Writing BERCTL.MODE off flushes the last run and sets END (R453). -/
  | berylModeOff (p : Nat)
  /-- Writing BERCTL.MODE record starts recording atomics (R453). -/
  | berylModeRecord (p : Nat)
  /-- Writing BERCTL.MODE replay starts enforcing the logged order (R454). -/
  | berylModeReplay (p : Nat)
  /-- Module reset returns every field to its reset value (R9). -/
  | moduleReset
  /-- Writing BOOTST.GO in WAIT starts image verification (R461). -/
  | bootGo
  /-- Verification ends in RUN or LOCKED (R461). -/
  | bootVerify
  /-- A write of ATTADDR asks the firmware for a signed report (R462). -/
  | attestRequest (v : Word)
  /-- The firmware writes the report and interrupts the host (R462). -/
  | attestReport
  /-- A cluster with no task enters the deepest power state allowed (R463). -/
  | clusterSleep (clu : Nat)
  /-- A sleeping cluster wakes for a placement (R463). -/
  | clusterWake (clu : Nat)
  /-- After DELAY cycles of waiting on events a core sleeps at its depth (R464). -/
  | coreSleep (k : Nat)
  /-- A sleeping core wakes on its first latched event or a save (R464). -/
  | coreWake (k : Nat)
  /-- A corrected error is counted in CECNT (R465). -/
  | correctedError (unit : Nat) (pa : Nat)
  /-- An uncorrectable error poisons data and may fence its unit (R465). -/
  | uncorrectableError (kind : Nat) (id : Nat) (pa : Nat)
  /-- A margin falls under its threshold, recording and requesting retraining (R467). -/
  | eyeMarginLow (mon : Nat) (mv : Nat) (mt : Nat)
  /-- CKCTL.GO with DIR 0 saves tasks and copies memory to the safe tier (R469). -/
  | checkpointSave (v : Word)
  /-- CKCTL.GO with DIR 1 restores memory from the safe tier (R469). -/
  | checkpointRestore (v : Word)
  /-- The checkpoint copy ends, placement resumes and a record is written (R469). -/
  | checkpointEnd
  /-- A write to a device or control register with no row of its own, under its access types (R7). -/
  | registerWrite (pa : Nat) (v : Word)
  /-- A Ferle hart executes a standard RISC-V instruction (load, store, AMO, fence, CSR access, wfi) under its capabilities and the R115 ordering map (R429). -/
  | ferleHartInstruction (h : Nat) (w : IWord)
  /-- A Crany Link lane is lost, setting SVCREQ with reason 5 and writing a replacement-request RAS record (R468). -/
  | cranyLinkLaneLost (lane : Nat)
  /-- An HBM or LPDDR6 channel finishes the retraining requested by its eye-margin monitor, or by a spare-lane takeover, and its home agents resume their held requests (R467). -/
  | memoryChannelRetrainDone (ch : Nat)
  deriving DecidableEq, Repr

end Sys2Proof
end

