-- ==== Sys2Proof/WellFormed.lean ====
section
/-! DEFINITION. Which instruction terms are well formed: unused fields zero, and unit numbers inside the module's ranges. -/

namespace Sys2Proof

/-- Where an instruction's word may stand (R248). -/
inductive Half where
  | common | only (σ : StrandId) | ferle | step
  deriving DecidableEq, Repr

namespace Instr

/-- Fields an encoded instruction gives no meaning must be zero (R249, R341), and the moves of `XQ` and `Q3` have rows of their own (R309). -/
def fieldsOk : Instr → Bool
  | .nop => true
  | .fence _ _ => true
  | .commit => true
  | .abort => true
  | .wfe _ => true
  | .tsig _ => true
  | .twait _ => true
  | .ttry _ _ => true
  | .ccset _ => true
  | .ccclr _ => true
  | .ccwait _ => true
  | .join _ => true
  | .add _ _ _ => true
  | .sub _ _ _ => true
  | .and _ _ _ => true
  | .or _ _ _ => true
  | .xor _ _ _ => true
  | .andn _ _ _ => true
  | .sll _ _ _ => true
  | .srl _ _ _ => true
  | .sra _ _ _ => true
  | .rol _ _ _ => true
  | .mul _ _ _ => true
  | .mulh _ _ _ => true
  | .mulhu _ _ _ => true
  | .div _ _ _ => true
  | .divu _ _ _ => true
  | .rem _ _ _ => true
  | .remu _ _ _ => true
  | .divw _ _ _ => true
  | .remw _ _ _ => true
  | .min _ _ _ => true
  | .max _ _ _ => true
  | .minu _ _ _ => true
  | .maxu _ _ _ => true
  | .slt _ _ _ => true
  | .sltu _ _ _ => true
  | .seq _ _ _ => true
  | .clz _ _ => true
  | .ctz _ _ => true
  | .popc _ _ => true
  | .addi _ _ _ => true
  | .andi _ _ _ => true
  | .ori _ _ _ => true
  | .xori _ _ _ => true
  | .slli _ _ _ => true
  | .srli _ _ _ => true
  | .srai _ _ _ => true
  | .slti _ _ _ => true
  | .sltiu _ _ _ => true
  | .movhi _ _ _ => true
  | .beq _ _ _ => true
  | .bne _ _ _ => true
  | .blt _ _ _ => true
  | .bge _ _ _ => true
  | .bltu _ _ _ => true
  | .bgeu _ _ _ => true
  | .j _ => true
  | .jal _ => true
  | .call _ _ => true
  | .jr _ => true
  | .callr _ _ => true
  | .ret => true
  | .loop _ _ _ => true
  | .loopi _ _ _ => true
  | .lstep _ _ _ _ => true
  | .lfirst _ _ => true
  | .llast _ _ => true
  | .lbreak _ => true
  | .ldb _ _ _ _ => true
  | .ldbu _ _ _ _ => true
  | .ldh _ _ _ _ => true
  | .ldhu _ _ _ _ => true
  | .ldw _ _ _ _ => true
  | .ldwu _ _ _ _ => true
  | .ldd _ _ _ _ => true
  | .stb _ _ _ _ => true
  | .sth _ _ _ _ => true
  | .stw _ _ _ _ => true
  | .std _ _ _ _ => true
  | .bararr _ _ => true
  | .barwait _ => true
  | .barsync _ _ => true
  | .dsync _ => true
  | .fork _ _ _ => true
  | .mfc _ crn => crn != 9
  | .mtc _ crn => crn != 11
  | .mfcXq _ => true
  | .mtcQ3 _ => true
  | .vld _ _ _ _ _ _ => true
  | .vlds _ _ _ _ _ _ => true
  | .vldb _ _ _ _ _ => true
  | .probe _ _ _ _ _ => true
  | .pref _ _ _ _ _ => true
  | .lda _ _ _ _ _ _ _ => true
  | .nreq _ _ _ _ _ _ => true
  | .nwait _ _ _ => true
  | .ncancel _ _ => true
  | .vst _ _ _ _ => true
  | .vsts _ _ _ _ _ => true
  | .stl _ _ _ _ _ _ _ => true
  | .amoadd _ _ _ _ _ _ _ => true
  | .amomin _ _ _ _ _ _ _ _ => true
  | .amomax _ _ _ _ _ _ _ _ => true
  | .amoand _ _ _ _ _ _ _ => true
  | .amoor _ _ _ _ _ _ _ => true
  | .amoxor _ _ _ _ _ _ _ => true
  | .amoswp _ _ _ _ _ _ _ => true
  | .amocas _ _ _ _ _ _ _ => true
  | .vradd _ _ _ _ _ _ _ _ => true
  | .npub _ _ _ _ => true
  | .bst _ _ _ _ _ => true
  | .vadd _ => true
  | .vsub _ => true
  | .vmul _ => true
  | .vfma _ => true
  | .vfms _ => true
  | .vfnma _ => true
  | .vmin _ => true
  | .vmax _ => true
  | .vabs o => o.vb == 0 && o.pb == 0
  | .vneg o => o.vb == 0 && o.pb == 0
  | .vrcp o => o.vb == 0 && o.pb == 0
  | .vrsq o => o.vb == 0 && o.pb == 0
  | .vexp2 o => o.vb == 0 && o.pb == 0
  | .vlog2 o => o.vb == 0 && o.pb == 0
  | .vcmp o => o.ma == 0
  | .vsel o => o.ma == 0
  | .vcvt o => o.ma == 0 && o.pb == 0
  | .vpack o => o.ma == 0 && o.pb == 0
  | .vunpk o => o.ma == 0 && o.pb == 0
  | .vzp _ => true
  | .vscacc o => o.ty == 0
  | .vscalex _ => true
  | .vredadd o => o.vb == 0 && o.ma == 0 && o.pb == 0
  | .vredmax o => o.vb == 0 && o.ma == 0 && o.pb == 0
  | .vredmin o => o.vb == 0 && o.ma == 0 && o.pb == 0
  | .vperm _ => true
  | .vslide _ => true
  | .vbcast _ => true
  | .vmov o => o.vb == 0 && o.pb == 0
  | .vclr o => o.va == 0 && o.vb == 0 && o.ty == 0 && o.m == 0 && o.ma == 0 && o.pa == 0 && o.pb == 0
  | .viadd _ => true
  | .visub _ => true
  | .vimul _ => true
  | .vimulh _ => true
  | .vimin _ => true
  | .vimax _ => true
  | .viabs o => o.vb == 0 && o.pb == 0
  | .vand _ => true
  | .vor _ => true
  | .vxor _ => true
  | .vsll _ => true
  | .vsrl _ => true
  | .vsra _ => true
  | .vmand _ => true
  | .vmor _ => true
  | .vmxor _ => true
  | .vmnot o => o.vb == 0 && o.pb == 0
  | .vmpop o => o.vd == 0 && o.vb == 0 && o.ma == 0 && o.pb == 0
  | .vmfirst o => o.vd == 0 && o.vb == 0 && o.ma == 0 && o.pb == 0
  | .viota o => o.vb == 0 && o.pb == 0
  | .vxtr o => o.vd == 0 && o.m == 0 && o.ma == 0
  | .jcmd _ _ _ _ => true
  | .jend _ _ => true
  | .jwait _ _ _ => true
  | .jpoll _ _ => true
  | .jpop _ _ _ => true
  | .ringdef _ _ => true
  | .ringadv _ _ => true
  | .ringst _ _ _ => true
  | .trap _ _ => true
  | .tret => true
  | .syscReadContext _ _ => true
  | .syscPagerRequest _ => true
  | .syscPagerTake _ _ => true
  | .syscPagerReply _ _ => true
  | .mfs _ _ _ => true
  | .mts _ _ _ => true
  | .yield => true
  | .tend => true
  | .lnch _ _ _ => true
  | .fcall _ _ => true
  | .fawait _ _ => true
  | .fpoll _ _ => true
  | .fcancel _ _ => true
  | .qtzr _ => true
  | .qtzrUntil _ _ => true
  | .lttld _ _ _ => true
  | .dbg _ => true
  | .fget _ _ _ => true
  | .fres _ _ _ => true
  | .fext _ _ _ => true
  | .bundleIssue _ _ _ _ => true
  | .mma _ _ => true
  | .mdist _ _ => true
  | .mtopk _ _ => true
  | .mzero _ _ => true
  | .mload _ _ => true
  | .mout _ _ => true
  | .cpy _ _ => true
  | .cfill _ _ => true
  | .cgath _ _ => true
  | .cscat _ _ => true
  | .cring _ _ => true
  | .commandRetire _ _ => true
  | .stampMiss _ _ => true
  | .jobComplete _ _ => true
  | .jobTokenPush _ _ => true
  | .vectorBind _ _ => true
  | .xResultLand _ => true
  | .readResponse _ _ => true
  | .writeCompletion _ => true
  | .taskStart _ => true
  | .taskResume _ => true
  | .placementDecision _ => true
  | .preload _ => true
  | .vacate _ => true
  | .budgetOverrun _ => true
  | .contextSave _ _ => true
  | .saveComplete _ => true
  | .deadlockDetect _ => true
  | .ctxkillWrite _ => true
  | .ctxReset _ => true
  | .ctxResetComplete _ => true
  | .ctxEnable _ => true
  | .ctxDisable _ => true
  | .lqTailUpdate _ _ => true
  | .launchTake _ _ => true
  | .pagerTaskPlace _ => true
  | .pagerdescWrite _ => true
  | .pagercfgWrite _ _ => true
  | .pagerReplyArrival _ _ => true
  | .cssplitWrite _ _ => true
  | .cssplitChange _ => true
  | .mscWindowEnable _ _ _ => true
  | .mscWindowDisable _ _ _ => true
  | .mscWindowFill _ _ => true
  | .mscFadeBoundary _ => true
  | .homeAgentRequest _ => true
  | .prbs _ => true
  | .prbx _ => true
  | .prbsys _ => true
  | .probeResponse _ _ => true
  | .notheld _ => true
  | .pinRetry _ => true
  | .hptEpochEnd => true
  | .migSubmit _ => true
  | .migLineCopy _ _ => true
  | .migComplete _ => true
  | .migCompletionRecord => true
  | .migRelease _ => true
  | .ringFirstFlit _ _ => true
  | .ringFlitReturn _ => true
  | .ringReinsert _ _ => true
  | .rackForward _ _ => true
  | .rackReinsert _ _ => true
  | .peerAccess _ _ => true
  | .e2eRequest _ _ _ _ => true
  | .e2eAck _ _ _ => true
  | .e2eTimeout _ _ => true
  | .linkSend _ _ => true
  | .linkDataFlit _ _ _ _ => true
  | .linkAck _ _ => true
  | .linkNak _ _ => true
  | .linkAckTimer _ => true
  | .linkNakTimer _ => true
  | .lossOfLight _ _ => true
  | .elsuFault _ _ => true
  | .linkNotice _ _ _ => true
  | .linkTrainingDone _ => true
  | .linkTrainingLocked _ => true
  | .linkRetrainResult _ _ => true
  | .windowWriteArrival _ => true
  | .windowAck _ _ _ _ => true
  | .zgPassFrame _ => true
  | .zgRegenerateFrame _ => true
  | .zgLossReport _ => true
  | .zgSyncMessage _ => true
  | .zgDataBurst _ => true
  | .qtzCorrection => true
  | .zgTokenLossTimeout _ => true
  | .zgLossReportSlot _ => true
  | .zgRegenerate _ => true
  | .agateInterest _ _ _ => true
  | .agateTileSegment _ _ => true
  | .agateAnnouncement _ _ => true
  | .agateCancel _ _ _ => true
  | .agateRefresh _ _ _ => true
  | .agateRefusal _ _ => true
  | .agateEntryExpiry _ _ => true
  | .agateRecordExpiry _ => true
  | .routingEntryWrite _ _ _ _ => true
  | .futureDeadline _ => true
  | .remoteSendComplete _ => true
  | .remoteReply _ _ _ => true
  | .prefillRecordWrite _ => true
  | .futureWake _ => true
  | .qtzrWake _ => true
  | .debugHalt _ => true
  | .debugResume _ => true
  | .crossTrigger _ _ => true
  | .debugSample _ => true
  | .berylReplayLimit _ => true
  | .berylModeOff _ => true
  | .berylModeRecord _ => true
  | .berylModeReplay _ => true
  | .moduleReset => true
  | .bootGo => true
  | .bootVerify => true
  | .attestRequest _ => true
  | .attestReport => true
  | .clusterSleep _ => true
  | .clusterWake _ => true
  | .coreSleep _ => true
  | .coreWake _ => true
  | .correctedError _ _ => true
  | .uncorrectableError _ _ _ => true
  | .eyeMarginLow _ _ _ => true
  | .checkpointSave _ => true
  | .checkpointRestore _ => true
  | .checkpointEnd => true
  | .registerWrite _ _ => true
  | .ferleHartInstruction _ _ => true
  | .cranyLinkLaneLost _ => true
  | .memoryChannelRetrainDone _ => true

/-- Who issues an instruction: a strand half, the Ferle harts, or no word at all (R186, R248). -/
def half : Instr → Half
  | .nop => .common
  | .fence _ _ => .common
  | .commit => .common
  | .abort => .common
  | .wfe _ => .common
  | .tsig _ => .common
  | .twait _ => .common
  | .ttry _ _ => .common
  | .ccset _ => .common
  | .ccclr _ => .common
  | .ccwait _ => .common
  | .join _ => .common
  | .add _ _ _ => .common
  | .sub _ _ _ => .common
  | .and _ _ _ => .common
  | .or _ _ _ => .common
  | .xor _ _ _ => .common
  | .andn _ _ _ => .common
  | .sll _ _ _ => .common
  | .srl _ _ _ => .common
  | .sra _ _ _ => .common
  | .rol _ _ _ => .common
  | .mul _ _ _ => .common
  | .mulh _ _ _ => .common
  | .mulhu _ _ _ => .common
  | .div _ _ _ => .common
  | .divu _ _ _ => .common
  | .rem _ _ _ => .common
  | .remu _ _ _ => .common
  | .divw _ _ _ => .common
  | .remw _ _ _ => .common
  | .min _ _ _ => .common
  | .max _ _ _ => .common
  | .minu _ _ _ => .common
  | .maxu _ _ _ => .common
  | .slt _ _ _ => .common
  | .sltu _ _ _ => .common
  | .seq _ _ _ => .common
  | .clz _ _ => .common
  | .ctz _ _ => .common
  | .popc _ _ => .common
  | .addi _ _ _ => .common
  | .andi _ _ _ => .common
  | .ori _ _ _ => .common
  | .xori _ _ _ => .common
  | .slli _ _ _ => .common
  | .srli _ _ _ => .common
  | .srai _ _ _ => .common
  | .slti _ _ _ => .common
  | .sltiu _ _ _ => .common
  | .movhi _ _ _ => .common
  | .beq _ _ _ => .common
  | .bne _ _ _ => .common
  | .blt _ _ _ => .common
  | .bge _ _ _ => .common
  | .bltu _ _ _ => .common
  | .bgeu _ _ _ => .common
  | .j _ => .common
  | .jal _ => .common
  | .call _ _ => .common
  | .jr _ => .common
  | .callr _ _ => .common
  | .ret => .common
  | .loop _ _ _ => .common
  | .loopi _ _ _ => .common
  | .lstep _ _ _ _ => .common
  | .lfirst _ _ => .common
  | .llast _ _ => .common
  | .lbreak _ => .common
  | .ldb _ _ _ _ => .common
  | .ldbu _ _ _ _ => .common
  | .ldh _ _ _ _ => .common
  | .ldhu _ _ _ _ => .common
  | .ldw _ _ _ _ => .common
  | .ldwu _ _ _ _ => .common
  | .ldd _ _ _ _ => .common
  | .stb _ _ _ _ => .common
  | .sth _ _ _ _ => .common
  | .stw _ _ _ _ => .common
  | .std _ _ _ _ => .common
  | .bararr _ _ => .common
  | .barwait _ => .common
  | .barsync _ _ => .common
  | .dsync _ => .common
  | .fork _ _ _ => .common
  | .mfc _ _ => .common
  | .mtc _ _ => .common
  | .mfcXq _ => .common
  | .mtcQ3 _ => .common
  | .vld _ _ _ _ _ _ => .only .l
  | .vlds _ _ _ _ _ _ => .only .l
  | .vldb _ _ _ _ _ => .only .l
  | .probe _ _ _ _ _ => .only .l
  | .pref _ _ _ _ _ => .only .l
  | .lda _ _ _ _ _ _ _ => .only .l
  | .nreq _ _ _ _ _ _ => .only .l
  | .nwait _ _ _ => .only .l
  | .ncancel _ _ => .only .l
  | .vst _ _ _ _ => .only .s
  | .vsts _ _ _ _ _ => .only .s
  | .stl _ _ _ _ _ _ _ => .only .s
  | .amoadd _ _ _ _ _ _ _ => .only .s
  | .amomin _ _ _ _ _ _ _ _ => .only .s
  | .amomax _ _ _ _ _ _ _ _ => .only .s
  | .amoand _ _ _ _ _ _ _ => .only .s
  | .amoor _ _ _ _ _ _ _ => .only .s
  | .amoxor _ _ _ _ _ _ _ => .only .s
  | .amoswp _ _ _ _ _ _ _ => .only .s
  | .amocas _ _ _ _ _ _ _ => .only .s
  | .vradd _ _ _ _ _ _ _ _ => .only .s
  | .npub _ _ _ _ => .only .s
  | .bst _ _ _ _ _ => .only .s
  | .vadd _ => .only .x
  | .vsub _ => .only .x
  | .vmul _ => .only .x
  | .vfma _ => .only .x
  | .vfms _ => .only .x
  | .vfnma _ => .only .x
  | .vmin _ => .only .x
  | .vmax _ => .only .x
  | .vabs _ => .only .x
  | .vneg _ => .only .x
  | .vrcp _ => .only .x
  | .vrsq _ => .only .x
  | .vexp2 _ => .only .x
  | .vlog2 _ => .only .x
  | .vcmp _ => .only .x
  | .vsel _ => .only .x
  | .vcvt _ => .only .x
  | .vpack _ => .only .x
  | .vunpk _ => .only .x
  | .vzp _ => .only .x
  | .vscacc _ => .only .x
  | .vscalex _ => .only .x
  | .vredadd _ => .only .x
  | .vredmax _ => .only .x
  | .vredmin _ => .only .x
  | .vperm _ => .only .x
  | .vslide _ => .only .x
  | .vbcast _ => .only .x
  | .vmov _ => .only .x
  | .vclr _ => .only .x
  | .viadd _ => .only .x
  | .visub _ => .only .x
  | .vimul _ => .only .x
  | .vimulh _ => .only .x
  | .vimin _ => .only .x
  | .vimax _ => .only .x
  | .viabs _ => .only .x
  | .vand _ => .only .x
  | .vor _ => .only .x
  | .vxor _ => .only .x
  | .vsll _ => .only .x
  | .vsrl _ => .only .x
  | .vsra _ => .only .x
  | .vmand _ => .only .x
  | .vmor _ => .only .x
  | .vmxor _ => .only .x
  | .vmnot _ => .only .x
  | .vmpop _ => .only .x
  | .vmfirst _ => .only .x
  | .viota _ => .only .x
  | .vxtr _ => .only .x
  | .jcmd _ _ _ _ => .only .k
  | .jend _ _ => .only .k
  | .jwait _ _ _ => .only .k
  | .jpoll _ _ => .only .k
  | .jpop _ _ _ => .only .k
  | .ringdef _ _ => .only .k
  | .ringadv _ _ => .only .k
  | .ringst _ _ _ => .only .k
  | .trap _ _ => .only .k
  | .tret => .only .k
  | .syscReadContext _ _ => .only .k
  | .syscPagerRequest _ => .only .k
  | .syscPagerTake _ _ => .only .k
  | .syscPagerReply _ _ => .only .k
  | .mfs _ _ _ => .only .k
  | .mts _ _ _ => .only .k
  | .yield => .only .k
  | .tend => .only .k
  | .lnch _ _ _ => .only .k
  | .fcall _ _ => .only .k
  | .fawait _ _ => .only .k
  | .fpoll _ _ => .only .k
  | .fcancel _ _ => .only .k
  | .qtzr _ => .only .k
  | .qtzrUntil _ _ => .only .k
  | .lttld _ _ _ => .only .k
  | .dbg _ => .only .k
  | .fget _ _ _ => .ferle
  | .fres _ _ _ => .ferle
  | .fext _ _ _ => .ferle
  | .bundleIssue _ _ _ _ => .step
  | .mma _ _ => .step
  | .mdist _ _ => .step
  | .mtopk _ _ => .step
  | .mzero _ _ => .step
  | .mload _ _ => .step
  | .mout _ _ => .step
  | .cpy _ _ => .step
  | .cfill _ _ => .step
  | .cgath _ _ => .step
  | .cscat _ _ => .step
  | .cring _ _ => .step
  | .commandRetire _ _ => .step
  | .stampMiss _ _ => .step
  | .jobComplete _ _ => .step
  | .jobTokenPush _ _ => .step
  | .vectorBind _ _ => .step
  | .xResultLand _ => .step
  | .readResponse _ _ => .step
  | .writeCompletion _ => .step
  | .taskStart _ => .step
  | .taskResume _ => .step
  | .placementDecision _ => .step
  | .preload _ => .step
  | .vacate _ => .step
  | .budgetOverrun _ => .step
  | .contextSave _ _ => .step
  | .saveComplete _ => .step
  | .deadlockDetect _ => .step
  | .ctxkillWrite _ => .step
  | .ctxReset _ => .step
  | .ctxResetComplete _ => .step
  | .ctxEnable _ => .step
  | .ctxDisable _ => .step
  | .lqTailUpdate _ _ => .step
  | .launchTake _ _ => .step
  | .pagerTaskPlace _ => .step
  | .pagerdescWrite _ => .step
  | .pagercfgWrite _ _ => .step
  | .pagerReplyArrival _ _ => .step
  | .cssplitWrite _ _ => .step
  | .cssplitChange _ => .step
  | .mscWindowEnable _ _ _ => .step
  | .mscWindowDisable _ _ _ => .step
  | .mscWindowFill _ _ => .step
  | .mscFadeBoundary _ => .step
  | .homeAgentRequest _ => .step
  | .prbs _ => .step
  | .prbx _ => .step
  | .prbsys _ => .step
  | .probeResponse _ _ => .step
  | .notheld _ => .step
  | .pinRetry _ => .step
  | .hptEpochEnd => .step
  | .migSubmit _ => .step
  | .migLineCopy _ _ => .step
  | .migComplete _ => .step
  | .migCompletionRecord => .step
  | .migRelease _ => .step
  | .ringFirstFlit _ _ => .step
  | .ringFlitReturn _ => .step
  | .ringReinsert _ _ => .step
  | .rackForward _ _ => .step
  | .rackReinsert _ _ => .step
  | .peerAccess _ _ => .step
  | .e2eRequest _ _ _ _ => .step
  | .e2eAck _ _ _ => .step
  | .e2eTimeout _ _ => .step
  | .linkSend _ _ => .step
  | .linkDataFlit _ _ _ _ => .step
  | .linkAck _ _ => .step
  | .linkNak _ _ => .step
  | .linkAckTimer _ => .step
  | .linkNakTimer _ => .step
  | .lossOfLight _ _ => .step
  | .elsuFault _ _ => .step
  | .linkNotice _ _ _ => .step
  | .linkTrainingDone _ => .step
  | .linkTrainingLocked _ => .step
  | .linkRetrainResult _ _ => .step
  | .windowWriteArrival _ => .step
  | .windowAck _ _ _ _ => .step
  | .zgPassFrame _ => .step
  | .zgRegenerateFrame _ => .step
  | .zgLossReport _ => .step
  | .zgSyncMessage _ => .step
  | .zgDataBurst _ => .step
  | .qtzCorrection => .step
  | .zgTokenLossTimeout _ => .step
  | .zgLossReportSlot _ => .step
  | .zgRegenerate _ => .step
  | .agateInterest _ _ _ => .step
  | .agateTileSegment _ _ => .step
  | .agateAnnouncement _ _ => .step
  | .agateCancel _ _ _ => .step
  | .agateRefresh _ _ _ => .step
  | .agateRefusal _ _ => .step
  | .agateEntryExpiry _ _ => .step
  | .agateRecordExpiry _ => .step
  | .routingEntryWrite _ _ _ _ => .step
  | .futureDeadline _ => .step
  | .remoteSendComplete _ => .step
  | .remoteReply _ _ _ => .step
  | .prefillRecordWrite _ => .step
  | .futureWake _ => .step
  | .qtzrWake _ => .step
  | .debugHalt _ => .step
  | .debugResume _ => .step
  | .crossTrigger _ _ => .step
  | .debugSample _ => .step
  | .berylReplayLimit _ => .step
  | .berylModeOff _ => .step
  | .berylModeRecord _ => .step
  | .berylModeReplay _ => .step
  | .moduleReset => .step
  | .bootGo => .step
  | .bootVerify => .step
  | .attestRequest _ => .step
  | .attestReport => .step
  | .clusterSleep _ => .step
  | .clusterWake _ => .step
  | .coreSleep _ => .step
  | .coreWake _ => .step
  | .correctedError _ _ => .step
  | .uncorrectableError _ _ _ => .step
  | .eyeMarginLow _ _ _ => .step
  | .checkpointSave _ => .step
  | .checkpointRestore _ => .step
  | .checkpointEnd => .step
  | .registerWrite _ _ => .step
  | .ferleHartInstruction _ _ => .step
  | .cranyLinkLaneLost _ => .step
  | .memoryChannelRetrainDone _ => .step

/-- Unit numbers of a step lie in the module's ranges (R2, R64, R71). -/
def unitsOk : Instr → Bool
  | .pagercfgWrite clu _ | .cssplitWrite clu _ | .cssplitChange clu => clu < 256
  | .ctxkillWrite c | .ctxReset c | .ctxResetComplete c | .ctxEnable c | .ctxDisable c => c < 64
  | .lqTailUpdate c q | .launchTake c q => c < 64 && q < 32
  | .mscWindowEnable st n _ | .mscWindowDisable st n _ | .mscWindowFill st n => st < 8 && n < 64
  | .mscFadeBoundary st => st < 8
  | .prbs p | .prbx p | .prbsys p | .notheld p | .pinRetry p | .probeResponse p _ => p.agent < 17 && p.unit < 16
  | _ => true

/-- A well-formed instruction. -/
def wellFormed (i : Instr) : Bool := i.fieldsOk && i.unitsOk

/-- Strand `σ` has a word for the instruction (R186). -/
def issuedBy (i : Instr) (σ : StrandId) : Bool :=
  match i.half with
  | .common => true
  | .only τ => τ == σ
  | _ => false

end Instr

end Sys2Proof
end

