-- ==== Sys2Proof/Decode.lean ====
section
/-! DEFINITION. The decoder of instruction words, by half and strand (R248, R265-R270), and the encoder written from the same tables. -/

namespace Sys2Proof

/-- Bits `lo + len - 1 : lo` of `n` (R5). -/
def fld (n lo len : Nat) : Nat := n / 2 ^ lo % 2 ^ len

/-- The same bits as a bit vector. -/
def bf (n len lo : Nat) : BitVec len := BitVec.ofNat len (n / 2 ^ lo)

/-- The fields of an X word (R252). -/
def xop (n : Nat) : XOp :=
  { vd := bf n 4 21, va := bf n 4 17, vb := bf n 4 13, ty := bf n 3 10, m := bf n 3 7, ma := bf n 1 6,
    lat := bf n 2 4, sync := bf n 2 2, pa := bf n 1 1, pb := bf n 1 0 }

/-- The sum of a base and of fields placed at their low bits. -/
def packNat (base : Nat) : List (Nat × Nat) → Nat
  | [] => base
  | (v, lo) :: fs => packNat (base + v * 2 ^ lo) fs

/-- A word from its fixed bits and its fields (R249). -/
def pack (base : Nat) (fs : List (Nat × Nat)) : IWord := BitVec.ofNat 32 (packNat base fs)

/-- The X word of major `mj` with fields `o` (R252). -/
def xword (mj : Nat) (o : XOp) : IWord :=
  pack (2 ^ 31 + mj * 2 ^ 25)
    [(o.vd.toNat, 21), (o.va.toNat, 17), (o.vb.toNat, 13), (o.ty.toNat, 10), (o.m.toNat, 7), (o.ma.toNat, 6),
     (o.lat.toNat, 4), (o.sync.toNat, 2), (o.pa.toNat, 1), (o.pb.toNat, 0)]

/-- Why bytes are no instruction (R271 checks 1-3). -/
inductive Reject where
  /-- Fewer than four bytes. -/
  | truncated
  /-- The major is reserved in the strand's half. -/
  | reservedMajor
  /-- A reserved selector, or a nonzero reserved field. -/
  | reservedField
  deriving DecidableEq, Repr

/-- The common half (R265, R266). -/
def decodeCommon (n : Nat) : Option Instr :=
  match n / 2 ^ 25 % 64 with
  | 0 => if fld n 0 25 = 0 then some (.nop)
    else if fld n 0 25 = 2 then some (.commit)
    else if fld n 0 25 = 3 then some (.abort)
    else if fld n 0 10 = 5 ∧ fld n 14 11 = 0 then some (.tsig (bf n 4 10))
    else if fld n 0 10 = 6 ∧ fld n 14 11 = 0 then some (.twait (bf n 4 10))
    else if fld n 0 10 = 8 ∧ fld n 14 11 = 0 then some (.ccset (bf n 4 10))
    else if fld n 0 10 = 9 ∧ fld n 14 11 = 0 then some (.ccclr (bf n 4 10))
    else if fld n 0 10 = 10 ∧ fld n 14 11 = 0 then some (.ccwait (bf n 4 10))
    else if fld n 0 10 = 11 ∧ fld n 14 11 = 0 then some (.join (bf n 4 10))
    else if fld n 0 20 = 4 then some (.wfe (bf n 5 20))
    else if fld n 0 15 = 1 ∧ fld n 18 2 = 0 ∧ fld n 23 2 = 0 then some (.fence (bf n 3 20) (bf n 3 15))
    else if fld n 0 10 = 7 ∧ fld n 14 6 = 0 then some (.ttry (bf n 5 20) (bf n 4 10))
    else none
  | 1 => if fld n 0 15 = 26 then some (.clz (bf n 5 20) (bf n 5 15))
    else if fld n 0 15 = 27 then some (.ctz (bf n 5 20) (bf n 5 15))
    else if fld n 0 15 = 28 then some (.popc (bf n 5 20) (bf n 5 15))
    else if fld n 0 10 = 0 then some (.add (bf n 5 20) (bf n 5 15) (bf n 5 10))
    else if fld n 0 10 = 1 then some (.sub (bf n 5 20) (bf n 5 15) (bf n 5 10))
    else if fld n 0 10 = 2 then some (.and (bf n 5 20) (bf n 5 15) (bf n 5 10))
    else if fld n 0 10 = 3 then some (.or (bf n 5 20) (bf n 5 15) (bf n 5 10))
    else if fld n 0 10 = 4 then some (.xor (bf n 5 20) (bf n 5 15) (bf n 5 10))
    else if fld n 0 10 = 5 then some (.andn (bf n 5 20) (bf n 5 15) (bf n 5 10))
    else if fld n 0 10 = 6 then some (.sll (bf n 5 20) (bf n 5 15) (bf n 5 10))
    else if fld n 0 10 = 7 then some (.srl (bf n 5 20) (bf n 5 15) (bf n 5 10))
    else if fld n 0 10 = 8 then some (.sra (bf n 5 20) (bf n 5 15) (bf n 5 10))
    else if fld n 0 10 = 9 then some (.rol (bf n 5 20) (bf n 5 15) (bf n 5 10))
    else if fld n 0 10 = 10 then some (.mul (bf n 5 20) (bf n 5 15) (bf n 5 10))
    else if fld n 0 10 = 11 then some (.mulh (bf n 5 20) (bf n 5 15) (bf n 5 10))
    else if fld n 0 10 = 12 then some (.mulhu (bf n 5 20) (bf n 5 15) (bf n 5 10))
    else if fld n 0 10 = 13 then some (.div (bf n 5 20) (bf n 5 15) (bf n 5 10))
    else if fld n 0 10 = 14 then some (.divu (bf n 5 20) (bf n 5 15) (bf n 5 10))
    else if fld n 0 10 = 15 then some (.rem (bf n 5 20) (bf n 5 15) (bf n 5 10))
    else if fld n 0 10 = 16 then some (.remu (bf n 5 20) (bf n 5 15) (bf n 5 10))
    else if fld n 0 10 = 17 then some (.divw (bf n 5 20) (bf n 5 15) (bf n 5 10))
    else if fld n 0 10 = 18 then some (.remw (bf n 5 20) (bf n 5 15) (bf n 5 10))
    else if fld n 0 10 = 19 then some (.min (bf n 5 20) (bf n 5 15) (bf n 5 10))
    else if fld n 0 10 = 20 then some (.max (bf n 5 20) (bf n 5 15) (bf n 5 10))
    else if fld n 0 10 = 21 then some (.minu (bf n 5 20) (bf n 5 15) (bf n 5 10))
    else if fld n 0 10 = 22 then some (.maxu (bf n 5 20) (bf n 5 15) (bf n 5 10))
    else if fld n 0 10 = 23 then some (.slt (bf n 5 20) (bf n 5 15) (bf n 5 10))
    else if fld n 0 10 = 24 then some (.sltu (bf n 5 20) (bf n 5 15) (bf n 5 10))
    else if fld n 0 10 = 25 then some (.seq (bf n 5 20) (bf n 5 15) (bf n 5 10))
    else none
  | 2 => some (.addi (bf n 5 20) (bf n 5 15) (bf n 15 0))
  | 3 => some (.andi (bf n 5 20) (bf n 5 15) (bf n 15 0))
  | 4 => some (.ori (bf n 5 20) (bf n 5 15) (bf n 15 0))
  | 5 => some (.xori (bf n 5 20) (bf n 5 15) (bf n 15 0))
  | 6 => if fld n 6 9 = 0 then some (.slli (bf n 5 20) (bf n 5 15) (bf n 6 0))
    else if fld n 6 9 = 128 then some (.srli (bf n 5 20) (bf n 5 15) (bf n 6 0))
    else if fld n 6 9 = 256 then some (.srai (bf n 5 20) (bf n 5 15) (bf n 6 0))
    else none
  | 7 => if fld n 14 1 = 0 then some (.slti (bf n 5 20) (bf n 5 15) (bf n 14 0))
    else if fld n 14 1 = 1 then some (.sltiu (bf n 5 20) (bf n 5 15) (bf n 14 0))
    else none
  | 8 => some (.movhi (bf n 5 20) (bf n 5 15) (bf n 15 0))
  | 9 => some (.beq (bf n 5 20) (bf n 5 15) (bf n 15 0))
  | 10 => some (.bne (bf n 5 20) (bf n 5 15) (bf n 15 0))
  | 11 => some (.blt (bf n 5 20) (bf n 5 15) (bf n 15 0))
  | 12 => some (.bge (bf n 5 20) (bf n 5 15) (bf n 15 0))
  | 13 => some (.bltu (bf n 5 20) (bf n 5 15) (bf n 15 0))
  | 14 => some (.bgeu (bf n 5 20) (bf n 5 15) (bf n 15 0))
  | 15 => some (.j (bf n 25 0))
  | 16 => some (.jal (bf n 25 0))
  | 17 => some (.call (bf n 2 23) (bf n 23 0))
  | 18 => if fld n 0 25 = 512 then some (.ret)
    else if fld n 0 15 = 0 ∧ fld n 20 5 = 0 then some (.jr (bf n 5 15))
    else if fld n 2 13 = 64 ∧ fld n 20 5 = 0 then some (.callr (bf n 5 15) (bf n 2 0))
    else none
  | 19 => if fld n 8 7 = 0 then some (.loop (bf n 5 20) (bf n 5 15) (bf n 8 0))
    else none
  | 20 => if fld n 15 5 = 0 then some (.loopi (bf n 5 20) (bf n 7 8) (bf n 8 0))
    else none
  | 21 => if fld n 3 22 = 96 then some (.lbreak (bf n 3 0))
    else if fld n 8 17 = 1 then some (.lfirst (bf n 5 3) (bf n 3 0))
    else if fld n 8 17 = 2 then some (.llast (bf n 5 3) (bf n 3 0))
    else if fld n 0 3 = 0 ∧ fld n 8 7 = 0 then some (.lstep (bf n 5 20) (bf n 5 15) (bf n 3 5) (bf n 2 3))
    else none
  | 22 => some (.ldb (bf n 5 20) (bf n 5 15) (bf n 2 13) (bf n 13 0))
  | 23 => some (.ldbu (bf n 5 20) (bf n 5 15) (bf n 2 13) (bf n 13 0))
  | 24 => some (.ldh (bf n 5 20) (bf n 5 15) (bf n 2 13) (bf n 13 0))
  | 25 => some (.ldhu (bf n 5 20) (bf n 5 15) (bf n 2 13) (bf n 13 0))
  | 26 => some (.ldw (bf n 5 20) (bf n 5 15) (bf n 2 13) (bf n 13 0))
  | 27 => some (.ldwu (bf n 5 20) (bf n 5 15) (bf n 2 13) (bf n 13 0))
  | 28 => some (.ldd (bf n 5 20) (bf n 5 15) (bf n 2 13) (bf n 13 0))
  | 29 => some (.stb (bf n 5 20) (bf n 5 15) (bf n 2 13) (bf n 13 0))
  | 30 => some (.sth (bf n 5 20) (bf n 5 15) (bf n 2 13) (bf n 13 0))
  | 31 => some (.stw (bf n 5 20) (bf n 5 15) (bf n 2 13) (bf n 13 0))
  | 32 => some (.std (bf n 5 20) (bf n 5 15) (bf n 2 13) (bf n 13 0))
  | 33 => if fld n 8 17 = 1 then some (.barwait (bf n 8 0))
    else if fld n 8 7 = 0 ∧ fld n 19 6 = 0 then some (.bararr (bf n 4 15) (bf n 8 0))
    else if fld n 8 7 = 2 ∧ fld n 19 6 = 0 then some (.barsync (bf n 4 15) (bf n 8 0))
    else none
  | 34 => if fld n 3 22 = 0 then some (.dsync (bf n 3 0))
    else none
  | 35 => if fld n 0 10 = 0 then some (.fork (bf n 5 20) (bf n 5 15) (bf n 5 10))
    else none
  | 36 => if fld n 0 20 = 9 then some (.mfcXq (bf n 5 20))
    else if fld n 0 15 = 267 ∧ fld n 20 5 = 0 then some (.mtcQ3 (bf n 5 15))
    else if fld n 8 12 = 0 then some (.mfc (bf n 5 20) (bf n 8 0))
    else if fld n 8 7 = 1 ∧ fld n 20 5 = 0 then some (.mtc (bf n 5 15) (bf n 8 0))
    else none
  | _ => none

/-- The L-private half (R267, R310). -/
def decodeL (n : Nat) : Option Instr :=
  match n / 2 ^ 25 % 64 with
  | 0 => if fld n 1 1 = 0 then some (.vld (bf n 2 23) (bf n 1 22) (bf n 5 17) (bf n 13 4) (bf n 2 2) (bf n 1 0))
    else none
  | 1 => if fld n 0 2 = 0 then some (.vlds (bf n 2 23) (bf n 1 22) (bf n 5 17) (bf n 5 12) (bf n 8 4) (bf n 2 2))
    else none
  | 2 => if fld n 0 2 = 0 then some (.vldb (bf n 2 23) (bf n 1 22) (bf n 5 17) (bf n 13 4) (bf n 2 2))
    else none
  | 3 => some (.probe (bf n 3 22) (bf n 5 17) (bf n 13 4) (bf n 2 2) (bf n 2 0))
  | 4 => if fld n 1 1 = 0 then some (.pref (bf n 3 22) (bf n 5 17) (bf n 13 4) (bf n 2 2) (bf n 1 0))
    else none
  | 5 => some (.lda (bf n 3 22) (bf n 5 17) (bf n 3 14) (bf n 3 11) (bf n 7 4) (bf n 2 2) (bf n 2 0))
  | 6 => if fld n 0 2 = 0 ∧ fld n 4 1 = 0 then some (.nreq (bf n 3 22) (bf n 5 17) (bf n 5 12) (bf n 6 6) (bf n 1 5) (bf n 2 2))
    else none
  | 7 => if fld n 0 2 = 0 ∧ fld n 10 12 = 0 then some (.nwait (bf n 3 22) (bf n 6 4) (bf n 2 2))
    else none
  | 8 => if fld n 0 2 = 0 ∧ fld n 10 15 = 0 then some (.ncancel (bf n 6 4) (bf n 2 2))
    else none
  | _ => none

/-- The S-private half (R269, R310). -/
def decodeS (n : Nat) : Option Instr :=
  match n / 2 ^ 25 % 64 with
  | 0 => if fld n 0 2 = 0 ∧ fld n 22 1 = 0 then some (.vst (bf n 2 23) (bf n 5 17) (bf n 13 4) (bf n 2 2))
    else none
  | 1 => if fld n 0 2 = 0 ∧ fld n 22 1 = 0 then some (.vsts (bf n 2 23) (bf n 5 17) (bf n 5 12) (bf n 8 4) (bf n 2 2))
    else none
  | 2 => some (.stl (bf n 3 22) (bf n 5 17) (bf n 3 14) (bf n 3 11) (bf n 7 4) (bf n 2 2) (bf n 2 0))
  | 3 => if fld n 4 2 = 0 then some (.amoadd (bf n 3 22) (bf n 5 17) (bf n 3 14) (bf n 3 11) (bf n 5 6) (bf n 2 2) (bf n 2 0))
    else none
  | 4 => if fld n 5 1 = 0 then some (.amomin (bf n 3 22) (bf n 5 17) (bf n 3 14) (bf n 3 11) (bf n 5 6) (bf n 1 4) (bf n 2 2) (bf n 2 0))
    else none
  | 5 => if fld n 5 1 = 0 then some (.amomax (bf n 3 22) (bf n 5 17) (bf n 3 14) (bf n 3 11) (bf n 5 6) (bf n 1 4) (bf n 2 2) (bf n 2 0))
    else none
  | 6 => if fld n 4 2 = 0 then some (.amoand (bf n 3 22) (bf n 5 17) (bf n 3 14) (bf n 3 11) (bf n 5 6) (bf n 2 2) (bf n 2 0))
    else none
  | 7 => if fld n 4 2 = 0 then some (.amoor (bf n 3 22) (bf n 5 17) (bf n 3 14) (bf n 3 11) (bf n 5 6) (bf n 2 2) (bf n 2 0))
    else none
  | 8 => if fld n 4 2 = 0 then some (.amoxor (bf n 3 22) (bf n 5 17) (bf n 3 14) (bf n 3 11) (bf n 5 6) (bf n 2 2) (bf n 2 0))
    else none
  | 9 => if fld n 4 2 = 0 then some (.amoswp (bf n 3 22) (bf n 5 17) (bf n 3 14) (bf n 3 11) (bf n 5 6) (bf n 2 2) (bf n 2 0))
    else none
  | 10 => if fld n 4 2 = 0 then some (.amocas (bf n 3 22) (bf n 5 17) (bf n 3 14) (bf n 3 11) (bf n 5 6) (bf n 2 2) (bf n 2 0))
    else none
  | 11 => if fld n 1 1 = 0 then some (.vradd (bf n 2 23) (bf n 1 22) (bf n 5 17) (bf n 3 14) (bf n 3 11) (bf n 7 4) (bf n 2 2) (bf n 1 0))
    else none
  | 12 => if fld n 0 2 = 0 ∧ fld n 4 8 = 0 then some (.npub (bf n 3 22) (bf n 5 17) (bf n 5 12) (bf n 2 2))
    else none
  | 13 => if fld n 0 2 = 0 then some (.bst (bf n 3 22) (bf n 5 17) (bf n 5 12) (bf n 8 4) (bf n 2 2))
    else none
  | _ => none

/-- The X-private half (R268, R341). -/
def decodeX (n : Nat) : Option Instr :=
  match n / 2 ^ 25 % 64 with
  | 0 => some (.vadd (xop n))
  | 1 => some (.vsub (xop n))
  | 2 => some (.vmul (xop n))
  | 3 => some (.vfma (xop n))
  | 4 => some (.vfms (xop n))
  | 5 => some (.vfnma (xop n))
  | 6 => some (.vmin (xop n))
  | 7 => some (.vmax (xop n))
  | 8 => if fld n 0 1 = 0 ∧ fld n 13 4 = 0 then some (.vabs (xop n))
    else none
  | 9 => if fld n 0 1 = 0 ∧ fld n 13 4 = 0 then some (.vneg (xop n))
    else none
  | 10 => if fld n 0 1 = 0 ∧ fld n 13 4 = 0 then some (.vrcp (xop n))
    else none
  | 11 => if fld n 0 1 = 0 ∧ fld n 13 4 = 0 then some (.vrsq (xop n))
    else none
  | 12 => if fld n 0 1 = 0 ∧ fld n 13 4 = 0 then some (.vexp2 (xop n))
    else none
  | 13 => if fld n 0 1 = 0 ∧ fld n 13 4 = 0 then some (.vlog2 (xop n))
    else none
  | 14 => if fld n 6 1 = 0 then some (.vcmp (xop n))
    else none
  | 15 => if fld n 6 1 = 0 then some (.vsel (xop n))
    else none
  | 16 => if fld n 0 1 = 0 ∧ fld n 6 1 = 0 then some (.vcvt (xop n))
    else none
  | 17 => if fld n 0 1 = 0 ∧ fld n 6 1 = 0 then some (.vpack (xop n))
    else none
  | 18 => if fld n 0 1 = 0 ∧ fld n 6 1 = 0 then some (.vunpk (xop n))
    else none
  | 19 => some (.vzp (xop n))
  | 20 => if fld n 10 3 = 0 then some (.vscacc (xop n))
    else none
  | 21 => some (.vscalex (xop n))
  | 22 => if fld n 0 1 = 0 ∧ fld n 6 1 = 0 ∧ fld n 13 4 = 0 then some (.vredadd (xop n))
    else none
  | 23 => if fld n 0 1 = 0 ∧ fld n 6 1 = 0 ∧ fld n 13 4 = 0 then some (.vredmax (xop n))
    else none
  | 24 => if fld n 0 1 = 0 ∧ fld n 6 1 = 0 ∧ fld n 13 4 = 0 then some (.vredmin (xop n))
    else none
  | 25 => some (.vperm (xop n))
  | 26 => some (.vslide (xop n))
  | 27 => some (.vbcast (xop n))
  | 28 => if fld n 0 1 = 0 ∧ fld n 13 4 = 0 then some (.vmov (xop n))
    else none
  | 29 => if fld n 0 2 = 0 ∧ fld n 6 15 = 0 then some (.vclr (xop n))
    else none
  | 30 => some (.viadd (xop n))
  | 31 => some (.visub (xop n))
  | 32 => some (.vimul (xop n))
  | 33 => some (.vimulh (xop n))
  | 34 => some (.vimin (xop n))
  | 35 => some (.vimax (xop n))
  | 36 => if fld n 0 1 = 0 ∧ fld n 13 4 = 0 then some (.viabs (xop n))
    else none
  | 37 => some (.vand (xop n))
  | 38 => some (.vor (xop n))
  | 39 => some (.vxor (xop n))
  | 40 => some (.vsll (xop n))
  | 41 => some (.vsrl (xop n))
  | 42 => some (.vsra (xop n))
  | 43 => some (.vmand (xop n))
  | 44 => some (.vmor (xop n))
  | 45 => some (.vmxor (xop n))
  | 46 => if fld n 0 1 = 0 ∧ fld n 13 4 = 0 then some (.vmnot (xop n))
    else none
  | 47 => if fld n 0 1 = 0 ∧ fld n 6 1 = 0 ∧ fld n 13 4 = 0 ∧ fld n 21 4 = 0 then some (.vmpop (xop n))
    else none
  | 48 => if fld n 0 1 = 0 ∧ fld n 6 1 = 0 ∧ fld n 13 4 = 0 ∧ fld n 21 4 = 0 then some (.vmfirst (xop n))
    else none
  | 49 => if fld n 0 1 = 0 ∧ fld n 13 4 = 0 then some (.viota (xop n))
    else none
  | 50 => if fld n 6 4 = 0 ∧ fld n 21 4 = 0 then some (.vxtr (xop n))
    else none
  | _ => none

/-- The K-private half (R270, R365, R394). -/
def decodeK (n : Nat) : Option Instr :=
  match n / 2 ^ 25 % 64 with
  | 0 => if fld n 1 7 = 0 ∧ fld n 20 5 = 0 then some (.jcmd (bf n 5 15) (bf n 5 10) (bf n 2 8) (bf n 1 0))
    else none
  | 1 => if fld n 2 18 = 0 then some (.jend (bf n 5 20) (bf n 2 0))
    else none
  | 2 => if fld n 1 14 = 0 then some (.jwait (bf n 5 20) (bf n 5 15) (bf n 1 0))
    else none
  | 3 => if fld n 0 15 = 0 then some (.jpoll (bf n 5 20) (bf n 5 15))
    else none
  | 4 => if fld n 1 7 = 0 ∧ fld n 10 10 = 0 then some (.jpop (bf n 5 20) (bf n 2 8) (bf n 1 0))
    else none
  | 5 => if fld n 0 15 = 0 then some (.ringdef (bf n 5 20) (bf n 5 15))
    else none
  | 6 => if fld n 7 13 = 0 then some (.ringadv (bf n 5 20) (bf n 7 0))
    else none
  | 7 => if fld n 5 15 = 0 then some (.ringst (bf n 5 20) (bf n 4 1) (bf n 1 0))
    else none
  | 8 => if fld n 10 5 = 0 ∧ fld n 20 5 = 0 then some (.trap (bf n 5 15) (bf n 10 0))
    else none
  | 9 => if fld n 0 25 = 0 then some (.tret)
    else none
  | 10 => if fld n 0 20 = 16 then some (.syscPagerRequest (bf n 5 20))
    else if fld n 0 15 = 1 then some (.syscReadContext (bf n 5 20) (bf n 5 15))
    else if fld n 0 15 = 17 then some (.syscPagerTake (bf n 5 20) (bf n 5 15))
    else if fld n 0 15 = 18 then some (.syscPagerReply (bf n 5 20) (bf n 5 15))
    else none
  | 11 => if fld n 10 5 = 0 then some (.mfs (bf n 5 20) (bf n 5 15) (bf n 10 0))
    else none
  | 12 => if fld n 20 5 = 0 then some (.mts (bf n 5 15) (bf n 5 10) (bf n 10 0))
    else none
  | 13 => if fld n 0 25 = 0 then some (.yield)
    else none
  | 14 => if fld n 0 25 = 0 then some (.tend)
    else none
  | 15 => if fld n 5 10 = 0 then some (.lnch (bf n 5 20) (bf n 5 15) (bf n 5 0))
    else none
  | 16 => if fld n 0 15 = 0 then some (.fcall (bf n 5 20) (bf n 5 15))
    else none
  | 17 => if fld n 0 15 = 0 then some (.fawait (bf n 5 20) (bf n 5 15))
    else none
  | 18 => if fld n 0 15 = 0 then some (.fpoll (bf n 5 20) (bf n 5 15))
    else none
  | 19 => if fld n 0 15 = 0 then some (.fcancel (bf n 5 20) (bf n 5 15))
    else none
  | 20 => if fld n 0 20 = 0 then some (.qtzr (bf n 5 20))
    else if fld n 0 15 = 1 then some (.qtzrUntil (bf n 5 20) (bf n 5 15))
    else none
  | 21 => if fld n 0 10 = 0 then some (.lttld (bf n 5 20) (bf n 5 15) (bf n 5 10))
    else none
  | 22 => if fld n 10 15 = 0 then some (.dbg (bf n 10 0))
    else none
  | _ => none

/-- The custom-0 words of `Xkredunfut` (R438). -/
def decodeFerle (n : Nat) : Option Instr :=
  if fld n 0 7 = 11 ∧ fld n 25 7 = 0 then
    match fld n 12 3 with
    | 0 => some (.fget (bf n 5 20) (bf n 5 15) (bf n 5 7))
    | 1 => some (.fres (bf n 5 20) (bf n 5 15) (bf n 5 7))
    | 2 => some (.fext (bf n 5 20) (bf n 5 15) (bf n 5 7))
    | _ => none
  else none

/-- The word of an encoded instruction, written from the same tables; none for a step that has no encoding. -/
def encode : Instr → Option IWord
  | .nop => some (pack 0x00000000 [])
  | .fence scope ord => some (pack 0x00000001 [(scope.toNat, 20), (ord.toNat, 15)])
  | .commit => some (pack 0x00000002 [])
  | .abort => some (pack 0x00000003 [])
  | .wfe rd => some (pack 0x00000004 [(rd.toNat, 20)])
  | .tsig pair => some (pack 0x00000005 [(pair.toNat, 10)])
  | .twait pair => some (pack 0x00000006 [(pair.toNat, 10)])
  | .ttry rd pair => some (pack 0x00000007 [(rd.toNat, 20), (pair.toNat, 10)])
  | .ccset cc => some (pack 0x00000008 [(cc.toNat, 10)])
  | .ccclr cc => some (pack 0x00000009 [(cc.toNat, 10)])
  | .ccwait cc => some (pack 0x0000000A [(cc.toNat, 10)])
  | .join cc => some (pack 0x0000000B [(cc.toNat, 10)])
  | .add rd ra rb => some (pack 0x02000000 [(rd.toNat, 20), (ra.toNat, 15), (rb.toNat, 10)])
  | .sub rd ra rb => some (pack 0x02000001 [(rd.toNat, 20), (ra.toNat, 15), (rb.toNat, 10)])
  | .and rd ra rb => some (pack 0x02000002 [(rd.toNat, 20), (ra.toNat, 15), (rb.toNat, 10)])
  | .or rd ra rb => some (pack 0x02000003 [(rd.toNat, 20), (ra.toNat, 15), (rb.toNat, 10)])
  | .xor rd ra rb => some (pack 0x02000004 [(rd.toNat, 20), (ra.toNat, 15), (rb.toNat, 10)])
  | .andn rd ra rb => some (pack 0x02000005 [(rd.toNat, 20), (ra.toNat, 15), (rb.toNat, 10)])
  | .sll rd ra rb => some (pack 0x02000006 [(rd.toNat, 20), (ra.toNat, 15), (rb.toNat, 10)])
  | .srl rd ra rb => some (pack 0x02000007 [(rd.toNat, 20), (ra.toNat, 15), (rb.toNat, 10)])
  | .sra rd ra rb => some (pack 0x02000008 [(rd.toNat, 20), (ra.toNat, 15), (rb.toNat, 10)])
  | .rol rd ra rb => some (pack 0x02000009 [(rd.toNat, 20), (ra.toNat, 15), (rb.toNat, 10)])
  | .mul rd ra rb => some (pack 0x0200000A [(rd.toNat, 20), (ra.toNat, 15), (rb.toNat, 10)])
  | .mulh rd ra rb => some (pack 0x0200000B [(rd.toNat, 20), (ra.toNat, 15), (rb.toNat, 10)])
  | .mulhu rd ra rb => some (pack 0x0200000C [(rd.toNat, 20), (ra.toNat, 15), (rb.toNat, 10)])
  | .div rd ra rb => some (pack 0x0200000D [(rd.toNat, 20), (ra.toNat, 15), (rb.toNat, 10)])
  | .divu rd ra rb => some (pack 0x0200000E [(rd.toNat, 20), (ra.toNat, 15), (rb.toNat, 10)])
  | .rem rd ra rb => some (pack 0x0200000F [(rd.toNat, 20), (ra.toNat, 15), (rb.toNat, 10)])
  | .remu rd ra rb => some (pack 0x02000010 [(rd.toNat, 20), (ra.toNat, 15), (rb.toNat, 10)])
  | .divw rd ra rb => some (pack 0x02000011 [(rd.toNat, 20), (ra.toNat, 15), (rb.toNat, 10)])
  | .remw rd ra rb => some (pack 0x02000012 [(rd.toNat, 20), (ra.toNat, 15), (rb.toNat, 10)])
  | .min rd ra rb => some (pack 0x02000013 [(rd.toNat, 20), (ra.toNat, 15), (rb.toNat, 10)])
  | .max rd ra rb => some (pack 0x02000014 [(rd.toNat, 20), (ra.toNat, 15), (rb.toNat, 10)])
  | .minu rd ra rb => some (pack 0x02000015 [(rd.toNat, 20), (ra.toNat, 15), (rb.toNat, 10)])
  | .maxu rd ra rb => some (pack 0x02000016 [(rd.toNat, 20), (ra.toNat, 15), (rb.toNat, 10)])
  | .slt rd ra rb => some (pack 0x02000017 [(rd.toNat, 20), (ra.toNat, 15), (rb.toNat, 10)])
  | .sltu rd ra rb => some (pack 0x02000018 [(rd.toNat, 20), (ra.toNat, 15), (rb.toNat, 10)])
  | .seq rd ra rb => some (pack 0x02000019 [(rd.toNat, 20), (ra.toNat, 15), (rb.toNat, 10)])
  | .clz rd ra => some (pack 0x0200001A [(rd.toNat, 20), (ra.toNat, 15)])
  | .ctz rd ra => some (pack 0x0200001B [(rd.toNat, 20), (ra.toNat, 15)])
  | .popc rd ra => some (pack 0x0200001C [(rd.toNat, 20), (ra.toNat, 15)])
  | .addi rd ra imm => some (pack 0x04000000 [(rd.toNat, 20), (ra.toNat, 15), (imm.toNat, 0)])
  | .andi rd ra imm => some (pack 0x06000000 [(rd.toNat, 20), (ra.toNat, 15), (imm.toNat, 0)])
  | .ori rd ra imm => some (pack 0x08000000 [(rd.toNat, 20), (ra.toNat, 15), (imm.toNat, 0)])
  | .xori rd ra imm => some (pack 0x0A000000 [(rd.toNat, 20), (ra.toNat, 15), (imm.toNat, 0)])
  | .slli rd ra sh => some (pack 0x0C000000 [(rd.toNat, 20), (ra.toNat, 15), (sh.toNat, 0)])
  | .srli rd ra sh => some (pack 0x0C002000 [(rd.toNat, 20), (ra.toNat, 15), (sh.toNat, 0)])
  | .srai rd ra sh => some (pack 0x0C004000 [(rd.toNat, 20), (ra.toNat, 15), (sh.toNat, 0)])
  | .slti rd ra imm => some (pack 0x0E000000 [(rd.toNat, 20), (ra.toNat, 15), (imm.toNat, 0)])
  | .sltiu rd ra imm => some (pack 0x0E004000 [(rd.toNat, 20), (ra.toNat, 15), (imm.toNat, 0)])
  | .movhi rd ra imm => some (pack 0x10000000 [(rd.toNat, 20), (ra.toNat, 15), (imm.toNat, 0)])
  | .beq ra rb off => some (pack 0x12000000 [(ra.toNat, 20), (rb.toNat, 15), (off.toNat, 0)])
  | .bne ra rb off => some (pack 0x14000000 [(ra.toNat, 20), (rb.toNat, 15), (off.toNat, 0)])
  | .blt ra rb off => some (pack 0x16000000 [(ra.toNat, 20), (rb.toNat, 15), (off.toNat, 0)])
  | .bge ra rb off => some (pack 0x18000000 [(ra.toNat, 20), (rb.toNat, 15), (off.toNat, 0)])
  | .bltu ra rb off => some (pack 0x1A000000 [(ra.toNat, 20), (rb.toNat, 15), (off.toNat, 0)])
  | .bgeu ra rb off => some (pack 0x1C000000 [(ra.toNat, 20), (rb.toNat, 15), (off.toNat, 0)])
  | .j off => some (pack 0x1E000000 [(off.toNat, 0)])
  | .jal off => some (pack 0x20000000 [(off.toNat, 0)])
  | .call fc off => some (pack 0x22000000 [(fc.toNat, 23), (off.toNat, 0)])
  | .jr ra => some (pack 0x24000000 [(ra.toNat, 15)])
  | .callr ra fc => some (pack 0x24000100 [(ra.toNat, 15), (fc.toNat, 0)])
  | .ret => some (pack 0x24000200 [])
  | .loop k ra len => some (pack 0x26000000 [(k.toNat, 20), (ra.toNat, 15), (len.toNat, 0)])
  | .loopi k cnt len => some (pack 0x28000000 [(k.toNat, 20), (cnt.toNat, 8), (len.toNat, 0)])
  | .lstep rd ra k j => some (pack 0x2A000000 [(rd.toNat, 20), (ra.toNat, 15), (k.toNat, 5), (j.toNat, 3)])
  | .lfirst n k => some (pack 0x2A000100 [(n.toNat, 3), (k.toNat, 0)])
  | .llast n k => some (pack 0x2A000200 [(n.toNat, 3), (k.toNat, 0)])
  | .lbreak k => some (pack 0x2A000300 [(k.toNat, 0)])
  | .ldb rd ra sync off => some (pack 0x2C000000 [(rd.toNat, 20), (ra.toNat, 15), (sync.toNat, 13), (off.toNat, 0)])
  | .ldbu rd ra sync off => some (pack 0x2E000000 [(rd.toNat, 20), (ra.toNat, 15), (sync.toNat, 13), (off.toNat, 0)])
  | .ldh rd ra sync off => some (pack 0x30000000 [(rd.toNat, 20), (ra.toNat, 15), (sync.toNat, 13), (off.toNat, 0)])
  | .ldhu rd ra sync off => some (pack 0x32000000 [(rd.toNat, 20), (ra.toNat, 15), (sync.toNat, 13), (off.toNat, 0)])
  | .ldw rd ra sync off => some (pack 0x34000000 [(rd.toNat, 20), (ra.toNat, 15), (sync.toNat, 13), (off.toNat, 0)])
  | .ldwu rd ra sync off => some (pack 0x36000000 [(rd.toNat, 20), (ra.toNat, 15), (sync.toNat, 13), (off.toNat, 0)])
  | .ldd rd ra sync off => some (pack 0x38000000 [(rd.toNat, 20), (ra.toNat, 15), (sync.toNat, 13), (off.toNat, 0)])
  | .stb rd ra sync off => some (pack 0x3A000000 [(rd.toNat, 20), (ra.toNat, 15), (sync.toNat, 13), (off.toNat, 0)])
  | .sth rd ra sync off => some (pack 0x3C000000 [(rd.toNat, 20), (ra.toNat, 15), (sync.toNat, 13), (off.toNat, 0)])
  | .stw rd ra sync off => some (pack 0x3E000000 [(rd.toNat, 20), (ra.toNat, 15), (sync.toNat, 13), (off.toNat, 0)])
  | .std rd ra sync off => some (pack 0x40000000 [(rd.toNat, 20), (ra.toNat, 15), (sync.toNat, 13), (off.toNat, 0)])
  | .bararr mask bar => some (pack 0x42000000 [(mask.toNat, 15), (bar.toNat, 0)])
  | .barwait bar => some (pack 0x42000100 [(bar.toNat, 0)])
  | .barsync mask bar => some (pack 0x42000200 [(mask.toNat, 15), (bar.toNat, 0)])
  | .dsync level => some (pack 0x44000000 [(level.toNat, 0)])
  | .fork rd ra rb => some (pack 0x46000000 [(rd.toNat, 20), (ra.toNat, 15), (rb.toNat, 10)])
  | .mfc rd crn => some (pack 0x48000000 [(rd.toNat, 20), (crn.toNat, 0)])
  | .mtc ra crn => some (pack 0x48000100 [(ra.toNat, 15), (crn.toNat, 0)])
  | .mfcXq rd => some (pack 0x48000009 [(rd.toNat, 20)])
  | .mtcQ3 ra => some (pack 0x4800010B [(ra.toNat, 15)])
  | .vld rsz q ga off sync row => some (pack 0x80000000 [(rsz.toNat, 23), (q.toNat, 22), (ga.toNat, 17), (off.toNat, 4), (sync.toNat, 2), (row.toNat, 0)])
  | .vlds esz q ga gs off sync => some (pack 0x82000000 [(esz.toNat, 23), (q.toNat, 22), (ga.toNat, 17), (gs.toNat, 12), (off.toNat, 4), (sync.toNat, 2)])
  | .vldb esz q ga off sync => some (pack 0x84000000 [(esz.toNat, 23), (q.toNat, 22), (ga.toNat, 17), (off.toNat, 4), (sync.toNat, 2)])
  | .probe gl ga off sync intent => some (pack 0x86000000 [(gl.toNat, 22), (ga.toNat, 17), (off.toNat, 4), (sync.toNat, 2), (intent.toNat, 0)])
  | .pref lvl ga off sync wr => some (pack 0x88000000 [(lvl.toNat, 22), (ga.toNat, 17), (off.toNat, 4), (sync.toNat, 2), (wr.toNat, 0)])
  | .lda gd ga scope ord off sync sz => some (pack 0x8A000000 [(gd.toNat, 22), (ga.toNat, 17), (scope.toNat, 14), (ord.toNat, 11), (off.toNat, 4), (sync.toNat, 2), (sz.toNat, 0)])
  | .nreq gl ga gn slot rlx sync => some (pack 0x8C000000 [(gl.toNat, 22), (ga.toNat, 17), (gn.toNat, 12), (slot.toNat, 6), (rlx.toNat, 5), (sync.toNat, 2)])
  | .nwait gd slot sync => some (pack 0x8E000000 [(gd.toNat, 22), (slot.toNat, 4), (sync.toNat, 2)])
  | .ncancel slot sync => some (pack 0x90000000 [(slot.toNat, 4), (sync.toNat, 2)])
  | .vst vsz ga off sync => some (pack 0x80000000 [(vsz.toNat, 23), (ga.toNat, 17), (off.toNat, 4), (sync.toNat, 2)])
  | .vsts esz ga gs off sync => some (pack 0x82000000 [(esz.toNat, 23), (ga.toNat, 17), (gs.toNat, 12), (off.toNat, 4), (sync.toNat, 2)])
  | .stl gd ga scope ord off sync sz => some (pack 0x84000000 [(gd.toNat, 22), (ga.toNat, 17), (scope.toNat, 14), (ord.toNat, 11), (off.toNat, 4), (sync.toNat, 2), (sz.toNat, 0)])
  | .amoadd gd ga scope ord gs sync sz => some (pack 0x86000000 [(gd.toNat, 22), (ga.toNat, 17), (scope.toNat, 14), (ord.toNat, 11), (gs.toNat, 6), (sync.toNat, 2), (sz.toNat, 0)])
  | .amomin gd ga scope ord gs u sync sz => some (pack 0x88000000 [(gd.toNat, 22), (ga.toNat, 17), (scope.toNat, 14), (ord.toNat, 11), (gs.toNat, 6), (u.toNat, 4), (sync.toNat, 2), (sz.toNat, 0)])
  | .amomax gd ga scope ord gs u sync sz => some (pack 0x8A000000 [(gd.toNat, 22), (ga.toNat, 17), (scope.toNat, 14), (ord.toNat, 11), (gs.toNat, 6), (u.toNat, 4), (sync.toNat, 2), (sz.toNat, 0)])
  | .amoand gd ga scope ord gs sync sz => some (pack 0x8C000000 [(gd.toNat, 22), (ga.toNat, 17), (scope.toNat, 14), (ord.toNat, 11), (gs.toNat, 6), (sync.toNat, 2), (sz.toNat, 0)])
  | .amoor gd ga scope ord gs sync sz => some (pack 0x8E000000 [(gd.toNat, 22), (ga.toNat, 17), (scope.toNat, 14), (ord.toNat, 11), (gs.toNat, 6), (sync.toNat, 2), (sz.toNat, 0)])
  | .amoxor gd ga scope ord gs sync sz => some (pack 0x90000000 [(gd.toNat, 22), (ga.toNat, 17), (scope.toNat, 14), (ord.toNat, 11), (gs.toNat, 6), (sync.toNat, 2), (sz.toNat, 0)])
  | .amoswp gd ga scope ord gs sync sz => some (pack 0x92000000 [(gd.toNat, 22), (ga.toNat, 17), (scope.toNat, 14), (ord.toNat, 11), (gs.toNat, 6), (sync.toNat, 2), (sz.toNat, 0)])
  | .amocas gd ga scope ord gs sync sz => some (pack 0x94000000 [(gd.toNat, 22), (ga.toNat, 17), (scope.toNat, 14), (ord.toNat, 11), (gs.toNat, 6), (sync.toNat, 2), (sz.toNat, 0)])
  | .vradd rsz ty ga scope ord off sync sat => some (pack 0x96000000 [(rsz.toNat, 23), (ty.toNat, 22), (ga.toNat, 17), (scope.toNat, 14), (ord.toNat, 11), (off.toNat, 4), (sync.toNat, 2), (sat.toNat, 0)])
  | .npub gz ga gn sync => some (pack 0x98000000 [(gz.toNat, 22), (ga.toNat, 17), (gn.toNat, 12), (sync.toNat, 2)])
  | .bst bsz ga gs off sync => some (pack 0x9A000000 [(bsz.toNat, 22), (ga.toNat, 17), (gs.toNat, 12), (off.toNat, 4), (sync.toNat, 2)])
  | .vadd o => some (xword 0 o)
  | .vsub o => some (xword 1 o)
  | .vmul o => some (xword 2 o)
  | .vfma o => some (xword 3 o)
  | .vfms o => some (xword 4 o)
  | .vfnma o => some (xword 5 o)
  | .vmin o => some (xword 6 o)
  | .vmax o => some (xword 7 o)
  | .vabs o => some (xword 8 o)
  | .vneg o => some (xword 9 o)
  | .vrcp o => some (xword 10 o)
  | .vrsq o => some (xword 11 o)
  | .vexp2 o => some (xword 12 o)
  | .vlog2 o => some (xword 13 o)
  | .vcmp o => some (xword 14 o)
  | .vsel o => some (xword 15 o)
  | .vcvt o => some (xword 16 o)
  | .vpack o => some (xword 17 o)
  | .vunpk o => some (xword 18 o)
  | .vzp o => some (xword 19 o)
  | .vscacc o => some (xword 20 o)
  | .vscalex o => some (xword 21 o)
  | .vredadd o => some (xword 22 o)
  | .vredmax o => some (xword 23 o)
  | .vredmin o => some (xword 24 o)
  | .vperm o => some (xword 25 o)
  | .vslide o => some (xword 26 o)
  | .vbcast o => some (xword 27 o)
  | .vmov o => some (xword 28 o)
  | .vclr o => some (xword 29 o)
  | .viadd o => some (xword 30 o)
  | .visub o => some (xword 31 o)
  | .vimul o => some (xword 32 o)
  | .vimulh o => some (xword 33 o)
  | .vimin o => some (xword 34 o)
  | .vimax o => some (xword 35 o)
  | .viabs o => some (xword 36 o)
  | .vand o => some (xword 37 o)
  | .vor o => some (xword 38 o)
  | .vxor o => some (xword 39 o)
  | .vsll o => some (xword 40 o)
  | .vsrl o => some (xword 41 o)
  | .vsra o => some (xword 42 o)
  | .vmand o => some (xword 43 o)
  | .vmor o => some (xword 44 o)
  | .vmxor o => some (xword 45 o)
  | .vmnot o => some (xword 46 o)
  | .vmpop o => some (xword 47 o)
  | .vmfirst o => some (xword 48 o)
  | .viota o => some (xword 49 o)
  | .vxtr o => some (xword 50 o)
  | .jcmd ra rb eng two => some (pack 0x80000000 [(ra.toNat, 15), (rb.toNat, 10), (eng.toNat, 8), (two.toNat, 0)])
  | .jend rd tok => some (pack 0x82000000 [(rd.toNat, 20), (tok.toNat, 0)])
  | .jwait rd ra stat => some (pack 0x84000000 [(rd.toNat, 20), (ra.toNat, 15), (stat.toNat, 0)])
  | .jpoll rd ra => some (pack 0x86000000 [(rd.toNat, 20), (ra.toNat, 15)])
  | .jpop rd eng stat => some (pack 0x88000000 [(rd.toNat, 20), (eng.toNat, 8), (stat.toNat, 0)])
  | .ringdef n ra => some (pack 0x8A000000 [(n.toNat, 20), (ra.toNat, 15)])
  | .ringadv n cnt => some (pack 0x8C000000 [(n.toNat, 20), (cnt.toNat, 0)])
  | .ringst rd n sel => some (pack 0x8E000000 [(rd.toNat, 20), (n.toNat, 1), (sel.toNat, 0)])
  | .trap ra n => some (pack 0x90000000 [(ra.toNat, 15), (n.toNat, 0)])
  | .tret => some (pack 0x92000000 [])
  | .syscReadContext rd ra => some (pack 0x94000001 [(rd.toNat, 20), (ra.toNat, 15)])
  | .syscPagerRequest rd => some (pack 0x94000010 [(rd.toNat, 20)])
  | .syscPagerTake rd ra => some (pack 0x94000011 [(rd.toNat, 20), (ra.toNat, 15)])
  | .syscPagerReply rd ra => some (pack 0x94000012 [(rd.toNat, 20), (ra.toNat, 15)])
  | .mfs rd ra off => some (pack 0x96000000 [(rd.toNat, 20), (ra.toNat, 15), (off.toNat, 0)])
  | .mts ra rb off => some (pack 0x98000000 [(ra.toNat, 15), (rb.toNat, 10), (off.toNat, 0)])
  | .yield => some (pack 0x9A000000 [])
  | .tend => some (pack 0x9C000000 [])
  | .lnch rd ra q => some (pack 0x9E000000 [(rd.toNat, 20), (ra.toNat, 15), (q.toNat, 0)])
  | .fcall rd ra => some (pack 0xA0000000 [(rd.toNat, 20), (ra.toNat, 15)])
  | .fawait rd ra => some (pack 0xA2000000 [(rd.toNat, 20), (ra.toNat, 15)])
  | .fpoll rd ra => some (pack 0xA4000000 [(rd.toNat, 20), (ra.toNat, 15)])
  | .fcancel rd ra => some (pack 0xA6000000 [(rd.toNat, 20), (ra.toNat, 15)])
  | .qtzr rd => some (pack 0xA8000000 [(rd.toNat, 20)])
  | .qtzrUntil rd ra => some (pack 0xA8000001 [(rd.toNat, 20), (ra.toNat, 15)])
  | .lttld rd ra rb => some (pack 0xAA000000 [(rd.toNat, 20), (ra.toNat, 15), (rb.toNat, 10)])
  | .dbg n => some (pack 0xAC000000 [(n.toNat, 0)])
  | .fget rs2 rs1 rd => some (pack 0x0000000B [(rs2.toNat, 20), (rs1.toNat, 15), (rd.toNat, 7)])
  | .fres rs2 rs1 rd => some (pack 0x0000100B [(rs2.toNat, 20), (rs1.toNat, 15), (rd.toNat, 7)])
  | .fext rs2 rs1 rd => some (pack 0x0000200B [(rs2.toNat, 20), (rs1.toNat, 15), (rd.toNat, 7)])
  | .bundleIssue _ _ _ _ => none
  | .mma _ _ => none
  | .mdist _ _ => none
  | .mtopk _ _ => none
  | .mzero _ _ => none
  | .mload _ _ => none
  | .mout _ _ => none
  | .cpy _ _ => none
  | .cfill _ _ => none
  | .cgath _ _ => none
  | .cscat _ _ => none
  | .cring _ _ => none
  | .commandRetire _ _ => none
  | .stampMiss _ _ => none
  | .jobComplete _ _ => none
  | .jobTokenPush _ _ => none
  | .vectorBind _ _ => none
  | .xResultLand _ => none
  | .readResponse _ _ => none
  | .writeCompletion _ => none
  | .taskStart _ => none
  | .taskResume _ => none
  | .placementDecision _ => none
  | .preload _ => none
  | .vacate _ => none
  | .budgetOverrun _ => none
  | .contextSave _ _ => none
  | .saveComplete _ => none
  | .deadlockDetect _ => none
  | .ctxkillWrite _ => none
  | .ctxReset _ => none
  | .ctxResetComplete _ => none
  | .ctxEnable _ => none
  | .ctxDisable _ => none
  | .lqTailUpdate _ _ => none
  | .launchTake _ _ => none
  | .pagerTaskPlace _ => none
  | .pagerdescWrite _ => none
  | .pagercfgWrite _ _ => none
  | .pagerReplyArrival _ _ => none
  | .cssplitWrite _ _ => none
  | .cssplitChange _ => none
  | .mscWindowEnable _ _ _ => none
  | .mscWindowDisable _ _ _ => none
  | .mscWindowFill _ _ => none
  | .mscFadeBoundary _ => none
  | .homeAgentRequest _ => none
  | .prbs _ => none
  | .prbx _ => none
  | .prbsys _ => none
  | .probeResponse _ _ => none
  | .notheld _ => none
  | .pinRetry _ => none
  | .hptEpochEnd => none
  | .migSubmit _ => none
  | .migLineCopy _ _ => none
  | .migComplete _ => none
  | .migCompletionRecord => none
  | .migRelease _ => none
  | .ringFirstFlit _ _ => none
  | .ringFlitReturn _ => none
  | .ringReinsert _ _ => none
  | .rackForward _ _ => none
  | .rackReinsert _ _ => none
  | .peerAccess _ _ => none
  | .e2eRequest _ _ _ _ => none
  | .e2eAck _ _ _ => none
  | .e2eTimeout _ _ => none
  | .linkSend _ _ => none
  | .linkDataFlit _ _ _ _ => none
  | .linkAck _ _ => none
  | .linkNak _ _ => none
  | .linkAckTimer _ => none
  | .linkNakTimer _ => none
  | .lossOfLight _ _ => none
  | .elsuFault _ _ => none
  | .linkNotice _ _ _ => none
  | .linkTrainingDone _ => none
  | .linkTrainingLocked _ => none
  | .linkRetrainResult _ _ => none
  | .windowWriteArrival _ => none
  | .windowAck _ _ _ _ => none
  | .zgPassFrame _ => none
  | .zgRegenerateFrame _ => none
  | .zgLossReport _ => none
  | .zgSyncMessage _ => none
  | .zgDataBurst _ => none
  | .qtzCorrection => none
  | .zgTokenLossTimeout _ => none
  | .zgLossReportSlot _ => none
  | .zgRegenerate _ => none
  | .agateInterest _ _ _ => none
  | .agateTileSegment _ _ => none
  | .agateAnnouncement _ _ => none
  | .agateCancel _ _ _ => none
  | .agateRefresh _ _ _ => none
  | .agateRefusal _ _ => none
  | .agateEntryExpiry _ _ => none
  | .agateRecordExpiry _ => none
  | .routingEntryWrite _ _ _ _ => none
  | .futureDeadline _ => none
  | .remoteSendComplete _ => none
  | .remoteReply _ _ _ => none
  | .prefillRecordWrite _ => none
  | .futureWake _ => none
  | .qtzrWake _ => none
  | .debugHalt _ => none
  | .debugResume _ => none
  | .crossTrigger _ _ => none
  | .debugSample _ => none
  | .berylReplayLimit _ => none
  | .berylModeOff _ => none
  | .berylModeRecord _ => none
  | .berylModeReplay _ => none
  | .moduleReset => none
  | .bootGo => none
  | .bootVerify => none
  | .attestRequest _ => none
  | .attestReport => none
  | .clusterSleep _ => none
  | .clusterWake _ => none
  | .coreSleep _ => none
  | .coreWake _ => none
  | .correctedError _ _ => none
  | .uncorrectableError _ _ _ => none
  | .eyeMarginLow _ _ _ => none
  | .checkpointSave _ => none
  | .checkpointRestore _ => none
  | .checkpointEnd => none
  | .registerWrite _ _ => none
  | .ferleHartInstruction _ _ => none
  | .cranyLinkLaneLost _ => none
  | .memoryChannelRetrainDone _ => none

/-- The private half of a strand. -/
def decodePrivate : StrandId → Nat → Option Instr
  | .l => decodeL | .x => decodeX | .s => decodeS | .k => decodeK

/-- How many private majors a strand has (R267-R270). -/
def privateMajors : StrandId → Nat
  | .l => 9 | .x => 51 | .s => 14 | .k => 23

/-- The instruction strand `σ` reads from a word (R248). -/
def decodeWord (σ : StrandId) (w : IWord) : Except Reject Instr :=
  let n := w.toNat
  if n < 2 ^ 31 then
    match decodeCommon n with
    | some i => .ok i
    | none => .error (if n / 2 ^ 25 % 64 < 37 then .reservedField else .reservedMajor)
  else
    match decodePrivate σ n with
    | some i => .ok i
    | none => .error (if n / 2 ^ 25 % 64 < privateMajors σ then .reservedField else .reservedMajor)

/-- Four bytes as a little-endian word (R6, R248). -/
def wordOfBytes (b0 b1 b2 b3 : Byte) : IWord :=
  BitVec.ofNat 32 (b0.toNat + b1.toNat * 2 ^ 8 + b2.toNat * 2 ^ 16 + b3.toNat * 2 ^ 24)

/-- Decodes the first word of a byte stream and returns the rest. Total on any bytes. -/
def decodeBytes (σ : StrandId) : List Byte → Except Reject (Instr × List Byte)
  | b0 :: b1 :: b2 :: b3 :: rest =>
    match decodeWord σ (wordOfBytes b0 b1 b2 b3) with
    | .ok i => .ok (i, rest)
    | .error e => .error e
  | _ => .error .truncated

/-- The bytes of a word as memory stores them (R6). -/
def bytesOfWord (w : IWord) : List Byte :=
  [BitVec.ofNat 8 w.toNat, BitVec.ofNat 8 (w.toNat / 2 ^ 8), BitVec.ofNat 8 (w.toNat / 2 ^ 16),
   BitVec.ofNat 8 (w.toNat / 2 ^ 24)]

/-- Where a table word is taken to stand. -/
inductive Stream where
  | strand (σ : StrandId) | hart
  deriving DecidableEq, Repr

/-- The stream a bare word is read in, since a word does not say which strand it was assembled for (R248): the first of K, S, L, X
that has an instruction for it, else a Ferle hart (log 6). -/
def streamOf (w : IWord) : Option Stream :=
  match decodeWord .k w, decodeWord .s w, decodeWord .l w, decodeWord .x w with
  | .ok _, _, _, _ => some (.strand .k)
  | _, .ok _, _, _ => some (.strand .s)
  | _, _, .ok _, _ => some (.strand .l)
  | _, _, _, .ok _ => some (.strand .x)
  | _, _, _, _ => if (decodeFerle w.toNat).isSome then some .hart else none

/-- The decoder's answer in a stream. -/
def decodeIn (t : Stream) (w : IWord) : Option Instr :=
  match t with
  | .strand σ => (decodeWord σ w).toOption
  | .hart => decodeFerle w.toNat

/-- The instruction read from the bits of a table word (every instruction is one 32-bit word, R248). -/
def decodeTableWord (nbits w : Nat) : Option Instr :=
  let word := BitVec.ofNat 32 (w % 2 ^ nbits)
  match streamOf word with
  | some t => decodeIn t word
  | none => none

end Sys2Proof
end

