-- ==== Sys2Proof/Machine/State.lean ====
section
/-! DEFINITION. The state of the module as plain data: cores, clusters, memory, device registers and the hub's units, with the reasons a step
can stop and the state after reset. INVENTORY.md lists every field with the rule that names it. -/

namespace Sys2Proof.Machine

/-- Why the machine stops: the spec gives every step an effect, so there is no reason (NOTES.md, Stops). -/
inductive Fault where
  deriving DecidableEq, Repr

/-- An instruction with no meaning. -/
inductive Refusal where
  /-- Raised by an arm of `exec` that has no meaning yet. Safe. -/
  | notModelled (mnemonic : String)
  deriving DecidableEq, Repr

/-! ### Cores -/

/-- A step slot of a loop level (R292). -/
structure StepSlot where
  /-- The stepped register, 0 = off. -/
  reg : BitVec 5
  /-- Whose register it is; differs from the level's strand only in bundle mode. -/
  strand : StrandId
  stride : Word
  deriving DecidableEq, Repr

/-- One loop level (R289). -/
structure Loop where
  cnt : Word
  beg : Word
  fin : Word
  /-- Completed iterations of an active level. -/
  done : Word
  active : Bool
  slots : List StepSlot
  deriving DecidableEq, Repr

/-- One strand of a core (R186, R254, R285, R302). -/
structure Strand where
  /-- Handle address of the next instruction. -/
  pc : Word
  /-- Parked by `JOIN` or never started (R191, R192). -/
  parked : Bool
  /-- g1-g7. -/
  g : List Word
  /-- The 96 windowed registers. -/
  win : List Word
  /-- Window base, an unbounded count; a return through a link it did not write may take it below zero (R287). -/
  wb : Int
  /-- Spilled base. -/
  sb : Int
  /-- Call depth. -/
  depth : Nat
  spillb : Word
  loops : List Loop
  /-- Pending event set of `WFE`. -/
  pend : Word
  /-- How far a word that waits after its issue has come (R187): 0 not issued, 1 issued or departed, 2 + level waiting in `DSYNC`, 64 done
  but for the end test. -/
  stage : Nat
  /-- Widest scope of its fences with a release side, plus one, at which its later writes act as releases (R95); 0 before any. -/
  rel : Nat
  /-- Stamp and scope of a `FENCE.sc` under way (R98, R99). -/
  fence : Option (Nat × Nat × Nat)
  /-- What the strand waits on: 0 nothing, 1-12 the codes of R209, 16 and up a wait outside the core. -/
  wait : Nat
  deriving DecidableEq, Repr

/-- One entry of a vector register or operand queue (R255, R256, R258). -/
structure FEntry where
  data : Entry
  /-- The X issue from which a read is defined; 0 = at once. -/
  due : Nat
  /-- The X issue, or the memory operation, that pushed it. -/
  src : Nat
  landed : Bool
  deriving DecidableEq, Repr

/-- An issued X instruction whose results have not landed (R258). -/
structure XFlight where
  /-- Its issue index. -/
  n : Nat
  /-- The X issue before which it lands. -/
  due : Nat
  /-- Its events NV DZ OF UF NX (R239). -/
  flags : BitVec 5
  /-- It signals S at retirement (R263). -/
  sig : Bool
  deriving DecidableEq, Repr

/-- Where bytes of an access lie once checked and translated. -/
inductive Place where
  /-- Physical memory, regions 0x0-0x3. -/
  | mem
  /-- The cluster store, at 2^21 × cluster + offset. -/
  | store
  /-- A D page: reads return zeros (R32). -/
  | zeros
  /-- A physical address that R28 lays out as absent: reads are undefined and writes go nowhere (log 45). -/
  | absent
  /-- Device registers, region 0x8. -/
  | dev
  /-- A peer module, region 0x4. -/
  | peer
  /-- A remote window: the target byte at 2^29 × module + 2^21 × cluster + offset (R18). -/
  | window
  deriving DecidableEq, Repr

/-- A run of bytes at one place. -/
structure Span where
  place : Place
  addr : Nat
  len : Nat
  /-- Grain code of the page (R29), and the handle policy (R20), or the slot of a window (R18). -/
  grain : Nat
  pol : Nat
  deriving DecidableEq, Repr

/-- Where a load's bytes go. -/
inductive Dest where
  | none
  /-- A g register of the strand: 0-6 are g1-g7, 7 + i is windowed register i. -/
  | reg (key : Nat) (size : Nat) (signed : Bool)
  /-- Entries of q0 (12) or q1 (13), 128 bytes each. -/
  | queue (code : Nat) (entries : Nat)
  /-- Every lane of one entry (R315). -/
  | bcast (code : Nat) (esize : Nat)
  deriving DecidableEq, Repr

/-- The atomic operations (R326). -/
inductive AmoOp where
  | add | min | max | minu | maxu | and | or | xor | swp | cas
  deriving DecidableEq, Repr

/-- What an outstanding memory operation does when it is performed. -/
inductive MemAct where
  | load (spans : List Span)
  | store (spans : List Span) (data : List Byte)
  | amo (op : AmoOp) (spans : List Span) (size : Nat) (v exp : Word)
  /-- A row atomic add: element bytes 2 (BF16) or 4 (FP32), the addend row, saturation (R330). -/
  | vradd (spans : List Span) (esize : Nat) (row : List Byte) (sat : Bool)
  deriving DecidableEq, Repr

/-- An issued memory operation not yet performed (R263, R277). -/
structure MemOp where
  uid : Nat
  strand : StrandId
  /-- Handle address of the access (R425). -/
  ha : Word
  act : MemAct
  dest : Dest
  /-- Token counter pushed at retirement. -/
  sig : Option Nat
  /-- Ordering and scope codes (R86, R88). -/
  ord : Nat
  scope : Nat
  /-- Scope, plus one, of the fence that makes its write a release (R95); 0 = none. -/
  rel : Nat
  /-- It was issued in bundle mode, where the slots share one program order (R89). -/
  bundle : Bool
  /-- Stamp of a `.sc` operation: time and issuer (R99, R100). -/
  stamp : Option (Nat × Nat)
  /-- It waits for its sync message to commit (R329). -/
  grp : Bool
  /-- Window slot of a posted window write, its units and whether it, or its request to another module, has been sent (R128, R139). -/
  slot : Option Nat
  units : Nat
  sent : Bool
  /-- Answers of other modules, by number of the span (R128). -/
  got : List (Nat × List Byte)
  /-- The engine job whose window write it is, by acceptance order. -/
  job : Option Nat
  /-- Sequence of its first posted write (R140). -/
  wseq : Nat
  deriving DecidableEq, Repr

/-- A named barrier (R305). -/
structure Barrier where
  p : BitVec 4
  a : BitVec 4
  phase : Bool
  deriving DecidableEq, Repr

/-- State of an arrival slot (R171). -/
inductive SlotState where
  | free | held | pending | arrived | expired
  deriving DecidableEq, Repr

/-- An arrival slot (R171, R178). -/
structure ArrSlot where
  st : SlotState
  /-- The arrival word, or the value `NEVERPROD` would give (R428). -/
  word : Word
  deriving DecidableEq, Repr

/-- An operation in the hold buffer with the operands fixed at its issue (R299, R334). -/
inductive Held where
  | nreq (slot : Nat) (name : Nat) (rlx : Bool) (life : Nat) (dst : List Span)
  | npub (name : Nat) (src : List Span)
  | bst (addr : Nat) (data : List Byte) (uid : Nat)
  deriving DecidableEq, Repr

/-- A broadcast store not yet committed at its own module (R333). -/
structure PendBst where
  uid : Nat
  /-- Group address. -/
  ga : Nat
  /-- Address in physical memory on this module, 2^52 where no window maps it (R149). -/
  addr : Nat
  data : List Byte
  sig : Option Nat
  deriving DecidableEq, Repr

/-- The registers of one trap level (R420). -/
structure Bank where
  cause : Word
  val : Word
  pcl : Word
  pcx : Word
  pcs : Word
  pck : Word
  /-- Stage of K's word when the level was entered (R187; the model's own field, log 7). -/
  stage : Nat
  deriving DecidableEq, Repr

/-- The open job of K (R366). -/
structure OpenJob where
  /-- 0 matrix engine, 1 copy engine. -/
  eng : Nat
  words : List Word
  level : Nat
  /-- Words issued at its level since the first `JCMD` (R368). -/
  issued : Nat
  deriving DecidableEq, Repr

/-- What an agent sees of the handle table, the translation and the code: fixed at a placement (R21, R31, R117) or at a `JEND` (R26). -/
structure View where
  ctx : Nat
  /-- Supervisor mode (R197). -/
  sup : Bool
  /-- Handle table address and entry count. -/
  htb : Nat
  htn : Nat
  /-- Memory at the placement, for the handle table and the code. -/
  snap : List Host.Cell
  /-- The loaded translation array: words 0 and 1 of each entry. -/
  ltt : List (Word × Word)
  /-- Free value that stands for code of another module or of an absent address as it was at the placement (the model's own field, log 4). -/
  draw : Nat
  deriving DecidableEq, Repr

/-- The task a core runs. -/
structure Placed where
  /-- Its id in the launch manager's table. -/
  id : Nat
  /-- Resident-task number; none for a pager task (R213, R487). -/
  rtn : Option Nat
  pager : Bool
  /-- Launch id, task index and count (R196). -/
  lid : Nat
  deriving DecidableEq, Repr

/-- One core (R186). -/
structure Core where
  /-- Global core index (R2). -/
  idx : Nat
  task : Option Placed
  view : View
  /-- Split mode; false = bundle mode (R187, R191). -/
  split : Bool
  l : Strand
  x : Strand
  s : Strand
  k : Strand
  /-- Slots of the current bundle that have completed (R187, R189). -/
  bdone : BitVec 4
  /-- v0-v11, q0-q3 (12-15) and `XQ` (16), oldest entry first. -/
  fifo : List (List FEntry)
  /-- X issues so far (R258). -/
  xIssue : Nat
  flight : List XFlight
  /-- Token counters and reservations by 4 × from + to (R262, R263). -/
  tokens : List Nat
  resv : List Nat
  cc : BitVec 16
  bars : List Barrier
  slots : List ArrSlot
  scLast : Nat
  specst : Word
  hold : List Held
  bsts : List PendBst
  xfctl : Word
  dmem : Word
  dphase : Word
  vshare : Word
  slpcfg : Word
  pgreply : Word
  tl : Nat
  tvec : Word
  trapen : Word
  bank1 : Bank
  bank2 : Bank
  /-- Image address, count and CRC of the array as last loaded (R428). -/
  lttBase : Nat
  lttCount : Nat
  lttCrc : Word
  openJob : Option OpenJob
  ops : List MemOp
  nextUid : Nat
  pagerSeq : Nat
  /-- The outstanding pager request: core that sent it and sequence number (R40). -/
  pagerOut : Option (Nat × Nat)
  /-- Requests (core, sequence) that a pager core has taken and not answered (R37, R487). -/
  pagerHeld : List (Nat × Nat)
  /-- Cycles held since the placement (R219). -/
  budget : Nat
  /-- A pre-emption is due at the next boundary: 1 vacate, 2 budget, 3 checkpoint, 4 future wait, 5 yield (R194). -/
  preempt : Nat
  /-- A save has begun and is not complete, with its reason (R426). -/
  saving : Nat
  /-- Halted by the debug module (R443). -/
  halted : Bool
  /-- Words, as strand and address, that issue once without meeting a watchpoint (R446). -/
  watchSkip : List (StrandId × Word)
  /-- Sleep depth, 0 = awake, and cycles spent waiting (R464). -/
  asleep : Nat
  waited : Nat
  deriving DecidableEq, Repr

/-! ### Engines (R224, R365-R392) -/

/-- An accepted job (R367). -/
structure Job where
  /-- 12-bit id. -/
  id : Nat
  /-- Engine: 0 matrix, 1 copy. -/
  eng : Nat
  /-- Global cluster index. -/
  clu : Nat
  core : Nat
  task : Nat
  view : View
  /-- The records, each a list of words. -/
  recs : List (List Word)
  /-- Index of the next record, and the next step within it (R391). -/
  next : Nat
  sub : Nat
  /-- Quartz at the `JEND` (R376). -/
  at_ : Nat
  /-- Acceptance order. -/
  seq : Nat
  stamped : Bool
  /-- Token strand, 0 none (R372). -/
  tok : Nat
  /-- Accumulators acc0-acc3 of the bound bank; none = undefined (R377). -/
  accs : List (Option (List (BitVec 32)))
  /-- The bank is bound. -/
  bound : Bool
  flags : BitVec 5
  bytes : Nat
  /-- Cycle in which the running command frees the engine; none = no command runs. -/
  busy : Option Nat
  /-- The command whose turn it is has issued and waits for memory; it holds its engine (R383, R392). -/
  begun : Bool
  /-- First cycle in which the begun command may move bytes again (R392). -/
  pace : Nat
  /-- Status and record index once no further command is performed (R369). -/
  ended : Option (Nat × Nat)
  /-- Window writes not acknowledged (R392). -/
  wins : Nat
  /-- Answers of other modules to the running command's reads, by address and length (R392). -/
  got : List ((Nat × Nat) × List Byte)
  /-- Rows, or the index, that the running command has worked out and not yet stored (R381, R382, R390). -/
  held : Option (List (List Byte))
  /-- Completion word and completion order. -/
  word : Option Word
  doneSeq : Nat
  /-- The completion token has been pushed or none is due. -/
  tokDone : Bool
  /-- Discarded at completion: its task was rerun or ended (R373, R403). -/
  drop : Bool
  deriving DecidableEq, Repr

/-- The shared units of a cluster (R1, R223, R224). -/
structure Cluster where
  /-- Vector arbiter credit d(k). -/
  d : List Int
  /-- X issues of each core waiting to be bound to a lane group. -/
  vq : List (List Nat)
  /-- Cycle from which each lane group accepts an instruction (R343). -/
  lanes : List Nat
  /-- Last allocated job id of the matrix and copy engines (R224). -/
  lastMe : Nat
  lastCe : Nat
  /-- Power depth of the cluster, 0 = awake (R463). -/
  power : Nat
  /-- `CSSPLIT.SIZE` in effect (R48). -/
  split : Nat
  deriving DecidableEq, Repr

/-! ### Launch manager (R194-R228) -/

inductive TaskState where
  | queued | running | saving | futwait | ended
  deriving DecidableEq, Repr

/-- A task (R194). -/
structure Task where
  id : Nat
  /-- Key of its launch; none for a pager task. -/
  launch : Option Nat
  index : Nat
  ctx : Nat
  /-- 0 latency, 1 bulk (R197). -/
  cls : Nat
  sup : Bool
  st : TaskState
  rtn : Option Nat
  core : Option Nat
  /-- Core of its latest placement (R215). -/
  last : Nat
  /-- A save area holds its state. -/
  saved : Bool
  /-- LTT binding of this task alone: image address and count (R413). -/
  binding : Option (Nat × Nat)
  /-- Consecutive `MISS` runs (R220). -/
  misses : Nat
  /-- Domain ids by level 1-3 and the group domain (R199). -/
  doms : List Nat
  /-- Levels at which it has arrived and not departed, with the domain id (R202). -/
  arrived : List (Nat × Nat)
  /-- Completion words held across a save, with their engine, in completion order (R373). -/
  heldJobs : List (Nat × Word)
  /-- A pager reply held for its resumption (R42). -/
  heldReply : Option Word
  /-- Arrival-slot notifications held for its resumption: slot, new state, word (R171). -/
  heldSlots : List (Nat × SlotState × Word)
  /-- The future it waits on (R409). -/
  future : Option Nat
  /-- The outstanding pager request of a saved task (R40, R42). -/
  pagerOut : Option (Nat × Nat)
  /-- Progress of words that waited after their issue when it was saved, with the bundle's completed slots. -/
  stages : List Nat
  bdone : BitVec 4
  /-- `Strand.rel` of L, X, S and K when it was saved (R95, R113). -/
  rels : List Nat
  /-- `CSCHED` of its context as its latest placement decision read it (R214). -/
  sched : Word
  deriving DecidableEq, Repr

/-- An accepted launch (R197, R212). -/
structure Launch where
  key : Nat
  lid : Nat
  ctx : Nat
  q : Nat
  desc : List Word
  placed : Nat
  ended : Nat
  deriving DecidableEq, Repr

/-- A live domain at cluster, die or package level, or a group domain (R199, R201). -/
structure Domain where
  /-- 1 cluster, 2 die, 3 package, 4 group. -/
  level : Nat
  id : Nat
  ctx : Nat
  launch : Nat
  /-- Domain index within the launch (R199). -/
  index : Nat
  members : Nat
  arrived : Nat
  /-- Departures so far. -/
  phase : Nat
  /-- Modules whose arrival has committed, for a group domain (R307). -/
  mods : List Nat
  /-- First, last and summed arrival cycles of the phase and the core that arrived last (R457). -/
  firstAt : Nat
  lastAt : Nat
  sumAt : Nat
  lastCore : Nat
  deriving DecidableEq, Repr

/-- The launch manager of the hub die. -/
structure Lm where
  tasks : List Task
  launches : List Launch
  nextTask : Nat
  nextLaunch : Nat
  /-- Ready order of (context, class): key 2 × context + class, front first (R215). -/
  ready : List (Nat × List Nat)
  /-- How many of a ready order's front tasks were woken, and how many after them were vacated (R215). -/
  woken : List (Nat × Nat)
  vacated : List (Nat × Nat)
  /-- `p` by class and `credit` by 2 × context + class (R216). -/
  p : List Nat
  credit : List (Nat × Int)
  domains : List Domain
  /-- Preloaded task of each core with one (R221). -/
  preload : List (Nat × Nat)
  /-- Cores being vacated, the cycle of the decision and the latency task it serves (R218). -/
  vacates : List (Nat × Nat × Nat)
  /-- `TAIL` of each enabled queue as last read: key 32 × context + queue (R211). -/
  tails : List (Nat × Nat)
  /-- Pager requests: four words each (R39, R40). -/
  pagerq : List (List Word)
  hostq : List (List Word)
  /-- Pager cores kept idle until `PAGERDESC` is written again (R487). -/
  pagerIdle : List Nat
  /-- Free cores offered in vain since a ready order last changed (R213, R216). -/
  offered : List Nat
  deriving DecidableEq, Repr

/-! ### Coherence (R52-R85) -/

/-- State of a grain unit in a cache (R67). -/
inductive Moesi where
  | i | s | e | o | m
  deriving DecidableEq, Repr

/-- A tag of a cache: one super-line under one context (R55, R67). -/
structure Tag where
  /-- 0-7 the die L2s, 8-15 the Ferle L2s, 16 the companion, 32 + g the L1 of cluster g. -/
  cache : Nat
  /-- Context of the access that allocated the line; 64 for the companion's lines, which carry none. -/
  ctx : Nat
  /-- Super-line number p[51:9]. -/
  sline : Nat
  /-- Grain code (R29). -/
  grain : Nat
  /-- State of each grain unit. -/
  st : List Moesi
  /-- Sector-valid bits, one per 32 bytes. -/
  valid : BitVec 16
  /-- Clusters of the die whose L1 holds the line; a die L2 only (R54). -/
  clus : BitVec 32
  /-- Order of last use, for replacement (not architectural). -/
  use : Nat
  deriving DecidableEq, Repr

/-- The bytes that the caches hold of a super-line under one context, with the poison marks of its 32-byte sectors (R55, R56). All caches of
one context agree on a unit they hold (R69), so one record serves them (log 21). -/
structure Copy where
  ctx : Nat
  sline : Nat
  data : List Byte
  poison : BitVec 16
  deriving DecidableEq, Repr

/-- A directory entry (R71). -/
structure DirEntry where
  sline : Nat
  grain : Nat
  pin : Bool
  vec : BitVec 17
  /-- Unit states: 0 I, 1 S, 2 X, 3 O, with the owner. -/
  units : List (Nat × Nat)
  deriving DecidableEq, Repr

/-- A pin of a cluster L1 (R75, R101). -/
structure Pin where
  clu : Nat
  core : Nat
  ctx : Nat
  sline : Nat
  unit : Nat
  /-- Scope code (R86). -/
  scope : Nat
  deriving DecidableEq, Repr

/-- An MSC line of an HBM stack (R57). -/
structure MscLine where
  stack : Nat
  /-- Line address p / 2048. -/
  line : Nat
  valid : BitVec 32
  dirty : BitVec 32
  /-- Poison marks of the 64-byte sectors (R56). -/
  poison : BitVec 32
  /-- Sectors touched since the line was allocated, and the first sector demanded (R58). -/
  touched : BitVec 32
  first : Nat
  pinned : Bool
  /-- Order of last use, for replacement (not architectural). -/
  use : Nat
  deriving DecidableEq, Repr

/-- A hot-page tracker entry of a home agent (R77). -/
structure Track where
  agent : Nat
  frame : Nat
  count : Nat
  dies : List Nat
  deriving DecidableEq, Repr

/-- A migration in progress (R80). -/
structure Mig where
  old : Nat
  new : Nat
  size : Nat
  nocopy : Bool
  /-- It was accepted in host-assisted mode (R459). -/
  host : Bool
  /-- Every unit of the new frame has been recalled, and the cycle of the next recall where a pin refused one. -/
  recalled : Bool
  due : Nat
  /-- Lines copied. -/
  copied : List Nat
  deriving DecidableEq, Repr

/-- Who waits at a home agent. -/
inductive Asker where
  /-- A memory operation of a core. -/
  | op (core uid : Nat)
  /-- An engine job, by acceptance order. -/
  | job (seq : Nat)
  | hart (h : Nat)
  /-- A request from outside the compute dies. -/
  | req (q : HomeReq)
  deriving DecidableEq, Repr

/-- A request queued at a home agent, in order of arrival (R65, R75, R81). -/
structure Wait where
  home : Nat
  /-- The byte at which it waits. -/
  pa : Nat
  asker : Asker
  /-- It waits for a migration's copy of its line. -/
  mig : Bool
  /-- Cycle of the next re-issue of a request that a pin refuses. -/
  due : Nat
  deriving DecidableEq, Repr

/-- The coherent memory system. -/
structure Coh where
  tags : List Tag
  copies : List Copy
  dir : List DirEntry
  pins : List Pin
  msc : List MscLine
  /-- Footprint predictor: the bitmap of touched sectors by stack, 64 KiB frame and first demanded sector (R58). -/
  feet : List (Nat × BitVec 32)
  /-- Uses of tags and memory-side lines so far. -/
  clock : Nat
  /-- Windows touched in the current fade period: 64 × stack + n (R62). -/
  touched : List Nat
  tracks : List Track
  migs : List Mig
  /-- Redirects: old frame base, new frame base, log2 size (R80). -/
  redirects : List (Nat × Nat × Nat)
  /-- Completion records waiting for room in the event ring (R84). -/
  migDone : List (Word × Word × Bool)
  /-- Requests queued at home agents: 256 entries per agent, and 512 per agent in migration queues (R65, R80). -/
  queue : List Wait
  /-- Outside requests refused by a full queue, to be tried again (R65). -/
  retries : List HomeReq
  /-- Probes refused by a pin, and the cycle of their next re-issue (R75). -/
  refused : List (Probe × Nat)
  /-- Poisoned 32-byte sectors of memory: address / 32 (R56). -/
  poison : List Nat
  /-- Time of the stamp of the last write of each location that a `.sc` write made (R99). -/
  scWrites : List (Nat × Nat)
  /-- Probe answers on their way to a home agent, with the cycle at which they leave (R74). -/
  answers : List (Probe × Answer × Nat)
  deriving DecidableEq, Repr

/-! ### Futures and Ferle harts (R429-R441) -/

/-- A future entry (R436). -/
structure Future where
  id : Nat
  /-- 0 free, 1 pending, 2 dispatched, 3 resolved, 4 timed-out, 5 cancelled. -/
  st : Nat
  ctx : Nat
  rtn : Nat
  pq : Nat
  ep : Nat
  rem : Bool
  wait : Bool
  cpy : Bool
  req : Word
  reqlen : Nat
  rlen : Nat
  rpl : Word
  rplcap : Nat
  deadline : Nat
  gen : Nat
  /-- Translations taken at the `FCALL` (R436). -/
  reqAt : List Span
  rplAt : List Span
  /-- Sandbox whose queue it entered, and its claimer (R438). -/
  sbx : Nat
  claimer : Option Nat
  /-- It was accepted in hardware mode (R4, R459). -/
  hw : Bool
  /-- Order of its request in the sandbox queues. -/
  seq : Nat
  /-- Status of the record awaiting room, and whether it was counted in `PQWAIT` (R439). -/
  record : Option Nat
  counted : Bool
  /-- Index of its record's header (R410). -/
  pqpos : Nat
  /-- A remote reply whose bytes wait at a home agent (R437, R440). -/
  reply : Option (List Byte)
  deriving DecidableEq, Repr

/-- Privilege of a hart. -/
inductive Priv where
  | u | s | m
  deriving DecidableEq, Repr

/-- A Ferle hart (R429). -/
structure Hart where
  pc : Word
  /-- x1-x31. -/
  x : List Word
  priv : Priv
  fsbx : Word
  fcapb : List Word
  fcapl : List Word
  mstatus : Word
  mtvec : Word
  mepc : Word
  mcause : Word
  mtval : Word
  mie : Word
  mip : Word
  mscratch : Word
  medeleg : Word
  mideleg : Word
  stvec : Word
  sepc : Word
  scause : Word
  stval : Word
  sscratch : Word
  satp : Word
  menvcfg : Word
  senvcfg : Word
  mcounteren : Word
  scounteren : Word
  stimecmp : Word
  /-- `mcycle` less Quartz, and `minstret`. -/
  cycles : Word
  instret : Word
  /-- f0-f31, with `fcsr`. -/
  f : List Word
  fcsr : BitVec 8
  /-- v0-v31, 32 bytes each, with the vector control registers. -/
  v : List Byte
  vl : Nat
  vtype : Word
  vstart : Nat
  vcsr : BitVec 3
  /-- LR reservation: physical address and size. -/
  resv : Option (Nat × Nat)
  /-- Last stamp of its `.sc` operations, and of the one that waits with its address and bytes (R99, R115). -/
  scLast : Nat
  scWait : Option (Nat × Nat × Nat)
  /-- Waiting in `wfi`. -/
  wfi : Bool
  deriving DecidableEq, Repr

/-! ### Debug, Beryl, RAS and boot (R442-R469) -/

/-- A halted cluster or hazard-check bookkeeping of a debug module (R442). -/
structure Beryl where
  /-- 0-127 L2 slices, 128 and up LPDDR6 and CXL home agents from agent 512. -/
  point : Nat
  /-- Last key and the run being counted: requester and count (R453). -/
  key : Option Nat
  run : Option (Nat × Nat)
  /-- Counts consumed of runs of the log, by word index (R454). -/
  used : List (Nat × Nat)
  /-- Atomics held: core, operation uid, key, requester and the cycle of arrival (R454). -/
  held : List (Nat × Nat × Nat × Nat × Nat)
  /-- Requester and other key admitted since, for the wait limit (R455). -/
  admitted : List (Nat × Nat × Nat)
  diverged : Bool
  deriving DecidableEq, Repr

/-- Errors, boot and checkpoint bookkeeping (R461-R469). -/
structure Ras where
  /-- Uncorrectable errors of a unit: kind, id, cycles at which they came (R465). -/
  errors : List (Nat × Nat × Nat)
  /-- Fenced units: kind 0 cluster, 1 home agent, 2 lane, and id. -/
  fenced : List (Nat × Nat)
  /-- A checkpoint is running: direction, scope and bytes copied (R469). -/
  check : Option (Nat × Nat × Nat)
  /-- Body digest of the running image (R462). -/
  body : Option Nat
  /-- An attestation report is due at this host address, with the digest of the registers as read at the request (R462). -/
  attest : Option (Nat × List Byte)
  /-- Memory channels retraining: stack × 64 + pseudo-channel, or 512 + LPDDR6 channel (R467). -/
  retrain : List Nat
  deriving DecidableEq, Repr

/-! ### Fabrics (R118-R154) -/

/-- A flit in a slot of the package ring (R118). -/
structure RingSlot where
  /-- The slot: direction, lane 0-31, and its number 0-9 round the ring. -/
  cw : Bool
  lane : Nat
  slot : Nat
  flit : Flit
  /-- It was refused twice and goes back to its source (R122). -/
  back : Bool
  /-- Cycle of its insertion or of its last refusal. -/
  since : Nat
  deriving DecidableEq, Repr

/-- A message returned to its source and waiting to be re-inserted (R122, R126). -/
structure Returned where
  flit : Flit
  /-- Returns so far and the cycle of re-insertion. -/
  returns : Nat
  due : Nat
  deriving DecidableEq, Repr

/-- A protected request awaiting its answer (R128). -/
structure E2eReq where
  dst : Nat
  sq : Nat
  req : PeerReq
  /-- The agent whose number its flits carry (R120). -/
  agent : Nat
  /-- Core and operation it belongs to, when a strand issued it. -/
  core : Option Nat
  uid : Nat
  ctx : Nat
  sends : Nat
  sentAt : Nat
  deriving DecidableEq, Repr

/-- What a bridge station keeps for a source module (R129). -/
structure E2eSrc where
  src : Nat
  /-- Highest sequence up to which all are received; the first expected is 0, so it starts at 2^24 - 1. -/
  high : Nat
  /-- Received numbers above it. -/
  got : List Nat
  /-- Results kept of atomics. -/
  results : List (Nat × List Byte)
  deriving DecidableEq, Repr

inductive TxState where
  | send | replay | realign | retrain | down
  deriving DecidableEq, Repr

inductive RxState where
  | accept | nakwait | realign | retrain | down
  deriving DecidableEq, Repr

/-- One end of a lane group: its receiver and its sender (R133, R134, R136). -/
structure Lane where
  /-- 28 × bundle + lane group. -/
  lg : Nat
  rx : RxState
  /-- Next expected sequence. -/
  n : Nat
  /-- Deliveries since the last acknowledgement, and the cycle at which one is due (R133). -/
  since : Nat
  ackDue : Nat
  /-- NAKs sent for the expected sequence, and the cycle of the next one. -/
  naks : Nat
  nakDue : Nat
  tx : TxState
  /-- Next new sequence, and the copies kept: sequence and flit. -/
  m : Nat
  copies : List (Nat × Flit)
  /-- Sequence from which a replay still resends. -/
  resend : Option Nat
  /-- Sequence named by a notice that arrived before training was done. -/
  notice : Option Nat
  /-- Cycle at which training ends, and whether it has (R134). -/
  trainDue : Nat
  trained : Bool
  mask : BitVec 16
  /-- Beats of its stream sent on the present mask (R131). -/
  beat : Nat
  /-- Mask before a fault and the cycle it was seen, for the link event record (R138). -/
  oldMask : BitVec 16
  seen : Nat
  /-- ELSUs of this module at fault, by bit, for the record. -/
  own : Nat
  deriving DecidableEq, Repr

/-- The rings, links and remote windows. -/
structure Fabric where
  returned : List Returned
  /-- Reservations: destination, source, tag, on the rack ring (R122). -/
  resv : List (Nat × Nat × Nat × Bool)
  /-- Occupied slots of the package ring (R118, R121). -/
  ring : List RingSlot
  /-- Flits of accepted messages of which some are still missing (R121). -/
  incoming : List Flit
  /-- Flits of the rack ring that wait at a bridge station for an empty slot of the package ring (R125). -/
  entering : List Flit
  /-- Flits for an out bundle, with the cycle from which they may leave (R125, R132). -/
  waiting : List (Nat × Nat × Flit)
  e2e : List E2eReq
  e2eNext : List (Nat × Nat)
  e2eSrc : List E2eSrc
  /-- Accepted accesses of other modules that wait at a home agent: module, number, request (R127, R129). -/
  peers : List (Nat × Nat × PeerReq)
  lanes : List Lane
  /-- Next sequence of (16 × cluster + slot) (R140). -/
  winSeq : List (Nat × Nat)
  /-- Next sequence to perform of (module, 16 × cluster + slot), writes on their way to their target, and early arrivals there. -/
  winNext : List ((Nat × Nat) × Nat)
  winFly : List WinWrite
  winBuf : List WinWrite
  /-- Acknowledgements on their way on this module: source cluster, slot, sequence, refused. -/
  winAcks : List (Nat × Nat × Nat × Bool)
  deriving DecidableEq, Repr

/-- Token loss procedure of a plane (R150). -/
structure Loss where
  plane : Nat
  base : Nat
  /-- Members that reported, with the sequence reported. -/
  reports : List (Nat × Nat)
  reported : Bool
  deriving DecidableEq, Repr

/-- The Zheuc planes at this member (R143-R153). -/
structure Zheuc where
  /-- Cycle of the last frame received on each plane. -/
  lastFrame : List (Nat × Nat)
  /-- Next unused sequence and commit time of the last number (R100, R145). -/
  seq : Nat
  tlast : Nat
  /-- Own messages not yet sent, oldest first (R146). -/
  outbox : List (List Word)
  /-- Received or sent messages not yet committed. -/
  pending : List (List Word)
  /-- Committed and not yet performed: numbers below this are committed. -/
  committed : Nat
  /-- Next number to perform. -/
  performed : Nat
  /-- Last 256 committed messages; numbers below `skip` that it lacks were lost to it while it was fenced (R147, R151). -/
  history : List (List Word)
  skip : Nat
  /-- The host has readmitted it and no pass frame has come since. -/
  rejoin : Bool
  /-- Bursts kept for their markers, and how often a resend of each missing burst or message was asked. -/
  bursts : List Burst
  resends : List (Nat × Nat)
  /-- Own bursts waiting for a data tenure, and sent ones kept for resending. -/
  outBursts : List Burst
  sentBursts : List Burst
  burstId : List (Nat × Nat)
  loss : List Loss
  /-- Numbers to send as history copies, each with the lower members that may answer first (R147). -/
  copies : List (Nat × List Nat)
  /-- Bursts received in the present tenure of their sender, by key; wavelengths last seen of a sender on a plane (32 × plane + member), and
  last sent by this member (R151). -/
  fresh : List Nat
  seenMask : List (Nat × Nat)
  sentMask : List (Nat × Nat)
  /-- Quartz correction left to apply and the cycle of the last one (R152, R153). -/
  delta : Int
  fast : Bool
  lastCorr : Nat
  /-- The last correction skipped a value. -/
  skipped : Bool
  /-- Own frames on their way back through the star (R143). -/
  echo : List (List Word)
  /-- Wavelengths of a plane's sender where not all eight are lit (R151). -/
  masks : List (Nat × Nat)
  deriving DecidableEq, Repr

/-! ### Agate named tiles (R155-R185) -/

inductive PendState where
  | forwarded | noroute | producer
  deriving DecidableEq, Repr

/-- A pending-interest entry (R166). Router 0-7 are the die stations, 8 the bridge router. -/
structure Pend where
  rt : Nat
  idx : Nat
  name : Nat
  relaxed : Bool
  st : PendState
  exp : Nat
  modmask : BitVec 32
  cw : Bool
  ccw : Bool
  stns : BitVec 10
  /-- Origin module and station of the interest that made it (R163). -/
  omod : Nat
  ostn : Nat
  /-- Consumer records of this entry, in arrival order. -/
  cons : List Nat
  deriving DecidableEq, Repr

/-- A consumer record (R167). -/
structure Cons where
  idx : Nat
  stn : Nat
  ctx : Nat
  rtn : Nat
  core : Nat
  slot : Nat
  name : Nat
  relaxed : Bool
  exp : Nat
  dst : List Span
  /-- The slot is ARRIVED and not yet freed (R176); the name is then that of the tile delivered, exact. -/
  arrived : Bool
  deriving DecidableEq, Repr

/-- A tile-store entry (R169). -/
structure Tile where
  rt : Nat
  idx : Nat
  name : Nat
  prod : Bool
  whole : Bool
  size : Nat
  qtz : Nat
  data : List Byte
  /-- Segment offsets received while filling. -/
  segs : List Nat
  /-- The segments arrived with `HIT` set. -/
  hit : Bool
  deriving DecidableEq, Repr

/-- The named-tile fabric. -/
structure Agate where
  pends : List Pend
  cons : List Cons
  tiles : List Tile
  /-- Announcement caches: router, namespace × 2^24 + tensor, highest iteration (R179). -/
  anns : List (Nat × Nat × Nat)
  /-- Full names published on this module (R156). -/
  published : List Nat
  /-- Messages a router has sent and that have not arrived: destination router, kind (R165), message, downstream mark. -/
  msgs : List (Nat × Nat × AgMsg × Nat)
  /-- Those of them that were refused under the slot rules, and the cycle of their next arrival (R158, R172). -/
  held : List ((Nat × Nat × AgMsg × Nat) × Nat)
  /-- Records removed at their expiry whose slots are still EXPIRED (R174, R175). -/
  gone : List Cons
  /-- Next landing place of plane deliveries (R182). -/
  landing : Nat
  deriving DecidableEq, Repr

/-! ### The module -/

/-- What the next step does, when the environment or a schedule says so. -/
inductive Turn where
  /-- A strand of the current core issues. -/
  | issue (σ : StrandId)
  /-- A step with no word of its own. -/
  | event (i : Instr)
  /-- A cycle passes. -/
  | cycle
  /-- A Ferle hart runs its next instruction. -/
  | hart (h : Nat)
  /-- Another core becomes the current one. -/
  | core (k : Nat)
  /-- A cross-trigger channel reaches a cluster (R443). -/
  | trigger (clu ch : Nat)
  deriving DecidableEq, Repr

/-- The state of the module. -/
structure State where
  /-- Quartz (R3). -/
  quartz : Word
  /-- Free values drawn so far (the model's own field, log 4). -/
  free : Nat
  /-- Turns still to come, and the default turn when none is given (the model's own fields, log 3). -/
  agenda : List Turn
  turn : Nat
  /-- The strand or slot that executes, and the hart that does (R429). -/
  cur : StrandId
  hart : Nat
  /-- The current core, and the other cores that differ from their reset state. -/
  core : Core
  cores : List Core
  clusters : List (Nat × Cluster)
  jobs : List Job
  /-- Jobs accepted so far, and completed so far. -/
  jobSeq : Nat
  jobDone : Nat
  /-- Physical memory, regions 0x0-0x3 (R28). -/
  mem : List Host.Cell
  /-- The cluster stores, at 2^21 × cluster + offset (R45). -/
  store : List Host.Cell
  /-- Device registers that differ from their reset value, by R401 address. -/
  dev : List (Nat × Word)
  lm : Lm
  coh : Coh
  futures : List Future
  futSeq : Nat
  /-- Generations of the future entries, and records written to each prefill queue (R436, R439). -/
  futGen : List (Nat × Nat)
  pqSeq : List (Nat × Nat)
  harts : List (Nat × Hart)
  fab : Fabric
  zg : Zheuc
  agate : Agate
  beryl : List Beryl
  ras : Ras
  moduleFloor : Nat
  /-- Words sent out of the module: host interrupts, Ultra Ethernet sends and the like, newest first. -/
  out : List (Nat × List Word)
  deriving DecidableEq, Repr

/-! ### Reset values -/

def StepSlot.reset : StepSlot := { reg := 0, strand := .l, stride := 0 }

def Loop.reset : Loop :=
  { cnt := 0, beg := 0, fin := 0, done := 0, active := false, slots := List.replicate 4 StepSlot.reset }

def Strand.reset : Strand :=
  { pc := 0, parked := false, g := List.replicate 7 0, win := List.replicate 96 0, wb := 0, sb := 0, depth := 0,
    spillb := 0, loops := List.replicate 6 Loop.reset, pend := 0, stage := 0, rel := 0, fence := .none, wait := 0 }

def Bank.reset : Bank := { cause := 0, val := 0, pcl := 0, pcx := 0, pcs := 0, pck := 0, stage := 0 }

def View.empty : View := { ctx := 0, sup := false, htb := 0, htn := 0, snap := [], ltt := [], draw := 0 }

/-- A core after module reset: no task, `VSHARE` 1 and `SLPCFG.DELAY` 64 (R222, R464). -/
def Core.reset (k : Nat) : Core :=
  { idx := k, task := .none, view := View.empty, split := false, l := Strand.reset, x := Strand.reset, s := Strand.reset,
    k := Strand.reset, bdone := 0, fifo := List.replicate 17 [], xIssue := 0, flight := [], tokens := List.replicate 16 0,
    resv := List.replicate 16 0, cc := 0, bars := List.replicate 256 { p := 0, a := 0, phase := false },
    slots := List.replicate 64 { st := .free, word := 0 }, scLast := 0, specst := 0, hold := [], bsts := [], xfctl := 0,
    dmem := 0, dphase := 0, vshare := 1, slpcfg := 256, pgreply := 0, tl := 0, tvec := 0, trapen := 0,
    bank1 := Bank.reset, bank2 := Bank.reset, lttBase := 0, lttCount := 0, lttCrc := 0,
    openJob := .none, ops := [], nextUid := 0, pagerSeq := 0, pagerOut := .none, pagerHeld := [], budget := 0,
    preempt := 0, saving := 0, halted := false, watchSkip := [], asleep := 0, waited := 0 }

def Cluster.reset : Cluster :=
  { d := List.replicate 8 0, vq := List.replicate 8 [], lanes := List.replicate 16 0, lastMe := 4095, lastCe := 4095,
    power := 0, split := 1 }

def Lm.reset : Lm :=
  { tasks := [], launches := [], nextTask := 0, nextLaunch := 0, ready := [], woken := [], vacated := [], p := [0, 0],
    credit := [], domains := [], preload := [], vacates := [], tails := [], pagerq := [], hostq := [],
    pagerIdle := [], offered := [] }

def Coh.reset : Coh :=
  { tags := [], copies := [], dir := [], pins := [], msc := [], feet := [], clock := 0, touched := [], tracks := [], migs := [],
    redirects := [], migDone := [], queue := [], retries := [], refused := [], poison := [], scWrites := [], answers := [] }

def Fabric.reset : Fabric :=
  { returned := [], resv := [], ring := [], incoming := [], entering := [], waiting := [], e2e := [], e2eNext := [], e2eSrc := [], peers := [],
    lanes := [], winSeq := [], winNext := [], winFly := [], winBuf := [], winAcks := [] }

def Zheuc.reset : Zheuc :=
  { lastFrame := [], seq := 0, tlast := 0, outbox := [], pending := [], committed := 0, performed := 0,
    history := [], skip := 0, rejoin := false, bursts := [], resends := [], outBursts := [], sentBursts := [], burstId := [],
    loss := [], copies := [], fresh := [], seenMask := [], sentMask := [], delta := 0, fast := false, lastCorr := 0, skipped := false,
    echo := [], masks := [] }

def Agate.reset : Agate :=
  { pends := [], cons := [], tiles := [], anns := [], published := [], msgs := [], held := [], gone := [], landing := 0 }

def Ras.reset : Ras :=
  { errors := [], fenced := [], check := none, body := none, attest := none, retrain := [] }

/-- A hart after reset: M-mode at address 0 (log 13). -/
def Hart.reset : Hart :=
  { pc := 0, x := List.replicate 31 0, priv := .m, fsbx := 0, fcapb := List.replicate 16 0, fcapl := List.replicate 16 0,
    mstatus := 0, mtvec := 0, mepc := 0, mcause := 0, mtval := 0, mie := 0, mip := 0, mscratch := 0, medeleg := 0,
    mideleg := 0, stvec := 0, sepc := 0, scause := 0, stval := 0, sscratch := 0, satp := 0,
    menvcfg := 0, senvcfg := 0, mcounteren := 0, scounteren := 0, stimecmp := 0, cycles := 0, instret := 0,
    f := List.replicate 32 0, fcsr := 0, v := List.replicate 1024 0, vl := 0, vtype := 0x8000000000000000, vstart := 0, vcsr := 0,
    resv := none, scLast := 0, scWait := none, wfi := false }

/-- The module right after module reset (R9): no task is placed, every register holds its reset value, no cell is listed. -/
def State.reset : State :=
  { quartz := 0, free := 0, agenda := [], turn := 0, cur := .l, hart := 0, core := Core.reset 0, cores := [], clusters := [],
    jobs := [], jobSeq := 0, jobDone := 0, mem := [], store := [], dev := [], lm := Lm.reset, coh := Coh.reset,
    futures := [], futSeq := 0, futGen := [], pqSeq := [], harts := [], fab := Fabric.reset, zg := Zheuc.reset,
    agate := Agate.reset, beryl := [], ras := Ras.reset, moduleFloor := 0, out := [] }

end Sys2Proof.Machine
end

