-- ==== Sys2Proof/Machine/Bits.lean ====
section
/-! DEFINITION. Bit fields, byte order, signed values, sorted association lists and CRC-32C. -/

namespace Sys2Proof.Machine

/-! ### Fields (R5) -/

/-- Bits `lo + len - 1 : lo` of a word. -/
def bitsAt (w : Word) (lo len : Nat) : Nat := w.toNat / 2 ^ lo % 2 ^ len

/-- The word with that field replaced by the low `len` bits of `v`. -/
def setBits (w : Word) (lo len v : Nat) : Word :=
  BitVec.ofNat 64 (w.toNat - bitsAt w lo len * 2 ^ lo + v % 2 ^ len * 2 ^ lo)

/-- Bit `i` of a word. -/
def bitAt (w : Word) (i : Nat) : Bool := w.getLsbD i

/-- A word from fields placed at their low bits (R5); fields must not overlap. -/
def mkWord (fs : List (Nat × Nat)) : Word := BitVec.ofNat 64 (packNat 0 fs)

def b2n (b : Bool) : Nat := if b then 1 else 0

/-- A truth value as a register value (R278). -/
def boolWord (b : Bool) : Word := if b then 1 else 0

/-- Sign-extends the low `n` bits (R13). -/
def sextNat (n v : Nat) : Word :=
  let u := v % 2 ^ n
  if u < 2 ^ (n - 1) then BitVec.ofNat 64 u else BitVec.ofNat 64 (2 ^ 64 - 2 ^ n + u)

/-- The low `n` bits of an integer (R13). -/
def wrapInt (n : Nat) (x : Int) : Nat := (x % (2 ^ n : Int)).toNat

/-- An `n`-bit code read as two's complement. -/
def toInt (n v : Nat) : Int := if v % 2 ^ n < 2 ^ (n - 1) then (v % 2 ^ n : Int) else (v % 2 ^ n : Int) - 2 ^ n

/-! ### Bytes (R6) -/

/-- The value of bytes, least significant first. -/
def bytesNat : List Byte → Nat
  | [] => 0
  | b :: bs => b.toNat + 256 * bytesNat bs

/-- The low `k` bytes of a value, least significant first. -/
def natBytes : Nat → Nat → List Byte
  | 0, _ => []
  | k + 1, v => BitVec.ofNat 8 v :: natBytes k (v / 256)

def wordBytes (w : Word) : List Byte := natBytes 8 w.toNat

/-- The bytes of words in ascending order. -/
def wordsBytes (ws : List Word) : List Byte := ws.flatMap wordBytes

/-- Cuts bytes into words of eight. -/
def bytesWords : Nat → List Byte → List Word
  | 0, _ => []
  | k + 1, bs => BitVec.ofNat 64 (bytesNat (bs.take 8)) :: bytesWords k (bs.drop 8)

/-- A 1,024-bit entry from its bytes, byte j in bits 8j+7:8j (R312). -/
def entryOf (bs : List Byte) : Entry := BitVec.ofNat 1024 (bytesNat (bs.take 128))

def entryBytes (e : Entry) : List Byte := natBytes 128 e.toNat

/-! ### Sorted association lists -/

def aget {α : Type} (d : α) (k : Nat) : List (Nat × α) → α
  | [] => d
  | (k', v) :: l => if k' = k then v else aget d k l

def ahas {α : Type} (k : Nat) (l : List (Nat × α)) : Bool := l.any (fun p => p.1 == k)

def aset {α : Type} (k : Nat) (v : α) : List (Nat × α) → List (Nat × α)
  | [] => [(k, v)]
  | (k', v') :: l => if k < k' then (k, v) :: (k', v') :: l else if k' = k then (k, v) :: l else (k', v') :: aset k v l

def adel {α : Type} (k : Nat) (l : List (Nat × α)) : List (Nat × α) := l.filter (fun p => p.1 != k)

/-- Sets `k` to `v`, or removes it when `v` is the default. -/
def aput {α : Type} [DecidableEq α] (d : α) (k : Nat) (v : α) (l : List (Nat × α)) : List (Nat × α) :=
  if v = d then adel k l else aset k v l

/-- Replaces the element at `i`. -/
def lset {α : Type} (l : List α) (i : Nat) (v : α) : List α := l.set i v

/-! ### CRC-32C -/

def crcBit (c : Nat) : Nat := if c % 2 = 1 then (c / 2) ^^^ 0x82F63B78 else c / 2

def crcByte (c : Nat) (b : Byte) : Nat :=
  let x := c ^^^ b.toNat
  crcBit (crcBit (crcBit (crcBit (crcBit (crcBit (crcBit (crcBit x)))))))

/-- CRC-32C of bytes (R130, R145, R428). -/
def crc32c (bs : List Byte) : Nat := (bs.foldl crcByte 0xFFFFFFFF) ^^^ 0xFFFFFFFF

end Sys2Proof.Machine
end

