-- ==== Sys2Proof/Machine/Memory.lean ====
section
/-! DEFINITION. Byte memories as canonical lists of cells, the physical address map (R28) and the home agents (R64). -/

namespace Sys2Proof.Machine

/-- What a byte that nothing has written reads as (log 1). -/
def emptyByte : Byte := 0

/-- The byte at an address. -/
def cellGet : List Host.Cell → Nat → Byte
  | [], _ => emptyByte
  | (a, b) :: m, x => if a = x then b else if x < a then emptyByte else cellGet m x

/-- The memory with the byte at `x` replaced, in canonical form. -/
def cellSet : List Host.Cell → Nat → Byte → List Host.Cell
  | [], x, v => if v = emptyByte then [] else [(x, v)]
  | (a, b) :: m, x, v =>
    if a = x then (if v = emptyByte then m else (x, v) :: m)
    else if x < a then (if v = emptyByte then (a, b) :: m else (x, v) :: (a, b) :: m)
    else (a, b) :: cellSet m x v

/-- Every listed address is at least `lo`, addresses strictly rise, and no entry is what an unlisted address reads as. -/
def wfFrom : Nat → List Host.Cell → Bool
  | _, [] => true
  | lo, (a, b) :: m => decide (lo ≤ a) && decide (b ≠ emptyByte) && wfFrom (a + 1) m

/-- The canonical form of a memory. -/
def Memory.wf (m : List Host.Cell) : Bool := wfFrom 0 m

/-- `n` bytes from `x` up. -/
def cellRead (m : List Host.Cell) (x : Nat) : Nat → List Byte
  | 0 => []
  | n + 1 => cellGet m x :: cellRead m (x + 1) n

/-- Writes bytes from `x` up. -/
def cellWrite (m : List Host.Cell) (x : Nat) : List Byte → List Host.Cell
  | [] => m
  | b :: bs => cellWrite (cellSet m x b) (x + 1) bs

/-- The memory whose only bytes are a list's, from `x` up. -/
def cellsFrom (x : Nat) : List Byte → List Host.Cell
  | [] => []
  | b :: bs => if b = emptyByte then cellsFrom (x + 1) bs else (x, b) :: cellsFrom (x + 1) bs

/-- Copies `n` bytes between memories, keeping the canonical form. -/
def copyCells (src : List Host.Cell) (from_ n : Nat) (m : List Host.Cell) (dst : Nat) : List Host.Cell :=
  (src.filter fun c => decide (from_ ≤ c.1 ∧ c.1 < from_ + n)).foldl (fun m c => cellSet m (dst + (c.1 - from_)) c.2)
    (m.filter fun c => !(decide (dst ≤ c.1 ∧ c.1 < dst + n)))

def readWord (m : List Host.Cell) (x : Nat) : Word := BitVec.ofNat 64 (bytesNat (cellRead m x 8))

def readWords (m : List Host.Cell) (x n : Nat) : List Word := bytesWords n (cellRead m x (8 * n))

/-! ### Physical addresses (R28) -/

def region (pa : Nat) : Nat := pa / 2 ^ 48 % 16

/-- The address exists: the bits its region leaves zero are zero. -/
def physOk (pa : Nat) : Bool :=
  match region pa with
  | 0 => pa / 2 ^ 39 % 2 ^ 9 == 0
  | 1 => pa / 2 ^ 40 % 2 ^ 8 == 0
  | 2 | 3 => true
  | _ => false

/-- Every byte of a range exists. -/
def rangeOk (pa n : Nat) : Bool := physOk pa && physOk (pa + (n - 1))

/-- HBM stack of a region 0x0 address. -/
def stackOf (pa : Nat) : Nat := pa / 2 ^ 36 % 8

/-- Super-line number p[51:9] (R71). -/
def slineOf (pa : Nat) : Nat := pa / 512

/-- Bytes of a grain code (R29). -/
def grainBytes (g : Nat) : Nat := if g = 0 then 32 else if g = 1 then 128 else 512

/-- The grain unit of a super-line that holds an address (R67). -/
def unitIn (pa grain : Nat) : Nat := pa % 512 / grainBytes grain

/-- First address of a unit. -/
def unitBase (sl grain u : Nat) : Nat := 512 * sl + u * grainBytes grain

/-- L2 slice of an address (R54). -/
def l2Slice (pa : Nat) : Nat :=
  (pa / 2 ^ 9 % 16) ^^^ (pa / 2 ^ 13 % 16) ^^^ (pa / 2 ^ 17 % 16) ^^^ (pa / 2 ^ 21 % 16)

end Sys2Proof.Machine
end

