-- ==== Sys2Proof/Machine/Dev.lean ====
section
/-! DEFINITION. The device-register map (R401): addresses, reset values and access masks (R7-R9), and raw reads and writes of registers that
have no side effect. -/

namespace Sys2Proof.Machine

/-! ### Addresses (R401), physical bits 47:0 -/

def ctxBase (c : Nat) : Nat := 0x000100000000 + 0x1000 * c
def clusterBase (g : Nat) : Nat := 0x001000000000 + 2 ^ 32 * (g / 32) + 0x10000 * (g % 32)
def stationBase (d : Nat) : Nat := 0x001000000000 + 2 ^ 32 * d + 0x400000
def stackBase (s : Nat) : Nat := 0x002000000000 + 2 ^ 32 * s
def agentBase (h : Nat) : Nat := 0x003000000000 + 0x1000 * h
def bridgeBase (b : Nat) : Nat := 0x004000000000 + 2 ^ 32 * b
def bridgeRouterBase : Nat := 0x004200000000
def futureBase : Nat := 0x005000100000
def debugBase (g : Nat) : Nat := 0x006000000000 + 0x40000 * g
def nsBase (n : Nat) : Nat := 0x000200000000 + 16 * n
def peerBase (n : Nat) : Nat := 0x000200001000 + 16 * n

/-- Base of an Agate router's block: die stations 0-7, 8 the bridge router. -/
def routerBase (rt : Nat) : Nat := if rt < 8 then stationBase rt else bridgeRouterBase

/-- Register block of a log point: 0-127 an L2 slice, 128 + i home agent 512 + i (R451). -/
def berylBase (p : Nat) : Nat := if p < 128 then 0x006100000000 + 0x1000 * p else agentBase (512 + (p - 128)) + 0x100

/-! ### Access masks and reset values -/

/-- How a register behaves under R7: value after reset, writable bits, write-1-to-clear bits. -/
structure RegSpec where
  reset : Nat
  rw : Nat
  w1c : Nat
  deriving DecidableEq, Repr

/-- Bits hi:lo. -/
def rng (hi lo : Nat) : Nat := 2 ^ (hi + 1) - 2 ^ lo

def RegSpec.ro : RegSpec := { reset := 0, rw := 0, w1c := 0 }

/-- A counter of R85. -/
def RegSpec.counter : RegSpec := { reset := 0, rw := 0, w1c := rng 31 0 }

def RegSpec.plain (rw : Nat) : RegSpec := { reset := 0, rw := rw, w1c := 0 }

/-- An event-ring base register (R84, R466). -/
def RegSpec.ringBase : RegSpec := .plain (rng 51 12 + rng 3 0)

def RegSpec.ringPtr : RegSpec := .plain (rng 31 0)

/-- An eye-margin monitor (R467). -/
def RegSpec.eye : RegSpec := { reset := 20 * 2 ^ 24 + 16 * 2 ^ 16, rw := rng 31 16, w1c := 2 ^ 63 }

/-- The module block (R401, R458-R469). -/
def moduleSpec (o : Nat) : RegSpec :=
  if o = 0x000 then .plain (rng 5 0)
  else if o = 0x008 then .plain (rng 4 0)
  else if o = 0x010 then .plain (rng 31 0)
  else if o = 0x018 then .plain (rng 63 31 + rng 15 0)
  else if o = 0x020 then { reset := 0, rw := 0, w1c := 2 ^ 63 }
  else if o = 0x028 then .plain (2 ^ 63 + rng 55 46)
  else if o = 0x030 then { reset := 24 * 2 ^ 48 + 0x1000, rw := 2 ^ 63 + rng 52 48 + rng 15 0, w1c := 0 }
  else if o = 0x038 then .plain (rng 51 16 + rng 4 0)
  else if o = 0x040 then .plain (rng 51 16)
  else if o = 0x048 then .plain (2 ^ 62)
  else if o = 0x050 then .plain (rng 51 16)
  else if o = 0x058 then .ringBase
  else if o = 0x060 then .ringPtr
  else if o = 0x068 then .counter
  else if o = 0x070 then .plain (rng 63 58 + rng 51 8 + 1)
  else if 0x080 ≤ o ∧ o ≤ 0x0F0 then .counter
  else if o = 0x0F8 then { reset := 7, rw := rng 10 0, w1c := 0 }
  else if 0x100 ≤ o ∧ o < 0x200 then .plain (rng 15 0)
  else if 0x200 ≤ o ∧ o < 0x400 then .plain (rng 63 1)
  else if 0x400 ≤ o ∧ o < 0x600 then .plain (rng 63 0)
  else if 0x600 ≤ o ∧ o < 0x680 then .counter
  else if o = 0x808 then { reset := 0, rw := 0, w1c := 2 ^ 63 }
  else if o = 0x810 then .ringBase
  else if o = 0x818 then .ringPtr
  else if o = 0x820 then .counter
  else if o = 0x830 then .plain (rng 62 60)
  else if o = 0x840 then .plain (rng 63 2 + 1)
  else if 0x848 ≤ o ∧ o ≤ 0x868 then .plain (rng 63 0)
  else if o = 0x878 then .counter
  else if 0x900 ≤ o ∧ o < 0x980 then .plain (rng 63 59 + rng 39 0)
  else if 0xA00 ≤ o ∧ o < 0xC00 then .eye
  else .ro

/-- A context's block (R401, R433, R456, R463). -/
def ctxSpec (o : Nat) : RegSpec :=
  if o = 0x000 then .plain (rng 51 17)
  else if o = 0x008 then .plain (rng 12 0)
  else if o = 0x010 then .plain (2 ^ 62)
  else if o = 0x018 then .plain (rng 51 16 + rng 12 0)
  else if o = 0x020 then { reset := 0x1110000000000000, rw := rng 63 51 + rng 47 0, w1c := 0 }
  else if o = 0x030 ∨ o = 0x038 then { reset := 0, rw := 0, w1c := rng 63 0 }
  else if o = 0x040 ∨ o = 0x048 ∨ o = 0x050 ∨ o = 0x070 then .counter
  else if o = 0x060 then .ringBase
  else if o = 0x068 then .ringPtr
  else if o = 0x078 then .plain (rng 31 0)
  else if 0x100 ≤ o ∧ o < 0x200 then { reset := 0, rw := 2 ^ 63 + 2 ^ 61 + rng 55 8, w1c := 2 ^ 62 }
  else if 0x200 ≤ o ∧ o < 0x300 then { reset := 0, rw := 0, w1c := 2 ^ 63 }
  else if o = 0x400 then .plain (rng 63 31)
  else if o = 0x408 then { reset := 0x1000000, rw := rng 63 0, w1c := 0 }
  else if o = 0x410 then .plain (rng 63 3)
  else if o = 0x418 then .plain (rng 63 5)
  else if o = 0x420 then { reset := 0, rw := 0, w1c := rng 63 0 }
  else .ro

/-- A cluster's block (R401); `cd0` for the clusters of CD0 (R37). -/
def clusterSpec (cd0 : Bool) (o : Nat) : RegSpec :=
  if o = 0x000 then { reset := b2n cd0, rw := rng 1 0, w1c := 0 }
  else if o = 0x008 then { reset := 1, rw := rng 1 0, w1c := 0 }
  else if o = 0x010 then .plain (rng 7 0)
  else if o = 0x018 then { reset := 0, rw := 0, w1c := rng 20 16 }
  else if o = 0x020 then .counter
  else if 0x080 ≤ o ∧ o < 0x100 then { reset := 64, rw := rng 10 0, w1c := 0 }
  else if 0x100 ≤ o ∧ o < 0x180 then .plain (rng 63 52 + rng 50 22)
  else .ro

/-- A router's block: counters and routing entries (R162, R185). -/
def routerSpec (o : Nat) : RegSpec :=
  if o < 0x050 then .counter
  else if 0x100 ≤ o ∧ o < 0x180 then .counter
  else if 0x100000 ≤ o ∧ o < 0x104000 then
    (if o % 16 = 0 then .plain (rng 63 62 + rng 55 16) else .plain (rng 63 31))
  else .ro

/-- A log point's block (R452). -/
def berylSpec (o : Nat) : RegSpec :=
  if o = 0x00 then { reset := 12 * 2 ^ 48, rw := rng 63 56 + rng 52 48, w1c := 0 }
  else if o = 0x08 then { reset := 10, rw := rng 51 12 + rng 4 0, w1c := 0 }
  else if o = 0x10 then .plain (rng 63 32)
  else if o = 0x18 then { reset := 0, rw := 0, w1c := rng 63 62 }
  else .ro

/-- A cluster debug module's block (R442, R446, R447, R450). -/
def debugSpec (o : Nat) : RegSpec :=
  if o = 0x000 then .plain (rng 61 35)
  else if o = 0x010 then .ringBase
  else if o = 0x018 then .ringPtr
  else if o = 0x020 then .plain (rng 4 0)
  else if o = 0x028 then .counter
  else if 0x040 ≤ o ∧ o < 0x080 then (if o % 16 = 0 then .plain (rng 63 0) else .plain (rng 63 51 + rng 31 0))
  else .ro

/-- How the register at an address behaves; an unassigned address reads as zero and ignores writes (R400). -/
def regSpec (a : Nat) : RegSpec :=
  if a % 8 ≠ 0 then .ro
  else if a < 0x1000 then moduleSpec a
  else if 0x000100000000 ≤ a ∧ a < 0x000100040000 then ctxSpec (a % 0x1000)
  else if 0x000200000000 ≤ a ∧ a < 0x000200001000 then
    (if a % 16 = 0 then { reset := 64 * 2 ^ 18, rw := rng 63 18, w1c := 0 } else .plain (rng 63 32))
  else if 0x000200001000 ≤ a ∧ a < 0x000200002000 then
    (if a % 16 = 0 then .plain (rng 63 56 + rng 51 16) else .plain (rng 63 26))
  else if 0x001000000000 ≤ a ∧ a < 0x001800000000 then
    let o := a % 2 ^ 32
    if o < 0x200000 then clusterSpec (a < 0x001100000000) (o % 0x10000)
    else if 0x400000 ≤ o then routerSpec (o - 0x400000)
    else .ro
  else if 0x002000000000 ≤ a ∧ a < 0x002800000000 then
    let o := a % 2 ^ 32
    if o = 0 then { reset := 20, rw := rng 4 0, w1c := 0 }
    else if o = 8 then .counter
    else if 0x100 ≤ o ∧ o < 0x500 then
      (if o % 16 = 0 then .plain (rng 51 16)
       else { reset := 0, rw := rng 63 62 + rng 55 48 + rng 11 0, w1c := 2 ^ 60 })
    else if 0x800 ≤ o ∧ o < 0xA00 then .eye
    else .ro
  else if 0x003000000000 ≤ a ∧ a < 0x003000254000 then
    let o := a % 0x1000
    if o < 0x10 then .counter
    else if 0x100 ≤ o ∧ o < 0x130 ∧ 512 ≤ a / 0x1000 % 0x1000 then berylSpec (o - 0x100)
    else .ro
  else if 0x004000000000 ≤ a ∧ a < 0x004200000000 then
    let o := a % 2 ^ 32
    if o = 0 then { reset := 8 * 2 ^ 8 + 16, rw := rng 11 8 + rng 4 0, w1c := 0 }
    else if o < 0x20 then .counter
    else if 0x1000 ≤ o ∧ o < 0x1400 then { reset := 0xFFFF * 2 ^ 32, rw := 0, w1c := rng 23 20 }
    else if 0x1800 ≤ o ∧ o < 0x1C00 then .counter
    else if 0x2000 ≤ o ∧ o < 0x2400 then .eye
    else .ro
  else if 0x004200000000 ≤ a ∧ a < 0x004300000000 then routerSpec (a - 0x004200000000)
  else if 0x006000000000 ≤ a ∧ a < 0x006004000000 then debugSpec (a % 0x40000)
  else if 0x006100000000 ≤ a ∧ a < 0x006100080000 then berylSpec (a % 0x1000)
  else .ro

/-- The stored value of a register. -/
def State.reg (s : State) (a : Nat) : Word := aget (BitVec.ofNat 64 (regSpec a).reset) a s.dev

/-- Sets the stored value, whatever the access masks. -/
def State.setReg (s : State) (a : Nat) (v : Word) : State :=
  { s with dev := aput (BitVec.ofNat 64 (regSpec a).reset) a v s.dev }

/-- The value a software write leaves (R7, R8). -/
def RegSpec.write (p : RegSpec) (old v : Word) : Word :=
  let rw := BitVec.ofNat 64 p.rw
  let wc := BitVec.ofNat 64 p.w1c
  ((old &&& ~~~rw) ||| (v &&& rw)) &&& ~~~(v &&& wc)

/-- A software write under the access types, with no side effect. -/
def State.writeReg (s : State) (a : Nat) (v : Word) : State := s.setReg a ((regSpec a).write (s.reg a) v)

/-- Adds to a 32-bit counter, saturating (R85). -/
def State.count (s : State) (a : Nat) (n : Nat := 1) : State :=
  s.setReg a (BitVec.ofNat 64 (min (2 ^ 32 - 1) ((s.reg a).toNat + n)))

/-- Adds 1 to a 64-bit counter, saturating (R33, R180). -/
def State.count64 (s : State) (a : Nat) : State :=
  s.setReg a (BitVec.ofNat 64 (min (2 ^ 64 - 1) ((s.reg a).toNat + 1)))

/-- A field of a register. -/
def State.rfld (s : State) (a lo len : Nat) : Nat := bitsAt (s.reg a) lo len

/-- Sets a field of a register. -/
def State.setFld (s : State) (a lo len v : Nat) : State := s.setReg a (setBits (s.reg a) lo len v)

/-! ### Fields other units read -/

/-- `FMODE` bit: 0 paging, 1 futures, 2 learning, 3 retraining, 4 migration, 5 checkpoint; true = host-assisted (R459). -/
def State.fmode (s : State) (i : Nat) : Bool := bitAt (s.reg 0) i

def State.modid (s : State) : Nat := s.rfld 0x008 0 5

/-- Bytes of the L1 part for a `SIZE` code (R47). -/
def l1Bytes (size : Nat) : Nat :=
  match size with
  | 0 => 0 | 1 => 32 * 1024 | 2 => 64 * 1024 | _ => 128 * 1024

/-- L1 part of each slice of a cluster, in bytes, as it is in effect (R47, R48). -/
def State.l1Part (s : State) (g : Nat) : Nat :=
  let cl : Cluster := aget Cluster.reset g s.clusters
  l1Bytes cl.split

/-- `CTXCTL.STATE` (R205): 0 FREE, 1 ACTIVE, 2 HALTED, 3 RESETTING. -/
def State.ctxState (s : State) (c : Nat) : Nat := s.rfld (ctxBase c + 0x10) 60 2

/-- Pager cores of a cluster: bit mask over its cores (R37). -/
def State.pagerMask (s : State) (g : Nat) : Nat :=
  match s.rfld (clusterBase g) 0 2 with
  | 0 => 0 | 1 => 0x80 | _ => 0xC0

def State.isPagerCore (s : State) (k : Nat) : Bool := (s.pagerMask (k / 8)).testBit (k % 8)

/-- The module is an active member of a Zheuc group (R143). -/
def State.inGroup (s : State) : Bool := bitAt (s.reg 0x018) 31 && bitAt (s.reg 0x018) (32 + s.modid)

/-- Members of the Zheuc group in ascending id (R143). -/
def State.members (s : State) : List Nat := (List.range 32).filter (fun m => bitAt (s.reg 0x018) (32 + m))

/-- The valid CXL decoder of a region 0x2 address: the lowest that matches (R460). -/
def State.cxlSeg (s : State) (pa : Nat) : Option Nat :=
  (List.range 16).find? fun n =>
    let r := s.reg (0x900 + 8 * n)
    let g := pa % 2 ^ 48 / 2 ^ 28
    bitAt r 63 && decide (bitsAt r 20 20 ≤ g ∧ g < bitsAt r 20 20 + bitsAt r 0 20)

/-- The home agent of a physical address (R64). -/
def State.homeAgent (s : State) (pa : Nat) : Nat :=
  match region pa with
  | 0 => 64 * stackOf pa + pa / 2 ^ 11 % 64
  | 1 => 512 + pa / 2 ^ 11 % 64
  | 2 => 576 + (s.cxlSeg pa).getD 0
  | _ => 592 + pa / 2 ^ 11 % 4

end Sys2Proof.Machine
end

