-- ==== Sys2Proof/Machine/Regs.lean ====
section
/-! DEFINITION. How words read and write a core: strands, g registers, tokens, vector registers and queues, free values, and the results a meaning
can have. -/

namespace Sys2Proof.Machine

/-! ### Results of a meaning -/

/-- Why a word does not issue. -/
inductive Stop where
  /-- It waits; the codes of R209, or 16 and up for a wait outside the core. -/
  | wait (code : Nat)
  /-- It traps: cause, detail (bits 17:8 of `TCAUSE`) and `TVAL` (R422). Causes 1 and 2 take the word as `TVAL`. -/
  | trap (cause detail : Nat) (tval : Word)
  /-- It ends its context: code and value (R423). -/
  | fatal (code : Nat) (val : Word)
  /-- It meets watchpoint `n` with the access at a handle address (R446). -/
  | watch (n : Nat) (a : Word)
  deriving DecidableEq, Repr

/-- What a word that issues does to its strand. -/
inductive Done where
  /-- It completes; the next word follows. -/
  | next (s : State)
  /-- It completes and transfers to a handle address. -/
  | jump (s : State) (target : Word)
  /-- It has issued and waits for its completion, at its own address (R187). -/
  | hold (s : State) (code : Nat)
  /-- It completes and then raises a trap past itself (R396, R415). -/
  | raise (s : State) (cause detail : Nat) (tval : Word)
  /-- It completes and has set every program counter itself. -/
  | at_ (s : State)
  deriving DecidableEq, Repr

/-- The meaning of a word, before the program counter moves. -/
abbrev Sem := State → Except Stop Done

/-- `ILLEGAL`; the word is the value (R422). -/
def illegal {α : Type} : Except Stop α := .error (.trap 1 0 0)

/-- `ILLEGAL` if a condition holds. -/
def illegalIf (b : Bool) : Except Stop Unit := if b then illegal else .ok ()

/-- Waits while a condition holds. -/
def waitIf (b : Bool) (code : Nat) : Except Stop Unit := if b then .error (.wait code) else .ok ()

/-- Wait code of an operand, memory or agent outside the core; no code of R209. -/
def outside : Nat := 16

/-- Wait code of a `DSYNC` that named no live domain (R200). -/
def stranded : Nat := 18

/-! ### Cores -/

/-- Inserts a core in ascending index; a core at its reset state is not listed. -/
def putCore (c : Core) : List Core → List Core
  | [] => if c = Core.reset c.idx then [] else [c]
  | d :: ds =>
    if d.idx = c.idx then (if c = Core.reset c.idx then ds else c :: ds)
    else if c.idx < d.idx then (if c = Core.reset c.idx then d :: ds else c :: d :: ds)
    else d :: putCore c ds

def findCore (k : Nat) (l : List Core) : Core := (l.find? (fun c => c.idx == k)).getD (Core.reset k)

/-- The core of global index `k` (R2). -/
def State.coreAt (s : State) (k : Nat) : Core := if s.core.idx = k then s.core else findCore k s.cores

/-- Replaces a core by its index. -/
def State.setCore (s : State) (c : Core) : State :=
  if s.core.idx = c.idx then { s with core := c } else { s with cores := putCore c s.cores }

/-- Makes core `k` the current one. -/
def State.focus (s : State) (k : Nat) : State :=
  if s.core.idx = k then s
  else { s with core := findCore k s.cores, cores := putCore s.core (s.cores.filter (fun c => c.idx != k)) }

/-- Every core that differs from its reset state or is current. -/
def State.allCores (s : State) : List Core := s.core :: s.cores

def State.modCore (s : State) (k : Nat) (f : Core → Core) : State := s.setCore (f (s.coreAt k))

/-- Global cluster and die of a core (R2). -/
def Core.cluster (c : Core) : Nat := c.idx / 8
def Core.die (c : Core) : Nat := c.idx / 256
def State.ctx (s : State) : Nat := s.core.view.ctx
def State.sup (s : State) : Bool := s.core.view.sup

/-! ### Strands -/

def Core.strand (c : Core) : StrandId → Strand
  | .l => c.l | .x => c.x | .s => c.s | .k => c.k

def Core.setStrand (c : Core) (σ : StrandId) (t : Strand) : Core :=
  match σ with
  | .l => { c with l := t } | .x => { c with x := t } | .s => { c with s := t } | .k => { c with k := t }

def allStrands : List StrandId := [.l, .x, .s, .k]

def strandOf : Nat → StrandId
  | 0 => .l | 1 => .x | 2 => .s | _ => .k

def State.strand (s : State) (σ : StrandId) : Strand := s.core.strand σ

def State.setStrand (s : State) (σ : StrandId) (t : Strand) : State := { s with core := s.core.setStrand σ t }

def State.modStrand (s : State) (σ : StrandId) (f : Strand → Strand) : State := s.setStrand σ (f (s.strand σ))

/-- The strand that executes. -/
def State.me (s : State) : Strand := s.strand s.cur

def State.modMe (s : State) (f : Strand → Strand) : State := s.modStrand s.cur f

/-! ### g registers (R254) -/

/-- Where g register `r` (1-31) lives: 0-6 are g1-g7, 7 + i is windowed register i. -/
def Strand.key (t : Strand) (r : Nat) : Nat := if r < 8 then r - 1 else 7 + ((t.wb + (r - 8 : Nat)) % 96).toNat

def Strand.getKey (t : Strand) (key : Nat) : Word := if key < 7 then t.g.getD key 0 else t.win.getD (key - 7) 0

def Strand.setKey (t : Strand) (key : Nat) (v : Word) : Strand :=
  if key < 7 then { t with g := t.g.set key v } else { t with win := t.win.set (key - 7) v }

/-- The value of a g register; g0 reads zero. -/
def Strand.get (t : Strand) (r : BitVec 5) : Word := if r = 0 then 0 else t.getKey (t.key r.toNat)

/-- Writes a g register; a write to g0 is discarded. -/
def Strand.set (t : Strand) (r : BitVec 5) (v : Word) : Strand := if r = 0 then t else t.setKey (t.key r.toNat) v

/-- The executing strand's g register. -/
def State.g (s : State) (r : BitVec 5) : Word := s.me.get r

def State.setG (s : State) (r : BitVec 5) (v : Word) : State := s.modMe (fun t => t.set r v)

/-- A result of an earlier word of the strand is still to be written to the register (R277). -/
def Core.busyKey (c : Core) (σ : StrandId) (key : Nat) : Bool :=
  c.ops.any fun o => o.strand == σ &&
    match o.dest with
    | .reg k _ _ => k == key
    | _ => false

def State.busy (s : State) (r : BitVec 5) : Bool := r != 0 && s.core.busyKey s.cur (s.me.key r.toNat)

/-- Waits until every named register is written (R277). -/
def ready (s : State) (rs : List (BitVec 5)) : Except Stop Unit := waitIf (rs.any s.busy) outside

/-- Widens a register number of three bits (g0-g7). -/
def g3 (r : BitVec 3) : BitVec 5 := r.setWidth 5

/-! ### Free values (log 4) -/

/-- An undefined entry, and the state that has drawn it. -/
def State.drawEntry (s : State) : Entry × State := (Config.freeEntry s.free, { s with free := s.free + 1 })

def State.drawWord (s : State) : Word × State := (Config.freeWord s.free, { s with free := s.free + 1 })

def State.drawBytes (s : State) (n : Nat) : List Byte × State :=
  ((List.range n).map (Config.freeByte s.free), { s with free := s.free + 1 })

/-! ### Tokens (R262, R263) -/

def pairOf (a b : StrandId) : Nat := 4 * a.num + b.num

def Core.token (c : Core) (p : Nat) : Nat := c.tokens.getD p 0
def Core.reserved (c : Core) (p : Nat) : Nat := c.resv.getD p 0

/-- The counter and its reservations leave no place. -/
def Core.tokenFull (c : Core) (p : Nat) : Bool := c.token p + c.reserved p ≥ 63

def Core.setToken (c : Core) (p n : Nat) : Core := { c with tokens := c.tokens.set p n }
def Core.setResv (c : Core) (p n : Nat) : Core := { c with resv := c.resv.set p n }

/-- Pushes a token whose place was reserved. -/
def Core.pushReserved (c : Core) (p : Nat) : Core := (c.setResv p (c.reserved p - 1)).setToken p (c.token p + 1)

def Core.pushToken (c : Core) (p : Nat) : Core := c.setToken p (c.token p + 1)
def Core.popToken (c : Core) (p : Nat) : Core := c.setToken p (c.token p - 1)

/-- The natural partners of a strand: it waits on the first and signals the second (R263). -/
def partners : StrandId → Option (StrandId × StrandId)
  | .l => some (.s, .x) | .x => some (.l, .s) | .s => some (.x, .l) | .k => none

/-! ### Vector registers and queues (R255, R256) -/

/-- Depth of a register by code: v registers 2, queues 8. -/
def fifoDepth (code : Nat) : Nat := if code < 12 then 2 else 8

def Core.queue (c : Core) (code : Nat) : List FEntry := c.fifo.getD code []
def Core.setQueue (c : Core) (code : Nat) (q : List FEntry) : Core := { c with fifo := c.fifo.set code q }

/-- Logical occupancy: landed and pending entries (R256). -/
def Core.occ (c : Core) (code : Nat) : Nat := (c.queue code).length

def Core.push (c : Core) (code : Nat) (e : FEntry) : Core := c.setQueue code (c.queue code ++ [e])

def Core.drop1 (c : Core) (code : Nat) : Core := c.setQueue code ((c.queue code).drop 1)

/-- The oldest entry has landed. -/
def Core.headLanded (c : Core) (code : Nat) : Bool := ((c.queue code).head?.map (·.landed)).getD false

/-! ### Modes and addresses -/

/-- Words are 32 bits: split mode, or a handler (R187, R418). -/
def Core.wordMode (c : Core) : Bool := c.split || c.tl != 0
def State.wordMode (s : State) : Bool := s.core.wordMode

/-- Bytes of a word or of a bundle. -/
def State.unit (s : State) : Nat := if s.wordMode then 4 else 16

/-- Address of the word, or of its bundle (R250). -/
def State.here (s : State) : Word := if s.wordMode then s.me.pc else s.core.l.pc

/-- Address of the next word or bundle, and the link of a call (R283). -/
def State.pcNext (s : State) : Word := s.here + BitVec.ofNat 64 s.unit

/-- Sets the address of the executing strand, or of the whole bundle (R187). -/
def State.goto (s : State) (a : Word) : State :=
  if s.wordMode then s.modMe (fun t => { t with pc := a })
  else { s with core := { s.core with
    l := { s.core.l with pc := a }, x := { s.core.x with pc := a + 4 },
    s := { s.core.s with pc := a + 8 }, k := { s.core.k with pc := a + 12 } } }

/-! ### Messages that leave the module -/

/-- Adds to the list of words sent out: 0 host interrupt, 1 Ultra Ethernet send, 2 rack or link message, 3 plane frame, 4 cross-trigger. -/
def State.emit (s : State) (kind : Nat) (ws : List Word) : State := { s with out := (kind, ws) :: s.out }

/-- Quartz as a number (R3). -/
def State.now (s : State) : Nat := s.quartz.toNat

end Sys2Proof.Machine
end

