-- ==== Sys2Proof/Machine/Msc.lean ====
section
/-! DEFINITION. What stands at and behind a home agent: the hot-page trackers (R77), where a migration sends a request (R80, R81), and the
memory-side cache with its footprint predictor, windows and poison marks (R56-R62). -/

namespace Sys2Proof.Machine

def State.modCoh (s : State) (f : Coh → Coh) : State := { s with coh := f s.coh }

/-! ### Trackers (R77) -/

/-- Entry of the lowest count; the earliest of several (log 22). -/
def lowest : List Track → Option Track
  | [] => none
  | t :: ts => match lowest ts with
    | none => some t
    | some u => if t.count ≤ u.count then some t else some u

/-- A request for a frame reaches home agent `h`. -/
def State.track (s : State) (h pa die : Nat) : State :=
  if !bitAt (s.reg 0x030) 63 then s
  else
    let f := pa / 2 ^ 16
    let one := (List.replicate 10 0).set die 1
    let ts := s.coh.tracks
    match ts.find? (fun t => t.agent == h && t.frame == f) with
    | some t =>
      let t' := { t with count := t.count + 1, dies := t.dies.set die (t.dies.getD die 0 + 1) }
      s.modCoh fun c => { c with tracks := ts.map (fun u => if u.agent = h ∧ u.frame = f then t' else u) }
    | none =>
      let mine := ts.filter (fun t => t.agent == h)
      if mine.length < 64 then
        s.modCoh fun c => { c with tracks := ts ++ [{ agent := h, frame := f, count := 1, dies := one }] }
      else match lowest mine with
        | none => s
        | some m => s.modCoh fun c =>
          { c with tracks := ts.map fun u =>
              if u.agent = h ∧ u.frame = m.frame then { agent := h, frame := f, count := m.count + 1, dies := one } else u }

/-! ### Forwarding (R81) -/

/-- Where a request for `pa` is performed. -/
inductive Home where
  /-- At its own agent. -/
  | own
  /-- The line waits for its copy. -/
  | queued
  /-- At the new frame, with or without a redirect notice. -/
  | moved (pa : Nat) (redirect : Bool)
  deriving DecidableEq, Repr

def State.homeOf (s : State) (pa : Nat) : Home :=
  match s.coh.migs.find? (fun m => m.recalled && decide (m.old ≤ pa ∧ pa < m.old + 2 ^ m.size)) with
  | some m =>
    if m.copied.contains ((pa - m.old) / 2048) then .moved (m.new + (pa - m.old)) false else .queued
  | none =>
    match s.coh.redirects.find? (fun r => decide (r.1 ≤ pa ∧ pa < r.1 + 2 ^ r.2.2)) with
    | some r => .moved (r.2.1 + (pa - r.1)) true
    | none => .own

/-- Where the byte now lies: at its address, or in the frame it was moved to. -/
def State.placed (s : State) (pa : Nat) : Nat :=
  match s.homeOf pa with
  | .moved pa' _ => pa'
  | _ => pa

/-- A request meets a redirect, which counts in `MIGFWD` of the old agent; both agents see the request (R77, R81, R85). -/
def State.forwarded (s : State) (pa die : Nat) (redirect : Bool) : State :=
  let s := s.track (s.homeAgent pa) pa die
  if redirect then s.count (agentBase (s.homeAgent pa) + 8) else s

/-! ### Memory-side cache (R57-R62) -/

def mscBase (st n : Nat) : Nat := stackBase st + 0x100 + 16 * n

/-- Enabled windows of a stack that hold an address. -/
def State.mscWindows (s : State) (st pa : Nat) : List Nat :=
  (List.range 64).filter fun n =>
    let b := bitsAt (s.reg (mscBase st n)) 16 36 * 2 ^ 16
    let l := s.reg (mscBase st n + 8)
    bitAt l 61 && decide (b ≤ pa ∧ pa < b + bitsAt l 0 12 * 2 ^ 16)

/-- MSC set of a 2 KiB line: the line's number within its stack, modulo 8,192 (log 22). -/
def mscSet (line : Nat) : Nat := line % 8192

/-- Victim among the unpinned lines of a full set: the least recently used (log 22). -/
def mscVictim : List MscLine → Option MscLine
  | [] => none
  | l :: ls => if l.pinned then mscVictim ls else match mscVictim ls with
    | none => some l
    | some m => if l.use ≤ m.use then some l else some m

/-- `n` consecutive bits from bit `i` of a sector bitmap. -/
def sectorRun (i n : Nat) : BitVec 32 := BitVec.ofNat 32 ((2 ^ n - 1) * 2 ^ i)

/-- Sectors of its 2 KiB line that `n` bytes from `pa` meet. -/
def mscSectors (pa n : Nat) : BitVec 32 :=
  let i := pa % 2048 / 64
  sectorRun i (min 31 ((pa % 2048 + (n - 1)) / 64) + 1 - i)

/-- Poison marks of a line's 64-byte sectors, as memory's 32-byte marks give them (R56). -/
def Coh.marks (c : Coh) (line : Nat) : BitVec 32 :=
  (c.poison.filter fun p => p / 64 == line).foldl (fun b p => b ||| BitVec.ofNat 32 (2 ^ (p % 64 / 2))) 0

/-- The line's sectors carry memory's marks. -/
def Coh.remark (c : Coh) (line : Nat) : Coh :=
  { c with msc := c.msc.map fun l => if l.line = line then { l with poison := c.marks line &&& l.valid } else l }

/-- Footprint entry of a line's first demanded sector: stack, 64 KiB frame, sector (R58). -/
def footKey (l : MscLine) : Nat := (l.line * 2048 / 2 ^ 16) * 32 + l.first

/-- Entries of one stack among the predictor's. -/
def feetOf (st : Nat) (fs : List (Nat × BitVec 32)) : List (Nat × BitVec 32) := fs.filter fun f => f.1 / 32 / 2 ^ 20 == st

/-- An eviction writes the touched bitmap into the predictor, 16,384 entries per stack, the oldest written first to go (R58, log 22). -/
def Coh.leaveFoot (c : Coh) (l : MscLine) : Coh :=
  let rest := c.feet.filter fun f => f.1 != footKey l
  let full := decide (16384 ≤ (feetOf l.stack rest).length)
  let last := ((feetOf l.stack rest).getLast?).map (·.1)
  { c with feet := (footKey l, l.touched) :: (if full then rest.filter (fun f => some f.1 != last) else rest) }

def Coh.dropMsc (c : Coh) (l : MscLine) : Coh := { c with msc := c.msc.filter fun m => m.line != l.line }

/-- Allocates a line, evicting one of a full set. -/
def Coh.putMsc (c : Coh) (l : MscLine) : Coh :=
  let set := c.msc.filter fun m => m.stack == l.stack && mscSet m.line == mscSet l.line
  let c := match (if set.length < 16 then none else mscVictim set) with
    | some v => (c.dropMsc v).leaveFoot v
    | none => c
  Coh.remark { c with clock := c.clock + 1, msc := { l with use := c.clock } :: c.msc } l.line

/-- Sectors a miss fetches with those it demands: the footprint's, else the next three of the line (R58). -/
def Coh.fetched (c : Coh) (l : MscLine) (need : BitVec 32) (at_ : Nat) : BitVec 32 :=
  match c.feet.find? fun f => f.1 == footKey l with
  | some f => need ||| f.2
  | none => need ||| sectorRun at_ 4

/-- A new line of a window is pinned while fewer than 12 of its set are; a window line left out counts in `MSCPINOVF` (R61). -/
def State.mscPin (s : State) (st line : Nat) : Bool × State :=
  let pinned := s.coh.msc.filter fun l => l.stack == st && mscSet l.line == mscSet line && l.pinned
  if pinned.length < 12 then (true, s) else (false, s.count (stackBase st + 8))

/-- A request for `n` bytes of one line reaches the MSC: windows are touched, and the line is allocated where the access allocates. `pol` 2
allocates nothing (R57). -/
def State.mscTouch (s : State) (pa n pol : Nat) (write : Bool) : State :=
  if region pa ≠ 0 then s
  else
    let st := stackOf pa
    let line := pa / 2048
    let wins := s.mscWindows st pa
    let s := s.modCoh fun c => { c with touched := (wins.map (64 * st + ·)).filter (fun x => !c.touched.contains x) ++ c.touched }
    let need := mscSectors pa n
    match s.coh.msc.find? (fun l => l.line == line) with
    | some l =>
      let miss := need &&& ~~~l.valid != 0
      let got := if !miss || pol == 2 then l.valid else l.valid ||| s.coh.fetched l need (pa % 2048 / 64)
      let l' := { l with valid := got, dirty := if write then l.dirty ||| (need &&& got) else l.dirty, touched := l.touched ||| (need &&& got) }
      s.modCoh fun c => (c.dropMsc l).putMsc l'
    | none =>
      if pol = 2 then s
      else
        let r := if wins.isEmpty then (false, s) else s.mscPin st line
        let l : MscLine := { stack := st, line := line, valid := 0, dirty := if write then need else 0, poison := 0, touched := need,
                             first := pa % 2048 / 64, pinned := r.1, use := 0 }
        r.2.modCoh fun c => c.putMsc { l with valid := if wins.isEmpty then c.fetched l need l.first else BitVec.allOnes 32 }

/-- 32-byte sectors that a range touches. -/
def sectors (x n : Nat) : List Nat := if n = 0 then [] else (List.range ((x + n - 1) / 32 - x / 32 + 1)).map (· + x / 32)

/-- Memory's copy of some byte is marked: by its ECC word, or by the MSC sector that holds it (R56). -/
def Coh.memMarked (c : Coh) (x n : Nat) : Bool :=
  (c.poison.any fun p => (sectors x n).contains p) ||
    (region x == 0 && c.msc.any fun l => l.line == x / 2048 && l.poison &&& mscSectors x n != 0)

/-- Marks or clears a 32-byte sector of memory. -/
def Coh.setMark (c : Coh) (sector : Nat) (bad : Bool) : Coh :=
  let rest := c.poison.filter (· != sector)
  Coh.remark { c with poison := if bad then sector :: rest else rest } (sector / 64)

end Sys2Proof.Machine
end

