-- ==== Sys2Proof/Machine/Caches.lean ====
section
/-! DEFINITION. The caches: tags and copies (R53-R56, R67), the directory's record of them (R71-R73), write-backs, recalls and probes (R69,
R70, R74), the bytes each context sees, and the accesses of the hub's own units (log 21). -/

namespace Sys2Proof.Machine

/-! ### Tags and copies -/

/-- Context id of an access that acts on the copies of every context: the companion's, the host's, another module's and the hub's own (R55). -/
def everyCtx : Nat := 64

/-- Context of an outside agent's request: the companion's acts on every context. -/
def reqCtx (q : HomeReq) : Nat := if q.agent = 16 then everyCtx else q.ctx

/-- Sector-valid bits of a unit. -/
def sectorMask (grain u : Nat) : BitVec 16 :=
  let n := grainBytes grain / 32
  BitVec.ofNat 16 ((2 ^ n - 1) * 2 ^ (u * n))

def Tag.new (cache ctx sl grain use : Nat) : Tag :=
  { cache := cache, ctx := ctx, sline := sl, grain := grain, st := List.replicate 16 .i, valid := 0, clus := 0, use := use }

def Tag.unit (t : Tag) (u : Nat) : Moesi := t.st.getD u .i

/-- A unit in I has no valid sector; a granted one has all (R67). -/
def Tag.withUnit (t : Tag) (u : Nat) (x : Moesi) : Tag :=
  { t with st := t.st.set u x, valid := if x = .i then t.valid &&& ~~~(sectorMask t.grain u) else t.valid ||| sectorMask t.grain u }

def Tag.live (t : Tag) : Bool := t.st.any (· != .i)

/-- Agent of a cache: a cluster's L1 belongs to its die (R54, R71). -/
def cacheAgent (cache : Nat) : Nat := if cache < 32 then cache else (cache - 32) / 32

def Tag.agent (t : Tag) : Nat := cacheAgent t.cache

/-- The access's context id hits the tag's (R55). -/
def ctxHits (ctx tctx : Nat) : Bool := ctx == tctx || ctx == everyCtx || tctx == everyCtx

def Moesi.dirty (x : Moesi) : Bool := x == .m || x == .o

def Tag.dirty (t : Tag) (u : Nat) : Bool := (t.unit u).dirty

/-- Tags of a super-line. -/
def Coh.tagsOf (c : Coh) (sl : Nat) : List Tag := c.tags.filter fun t => t.sline == sl

def Coh.tag (c : Coh) (cache ctx sl : Nat) : Option Tag := c.tags.find? fun t => t.sline == sl && t.cache == cache && t.ctx == ctx

/-- State of a unit in a cache. -/
def Coh.unitAt (c : Coh) (cache ctx sl u : Nat) : Moesi := match c.tag cache ctx sl with | some t => t.unit u | none => .i

/-- Clusters of a die whose L1 holds a line. -/
def Coh.clusOf (c : Coh) (die ctx sl : Nat) : BitVec 32 :=
  (c.tagsOf sl).foldl (fun b t => if t.ctx = ctx ∧ 32 ≤ t.cache ∧ t.agent = die then b ||| BitVec.ofNat 32 (2 ^ (t.cache % 32)) else b) 0

/-- After a change to a super-line: dead tags go, the die L2s name the clusters that hold it, and copies no cache holds go. -/
def Coh.tidy (c : Coh) (sl : Nat) : Coh :=
  let c := { c with tags := c.tags.filter fun t => t.sline != sl || t.live }
  let c := { c with tags := c.tags.map fun (t : Tag) => if t.sline = sl ∧ t.cache < 8 then { t with clus := c.clusOf t.cache t.ctx sl } else t }
  { c with copies := c.copies.filter fun k => k.sline != sl || c.tags.any fun t => t.sline == sl && t.ctx == k.ctx }

/-- Changes every tag of a super-line. -/
def Coh.modTags (c : Coh) (sl : Nat) (f : Tag → Tag) : Coh :=
  Coh.tidy { c with tags := c.tags.map fun t => if t.sline = sl then f t else t } sl

/-- Sets the state of a unit in a cache, in a new tag if it has none, and marks the tag used. -/
def Coh.setUnit (c : Coh) (cache ctx sl grain u : Nat) (x : Moesi) : Coh :=
  let c := if (c.tag cache ctx sl).isSome then c else { c with tags := Tag.new cache ctx sl grain c.clock :: c.tags }
  Coh.modTags { c with clock := c.clock + 1 } sl fun t =>
    if t.cache = cache ∧ t.ctx = ctx then { t.withUnit u x with use := c.clock } else t

/-- Some cache holds the unit under the context. -/
def Coh.holds (c : Coh) (ctx sl u : Nat) : Bool := (c.tagsOf sl).any fun t => t.ctx == ctx && t.unit u != .i

/-- A context whose dirty copy of the unit an access of `ctx` meets. -/
def Coh.dirtyFor (c : Coh) (ctx sl u : Nat) : Option Nat :=
  ((c.tagsOf sl).find? fun t => ctxHits ctx t.ctx && t.dirty u).map (·.ctx)

def Coh.copy (c : Coh) (ctx sl : Nat) : Copy :=
  (c.copies.find? fun k => k.ctx == ctx && k.sline == sl).getD { ctx := ctx, sline := sl, data := List.replicate 512 emptyByte, poison := 0 }

def Coh.putCopy (c : Coh) (k : Copy) : Coh :=
  { c with copies := k :: c.copies.filter fun j => !(j.ctx == k.ctx && j.sline == k.sline) }

/-- `n` bytes of a list from `i`. -/
def sliceOf (l : List Byte) (i n : Nat) : List Byte := (l.drop i).take n

/-- The list with bytes replaced from `i` on. -/
def overlay (l : List Byte) (i : Nat) (bs : List Byte) : List Byte := l.take i ++ bs ++ l.drop (i + bs.length)

/-! ### The bytes of a unit -/

/-- Bytes of a unit and the marks of its sectors. -/
abbrev UnitData := List Byte × BitVec 16

/-- Memory's copy of a unit (R56). -/
def State.memUnit (s : State) (sl grain u : Nat) : UnitData :=
  let a := unitBase sl grain u
  let n := grainBytes grain
  (cellRead s.mem a n, (List.range (n / 32)).foldl
    (fun b i => if s.coh.memMarked (a + 32 * i) 32 then b ||| BitVec.ofNat 16 (2 ^ (u * (n / 32) + i)) else b) 0)

/-- A context's cached copy of a unit. -/
def Coh.copyUnit (c : Coh) (ctx sl grain u : Nat) : UnitData :=
  let k := c.copy ctx sl
  (sliceOf k.data (u * grainBytes grain) (grainBytes grain), k.poison &&& sectorMask grain u)

/-- What an access of a context finds: its own copy, else the dirty copy of the companion (or, for an access that acts on every context, of any),
else memory's (R55, R69). -/
def State.unitData (s : State) (ctx sl grain u : Nat) : UnitData :=
  if s.coh.holds ctx sl u then s.coh.copyUnit ctx sl grain u
  else match s.coh.dirtyFor ctx sl u with
    | some c => s.coh.copyUnit c sl grain u
    | none => s.memUnit sl grain u

/-- Puts a unit's data into the context's copy. -/
def Coh.fill (c : Coh) (ctx sl grain u : Nat) (d : UnitData) : Coh :=
  let k := c.copy ctx sl
  c.putCopy { k with data := overlay k.data (u * grainBytes grain) d.1, poison := (k.poison &&& ~~~(sectorMask grain u)) ||| d.2 }

/-! ### Writes -/

/-- A hart's reservation ends where a write of `n` bytes meets it. -/
def Hart.unreserve (x n : Nat) (h : Hart) : Hart :=
  match h.resv with
  | some (a, k) => if x < a + k ∧ a < x + n then { h with resv := none } else h
  | none => h

/-- Bytes of memory at `x` take a new value: reservations there end, and no `.sc` write is the latest there (R99). -/
def State.wrote (s : State) (x n : Nat) : State :=
  { s with
    harts := s.harts.map fun h => (h.1, h.2.unreserve x n)
    coh := { s.coh with scWrites := s.coh.scWrites.filter fun q => !(decide (x ≤ q.1 ∧ q.1 < x + n)) } }

/-- 32-byte sectors wholly covered by `n` bytes from `x`: their marks are cleared by the write (R56). -/
def coveredSectors (x n : Nat) : List Nat := (sectors x n).filter fun p => decide (x ≤ 32 * p ∧ 32 * p + 32 ≤ x + n)

/-- Writes memory's copy. -/
def State.writeRaw (s : State) (x : Nat) (bs : List Byte) : State :=
  let s := s.wrote x bs.length
  { s with
    mem := cellWrite s.mem x bs
    coh := if s.coh.poison.isEmpty then s.coh else (coveredSectors x bs.length).foldl (fun c p => c.setMark p false) s.coh }

/-- Writes a context's cached copy of bytes within one unit. -/
def State.writeCopy (s : State) (ctx x : Nat) (bs : List Byte) : State :=
  let s := s.wrote x bs.length
  let k := s.coh.copy ctx (slineOf x)
  let clear : BitVec 16 := (coveredSectors x bs.length).foldl (fun b p => b ||| BitVec.ofNat 16 (2 ^ (p % 16))) 0
  s.modCoh fun c => c.putCopy { k with data := overlay k.data (x % 512) bs, poison := k.poison &&& ~~~clear }

/-! ### The directory's record (R71-R73) -/

def State.dirEntry (s : State) (sl : Nat) : Option DirEntry := s.coh.dir.find? (fun d => d.sline == sl)

/-- Grain of the super-line of `pa`: that of its directory entry, else the request's (R68). -/
def State.grainAt (s : State) (pa grain : Nat) : Nat :=
  match s.dirEntry (slineOf pa) with
  | some d => d.grain
  | none => if grain < 3 then grain else 2

def Coh.setDir (c : Coh) (d : DirEntry) : Coh := { c with dir := d :: c.dir.filter (fun e => e.sline != d.sline) }

/-- State and owner of a unit as the agents' caches now stand: 0 I, 1 S, 2 X, 3 O. -/
def Coh.dirUnit (c : Coh) (sl u : Nat) : Nat × Nat :=
  let ts := (c.tagsOf sl).filter fun t => t.cache < 32 && t.unit u != .i
  match ts.find? (fun t => t.unit u == .m || t.unit u == .e) with
  | some t => (2, t.agent)
  | none => match ts.find? (fun t => t.unit u == .o) with
    | some t => (3, t.agent)
    | none => if ts.isEmpty then (0, 0) else (1, 0)

/-- The home sees a unit's state: a grant, a probe's answer or a write-back. -/
def State.dirSee (s : State) (sl u : Nat) : State :=
  match s.dirEntry sl with
  | none => s
  | some d => s.modCoh fun c => c.setDir { d with units := d.units.set u (c.dirUnit sl u) }

/-- Creates or updates the entry of a super-line and names an agent in its vector. -/
def State.dirGrant (s : State) (sl grain agent u : Nat) : State :=
  let d := (s.dirEntry sl).getD { sline := sl, grain := grain, pin := false, vec := 0, units := List.replicate 16 (0, 0) }
  (s.modCoh fun c => c.setDir { d with vec := d.vec ||| BitVec.ofNat 17 (2 ^ agent) }).dirSee sl u

/-- The vector no longer names an agent. -/
def State.dirClear (s : State) (sl agent : Nat) : State :=
  s.modCoh fun c => { c with dir := c.dir.map fun d => if d.sline = sl then { d with vec := d.vec &&& ~~~(BitVec.ofNat 17 (2 ^ agent)) } else d }

/-- The agent holds some unit of the super-line, under any context. -/
def State.agentHolds (s : State) (sl agent : Nat) : Bool := (s.coh.tagsOf sl).any fun t => t.agent == agent

/-! ### Write-backs and recalls -/

/-- A unit's dirty copy goes to memory with its marks, through the MSC (R56, R57). -/
def State.flushUnit (s : State) (ctx sl grain u : Nat) : State :=
  let d := s.coh.copyUnit ctx sl grain u
  let a := unitBase sl grain u
  let s := { s with mem := cellWrite s.mem a d.1 }
  let s := if d.2 = 0 && s.coh.poison.isEmpty then s
    else s.modCoh fun c => (sectors a (grainBytes grain)).foldl (fun c p => c.setMark p (d.2.getLsbD (p % 16))) c
  s.mscTouch a (grainBytes grain) 0 true

/-- An agent writes a dirty unit back: a request to the home agent. With its last dirty unit of the super-line written back the vector no longer
names it, and what it still holds clean is dropped (R73, log 22). -/
def State.writeBack (s : State) (agent ctx sl grain u : Nat) : State :=
  let s := (s.track (s.homeAgent (512 * sl)) (512 * sl) (if agent < 8 then agent else if agent = 16 then 9 else 8)).flushUnit ctx sl grain u
  let s := s.modCoh fun c => c.modTags sl fun t => if t.agent = agent ∧ t.ctx = ctx then t.withUnit u .i else t
  let last := !((s.coh.tagsOf sl).any fun t => t.agent == agent && (List.range 16).any t.dirty)
  let s := if last then (s.modCoh fun c => Coh.tidy { c with tags := c.tags.filter fun t => !(t.sline == sl && t.agent == agent) } sl).dirClear sl agent
    else s
  s.dirSee sl u

/-- `PRBSYS`: an agent's copies of a unit go, whatever their context; dirty data are written to memory, or discarded (R70, R80). The answer. -/
def State.recallUnit (s : State) (agent sl grain u : Nat) (discard : Bool) : Answer × State :=
  let ts := (s.coh.tagsOf sl).filter fun t => t.agent == agent && t.unit u != .i
  let dirty := (ts.filter fun t => t.dirty u && t.cache < 32)
  let s := if discard then s else dirty.foldl (fun s t => s.flushUnit t.ctx sl grain u) s
  let s := s.modCoh fun c => c.modTags sl fun t => if t.agent = agent then t.withUnit u .i else t
  (if ts.isEmpty then .notheld false else if dirty.isEmpty then .ack else .data, s)

/-- `PRBFALSE` register of an agent for an address (R85). -/
def prbFalseReg (agent pa : Nat) : Nat :=
  if agent < 8 then stationBase agent + 0x100 + 8 * l2Slice pa
  else if agent < 16 then 0x0B0 + 8 * (agent - 8)
  else 0x0F0

/-- The state a unit has after a probe: kind 0 `PRBS`, 1 `PRBX` (R69). -/
def Moesi.probed (st : Moesi) (kind : Nat) : Moesi :=
  if kind = 0 then match st with | .m => .o | .e => .s | x => x else .i

/-- What an agent answers and becomes: kind 0 `PRBS`, 1 `PRBX`, 2 `PRBSYS` (R69, R70, R74). -/
def State.probeAgent (s : State) (agent ctx sl u kind : Nat) : Answer × State :=
  let grain := s.grainAt (512 * sl) 2
  if kind = 2 then s.recallUnit agent sl grain u false
  else
    let ts := (s.coh.tagsOf sl).filter fun t => t.agent == agent && t.unit u != .i
    let hit := ts.filter fun t => ctxHits ctx t.ctx
    if hit.isEmpty then (.notheld (!ts.isEmpty), s.count (prbFalseReg agent (512 * sl)))
    else
      (if hit.any (·.dirty u) then .data else .ack,
        s.modCoh fun c => c.modTags sl fun t => if t.agent = agent ∧ ctxHits ctx t.ctx then t.withUnit u ((t.unit u).probed kind) else t)

/-- The directory after an answer: the vector bit clears when the agent's copies are invalidated or it holds none (R73, log 22). -/
def State.dirAnswer (s : State) (agent sl u kind : Nat) (a : Answer) : State :=
  let gone := match a with
    | .notheld other => !other
    | .retry => false
    | _ => kind != 0
  let s := if gone && !s.agentHolds sl agent then s.dirClear sl agent else s
  s.dirSee sl u

/-- Probes every named agent but one. -/
def State.probeAll (s : State) (except_ : Option Nat) (ctx sl u kind : Nat) : State :=
  match s.dirEntry sl with
  | none => s
  | some d =>
    (List.range 17).foldl (fun s a =>
      if d.vec.getLsbD a && except_ != some a then
        let r := s.probeAgent a ctx sl u kind
        r.2.dirAnswer a sl u kind r.1
      else s) s

/-- Recalls a whole super-line from every agent; whether some unit was recalled (R72, R80). -/
def State.recallLine (s : State) (sl : Nat) (discard : Bool) : Bool × State :=
  match s.dirEntry sl with
  | none => (false, s)
  | some d =>
    (List.range 17).foldl (fun r a =>
      if d.vec.getLsbD a then
        let r' := (List.range (512 / grainBytes d.grain)).foldl (fun (q : Bool × State) u =>
          let p := q.2.recallUnit a sl d.grain u discard
          (q.1 || (match p.1 with | .data | .ack => true | _ => false), p.2.dirAnswer a sl u 2 p.1)) r
        r'
      else r) (false, s)

/-- Every dirty copy of a unit goes to memory and every copy is invalidated, as a write at the home does (R66). -/
def State.clearUnit (s : State) (ctx sl grain u : Nat) : State :=
  let ds := ((s.coh.tagsOf sl).filter fun t => ctxHits ctx t.ctx && t.dirty u && t.cache < 32).map (·.ctx)
  (ds.foldl (fun s c => s.flushUnit c sl grain u) s).probeAll none ctx sl u 1

/-! ### Accesses of the hub's own units -/

/-- No cache holds a line and no frame has moved: memory's copy is what every agent sees. -/
def State.plain (s : State) : Bool := s.coh.tags.isEmpty && s.coh.migs.isEmpty && s.coh.redirects.isEmpty

/-- Bytes up to the end of their 32-byte sector. -/
def sectorLeft (x n : Nat) : Nat := min n (32 - x % 32)

/-- What the hub reads, sector by sector: the dirty copy of any context, else memory's (log 21). -/
def State.seen (s : State) : Nat → Nat → Nat → List Byte
  | 0, _, _ => []
  | f + 1, x, n =>
    if n = 0 then []
    else
      let k := sectorLeft x n
      let a := s.placed x
      let g := s.grainAt a 0
      let d := s.unitData everyCtx (slineOf a) g (unitIn a g)
      sliceOf d.1 (a % grainBytes g) k ++ s.seen f (x + k) (n - k)

/-- `n` bytes of memory as the units of the hub see them; an absent address reads free values (R11, R28, log 45). -/
def State.readMem (s : State) (x n : Nat) : List Byte :=
  if !rangeOk x n then (List.range n).map (fun i => Config.absentByte s.free (x + i))
  else if s.plain then cellRead s.mem x n else s.seen (n + 1) x n

def State.wordAt (s : State) (x : Nat) : Word := BitVec.ofNat 64 (bytesNat (s.readMem x 8))

def State.wordsAt (s : State) (x n : Nat) : List Word := bytesWords n (s.readMem x (8 * n))

/-- Some byte would deliver poisoned data to a unit of the hub. -/
def State.poisoned (s : State) (x n : Nat) : Bool :=
  (sectors x n).any fun p =>
    let a := s.placed (32 * p)
    let g := s.grainAt a 0
    (s.unitData everyCtx (slineOf a) g (unitIn a g)).2.getLsbD (a / 32 % 16)

/-- Writes sector by sector: copies of every context go, then memory's copy is written (R66). -/
def State.hubWrite (s : State) : Nat → Nat → List Byte → State
  | 0, _, _ => s
  | f + 1, x, bs =>
    if bs.isEmpty then s
    else
      let k := sectorLeft x bs.length
      let a := s.placed x
      let g := s.grainAt a 0
      let s := s.clearUnit everyCtx (slineOf a) g (unitIn a g)
      (s.writeRaw a (bs.take k)).hubWrite f (x + k) (bs.drop k)

/-- Write requests of a unit of the hub for `n` bytes reach the home agents and the MSC, one for each 2 KiB line (R62, R77). -/
def State.hubTouch (s : State) : Nat → Nat → Nat → State
  | 0, _, _ => s
  | f + 1, x, n =>
    if n = 0 then s
    else
      let k := min n (2048 - x % 2048)
      ((s.track (s.homeAgent x) x 8).mscTouch x k 2 true).hubTouch f (x + k) (n - k)

/-- The hub writes bytes of memory. A write to an absent address goes nowhere (log 45). -/
def State.writeMem (s : State) (x : Nat) (bs : List Byte) : State :=
  if !rangeOk x bs.length then s else
  let s := s.hubTouch (bs.length / 2048 + 2) x bs.length
  if s.plain then s.writeRaw x bs else s.hubWrite (bs.length + 1) x bs

def State.writeWordAt (s : State) (x : Nat) (w : Word) : State := s.writeMem x (wordBytes w)

/-- An uncorrectable error in memory marks the sector; every copy of it is marked with it (R56). -/
def State.markPoison (s : State) (x : Nat) : State :=
  s.modCoh fun c => Coh.setMark
    { c with copies := c.copies.map fun k => if k.sline = slineOf x then { k with poison := k.poison ||| BitVec.ofNat 16 (2 ^ (x / 32 % 16)) } else k }
    (x / 32) true

/-- Memory as the latest writes leave it, cached or moved: what a placement fixes for code and handles (R21, R117). -/
def State.coherentMem (s : State) : List Host.Cell :=
  if s.plain then s.mem
  else
    let m := s.coh.tags.foldl (fun m t =>
      if t.cache < 32 then
        ((List.range 16).filter t.dirty).foldl (fun m u => cellWrite m (unitBase t.sline t.grain u) (s.coh.copyUnit t.ctx t.sline t.grain u).1) m
      else m) s.mem
    let m := s.coh.migs.foldl (fun m g => g.copied.foldl (fun m i => copyCells m (g.new + 2048 * i) 2048 m (g.old + 2048 * i)) m) m
    s.coh.redirects.foldl (fun m r => copyCells m r.2.1 (2 ^ r.2.2) m r.1) m

end Sys2Proof.Machine
end

