-- ==== Sys2Proof/Machine/Handles.lean ====
section
/-! DEFINITION. Handle entries, the translation array, and the checks every access passes (R15-R36), with watchpoints (R446). -/

namespace Sys2Proof.Machine

/-! ### Handle entries (R16-R20) -/

/-- A valid handle entry. -/
structure Handle where
  vbase : Nat
  len : Nat
  space : Nat
  pol : Nat
  /-- R W X A P N in bits 0-5. -/
  perm : BitVec 6
  win : Nat
  deriving DecidableEq, Repr

/-- The handle of four entry words; none if it is null (R19). -/
def handleOfWords (w0 w1 w2 w3 : Word) : Option Handle :=
  let h : Handle :=
    { vbase := bitsAt w0 0 56, len := bitsAt w1 0 48, space := bitsAt w1 52 4, pol := bitsAt w1 48 4,
      perm := BitVec.ofNat 6 (bitsAt w2 32 6), win := bitsAt w2 0 32 }
  let reservedOk := bitsAt w0 56 8 == 0 && bitsAt w1 56 7 == 0 && bitsAt w2 38 26 == 0 && w3 == 0
  let sizeOk := decide (h.vbase + h.len ≤ 2 ^ 56)
  let spaceOk :=
    if h.space = 1 then decide (h.vbase + h.len ≤ 2 ^ 21) && h.win == 0
    else if h.space = 2 then h.vbase == 0 && h.win % 16 == 0 && decide (h.win / 2 ^ 8 % 2 ^ 11 * 1024 + h.len ≤ 2 ^ 21)
    else h.win == 0
  if bitAt w1 63 && reservedOk && decide (h.space ≤ 4) && decide (h.pol ≤ 3) && sizeOk && spaceOk then some h else none

/-- `n` bytes of memory as it stood at the placement; an absent address reads free values (log 45). -/
def View.read (v : View) (x n : Nat) : List Byte :=
  if rangeOk x n then cellRead v.snap x n else (List.range n).map fun i => Config.absentByte v.draw (x + i)

def View.word (v : View) (x : Nat) : Word := BitVec.ofNat 64 (bytesNat (v.read x 8))

/-- The handle an address names, as the agent's snapshot holds it (R21). -/
def View.handle (v : View) (a : Word) : Option Handle :=
  let i := bitsAt a 52 12
  if i = 0 ∨ v.htn ≤ i then none
  else
    let b := v.htb + 32 * i
    handleOfWords (v.word b) (v.word (b + 8)) (v.word (b + 16)) (v.word (b + 24))

/-- Handle table address and entry count of a context; a table outside regions 0x0 and 0x1 holds no entry (R16). -/
def State.tableOf (s : State) (c : Nat) : Nat × Nat :=
  let b := s.rfld (ctxBase c) 17 35 * 2 ^ 17
  (b, if region b ≤ 1 then min 4096 (s.rfld (ctxBase c + 8) 0 13) else 0)

/-! ### Kinds of access (R23, R24) -/

inductive Kind where
  | load | store
  /-- `LDD` and `STD`, which may name device registers (R401). -/
  | loadD | storeD
  | amo | fetch | npub | nreq | engRead | engWrite
  deriving DecidableEq, Repr

def Kind.spaces : Kind → List Nat
  | .load | .loadD | .nreq | .amo | .engRead => [0, 1, 3]
  | .store | .storeD | .engWrite => [0, 1, 2, 3]
  | .fetch => [0]
  | .npub => [0, 1]

/-- Rights needed in the handle and in the page: R 1, W 2, X 4, A 8. -/
def Kind.rights : Kind → BitVec 6
  | .load | .loadD | .engRead | .npub => 1
  | .store | .storeD | .engWrite | .nreq => 2
  | .amo => 11
  | .fetch => 4

/-- Rights needed in the handle (R24): P 16 and N 32 are handle only. -/
def Kind.handleRights (k : Kind) (space : Nat) : BitVec 6 :=
  k.rights ||| (if k = .npub then 16 else 0) ||| (if space = 2 ∨ space = 4 then 32 else 0)

/-- The access reads D pages as zeros (R32). -/
def Kind.readsZeros : Kind → Bool
  | .load | .loadD | .npub | .engRead => true
  | _ => false

/-! ### Translation (R28-R32) -/

/-- The fields of a present entry obey R30. -/
def lttEntryOk (w0 w1 : Word) : Bool :=
  let size := bitsAt w0 56 5
  let reg := bitsAt w1 48 4
  bitsAt w0 61 3 == 0 && bitsAt w0 1 15 == 0 && bitsAt w1 52 4 == 0 && bitsAt w1 0 16 == 0 && bitsAt w1 60 2 != 3 &&
    decide (16 ≤ size ∧ size ≤ 30) && bitsAt w0 0 56 / 2 ^ 16 * 2 ^ 16 % 2 ^ size == 0 &&
    bitsAt w1 0 52 % 2 ^ size == 0 && (decide (reg ≤ 4) || reg == 8)

/-- Virtual base and end of an entry. -/
def lttRange (w0 : Word) : Nat × Nat :=
  let b := bitsAt w0 16 40 * 2 ^ 16
  (b, b + 2 ^ bitsAt w0 56 5)

/-- The index of the first entry that breaks R30, entries taken in order and compared with those before (log 20). -/
def lttBad : Nat → List (Word × Word) → List (Word × Word) → Option Nat
  | _, _, [] => none
  | i, seen, (w0, w1) :: es =>
    if bitAt w0 0 then
      if lttEntryOk w0 w1 &&
          seen.all (fun e => decide ((lttRange e.1).2 ≤ (lttRange w0).1 ∨ (lttRange w0).2 ≤ (lttRange e.1).1)) then
        lttBad (i + 1) ((w0, w1) :: seen) es
      else some i
    else lttBad (i + 1) seen es

/-- Pairs of words. -/
def pairs : List Word → List (Word × Word)
  | a :: b :: l => (a, b) :: pairs l
  | _ => []

/-- The image of `n` entries at a physical address, as the latest writes leave memory. -/
def State.readImage (s : State) (base n : Nat) : List (Word × Word) := pairs (s.wordsAt base (2 * n))

/-- Loads and validates an image (R30, R31): the array, or the index of the failing entry. -/
def State.loadImage (s : State) (base n : Nat) : Except Nat (List (Word × Word)) :=
  let es := s.readImage base n
  match lttBad 0 [] es with
  | some i => .error i
  | none => .ok es

/-- The present entry that maps a virtual address. -/
def View.page (v : View) (va : Nat) : Option (Word × Word) :=
  v.ltt.find? fun e => bitAt e.1 0 && decide ((lttRange e.1).1 ≤ va ∧ va < (lttRange e.1).2)

/-- Why a byte is refused: the reason of R35, with its distance from the first byte. -/
abbrev Deny := Nat × Nat

/-- The page of a virtual address suits an access (checks 4, and 5 where `strict`); reasons of R35. -/
def State.pageFor (s : State) (v : View) (k : Kind) (space va n : Nat) (strict : Bool) : Except Nat (Word × Word) :=
  match v.page va with
  | none => .error 4
  | some e =>
    let pa := bitsAt e.2 0 52 + (va - (lttRange e.1).1)
    let reg := region pa
    let regOk :=
      if space = 3 then reg == 3
      else reg ≤ 2 || reg == 4 ||
        (reg == 8 && v.sup && (if strict then k == .load || k == .store || k == .loadD || k == .storeD
                               else (k == .loadD || k == .storeD) && n == 8 && pa % 8 == 0))
    if BitVec.ofNat 6 (bitsAt e.2 56 4 % 2 + bitsAt e.2 57 1 * 2 + bitsAt e.2 58 1 * 4 + bitsAt e.2 59 1 * 8) &&& k.rights ≠ k.rights
    then .error 5
    else if !regOk then .error 6
    else if reg == 2 && (s.cxlSeg pa).isNone then .error 8
    else if strict && bitsAt e.2 62 2 == 1 && k.rights &&& 2 != 0 then .error 7
    else .ok e

/-- The bytes of a page from `va` on that belong to an access of `n` bytes; a CXL decoder covers 256 MiB (R460). -/
def pageRun (e : Word × Word) (va n : Nat) : Nat := min n (min ((lttRange e.1).2 - va) (2 ^ 28 - va % 2 ^ 28))

def placeOf (pa : Nat) : Place :=
  match region pa with
  | 4 => .peer
  | 8 => .dev
  | _ => if physOk pa then .mem else .absent

/-- Translates `n` bytes from `va`, page by page. -/
def State.walk (s : State) (v : View) (k : Kind) (space pol : Nat) (strict : Bool) :
    Nat → Nat → Nat → Nat → Except Deny (List Span)
  | 0, _, _, _ => .ok []
  | f + 1, va, off, n =>
    if n = 0 then .ok []
    else match s.pageFor v k space va n strict with
      | .error r => .error (r, off)
      | .ok e =>
        let len := pageRun e va n
        let pa := bitsAt e.2 0 52 + (va - (lttRange e.1).1)
        let place := if bitsAt e.2 62 2 == 1 then Place.zeros else placeOf pa
        match s.walk v k space pol strict f (va + len) (off + len) (n - len) with
          | .error d => .error d
          | .ok ss => .ok ({ place := place, addr := pa % 2 ^ 52, len := len, grain := bitsAt e.2 60 2, pol := pol } :: ss)

/-- The first byte of a cluster-store range that lies in the L1 part of its slice (R27). -/
def State.l1Clash (s : State) (clu c n : Nat) : Option Nat :=
  let part := s.l1Part clu
  let o := c % 2 ^ 18
  if part = 0 ∨ n = 0 then none
  else if 2 ^ 18 - part ≤ o then some 0
  else if 2 ^ 18 - part < o + n then some (2 ^ 18 - part - o)
  else none

/-- Byte address in the model's store memory. -/
def storeAddr (clu c : Nat) : Nat := 2 ^ 21 * clu + c

/-- First byte of an access that fails check 2: the address bits 51:48, the length, and the L1 part of a cluster store (R22, R27). -/
def State.boundFail (s : State) (h : Handle) (clu : Nat) (a : Word) (n : Nat) : Option Nat :=
  let off := bitsAt a 0 48
  if bitsAt a 48 4 ≠ 0 then some 0
  else
    let part := if h.space = 1 then s.l1Clash clu (h.vbase + off) n else none
    let len := if h.len < off + n then some (h.len - off) else none
    match part, len with
    | some p, some q => some (min p q)
    | some p, none => some p
    | none, q => q

/-- Checks 3-5 of R22 on `n` bytes that pass check 2. -/
def State.inside (s : State) (v : View) (h : Handle) (clu : Nat) (k : Kind) (strict : Bool) (off n : Nat) : Except Deny (List Span) :=
  if !(k.spaces.contains h.space) then .error (3, 0)
  else if h.perm &&& k.handleRights h.space ≠ k.handleRights h.space then .error (3, 0)
  else if h.space = 1 then .ok [{ place := .store, addr := storeAddr clu (h.vbase + off), len := n, grain := 0, pol := 0 }]
  else if h.space = 2 then
    .ok [{ place := .window,
           addr := 2 ^ 29 * (h.win / 2 ^ 27 % 32) + 2 ^ 21 * (h.win / 2 ^ 19 % 256) + h.win / 2 ^ 8 % 2 ^ 11 * 1024 + off,
           len := n, grain := 0, pol := h.win / 16 % 16 }]
  else s.walk v k h.space h.pol strict (n / 2 ^ 16 + 2) (h.vbase + off) 0 n

/-- Checks 1-5 of R22 on `n` bytes at a handle address by an agent of cluster `clu`. `strict` takes the checks byte by byte in ascending
order, as a probe does (R35); otherwise each check is made on every byte before the next. -/
def State.checks (s : State) (v : View) (clu : Nat) (k : Kind) (strict : Bool) (a : Word) (n : Nat) : Except Deny (List Span) :=
  match v.handle a with
  | none => .error (1, 0)
  | some h =>
    match s.boundFail h clu a n with
    | some d =>
      -- the bytes before the first out of bounds, where they are checked first
      if strict && d != 0 then match s.inside v h clu k strict (bitsAt a 0 48) d with
        | .error e => .error e
        | .ok _ => .error (2, d)
      else .error (2, d)
    | none =>
      match s.inside v h clu k strict (bitsAt a 0 48) n with
      | .error e => .error e
      | .ok ss => if !strict && !k.readsZeros && ss.any (fun p => p.place == .zeros) then .error (7, 0) else .ok ss

/-- The fatal error of a refused access (R22, R32). -/
def denyStop (k : Kind) (a : Word) (d : Deny) : Stop :=
  match d.1 with
  | 1 => .fatal 0x83 a
  | 2 => .fatal 0x81 a
  | 3 => .fatal 0x82 a
  | 7 => .fatal (if k = .fetch then 0x80 else 0x85) a
  | _ => .fatal 0x80 a

/-! ### Watchpoints (R446) -/

/-- The debug module of the core's cluster acts on its context. -/
def State.debugged (s : State) (c : Core) : Bool :=
  let r := s.reg (debugBase c.cluster)
  bitAt r 55 && bitsAt r 56 6 == c.view.ctx && c.task.isSome

/-- `KIND` bit of an access. -/
def Kind.watchBit : Kind → Option Nat
  | .load | .loadD => some 62
  | .store | .storeD => some 61
  | .amo => some 60
  | .fetch => some 59
  | _ => none

/-- The first watchpoint the access meets. -/
def State.watchHit (s : State) (k : Kind) (a : Word) (n : Nat) : Option Nat :=
  match k.watchBit with
  | none => none
  | some b =>
    if s.core.watchSkip.contains (s.cur, s.me.pc) || !s.debugged s.core then none
    else (List.range 4).find? fun i =>
      let w0 := s.reg (debugBase s.core.cluster + 0x40 + 16 * i)
      let w1 := s.reg (debugBase s.core.cluster + 0x48 + 16 * i)
      bitAt w1 63 && bitAt w1 b && bitAt w1 (51 + s.core.idx % 8) && bitsAt w0 52 12 == bitsAt a 52 12 &&
        decide (bitsAt a 0 48 < bitsAt w0 0 48 + bitsAt w1 0 32 ∧ bitsAt w0 0 48 < bitsAt a 0 48 + n)

/-! ### Accesses of strands -/

/-- Checks an access of the current core: R22, then the watchpoints. -/
def State.access (s : State) (k : Kind) (a : Word) (n : Nat) : Except Stop (List Span) :=
  match s.checks s.core.view s.core.cluster k false a n with
  | .error d => .error (denyStop k a d)
  | .ok ss =>
    match s.watchHit k a n with
    | some i => .error (.watch i a)
    | none => .ok ss

/-- Checks every element of a strided access before any is performed (R22). -/
def State.accessAll (s : State) (k : Kind) (n : Nat) : List Word → Except Stop (List Span)
  | [] => .ok []
  | a :: as =>
    match s.access k a n with
    | .error e => .error e
    | .ok ss =>
      match s.accessAll k n as with
      | .error e => .error e
      | .ok ss' => .ok (ss ++ ss')

/-- `DISCRD` of the context counts an access that returned zeros from a D page (R33). -/
def State.countZerosOf (s : State) (ctx : Nat) (ss : List Span) : State :=
  if ss.any (fun p => p.place == .zeros) then s.count64 (ctxBase ctx + 0x30) else s

def State.countZeros (s : State) (ss : List Span) : State := s.countZerosOf s.ctx ss

/-- The code word that an access covers, as memory held it at the placement (R117); code in another module or at an absent address reads a free
value that stays the same for the placement (log 45). -/
def State.wordIn (s : State) (a : Word) : List Span → Except Stop IWord
  | [p] => .ok (BitVec.ofNat 32 (bytesNat (s.core.view.read p.addr 4)))
  | _ => .error (.fatal 0x80 a)

/-- The word of a stream at a handle address. -/
def State.fetchWord (s : State) (a : Word) : Except Stop IWord :=
  match s.access .fetch a 4 with
  | .error e => .error e
  | .ok ss => s.wordIn a ss

/-- The same word looked at with no watchpoint met (R293). -/
def State.codeWord (s : State) (a : Word) : Except Stop IWord :=
  match s.checks s.core.view s.core.cluster .fetch false a 4 with
  | .error d => .error (denyStop .fetch a d)
  | .ok ss => s.wordIn a ss

end Sys2Proof.Machine
end

