-- ==== Sys2Proof/Machine/Events.lean ====
section
/-! DEFINITION. Event rings, RAS records, host interrupts, trace records, and events of pending sets. -/

namespace Sys2Proof.Machine

/-! ### Host interrupts (R458) -/

/-- Interrupt source `n`: a posted 32-bit vector to the doorbell. -/
def State.interrupt (s : State) (n : Nat) : State :=
  let r := s.reg 0x840
  if bitAt r 0 then
    let a := 3 * 2 ^ 48 + bitsAt r 2 46 * 4
    let v := bitsAt r 52 12 + n
    (s.writeMem a (natBytes 4 v)).emit 0 [BitVec.ofNat 64 a, BitVec.ofNat 64 v]
  else s

/-! ### Event rings (R84, R447, R456, R466) -/

/-- A ring: address of its base register (the pointer register follows), log2 of the entries at size 0, record bytes. -/
structure RingDesc where
  base : Nat
  log0 : Nat
  bytes : Nat
  /-- Sizes above this act as it. -/
  maxSize : Nat
  deriving DecidableEq, Repr

def RingDesc.entries (r : RingDesc) (s : State) : Nat := 2 ^ (min r.maxSize (s.rfld r.base 0 4) + r.log0)

def RingDesc.full (r : RingDesc) (s : State) : Bool :=
  (s.rfld (r.base + 8) 32 32 + 2 ^ 32 - s.rfld (r.base + 8) 0 32) % 2 ^ 32 == r.entries s

/-- Writes a record at `TAIL` and advances it. -/
def RingDesc.put (r : RingDesc) (s : State) (ws : List Word) : State :=
  let tail := s.rfld (r.base + 8) 32 32
  let a := s.rfld r.base 12 40 * 4096 + r.bytes * (tail % r.entries s)
  (s.writeMem a (wordsBytes ws)).setFld (r.base + 8) 32 32 ((tail + 1) % 2 ^ 32)

def migRing : RingDesc := { base := 0x058, log0 := 6, bytes := 16, maxSize := 9 }
def rasRing : RingDesc := { base := 0x810, log0 := 6, bytes := 32, maxSize := 9 }
def traceRing (g : Nat) : RingDesc := { base := debugBase g + 0x010, log0 := 7, bytes := 32, maxSize := 15 }
def imbRing (c : Nat) : RingDesc := { base := ctxBase c + 0x060, log0 := 6, bytes := 64, maxSize := 15 }

/-- Writes a RAS record: Quartz at detection, type, word 0 bits 50:0, words 2 and 3 (R466). -/
def State.rasAt (s : State) (qtz : Word) (type low : Nat) (w2 w3 : Word) : State :=
  let w0 := mkWord [(type % 256, 56), (s.modid, 51), (low % 2 ^ 51, 0)]
  let s := if rasRing.full s then s.count 0x820 else rasRing.put s [w0, qtz, w2, w3]
  s.interrupt 0

/-- A record of what is detected now. -/
def State.ras0 (s : State) (type low : Nat) (w2 w3 : Word) : State := s.rasAt s.quartz type low w2 w3

/-! ### Trace records (R447, R448) -/

/-- Writes a trace record of a core's cluster debug module; `flag` is the enable bit of `DBGCTL` the type needs. -/
def State.trace (s : State) (c : Core) (type σ a : Nat) (w2 w3 : Word) : State :=
  let g := c.cluster
  let need := if type = 6 then 53 else if type = 8 then 52 else 54
  if s.debugged c && bitAt (s.reg (debugBase g)) need then
    let w0 := mkWord [(type, 56), (g, 48), (c.idx % 8, 45), (σ, 43), (c.view.ctx, 37), (a % 2 ^ 37, 0)]
    if (traceRing g).full s then s.count (debugBase g + 0x028) else (traceRing g).put s [w0, s.quartz, w2, w3]
  else s

/-! ### Pending sets (R302) -/

/-- Latches an event bit in the pending set of a core's K strand; a sleeping core wakes (R464). -/
def Core.latch (c : Core) (bit : Nat) : Core :=
  { c with k := { c.k with pend := c.k.pend ||| BitVec.ofNat 64 (2 ^ bit) }, asleep := 0, waited := 0 }

/-- Pager cores of the module (R37). -/
def State.pagerCores (s : State) : List Nat :=
  (List.range 256).flatMap fun g =>
    if s.pagerMask g = 0 then [] else ((List.range 8).filter (fun k => (s.pagerMask g).testBit k)).map (8 * g + ·)

/-- Pager cores that hold a pager task (R487). -/
def State.pagerHolders (s : State) : List Core := s.allCores.filter fun c => (c.task.map (·.pager)).getD false

/-- A migration record was written (R84): an event on the pager cores, or an interrupt in host-assisted mode. -/
def State.migEvent (s : State) (host : Bool) : State :=
  if host then s.interrupt 1
  else s.pagerHolders.foldl (fun s c => s.modCore c.idx (·.latch 1)) s

/-- The core is a pager core now: `PAGERCFG` names it and no user task is left on it (R37). -/
def State.pagerNow (s : State) (k : Nat) : Bool :=
  s.isPagerCore k && match (s.coreAt k).task with | some t => t.pager | none => true

/-- An event for the supervisor core (R38). -/
def State.superEvent (s : State) : State :=
  let k := s.rfld 0x0F8 0 11
  if s.pagerNow k then s.modCore k (·.latch 2) else s.setFld 0x0F8 63 1 1

/-- Delivers a held supervisor event once the named core is a pager core. -/
def State.superDeliver (s : State) : State :=
  let k := s.rfld 0x0F8 0 11
  if bitAt (s.reg 0x0F8) 63 && s.pagerNow k then (s.setFld 0x0F8 63 1 0).modCore k (·.latch 2) else s

end Sys2Proof.Machine
end

