-- ==== Sys2Proof/Machine/Coherence.lean ====
section
/-! DEFINITION. The coherent memory system as a request sees it: allocation and eviction (R52-R54), pins (R75, R101-R105), the queues of home agents
(R65, R80, R81), and reads and writes of strands, engines, harts and outside agents unit by unit (R66-R69). -/

namespace Sys2Proof.Machine

/-! ### Requesters -/

/-- Who asks for a grain unit. -/
structure Who where
  /-- Caching agent 0-16 (R71), 17 for the hub, 18 for another module: neither caches. -/
  agent : Nat
  /-- Cluster and core of a strand or engine; none for a Ferle hart, the companion or the hub. -/
  clu : Option Nat
  core : Option Nat
  /-- Context id, or `everyCtx`. -/
  ctx : Nat
  /-- Die as trackers count it (R77). -/
  die : Nat
  /-- Who waits where it must; none for an access that is dropped instead. -/
  asker : Option Asker
  deriving DecidableEq, Repr

def Core.who (c : Core) : Who :=
  { agent := c.die, clu := some c.cluster, core := some c.idx, ctx := c.view.ctx, die := c.die, asker := none }

def Who.as (w : Who) (a : Asker) : Who := { w with asker := some a }

/-! ### Allocation (R52, R53) -/

/-- Caching levels an access allocates: L1, L2. -/
def State.allocs (s : State) (w : Who) (pa pol : Nat) : Bool × Bool :=
  let l1 := match w.clu with | some g => s.l1Part g != 0 | none => false
  let shared := region pa == 2 && match s.cxlSeg pa with | some n => bitAt (s.reg (0x900 + 8 * n)) 62 | none => true
  if 17 ≤ w.agent then (false, false)
  else match region pa with
  | 0 => if pol = 0 then (l1, true) else if pol = 1 then (false, true) else (false, false)
  | 1 | 2 | 3 => if shared then (false, false) else if pol = 1 then (false, true) else if pol = 2 then (false, false) else (l1, true)
  | _ => (false, false)

/-! ### Pins (R75, R101-R105) -/

/-- The requester lies inside a pin's scope. -/
def Pin.admits (p : Pin) (w : Who) : Bool :=
  match p.scope with
  | 0 => w.core == some p.core
  | 1 => w.clu == some p.clu
  | 2 => match w.clu with | some g => g / 32 == p.clu / 32 | none => false
  | _ => w.agent != 16 && w.agent != 18

/-- Some pin refuses the requester. -/
def State.pinRefuses (s : State) (w : Who) (sl u : Nat) : Bool :=
  s.coh.pins.any fun p => p.sline == sl && p.unit == u && ctxHits w.ctx p.ctx && !p.admits w

/-- A recall by the home itself lies in no scope below `.pkg` (R75). -/
def State.pinRefusesHome (s : State) (sl u : Nat) : Bool :=
  s.coh.pins.any fun p => p.sline == sl && p.unit == u && decide (p.scope < 3)

/-- The `PIN` bits of directory entries follow the pins. -/
def Coh.syncPins (c : Coh) : Coh := { c with dir := c.dir.map fun d => { d with pin := c.pins.any (fun p => p.sline == d.sline) } }

/-- A release at scope `sc` by a core widens its pins, and ends them at `.grp` or `.sys` (R102). -/
def State.widenPins (s : State) (core sc : Nat) : State :=
  s.modCoh fun c => Coh.syncPins
    { c with pins :=
        if 4 ≤ sc then c.pins.filter (fun p => p.core != core)
        else c.pins.map (fun p => if p.core = core ∧ p.scope < sc then { p with scope := sc } else p) }

def State.endPins (s : State) (core : Nat) : State := s.widenPins core 5

def State.endPinsOf (s : State) (ctx : Nat) : State :=
  s.modCoh fun c => Coh.syncPins { c with pins := c.pins.filter (fun p => p.ctx != ctx) }

/-- A pin holds a unit of the line in the cache: its cluster's L1 and die L2 never evict it (R75). -/
def Coh.tagPinned (c : Coh) (t : Tag) : Bool :=
  c.pins.any fun p => p.sline == t.sline && p.ctx == t.ctx && (if 32 ≤ t.cache then p.clu + 32 == t.cache else p.clu / 32 == t.cache)

/-! ### Evictions (R53, R54, R69) -/

/-- The least recently used of some tags that no pin holds (log 22). -/
def Coh.victim (c : Coh) : List Tag → Option Tag
  | [] => none
  | t :: ts => if c.tagPinned t then c.victim ts else match c.victim ts with
    | none => some t
    | some v => if t.use ≤ v.use then some t else some v

/-- Set of a line in an L1 of `sets` sets per slice: slice p[11:9], index from p[12] (R53). -/
def l1Set (sets sl : Nat) : Nat × Nat := (sl % 8, sl / 8 % sets)

/-- Set of a line in its L2: the slice of R54 with 512 sets for a die; 256 sets of 16 ways for a Ferle cluster (log 22). -/
def l2Set (agent sl : Nat) : Nat × Nat := if agent < 8 then (l2Slice (512 * sl), sl / 16 % 512) else (0, sl % 256)

def l2Ways (agent : Nat) : Nat := if agent < 8 then 12 else 16

/-- Room for a line in a cluster's L1: a full set loses its victim, silently or into the die L2, which holds the same bytes (R53). None where
pins hold the whole set: the line is then not allocated (log 22). -/
def Coh.l1Room (c : Coh) (g part ctx sl : Nat) : Option Coh :=
  if (c.tag (32 + g) ctx sl).isSome then some c
  else
    let sets := part / 4096
    let set := c.tags.filter fun t => t.cache == 32 + g && l1Set sets t.sline == l1Set sets sl
    if set.length < 8 then some c
    else match c.victim set with
      | none => none
      | some v => some (Coh.tidy { c with tags := c.tags.filter fun t => !(t.cache == v.cache && t.ctx == v.ctx && t.sline == v.sline) } v.sline)

/-- A line leaves an agent: the L1s of the die lose it, dirty units are written back, clean ones go silently (R54, R69). -/
def State.evictLine (s : State) (agent ctx sl grain : Nat) : State :=
  let dirty := (List.range (512 / grainBytes grain)).filter fun u =>
    (s.coh.tagsOf sl).any fun t => t.agent == agent && t.ctx == ctx && t.dirty u
  let s := dirty.foldl (fun s u => s.writeBack agent ctx sl grain u) s
  s.modCoh fun c => Coh.tidy { c with tags := c.tags.filter fun t => !(t.sline == sl && t.agent == agent && t.ctx == ctx) } sl

/-- Room for a line in an agent's L2; none where pins hold the whole set. The companion's caches are not the module's. -/
def State.l2Room (s : State) (agent ctx sl : Nat) : Option State :=
  if 16 ≤ agent || (s.coh.tag agent ctx sl).isSome then some s
  else
    let set := s.coh.tags.filter fun t => t.cache == agent && l2Set agent t.sline == l2Set agent sl
    if set.length < l2Ways agent then some s
    else match s.coh.victim set with
      | none => none
      | some v => some (s.evictLine agent v.ctx v.sline v.grain)

/-! ### Room in the directory (R72) -/

/-- Directory-cache set of a super-line: its slice or the hub, and its index (log 22). -/
def dirSet (sl : Nat) : Nat × Nat :=
  let pa := 512 * sl
  if region pa = 0 then (16 * stackOf pa + l2Slice pa, sl % 1024) else (128, sl % 16384)

/-- Recalls and drops an entry, counting in `DIRBINV` of its home agent where a unit was recalled (R72, R85). -/
def State.dirEvict (s : State) (d : DirEntry) : State :=
  let r := s.recallLine d.sline false
  let s := r.2.modCoh fun c => { c with dir := c.dir.filter (fun e => e.sline != d.sline) }
  if r.1 then s.count (agentBase (s.homeAgent (512 * d.sline))) else s

/-- Makes room for an entry; none if every entry of the set is pinned. -/
def State.dirRoom (s : State) (sl : Nat) : Option State :=
  if (s.dirEntry sl).isSome then some s
  else
    let set := s.coh.dir.filter fun d => dirSet d.sline == dirSet sl
    if set.length < 16 then some s
    else match set.reverse.find? (fun d => !d.pin) with
      | some d => some (s.dirEvict d)
      | none => none

/-! ### Queues of the home agents (R65, R75, R80, R81) -/

/-- The memory channel of an address retrains: its home agent holds requests (R467). -/
def State.channelHeld (s : State) (pa : Nat) : Bool := s.ras.retrain.contains (s.homeAgent pa)

/-- The queued request is still wanted: its operation or command has not gone with its task, job or context (R83). -/
def State.wanted (s : State) (q : Wait) : Bool :=
  match q.asker with
  | .op k uid => (s.coreAt k).ops.any fun o => o.uid == uid
  | .job n => s.jobs.any fun j => j.seq == n && j.ended.isNone
  | .hart _ | .req _ => true

/-- A request for the same 2 KiB line arrived before and is not yet performed (R65). -/
def State.queuedBefore (s : State) (w : Who) (pa : Nat) : Bool :=
  match s.coh.queue.find? (fun q => q.pa / 2048 == pa / 2048 && s.wanted q) with
  | some q => w.asker != some q.asker
  | none => false

/-- The requester's re-issue after a pin's refusal is still to come (R75). -/
def State.notYet (s : State) (a : Asker) : Bool := s.coh.queue.any fun q => q.asker == a && decide (s.now < q.due)

/-- Entries of an agent's queue, or of its migration queue. -/
def State.queueLen (s : State) (home : Nat) (mig : Bool) : Nat := (s.coh.queue.filter fun q => q.home == home && q.mig == mig).length

/-- A request that must wait takes its place at the home agent of the byte where it waits; a full queue refuses it, and it is tried again. -/
def State.enqueue (s : State) (w : Who) (pa : Nat) : State :=
  match w.asker with
  | none => s
  | some a =>
    let g := s.grainAt pa 0
    let home := s.homeAgent pa
    let mig := s.homeOf pa == .queued
    let due := if s.pinRefuses w (slineOf pa) (unitIn pa g) then s.now + 64 else 0
    let e : Wait := { home := home, pa := pa, asker := a, mig := mig, due := due }
    if s.coh.queue.any fun q => q.asker == a && q.pa / 2048 == pa / 2048 then
      s.modCoh fun c => { c with queue := c.queue.map fun q => if q.asker = a then { e with pa := q.pa } else q }
    else
      let s := s.modCoh fun c => { c with queue := c.queue.filter fun q => q.asker != a && s.wanted q }
      if s.queueLen home mig < (if mig then 512 else 256) then s.modCoh fun c => { c with queue := c.queue ++ [e] } else s

/-- The request has been performed, or its requester is gone. -/
def State.dequeue (s : State) (a : Option Asker) : State :=
  match a with
  | none => s
  | some a => if s.coh.queue.isEmpty then s else s.modCoh fun c => { c with queue := c.queue.filter fun q => q.asker != a }

/-! ### Holders and pins (R101, R104) -/

/-- Holders of a unit that a write meets outside the writer's cluster: clusters of the die, and agents (R101). -/
structure Holders where
  clus : BitVec 32
  vec : BitVec 17
  deriving DecidableEq, Repr

def Holders.none : Holders := { clus := 0, vec := 0 }

/-- The die L2 names clusters; the directory names agents, unless the die holds the unit exclusively and no request reaches it. -/
def State.holders (s : State) (w : Who) (sl u : Nat) : Holders :=
  let st := s.coh.unitAt w.agent w.ctx sl u
  let own : BitVec 32 := match w.clu with | some g => BitVec.ofNat 32 (2 ^ (g % 32)) | none => 0
  let clus := match s.coh.tag w.agent w.ctx sl with
    | some t => if st == .i then 0 else (t.clus &&& ~~~own)
    | none => 0
  let vec : BitVec 17 := if st == .m || st == .e then 0 else match s.dirEntry sl with
    | some d => match d.units.getD u (0, 0) with
      | (0, _) => 0
      | (2, a) => BitVec.ofNat 17 (2 ^ a) &&& ~~~(BitVec.ofNat 17 (2 ^ w.agent))
      | _ => d.vec &&& ~~~(BitVec.ofNat 17 (2 ^ w.agent))
    | none => 0
  { clus := clus, vec := vec }

/-- Some holder lies outside a scope. -/
def Holders.outside (h : Holders) (scope : Nat) : Bool :=
  match scope with
  | 0 | 1 => h.clus != 0 || h.vec != 0
  | 2 => h.vec != 0
  | 3 | 4 => h.vec.getLsbD 16
  | _ => false

/-- `.die`, or the narrowest scope that contains every holder (R104). -/
def Holders.scope (h : Holders) : Nat := if h.vec = 0 then 2 else if h.vec.getLsbD 16 then 5 else 3

/-- Makes a pin of the writer's cluster. -/
def State.makePin (s : State) (w : Who) (sl u scope : Nat) : State :=
  match w.clu, w.core with
  | some g, some k =>
    let p : Pin := { clu := g, core := k, ctx := w.ctx, sline := sl, unit := u, scope := min scope 3 }
    let same := fun q : Pin => q.clu == g && q.core == k && q.ctx == w.ctx && q.sline == sl && q.unit == u
    s.modCoh fun c => Coh.syncPins { c with pins := p :: c.pins.filter (fun q => !same q) }
  | _, _ => s

/-! ### A request for one unit -/

/-- What a request for bytes of one unit was granted. -/
structure Run where
  addr : Nat
  len : Nat
  /-- The bytes are the context's cached copy; else memory's. -/
  cached : Bool
  /-- Holders the request met, for a cached write. -/
  met : Holders
  deriving DecidableEq, Repr

/-- The home agent's part of a cacheable access that the die L2 cannot serve: probes, the directory entry and the grant (R68-R72). -/
def State.homeGrant (s : State) (w : Who) (pa grain u pol : Nat) (write : Bool) : Except Nat State :=
  let sl := slineOf pa
  if s.queuedBefore w pa || s.channelHeld pa then .error pa
  else match s.dirRoom sl with
    | none => .error pa
    | some s => match s.l2Room w.agent w.ctx sl with
      | none => .error pa
      | some s =>
        let had := s.coh.holds w.ctx sl u
        let dirty := (s.coh.dirtyFor w.ctx sl u).isSome
        let d := s.unitData w.ctx sl grain u
        let s := s.track (s.homeAgent pa) pa w.die
        let s := s.probeAll (some w.agent) w.ctx sl u (if write then 1 else 0)
        let others := (s.coh.tagsOf sl).any fun t => t.agent != w.agent && ctxHits w.ctx t.ctx && t.unit u != .i
        let s := if had || dirty then s else s.mscTouch (unitBase sl grain u) (grainBytes grain) pol false
        let st : Moesi := if write then .m else if others then .s else .e
        let s := s.modCoh fun c => (c.setUnit w.agent w.ctx sl grain u st).fill w.ctx sl grain u d
        .ok (s.dirGrant sl grain w.agent u)

/-- What another cluster's L1 keeps of a unit that a cluster of the same die reads or writes (R54, R69). -/
def Moesi.inDie (x : Moesi) (write : Bool) : Moesi := if write then .i else x.probed 0

/-- The die's part: other L1s are downgraded or invalidated, and the cluster's own L1 takes the unit where it allocates (R53, R54, R69). -/
def State.dieGrant (s : State) (w : Who) (sl grain u : Nat) (l1 write : Bool) : State :=
  let own := match w.clu with | some g => 32 + g | none => 32 + 2048
  let s := s.modCoh fun c => c.modTags sl fun t =>
    if t.ctx = w.ctx ∧ 32 ≤ t.cache ∧ t.agent = w.agent ∧ t.cache ≠ own then t.withUnit u ((t.unit u).inDie write) else t
  let l2 := s.coh.unitAt w.agent w.ctx sl u
  let s := s.modCoh fun c => c.setUnit w.agent w.ctx sl grain u (if write then .m else l2)
  match w.clu with
  | none => s
  | some g =>
    let here := s.coh.unitAt own w.ctx sl u
    if here == .i && !l1 then s
    else match s.coh.l1Room g (s.l1Part g) w.ctx sl with
      | none => s
      | some c =>
        let shared := (s.coh.tagsOf sl).any fun t => t.ctx == w.ctx && decide (32 ≤ t.cache) && t.agent == w.agent && t.cache != own && t.unit u != .i
        let st : Moesi := if write then .m else if here != .i then here else if shared || l2 == .s || l2 == .o then .s else .e
        { s with coh := c.setUnit own w.ctx sl grain u st }

/-- A cacheable read or write of the unit that holds `pa`; where it waits, the byte at which it does (R65, R69, R75, R101). -/
def State.cached (s : State) (w : Who) (pa grain pol : Nat) (l1 write : Bool) : Except Nat State :=
  let sl := slineOf pa
  let g := s.grainAt pa grain
  let u := unitIn pa g
  if s.pinRefuses w sl u then .error pa
  else
    let st := s.coh.unitAt w.agent w.ctx sl u
    if (if write then st == .m || st == .e else st != .i) then .ok (s.dieGrant w sl g u l1 write)
    else match s.homeGrant w pa g u pol write with
      | .error e => .error e
      | .ok s' => .ok (s'.dieGrant w sl g u l1 write)

/-- An uncached access of `n` bytes of one unit at the home agent: a read downgrades the copies it conflicts with and takes an owner's data; a
write sends dirty data to memory and invalidates every copy (R66). -/
def State.uncached (s : State) (w : Who) (pa n pol : Nat) (write : Bool) : Except Nat State :=
  let sl := slineOf pa
  let g := s.grainAt pa 0
  let u := unitIn pa g
  if s.queuedBefore w pa || s.channelHeld pa || s.pinRefuses w sl u then .error pa
  else
    let s := s.track (s.homeAgent pa) pa w.die
    let s := if (s.dirEntry sl).isNone then s else if write then s.clearUnit w.ctx sl g u else s.probeAll none w.ctx sl u 0
    .ok (s.mscTouch pa n pol write)

/-- One access to bytes of the unit of `pa`, where R52 and R81 perform it. -/
def State.request (s : State) (w : Who) (pa n grain pol : Nat) (write : Bool) : Except Nat (State × Run) :=
  let sl := slineOf pa
  let u := unitIn pa (s.grainAt pa grain)
  let lv := s.allocs w pa pol
  let st := if w.agent < 17 then s.coh.unitAt w.agent w.ctx sl u else .i
  let here : Bool := if write then st == .m || st == .e else st != .i
  let met := if write && w.agent < 17 then s.holders w sl u else Holders.none
  let hit : State → Run := fun _ => { addr := pa, len := n, cached := true, met := met }
  match s.homeOf pa with
  | .queued => if here then (s.cached w pa grain pol lv.1 write).map (fun t => (t, hit t)) else .error pa
  | .moved pa' redirect =>
    if s.queuedBefore w pa then .error pa
    else ((s.forwarded pa w.die redirect).uncached w pa' n 2 write).map (·, { addr := pa', len := n, cached := false, met := Holders.none })
  | .own =>
    if lv.2 || here then (s.cached w pa grain pol lv.1 write).map (fun t => (t, hit t))
    else (s.uncached w pa n pol write).map (·, { addr := pa, len := n, cached := false, met := Holders.none })

/-- Bytes from `pa` to the end of its unit. -/
def State.unitRun (s : State) (pa grain n : Nat) : Nat :=
  let g := min (grainBytes (s.grainAt pa grain)) (grainBytes (s.grainAt (s.placed pa) grain))
  min n (g - pa % g)

/-- Requests every unit of a range: the state after, and what each unit was granted. -/
def State.requestRun (s : State) (w : Who) (grain pol : Nat) (write : Bool) : Nat → Nat → Nat → Except Nat (State × List Run)
  | 0, _, _ => .ok (s, [])
  | f + 1, pa, n =>
    if n = 0 then .ok (s, [])
    else
      let len := s.unitRun pa grain n
      match s.request w pa len grain pol write with
      | .error e => .error e
      | .ok (s', r) =>
        match s'.requestRun w grain pol write f (pa + len) (n - len) with
        | .error e => .error e
        | .ok (s'', rs) => .ok (s'', r :: rs)

/-! ### Runs of bytes -/

/-- Data of a run as the requester's context sees it, with whether a sector of it is poisoned (R56). -/
def State.readRun (s : State) (ctx : Nat) (r : Run) : List Byte × Bool :=
  let g := s.grainAt r.addr 0
  let u := unitIn r.addr g
  let d := s.unitData ctx (slineOf r.addr) g u
  if s.coh.tags.isEmpty then (cellRead s.mem r.addr r.len, s.coh.memMarked r.addr r.len)
  else if grainBytes g < r.addr % grainBytes g + r.len then (cellRead s.mem r.addr r.len, s.coh.memMarked r.addr r.len)
  else (sliceOf d.1 (r.addr % grainBytes g) r.len, (sectors r.addr r.len).any fun p => d.2.getLsbD (p % 16))

def State.readRuns (s : State) (ctx : Nat) : List Run → List Byte × Bool
  | [] => ([], false)
  | r :: rs =>
    let a := s.readRun ctx r
    let b := s.readRuns ctx rs
    (a.1 ++ b.1, a.2 || b.2)

/-- Writes what a run was granted for. A unit that a later element of the same access evicted goes to memory, as its eviction would take it. -/
def State.writeRun (s : State) (ctx : Nat) (r : Run) (bs : List Byte) : State :=
  if r.cached && s.coh.holds ctx (slineOf r.addr) (unitIn r.addr (s.grainAt r.addr 0)) then s.writeCopy ctx r.addr bs
  else s.writeRaw r.addr bs

def State.writeRuns (s : State) (ctx : Nat) : List Run → List Byte → State
  | [], _ => s
  | r :: rs, bs => (s.writeRun ctx r (bs.take r.len)).writeRuns ctx rs (bs.drop r.len)

/-! ### Spans -/

/-- Stores bytes in a cluster store: no `.sc` write is the latest there any more (R89, R99). -/
def State.putStore (s : State) (x : Nat) (bs : List Byte) : State :=
  { s with
    store := cellWrite s.store x bs
    coh := { s.coh with scWrites := s.coh.scWrites.filter fun q => !(decide (2 ^ 60 + x ≤ q.1 ∧ q.1 < 2 ^ 60 + x + bs.length)) } }

/-- Requests the units that spans need in memory, in order: the state after and, by span, what was granted. -/
def State.requestSpans (s : State) (w : Who) (write : Bool) : List Span → Except Nat (State × List (List Run))
  | [] => .ok (s, [])
  | p :: ps =>
    match (if p.place = .mem then s.requestRun w p.grain p.pol write (p.len + 1) p.addr p.len else .ok (s, [])) with
    | .error e => .error e
    | .ok (s', rs) => match s'.requestSpans w write ps with
      | .error e => .error e
      | .ok (s'', rss) => .ok (s'', rs :: rss)

/-- Bytes of granted spans from span `i` on; absent addresses read free values, and another module's bytes are the answers it gave. The flag says
that poisoned data would be consumed (R56). -/
def State.readGranted (s : State) (ctx : Nat) (got : List (Nat × List Byte)) : Nat → List Span → List (List Run) → State × List Byte × Bool
  | i, p :: ps, rs :: rss =>
    let one : State × List Byte × Bool :=
      match p.place with
      | .mem => (s, s.readRuns ctx rs)
      | .store => (s, cellRead s.store p.addr p.len, false)
      | .absent => ((s.drawBytes p.len).2, (s.drawBytes p.len).1, false)
      | .peer => (s, aget [] i got, false)
      | _ => (s, List.replicate p.len 0, false)
    let rest := one.1.readGranted ctx got (i + 1) ps rss
    (rest.1, one.2.1 ++ rest.2.1, one.2.2 || rest.2.2)
  | _, _, _ => (s, [], false)

/-- Writes bytes to granted spans; at an absent address they go nowhere, and another module's are sent elsewhere. -/
def State.writeGranted (s : State) (ctx : Nat) : List Span → List (List Run) → List Byte → State
  | p :: ps, rs :: rss, bs =>
    let s' := match p.place with
      | .mem => s.writeRuns ctx rs (bs.take p.len)
      | .store => s.putStore p.addr (bs.take p.len)
      | _ => s
    s'.writeGranted ctx ps rss (bs.drop p.len)
  | _, _, _ => s

/-- Reads the bytes of spans; where a unit waits, its byte. -/
def State.readSpans (s : State) (w : Who) (ss : List Span) : Except Nat (State × List Byte × Bool) :=
  match s.requestSpans w false ss with
  | .error e => .error e
  | .ok (s', rss) => .ok ((s'.dequeue w.asker).readGranted w.ctx [] 0 ss rss)

/-- Units a write would pin, with the holders it met (R101). -/
def pinUnits (s : State) (scope : Nat) (rss : List (List Run)) : List (Nat × Nat × Holders) :=
  (rss.flatten.filter fun r => r.cached && r.met.outside scope).map fun r => (slineOf r.addr, unitIn r.addr (s.grainAt r.addr 0), r.met)

/-- Pins of a cluster. -/
def State.pinsOf (s : State) (g : Nat) : Nat := (s.coh.pins.filter fun p => p.clu == g).length

/-- The scope at which a write is performed: its own, or, while the cluster's 32 pins are held, one that needs no pin (R104). -/
def State.pinnedScope (s : State) (w : Who) (scope : Nat) (rss : List (List Run)) : Nat :=
  match w.clu with
  | none => scope
  | some g =>
    let us := pinUnits s scope rss
    if s.pinsOf g + us.length ≤ 32 then scope else (us.map fun u => u.2.2.scope).foldl max scope

/-- The pins of a performed write (R101). -/
def State.pinWrites (s : State) (w : Who) (scope : Nat) (rss : List (List Run)) : State :=
  (pinUnits s scope rss).foldl (fun s u => s.makePin w u.1 u.2.1 scope) s

/-- Writes bytes to spans without a release or atomic, so without a pin; where a unit waits, its byte. -/
def State.writeSpans (s : State) (w : Who) (ss : List Span) (bs : List Byte) : Except Nat State :=
  match s.requestSpans w true ss with
  | .error e => .error e
  | .ok (s', rss) => .ok ((s'.dequeue w.asker).writeGranted w.ctx ss rss bs)

end Sys2Proof.Machine
end

