-- ==== Sys2Proof/Machine/SaveArea.lean ====
section
/-! DEFINITION. The 16 KiB save area: a core's state as bytes and back (R195, R428). -/

namespace Sys2Proof.Machine

def SlotState.code : SlotState → Nat
  | .free => 0 | .held => 1 | .pending => 2 | .arrived => 3 | .expired => 4

def SlotState.ofCode : Nat → SlotState
  | 1 => .held | 2 => .pending | 3 => .arrived | 4 => .expired | _ => .free

/-- Control words of the area (R428). -/
def Core.controlWords (c : Core) : List Word :=
  [BitVec.ofNat 64 c.tl, c.tvec, c.trapen, c.bank1.cause, c.bank2.cause, c.bank1.val, c.bank2.val,
   c.bank1.pcl, c.bank1.pcx, c.bank1.pcs, c.bank1.pck, c.bank2.pcl, c.bank2.pcx, c.bank2.pcs, c.bank2.pck,
   c.xfctl, c.dmem, c.dphase, c.slpcfg, c.pgreply, c.l.spillb, c.x.spillb, c.s.spillb, c.k.spillb,
   c.l.pend, c.x.pend, c.s.pend, c.k.pend, BitVec.ofNat 64 c.lttBase, BitVec.ofNat 64 c.lttCount, c.lttCrc, 0]

def Strand.windowWords (t : Strand) : List Word :=
  [BitVec.ofInt 64 t.wb, mkWord [((t.sb % 2 ^ 32).toNat, 0), (t.depth % 2 ^ 16, 32)]]

def Loop.words (l : Loop) : List Word := [l.cnt, l.beg, l.fin, l.done] ++ l.slots.map (·.stride)

/-- The 32-bit loop-level word (R428). -/
def Loop.levelWord (l : Loop) : Nat :=
  packNat (if l.active then 2 ^ 31 else 0)
    ((l.slots.zipIdx).map fun p => (p.1.reg.toNat + 32 * p.1.strand.num, 7 * p.2))

def barrierWord (b : Barrier) : Nat := packNat b.p.toNat [(b.a.toNat, 4), (b2n b.phase, 8)]

def zeroBytes (n : Nat) : List Byte := List.replicate n 0

/-- The entries of a register padded to its depth. -/
def entriesBytes (bytes depth : Nat) (q : List FEntry) : List Byte :=
  (List.range depth).flatMap fun i => natBytes bytes ((q.getD i { data := 0, due := 0, src := 0, landed := true }).data.toNat)

def Core.strands (c : Core) : List Strand := [c.l, c.x, c.s, c.k]

/-- Bytes 0x0000-0x3FFF of the area. -/
def Core.area (c : Core) : List Byte :=
  wordsBytes (mkWord [(b2n c.split, 0), (b2n c.l.parked, 1), (b2n c.x.parked, 2), (b2n c.s.parked, 3)] :: c.strands.map (·.pc))
  ++ wordsBytes (c.strands.flatMap (·.windowWords))
  ++ wordsBytes [BitVec.ofNat 64 c.scLast, c.specst]
  ++ c.tokens.map (BitVec.ofNat 8) ++ natBytes 2 c.cc.toNat ++ zeroBytes 118
  ++ wordsBytes c.controlWords
  ++ wordsBytes (c.strands.flatMap fun t => t.g ++ t.win) ++ zeroBytes 32
  ++ wordsBytes (c.strands.flatMap fun t => t.loops.flatMap (·.words))
  ++ c.bars.flatMap (fun b => natBytes 4 (barrierWord b))
  ++ c.slots.flatMap (fun a => wordsBytes [BitVec.ofNat 64 a.st.code, a.word])
  ++ (List.range 12).flatMap (fun i => entriesBytes 128 2 (c.queue i))
  ++ natBytes 8 (packNat 0 ((List.range 12).map fun i => (c.occ i % 4, 2 * i)))
  ++ c.strands.flatMap (fun t => t.loops.flatMap fun l => natBytes 4 l.levelWord) ++ zeroBytes 152
  ++ (entriesBytes 128 8 (c.queue 12) ++ entriesBytes 128 8 (c.queue 13) ++ entriesBytes 128 8 (c.queue 14))
  ++ (entriesBytes 8 8 (c.queue 15) ++ entriesBytes 8 8 (c.queue 16))
  ++ natBytes 8 (packNat 0 ((List.range 5).map fun i => (c.occ (12 + i) % 16, 4 * i)))
  ++ zeroBytes 2424

/-! ### Reading an area back (R427) -/

/-- A strand from the area at `b`; `i` is its number. -/
def strandFrom (m : List Host.Cell) (b i : Nat) (parked : Bool) : Strand :=
  let w := fun o => readWord m (b + o)
  let win1 := w (0x28 + 16 * i + 8)
  { pc := w (8 + 8 * i) &&& ~~~(3 : Word), parked := parked
    g := readWords m (b + 0x200 + 824 * i) 7, win := readWords m (b + 0x200 + 824 * i + 56) 96
    wb := (w (0x28 + 16 * i)).toInt, sb := (win1.setWidth 32).toInt, depth := bitsAt win1 32 16
    spillb := w (0x100 + 8 * (20 + i)), pend := w (0x100 + 8 * (24 + i)), stage := 0, rel := 0, fence := .none, wait := 0
    loops := (List.range 6).map fun k =>
      let p := 0xF00 + 384 * i + 64 * k
      let lv := bytesNat (cellRead m (b + 0x2908 + 24 * i + 4 * k) 4)
      { cnt := w p, beg := w (p + 8), fin := w (p + 16), done := w (p + 24), active := fld lv 31 1 == 1
        slots := (List.range 4).map fun j =>
          { reg := BitVec.ofNat 5 (fld lv (7 * j) 5), strand := strandOf (fld lv (7 * j + 5) 2),
            stride := w (p + 32 + 8 * j) } } }

def entriesFrom (m : List Host.Cell) (a bytes n : Nat) : List FEntry :=
  (List.range n).map fun i =>
    { data := BitVec.ofNat 1024 (bytesNat (cellRead m (a + bytes * i) bytes)), due := 0, src := 0, landed := true }

/-- A trap level's registers; their read-only bits stay zero (R420). -/
def bankFrom (m : List Host.Cell) (b n : Nat) : Bank :=
  let w := fun i => readWord m (b + 0x100 + 8 * i)
  let pc := fun i => w i &&& ~~~(2 : Word)
  { cause := w (3 + n) &&& 0xFFFFF, val := w (5 + n), pcl := pc (7 + 4 * n), pcx := pc (8 + 4 * n), pcs := pc (9 + 4 * n)
    pck := pc (10 + 4 * n), stage := 0 }

/-- Bits of `XFCTL` that are not reserved (R239). -/
def xfctlMask : Word := 0x71F

/-- The core state an area holds, over a core that keeps what the area does not name. -/
def Core.fromArea (c : Core) (m : List Host.Cell) (b : Nat) : Core :=
  let w := fun o => readWord m (b + o)
  let m0 := w 0
  let vo := bytesNat (cellRead m (b + 0x2900) 8)
  let qo := bytesNat (cellRead m (b + 0x3680) 8)
  { c with
    split := bitAt m0 0
    l := strandFrom m b 0 (bitAt m0 1), x := strandFrom m b 1 (bitAt m0 2), s := strandFrom m b 2 (bitAt m0 3)
    k := strandFrom m b 3 false
    scLast := (w 0x68).toNat, specst := w 0x70 &&& 0xFF00000003
    tokens := (cellRead m (b + 0x78) 16).map (·.toNat), resv := List.replicate 16 0
    cc := BitVec.ofNat 16 (bytesNat (cellRead m (b + 0x88) 2))
    tl := min 2 ((w 0x100).toNat % 4), tvec := w 0x108 &&& ~~~(3 : Word), trapen := w 0x110 &&& 1
    bank1 := bankFrom m b 0, bank2 := bankFrom m b 1
    xfctl := w 0x178 &&& xfctlMask, dmem := w 0x180 &&& 0xFFFFFFFFFFFF0000, dphase := w 0x188 &&& 0xF8FFFFFFFFFFFFFF
    slpcfg := w 0x190 &&& 0x3FFFF, pgreply := w 0x198 &&& 0x87FFFF00FFFFFFFF
    bars := (List.range 256).map fun i =>
      let v := bytesNat (cellRead m (b + 0x1500 + 4 * i) 4)
      { p := BitVec.ofNat 4 v, a := BitVec.ofNat 4 (v / 16), phase := fld v 8 1 == 1 }
    slots := (List.range 64).map fun j =>
      { st := SlotState.ofCode ((w (0x1900 + 16 * j)).toNat % 8), word := w (0x1900 + 16 * j + 8) }
    fifo := (List.range 12).map (fun i => entriesFrom m (b + 0x1D00 + 256 * i) 128 (min 2 (fld vo (2 * i) 2)))
      ++ (List.range 3).map (fun i => entriesFrom m (b + 0x2A00 + 1024 * i) 128 (min 8 (fld qo (4 * i) 4)))
      ++ [entriesFrom m (b + 0x3600) 8 (min 8 (fld qo 12 4)), entriesFrom m (b + 0x3640) 8 (min 8 (fld qo 16 4))]
    flight := [], ops := [], hold := [], bsts := [] }

/-! ### Places in the save pool (R213) -/

def State.poolBase (s : State) (c : Nat) : Nat := s.rfld (ctxBase c + 0x18) 16 36 * 2 ^ 16

def State.poolSize (s : State) (c : Nat) : Nat := min 4096 (s.rfld (ctxBase c + 0x18) 0 13)

def State.areaAt (s : State) (c r : Nat) : Nat := s.poolBase c + 16384 * r

def State.imageAt (s : State) (c r : Nat) : Nat := s.poolBase c + 16384 * s.poolSize c + 262144 * r

end Sys2Proof.Machine
end

