-- ==== Sys2Proof/Machine/Context.lean ====
section
/-! DEFINITION. Ending what a context runs: the steps of R206 that a fatal error and a reset share, and fatal errors with their kill record
(R205, R206, R423-R425). -/

namespace Sys2Proof.Machine

/-! ### Command records, as far as rings go (R375, R384) -/

def recOp (r : List Word) : Nat := bitsAt (r.getD 0 0) 59 5
def recStamp (r : List Word) : Nat := bitsAt (r.getD 0 0) 0 40

/-- Rings a record names. -/
def recRings (r : List Word) : List Nat :=
  match recOp r with
  | 0x01 | 0x02 => [bitsAt (r.getD 1 0) 60 4, bitsAt (r.getD 1 0) 56 4]
  | 0x14 => [bitsAt (r.getD 0 0) 50 4]
  | _ => []

/-- The job has not ended: commands of it may still be performed. -/
def Job.live (j : Job) : Bool := j.ended.isNone

def ringReg (g n : Nat) : Nat := clusterBase g + 0x200 + 16 * n

/-- Accepted commands naming a ring that have not retired (R49). -/
def State.ringPend (s : State) (g n : Nat) : Nat :=
  ((s.jobs.filter (fun j => j.clu == g && j.live)).map fun j =>
    ((j.recs.drop j.next).filter (fun r => (recRings r).contains n)).length).sum

/-- Brings the `PEND` fields of a cluster's rings up to date. -/
def State.syncRings (s : State) (g : Nat) : State :=
  (List.range 16).foldl (fun s' n => s'.setFld (ringReg g n) 32 11 (min 2047 (s.ringPend g n))) s

/-! ### Cores and tasks -/

/-- A core with no task. What is not task state stays: the pager counter, `VSHARE`, posted window writes awaiting their acknowledgement, and a
pager core's module-wide events (R38). -/
def Core.idle (c : Core) : Core :=
  { Core.reset c.idx with
    k := { Strand.reset with pend := if (c.task.map (·.pager)).getD false then c.k.pend &&& 4 else 0 }
    pagerSeq := c.pagerSeq, vshare := c.vshare, nextUid := c.nextUid, ops := c.ops.filter (fun o => o.slot.isSome) }

def State.mapCores (s : State) (f : Core → Core) : State :=
  { s with core := f s.core, cores := (s.cores.map f).filter (fun c => decide (c ≠ Core.reset c.idx)) }

/-- Takes tasks out of the launch manager's lists. -/
def Lm.forget (m : Lm) (gone : Nat → Bool) : Lm :=
  { m with
    offered := []
    tasks := m.tasks.filter (fun t => !gone t.id)
    ready := m.ready.map (fun r => (r.1, r.2.filter (fun t => !gone t)))
    preload := m.preload.filter (fun p => !gone p.2) }

/-- A halt ends with the halted task: its core's bit of `DBGSTAT` goes, and with the last one the halt of the cluster (R444). -/
def State.unhalt (s : State) (k : Nat) : State :=
  let a := debugBase (k / 8) + 8
  let s := s.setFld a (55 + k % 8) 1 0
  if s.rfld a 55 8 = 0 then s.setFld a 63 1 0 else s

/-- Step 1 of R206: every task of the context ends with no save, on its core and in the launch manager. -/
def State.endTasks (s : State) (c : Nat) : State :=
  let ids := (s.lm.tasks.filter (fun t => t.ctx == c)).map (·.id)
  let busy := s.allCores.filter (fun k => k.task.isSome && k.view.ctx == c)
  let s := (busy.filter (·.halted)).foldl (fun s k => s.unhalt k.idx) s
  let s := s.mapCores fun k => if k.task.isSome && k.view.ctx == c then k.idle else k
  let m := s.lm.forget (fun t => ids.contains t)
  { s with lm := { m with domains := m.domains.filter (fun d => d.ctx != c),
                          woken := m.woken.filter (fun w => w.1 / 2 != c), vacated := m.vacated.filter (fun w => w.1 / 2 != c),
                          vacates := m.vacates.filter (fun v => !(busy.any (fun k => k.idx == v.1))) } }

/-- Queue header of a launch queue (R210). -/
def State.queueHead (s : State) (c q : Nat) : Nat := s.rfld (ctxBase c + 0x100 + 8 * q) 8 44 * 256

/-- Step 2 of R206 for the launch queues: `HEAD` := `TAIL`, and accepted launches are dropped. -/
def State.emptyQueues (s : State) (c : Nat) : State :=
  let s := (List.range 32).foldl (fun s q =>
    if bitAt (s.reg (ctxBase c + 0x100 + 8 * q)) 63 then
      let h := s.queueHead c q
      s.writeWordAt (h + 8) (s.wordAt h)
    else s) s
  { s with lm := { s.lm with launches := s.lm.launches.filter (fun l => l.ctx != c) } }

/-- Step 2 of R206 for futures: pending and dispatched ones are cancelled. -/
def State.cancelFutures (s : State) (c : Nat) : State :=
  { s with futures := s.futures.map fun f => if f.ctx = c ∧ (f.st = 1 ∨ f.st = 2) then { f with st := 5, record := none, cpy := false } else f }

/-- A hart of the context's sandboxes leaves U-mode by an M-mode interrupt and loses its capabilities (R432). -/
def State.evictHart (s : State) (h : Nat) (x : Hart) : State :=
  let s := s.dequeue (some (.hart h))
  let x := { x with scWait := none, fsbx := setBits x.fsbx 63 1 0, fcapl := x.fcapl.map (fun w => setBits w 57 1 0) }
  if x.priv = .u then
    let d := s.drawWord
    let mie := bitsAt x.mstatus 3 1
    let x := { x with
      priv := .m, mepc := x.pc, mcause := d.1 ||| 0x8000000000000000, mtval := 0, wfi := false
      mstatus := setBits (setBits (setBits x.mstatus 11 2 0) 7 1 mie) 3 1 0, pc := (x.mtvec &&& ~~~(3 : Word)) + (if bitAt x.mtvec 0 then d.1 <<< 2 else 0) }
    { d.2 with harts := aput Hart.reset h x d.2.harts }
  else { s with harts := aput Hart.reset h x s.harts }

def State.stopSandboxes (s : State) (c : Nat) : State :=
  s.harts.foldl (fun s p => if bitsAt p.2.fsbx 50 6 = c then s.evictHart p.1 p.2 else s) s

/-- Step 3 of R206: the context's jobs end; their entries and ids free, and `PEND` falls (R226, R373). -/
def State.endJobs (s : State) (c : Nat) : State :=
  let gs := (s.jobs.filter (fun j => j.view.ctx == c)).map (·.clu)
  let s := { s with jobs := s.jobs.filter (fun j => j.view.ctx != c) }
  gs.foldl (fun s g => s.syncRings g) s

/-- Another context maps the frame of an address in an array that one of its tasks has loaded (R34, R425). -/
def State.mappedElsewhere (s : State) (c pa : Nat) : Bool :=
  s.allCores.any fun k => k.task.isSome && k.view.ctx != c && k.view.ltt.any fun e =>
    bitAt e.1 0 && decide (bitsAt e.2 0 52 / 2 ^ 16 * 2 ^ 16 ≤ pa ∧ pa < bitsAt e.2 0 52 / 2 ^ 16 * 2 ^ 16 + 2 ^ bitsAt e.1 56 5)

/-- The context's lines are discarded, but for dirty units of frames that another context maps, which are written back (R425). -/
def State.discardLines (s : State) (c : Nat) : State :=
  let shared := (s.coh.tags.filter fun t => t.ctx == c && t.cache < 32).flatMap fun t =>
    ((List.range 16).filter fun u => t.dirty u && s.mappedElsewhere c (unitBase t.sline t.grain u)).map fun u => (t.sline, t.grain, u)
  let s := shared.foldl (fun s x => s.flushUnit c x.1 x.2.1 x.2.2) s
  s.modCoh fun h => { h with
    tags := h.tags.filter (fun t => t.ctx != c)
    copies := h.copies.filter (fun k => k.ctx != c)
    queue := h.queue.filter fun q => s.wanted q && (match q.asker with | .req r => reqCtx r != c | _ => true)
    retries := h.retries.filter fun r => reqCtx r != c }

/-- Steps 1-3 of R206. Pins and cached lines of the context go with them (R102, R425). -/
def State.stopContext (s : State) (c : Nat) : State :=
  let s := (((s.endTasks c).emptyQueues c).cancelFutures c).stopSandboxes c
  let s := s.endJobs c
  let s := (s.endPinsOf c).discardLines c
  State.superDeliver { s with
    beryl := s.beryl.map fun b => { b with held := b.held.filter (fun h => (s.coreAt h.1).view.ctx != c) } }

/-! ### Fatal errors (R423, R425) -/

/-- Who raises a fatal error. -/
inductive Origin where
  | strand (core : Nat) (σ : StrandId)
  /-- An engine, hart, bridge station or other agent, by agent number (R120). -/
  | agent (n : Nat)
  deriving DecidableEq, Repr

/-- `TVAL` of the current level takes the address of a refused access; at level 0 there is no such register (R22, R264, log 46). -/
def Core.withTval (k : Core) (code : Nat) (val : Word) : Core :=
  if !([0x80, 0x81, 0x82, 0x83, 0x85].contains code) then k
  else if k.tl = 1 then { k with bank1 := { k.bank1 with val := val } }
  else if k.tl = 2 then { k with bank2 := { k.bank2 with val := val } }
  else k

/-- The kill record of a strand's task: its area as the task stands, and the header (R425). -/
def State.killRecord (s : State) (k : Core) (r : Nat) (σ : StrandId) (code : Nat) (val : Word) (cause : Nat) : State :=
  let a := s.areaAt k.view.ctx r
  let w0 := mkWord [(code, 56), (k.view.ctx, 50), (k.idx, 39), (r, 27), (k.tl, 25), (σ.num, 23)]
  (s.writeMem a (k.area.take 0x3F00)).writeMem (a + 0x3F00)
    (wordsBytes [w0, val, s.quartz, mkWord [(cause % 2 ^ 20, 12), (k.idx, 0)], 0, 0, 0, 0])

/-- A fatal error of context `c` (R205): only an ACTIVE context is halted; `cause` is the would-be `TCAUSE` of `TL2FAULT`. -/
def State.fatalError (s : State) (c : Nat) (o : Origin) (code : Nat) (val : Word) (cause : Nat) : State :=
  if s.ctxState c ≠ 1 then s
  else
    let rtn := match o with | .strand k _ => (s.coreAt k).task.bind (·.rtn) | .agent _ => none
    let s := match o with
      | .strand k σ =>
        let s := match rtn with | some r => s.killRecord ((s.coreAt k).withTval code val) r σ code val cause | none => s
        s.trace (s.coreAt k) 5 σ.num code val 0
      | .agent _ => s
    let s := (s.setFld (ctxBase c + 0x10) 48 8 code).setFld (ctxBase c + 0x10) 60 2 2
    let s := s.ras0 3 (c * 2 ^ 45 + code * 2 ^ 37) (match rtn with | some r => BitVec.ofNat 64 r | none => BitVec.allOnes 64) val
    s.stopContext c

end Sys2Proof.Machine
end

