-- ==== Sys2Proof/Machine/Halt.lean ====
section
/-! DEFINITION. Landing of vector results (R258), halting a cluster for debug (R443), and the Beryl log points as an atomic meets them
(R451-R455). -/

namespace Sys2Proof.Machine

/-! ### Landing X results (R256, R258) -/

/-- Marks the entries an X issue pushed as landed. -/
def landEntries (n : Nat) (q : List FEntry) : List FEntry :=
  q.map fun e => if !e.landed && e.due != 0 && e.src == n then { e with landed := true } else e

/-- The results of X issue `n` land: entries, flags into `XFCTL`, and the token to S (R240, R258, R263). -/
def Core.landX (c : Core) (n : Nat) : Core :=
  match c.flight.find? (fun f => f.n == n) with
  | none => c
  | some f =>
    let c := { c with
      fifo := c.fifo.map (landEntries n), flight := c.flight.filter (fun g => g.n != n)
      xfctl := c.xfctl ||| BitVec.ofNat 64 f.flags.toNat }
    if f.sig then c.pushReserved (pairOf .x .s) else c

/-- Every result due at or before an issue index lands (R258). -/
def Core.landDue (c : Core) (n : Nat) : Core := (c.flight.filter (fun f => f.due ≤ n)).foldl (fun c f => c.landX f.n) c

def Core.landAll (c : Core) : Core := c.flight.foldl (fun c f => c.landX f.n) c

/-- Lands results of a core; their flags are kept in `FLAGOR.ACC` of its cluster (R241). -/
def State.landCore (s : State) (k : Nat) (f : Core → Core) : State :=
  let c := s.coreAt k
  let c' := f c
  let gone := c.flight.filter fun x => !(c'.flight.any fun y => y.n == x.n)
  let acc := gone.foldl (fun a x => a ||| x.flags.toNat) 0
  let s := s.setCore c'
  if acc = 0 then s else
    let a := clusterBase c.cluster + 0x018
    s.setFld a 16 5 (s.rfld a 16 5 ||| acc)

/-! ### Debug halt (R443) -/

/-- Halts the cores of a cluster that hold a task of its debugged context; the cause is `HCAUSE`. A cluster that is halted already signals
nothing. -/
def State.haltCluster (s : State) (g cause : Nat) : State :=
  let ctl := s.reg (debugBase g)
  let hit := s.allCores.filter fun c => c.cluster == g && s.debugged c && !c.halted
  if !bitAt ctl 55 || (bitAt (s.reg (debugBase g + 8)) 63 && hit.isEmpty) then s
  else
    let s := hit.foldl (fun s c => (s.landCore c.idx Core.landAll).modCore c.idx fun c => { c with halted := true }) s
    let mask := (hit.map fun c => 2 ^ (c.idx % 8)).sum
    let st := s.reg (debugBase g + 8)
    let st := setBits (setBits st 63 1 1) 55 8 (bitsAt st 55 8 ||| mask)
    let s := s.setReg (debugBase g + 8) (setBits st 51 4 cause)
    let s := hit.foldl (fun s c => s.trace (s.coreAt c.idx) 1 0 cause (s.reg (debugBase g + 8)) 0) s
    let chans := (List.range 4).filter fun i => bitAt ctl (47 + i)
    let sigs := chans.flatMap fun i =>
      ((List.range 256).filter fun h => h != g && bitAt (s.reg (debugBase h)) (43 + i) && bitAt (s.reg (debugBase h)) 55).map
        fun h => Turn.trigger h i
    { s with agenda := s.agenda ++ sigs }

/-! ### Beryl log points -/

/-- The log point that owns an address (R451). -/
def State.logPoint (s : State) (pa : Nat) : Option Nat :=
  match region pa with
  | 0 => some (16 * stackOf pa + l2Slice pa)
  | 1 | 2 => some (128 + (s.homeAgent pa - 512))
  | _ => none

/-- 0 off, 1 record, 2 replay (R452). -/
def State.logMode (s : State) (p : Nat) : Nat :=
  match s.rfld (berylBase p) 62 2 with
  | 1 => 1 | 2 => 2 | _ => 0

def State.logCtx (s : State) (p : Nat) : Nat := s.rfld (berylBase p) 56 6

def Beryl.new (p : Nat) : Beryl :=
  { point := p, key := none, run := none, used := [], held := [], admitted := [], diverged := false }

def State.berylOf (s : State) (p : Nat) : Beryl := (s.beryl.find? (fun b => b.point == p)).getD (Beryl.new p)

def State.setBeryl (s : State) (b : Beryl) : State := { s with beryl := b :: s.beryl.filter (fun c => c.point != b.point) }

/-- Words the log holds (R452). -/
def State.logSize (s : State) (p : Nat) : Nat := 2 ^ (max 10 (min 30 (s.rfld (berylBase p + 8) 0 5)))

def State.logWordAt (s : State) (p i : Nat) : Nat := s.rfld (berylBase p + 8) 12 40 * 4096 + 8 * i

def State.logPos (s : State) (p : Nat) : Nat := s.rfld (berylBase p + 0x10) 0 32
def State.logEnd (s : State) (p : Nat) : Nat := s.rfld (berylBase p + 0x10) 32 32

/-- Appends a word to the log, or sets `OVF` when it is full. -/
def State.logPut (s : State) (p : Nat) (w : Word) : State :=
  let pos := s.logPos p
  if bitAt (s.reg (berylBase p + 0x18)) 63 then s
  else if s.logSize p ≤ pos then s.setFld (berylBase p + 0x18) 63 1 1
  else (s.writeWordAt (s.logWordAt p pos) w).setFld (berylBase p + 0x10) 0 32 (pos + 1)

def runWord (id n : Nat) : Word := mkWord [(id % 2 ^ 16, 32), (n % 2 ^ 32, 0)]

/-- Writes the run being counted. -/
def State.logFlush (s : State) (p : Nat) : State :=
  let b := s.berylOf p
  match b.run with
  | some (id, n) => (s.logPut p (runWord id n)).setBeryl { b with run := none }
  | none => s

/-- Records an atomic performed on block `key` (the address with bits 5:0 zero) by a requester (R453). -/
def State.logRecord (s : State) (p key id : Nat) : State :=
  if bitAt (s.reg (berylBase p + 0x18)) 63 then s
  else
    let b := s.berylOf p
    let same := match b.run with | some (i, n) => i == id && b.key == some key && decide (n < 2 ^ 32 - 1) | none => false
    if same then s.setBeryl { b with run := b.run.map fun r => (r.1, r.2 + 1) }
    else
      let s := s.logFlush p
      let s := if b.key = some key then s else s.logPut p (mkWord [(1, 62), (key, 0)])
      s.setBeryl { s.berylOf p with key := some key, run := some (id, 1) }

/-- A run of the log still to be read: word index, key, requester, count left. -/
structure LogRun where
  idx : Nat
  key : Nat
  id : Nat
  left : Nat
  deriving DecidableEq, Repr

/-- The runs of words `i` to `i + n - 1`, and whether a word reads as exhaustion (R453). -/
def State.logRuns (s : State) (p : Nat) (b : Beryl) : Nat → Nat → Nat → List LogRun × Bool
  | 0, _, _ => ([], false)
  | n + 1, i, key =>
    let w := s.wordAt (s.logWordAt p i)
    match bitsAt w 62 2 with
    | 1 => s.logRuns p b n (i + 1) (bitsAt w 6 46 * 64)
    | 0 =>
      let r := s.logRuns p b n (i + 1) key
      ({ idx := i, key := key, id := bitsAt w 32 16, left := bitsAt w 0 32 - aget 0 i b.used } :: r.1, r.2)
    | _ => ([], true)

/-- First word the window still needs: retired runs and key words with no unconsumed run behind them are passed (R454). -/
def logAdvance (runs : List LogRun) (end_ : Nat) : Nat → Nat → Nat
  | 0, pos => pos
  | f + 1, pos =>
    if end_ ≤ pos then pos
    else match runs.find? (fun r => r.idx == pos) with
      | some r => if r.left = 0 then logAdvance runs end_ f (pos + 1) else pos
      | none =>
        -- a key word: passed if no unconsumed run follows it before the next key word
        let behind := runs.filter fun r => pos < r.idx
        match behind.head? with
        | none => pos
        | some h =>
          if (behind.takeWhile (fun r => r.key == h.key)).all (fun r => r.left == 0) then logAdvance runs end_ f (pos + 1) else pos

/-- Divergence (R455): the point fills its registers, halts the context's clusters and reports. -/
def State.diverge (s : State) (p key id reason : Nat) : State :=
  let b := s.berylOf p
  let rs := (s.logRuns p b (s.logEnd p - s.logPos p) (s.logPos p) 0).1
  let nx := rs.find? fun r => r.key == key && r.left != 0
  let d0 := mkWord [(reason, 62), (key, 0)]
  let d1 := mkWord [((match nx with | some r => r.idx | none => s.logEnd p), 32), ((match nx with | some r => r.id | none => 0), 16), (id, 0)]
  let s := ((s.setReg (berylBase p + 0x20) d0).setReg (berylBase p + 0x28) d1).setBeryl { b with diverged := true }
  let gs := ((s.allCores.filter fun c => c.task.isSome && c.view.ctx == s.logCtx p).map Core.cluster).dedup
  let s := gs.foldl (fun s g => s.haltCluster g 4) s
  s.ras0 0x14 0 d0 d1

/-- An unconsumed run of a key names the requester. -/
def LogRun.names (r : LogRun) (key id : Nat) : Bool := r.key == key && r.id == id && r.left != 0

/-- The atomic of a core, by its number there, consumes one count of a run (R454). -/
def State.logConsume (s : State) (p : Nat) (b : Beryl) (r : LogRun) (core uid : Nat) : State :=
  let b' := { b with
    used := aset r.idx (aget 0 r.idx b.used + 1) b.used, held := b.held.filter (fun h => !(h.1 == core && h.2.1 == uid))
    admitted := (r.id, r.key, s.now) :: b.admitted }
  let runs := (s.logRuns p b' (min 256 (s.logEnd p - s.logPos p)) (s.logPos p) 0).1
  (s.setBeryl b').setFld (berylBase p + 0x10) 0 32 (logAdvance runs (s.logEnd p) 256 (s.logPos p))

/-- An atomic (core, number, key, requester, cycle) that is not admitted: divergence where the log cannot admit it, else it is held in the order of
arrival (R454, R455). -/
def State.logHold (s : State) (p : Nat) (b : Beryl) (never : Bool) (h : Nat × Nat × Nat × Nat × Nat) : State :=
  if never then s.diverge p h.2.2.1 h.2.2.2.1 2
  else if b.held.any fun x => x.1 == h.1 && x.2.1 == h.2.1 then s
  else s.setBeryl { b with held := b.held ++ [h] }

/-- An atomic of context `c` by requester `id` on `pa` meets its log point: none while it is held (R454). -/
def State.logAdmit (s : State) (c pa id core uid : Nat) : Option State × State :=
  match s.logPoint pa with
  | none => (some s, s)
  | some p =>
    if s.logCtx p ≠ c then (some s, s)
    else
      let key := pa / 64 * 64
      match s.logMode p with
      | 1 => (some (s.logRecord p key id), s)
      | 2 =>
        let b := s.berylOf p
        if b.diverged then (none, s)
        else
          let pos := s.logPos p
          let win := s.logRuns p b (min 256 (s.logEnd p - pos)) pos 0
          let all := s.logRuns p b (s.logEnd p - pos) pos 0
          match win.1.find? (fun r => r.key == key && r.left != 0) with
          | some r =>
            if r.id = id then (some (s.logConsume p b r core uid), s)
            else (none, s.logHold p b (win.2 || !all.1.any (·.names key id)) (core, uid, key, id, s.now))
          | none => (none, s.logHold p b (win.2 || !all.1.any (·.names key id)) (core, uid, key, id, s.now))
      | _ => (some s, s)

end Sys2Proof.Machine
end

