-- ==== Sys2Proof/Machine/Float.lean ====
section
/-! DEFINITION. Number formats, exact values, the one rounding of R236, conversions, floating operations, the function units within their bounds
(R229-R247). Codes are numbers; flags are a number with NV 16, DZ 8, OF 4, UF 2, NX 1 (R239). -/

namespace Sys2Proof.Machine

/-! ### Formats (R229) -/

/-- A floating-point format: exponent and fraction bits, bias, and whether it has infinities (`kind` 0), only NaNs (1) or neither (2). -/
structure Fmt where
  eb : Nat
  fb : Nat
  bias : Nat
  kind : Nat
  deriving DecidableEq, Repr

def Fmt.f32 : Fmt := { eb := 8, fb := 23, bias := 127, kind := 0 }
def Fmt.bf16 : Fmt := { eb := 8, fb := 7, bias := 127, kind := 0 }
def Fmt.f16 : Fmt := { eb := 5, fb := 10, bias := 15, kind := 0 }
def Fmt.e4m3 : Fmt := { eb := 4, fb := 3, bias := 7, kind := 1 }
def Fmt.e5m2 : Fmt := { eb := 5, fb := 2, bias := 15, kind := 0 }
def Fmt.e2m1 : Fmt := { eb := 2, fb := 1, bias := 1, kind := 2 }

def Fmt.width (f : Fmt) : Nat := 1 + f.eb + f.fb

/-- The sign bit of a code. -/
def Fmt.signBit (f : Fmt) (neg : Bool) : Nat := if neg then 2 ^ (f.eb + f.fb) else 0

/-- The largest finite magnitude as a code. -/
def Fmt.maxCode (f : Fmt) : Nat :=
  match f.kind with
  | 0 => (2 ^ f.eb - 1) * 2 ^ f.fb - 1
  | 1 => 2 ^ (f.eb + f.fb) - 2
  | _ => 2 ^ (f.eb + f.fb) - 1

/-- What a code means: a NaN with its fraction at the top of 23 bits, an infinity, or m × 2^e with a sign. -/
inductive FVal where
  | nan (neg : Bool) (frac : Nat)
  | inf (neg : Bool)
  | num (neg : Bool) (m : Nat) (e : Int)
  deriving DecidableEq, Repr

def FVal.isNan : FVal → Bool
  | .nan _ _ => true
  | _ => false

/-- The NaN is signalling: its quiet bit is 0 (R230). -/
def FVal.signals : FVal → Bool
  | .nan _ f => !f.testBit 22
  | _ => false

/-- The value of a code (R229). -/
def Fmt.val (f : Fmt) (c : Nat) : FVal :=
  let neg := c.testBit (f.eb + f.fb)
  let e := c / 2 ^ f.fb % 2 ^ f.eb
  let m := c % 2 ^ f.fb
  if e = 2 ^ f.eb - 1 ∧ f.kind = 0 then (if m = 0 then .inf neg else .nan neg (m * 2 ^ (23 - f.fb)))
  else if f.kind = 1 ∧ c % 2 ^ (f.eb + f.fb) = 2 ^ (f.eb + f.fb) - 1 then .nan neg (m * 2 ^ (23 - f.fb))
  else if e = 0 then .num neg m (1 - (f.bias : Int) - f.fb)
  else .num neg (m + 2 ^ f.fb) ((e : Int) - f.bias - f.fb)

/-! ### NaNs and infinities (R230, R237) -/

def fNV : Nat := 16
def fDZ : Nat := 8
def fOF : Nat := 4
def fUF : Nat := 2
def fNX : Nat := 1

/-- A code and the events it raised. -/
abbrev FRes := Nat × Nat

/-- A NaN operand as a result. -/
def Fmt.nanCode (f : Fmt) (neg : Bool) (frac : Nat) : Nat :=
  match f.kind with
  | 0 => f.signBit neg + (2 ^ f.eb - 1) * 2 ^ f.fb + (frac / 2 ^ (23 - f.fb) ||| 2 ^ (f.fb - 1))
  | 1 => f.signBit neg + 0x7F
  | _ => 0

def Fmt.defaultNan (f : Fmt) : Nat := f.nanCode false 0

/-- The default NaN of E4M3 is 0x7F and that of E2M1 +0; the others have only the quiet bit set. -/
def Fmt.infCode (f : Fmt) (neg : Bool) : Nat := f.signBit neg + (2 ^ f.eb - 1) * 2 ^ f.fb

/-- What an overflow gives (R237). -/
def Fmt.overflow (f : Fmt) (rm : Nat) (sat neg : Bool) : Nat :=
  let mx := f.signBit neg + f.maxCode
  let far := rm = 0 ∨ rm = 8 ∨ (rm = 2 ∧ !neg) ∨ (rm = 3 ∧ neg)
  match f.kind with
  | 0 => if f = Fmt.e5m2 ∧ sat then mx else if far then f.infCode neg else mx
  | 1 => if sat then mx else if far then f.nanCode neg 0 else mx
  | _ => mx

/-- An infinite result in the destination format (R237). -/
def Fmt.ofInf (f : Fmt) (sat neg : Bool) : FRes :=
  let mx := f.signBit neg + f.maxCode
  match f.kind with
  | 0 => if f = Fmt.e5m2 ∧ sat then (mx, fOF + fNX) else (f.infCode neg, 0)
  | 1 => if sat then (mx, fOF + fNX) else (f.nanCode neg 0, fNV)
  | _ => (mx, fOF + fNX)

/-! ### Rounding (R236) -/

/-- m × 2^-k rounded to an integer: nearest even, toward zero, up or down by the sign (R236). A Ferle hart also rounds to nearest with ties
away from zero (8) and to odd (9) (log 13). -/
def roundShift (rm : Nat) (neg : Bool) (m k : Nat) : Nat :=
  let q := m / 2 ^ k
  let r := m % 2 ^ k
  let up : Bool :=
    match rm with
    | 0 => decide (2 * r > 2 ^ k) || (decide (2 * r = 2 ^ k) && decide (q % 2 = 1))
    | 1 => false
    | 2 => r != 0 && !neg
    | 8 => decide (2 ^ k ≤ 2 * r)
    | 9 => r != 0 && decide (q % 2 = 0)
    | _ => r != 0 && neg
  if up then q + 1 else q

/-- m × 2^e as a multiple of 2^q, rounded. -/
def quantize (rm : Nat) (neg : Bool) (m : Nat) (e q : Int) : Nat :=
  if q ≤ e then m * 2 ^ (e - q).toNat else roundShift rm neg m (q - e).toNat

/-- m × 2^e = n × 2^q exactly. -/
def sameDyadic (m : Nat) (e : Int) (n : Nat) (q : Int) : Bool :=
  if q ≤ e then m * 2 ^ (e - q).toNat == n else m == n * 2 ^ (q - e).toNat

/-- Rounds a nonzero or zero magnitude with its sign into a format (R236, R237). -/
def Fmt.round (f : Fmt) (rm : Nat) (sat neg : Bool) (m : Nat) (e : Int) : FRes :=
  if m = 0 then (f.signBit neg, 0)
  else
    let top : Int := (m.log2 : Int) + e
    let emin : Int := 1 - (f.bias : Int)
    let q := max top emin - f.fb
    let n := quantize rm neg m e q
    let exact := sameDyadic m e n q
    let code := (q - (emin - f.fb)).toNat * 2 ^ f.fb + n
    if f.maxCode < code then (f.overflow rm sat neg, fOF + fNX)
    else
      -- tininess: rounded with unbounded exponent, below the smallest normal
      let q' := top - f.fb
      let n' := quantize rm neg m e q'
      let tiny : Bool := decide (top < emin) && !(decide (n' = 2 ^ (f.fb + 1)) && decide (top + 1 = emin))
      (f.signBit neg + code, if exact then 0 else fNX + (if tiny then fUF else 0))

/-- Rounds a value that is no NaN. -/
def Fmt.ofVal (f : Fmt) (rm : Nat) (sat : Bool) : FVal → FRes
  | .nan neg fr => (f.nanCode neg fr, 0)
  | .inf neg => f.ofInf sat neg
  | .num neg m e => f.round rm sat neg m e

/-- The first NaN operand decides; else an invalid operation gives the default NaN; else the exact value is rounded. `nv` is an invalid
operation that raises NV whatever the NaN operands. -/
def Fmt.finish (f : Fmt) (rm : Nat) (sat : Bool) (ops : List FVal) (nv : Bool) (r : Option FVal) : FRes :=
  match ops.find? FVal.isNan with
  | some v => ((f.ofVal rm sat v).1, if nv || ops.any FVal.signals then fNV else 0)
  | none => match r with
    | none => (f.defaultNan, fNV)
    | some v => f.ofVal rm sat v

/-- Conversion between floating formats (R354). -/
def Fmt.convert (src dst : Fmt) (rm : Nat) (sat : Bool) (c : Nat) : FRes :=
  let v := src.val c
  dst.finish rm sat [v] false (some v)

/-! ### Exact operations on values that are no NaN -/

def FVal.neg : FVal → FVal
  | .nan n f => .nan (!n) f
  | .inf n => .inf (!n)
  | .num n m e => .num (!n) m e

/-- The exact product; none for 0 × ∞. -/
def FVal.mul : FVal → FVal → Option FVal
  | .num n m e, .num n' m' e' => some (.num (n != n') (m * m') (e + e'))
  | .inf n, .inf n' => some (.inf (n != n'))
  | .inf n, .num n' m _ => if m = 0 then none else some (.inf (n != n'))
  | .num n m _, .inf n' => if m = 0 then none else some (.inf (n != n'))
  | _, _ => none

/-- m × 2^e as a signed integer multiple of 2^b, b ≤ e. -/
def scaleInt (neg : Bool) (m : Nat) (e b : Int) : Int :=
  let x : Int := (m * 2 ^ (e - b).toNat : Nat)
  if neg then -x else x

/-- The exact sum; none for ∞ − ∞. The sign of an exact zero follows R236. -/
def FVal.add (rm : Nat) : FVal → FVal → Option FVal
  | .num n m e, .num n' m' e' =>
    let b := min e e'
    let x := scaleInt n m e b + scaleInt n' m' e' b
    if x = 0 then some (.num (if n = n' then n else rm == 3) 0 0) else some (.num (decide (x < 0)) x.natAbs b)
  | .inf n, .inf n' => if n = n' then some (.inf n) else none
  | .inf n, _ => some (.inf n)
  | _, .inf n => some (.inf n)
  | _, _ => none

/-- a < b for values that are no NaN; −0 is below +0 where `zeros`. -/
def FVal.lt (zeros : Bool) : FVal → FVal → Bool
  | .inf n, .inf n' => n && !n'
  | .inf n, _ => n
  | _, .inf n' => !n'
  | .num n m e, .num n' m' e' =>
    let b := min e e'
    let x := scaleInt n m e b
    let y := scaleInt n' m' e' b
    decide (x < y) || (zeros && decide (x = 0 ∧ y = 0) && n && !n')
  | _, _ => false

def FVal.eq (a b : FVal) : Bool := !a.isNan && !b.isNan && !a.lt false b && !b.lt false a

/-! ### Arithmetic (R345, R346, R348, R349) -/

def Fmt.add (f : Fmt) (rm : Nat) (sat : Bool) (a b : Nat) : FRes :=
  let x := f.val a
  let y := f.val b
  f.finish rm sat [x, y] false (x.add rm y)

def Fmt.sub (f : Fmt) (rm : Nat) (sat : Bool) (a b : Nat) : FRes :=
  let x := f.val a
  let y := f.val b
  f.finish rm sat [x, y] false (x.add rm y.neg)

def Fmt.mul (f : Fmt) (rm : Nat) (sat : Bool) (a b : Nat) : FRes :=
  let x := f.val a
  let y := f.val b
  f.finish rm sat [x, y] false (x.mul y)

/-- 0 × ∞, which raises NV also beside a quiet NaN (R346). -/
def badProduct (x y : FVal) : Bool := !x.isNan && !y.isNan && (x.mul y).isNone

/-- ±(a × b) ± c with one rounding: `np` negates the product, `nc` the addend. -/
def Fmt.fma (f : Fmt) (rm : Nat) (sat : Bool) (np nc : Bool) (a b c : Nat) : FRes :=
  let x := f.val a
  let y := f.val b
  let z := f.val c
  let p := (x.mul y).map fun v => if np then v.neg else v
  let z' := if nc then z.neg else z
  f.finish rm sat [x, y, z] (badProduct x y) (p.bind fun v => if nc && !np then v.add rm z' else if np then z'.add rm v else v.add rm z')

/-- The smaller or larger of two operands; −0 is below +0, equal operands give a (R345). -/
def Fmt.minmax (f : Fmt) (mx : Bool) (a b : Nat) : FRes :=
  let x := f.val a
  let y := f.val b
  if x.isNan || y.isNan then f.finish 0 false [x, y] false none
  else if mx then (if x.lt true y then b else a, 0) else (if y.lt true x then b else a, 0)

/-- |a| and −a; a NaN keeps its sign (R230, R345). -/
def Fmt.abs (f : Fmt) (a : Nat) : FRes :=
  let x := f.val a
  if x.isNan then f.finish 0 false [x] false none else (a % 2 ^ (f.eb + f.fb), 0)

def Fmt.negate (f : Fmt) (a : Nat) : FRes :=
  let x := f.val a
  if x.isNan then f.finish 0 false [x] false none else (a ^^^ 2 ^ (f.eb + f.fb), 0)

/-- a × 2^n (R348). -/
def Fmt.scale (f : Fmt) (rm : Nat) (sat : Bool) (a : Nat) (n : Int) : FRes :=
  match f.val a with
  | .nan s fr => f.finish rm sat [.nan s fr] false none
  | .inf s => (f.infCode s, 0)
  | .num s m e => f.round rm sat s m (e + n)

/-- acc × bsa × bsb + d (R244): `pair` holds bsa in bits 15:0 and bsb in bits 31:16. -/
def vscaccLane (rm : Nat) (sat : Bool) (acc pair d : Nat) : FRes :=
  let x := Fmt.f32.val acc
  let p := Fmt.bf16.val (pair % 2 ^ 16)
  let q := Fmt.bf16.val (pair / 2 ^ 16 % 2 ^ 16)
  let z := Fmt.f32.val d
  let xp := x.mul p
  let nan3 := x.isNan || p.isNan || q.isNan
  let prod := xp.bind fun v => v.mul q
  -- 0 × ∞ among the three factors
  Fmt.f32.finish rm sat [x, p, q, z] (!nan3 && prod.isNone) (prod.bind fun v => v.add rm z)

/-! ### Compares (R350) -/

/-- The truth of condition `cond` and NV. -/
def Fmt.compare (f : Fmt) (cond a b : Nat) : Bool × Nat :=
  let x := f.val a
  let y := f.val b
  let un := x.isNan || y.isNan
  let sig := if x.signals || y.signals then fNV else 0
  let any := if un then fNV else 0
  match cond with
  | 0 => (!un && x.eq y, sig)
  | 1 => (un || !x.eq y, sig)
  | 2 => (!un && x.lt false y, any)
  | 3 => (!un && !y.lt false x, any)
  | 4 => (!un && y.lt false x, any)
  | 5 => (!un && !x.lt false y, any)
  | 6 => (un, sig)
  | _ => (!un, sig)

/-! ### Integers and floating values (R238) -/

/-- A signed integer of `w` bits to a format. -/
def Fmt.ofInt (f : Fmt) (rm : Nat) (sat : Bool) (x : Int) : FRes := f.round rm sat (decide (x < 0)) x.natAbs 0

/-- Range of a signed integer of `w` bits. -/
def intMin (w : Nat) : Int := -(2 ^ (w - 1) : Int)
def intMax (w : Nat) : Int := 2 ^ (w - 1) - 1

/-- A floating code to a signed integer of `w` bits, as its low bits. -/
def Fmt.toIntLane (f : Fmt) (rm w : Nat) (c : Nat) : FRes :=
  match f.val c with
  | .nan _ _ => (0, fNV)
  | .inf neg => (wrapInt w (if neg then intMin w else intMax w), fNV)
  | .num neg m e =>
    let n := quantize rm neg m e 0
    let x : Int := if neg then -(n : Int) else n
    if x < intMin w then (wrapInt w (intMin w), fNV)
    else if intMax w < x then (wrapInt w (intMax w), fNV)
    else (wrapInt w x, if sameDyadic m e n 0 then 0 else fNX)

/-! ### Function units (R246) -/

/-- Bits of the integer square root, from bit `k - 1` down. -/
def isqrtGo (n : Nat) : Nat → Nat → Nat
  | 0, r => r
  | k + 1, r => if (r + 2 ^ k) * (r + 2 ^ k) ≤ n then isqrtGo n k (r + 2 ^ k) else isqrtGo n k r

/-- ⌊√n⌋ for n < 2^(2k). -/
def isqrt (k n : Nat) : Nat := isqrtGo n k 0

/-- 2^(b₁/2 + b₂/4 + …) × 2^P from the fraction bits of x, most significant first: `r` is the root 2^(2^-i) × 2^P. -/
def exp2Go (P fr : Nat) : Nat → Nat → Nat → Nat
  | 0, _, acc => acc
  | k + 1, r, acc =>
    let r' := isqrt (P + 1) (r * 2 ^ P)
    exp2Go P fr k r' (if fr.testBit k then acc * r' / 2 ^ P else acc)

/-- 2^(fr / 2^nb) × 2^P, 0 ≤ fr < 2^nb, to about P − log2 nb bits (log 23). -/
def exp2Frac (P fr nb : Nat) : Nat := exp2Go P fr nb (2 * 2 ^ P) (2 ^ P)

/-- Fraction bits of log2(y / 2^P), 1 ≤ y / 2^P < 2, by repeated squaring. -/
def log2Go (P : Nat) : Nat → Nat → Nat → Nat
  | 0, _, acc => acc
  | k + 1, y, acc =>
    let z := y * y / 2 ^ P
    if 2 ^ (P + 1) ≤ z then log2Go P k (z / 2) (2 * acc + 1) else log2Go P k z (2 * acc)

/-- |m × 2^e − n × 2^q| ≤ b × 2^u. -/
def nearDyadic (m : Nat) (e : Int) (n : Nat) (q : Int) (b : Nat) (u : Int) : Bool :=
  let lo := min e (min q u)
  let x := scaleInt false m e lo
  let y := scaleInt false n q lo
  decide ((x - y).natAbs ≤ b * 2 ^ (u - lo).toNat)

/-- A positive inexact FP32 result near m × 2^e: some representable value within `b` ulp, which one being free; with its flags. -/
def unitNear (fn : Nat) (operand : Nat) (b : Nat) (m : Nat) (e : Int) : FRes :=
  let fl := (Fmt.f32.round 1 false false m e).1
  let top : Int := (m.log2 : Int) + e
  let u := max top (-126) - 23
  let ok := fun c => match Fmt.f32.val c with
    | .num _ n q => decide (c ≤ Fmt.f32.maxCode) && nearDyadic m e n q b u
    | _ => false
  let cands := ((List.range 10).map (fun i => fl + i - 4)).filter ok
  let c := cands.getD (Config.unitValue fn 0 operand % cands.length) fl
  (c, fNX + (if c < 2 ^ 23 then fUF else 0))

/-- The magnitude is a power of two: its exponent. -/
def powTwo (m : Nat) (e : Int) : Option Int := if m = 2 ^ m.log2 then some ((m.log2 : Int) + e) else none

/-- The sign bit put on a positive result. -/
def signed32 (neg : Bool) (r : FRes) : FRes := (Fmt.f32.signBit neg + r.1, r.2)

/-- 1 / x (R246). -/
def unitRcp (c : Nat) : FRes :=
  match Fmt.f32.val c with
  | .nan n f => Fmt.f32.finish 0 false [.nan n f] false none
  | .inf n => (Fmt.f32.signBit n, 0)
  | .num n m e =>
    if m = 0 then (Fmt.f32.infCode n, fDZ)
    else match powTwo m e with
      | some p =>
        if p ≤ -128 then (Fmt.f32.infCode n, fOF + fNX) else Fmt.f32.round 0 false n 1 (-p)
      | none =>
        if (m.log2 : Int) + e < -128 then (Fmt.f32.infCode n, fOF + fNX)
        else signed32 n (unitNear 0 c 1 (2 ^ 200 / m) (-200 - e))

/-- 1 / √x (R246). -/
def unitRsq (c : Nat) : FRes :=
  match Fmt.f32.val c with
  | .nan n f => Fmt.f32.finish 0 false [.nan n f] false none
  | .inf n => if n then (Fmt.f32.defaultNan, fNV) else (0, 0)
  | .num n m e =>
    if m = 0 then (Fmt.f32.infCode n, fDZ)
    else if n then (Fmt.f32.defaultNan, fNV)
    else
      let m' := if e % 2 = 0 then m else 2 * m
      let e' := if e % 2 = 0 then e else e - 1
      match powTwo m' e' with
      | some p => if p % 2 = 0 then Fmt.f32.round 0 false false 1 (-(p / 2))
                  else unitNear 1 c 1 (isqrt 160 (2 ^ 300 / m')) (-150 - e' / 2)
      | none => unitNear 1 c 1 (isqrt 160 (2 ^ 300 / m')) (-150 - e' / 2)

/-- 2^x (R246). -/
def unitExp2 (c : Nat) : FRes :=
  match Fmt.f32.val c with
  | .nan n f => Fmt.f32.finish 0 false [.nan n f] false none
  | .inf n => if n then (0, 0) else (Fmt.f32.infCode false, 0)
  | .num n m e =>
    -- x = t / 2^160, exactly
    let t := scaleInt n m e (-160)
    let i := t / 2 ^ 160
    let fr := (t % 2 ^ 160).toNat
    if 128 * 2 ^ 160 ≤ t then (Fmt.f32.infCode false, fOF + fNX)
    else if t < -150 * 2 ^ 160 then (0, fUF + fNX)
    else if fr = 0 ∧ -149 ≤ i then Fmt.f32.round 0 false false 1 i
    else unitNear 2 c 2 (exp2Frac 192 fr 160) (i - 192)

/-- log2 x (R246). -/
def unitLog2 (c : Nat) : FRes :=
  match Fmt.f32.val c with
  | .nan n f => Fmt.f32.finish 0 false [.nan n f] false none
  | .inf n => if n then (Fmt.f32.defaultNan, fNV) else (Fmt.f32.infCode false, 0)
  | .num n m e =>
    if m = 0 then (Fmt.f32.infCode true, fDZ)
    else if n then (Fmt.f32.defaultNan, fNV)
    else
      let p : Int := (m.log2 : Int) + e
      match powTwo m e with
      | some q => Fmt.f32.ofInt 0 false q
      | none =>
        let y := m * 2 ^ (256 - m.log2)
        let fr := log2Go 256 120 y 0
        let x : Int := p * 2 ^ 120 + fr
        signed32 (decide (x < 0)) (unitNear 3 c 2 x.natAbs (-120))

/-- A function unit on an element of a format (R347): 0 reciprocal, 1 reciprocal square root, 2 exponential, 3 logarithm. -/
def Fmt.unit (f : Fmt) (fn rm : Nat) (sat : Bool) (a : Nat) : FRes :=
  let c := Fmt.convert f Fmt.f32 0 false a
  let r := match fn with
    | 0 => unitRcp c.1 | 1 => unitRsq c.1 | 2 => unitExp2 c.1 | _ => unitLog2 c.1
  let flags := r.2 ||| c.2
  if f = Fmt.f32 then (r.1, flags ||| (if (f.val a).signals then fNV else 0))
  else
    let d := Fmt.convert Fmt.f32 f rm sat r.1
    (d.1, flags ||| d.2)

/-! ### Reduction tree (R245) -/

/-- A code widened to FP32 with its payload and quiet bit as they are. -/
def Fmt.widenRaw (f : Fmt) (c : Nat) : Nat :=
  match f.val c with
  | .nan n fr => Fmt.f32.signBit n + 255 * 2 ^ 23 + fr
  | .inf n => Fmt.f32.infCode n
  | .num n m e => (Fmt.f32.round 0 false n m e).1

/-- One node: 0 add, 1 maximum, 2 minimum; an absent child passes the other unchanged. -/
def redNode (op rm : Nat) (a b : Option Nat × Nat) : Option Nat × Nat :=
  match a.1, b.1 with
  | some x, some y =>
    let r := match op with
      | 0 => Fmt.f32.add rm false x y
      | 1 => Fmt.f32.minmax true x y
      | _ => Fmt.f32.minmax false x y
    (some r.1, a.2 ||| b.2 ||| r.2)
  | some x, none => (some x, a.2 ||| b.2)
  | none, some y => (some y, a.2 ||| b.2)
  | none, none => (none, a.2 ||| b.2)

/-- One level: neighbours combine. -/
def redLevel {α : Type} (f : α → α → α) : List α → List α
  | a :: b :: l => f a b :: redLevel f l
  | l => l

/-- The tree over 2^k lanes. -/
def redTree {α : Type} (f : α → α → α) : Nat → List α → List α
  | 0, l => l
  | k + 1, l => redTree f k (redLevel f l)

/-- The root converted to the element type, or the identity (R245; log 24). -/
def Fmt.reduce (f : Fmt) (op rm : Nat) (sat : Bool) (lanes : List (Option Nat)) : FRes :=
  let leaves := lanes.map fun o => (o.map f.widenRaw, 0)
  let root := (redTree (redNode op rm) 7 leaves).headD (none, 0)
  let v := match root.1 with
    | some c => c
    | none => match op with | 0 => 0 | 1 => Fmt.f32.infCode true | _ => Fmt.f32.infCode false
  let d := Fmt.convert Fmt.f32 f rm sat v
  (d.1, root.2 ||| d.2)

/-! ### The matrix engine's step (R242) -/

/-- What one block adds: a NaN, an infinity or an exact m × 2^e. -/
inductive BlockVal where
  | nan
  | inf (neg : Bool)
  | fin (m : Int) (e : Int)
  deriving DecidableEq, Repr

/-- acc + v with one rounding to nearest even; a zero v is +0. -/
def blockAdd (acc : Nat) (v : BlockVal) : FRes :=
  let x := Fmt.f32.val acc
  match v with
  | .nan => if x.isNan then Fmt.f32.finish 0 false [x] false none else (Fmt.f32.defaultNan, 0)
  | .inf n => Fmt.f32.finish 0 false [x] false (x.add 0 (.inf n))
  | .fin m e => Fmt.f32.finish 0 false [x] false (x.add 0 (.num (decide (m < 0)) m.natAbs e))

end Sys2Proof.Machine
end

