-- ==== Sys2Proof/Machine/Perform.lean ====
section
/-! DEFINITION. Performing the memory operations that strands have issued: their order (R89-R95, R99), pins and window drains (R101-R104, R111),
atomics and row adds (R326-R330), delivery and retirement (R263). -/

namespace Sys2Proof.Machine

/-! ### Orderings and scopes (R86-R88) -/

def acqSide (o : Nat) : Bool := o == 1 || o == 3 || o == 4
def relSide (o : Nat) : Bool := o == 2 || o == 3 || o == 4

/-- `.grp` acts as `.pkg` on a module outside every group (R87). -/
def State.effScope (s : State) (sc : Nat) : Nat := if sc = 4 ∧ !s.inGroup then 3 else sc

/-! ### Locations (R89) -/

/-- Number of a span's first location. A window on this module names bytes of a cluster store, as space 1 does; the other places do not meet. -/
def State.loc (s : State) (p : Span) : Nat :=
  match p.place with
  | .mem | .absent => s.placed p.addr
  | .store => 2 ^ 60 + p.addr
  | .peer => 2 ^ 61 + p.addr
  | .window => if p.addr / 2 ^ 29 = s.modid then 2 ^ 60 + p.addr % 2 ^ 29 else 2 ^ 62 + p.addr
  | .dev => 2 ^ 63 + p.addr
  | .zeros => 2 ^ 64

def State.spansMeet (s : State) (p q : Span) : Bool :=
  p.place != .zeros && q.place != .zeros && decide (s.loc p < s.loc q + q.len ∧ s.loc q < s.loc p + p.len)

def MemAct.spans : MemAct → List Span
  | .load ss => ss
  | .store ss _ => ss
  | .amo _ ss _ _ _ => ss
  | .vradd ss _ _ _ => ss

def MemAct.writes : MemAct → Bool
  | .load _ => false
  | _ => true

def MemOp.spans (o : MemOp) : List Span := o.act.spans

/-- Two operations touch a common location. -/
def State.opsMeet (s : State) (o p : MemOp) : Bool := o.spans.any fun a => p.spans.any fun b => s.spansMeet a b

def MemOp.hasPlace (o : MemOp) (pl : Place) : Bool := o.spans.any fun a => a.place == pl

/-! ### Window writes (R111, R139) -/

/-- The scope a release needs to cover a window target. -/
def State.windowScope (s : State) (addr : Nat) : Nat :=
  let m := addr / 2 ^ 29
  if m = s.modid then 3
  else if s.inGroup && bitAt (s.reg 0x018) (32 + m) then 4 else 5

/-- Counted posted writes of a cluster's cores, with their core. -/
def State.windowOps (s : State) (g : Nat) : List (Nat × MemOp) :=
  (s.allCores.filter fun c => c.cluster == g).flatMap fun c => (c.ops.filter fun o => o.slot.isSome).map (c.idx, ·)

/-- No posted write of the cluster with a target in scope is outstanding before operation `uid` of a core. One that is itself a release and still
held is later than every release but its own core's (R111). -/
def State.drained (s : State) (g scope core uid : Nat) : Bool :=
  (s.windowOps g).all fun p =>
    (if p.1 = core then decide (uid ≤ p.2.uid) else !p.2.sent) || p.2.spans.all (fun a => decide (scope < s.windowScope a.addr))

/-- The same for a word or a save of the core, after all it has issued. -/
def State.drainedNow (s : State) (k scope : Nat) : Bool := s.drained (k / 8) scope k (s.coreAt k).nextUid

/-! ### Releases (R88, R92, R95) -/

/-- The widest scope at which the operation's write is a release: its own ordering's, or that of a fence before it. -/
def MemOp.relScope (o : MemOp) : Option Nat :=
  if !o.act.writes then none
  else if relSide o.ord then some (max o.scope (o.rel - 1))
  else if o.rel = 0 then none
  else some (o.rel - 1)

/-- The scope at which a write may pin: that of a release, or of an atomic or row add of any ordering (R101). -/
def MemOp.pinScope (o : MemOp) : Option Nat :=
  match o.act with
  | .load _ => none
  | .store _ _ => o.relScope
  | _ => some (max o.scope (o.rel - 1))

/-! ### Readiness -/

/-- One program order holds both: that of their strand, or in bundle mode that of the core's bundles (R89). -/
def MemOp.inOrder (o p : MemOp) : Bool := p.strand == o.strand || (p.bundle && o.bundle)

/-- The earlier operation `p` must be performed before `o` (R91, R94, R95); a token is pushed after everything the strand did before (R96).
A posted write holds up only what touches its bytes (R94). -/
def State.opAfter (s : State) (o p : MemOp) : Bool :=
  o.inOrder p && (s.opsMeet o p || (p.slot.isNone && (acqSide p.ord || relSide o.ord || o.sig.isSome)))

/-- Stamps are compared on time, then on the issuer (R99). -/
def stampLt (a b : Nat × Nat) : Bool := decide (a.1 < b.1) || (a.1 == b.1 && decide (a.2 < b.2))

/-- A scope of an operation by one core takes in another (R86). -/
def scopeHolds (scope a b : Nat) : Bool :=
  match scope with
  | 0 => a == b
  | 1 => a / 8 == b / 8
  | 2 => a / 256 == b / 256
  | _ => true

/-- A `FENCE.sc` with a smaller stamp is under way, and each of the two lies in the other's scope (R98). -/
def State.fenceBefore (s : State) (core scope : Nat) (t : Nat × Nat) : Bool :=
  s.allCores.any fun c => [c.l, c.x, c.s, c.k].any fun σ =>
    match σ.fence with
    | some (u, i, sc) => stampLt (u, i) t && scopeHolds scope core c.idx && scopeHolds sc c.idx core
    | none => false

/-- A hart's `.sc` operation with a smaller stamp waits on bytes of the spans (R99, R115). -/
def State.hartBefore (s : State) (t : Nat × Nat) (ss : List Span) : Bool :=
  s.harts.any fun h => match h.2.scWait with
    | some (u, a, n) => stampLt (u, 2048 + h.1) t && ss.any fun p =>
        s.spansMeet p { place := .mem, addr := a, len := n, grain := 0, pol := 0 }
    | none => false

/-- A `.sc` operation waits while one with a smaller stamp can still reach its location: one that has issued, or, until Quartz has passed its
stamp, one that has not (R99). One placed by the sync plane comes in that order (R100). -/
def State.scBlocked (s : State) (core : Nat) (o : MemOp) : Bool :=
  match o.stamp with
  | none => false
  | some t =>
    (t.2 != 4095 && decide (s.now ≤ t.1)) || s.fenceBefore core (s.effScope o.scope) t || s.hartBefore t o.spans ||
    s.allCores.any fun c => c.ops.any fun p =>
      match p.stamp with
      | none => false
      | some u => stampLt u t && s.opsMeet o p

/-- A broadcast store of the core that comes before the operation in program order and is not yet committed holds it up: an access to its
bytes, a release, a token (R91, R94, R96, R107). -/
def State.bstBlocks (s : State) (c : Core) (o : MemOp) : Bool :=
  (o.strand == .s || o.bundle) && c.bsts.any fun b => decide (b.uid < o.uid) &&
    (relSide o.ord || o.sig.isSome ||
      o.spans.any fun a => a.place == .mem && decide (s.placed a.addr < b.addr + b.data.length ∧ b.addr < s.placed a.addr + a.len))

/-- The request of the operation to another module is unanswered (R128). -/
def State.e2eOpen (s : State) (core uid : Nat) : Bool := s.fab.e2e.any fun e => e.core == some core && e.uid == uid

/-- A request of the operation came back to its ring station and has not been accepted since (R123). -/
def State.flitHeld (s : State) (core uid : Nat) : Bool :=
  s.fab.returned.any fun r => !r.flit.rack && r.flit.agent == core && r.flit.tag == uid % 4096

/-- The operation may be performed now. -/
def State.opReady (s : State) (c : Core) (o : MemOp) : Bool :=
  !o.grp && (c.ops.takeWhile (fun p => p.uid != o.uid)).all (fun p => !s.opAfter o p) && !s.scBlocked c.idx o &&
    !s.bstBlocks c o && (match o.relScope with | some sc => s.drained c.cluster (s.effScope sc) c.idx o.uid | none => true)

/-! ### Atomics (R326) -/

/-- The new value; none where a compare-and-swap writes nothing. -/
def AmoOp.apply (op : AmoOp) (size : Nat) (old v exp : Nat) : Option Nat :=
  let w := 8 * size
  let v := v % 2 ^ w
  match op with
  | .add => some ((old + v) % 2 ^ w)
  | .min => some (if toInt w v < toInt w old then v else old)
  | .max => some (if toInt w old < toInt w v then v else old)
  | .minu => some (Nat.min old v)
  | .maxu => some (Nat.max old v)
  | .and => some (old &&& v)
  | .or => some (old ||| v)
  | .xor => some (old ^^^ v)
  | .swp => some v
  | .cas => if old = exp % 2 ^ w then some v else none

/-! ### Row adds (R330) -/

/-- One element: memory, addend; overflow goes to infinity or, saturating, to the largest finite value. -/
def rowElement (f : Fmt) (sat : Bool) (x y : Nat) : Nat :=
  let r := f.add 0 false x y
  if sat && r.2 &&& fOF != 0 then f.signBit (r.1.testBit (f.eb + f.fb)) + f.maxCode else r.1

def rowAdd (f : Fmt) (sat : Bool) (es : Nat) : Nat → List Byte → List Byte → List Byte
  | 0, _, _ => []
  | n + 1, m, r =>
    natBytes es (rowElement f sat (bytesNat (m.take es)) (bytesNat (r.take es))) ++ rowAdd f sat es n (m.drop es) (r.drop es)

/-! ### Delivery and retirement (R263) -/

/-- Lands entries pushed by a memory operation, oldest first. -/
def landLoad (uid : Nat) : List Entry → List FEntry → List FEntry
  | _, [] => []
  | [], q => q
  | e :: es, f :: fs =>
    if f.src = uid ∧ f.due = 0 ∧ !f.landed then { f with data := e, landed := true } :: landLoad uid es fs
    else f :: landLoad uid (e :: es) fs

/-- The element repeated through an entry's lanes. -/
def bcastEntry (size : Nat) (bs : List Byte) : Entry :=
  entryOf ((List.replicate (128 / size) (bs.take size)).flatten)

def chunkEntries : Nat → List Byte → List Entry
  | 0, _ => []
  | n + 1, bs => entryOf (bs.take 128) :: chunkEntries n (bs.drop 128)

/-- The value a register takes from the bytes of a load. -/
def loadValue (size : Nat) (signed : Bool) (bs : List Byte) : Word :=
  if signed then sextNat (8 * size) (bytesNat (bs.take size)) else BitVec.ofNat 64 (bytesNat (bs.take size))

/-- Writes what a load returned. -/
def Core.deliver (c : Core) (o : MemOp) (bs : List Byte) : Core :=
  match o.dest with
  | .none => c
  | .reg key size signed => c.setStrand o.strand ((c.strand o.strand).setKey key (loadValue size signed bs))
  | .queue code n => c.setQueue code (landLoad o.uid (chunkEntries n bs) (c.queue code))
  | .bcast code size => c.setQueue code (landLoad o.uid [bcastEntry size bs] (c.queue code))

/-- The operation retires: it leaves the list and its token is pushed. -/
def Core.retire (c : Core) (o : MemOp) : Core :=
  let c := { c with ops := c.ops.filter (fun p => p.uid != o.uid) }
  match o.sig with
  | some p => c.pushReserved p
  | none => c

/-! ### Sequentially consistent values (R99) -/

/-- Locations of a span. -/
def State.locs (s : State) (p : Span) : List Nat := (List.range p.len).map (s.loc p + ·)

/-- The latest stamp among `.sc` writes whose values some spans hold. -/
def State.scStamp (s : State) (ss : List Span) : Nat :=
  if s.coh.scWrites.isEmpty then 0
  else ((ss.flatMap s.locs).filterMap fun l => (s.coh.scWrites.find? fun q => q.1 == l).map (·.2)).foldl max 0

/-- A `.sc` read raises `sc_last` to the stamp of the write it returned. -/
def State.scRead (s : State) (core : Nat) (o : MemOp) : State :=
  if o.ord = 4 then
    let t := s.scStamp o.spans
    if t = 0 then s else s.modCore core fun c => { c with scLast := max c.scLast t }
  else s

/-- The bytes of spans now hold a `.sc` write's values; any write before took the old marks away. -/
def State.scMark (s : State) (stamp : Option (Nat × Nat)) (ss : List Span) : State :=
  match stamp with
  | none => s
  | some t => s.modCoh fun c => { c with scWrites := (ss.flatMap s.locs).map (·, t.1) ++ c.scWrites }

def State.scWrote (s : State) (o : MemOp) : State := s.scMark o.stamp o.spans

/-! ### Performing -/

/-- What comes of trying to perform an operation. -/
inductive Perf where
  /-- It must wait. -/
  | wait (s : State)
  | done (s : State)
  /-- The context ends: code and value. -/
  | dead (s : State) (code : Nat) (val : Word)
  deriving DecidableEq, Repr

/-- A home agent or cluster that the operation needs is fenced (R465). -/
def State.spansFenced (s : State) (ss : List Span) : Bool :=
  ss.any fun p => p.place == .mem && s.ras.fenced.contains (1, s.homeAgent p.addr)

/-- The bytes of the spans that lie on this module. -/
def localParts : List Span → List Byte → List Byte
  | [], _ => []
  | p :: ps, bs => (if p.place != .peer then bs.take p.len else []) ++ localParts ps (bs.drop p.len)

/-- Every span of another module has been answered. -/
def MemOp.answered (o : MemOp) : Bool := (o.spans.zipIdx).all fun p => p.1.place != .peer || ahas p.2 o.got

/-- The release of an operation widens its core's pins before its own write (R102). -/
def State.releaseAt (s : State) (core : Nat) (o : MemOp) (scope : Nat) : State :=
  if o.relScope.isSome then s.widenPins core (s.effScope scope) else s

def State.releaseOf (s : State) (core : Nat) (o : MemOp) : State :=
  match o.relScope with
  | some sc => s.releaseAt core o sc
  | none => s

/-- The requester of an operation. -/
def Core.whoOf (c : Core) (o : MemOp) : Who := c.who.as (.op c.idx o.uid)

/-- Writes what an operation was granted to write: at a wider scope while no pin is free, its pins widened first, then made (R101, R102, R104).
None where a window of the wider scope is not drained (R111). -/
def State.writeAs (s : State) (c : Core) (o : MemOp) (rss : List (List Run)) (bs : List Byte) : Option State :=
  let w := c.whoOf o
  match o.pinScope with
  | none => some ((s.writeGranted w.ctx o.spans rss bs).scWrote o)
  | some sc =>
    let sc' := s.pinnedScope w (s.effScope sc) rss
    if o.relScope.isSome && !s.drained c.cluster (s.effScope sc') c.idx o.uid then none
    else some ((((s.releaseAt c.idx o sc').writeGranted w.ctx o.spans rss bs).pinWrites w sc' rss).scWrote o)

/-- Lets the log point of an atomic on memory decide whether it is performed now (R454). -/
def State.logged (s : State) (c : Core) (o : MemOp) : Option State × State :=
  match o.spans with
  | p :: _ => if p.place = .mem then s.logAdmit c.view.ctx p.addr c.idx c.idx o.uid else (some s, s)
  | [] => (some s, s)

/-- Reads, combines and writes under one request for ownership; the bytes returned are the old ones. A log point decides first (R454). -/
def State.readModifyWrite (s : State) (c : Core) (o : MemOp) (f : List Byte → Option (List Byte)) : Perf :=
  match s.logged c o with
  | (none, s') => .wait s'
  | (some s1, _) =>
    match s1.requestSpans (c.whoOf o) true o.spans with
    | .error pa => .wait (s.enqueue (c.whoOf o) pa)
    | .ok (s2, rss) =>
      let r := (s2.dequeue (c.whoOf o).asker).readGranted c.view.ctx o.got 0 o.spans rss
      if r.2.2 then .dead r.1 0x84 o.ha
      else
        let end_ := fun (t : State) => t.modCore c.idx fun c => (c.deliver o r.2.1).retire o
        match f r.2.1 with
        | none => .done (end_ ((r.1.releaseOf c.idx o).scRead c.idx o))
        | some new => match (r.1.scRead c.idx o).writeAs c o rss new with
          | none => .wait s
          | some t => .done (end_ t)

/-- A load: every unit is granted, then the bytes are read at once. -/
def State.performLoad (s : State) (c : Core) (o : MemOp) : Perf :=
  if !o.answered then .wait s
  else match s.requestSpans (c.whoOf o) false o.spans with
    | .error pa => .wait (s.enqueue (c.whoOf o) pa)
    | .ok (s1, rss) =>
      let r := (s1.dequeue (c.whoOf o).asker).readGranted c.view.ctx o.got 0 o.spans rss
      if r.2.2 then .dead r.1 0x84 o.ha
      else .done ((r.1.scRead c.idx o).modCore c.idx fun c => (c.deliver o r.2.1).retire o)

/-- A store: the part on this module is written, and the parts on others have been acknowledged. -/
def State.performStore (s : State) (c : Core) (o : MemOp) (data : List Byte) : Perf :=
  if o.hasPlace .peer && s.e2eOpen c.idx o.uid then .wait s
  else match s.requestSpans (c.whoOf o) true o.spans with
    | .error pa => .wait (s.enqueue (c.whoOf o) pa)
    | .ok (s1, rss) => match (s1.dequeue (c.whoOf o).asker).writeAs c o rss data with
      | none => .wait s
      | some t => .done (t.modCore c.idx fun c => c.retire o)

def vraddFmt (es : Nat) : Fmt := if es = 2 then .bf16 else .f32

/-- Performs an issued operation of core `k` if its order lets it; one that names other modules must have been sent and answered. -/
def State.perform (s : State) (k uid : Nat) : Perf :=
  let c := s.coreAt k
  match c.ops.find? (fun o => o.uid == uid) with
  | none => .wait s
  | some o =>
    if o.slot.isSome || (!o.sent && (o.hasPlace .peer || !s.opReady c o)) || s.notYet (.op k uid) || s.flitHeld k uid then .wait s
    else if s.spansFenced o.spans then .dead s 0x84 o.ha
    else match o.act with
      | .load _ => s.performLoad c o
      | .store _ data => s.performStore c o data
      | .amo op _ size v exp =>
        if o.hasPlace .peer then
          if ahas 0 o.got then .done (s.modCore k fun c => (c.deliver o (aget [] 0 o.got)).retire o) else .wait s
        else s.readModifyWrite c o fun bs => (op.apply size (bytesNat bs) v.toNat exp.toNat).map (natBytes size)
      | .vradd _ es row sat =>
        if o.hasPlace .peer then
          if s.e2eOpen k uid then .wait s else .done (s.modCore k fun c => c.retire o)
        else s.readModifyWrite c o fun bs => some (rowAdd (vraddFmt es) sat es (row.length / es) bs row)

/-- Performs every operation of core `k` that can be, in issue order: the state after, and whether none is left that holds a landing back. A
fatal error ends the walk. -/
def State.drainOps (s : State) (k : Nat) : Nat → List Nat → State × Option (Nat × Word)
  | 0, _ => (s, none)
  | _, [] => (s, none)
  | f + 1, u :: us =>
    match s.perform k u with
    | .done s' => s'.drainOps k f us
    | .wait s' => s'.drainOps k f us
    | .dead s' code val => (s', some (code, val))

/-- One pass over the core's operations. -/
def State.drainCore (s : State) (k : Nat) : State × Option (Nat × Word) :=
  let us := (s.coreAt k).ops.map (·.uid)
  s.drainOps k us.length us

end Sys2Proof.Machine
end

