-- ==== Sys2Proof/Machine/Ops.lean ====
section
/-! DEFINITION. Issuing a word: traps and how they are taken (R416-R420), fatal errors and watchpoints, completion, loop end tests (R291), marked
words (R293), and the program counter. -/

namespace Sys2Proof.Machine

/-! ### Taking a trap (R416) -/

/-- A `TPC` word: the address with a mode bit (R420). -/
def tpcWord (pc : Word) (b : Bool) : Word := (pc &&& ~~~(3 : Word)) ||| boolWord b

/-- `TCAUSE` of a cause (R420). -/
def causeWord (σ : StrandId) (cause detail : Nat) : Word := mkWord [(σ.num, 18), (detail % 1024, 8), (cause % 256, 0)]

def Core.bank (c : Core) (n : Nat) : Bank := if n = 1 then c.bank1 else c.bank2

def Core.setBank (c : Core) (n : Nat) (b : Bank) : Core := if n = 1 then { c with bank1 := b } else { c with bank2 := b }

/-- The registers a trap saves. -/
def Core.trapBank (c : Core) (σ : StrandId) (cause detail : Nat) (val : Word) : Bank :=
  { cause := causeWord σ cause detail, val := val
    pcl := tpcWord c.l.pc c.l.parked, pcx := tpcWord c.x.pc c.x.parked, pcs := tpcWord c.s.pc c.s.parked
    pck := tpcWord c.k.pc c.split, stage := if c.k.wait = stranded then 32 else c.k.stage }

/-- The core after trap entry: the next level's registers hold the cause, the value and the addresses, and K stands at `TVEC`. -/
def Core.enterTrap (c : Core) (σ : StrandId) (cause detail : Nat) (val : Word) : Core :=
  let n := c.tl + 1
  { (c.setBank n (c.trapBank σ cause detail val)) with
    tl := n, k := { c.k with pc := c.tvec, stage := 0, wait := 0 } }

/-- A trap can be taken: `TL` < 2 and `TVEC` is not null (R416, R419). -/
def Core.trapOpen (c : Core) : Bool := decide (c.tl < 2) && bitsAt c.tvec 52 12 != 0

/-- Takes a trap on a core whose issued instructions have landed, or ends the context with `TL2FAULT` (R419). -/
def State.takeTrap (s : State) (σ : StrandId) (cause detail : Nat) (val : Word) : State :=
  if s.core.trapOpen then
    let s := { s with core := s.core.enterTrap σ cause detail val }
    s.trace s.core 3 σ.num s.core.tl (causeWord σ cause detail) val
  else s.fatalError s.ctx (.strand s.core.idx σ) 0x86 val (causeWord σ cause detail).toNat

/-- Every issued instruction of L, X and S has landed; posted window writes have retired at issue (R263). -/
def Core.landed (c : Core) : Bool := c.ops.all fun o => o.strand == .k || o.slot.isSome

/-- Wait code of a strand whose trap waits for issued instructions to land; no strand of its core issues meanwhile. -/
def landing : Nat := 17

/-- Stops issue, lands what was issued and takes the trap; while something has not landed the strand stays at its word. -/
def State.trapStop (s : State) (σ : StrandId) (cause detail : Nat) (val : Word) : State :=
  let s := s.landCore s.core.idx Core.landAll
  match s.drainCore s.core.idx with
  | (s', some (code, v)) => s'.fatalError s'.ctx (.strand s'.core.idx σ) code v 0
  | (s', none) =>
    if s'.core.landed then (s'.modStrand σ fun t => { t with wait := 0 }).takeTrap σ cause detail val
    else s'.modStrand σ fun t => { t with wait := landing }

/-- Another strand of the core is landing for a trap. -/
def State.otherLanding (s : State) : Bool := allStrands.any fun σ => σ != s.cur && (s.strand σ).wait == landing

/-- A watchpoint stops an access before it has any effect (R446). -/
def State.watchStop (s : State) (n : Nat) (a : Word) : State :=
  let s := s.trace s.core 7 s.cur.num n a 0
  if bitAt (s.reg (debugBase s.core.cluster)) 51 then
    ({ s with core := { s.core with watchSkip := (s.cur, s.me.pc) :: s.core.watchSkip } }).haltCluster s.core.cluster 3
  else s.trapStop s.cur 0x0E 0 a

/-! ### Loop end tests (R291) -/

/-- Inserts a level index by descending body start. -/
def insLevel (ls : List Loop) (i : Nat) : List Nat → List Nat
  | [] => [i]
  | j :: js => if (ls.getD j Loop.reset).beg.toNat ≤ (ls.getD i Loop.reset).beg.toNat then i :: j :: js else j :: insLevel ls i js

/-- Active levels of a strand, innermost first. -/
def Strand.activeLevels (t : Strand) : List Nat :=
  ((List.range 6).filter fun i => (t.loops.getD i Loop.reset).active).foldl (fun l i => insLevel t.loops i l) []

/-- The sequencer that tests at the executing word: K's in bundle mode. -/
def State.seqStrand (s : State) : StrandId := if s.wordMode then s.cur else .k

/-- Levels that end at the executing word, innermost first; none in a handler (R295). -/
def State.endLevels (s : State) : List Nat :=
  if s.core.tl ≠ 0 then []
  else (s.strand s.seqStrand).activeLevels.filter fun i => ((s.strand s.seqStrand).loops.getD i Loop.reset).fin == s.here

/-- A step register is still to be written by an earlier word (R277, R291). -/
def State.stepsBusy (s : State) : Bool :=
  s.endLevels.any fun i => ((s.strand s.seqStrand).loops.getD i Loop.reset).slots.any fun p =>
    p.reg != 0 && s.core.busyKey p.strand ((s.strand p.strand).key p.reg.toNat)

/-- Applies the steps of a level. -/
def State.applySteps (s : State) (slots : List StepSlot) : State :=
  slots.foldl (fun s p => s.modStrand p.strand fun t => t.set p.reg (t.get p.reg + p.stride)) s

def State.modLevel (s : State) (σ : StrandId) (i : Nat) (f : Loop → Loop) : State :=
  s.modStrand σ fun t => { t with loops := t.loops.set i (f (t.loops.getD i Loop.reset)) }

/-- The tests of the levels that end here; `next` is where execution goes if none of them repeats. -/
def State.loopTests (s : State) (σ : StrandId) (unit : Nat) : List Nat → Word → State × Word
  | [], next => (s, next)
  | i :: is, _ =>
    let l := (s.strand σ).loops.getD i Loop.reset
    let s := (s.modLevel σ i fun l => { l with done := l.done + 1 }).applySteps l.slots
    if (l.done + 1).toNat < l.cnt.toNat then (s, l.beg)
    else (s.modLevel σ i fun l => { l with active := false }).loopTests σ unit is (l.fin + BitVec.ofNat 64 unit)

/-! ### Completion -/

/-- Stage of a word that has had its effects and waits for a step register (R291). -/
def tested : Nat := 64

/-- Counts an issue of X (R258). -/
def State.countIssue (s : State) : State :=
  if s.cur = .x ∨ !s.wordMode then { s with core := { s.core with xIssue := s.core.xIssue + 1 } } else s

/-- Results due before X's next issue land (R258). -/
def State.landForIssue (s : State) : State :=
  if s.cur = .x ∨ !s.wordMode then s.landCore s.core.idx (fun c => c.landDue c.xIssue) else s

/-- Runs the end tests and moves to the next word, or to `next` where the word transfers control. -/
def State.advance (s : State) (next : Word) : State :=
  let r := s.loopTests s.seqStrand s.unit s.endLevels next
  (r.1.modMe fun t => { t with stage := 0, wait := 0 }).goto r.2

/-- The word or bundle here has issued: what it held of `watchSkip` goes (R446). -/
def State.watchDone (s : State) : State :=
  { s with core := { s.core with
    watchSkip := s.core.watchSkip.filter fun e => if s.wordMode then e != (s.cur, s.me.pc) else (s.strand e.1).pc != e.2 } }

/-- A word completes. -/
def State.complete (s : State) (next : Word) : State :=
  let s := s.watchDone.countIssue
  if s.stepsBusy then s.modMe fun t => { t with stage := tested, wait := outside } else s.advance next

/-! ### Issue -/

/-- The word as `TVAL` of `ILLEGAL` and `PRIV` gives it: its slot in bits 33:32 in bundle mode (R422). -/
def State.wordVal (s : State) (i : Instr) : Word :=
  BitVec.ofNat 64 (((encode i).getD 0).toNat + (if s.wordMode then 0 else s.cur.num * 2 ^ 32))

/-- Uses of a bundle slot that R188 forbids. -/
def bundleForbids (i : Instr) (σ : StrandId) : Bool :=
  match i with
  | .join _ => true
  | .beq _ _ _ | .bne _ _ _ | .blt _ _ _ | .bge _ _ _ | .bltu _ _ _ | .bgeu _ _ _ | .j _ | .jal _ | .call _ _ | .jr _
  | .callr _ _ | .ret | .loop _ _ _ | .loopi _ _ _ | .lbreak _ | .fork _ _ _ => σ != .k
  | _ => false

/-- The word is one that K may issue freely while a job is open (R368). -/
def jobWord (i : Instr) : Bool :=
  match i with
  | .jcmd _ _ _ _ | .jend _ _ => true
  | _ => false

/-- Counts a word of K against the 64 that an open job of its level admits; the 65th is `ILLEGAL` (R368). -/
def State.countOpen (s : State) (i : Instr) : Except Stop State :=
  match s.core.openJob with
  | none => .ok s
  | some j =>
    if s.cur ≠ .k ∨ jobWord i ∨ j.level ≠ s.core.tl ∨ s.me.stage ≠ 0 then .ok s
    else if 64 ≤ j.issued then illegal
    else .ok { s with core := { s.core with openJob := some { j with issued := j.issued + 1 } } }

/-- A word with checks 1-3 of R271 that hold for every word, and the slots that R188 forbids it. -/
def slotChecked (i : Instr) (sem : Sem) : Sem := fun s => do
  illegalIf (!(i.issuedBy s.cur && i.fieldsOk))
  illegalIf (!s.wordMode && bundleForbids i s.cur)
  let s ← s.countOpen i
  sem s

/-- A transfer to an address that bundle mode does not admit (R188). -/
def Done.odd (s : State) : Done → Bool
  | .jump _ a => !s.wordMode && bitsAt a 0 4 != 0
  | _ => false

/-- A word with every check of R271 that holds for all words, and R188. -/
def checked (i : Instr) (sem : Sem) : Sem := fun s => do
  let d ← slotChecked i sem s
  illegalIf (d.odd s)
  .ok d

/-- What stops a word, as a step. -/
def State.stop (s : State) (i : Instr) : Stop → Host.Outcome State Fault Refusal
  | .wait code => .next (s.modMe fun t => { t with wait := code })
  | .trap cause detail val => .next (s.trapStop s.cur cause detail (if cause = 1 ∨ cause = 2 then s.wordVal i else val))
  | .fatal code val => .next (s.fatalError s.ctx (.strand s.core.idx s.cur) code val 0)
  | .watch n a => .next (s.watchStop n a)

/-- What a word that issues leaves. -/
def State.done : Done → State
  | .next s => s.complete s.pcNext
  | .jump s a => s.complete a
  | .hold s code => s.modMe fun t => { t with stage := max 1 t.stage, wait := code }
  | .raise s cause detail val =>
    let s' := s.landCore s.core.idx Core.landAll
    match s'.drainCore s'.core.idx with
    | (s', some (code, v)) => s'.fatalError s'.ctx (.strand s'.core.idx s'.cur) code v 0
    | (s', none) =>
      if s'.core.landed then (s'.complete s'.pcNext).takeTrap s.cur cause detail val
      else s'.modMe fun t => { t with wait := landing }
  | .at_ s => s

/-- Issues a word of the current strand: in bundle mode, a bundle whose other slots are `NOP`. -/
def issue (i : Instr) (sem : Sem) (s : State) : Host.Outcome State Fault Refusal :=
  if s.me.stage = tested then
    .next (if s.stepsBusy then s else s.advance s.pcNext)
  else
    let s := s.landForIssue
    match checked i sem s with
    | .ok d => .next (State.done d)
    | .error e => s.stop i e

/-! ### Marked words (R293) -/

/-- The marker a code word is, with the executing strand's decoding: first (true) or last, count and level. -/
def markOf (σ : StrandId) (w : IWord) : Option (Bool × Nat × Nat) :=
  match decodeWord σ w with
  | .ok (.lfirst n k) => some (true, n.toNat, k.toNat)
  | .ok (.llast n k) => some (false, n.toNat, k.toNat)
  | _ => none

/-- The sequencer's word at an address: K's slot in bundle mode. -/
def State.seqWord (s : State) (a : Word) : Option IWord :=
  match s.codeWord (if s.wordMode then a else a + 12) with
  | .ok w => some w
  | .error _ => none

/-- The word at distance `d` before this one marks it, and its level is not in the iteration it names. -/
def State.markedOut (s : State) (lo : Nat) (d : Nat) : Bool :=
  let a := s.here - BitVec.ofNat 64 (d * s.unit)
  if a.toNat < lo ∨ s.here.toNat < d * s.unit then false
  else match (s.seqWord a).bind (markOf s.seqStrand) with
    | some (first, n, k) =>
      let l := (s.strand s.seqStrand).loops.getD k Loop.reset
      decide (d ≤ n) && l.active && (if first then l.done != 0 else decide ((l.done + 1).toNat < l.cnt.toNat))
    | none => false

/-- The innermost active level where the word here lies in its body, with the lowest address of a body it lies in. -/
def State.bodyHere (s : State) : Option (Loop × Nat) :=
  if s.core.tl ≠ 0 then none
  else match (s.strand s.seqStrand).activeLevels with
    | [] => none
    | i :: is =>
      let ls := (s.strand s.seqStrand).loops
      let inner := ls.getD i Loop.reset
      if inner.beg.toNat ≤ s.here.toNat ∧ s.here.toNat ≤ inner.fin.toNat then
        some (inner, ((i :: is).map fun j => (ls.getD j Loop.reset).beg.toNat).foldl min inner.beg.toNat)
      else none

/-- The sequencer's word here is a marker past the first iteration of the innermost level: it takes no issue slot (R293, log 8). -/
def State.spentMarker (s : State) : Bool :=
  match s.bodyHere with
  | none => false
  | some (inner, _) => inner.done != 0 && ((s.seqWord s.here).bind (markOf s.seqStrand)).isSome

/-- The word or bundle here does not issue in this iteration: it is marked out, or in word mode it is a spent marker. In a bundle a spent marker
leaves the other slots. -/
def State.skips (s : State) : Bool :=
  match s.bodyHere with
  | none => false
  | some (_, lo) => (s.wordMode && s.spentMarker) || (List.range 31).any fun d => s.markedOut lo (d + 1)

/-- Passes over a word that does not issue; the end test still runs. -/
def State.skip (s : State) : State := if s.stepsBusy then s else s.advance s.pcNext

end Sys2Proof.Machine
end

