-- ==== Sys2Proof/Machine/Send.lean ====
section
/-! DEFINITION. Requests that leave a core: memory operations, peer requests with their end-to-end sequence (R128), posted window writes
(R139-R140), sync messages and bursts (R146, R148), and broadcast stores through the module's own windows (R149). -/

namespace Sys2Proof.Machine

/-! ### The rack ring (R124, R125, R135) -/

/-- Members of the rack ring in ascending order. -/
def State.rack (s : State) : List Nat := (List.range 32).filter fun m => bitAt (s.reg 0x010) m

/-- Hops clockwise from one member to another; one that is no member counts as the lowest (log 48). -/
def hopsCw (ms : List Nat) (a b : Nat) : Nat :=
  let i := (ms.findIdx? (· == a)).getD 0
  let j := (ms.findIdx? (· == b)).getD 0
  (j + ms.length - i) % max 1 ms.length

/-- All 28 lane groups of a bundle are DOWN, at the end that this module has: sender for the out bundles 0 and 2, receiver for 1 and 3. -/
def State.bundleCut (s : State) (u : Nat) : Bool :=
  (List.range 28).all fun g =>
    match s.fab.lanes.find? fun l => l.lg == 28 * u + g with
    | some l => if u % 2 = 0 then l.tx == .down else l.rx == .down
    | none => false

/-- A message between two members travels clockwise: fewer hops, clockwise on a tie; away from a hop that is cut at this module (R125, R135;
a cut elsewhere is not known here, log 48). -/
def State.goesCw (s : State) (a b : Nat) : Bool :=
  let cut := fun (out in_ : Nat) => (a == s.modid && s.bundleCut out) || (b == s.modid && s.bundleCut in_)
  if cut 0 1 != cut 2 3 then cut 2 3 else decide (2 * hopsCw s.rack a b ≤ s.rack.length)

/-- Bridge station by which this module reaches a member, or is reached from it: 0 or 1. -/
def State.bridgeTo (s : State) (dst : Nat) : Nat := if s.goesCw s.modid dst then 0 else 1
def State.bridgeFrom (s : State) (src : Nat) : Nat := if s.goesCw src s.modid then 0 else 1

/-- Flits wait for the out bundle of a direction, from a cycle on (R125). -/
def State.rackSend (s : State) (cw : Bool) (delay : Nat) (fs : List Flit) : State :=
  { s with fab := { s.fab with waiting := s.fab.waiting ++ fs.map fun f => (if cw then 0 else 2, s.now + delay, f) } }

/-- The flits of a message: 128 bytes each, the last marked (R120, R121). -/
def cutFlits (f : Flit) (body : List Byte) : List Flit :=
  let n := max 1 ((body.length + 127) / 128)
  (List.range n).map fun i =>
    let d := (body.drop (128 * i)).take 128
    { f with idx := i, last := i + 1 == n, data := d ++ List.replicate (128 - d.length) 0 }

/-! ### End-to-end requests (R128) -/

/-- The header of a named-tile message (R165). -/
def agHeader (m : AgMsg) : List Word :=
  [BitVec.ofNat 64 m.name,
   mkWord [(b2n m.hit, 52), (m.ostn % 16, 48), (m.omod % 32, 43), (m.size % 1024, 33), (b2n m.relaxed, 32), (m.name / 2 ^ 64 % 2 ^ 32, 0)],
   BitVec.ofNat 64 (m.exp % 2 ^ 48), BitVec.ofNat 64 (m.segoff % 2 ^ 16)]

/-- `KIND` of a request's flits (R120). -/
def peerCode : PeerKind → Nat
  | .read _ => 1 | .write _ => 2 | .atomic _ _ _ _ => 2 | .rowAdd _ _ _ => 2 | .window _ => 8 | .interest _ _ => 7 | .publish _ _ => 7

/-- `ADDR` of a request's flits: the peer address; `AKIND` of a named-tile message (R165); of a window write its target, slot and sequence
(the packing is the model's, log 48). -/
def peerField (p : PeerReq) : Nat :=
  match p.kind with
  | .interest k _ | .publish k _ => k * 2 ^ 48
  | .window w => (w.clu * 2 ^ 21 + w.off) + w.slot * 2 ^ 29 + w.seq * 2 ^ 33
  | _ => p.addr

/-- The bytes a request carries; where R120 and R165 give no layout, the model's (log 48). -/
def peerBody : PeerKind → List Byte
  | .read n => natBytes 8 n
  | .write d => d
  | .atomic op size v e => natBytes 8 op ++ natBytes 8 size ++ wordBytes v ++ wordBytes e
  | .rowAdd es sat row => natBytes 8 es ++ natBytes 8 (b2n sat) ++ row
  | .window w => w.data
  | .interest _ m | .publish _ m => wordsBytes (agHeader m) ++ List.replicate 96 0 ++ m.data

/-- The flits of a protected request, numbered in `E2E` and tagged with that number. -/
def State.peerFlits (s : State) (e : E2eReq) : List Flit :=
  let st := 8 + s.bridgeTo e.dst
  cutFlits
    { kind := peerCode e.req.kind, dst := st, src := st, cw := st == 8, rsv := false, rfs := false, last := true, idx := 0, ctx := e.ctx
      agent := e.agent, tag := e.sq % 4096, e2e := e.sq, addr := peerField e.req, data := [], rack := true, dmod := e.dst, smod := s.modid }
    (peerBody e.req.kind)

/-- Puts a protected request on the rack ring; one for a module off the ring goes nowhere, and is given up (R125). -/
def State.e2eEmit (s : State) (e : E2eReq) : State :=
  if s.rack.contains e.dst then s.rackSend (s.goesCw s.modid e.dst) 0 (s.peerFlits e) else s

/-- Sends a protected request to another module; its number comes from the pair's 24-bit counter. -/
def State.e2eSend (s : State) (dst : Nat) (req : PeerReq) (agent : Nat) (core : Option Nat) (uid ctx : Nat) : State :=
  let sq := aget 0 dst s.fab.e2eNext
  let e : E2eReq := { dst := dst, sq := sq, req := req, agent := agent, core := core, uid := uid, ctx := ctx, sends := 1, sentAt := s.now }
  { s with fab := { s.fab with e2e := s.fab.e2e ++ [e], e2eNext := aset dst ((sq + 1) % 2 ^ 24) s.fab.e2eNext } }.e2eEmit e

/-! ### Sync messages (R146) -/

def syncCrc (ws : List Word) : Word := BitVec.ofNat 64 (crc32c (wordsBytes ws))

/-- The fixed words of a message before it is numbered: kind, context, length, plane, operation, burst; group address; payload; core and detail. -/
def State.syncWords (s : State) (kind ctx len plane op burst gaddr : Nat) (pay : Word × Word) (core detail : Nat) : List Word :=
  [mkWord [(kind, 60), (s.modid, 55), (ctx, 49), (len, 44), (plane, 40), (op, 32), (burst, 16)], 0, 0,
   BitVec.ofNat 64 gaddr, pay.1, pay.2, mkWord [(core, 53), (detail % 2 ^ 53, 0)], 0]

/-- Queues a message for the member's next sync tenure. -/
def State.syncQueue (s : State) (ws : List Word) : State := { s with zg := { s.zg with outbox := s.zg.outbox ++ [ws] } }

/-- Queues a burst for its plane and its commit marker; the marker is sent once the burst is (R148). -/
def State.queueBurst (s : State) (b : Burst) (marker : List Word) : State :=
  { s with zg := { s.zg with
      outBursts := s.zg.outBursts ++ [b], outbox := s.zg.outbox ++ [marker]
      burstId := aset b.plane ((b.burst + 1) % 2 ^ 16) s.zg.burstId } }

/-- A kind-3 message of the executing strand (R329). -/
def State.syncSc (s : State) (op uid : Nat) : State :=
  s.syncQueue (s.syncWords 3 s.ctx 0 0 op 0 0 (0, 0) s.core.idx ((s.cur.num * 2 ^ 12 + uid % 4096) * 2 ^ 39))

/-! ### Group windows (R149) -/

/-- Where a group address lies on this module for a write of `n` bytes, with the local context; none counts in `GWMISS`. -/
def State.gwin (s : State) (ga n : Nat) : Option (Nat × Nat) :=
  let id := ga / 2 ^ 48 % 256
  let off := ga % 2 ^ 48
  if 64 ≤ id then none
  else
    let r := s.reg (0x200 + 8 * id)
    let base := bitsAt r 21 36 * 2 ^ 16
    if bitAt r 63 && decide (region base ≤ 1 ∧ off + n ≤ 65536 * bitsAt r 1 20) && physOk (base + off) then
      some (base + off, bitsAt r 57 6)
    else none

/-- The hub as a requester under a context; it takes no place in a queue (log 22). -/
def hubWho (ctx : Nat) : Who := { agent := 17, clu := none, core := none, ctx := ctx, die := 8, asker := none }

/-- Another module as a requester under a context: it lies outside every pin (R75, R101). -/
def outerWho (ctx : Nat) : Who := { hubWho ctx with agent := 18 }

/-- Bytes of memory named by a physical address and written past the caches. -/
def rawSpan (pa n : Nat) : Span := { place := .mem, addr := pa, len := n, grain := 2, pol := 2 }

/-- Performs a group write of module `src` on this module, as an uncached write: none where it waits (R66, R149). -/
def State.groupWrite (s : State) (src ga : Nat) (bs : List Byte) : Option State :=
  match s.gwin ga bs.length with
  | none => some (s.count 0x098)
  | some (pa, ctx) =>
    match s.writeSpans (if src = s.modid then hubWho ctx else outerWho ctx) [rawSpan pa bs.length] bs with
    | .error _ => none
    | .ok s => some s

/-! ### Posted window writes (R139, R140) -/

def owaReg (g slot : Nat) : Nat := clusterBase g + 0x080 + 8 * slot

/-- Blocks of 128 target bytes that a span touches. -/
def windowUnits (p : Span) : Nat := if p.len = 0 then 0 else (p.addr + p.len - 1) / 128 - p.addr / 128 + 1

/-- The allowance of a slot. -/
def State.windowAllow (s : State) (g slot : Nat) : Nat := max 1 (min 1024 (s.rfld (owaReg g slot) 0 11))

/-- Outstanding units of a slot. -/
def State.windowOut (s : State) (g slot : Nat) : Nat := s.rfld (owaReg g slot) 16 11

/-- The units would take the count above the allowance. -/
def State.windowFull (s : State) (g slot units : Nat) : Bool := decide (s.windowAllow g slot < s.windowOut g slot + units)

def State.windowCount (s : State) (g slot n : Nat) : State := s.setFld (owaReg g slot) 16 11 n

/-- `sc_last` of a core that issues an operation: the time of its stamp (R99). -/
def Core.raisedBy (c : Core) (o : MemOp) : Nat := match o.stamp with | some t => t.1 | none => c.scLast

def MemOp.markSent (uid : Nat) (o : MemOp) : MemOp := if o.uid = uid then { o with sent := true } else o

/-- Hands the writes of a posted operation to the fabric: to this module's arrivals, or to another module. -/
def State.windowSend (s : State) (c : Core) (o : MemOp) : State :=
  match o.act with
  | .store ss data =>
    let r := ss.foldl (fun (a : State × Nat × List Byte) p =>
      let w : WinWrite :=
        { smod := a.1.modid, sclu := c.cluster, slot := o.slot.getD 0, seq := (o.wseq + a.2.1) % 2 ^ 16, sctx := c.view.ctx
          clu := p.addr / 2 ^ 21 % 256, off := p.addr % 2 ^ 21, data := a.2.2.take p.len, stamp := o.stamp }
      let m := p.addr / 2 ^ 29
      let s' := if m = a.1.modid then { a.1 with fab := { a.1.fab with winFly := a.1.fab.winFly ++ [w] } }
        else a.1.e2eSend m { kind := .window w, addr := p.addr % 2 ^ 29 } c.idx (some c.idx) o.uid c.view.ctx
      (s', a.2.1 + 1, a.2.2.drop p.len)) (s, 0, data)
    r.1.modCore c.idx fun c => { c with ops := c.ops.map (MemOp.markSent o.uid) }
  | _ => s

/-- Adds a posted write of a core: units and sequence are taken now. A release is handed on once its release set is performed. -/
def State.windowPost (s : State) (k : Nat) (o : MemOp) (slot : Nat) : State :=
  let c := s.coreAt k
  let units := (o.spans.map windowUnits).sum
  let key := 16 * c.cluster + slot
  let seq := aget 0 key s.fab.winSeq
  let o := { o with uid := c.nextUid, slot := some slot, units := units, wseq := seq }
  let s := s.windowCount c.cluster slot (s.windowOut c.cluster slot + units)
  let s := { s with fab := { s.fab with winSeq := aset key ((seq + o.spans.length) % 2 ^ 16) s.fab.winSeq } }
  let s := s.modCore k fun c => { c with ops := c.ops ++ [o], nextUid := c.nextUid + 1, scLast := c.raisedBy o }
  if o.relScope.isSome || o.grp then s else s.windowSend (s.coreAt k) o

/-! ### Memory operations of strands -/

/-- The stamp of a `.sc` operation that issues now (R99). -/
def State.scStampNow (s : State) : Nat := max s.now (max (s.core.scLast + 1) (s.moduleFloor + 1))

def AmoOp.num : AmoOp → Nat
  | .add => 0 | .min => 1 | .max => 2 | .and => 3 | .or => 4 | .xor => 5 | .swp => 6 | .cas => 7 | .minu => 8 | .maxu => 9

def AmoOp.ofNum : Nat → AmoOp
  | 0 => .add | 1 => .min | 2 => .max | 3 => .and | 4 => .or | 5 => .xor | 6 => .swp | 7 => .cas | 8 => .minu | _ => .maxu

/-- What a peer module is asked for `len` bytes of an operation from byte `off` on. -/
def MemAct.peer (off len : Nat) : MemAct → PeerKind
  | .load _ => .read len
  | .store _ data => .write ((data.drop off).take len)
  | .amo op _ size v exp => .atomic op.num size v exp
  | .vradd _ es row sat => .rowAdd es sat row

/-- Sends the requests of an operation that names other modules, one for each run of bytes, once its order lets it be performed (R94, R127,
R128). -/
def State.peerTry (s : State) (k uid : Nat) : State :=
  let c := s.coreAt k
  match c.ops.find? fun o => o.uid == uid with
  | none => s
  | some o =>
    if o.sent || o.slot.isSome || !o.hasPlace .peer || !s.opReady c o then s
    else
      let s := s.releaseOf k o
      let r := o.spans.foldl (fun (a : State × Nat) p =>
        (if p.place = .peer then
          a.1.e2eSend (p.addr / 2 ^ 43 % 32) { kind := o.act.peer a.2 p.len, addr := p.addr % 2 ^ 43 } k (some k) uid c.view.ctx
        else a.1, a.2 + p.len)) (s, 0)
      r.1.modCore k fun c => { c with ops := c.ops.map (MemOp.markSent uid) }

/-- Operation number of a group-scope message (R329). -/
def MemAct.syncOp : MemAct → Nat
  | .load _ => 0x10 | .store _ _ => 0x11 | _ => 0x12

/-- A plain operation of a strand, with no token. -/
def MemOp.plain (σ : StrandId) (ha : Word) (act : MemAct) : MemOp :=
  { uid := 0, strand := σ, ha := ha, act := act, dest := .none, sig := none, ord := 0, scope := 0, rel := 0, bundle := false
    stamp := none, grp := false, slot := none, units := 0, sent := false, got := [], job := none, wseq := 0 }

/-- The operation a strand issues now: its uid and, where it is `.sc`, its stamp; at group scope it waits for its message (R99, R100). -/
def State.opOf (s : State) (ha : Word) (act : MemAct) (dest : Dest) (sig : Option Nat) (ord scope : Nat) : MemOp :=
  let grp := ord == 4 && s.effScope scope == 4
  { MemOp.plain s.cur ha act with
    uid := s.core.nextUid, dest := dest, sig := sig, ord := ord, scope := scope, rel := s.me.rel, bundle := !s.wordMode
    stamp := if ord = 4 ∧ !grp then some (s.scStampNow, s.core.idx) else none, grp := grp }

/-- Adds an operation to the core, raising `sc_last` where it is stamped. -/
def State.addOp (s : State) (o : MemOp) : State :=
  { s with core := { s.core with
      ops := s.core.ops ++ [o], nextUid := s.core.nextUid + 1
      scLast := s.core.raisedBy o } }

/-- Issues a memory operation of the executing strand. -/
def State.issueOp (s : State) (ha : Word) (act : MemAct) (dest : Dest) (sig : Option Nat) (ord scope : Nat) : State :=
  let o := s.opOf ha act dest sig ord scope
  let s := s.addOp o
  let s := if o.grp then s.syncSc act.syncOp o.uid else s
  if o.hasPlace .peer then s.peerTry s.core.idx o.uid else s

/-- Some earlier operation of the executing strand is not performed: a broadcast store of its own counts, posted window writes do not (R94,
R111). In bundle mode the strands share one program order (R89). -/
def State.unperformed (s : State) : Bool :=
  (s.core.ops.any fun o => o.slot.isNone && (o.strand == s.cur || (o.bundle && !s.wordMode))) ||
    ((s.cur == .s || !s.wordMode) && !s.core.bsts.isEmpty)

/-- Pushes a token once everything before it is performed: at once, or when an operation of no bytes retires (R96). -/
def State.signalAfter (s : State) (sig : Option Nat) : State :=
  match sig with
  | none => s
  | some p =>
    if s.unperformed then s.addOp (s.opOf 0 (.load []) .none (some p) 0 0) else { s with core := s.core.pushReserved p }

/-- Issues a store: a posted window write through a space-2 handle (which stalls while its slot lacks allowance), otherwise a memory
operation (R139, R297, R323-R325). A posted write retires at issue. -/
def State.issueStore (s : State) (ha : Word) (ss : List Span) (data : List Byte) (sig : Option Nat) (ord scope : Nat) : Except Stop State :=
  match ss.find? (fun p => p.place == .window) with
  | none => .ok (s.issueOp ha (.store ss data) .none sig ord scope)
  | some p =>
    let units := (ss.map windowUnits).sum
    if s.windowFull s.core.cluster p.pol units then .error (.wait outside)
    else
      let o := s.opOf ha (.store ss data) .none none ord scope
      let s := s.windowPost s.core.idx o p.pol
      .ok ((if o.grp then s.syncSc 0x11 o.uid else s).signalAfter sig)

end Sys2Proof.Machine
end

