-- ==== Sys2Proof/Machine/Operands.lean ====
section
/-! DEFINITION. Operand forms: effective addresses (R250, R251, R311), strides (R314), the sync field (R263), register pairs, aligned accesses, and
the entries an X word reads and pushes (R255-R260). -/

namespace Sys2Proof.Machine

/-! ### Privilege (R270) -/

/-- `PRIV`; the word is the value (R422). -/
def privIf (b : Bool) : Except Stop Unit := if b then .error (.trap 2 0 0) else .ok ()

/-! ### Addresses -/

/-- Base plus a signed offset field in units of `u` bytes (R251, R311). -/
def effAddr {n : Nat} (base : Word) (off : BitVec n) (u : Nat) : Word := base + off.signExtend 64 * BitVec.ofNat 64 u

/-- A branch target (R250). -/
def State.target {n : Nat} (s : State) (off : BitVec n) : Word := effAddr s.here off 4

def misaligned (a : Word) (n : Nat) : Bool := a.toNat % n != 0

/-- Element i of a strided access: a + i × s, i from 0 to n − 1. -/
def strided (a st : Word) (n : Nat) : List Word := (List.range n).map fun i => a + BitVec.ofNat 64 i * st

/-- Element bytes of an ESZ code (R310). -/
def eszBytes (c : BitVec 2) : Nat := if c = 0 then 4 else if c = 1 then 2 else 1

/-- Row bytes of an RSZ code. -/
def rszBytes (c : BitVec 2) : Nat := 64 * 2 ^ c.toNat

/-- Access bytes of an SZ code. -/
def szBytes (c : BitVec 2) : Nat := if c = 0 then 8 else 4

/-- Bytes of a VSZ code. -/
def vszBytes (c : BitVec 2) : Nat := if c = 0 then 128 else if c = 1 then 64 else 32

/-- The 96-bit name in an even register pair (R320): none where an operand rule forbids it. -/
def State.namePair (s : State) (gn : BitVec 5) : Option Nat :=
  if gn = 0 ∨ gn.toNat % 2 = 1 ∨ bitsAt (s.g (gn + 1)) 32 32 ≠ 0 then none
  else some ((s.g gn).toNat + 2 ^ 64 * bitsAt (s.g (gn + 1)) 0 32)

/-! ### Sync field (R263) -/

/-- The wait and the reservation of a sync field: the state after, and the counter to push at retirement. -/
def State.syncTake (s : State) (y : BitVec 2) : Except Stop (State × Option Nat) :=
  match partners s.cur with
  | none => if y = 0 then .ok (s, none) else illegal
  | some (w, g) =>
    let pw := pairOf w s.cur
    let pg := pairOf s.cur g
    if y.getLsbD 0 && s.core.token pw == 0 then .error (.wait 1)
    else if y.getLsbD 1 && s.core.tokenFull pg then .error (.wait 2)
    else
      let c := if y.getLsbD 0 then s.core.popToken pw else s.core
      let c := if y.getLsbD 1 then c.setResv pg (c.reserved pg + 1) else c
      .ok ({ s with core := c }, if y.getLsbD 1 then some pg else none)

/-- Pushes the token of a word that retires as it completes. -/
def State.signal (s : State) (sig : Option Nat) : State :=
  match sig with
  | some p => { s with core := s.core.pushReserved p }
  | none => s

/-! ### Queues as L, S and K use them (R256, R316) -/

/-- Waits while a queue lacks room for `n` entries. -/
def room (s : State) (code n : Nat) : Except Stop Unit := waitIf (decide (fifoDepth code < s.core.occ code + n)) 4

/-- Pushes `n` entries that a memory operation will land. -/
def State.pushPending (s : State) (code n uid : Nat) : State :=
  { s with core := (List.range n).foldl (fun c _ => c.push code { data := 0, due := 0, src := uid, landed := false }) s.core }

/-- The oldest `n` entries have landed. -/
def Core.headsLanded (c : Core) (code n : Nat) : Bool :=
  decide (n ≤ c.occ code) && ((c.queue code).take n).all (·.landed)

/-- Pops the `n` oldest landed entries of a queue, waiting for them. -/
def State.popLanded (s : State) (code n : Nat) : Except Stop (List Entry × State) :=
  if s.core.headsLanded code n then
    .ok (((s.core.queue code).take n).map (·.data), { s with core := s.core.setQueue code ((s.core.queue code).drop n) })
  else .error (.wait 3)

/-! ### Reads of an X word (R256-R260) -/

/-- Working state of an X issue: the core's queues as read so far, and the free values drawn. -/
structure XRead where
  s : State
  /-- Registers read before their producer's bound: code, producer issue and reader issue (R449). -/
  hazards : List (Nat × Nat)
  deriving DecidableEq, Repr

/-- The value of an entry at issue `n`: free before its bound (R258). -/
def XRead.value (x : XRead) (code : Nat) (e : FEntry) : Entry × XRead :=
  if e.due ≠ 0 ∧ x.s.core.xIssue < e.due then
    let d := x.s.drawEntry
    (d.1, { s := d.2, hazards := x.hazards ++ [(code, e.src)] })
  else (e.data, x)

/-- Reads a source register: queues q0, q1 and q3 wait for a landed entry, a v register raises `QUNF` when it is empty. -/
def XRead.read (x : XRead) (code : Nat) (peek : Bool) : Except Stop (Entry × XRead) :=
  match x.s.core.queue code with
  | [] => if code < 12 then .error (.trap 5 0 (BitVec.ofNat 64 code)) else .error (.wait 3)
  | e :: _ =>
    if 12 ≤ code ∧ !e.landed then .error (.wait 3)
    else
      let r := x.value code e
      .ok (r.1, if peek then r.2 else { r.2 with s := { r.2.s with core := r.2.s.core.drop1 code } })

/-- A vector operand with lanes of `w` bits: q3 broadcasts its low bits (R260). -/
def spread (code w : Nat) (e : Entry) : Entry :=
  if code = 15 then
    let v := e.toNat % 2 ^ w
    BitVec.ofNat 1024 ((List.replicate (1024 / w) v).foldl (fun a b => a * 2 ^ w + b) 0)
  else e

/-- Reads a source as lanes of `w` bits. -/
def XRead.operand (x : XRead) (code w : Nat) (peek : Bool) : Except Stop (Entry × XRead) :=
  match x.read code peek with
  | .error e => .error e
  | .ok (e, x') => .ok (spread code w e, x')

/-- The enables of a mask field: all lanes, or the oldest entry of v1-v7, which stays (R259). -/
def XRead.mask (x : XRead) (m : BitVec 3) : Except Stop (Entry × XRead) :=
  if m = 0 then .ok (BitVec.allOnes 1024, x)
  else match x.s.core.queue m.toNat with
    | [] => .error (.trap 5 0 (BitVec.ofNat 64 m.toNat))
    | e :: _ => .ok (x.value m.toNat e)

/-- The newest entry of vd, for lanes left undisturbed: zero if vd is empty or q2, free before its bound (R259). -/
def XRead.base (x : XRead) (code : Nat) : Entry × XRead :=
  if code = 14 then (0, x)
  else match (x.s.core.queue code).getLast? with
    | none => (0, x)
    | some e => x.value code e

/-! ### Lanes -/

/-- Lane width of a type code (R338). -/
def tyWidth (ty : BitVec 3) : Nat := if ty = 0 ∨ ty = 5 then 32 else if ty = 1 ∨ ty = 2 ∨ ty = 6 then 16 else 8

/-- The type is an integer one. -/
def tyInt (ty : BitVec 3) : Bool := 5 ≤ ty.toNat

/-- The floating format of a type code. -/
def tyFmt (ty : BitVec 3) : Fmt :=
  match ty.toNat with
  | 0 => .f32 | 1 => .bf16 | 2 => .f16 | 3 => .e4m3 | _ => .e5m2

/-- Lane i of `w` bits. -/
def lane (e : Entry) (w i : Nat) : Nat := e.toNat / 2 ^ (w * i) % 2 ^ w

/-- All lanes of `w` bits. -/
def lanes (e : Entry) (w : Nat) : List Nat := (List.range (1024 / w)).map (lane e w)

/-- An entry from its lanes, lane 0 lowest. -/
def ofLanes (w : Nat) : List Nat → Nat
  | [] => 0
  | v :: vs => v % 2 ^ w + 2 ^ w * ofLanes w vs

def entryOfLanes (w : Nat) (vs : List Nat) : Entry := BitVec.ofNat 1024 (ofLanes w vs)

/-- Bit i of an entry as a mask. -/
def maskBit (e : Entry) (i : Nat) : Bool := e.getLsbD i

end Sys2Proof.Machine
end

