-- ==== Sys2Proof/Machine/Flags.lean ====
section
/-! DEFINITION. The floating-point control register and the flags it gathers (R239-R241), and the results of integer division (R279). -/

namespace Sys2Proof.Machine

/-! ### XFCTL (R239) -/

/-- Rounding mode and saturation that an X word issues with. -/
def Core.rm (c : Core) : Nat := bitsAt c.xfctl 8 2
def Core.sat (c : Core) : Bool := bitAt c.xfctl 10

/-- An `MTC` to `XFCTL`: the written flag bits replace the flags (R240). -/
def Core.writeXfctl (c : Core) (v : Word) : Core := { c with xfctl := v &&& xfctlMask }

/-! ### FLAGOR (R241) -/

/-- `LIVE` and `CORE` of a cluster follow its X strands' flags; `ACC` is kept. -/
def State.flagor (s : State) (g : Nat) : Word :=
  let fl := fun k => bitsAt (s.coreAt (8 * g + k)).xfctl 0 5
  let live := (List.range 8).foldl (fun a k => a ||| fl k) 0
  let cores := ((List.range 8).map fun k => if fl k = 0 then 0 else 2 ^ k).sum
  mkWord [(cores, 40), (s.rfld (clusterBase g + 0x018) 16 5, 16), (live, 0)]

/-! ### Division (R279) -/

/-- Quotient truncated toward zero. -/
def sdiv (a b : Int) : Int := a.tdiv b

/-- Results of the seven divisions by opcode: 0 DIV, 1 DIVU, 2 REM, 3 REMU, 4 DIVW, 5 REMW. -/
def divResult (op : Nat) (a b : Word) : Word :=
  let a32 := toInt 32 a.toNat
  let b32 := toInt 32 b.toNat
  match op with
  | 0 => if b = 0 then BitVec.allOnes 64 else BitVec.ofInt 64 (sdiv a.toInt b.toInt)
  | 1 => if b = 0 then BitVec.allOnes 64 else BitVec.ofNat 64 (a.toNat / b.toNat)
  | 2 => if b = 0 then a else BitVec.ofInt 64 (a.toInt - b.toInt * sdiv a.toInt b.toInt)
  | 3 => if b = 0 then a else BitVec.ofNat 64 (a.toNat % b.toNat)
  | 4 => if b32 = 0 then BitVec.allOnes 64 else sextNat 32 (wrapInt 32 (sdiv a32 b32))
  | _ => if b32 = 0 then sextNat 32 a.toNat else sextNat 32 (wrapInt 32 (a32 - b32 * sdiv a32 b32))

/-- The divisor the opcode tests is zero. -/
def divZero (op : Nat) (b : Word) : Bool := if op < 4 then b == 0 else b.toNat % 2 ^ 32 == 0

/-- `TRAPEN.DIVZ` (R420). -/
def Core.divzOn (c : Core) : Bool := bitAt c.trapen 0

end Sys2Proof.Machine
end

