-- ==== Sys2Proof/Machine/Domains.lean ====
section
/-! DEFINITION. Domains and supersteps: arrival, departure, the phase register, and imbalance records (R199-R203, R307, R456-R457). -/

namespace Sys2Proof.Machine

/-- The id of a level in `DMEM` (R200): 1 cluster, 2 die, 3 package, 4 group. -/
def dmemId (d : Word) (level : Nat) : Nat := bitsAt d (4 + 12 * level) 12

/-- Low bit and length of a level's superstep field in `DPHASE` (R203). -/
def ssField : Nat → Nat × Nat
  | 0 => (48, 8) | 1 => (40, 8) | 2 => (32, 8) | 3 => (16, 16) | _ => (0, 16)

/-- A departure flips the level's phase; the superstep number rises as the phase returns to compute (R202). -/
def flipPhase (w : Word) (level : Nat) : Word :=
  let ph := bitsAt w (59 + level) 1
  let f := ssField level
  let w := setBits w (59 + level) 1 (1 - ph)
  if ph = 1 then setBits w f.1 f.2 (bitsAt w f.1 f.2 + 1) else w

/-- A strand waiting in `DSYNC` of the level has departed. -/
def Strand.departed (t : Strand) (level : Nat) : Strand := if t.stage = 2 + level then { t with stage := 1, wait := 0 } else t

/-- A core departs from a phase of a level. -/
def Core.depart (c : Core) (level : Nat) : Core :=
  { c with
    dphase := flipPhase c.dphase level, l := c.l.departed level, x := c.x.departed level, s := c.s.departed level
    k := c.k.departed level }

/-- A domain nobody has arrived at. -/
def Domain.fresh (level id ctx launch index members : Nat) : Domain :=
  { level := level, id := id, ctx := ctx, launch := launch, index := index, members := members, arrived := 0, phase := 0, mods := []
    firstAt := 0, lastAt := 0, sumAt := 0, lastCore := 0 }

def Domain.same (d e : Domain) : Bool := d.level == e.level && d.id == e.id && d.ctx == e.ctx

def State.setDomain (s : State) (d : Domain) : State :=
  { s with lm := { s.lm with domains := s.lm.domains.map fun e => if e.same d then d else e } }

def State.domainOf (s : State) (ctx level id : Nat) : Option Domain :=
  s.lm.domains.find? fun d => d.level == level && d.id == id && d.ctx == ctx

/-- Phase bit of a domain: its departures so far are odd while it communicates. -/
def Domain.computing (d : Domain) : Bool := d.phase % 2 == 0

/-- The imbalance record of a departure that ends a compute phase of a package or group domain (R457). -/
def State.imbalance (s : State) (d : Domain) (lastMod t : Nat) : State :=
  if d.level < 3 ∨ !d.computing ∨ s.rfld (ctxBase d.ctx + 0x060) 12 40 = 0 then s
  else
    let w0 := mkWord [(d.level, 61), (d.id, 49), (d.phase / 2 % 2 ^ 16, 33), (d.lastCore, 22), (lastMod, 17)]
    let ws := [w0, BitVec.ofNat 64 d.firstAt, BitVec.ofNat 64 d.lastAt,
      BitVec.ofNat 64 (min (2 ^ 64 - 1) (d.sumAt - d.arrived * d.firstAt)), s.quartz, BitVec.ofNat 64 t,
      BitVec.ofNat 64 d.arrived, 0]
    let r := imbRing d.ctx
    if r.full s then s.count (ctxBase d.ctx + 0x070) else r.put s ws

/-- A saved task departs: its `DPHASE` and its waiting words change in its save area and entry. -/
def State.departSaved (s : State) (t : Task) (level : Nat) : State :=
  match t.rtn with
  | some r =>
    let a := s.areaAt t.ctx r + 0x100 + 8 * 17
    s.writeWordAt a (flipPhase (s.wordAt a) level)
  | none => s

def State.mapTasks (s : State) (f : Task → Task) : State := { s with lm := { s.lm with tasks := s.lm.tasks.map f } }

/-- A domain departs: the phase of every member flips, and arrivals start again (R202). -/
def State.departDomain (s : State) (d : Domain) (lastMod t : Nat) : State :=
  let s := s.imbalance d lastMod t
  let gone := s.lm.tasks.filter fun t => t.ctx == d.ctx && t.arrived.contains (d.level, d.id)
  let s := gone.foldl (fun s t =>
    match t.core with
    | some k => s.modCore k (·.depart d.level)
    | none => s.departSaved t d.level) s
  let s := s.mapTasks fun t =>
    if t.ctx = d.ctx ∧ t.arrived.contains (d.level, d.id) then
      { t with arrived := t.arrived.filter (· != (d.level, d.id)), stages := t.stages.map fun g => if g = 2 + d.level then 1 else g }
    else t
  s.setDomain { d with arrived := 0, phase := d.phase + 1, mods := [], firstAt := 0, lastAt := 0, sumAt := 0 }

/-- The valid group-domain registers of an id, the lowest first (R201). -/
def State.gdomRegs (s : State) (id : Nat) : List Word :=
  ((List.range 64).map fun n => s.reg (0x400 + 8 * n)).filter fun r => bitAt r 63 && bitsAt r 45 12 == id

/-- The group-domain register of a domain (R201). -/
def State.gdomReg (s : State) (ctx id : Nat) : Option Word := (s.gdomRegs id).find? fun r => bitsAt r 57 6 == ctx

/-- The group domain that a register describes, opened where none is: `LOCAL` members on this module (R201). -/
def State.openGroup (s : State) (ctx id : Nat) : State :=
  match s.domainOf ctx 4 id with
  | some _ => s
  | none =>
    let n := match s.gdomReg ctx id with | some r => bitsAt r 32 13 | none => 0
    { s with lm := { s.lm with domains := s.lm.domains ++ [Domain.fresh 4 id ctx 0 0 n] } }

/-- The domain-arrival message of this module (R307). -/
def State.sendArrival (s : State) (d : Domain) : State :=
  s.syncQueue (s.syncWords 4 d.ctx 0 0 0x01 0 0 (0, 0) d.lastCore
    (d.id * 2 ^ 41 + d.phase / 2 % 2 ^ 16 * 2 ^ 25 + d.arrived % 2 ^ 13 * 2 ^ 12))

/-- What a complete local count does: departure, or a message at group level. -/
def State.domainFull (s : State) (d : Domain) : State :=
  if d.level = 4 ∧ s.inGroup then s.sendArrival d else s.departDomain d s.modid 0

/-- The current core arrives at the domain of a level (R202). -/
def State.arriveDomain (s : State) (d : Domain) : State :=
  let t := s.now
  let d := { d with
    arrived := d.arrived + 1, firstAt := if d.arrived = 0 then t else min d.firstAt t, lastAt := max d.lastAt t
    sumAt := d.sumAt + t, lastCore := if d.arrived ≠ 0 ∧ d.lastAt = t then max d.lastCore s.core.idx else s.core.idx }
  let id := (s.core.task.map (·.id)).getD 0
  let s := s.mapTasks fun u => if u.id = id then { u with arrived := (d.level, d.id) :: u.arrived } else u
  let s := s.setDomain d
  if d.arrived = d.members then s.domainFull d else s

/-- An ending task leaves its domains (R202): counts fall, and a domain with no member left ends (R199). -/
def State.leaveDomains (s : State) (t : Task) : State :=
  ((List.range 4).map fun i => (i + 1, t.doms.getD i 0)).foldl (fun s p =>
    if p.2 = 0 then s
    else match s.domainOf t.ctx p.1 p.2 with
      | none => s
      | some d =>
        let d := { d with members := d.members - 1 }
        if d.members = 0 then { s with lm := { s.lm with domains := s.lm.domains.filter fun e => !e.same d } }
        else
          let s := s.setDomain d
          if d.arrived = d.members then s.domainFull d else s) s

/-- A committed arrival message of a module (R307): false if it names no domain of this module or another superstep. The lowest valid
register with the id gives the local context, and the domain counts from its first arrival on (R201, log 47). -/
def State.groupArrival (s : State) (src : Nat) (detail t : Nat) : Bool × State :=
  let id := detail / 2 ^ 41 % 2 ^ 12
  let ss := detail / 2 ^ 25 % 2 ^ 16
  let ctx := match (s.gdomRegs id).head? with | some r => bitsAt r 57 6 | none => 0
  let s := if (s.gdomRegs id).isEmpty then s else s.openGroup ctx id
  match s.domainOf ctx 4 id, s.gdomReg ctx id with
  | some d, some r =>
    if d.phase / 2 % 2 ^ 16 ≠ ss then (false, s)
    else
      let mods := if d.mods.contains src then d.mods else src :: d.mods
      let d := { d with mods := mods }
      if (List.range 32).all fun m => !bitAt r m || mods.contains m then (true, s.departDomain d src t)
      else (true, s.setDomain d)
  | _, _ => (false, s)

end Sys2Proof.Machine
end

