-- ==== Sys2Proof/Machine/Arith.lean ====
section
/-! DEFINITION. Register arithmetic and immediate forms (R278-R281). -/

namespace Sys2Proof.Machine

/-! ### Shared forms -/

/-- Two sources and a destination, once all are written (R277). -/
def alu2 (f : Word → Word → Word) (rd ra rb : BitVec 5) : Sem := fun s => do
  ready s [rd, ra, rb]
  .ok (.next (s.setG rd (f (s.g ra) (s.g rb))))

/-- One source and a destination. -/
def alu1 (f : Word → Word) (rd ra : BitVec 5) : Sem := fun s => do
  ready s [rd, ra]
  .ok (.next (s.setG rd (f (s.g ra))))

/-- A division by opcode of `divResult`: a zero divisor raises `DIVZ` while `TRAPEN` asks for it (R279). -/
def divOp (op : Nat) (rd ra rb : BitVec 5) : Sem := fun s => do
  ready s [rd, ra, rb]
  if divZero op (s.g rb) && s.core.divzOn then .error (.trap 3 0 (s.g ra))
  else .ok (.next (s.setG rd (divResult op (s.g ra) (s.g rb))))

/-! ### Bit counts and products -/

/-- Shift amount (R278). -/
def shamt (b : Word) : Nat := b.toNat % 64

/-- Leading zero bits; 64 for 0. -/
def clzWord (a : Word) : Word := if a = 0 then 64 else BitVec.ofNat 64 (63 - a.toNat.log2)

/-- Trailing zero bits; 64 for 0. -/
def ctzWord (a : Word) : Word := BitVec.ofNat 64 (((List.range 64).find? fun i => a.getLsbD i).getD 64)

def popcWord (a : Word) : Word := BitVec.ofNat 64 ((List.range 64).filter fun i => a.getLsbD i).length

/-- High 64 bits of the signed and the unsigned product. -/
def mulhWord (a b : Word) : Word := BitVec.ofInt 64 (a.toInt * b.toInt / 2 ^ 64)
def mulhuWord (a b : Word) : Word := BitVec.ofNat 64 (a.toNat * b.toNat / 2 ^ 64)

/-! ### Register forms (R278, R279) -/

def semAdd (rd ra rb : BitVec 5) : Sem := alu2 (fun a b => a + b) rd ra rb
def semSub (rd ra rb : BitVec 5) : Sem := alu2 (fun a b => a - b) rd ra rb
def semAnd (rd ra rb : BitVec 5) : Sem := alu2 (fun a b => a &&& b) rd ra rb
def semOr (rd ra rb : BitVec 5) : Sem := alu2 (fun a b => a ||| b) rd ra rb
def semXor (rd ra rb : BitVec 5) : Sem := alu2 (fun a b => a ^^^ b) rd ra rb
def semAndn (rd ra rb : BitVec 5) : Sem := alu2 (fun a b => a &&& ~~~b) rd ra rb
def semSll (rd ra rb : BitVec 5) : Sem := alu2 (fun a b => a <<< shamt b) rd ra rb
def semSrl (rd ra rb : BitVec 5) : Sem := alu2 (fun a b => a >>> shamt b) rd ra rb
def semSra (rd ra rb : BitVec 5) : Sem := alu2 (fun a b => a.sshiftRight (shamt b)) rd ra rb
def semRol (rd ra rb : BitVec 5) : Sem := alu2 (fun a b => a.rotateLeft (shamt b)) rd ra rb
def semMul (rd ra rb : BitVec 5) : Sem := alu2 (fun a b => a * b) rd ra rb
def semMulh (rd ra rb : BitVec 5) : Sem := alu2 mulhWord rd ra rb
def semMulhu (rd ra rb : BitVec 5) : Sem := alu2 mulhuWord rd ra rb
def semDiv (rd ra rb : BitVec 5) : Sem := divOp 0 rd ra rb
def semDivu (rd ra rb : BitVec 5) : Sem := divOp 1 rd ra rb
def semRem (rd ra rb : BitVec 5) : Sem := divOp 2 rd ra rb
def semRemu (rd ra rb : BitVec 5) : Sem := divOp 3 rd ra rb
def semDivw (rd ra rb : BitVec 5) : Sem := divOp 4 rd ra rb
def semRemw (rd ra rb : BitVec 5) : Sem := divOp 5 rd ra rb
def semMin (rd ra rb : BitVec 5) : Sem := alu2 (fun a b => if b.slt a then b else a) rd ra rb
def semMax (rd ra rb : BitVec 5) : Sem := alu2 (fun a b => if a.slt b then b else a) rd ra rb
def semMinu (rd ra rb : BitVec 5) : Sem := alu2 (fun a b => if b.ult a then b else a) rd ra rb
def semMaxu (rd ra rb : BitVec 5) : Sem := alu2 (fun a b => if a.ult b then b else a) rd ra rb
def semSlt (rd ra rb : BitVec 5) : Sem := alu2 (fun a b => boolWord (a.slt b)) rd ra rb
def semSltu (rd ra rb : BitVec 5) : Sem := alu2 (fun a b => boolWord (a.ult b)) rd ra rb
def semSeq (rd ra rb : BitVec 5) : Sem := alu2 (fun a b => boolWord (a == b)) rd ra rb
def semClz (rd ra : BitVec 5) : Sem := alu1 clzWord rd ra
def semCtz (rd ra : BitVec 5) : Sem := alu1 ctzWord rd ra
def semPopc (rd ra : BitVec 5) : Sem := alu1 popcWord rd ra

/-- `ADD`: issues the word (R278). -/
def execAdd (rd : BitVec 5) (ra : BitVec 5) (rb : BitVec 5) (s : State) : Host.Outcome State Fault Refusal :=
  issue (Instr.add rd ra rb) (semAdd rd ra rb) s

/-- `SUB`: issues the word (R278). -/
def execSub (rd : BitVec 5) (ra : BitVec 5) (rb : BitVec 5) (s : State) : Host.Outcome State Fault Refusal :=
  issue (Instr.sub rd ra rb) (semSub rd ra rb) s

/-- `AND`: issues the word (R278). -/
def execAnd (rd : BitVec 5) (ra : BitVec 5) (rb : BitVec 5) (s : State) : Host.Outcome State Fault Refusal :=
  issue (Instr.and rd ra rb) (semAnd rd ra rb) s

/-- `OR`: issues the word (R278). -/
def execOr (rd : BitVec 5) (ra : BitVec 5) (rb : BitVec 5) (s : State) : Host.Outcome State Fault Refusal :=
  issue (Instr.or rd ra rb) (semOr rd ra rb) s

/-- `XOR`: issues the word (R278). -/
def execXor (rd : BitVec 5) (ra : BitVec 5) (rb : BitVec 5) (s : State) : Host.Outcome State Fault Refusal :=
  issue (Instr.xor rd ra rb) (semXor rd ra rb) s

/-- `ANDN`: issues the word (R278). -/
def execAndn (rd : BitVec 5) (ra : BitVec 5) (rb : BitVec 5) (s : State) : Host.Outcome State Fault Refusal :=
  issue (Instr.andn rd ra rb) (semAndn rd ra rb) s

/-- `SLL`: issues the word (R278). -/
def execSll (rd : BitVec 5) (ra : BitVec 5) (rb : BitVec 5) (s : State) : Host.Outcome State Fault Refusal :=
  issue (Instr.sll rd ra rb) (semSll rd ra rb) s

/-- `SRL`: issues the word (R278). -/
def execSrl (rd : BitVec 5) (ra : BitVec 5) (rb : BitVec 5) (s : State) : Host.Outcome State Fault Refusal :=
  issue (Instr.srl rd ra rb) (semSrl rd ra rb) s

/-- `SRA`: issues the word (R278). -/
def execSra (rd : BitVec 5) (ra : BitVec 5) (rb : BitVec 5) (s : State) : Host.Outcome State Fault Refusal :=
  issue (Instr.sra rd ra rb) (semSra rd ra rb) s

/-- `ROL`: issues the word (R278). -/
def execRol (rd : BitVec 5) (ra : BitVec 5) (rb : BitVec 5) (s : State) : Host.Outcome State Fault Refusal :=
  issue (Instr.rol rd ra rb) (semRol rd ra rb) s

/-- `MUL`: issues the word (R278). -/
def execMul (rd : BitVec 5) (ra : BitVec 5) (rb : BitVec 5) (s : State) : Host.Outcome State Fault Refusal :=
  issue (Instr.mul rd ra rb) (semMul rd ra rb) s

/-- `MULH`: issues the word (R278). -/
def execMulh (rd : BitVec 5) (ra : BitVec 5) (rb : BitVec 5) (s : State) : Host.Outcome State Fault Refusal :=
  issue (Instr.mulh rd ra rb) (semMulh rd ra rb) s

/-- `MULHU`: issues the word (R278). -/
def execMulhu (rd : BitVec 5) (ra : BitVec 5) (rb : BitVec 5) (s : State) : Host.Outcome State Fault Refusal :=
  issue (Instr.mulhu rd ra rb) (semMulhu rd ra rb) s

/-- `DIV`: issues the word (R279). -/
def execDiv (rd : BitVec 5) (ra : BitVec 5) (rb : BitVec 5) (s : State) : Host.Outcome State Fault Refusal :=
  issue (Instr.div rd ra rb) (semDiv rd ra rb) s

/-- `DIVU`: issues the word (R279). -/
def execDivu (rd : BitVec 5) (ra : BitVec 5) (rb : BitVec 5) (s : State) : Host.Outcome State Fault Refusal :=
  issue (Instr.divu rd ra rb) (semDivu rd ra rb) s

/-- `REM`: issues the word (R279). -/
def execRem (rd : BitVec 5) (ra : BitVec 5) (rb : BitVec 5) (s : State) : Host.Outcome State Fault Refusal :=
  issue (Instr.rem rd ra rb) (semRem rd ra rb) s

/-- `REMU`: issues the word (R279). -/
def execRemu (rd : BitVec 5) (ra : BitVec 5) (rb : BitVec 5) (s : State) : Host.Outcome State Fault Refusal :=
  issue (Instr.remu rd ra rb) (semRemu rd ra rb) s

/-- `DIVW`: issues the word (R279). -/
def execDivw (rd : BitVec 5) (ra : BitVec 5) (rb : BitVec 5) (s : State) : Host.Outcome State Fault Refusal :=
  issue (Instr.divw rd ra rb) (semDivw rd ra rb) s

/-- `REMW`: issues the word (R279). -/
def execRemw (rd : BitVec 5) (ra : BitVec 5) (rb : BitVec 5) (s : State) : Host.Outcome State Fault Refusal :=
  issue (Instr.remw rd ra rb) (semRemw rd ra rb) s

/-- `MIN`: issues the word (R278). -/
def execMin (rd : BitVec 5) (ra : BitVec 5) (rb : BitVec 5) (s : State) : Host.Outcome State Fault Refusal :=
  issue (Instr.min rd ra rb) (semMin rd ra rb) s

/-- `MAX`: issues the word (R278). -/
def execMax (rd : BitVec 5) (ra : BitVec 5) (rb : BitVec 5) (s : State) : Host.Outcome State Fault Refusal :=
  issue (Instr.max rd ra rb) (semMax rd ra rb) s

/-- `MINU`: issues the word (R278). -/
def execMinu (rd : BitVec 5) (ra : BitVec 5) (rb : BitVec 5) (s : State) : Host.Outcome State Fault Refusal :=
  issue (Instr.minu rd ra rb) (semMinu rd ra rb) s

/-- `MAXU`: issues the word (R278). -/
def execMaxu (rd : BitVec 5) (ra : BitVec 5) (rb : BitVec 5) (s : State) : Host.Outcome State Fault Refusal :=
  issue (Instr.maxu rd ra rb) (semMaxu rd ra rb) s

/-- `SLT`: issues the word (R278). -/
def execSlt (rd : BitVec 5) (ra : BitVec 5) (rb : BitVec 5) (s : State) : Host.Outcome State Fault Refusal :=
  issue (Instr.slt rd ra rb) (semSlt rd ra rb) s

/-- `SLTU`: issues the word (R278). -/
def execSltu (rd : BitVec 5) (ra : BitVec 5) (rb : BitVec 5) (s : State) : Host.Outcome State Fault Refusal :=
  issue (Instr.sltu rd ra rb) (semSltu rd ra rb) s

/-- `SEQ`: issues the word (R278). -/
def execSeq (rd : BitVec 5) (ra : BitVec 5) (rb : BitVec 5) (s : State) : Host.Outcome State Fault Refusal :=
  issue (Instr.seq rd ra rb) (semSeq rd ra rb) s

/-- `CLZ`: issues the word (R278). -/
def execClz (rd : BitVec 5) (ra : BitVec 5) (s : State) : Host.Outcome State Fault Refusal := issue (Instr.clz rd ra) (semClz rd ra) s

/-- `CTZ`: issues the word (R278). -/
def execCtz (rd : BitVec 5) (ra : BitVec 5) (s : State) : Host.Outcome State Fault Refusal := issue (Instr.ctz rd ra) (semCtz rd ra) s

/-- `POPC`: issues the word (R278). -/
def execPopc (rd : BitVec 5) (ra : BitVec 5) (s : State) : Host.Outcome State Fault Refusal := issue (Instr.popc rd ra) (semPopc rd ra) s

/-! ### Immediate forms (R280, R281) -/

def semAddi (rd ra : BitVec 5) (imm : BitVec 15) : Sem := alu1 (fun a => a + imm.signExtend 64) rd ra
def semAndi (rd ra : BitVec 5) (imm : BitVec 15) : Sem := alu1 (fun a => a &&& imm.signExtend 64) rd ra
def semOri (rd ra : BitVec 5) (imm : BitVec 15) : Sem := alu1 (fun a => a ||| imm.signExtend 64) rd ra
def semXori (rd ra : BitVec 5) (imm : BitVec 15) : Sem := alu1 (fun a => a ^^^ imm.signExtend 64) rd ra
def semSlli (rd ra : BitVec 5) (sh : BitVec 6) : Sem := alu1 (fun a => a <<< sh.toNat) rd ra
def semSrli (rd ra : BitVec 5) (sh : BitVec 6) : Sem := alu1 (fun a => a >>> sh.toNat) rd ra
def semSrai (rd ra : BitVec 5) (sh : BitVec 6) : Sem := alu1 (fun a => a.sshiftRight sh.toNat) rd ra
def semSlti (rd ra : BitVec 5) (imm : BitVec 14) : Sem := alu1 (fun a => boolWord (a.slt (imm.signExtend 64))) rd ra
def semSltiu (rd ra : BitVec 5) (imm : BitVec 14) : Sem := alu1 (fun a => boolWord (a.ult (imm.signExtend 64))) rd ra
def semMovhi (rd ra : BitVec 5) (imm : BitVec 15) : Sem := alu1 (fun a => (a <<< 15) ||| imm.setWidth 64) rd ra

/-- `ADDI`: issues the word (R280). -/
def execAddi (rd : BitVec 5) (ra : BitVec 5) (imm : BitVec 15) (s : State) : Host.Outcome State Fault Refusal :=
  issue (Instr.addi rd ra imm) (semAddi rd ra imm) s

/-- `ANDI`: issues the word (R280). -/
def execAndi (rd : BitVec 5) (ra : BitVec 5) (imm : BitVec 15) (s : State) : Host.Outcome State Fault Refusal :=
  issue (Instr.andi rd ra imm) (semAndi rd ra imm) s

/-- `ORI`: issues the word (R280). -/
def execOri (rd : BitVec 5) (ra : BitVec 5) (imm : BitVec 15) (s : State) : Host.Outcome State Fault Refusal :=
  issue (Instr.ori rd ra imm) (semOri rd ra imm) s

/-- `XORI`: issues the word (R280). -/
def execXori (rd : BitVec 5) (ra : BitVec 5) (imm : BitVec 15) (s : State) : Host.Outcome State Fault Refusal :=
  issue (Instr.xori rd ra imm) (semXori rd ra imm) s

/-- `SLLI`: issues the word (R280). -/
def execSlli (rd : BitVec 5) (ra : BitVec 5) (sh : BitVec 6) (s : State) : Host.Outcome State Fault Refusal :=
  issue (Instr.slli rd ra sh) (semSlli rd ra sh) s

/-- `SRLI`: issues the word (R280). -/
def execSrli (rd : BitVec 5) (ra : BitVec 5) (sh : BitVec 6) (s : State) : Host.Outcome State Fault Refusal :=
  issue (Instr.srli rd ra sh) (semSrli rd ra sh) s

/-- `SRAI`: issues the word (R280). -/
def execSrai (rd : BitVec 5) (ra : BitVec 5) (sh : BitVec 6) (s : State) : Host.Outcome State Fault Refusal :=
  issue (Instr.srai rd ra sh) (semSrai rd ra sh) s

/-- `SLTI`: issues the word (R280). -/
def execSlti (rd : BitVec 5) (ra : BitVec 5) (imm : BitVec 14) (s : State) : Host.Outcome State Fault Refusal :=
  issue (Instr.slti rd ra imm) (semSlti rd ra imm) s

/-- `SLTIU`: issues the word (R280). -/
def execSltiu (rd : BitVec 5) (ra : BitVec 5) (imm : BitVec 14) (s : State) : Host.Outcome State Fault Refusal :=
  issue (Instr.sltiu rd ra imm) (semSltiu rd ra imm) s

/-- `MOVHI`: issues the word (R281). -/
def execMovhi (rd : BitVec 5) (ra : BitVec 5) (imm : BitVec 15) (s : State) : Host.Outcome State Fault Refusal :=
  issue (Instr.movhi rd ra imm) (semMovhi rd ra imm) s

end Sys2Proof.Machine
end

