-- ==== Sys2Proof/Machine/Control.lean ====
section
/-! DEFINITION. Control transfer, windowed calls, fences, events, tokens, sync bits, barriers, domain synchronisation and the two modes
(R191-R193, R202, R282-R288, R298, R302-R308). -/

namespace Sys2Proof.Machine

/-! ### Waiting for the strand's own work -/

/-- A word that releases at `.cor` issues after the strand's earlier accesses are performed (R94, R96). -/
def quiet (s : State) : Except Stop Unit := waitIf s.unperformed outside

/-! ### Branches and jumps (R282-R284, R295) -/

/-- Innermost active level of the sequencer; none in a handler. -/
def State.innermost (s : State) : Option Loop :=
  if s.core.tl ≠ 0 then none
  else (s.strand s.seqStrand).activeLevels.head?.map fun i => (s.strand s.seqStrand).loops.getD i Loop.reset

/-- The target of a taken branch or `J` lies inside the innermost body (R295). -/
def State.branchOk (s : State) (t : Word) : Bool :=
  match s.innermost with
  | none => true
  | some l => decide (l.beg.toNat ≤ t.toNat ∧ t.toNat ≤ l.fin.toNat)

/-- Takes a branch to `t`. -/
def State.branch (s : State) (t : Word) : Except Stop Done := do
  illegalIf (!s.branchOk t)
  .ok (.jump s t)

/-- A conditional branch; one that is not taken never traps on its target (R282). -/
def branchIf (f : Word → Word → Bool) (ra rb : BitVec 5) (off : BitVec 15) : Sem := fun s => do
  ready s [ra, rb]
  if f (s.g ra) (s.g rb) then s.branch (s.target off) else .ok (.next s)

/-- A jump, call or return is outside every active level (R295). -/
def State.transferOk (s : State) : Bool := s.innermost.isNone

def semBeq (ra rb : BitVec 5) (off : BitVec 15) : Sem := branchIf (fun a b => a == b) ra rb off
def semBne (ra rb : BitVec 5) (off : BitVec 15) : Sem := branchIf (fun a b => a != b) ra rb off
def semBlt (ra rb : BitVec 5) (off : BitVec 15) : Sem := branchIf (fun a b => a.slt b) ra rb off
def semBge (ra rb : BitVec 5) (off : BitVec 15) : Sem := branchIf (fun a b => b.sle a) ra rb off
def semBltu (ra rb : BitVec 5) (off : BitVec 15) : Sem := branchIf (fun a b => a.ult b) ra rb off
def semBgeu (ra rb : BitVec 5) (off : BitVec 15) : Sem := branchIf (fun a b => b.ule a) ra rb off

def semJ (off : BitVec 25) : Sem := fun s => s.branch (s.target off)

/-- `JAL`: the link goes to g7 (R283). -/
def semJal (off : BitVec 25) : Sem := fun s => do
  ready s [7]
  illegalIf (!s.transferOk)
  .ok (.jump (s.setG 7 s.pcNext) (s.target off))

/-- `JR` (R284). -/
def semJr (ra : BitVec 5) : Sem := fun s => do
  ready s [ra]
  illegalIf (bitsAt (s.g ra) 0 2 != 0 || !s.transferOk)
  .ok (.jump s (s.g ra))

/-- `BEQ`: issues the word (R282). -/
def execBeq (ra : BitVec 5) (rb : BitVec 5) (off : BitVec 15) (s : State) : Host.Outcome State Fault Refusal :=
  issue (Instr.beq ra rb off) (semBeq ra rb off) s

/-- `BNE`: issues the word (R282). -/
def execBne (ra : BitVec 5) (rb : BitVec 5) (off : BitVec 15) (s : State) : Host.Outcome State Fault Refusal :=
  issue (Instr.bne ra rb off) (semBne ra rb off) s

/-- `BLT`: issues the word (R282). -/
def execBlt (ra : BitVec 5) (rb : BitVec 5) (off : BitVec 15) (s : State) : Host.Outcome State Fault Refusal :=
  issue (Instr.blt ra rb off) (semBlt ra rb off) s

/-- `BGE`: issues the word (R282). -/
def execBge (ra : BitVec 5) (rb : BitVec 5) (off : BitVec 15) (s : State) : Host.Outcome State Fault Refusal :=
  issue (Instr.bge ra rb off) (semBge ra rb off) s

/-- `BLTU`: issues the word (R282). -/
def execBltu (ra : BitVec 5) (rb : BitVec 5) (off : BitVec 15) (s : State) : Host.Outcome State Fault Refusal :=
  issue (Instr.bltu ra rb off) (semBltu ra rb off) s

/-- `BGEU`: issues the word (R282). -/
def execBgeu (ra : BitVec 5) (rb : BitVec 5) (off : BitVec 15) (s : State) : Host.Outcome State Fault Refusal :=
  issue (Instr.bgeu ra rb off) (semBgeu ra rb off) s

/-- `J`: issues the word (R283). -/
def execJ (off : BitVec 25) (s : State) : Host.Outcome State Fault Refusal := issue (Instr.j off) (semJ off) s

/-- `JAL`: issues the word (R283). -/
def execJal (off : BitVec 25) (s : State) : Host.Outcome State Fault Refusal := issue (Instr.jal off) (semJal off) s

/-- `JR`: issues the word (R284). -/
def execJr (ra : BitVec 5) (s : State) : Host.Outcome State Fault Refusal := issue (Instr.jr ra) (semJr ra) s

/-! ### Windowed calls (R285-R288) -/

/-- Frame size of a code (R286). -/
def frameSize (fc : Nat) : Nat := 8 * (fc + 1)

/-- Keys of the registers of granule `j`. -/
def granuleKeys (j : Int) : List Nat := (List.range 8).map fun i => 7 + ((8 * j + i) % 96).toNat

/-- Handle address of granule `j`. -/
def Strand.granuleAt (t : Strand) (j : Int) : Word := t.spillb + BitVec.ofInt 64 (64 * j)

/-- Writes granules until the resident registers fit (R288). -/
def spillGo : Nat → State → Except Stop State
  | 0, s => .ok s
  | f + 1, s =>
    let t := s.me
    if t.wb + 24 - t.sb ≤ 96 then .ok s
    else do
      let j := t.sb / 8
      let keys := granuleKeys j
      waitIf (keys.any (s.core.busyKey s.cur)) outside
      let ss ← s.access .store (t.granuleAt j) 64
      let s ← s.issueStore (t.granuleAt j) ss (wordsBytes (keys.map t.getKey)) none 0 0
      spillGo f (s.modMe fun t => { t with sb := t.sb + 8 })

/-- The part of spans that covers bytes `off` to `off + n - 1`. -/
def cutSpans (ss : List Span) (off n : Nat) : List Span :=
  match ss with
  | [] => []
  | p :: ps =>
    if n = 0 then []
    else if p.len ≤ off then cutSpans ps (off - p.len) n
    else
      let k := min n (p.len - off)
      { p with addr := p.addr + off, len := k } :: cutSpans ps 0 (n - k)

/-- Loads the eight registers of a granule. -/
def fillKeys (ha : Word) (ss : List Span) : Nat → List Nat → State → State
  | _, [], s => s
  | i, k :: ks, s =>
    fillKeys ha ss (i + 1) ks (s.issueOp (ha + BitVec.ofNat 64 (8 * i)) (.load (cutSpans ss (8 * i) 8)) (.reg k 8 false) none 0 0)

/-- Reads granules back until the window is resident (R288). -/
def fillGo : Nat → State → Except Stop State
  | 0, s => .ok s
  | f + 1, s =>
    let t := s.me
    if t.sb ≤ t.wb then .ok s
    else do
      let j := t.sb / 8 - 1
      let ss ← s.access .load (t.granuleAt j) 64
      let s := s.countZeros ss
      fillGo f (fillKeys (t.granuleAt j) ss 0 (granuleKeys j) (s.modMe fun t => { t with sb := t.sb - 8 }))

/-- The windowed call both forms perform (R286). -/
def State.call (s : State) (fc : Nat) (t : Word) : Except Stop Done := do
  illegalIf (fc == 3 || s.me.depth == 65535 || !s.transferOk)
  let link := setBits s.pcNext 48 4 fc
  let s := s.modMe fun t => { t with wb := t.wb + frameSize fc }
  let s ← spillGo ((s.me.wb - s.me.sb - 65) / 8).toNat s
  waitIf (s.core.busyKey s.cur (s.me.key 31)) outside
  let s := (s.setG 31 link).modMe fun t => { t with depth := t.depth + 1 }
  .ok (.jump s t)

def semCall (fc : BitVec 2) (off : BitVec 23) : Sem := fun s => s.call fc.toNat (s.target off)

def semCallr (ra : BitVec 5) (fc : BitVec 2) : Sem := fun s => do
  ready s [ra]
  illegalIf (bitsAt (s.g ra) 0 2 != 0)
  s.call fc.toNat (s.g ra)

/-- `RET` (R287). -/
def semRet : Sem := fun s => do
  ready s [31]
  let l := s.g 31
  let t := setBits l 48 4 0
  illegalIf (s.me.depth == 0 || bitsAt l 50 2 != 0 || bitsAt l 48 2 == 3 || !s.transferOk)
  let s := s.modMe fun u => { u with wb := u.wb - frameSize (bitsAt l 48 2), depth := u.depth - 1 }
  let s ← fillGo ((s.me.sb - s.me.wb + 7) / 8).toNat s
  .ok (.jump s t)

/-- `CALL`: issues the word (R286). -/
def execCall (fc : BitVec 2) (off : BitVec 23) (s : State) : Host.Outcome State Fault Refusal :=
  issue (Instr.call fc off) (semCall fc off) s

/-- `CALLR`: issues the word (R286). -/
def execCallr (ra : BitVec 5) (fc : BitVec 2) (s : State) : Host.Outcome State Fault Refusal := issue (Instr.callr ra fc) (semCallr ra fc) s

/-- `RET`: issues the word (R287). -/
def execRet (s : State) : Host.Outcome State Fault Refusal := issue (Instr.ret) (semRet) s

/-! ### The hold buffer: see Agate.lean. Fences and events (R298, R302) -/

def semNop : Sem := fun s => .ok (.next s)

/-- The fence's release set is performed: the strand's earlier operations and, for a release, window slots in scope are drained. -/
def State.fenceMet (s : State) (scope ord : Nat) : Bool :=
  !s.unperformed && (!relSide ord || s.drainedNow s.core.idx (s.effScope scope))

/-- The fence's first effects: a place in the SC order (R99, R100). -/
def State.fenceBegin (s : State) (scope ord : Nat) : State :=
  if ord ≠ 4 then s
  else if s.effScope scope = 4 then
    let o := s.opOf 0 (.load []) .none none 4 scope
    (s.addOp o).syncSc 0x13 o.uid
  else
    let t := s.scStampNow
    ({ s with core := { s.core with scLast := t } }).modMe fun u => { u with fence := some (t, s.core.idx, s.effScope scope) }

/-- A fence with a release side widens the core's pins, and the strand's later writes release at its scope (R95, R102). -/
def State.fenceRelease (s : State) (scope ord : Nat) : State :=
  if relSide ord then (s.widenPins s.core.idx (s.effScope scope)).modMe fun t => { t with rel := max t.rel (scope + 1) } else s

/-- No `FENCE.sc` with a smaller stamp can still be under way where each of the two lies in the other's scope (R98). -/
def State.fenceTurn (s : State) : Bool :=
  match s.me.fence with
  | none => true
  | some (t, i, sc) => decide (t < s.now) && !s.fenceBefore s.core.idx sc (t, i)

def semFence (scope ord : BitVec 3) : Sem := fun s => do
  illegalIf (decide (6 ≤ scope.toNat) || ord.toNat == 0 || decide (5 ≤ ord.toNat))
  let s := if s.me.stage = 0 then s.fenceBegin scope.toNat ord.toNat else s
  if s.fenceMet scope.toNat ord.toNat then
    let s := s.fenceRelease scope.toNat ord.toNat
    if s.fenceTurn then .ok (.next (s.modMe fun t => { t with fence := none })) else .ok (.hold s outside)
  else .ok (.hold s outside)

/-- `WFE`: waits for the pending set, returns and empties it (R302). -/
def semWfe (rd : BitVec 5) : Sem := fun s => do
  ready s [rd]
  waitIf (s.me.pend == 0) outside
  .ok (.next ((s.setG rd s.me.pend).modMe fun t => { t with pend := 0 }))

/-- `NOP`: issues the word (R265). -/
def execNop (s : State) : Host.Outcome State Fault Refusal := issue (Instr.nop) (semNop) s

/-- `FENCE`: issues the word (R298). -/
def execFence (scope : BitVec 3) (ord : BitVec 3) (s : State) : Host.Outcome State Fault Refusal :=
  issue (Instr.fence scope ord) (semFence scope ord) s

/-- `WFE`: issues the word (R302). -/
def execWfe (rd : BitVec 5) (s : State) : Host.Outcome State Fault Refusal := issue (Instr.wfe rd) (semWfe rd) s

/-! ### Tokens (R303) -/

def pairFrom (p : BitVec 4) : Nat := p.toNat / 4
def pairTo (p : BitVec 4) : Nat := p.toNat % 4

def semTsig (p : BitVec 4) : Sem := fun s => do
  illegalIf (pairFrom p == pairTo p || pairFrom p != s.cur.num)
  waitIf (s.core.tokenFull p.toNat) 2
  let s := { s with core := s.core.setResv p.toNat (s.core.reserved p.toNat + 1) }
  .ok (.next (s.signalAfter (some p.toNat)))

def semTwait (p : BitVec 4) : Sem := fun s => do
  illegalIf (pairFrom p == pairTo p || pairTo p != s.cur.num)
  waitIf (s.core.token p.toNat == 0) 1
  .ok (.next { s with core := s.core.popToken p.toNat })

def semTtry (rd : BitVec 5) (p : BitVec 4) : Sem := fun s => do
  illegalIf (pairFrom p == pairTo p || pairTo p != s.cur.num)
  ready s [rd]
  if s.core.token p.toNat = 0 then .ok (.next (s.setG rd 0))
  else .ok (.next (({ s with core := s.core.popToken p.toNat }).setG rd 1))

/-- `TSIG`: issues the word (R303). -/
def execTsig (pair : BitVec 4) (s : State) : Host.Outcome State Fault Refusal := issue (Instr.tsig pair) (semTsig pair) s

/-- `TWAIT`: issues the word (R303). -/
def execTwait (pair : BitVec 4) (s : State) : Host.Outcome State Fault Refusal := issue (Instr.twait pair) (semTwait pair) s

/-- `TTRY`: issues the word (R303). -/
def execTtry (rd : BitVec 5) (pair : BitVec 4) (s : State) : Host.Outcome State Fault Refusal :=
  issue (Instr.ttry rd pair) (semTtry rd pair) s

/-! ### Condition-code sync bits (R193, R304) -/

def Core.setCc (c : Core) (i : Nat) (b : Bool) : Core :=
  { c with cc := if b then c.cc ||| BitVec.ofNat 16 (2 ^ i) else c.cc &&& ~~~(BitVec.ofNat 16 (2 ^ i)) }

def semCcset (cc : BitVec 4) : Sem := fun s => do
  quiet s
  .ok (.next { s with core := s.core.setCc cc.toNat true })

def semCcclr (cc : BitVec 4) : Sem := fun s => .ok (.next { s with core := s.core.setCc cc.toNat false })

def semCcwait (cc : BitVec 4) : Sem := fun s => do
  waitIf (!s.core.cc.getLsbD cc.toNat) 5
  .ok (.next s)

/-- The strand has an operation that has not retired; posted window writes retire at issue (R263). -/
def Core.hasOps (c : Core) (σ : StrandId) : Bool := c.ops.any fun o => o.strand == σ && o.slot.isNone

/-- Everything the strand has issued has landed (R192). -/
def Core.strandLanded (c : Core) (σ : StrandId) : Bool := !c.hasOps σ && (σ != .s || c.bsts.isEmpty)

/-- A strand ready to run at an address. -/
def Strand.start (t : Strand) (a : Word) (parked : Bool) : Strand := { t with pc := a, parked := parked, stage := 0, wait := 0 }

/-! ### Arrival of a core (R192, R202) -/

/-- Scope of a level's arrival: core `.cor` to group `.grp` (R96). -/
def levelScope (level : Nat) : Nat := level

/-- Every strand of the core has executed `DSYNC` at the level or is parked, and some strand waits there; one in a bundle stands for all
(R202). -/
def State.coreArrived (s : State) (level : Nat) : Bool :=
  !s.wordMode ||
    ((allStrands.all fun σ => (s.strand σ).stage == 2 + level || (s.strand σ).parked) &&
      allStrands.any fun σ => (s.strand σ).stage == 2 + level)

/-- The core arrives at a level once its strands have. -/
def State.coreArrival (s : State) (level : Nat) : State :=
  if !s.coreArrived level then s
  else if level = 0 then { s with core := s.core.depart 0 }
  else
    let s := s.widenPins s.core.idx (s.effScope (levelScope level))
    match s.domainOf s.ctx level (dmemId s.core.dmem level) with
    | some d => s.arriveDomain d
    | none => s

/-- A strand that parks may complete the arrival of its core. -/
def State.parkArrival (s : State) : State := (List.range 5).foldl State.coreArrival s

/-- `JOIN` (R192): L, X and S park; K takes the core back to bundle mode. -/
def semJoin (cc : BitVec 4) : Sem := fun s => do
  illegalIf (decide (s.core.tl ≠ 0))
  if s.cur = .k then do
    illegalIf (cc != 0 || s.pcNext.toNat % 16 != 0)
    waitIf (!(s.core.l.parked && s.core.x.parked && s.core.s.parked)) 7
    waitIf s.stepsBusy outside
    -- the end test of a level that ends here decides where the bundles start (R291, log 8)
    let (s, b) := s.loopTests .k 4 s.endLevels s.pcNext
    .ok (.at_ { s with core := { s.core with
      split := false, bdone := 0, l := s.core.l.start b false, x := s.core.x.start (b + 4) false
      s := s.core.s.start (b + 8) false, k := s.core.k.start (b + 12) false } })
  else
    let s := if s.cur = .x then s.landCore s.core.idx Core.landAll else s
    if s.core.strandLanded s.cur then
      let s := ({ s with core := s.core.setCc cc.toNat true }).countIssue
      let (s, next) := s.loopTests s.cur 4 s.endLevels s.pcNext
      .ok (.at_ (s.modMe fun t => { t with pc := next, parked := true, stage := 0, wait := 6 }).parkArrival)
    else .ok (.hold s outside)

/-- `CCSET`: issues the word (R193). -/
def execCcset (cc : BitVec 4) (s : State) : Host.Outcome State Fault Refusal := issue (Instr.ccset cc) (semCcset cc) s

/-- `CCCLR`: issues the word (R193). -/
def execCcclr (cc : BitVec 4) (s : State) : Host.Outcome State Fault Refusal := issue (Instr.ccclr cc) (semCcclr cc) s

/-- `CCWAIT`: issues the word (R193). -/
def execCcwait (cc : BitVec 4) (s : State) : Host.Outcome State Fault Refusal := issue (Instr.ccwait cc) (semCcwait cc) s

/-- `JOIN`: issues the word (R192). -/
def execJoin (cc : BitVec 4) (s : State) : Host.Outcome State Fault Refusal := issue (Instr.join cc) (semJoin cc) s

/-! ### Named barriers (R305) -/

def Core.bar (c : Core) (b : BitVec 8) : Barrier := c.bars.getD b.toNat { p := 0, a := 0, phase := false }
def Core.setBar (c : Core) (b : BitVec 8) (v : Barrier) : Core := { c with bars := c.bars.set b.toNat v }

/-- The barrier after strand `i` arrives with mask `m`. -/
def Barrier.arrive (v : Barrier) (m : BitVec 4) (i : Nat) : Barrier :=
  let a := v.a ||| BitVec.ofNat 4 (2 ^ i)
  if a = m then { p := 0, a := 0, phase := !v.phase } else { v with p := m, a := a }

/-- The arrival both forms make, with its checks and its wait. -/
def State.barArrive (s : State) (m : BitVec 4) (b : BitVec 8) : Except Stop State := do
  illegalIf (m == 0 || !m.getLsbD s.cur.num)
  let v := s.core.bar b
  waitIf (v.a.getLsbD s.cur.num) 10
  illegalIf (v.a != 0 && v.p != m)
  quiet s
  .ok { s with core := s.core.setBar b (v.arrive m s.cur.num) }

def semBararr (m : BitVec 4) (b : BitVec 8) : Sem := fun s => do
  let s ← s.barArrive m b
  .ok (.next s)

def semBarwait (b : BitVec 8) : Sem := fun s =>
  if (s.core.bar b).a.getLsbD s.cur.num then .ok (.hold s 10) else .ok (.next s)

def semBarsync (m : BitVec 4) (b : BitVec 8) : Sem := fun s => do
  let s ← if s.me.stage = 0 then s.barArrive m b else .ok s
  if (s.core.bar b).a.getLsbD s.cur.num then .ok (.hold s 10) else .ok (.next s)

/-- `BARARR`: issues the word (R305). -/
def execBararr (mask : BitVec 4) (bar : BitVec 8) (s : State) : Host.Outcome State Fault Refusal :=
  issue (Instr.bararr mask bar) (semBararr mask bar) s

/-- `BARWAIT`: issues the word (R305). -/
def execBarwait (bar : BitVec 8) (s : State) : Host.Outcome State Fault Refusal := issue (Instr.barwait bar) (semBarwait bar) s

/-- `BARSYNC`: issues the word (R305). -/
def execBarsync (mask : BitVec 4) (bar : BitVec 8) (s : State) : Host.Outcome State Fault Refusal :=
  issue (Instr.barsync mask bar) (semBarsync mask bar) s

/-! ### Domain synchronisation (R202, R306) -/

/-- The strand has executed `DSYNC`; the core's arrival, if it is complete. -/
def State.dsyncArrive (s : State) (level : Nat) : State := (s.modMe fun t => { t with stage := 2 + level }).coreArrival level

/-- `DSYNC` (R202). One that names no live domain when it would issue waits until its task is saved or ends (R200). -/
def semDsync (lv : BitVec 3) : Sem := fun s => do
  let level := lv.toNat
  waitIf (s.me.wait == stranded) stranded
  illegalIf (decide (5 ≤ level) || decide (s.core.tl ≠ 0) || (level != 0 && dmemId s.core.dmem level == 0))
  let s ← if s.me.stage = 0 then do
      waitIf (level != 0 && (s.domainOf s.ctx level (dmemId s.core.dmem level)).isNone) stranded
      quiet s
      waitIf (!s.drainedNow s.core.idx (s.effScope (levelScope level))) outside
      .ok (s.dsyncArrive level)
    else .ok s
  if s.me.stage = 1 then .ok (.next s) else .ok (.hold s (if level = 0 then 8 else outside))

/-- `DSYNC`: issues the word (R306). -/
def execDsync (level : BitVec 3) (s : State) : Host.Outcome State Fault Refusal := issue (Instr.dsync level) (semDsync level) s

/-! ### Fork (R191, R308) -/

/-- Checks a start address, which no watchpoint meets before the fetch there: null leaves the strand parked. -/
def State.startOk (s : State) (a : Word) : Except Stop Unit :=
  if bitsAt a 52 12 = 0 then .ok ()
  else match s.checks s.core.view s.core.cluster .fetch false a 4 with
    | .error d => .error (denyStop .fetch a d)
    | .ok _ => .ok ()

def semFork (rd ra rb : BitVec 5) : Sem := fun s => do
  illegalIf (s.cur != .k || s.core.split || decide (s.core.tl ≠ 0))
  ready s [rd, ra, rb]
  illegalIf ([s.g rd, s.g ra, s.g rb].any fun a => bitsAt a 0 2 != 0)
  quiet s
  s.startOk (s.g rd)
  s.startOk (s.g ra)
  s.startOk (s.g rb)
  waitIf s.stepsBusy outside
  let null := fun a : Word => bitsAt a 52 12 == 0
  let l := s.g rd
  let x := s.g ra
  let b := s.g rb
  -- the end test of a bundle loop that ends here follows the fork (R291)
  let (s, next) := s.loopTests .k 16 s.endLevels (s.core.k.pc + 4)
  .ok (.at_ { s with core := { s.core with
    split := true, bdone := 0, xIssue := s.core.xIssue + 1
    l := s.core.l.start l (null l), x := s.core.x.start x (null x), s := s.core.s.start b (null b), k := s.core.k.start next false } })

/-- `FORK`: issues the word (R191). -/
def execFork (rd : BitVec 5) (ra : BitVec 5) (rb : BitVec 5) (s : State) : Host.Outcome State Fault Refusal :=
  issue (Instr.fork rd ra rb) (semFork rd ra rb) s

end Sys2Proof.Machine
end

