-- ==== Sys2Proof/Machine/Loops.lean ====
section
/-! DEFINITION. The loop sequencer's words (R289-R296). -/

namespace Sys2Proof.Machine

def State.level (s : State) (k : Nat) : Loop := (s.strand s.seqStrand).loops.getD k Loop.reset

/-- Starts level `k` over the `len` words or bundles that follow (R290). -/
def State.startLoop (s : State) (k : Nat) (count : Word) (len : Nat) : Except Stop Done := do
  let u := BitVec.ofNat 64 s.unit
  let fin := s.pcNext + u * BitVec.ofNat 64 (len - 1)
  illegalIf (decide (6 ≤ k))
  illegalIf (decide (s.core.tl ≠ 0) || (s.level k).active)
  illegalIf (!s.wordMode && decide (64 < len))
  illegalIf ((s.strand s.seqStrand).activeLevels.any fun j => decide ((s.level j).fin.toNat < fin.toNat))
  let s := s.modLevel s.seqStrand k fun l => { l with beg := s.pcNext, fin := fin, cnt := count }
  if count = 0 then .ok (.jump s (fin + u))
  else .ok (.next (s.modLevel s.seqStrand k fun l => { l with done := 0, active := true }))

def semLoop (k ra : BitVec 5) (len : BitVec 8) : Sem := fun s => do
  ready s [ra]
  s.startLoop k.toNat (s.g ra) (len.toNat + 1)

def semLoopi (k : BitVec 5) (cnt : BitVec 7) (len : BitVec 8) : Sem := fun s => s.startLoop k.toNat (cnt.setWidth 64) (len.toNat + 1)

/-- `LSTEP`: in bundle mode, a slot of K's level that steps the slot strand's register (R292). -/
def semLstep (rd ra : BitVec 5) (k : BitVec 3) (j : BitVec 2) : Sem := fun s => do
  illegalIf (decide (6 ≤ k.toNat))
  ready s [ra]
  if (s.level k.toNat).active then .error (.trap 6 0 (0x100 + k.setWidth 64))
  else .ok (.next (s.modLevel s.seqStrand k.toNat fun l =>
    { l with slots := l.slots.set j.toNat { reg := rd, strand := s.cur, stride := s.g ra } }))

/-- What both markers check (R293). -/
def markCheck (n : BitVec 5) (k : BitVec 3) : Sem := fun s => do
  illegalIf (decide (6 ≤ k.toNat) || n == 0 || (!s.wordMode && s.cur != .k) || decide (s.core.tl ≠ 0) || !(s.level k.toNat).active)
  match s.innermost with
  | none => illegal
  | some l => do
    illegalIf (decide (l.fin.toNat < s.here.toNat + n.toNat * s.unit))
    .ok (.next s)

def semLfirst (n : BitVec 5) (k : BitVec 3) : Sem := markCheck n k
def semLlast (n : BitVec 5) (k : BitVec 3) : Sem := markCheck n k

/-- `LBREAK`: the level and those nested inside it end (R294). -/
def semLbreak (k : BitVec 3) : Sem := fun s => do
  illegalIf (decide (6 ≤ k.toNat) || decide (s.core.tl ≠ 0) || !(s.level k.toNat).active)
  let l := s.level k.toNat
  let inner := (s.strand s.seqStrand).activeLevels.filter fun i => decide (l.beg.toNat ≤ (s.level i).beg.toNat)
  let s' := inner.foldl (fun s i => s.modLevel s.seqStrand i fun m => { m with active := false }) s
  .ok (.jump s' (l.fin + BitVec.ofNat 64 s.unit))

/-- `LOOP`: issues the word (R290). -/
def execLoop (k : BitVec 5) (ra : BitVec 5) (len : BitVec 8) (s : State) : Host.Outcome State Fault Refusal :=
  issue (Instr.loop k ra len) (semLoop k ra len) s

/-- `LOOPI`: issues the word (R290). -/
def execLoopi (k : BitVec 5) (cnt : BitVec 7) (len : BitVec 8) (s : State) : Host.Outcome State Fault Refusal :=
  issue (Instr.loopi k cnt len) (semLoopi k cnt len) s

/-- `LSTEP`: issues the word (R292). -/
def execLstep (rd : BitVec 5) (ra : BitVec 5) (k : BitVec 3) (j : BitVec 2) (s : State) : Host.Outcome State Fault Refusal :=
  issue (Instr.lstep rd ra k j) (semLstep rd ra k j) s

/-- `LFIRST`: issues the word (R293). -/
def execLfirst (n : BitVec 5) (k : BitVec 3) (s : State) : Host.Outcome State Fault Refusal := issue (Instr.lfirst n k) (semLfirst n k) s

/-- `LLAST`: issues the word (R293). -/
def execLlast (n : BitVec 5) (k : BitVec 3) (s : State) : Host.Outcome State Fault Refusal := issue (Instr.llast n k) (semLlast n k) s

/-- `LBREAK`: issues the word (R294). -/
def execLbreak (k : BitVec 3) (s : State) : Host.Outcome State Fault Refusal := issue (Instr.lbreak k) (semLbreak k) s

end Sys2Proof.Machine
end

