-- ==== Sys2Proof/Machine/ControlRegs.lean ====
section
/-! DEFINITION. Control registers as `MFC` and `MTC` see them (R264, R309). -/

namespace Sys2Proof.Machine

/-- The control registers (R264). -/
inductive Crn where
  | xfctl | qtz | ctxid | dmem | dphase | vshare | slpcfg | specst | pgreply | spillb | q3
  | owa (n : Nat)
  | tl | trapen | tvec
  /-- Trap level 1 or 2. -/
  | tcause (n : Nat) | tval (n : Nat)
  | tpc (n : Nat) (σ : StrandId)
  | lcnt (k : Nat) | lbeg (k : Nat) | lend (k : Nat)
  deriving DecidableEq, Repr

/-- The register of a number; none if it is reserved, and `XQ` has words of its own. -/
def Crn.ofNum (n : Nat) : Option Crn :=
  if n = 0 then some .xfctl else if n = 1 then some .qtz else if n = 2 then some .ctxid else if n = 3 then some .dmem
  else if n = 4 then some .dphase else if n = 5 then some .vshare else if n = 6 then some .slpcfg else if n = 7 then some .specst
  else if n = 8 then some .pgreply else if n = 0x0A then some .spillb else if n = 0x0B then some .q3
  else if 0x10 ≤ n ∧ n < 0x20 then some (.owa (n - 0x10))
  else if n = 0x20 then some .tl else if n = 0x21 then some .trapen else if n = 0x22 then some .tvec
  else if n = 0x24 then some (.tcause 1) else if n = 0x25 then some (.tcause 2)
  else if n = 0x26 then some (.tval 1) else if n = 0x27 then some (.tval 2)
  else if 0x28 ≤ n ∧ n < 0x2C then some (.tpc 1 (strandOf (n - 0x28)))
  else if 0x2C ≤ n ∧ n < 0x30 then some (.tpc 2 (strandOf (n - 0x2C)))
  else if 0x30 ≤ n ∧ n < 0x36 then some (.lcnt (n - 0x30))
  else if 0x38 ≤ n ∧ n < 0x3E then some (.lbeg (n - 0x38))
  else if 0x40 ≤ n ∧ n < 0x46 then some (.lend (n - 0x40))
  else none

/-- Who may read a register (R264). -/
def Crn.readable (r : Crn) (σ : StrandId) : Bool :=
  match r with
  | .xfctl | .qtz | .ctxid | .dmem | .dphase | .vshare | .slpcfg | .specst | .spillb | .lcnt _ | .lbeg _ | .lend _ => true
  | .q3 => false
  | _ => σ == .k

/-- Only a supervisor may write it. -/
def Crn.supOnly : Crn → Bool
  | .dmem | .vshare | .owa _ => true
  | _ => false

/-- Who may write a register (R264, R240). -/
def Crn.writable (r : Crn) (σ : StrandId) (tl : Nat) : Bool :=
  match r with
  | .xfctl => σ == .x || (σ == .k && tl != 0)
  | .dmem | .vshare | .owa _ | .spillb | .lcnt _ | .lbeg _ | .lend _ => true
  | .slpcfg | .specst | .pgreply | .q3 | .trapen | .tvec => σ == .k
  | .tcause _ | .tval _ | .tpc _ _ => σ == .k && tl != 0
  | .qtz | .ctxid | .dphase | .tl => false

def Bank.pc (b : Bank) : StrandId → Word
  | .l => b.pcl | .x => b.pcx | .s => b.pcs | .k => b.pck

/-- A write of a `TPC`; K's interrupted word starts anew if its address changes. -/
def Bank.setPc (b : Bank) (σ : StrandId) (v : Word) : Bank :=
  match σ with
  | .l => { b with pcl := v } | .x => { b with pcx := v } | .s => { b with pcs := v }
  | .k => { b with pck := v, stage := if v = b.pck then b.stage else 0 }

/-- The value of a control register. -/
def State.readCrn (s : State) : Crn → Word
  | .xfctl => s.core.xfctl
  | .qtz => s.quartz
  | .ctxid => BitVec.ofNat 64 s.ctx
  | .dmem => s.core.dmem
  | .dphase => s.core.dphase
  | .vshare => s.core.vshare
  | .slpcfg => s.core.slpcfg
  | .specst => s.core.specst
  | .pgreply => s.core.pgreply
  | .spillb => s.me.spillb
  | .q3 => 0
  | .owa n => s.reg (owaReg s.core.cluster n)
  | .tl => BitVec.ofNat 64 s.core.tl
  | .trapen => s.core.trapen
  | .tvec => s.core.tvec
  | .tcause n => (s.core.bank n).cause
  | .tval n => (s.core.bank n).val
  | .tpc n σ => (s.core.bank n).pc σ
  | .lcnt k => (s.me.loops.getD k Loop.reset).cnt
  | .lbeg k => (s.me.loops.getD k Loop.reset).beg
  | .lend k => (s.me.loops.getD k Loop.reset).fin

/-- `SPECST` after a write: writing 1 opens the buffer and clears `SPECLOST` (R299). -/
def specWrite (old v : Word) : Word :=
  let w := if bitAt v 1 then setBits old 1 1 0 else old
  if bitAt v 0 then setBits w 0 1 1 else w

/-- The state after a write the access rules admit. -/
def State.writeCrn (s : State) (r : Crn) (v : Word) : State :=
  match r with
  | .xfctl => { s with core := s.core.writeXfctl v }
  | .dmem => { s with core := { s.core with dmem := v &&& 0xFFFFFFFFFFFF0000 } }
  | .vshare => { s with core := { s.core with vshare := v &&& 0xF } }
  | .slpcfg => { s with core := { s.core with slpcfg := v &&& 0x3FFFF } }
  | .specst => { s with core := { s.core with specst := specWrite s.core.specst v } }
  | .pgreply => { s with core := { s.core with pgreply := if bitAt v 63 then setBits s.core.pgreply 63 1 0 else s.core.pgreply } }
  | .spillb => s.modMe fun t => { t with spillb := v }
  | .owa n => s.setFld (owaReg s.core.cluster n) 0 11 (bitsAt v 0 11)
  | .trapen => { s with core := { s.core with trapen := v &&& 1 } }
  | .tvec => { s with core := { s.core with tvec := v } }
  | .tcause n => { s with core := s.core.setBank n { s.core.bank n with cause := v &&& 0xFFFFF } }
  | .tval n => { s with core := s.core.setBank n { s.core.bank n with val := v } }
  | .tpc n σ => { s with core := s.core.setBank n ((s.core.bank n).setPc σ (v &&& ~~~(2 : Word))) }
  | .lcnt k => s.modLevel s.cur k fun l => { l with cnt := v }
  | .lbeg k => s.modLevel s.cur k fun l => { l with beg := v }
  | .lend k => s.modLevel s.cur k fun l => { l with fin := v }
  | .qtz | .ctxid | .dphase | .tl | .q3 => s

/-- Values an operand rule refuses (R285, R420). -/
def State.crnRefuses (s : State) (r : Crn) (v : Word) : Bool :=
  match r with
  | .spillb => bitsAt v 0 6 != 0 || decide (0 < s.me.sb)
  | .tvec => bitsAt v 48 4 != 0 || bitsAt v 0 2 != 0
  | _ => false

/-- A write to an address register of an active level raises `LOOPREG` (R296). -/
def State.loopReg (s : State) : Crn → Bool
  | .lbeg k | .lend k => (s.me.loops.getD k Loop.reset).active
  | _ => false

def semMfc (rd : BitVec 5) (crn : BitVec 8) : Sem := fun s => do
  match Crn.ofNum crn.toNat with
  | none => illegal
  | some r => do
    illegalIf (!r.readable s.cur)
    ready s [rd]
    .ok (.next (s.setG rd (s.readCrn r)))

def semMtc (ra : BitVec 5) (crn : BitVec 8) : Sem := fun s => do
  match Crn.ofNum crn.toNat with
  | none => illegal
  | some r => do
    privIf (r.supOnly && !s.sup)
    illegalIf (!r.writable s.cur s.core.tl)
    ready s [ra]
    let v := s.g ra
    illegalIf (s.crnRefuses r v)
    if s.loopReg r then .error (.trap 6 0 (crn.setWidth 64))
    else .ok (.next (s.writeCrn r v))

/-- `MFC XQ` pops a landed entry. -/
def semMfcXq (rd : BitVec 5) : Sem := fun s => do
  illegalIf (s.cur != .k)
  ready s [rd]
  match s.popLanded 16 1 with
  | .error e => .error e
  | .ok (es, s') => .ok (.next (s'.setG rd ((es.headD 0).setWidth 64)))

/-- `MTC Q3` pushes. -/
def semMtcQ3 (ra : BitVec 5) : Sem := fun s => do
  illegalIf (s.cur != .k)
  ready s [ra]
  room s 15 1
  .ok (.next { s with core := s.core.push 15 { data := (s.g ra).setWidth 1024, due := 0, src := 0, landed := true } })

/-- `MFC`: issues the word (R309). -/
def execMfc (rd : BitVec 5) (crn : BitVec 8) (s : State) : Host.Outcome State Fault Refusal := issue (Instr.mfc rd crn) (semMfc rd crn) s

/-- `MTC`: issues the word (R309). -/
def execMtc (ra : BitVec 5) (crn : BitVec 8) (s : State) : Host.Outcome State Fault Refusal := issue (Instr.mtc ra crn) (semMtc ra crn) s

/-- `MFC_XQ`: issues the word (R309). -/
def execMfcXq (rd : BitVec 5) (s : State) : Host.Outcome State Fault Refusal := issue (Instr.mfcXq rd) (semMfcXq rd) s

/-- `MTC_Q3`: issues the word (R309). -/
def execMtcQ3 (ra : BitVec 5) (s : State) : Host.Outcome State Fault Refusal := issue (Instr.mtcQ3 ra) (semMtcQ3 ra) s

end Sys2Proof.Machine
end

