-- ==== Sys2Proof/Machine/Vector.lean ====
section
/-! DEFINITION. The X strand: what every vector word does at issue (R338-R341), and what each computes on its lanes (R345-R363). -/

namespace Sys2Proof.Machine

/-! ### Issue of an X word (R340) -/

/-- What an X word computes: rounding mode, saturation, enables and operand entries give the lanes of each pushed entry, and the events. -/
abbrev XFun := Nat → Bool → (Nat → Bool) → List Entry → List (List Nat) × Nat

/-- The form of an X word: its reads (code, peek, lane width), whether m is a mask, whether disabled lanes merge, the register pushed, the lane
width of a pushed entry, the number of pushes, the least latency code and the computation. -/
structure XPlan where
  reads : List (Nat × Bool × Nat)
  masked : Bool
  merge : Bool
  vd : Nat
  w : Nat
  pushes : Nat
  latMin : Nat

/-- Occupancies after the reads of a word (R256), or the trap of the first v register found empty; the flag says that a queue is empty. -/
def readOcc : List Nat → Bool → List (Nat × Bool × Nat) → Except Nat (List Nat × Bool)
  | occ, w, [] => .ok (occ, w)
  | occ, w, (code, peek, _) :: rs =>
    let n := occ.getD code 0
    if n = 0 then (if code < 12 then .error code else readOcc occ true rs)
    else readOcc (if peek then occ else occ.set code (n - 1)) w rs

/-- The occupancy checks (R256): `QUNF`, then `QOVF`, then waits for queue entries and room. -/
def occCheck (c : Core) (p : XPlan) (m : BitVec 3) : Except Stop Unit :=
  let occ := c.fifo.map List.length
  if p.masked && m != 0 && occ.getD m.toNat 0 == 0 then .error (.trap 5 0 (m.setWidth 64))
  else match readOcc occ false p.reads with
    | .error code => .error (.trap 5 0 (BitVec.ofNat 64 code))
    | .ok (occ, missing) =>
      if p.vd < 12 ∧ 2 < occ.getD p.vd 0 + p.pushes then .error (.trap 4 0 (BitVec.ofNat 64 p.vd))
      else if missing then .error (.wait 3)
      else if 12 ≤ p.vd ∧ 8 < occ.getD p.vd 0 + p.pushes then .error (.wait 4)
      else .ok ()

/-- Register uses R255 forbids. -/
def usesBad (p : XPlan) : Bool := p.vd == 12 || p.vd == 13 || p.vd == 15 || p.reads.any (fun r => r.1 == 14)

/-- Reads the operands in order. -/
def readAll : XRead → List (Nat × Bool × Nat) → Except Stop (List Entry × XRead)
  | x, [] => .ok ([], x)
  | x, (code, peek, w) :: rs =>
    match x.operand code w peek with
    | .error e => .error e
    | .ok (e, x) => match readAll x rs with
      | .error e => .error e
      | .ok (es, x) => .ok (e :: es, x)

/-- Lanes of one pushed entry: disabled ones keep the base lane, or are free where agnostic (R259). `first` is the element number of lane 0. -/
def mergeLanes (w : Nat) (en : Nat → Bool) (other : Entry) (first : Nat) (vs : List Nat) : List Nat :=
  (vs.zipIdx).map fun p => if en (first + p.2) then p.1 else lane other w p.2

/-- The reads a word makes before their bound, as hazard records (R449). -/
def State.hazardTrace (s : State) (hs : List (Nat × Nat)) : State :=
  hs.foldl (fun s h => s.trace s.core 6 1 h.1 (mkWord [(h.2 % 2 ^ 32, 32), (s.core.xIssue % 2 ^ 32, 0)]) s.core.x.pc) s

/-- The cluster with one more X issue waiting at its vector unit. -/
def Cluster.queueX (cl : Cluster) (k n : Nat) : Cluster := { cl with vq := cl.vq.set k (cl.vq.getD k [] ++ [n]) }

/-- The word enters the core's queue to the cluster vector unit (R223). -/
def State.vqPush (s : State) : State :=
  let g := s.core.cluster
  let cl : Cluster := aget Cluster.reset g s.clusters
  { s with clusters := aput Cluster.reset g (cl.queueX (s.core.idx % 8) s.core.xIssue) s.clusters }

/-- Records an issued X word: its pushes, its flags and its token, landing by `due` (R258). -/
def State.flightPush (s : State) (code due : Nat) (es : List Entry) (flags : Nat) (sig : Bool) : State :=
  let n := s.core.xIssue
  let x : XFlight := { n := n, due := due, flags := BitVec.ofNat 5 flags, sig := sig }
  let c := es.foldl (fun (c : Core) e => c.push code { data := e, due := due, src := n, landed := false }) s.core
  let s' : State := { s with core := { c with flight := c.flight ++ [x] } }
  s'.vqPush

/-- Issues of a latency code (R252). -/
def latIssues (lat : BitVec 2) : Nat := 2 ^ (lat.toNat + 1)

/-- What every X word does at issue (R340). -/
def xrun (o : XOp) (p : XPlan) (f : XFun) : Sem := fun s => do
  illegalIf (p.masked && o.m == 0 && o.ma == 1)
  illegalIf (usesBad p || decide (o.lat.toNat < p.latMin))
  let (s, sig) ← s.syncTake o.sync
  if sig.isSome then quiet s else .ok ()
  occCheck s.core p o.m
  let x0 : XRead := { s := s, hazards := [] }
  let (enables, x1) ← if p.masked then x0.mask o.m else .ok (BitVec.allOnes 1024, x0)
  let (base, x2) := if p.merge && o.m != 0 then
      (if o.ma = 0 then x1.base p.vd else let d := x1.s.drawEntry; (d.1, { x1 with s := d.2 }))
    else (0, x1)
  let (es, x3) ← readAll x2 p.reads
  let en := maskBit enables
  let r := f s.core.rm s.core.sat en es
  let n := 1024 / p.w
  let out := (r.1.zipIdx).map fun q => entryOfLanes p.w (if p.merge then mergeLanes p.w en base (n * q.2) q.1 else q.1)
  let s := x3.s.hazardTrace x3.hazards
  .ok (.next (s.flightPush p.vd (s.core.xIssue + latIssues o.lat) out r.2 sig.isSome))

/-! ### Forms (R341) -/

/-- Both sources and a mask. -/
def plan2 (o : XOp) (lat : Nat) : XPlan :=
  let w := tyWidth o.ty
  { reads := [(o.va.toNat, o.pa == 1, w), (o.vb.toNat, o.pb == 1, w)], masked := true, merge := true, vd := o.vd.toNat, w := w
    pushes := 1, latMin := lat }

/-- One source and a mask. -/
def plan1 (o : XOp) (lat : Nat) : XPlan := { plan2 o lat with reads := [(o.va.toNat, o.pa == 1, tyWidth o.ty)] }

/-- Both sources and the oldest entry of vd. -/
def plan3 (o : XOp) (lat : Nat) : XPlan :=
  { plan2 o lat with reads := (plan2 o lat).reads ++ [(o.vd.toNat, false, tyWidth o.ty)] }

/-- Types a word admits (R342). -/
def tyFloat3 (ty : BitVec 3) : Bool := ty.toNat < 3

/-- Runs a word whose type must be one it admits. -/
def typed (ok : BitVec 3 → Bool) (o : XOp) (p : XPlan) (f : XFun) : Sem := fun s => do
  illegalIf (!ok o.ty)
  xrun o p f s

/-! ### Lane-wise computations -/

/-- Results of the enabled lanes and the OR of their events. -/
def laneMap (n : Nat) (en : Nat → Bool) (f : Nat → FRes) : List (List Nat) × Nat :=
  let rs := (List.range n).map fun i => if en i then f i else (0, 0)
  ([rs.map (·.1)], rs.foldl (fun a r => a ||| r.2) 0)

/-- A lane function of one operand. -/
def onLanes1 (w : Nat) (f : Nat → Bool → Nat → FRes) : XFun := fun rm sat en es =>
  let a := es.getD 0 0
  laneMap (1024 / w) en fun i => f rm sat (lane a w i)

def onLanes2 (w : Nat) (f : Nat → Bool → Nat → Nat → FRes) : XFun := fun rm sat en es =>
  let a := es.getD 0 0
  let b := es.getD 1 0
  laneMap (1024 / w) en fun i => f rm sat (lane a w i) (lane b w i)

def onLanes3 (w : Nat) (f : Nat → Bool → Nat → Nat → Nat → FRes) : XFun := fun rm sat en es =>
  let a := es.getD 0 0
  let b := es.getD 1 0
  let c := es.getD 2 0
  laneMap (1024 / w) en fun i => f rm sat (lane a w i) (lane b w i) (lane c w i)

/-- A lane function with no events. -/
def quiet2 (f : Nat → Nat → Nat) : Nat → Bool → Nat → Nat → FRes := fun _ _ a b => (f a b, 0)

/-! ### Floating-point arithmetic (R345-R349) -/

def semVadd (o : XOp) : Sem := typed tyFloat3 o (plan2 o 0) (onLanes2 (tyWidth o.ty) fun rm sat => (tyFmt o.ty).add rm sat)
def semVsub (o : XOp) : Sem := typed tyFloat3 o (plan2 o 0) (onLanes2 (tyWidth o.ty) fun rm sat => (tyFmt o.ty).sub rm sat)
def semVmul (o : XOp) : Sem := typed tyFloat3 o (plan2 o 0) (onLanes2 (tyWidth o.ty) fun rm sat => (tyFmt o.ty).mul rm sat)
def semVfma (o : XOp) : Sem :=
  typed tyFloat3 o (plan3 o 1) (onLanes3 (tyWidth o.ty) fun rm sat => (tyFmt o.ty).fma rm sat false false)
def semVfms (o : XOp) : Sem :=
  typed tyFloat3 o (plan3 o 1) (onLanes3 (tyWidth o.ty) fun rm sat => (tyFmt o.ty).fma rm sat false true)
def semVfnma (o : XOp) : Sem :=
  typed tyFloat3 o (plan3 o 1) (onLanes3 (tyWidth o.ty) fun rm sat => (tyFmt o.ty).fma rm sat true false)
def semVmin (o : XOp) : Sem := typed tyFloat3 o (plan2 o 0) (onLanes2 (tyWidth o.ty) fun _ _ => (tyFmt o.ty).minmax false)
def semVmax (o : XOp) : Sem := typed tyFloat3 o (plan2 o 0) (onLanes2 (tyWidth o.ty) fun _ _ => (tyFmt o.ty).minmax true)
def semVabs (o : XOp) : Sem := typed tyFloat3 o (plan1 o 0) (onLanes1 (tyWidth o.ty) fun _ _ => (tyFmt o.ty).abs)
def semVneg (o : XOp) : Sem := typed tyFloat3 o (plan1 o 0) (onLanes1 (tyWidth o.ty) fun _ _ => (tyFmt o.ty).negate)
def semVrcp (o : XOp) : Sem := typed tyFloat3 o (plan1 o 2) (onLanes1 (tyWidth o.ty) fun rm sat => (tyFmt o.ty).unit 0 rm sat)
def semVrsq (o : XOp) : Sem := typed tyFloat3 o (plan1 o 2) (onLanes1 (tyWidth o.ty) fun rm sat => (tyFmt o.ty).unit 1 rm sat)
def semVexp2 (o : XOp) : Sem := typed tyFloat3 o (plan1 o 2) (onLanes1 (tyWidth o.ty) fun rm sat => (tyFmt o.ty).unit 2 rm sat)
def semVlog2 (o : XOp) : Sem := typed tyFloat3 o (plan1 o 2) (onLanes1 (tyWidth o.ty) fun rm sat => (tyFmt o.ty).unit 3 rm sat)

/-- `VSCALEX`: the exponent is a signed integer of the lane's width (R348). -/
def semVscalex (o : XOp) : Sem :=
  typed tyFloat3 o (plan2 o 1) (onLanes2 (tyWidth o.ty) fun rm sat a n => (tyFmt o.ty).scale rm sat a (toInt (tyWidth o.ty) n))

/-- `VSCACC` (R349): f32 only. -/
def semVscacc (o : XOp) : Sem := typed (fun ty => ty == 0) o (plan3 o 1) (onLanes3 32 vscaccLane)

/-- `VADD`: issues the word (R345). -/
def execVadd (o : XOp) (s : State) : Host.Outcome State Fault Refusal := issue (Instr.vadd o) (semVadd o) s

/-- `VSUB`: issues the word (R345). -/
def execVsub (o : XOp) (s : State) : Host.Outcome State Fault Refusal := issue (Instr.vsub o) (semVsub o) s

/-- `VMUL`: issues the word (R345). -/
def execVmul (o : XOp) (s : State) : Host.Outcome State Fault Refusal := issue (Instr.vmul o) (semVmul o) s

/-- `VFMA`: issues the word (R346). -/
def execVfma (o : XOp) (s : State) : Host.Outcome State Fault Refusal := issue (Instr.vfma o) (semVfma o) s

/-- `VFMS`: issues the word (R346). -/
def execVfms (o : XOp) (s : State) : Host.Outcome State Fault Refusal := issue (Instr.vfms o) (semVfms o) s

/-- `VFNMA`: issues the word (R346). -/
def execVfnma (o : XOp) (s : State) : Host.Outcome State Fault Refusal := issue (Instr.vfnma o) (semVfnma o) s

/-- `VMIN`: issues the word (R345). -/
def execVmin (o : XOp) (s : State) : Host.Outcome State Fault Refusal := issue (Instr.vmin o) (semVmin o) s

/-- `VMAX`: issues the word (R345). -/
def execVmax (o : XOp) (s : State) : Host.Outcome State Fault Refusal := issue (Instr.vmax o) (semVmax o) s

/-- `VABS`: issues the word (R345). -/
def execVabs (o : XOp) (s : State) : Host.Outcome State Fault Refusal := issue (Instr.vabs o) (semVabs o) s

/-- `VNEG`: issues the word (R345). -/
def execVneg (o : XOp) (s : State) : Host.Outcome State Fault Refusal := issue (Instr.vneg o) (semVneg o) s

/-- `VRCP`: issues the word (R347). -/
def execVrcp (o : XOp) (s : State) : Host.Outcome State Fault Refusal := issue (Instr.vrcp o) (semVrcp o) s

/-- `VRSQ`: issues the word (R347). -/
def execVrsq (o : XOp) (s : State) : Host.Outcome State Fault Refusal := issue (Instr.vrsq o) (semVrsq o) s

/-- `VEXP2`: issues the word (R347). -/
def execVexp2 (o : XOp) (s : State) : Host.Outcome State Fault Refusal := issue (Instr.vexp2 o) (semVexp2 o) s

/-- `VLOG2`: issues the word (R347). -/
def execVlog2 (o : XOp) (s : State) : Host.Outcome State Fault Refusal := issue (Instr.vlog2 o) (semVlog2 o) s

/-- `VSCALEX`: issues the word (R348). -/
def execVscalex (o : XOp) (s : State) : Host.Outcome State Fault Refusal := issue (Instr.vscalex o) (semVscalex o) s

/-- `VSCACC`: issues the word (R349). -/
def execVscacc (o : XOp) (s : State) : Host.Outcome State Fault Refusal := issue (Instr.vscacc o) (semVscacc o) s

/-! ### Compare, select and masks (R350-R353) -/

/-- An integer compare of `w`-bit lanes. -/
def intCompare (w cond a b : Nat) : Bool :=
  let x := toInt w a
  let y := toInt w b
  match cond with
  | 0 => a == b
  | 1 => a != b
  | 2 => decide (x < y)
  | 3 => decide (x ≤ y)
  | 4 => decide (y < x)
  | 5 => decide (y ≤ x)
  | 6 => decide (a < b)
  | _ => decide (b ≤ a)

/-- One bit a lane, in lanes of one bit. -/
def bitsEntry (n : Nat) (f : Nat → Bool × Nat) : List (List Nat) × Nat :=
  let rs := (List.range n).map f
  ([rs.map fun r => b2n r.1], rs.foldl (fun a r => a ||| r.2) 0)

def semVcmp (o : XOp) : Sem :=
  let w := tyWidth o.ty
  typed (fun ty => tyFloat3 ty || tyInt ty) o { plan2 o 0 with masked := false, merge := false, w := 1 } fun _ _ _ es =>
    bitsEntry (1024 / w) fun i =>
      let a := lane (es.getD 0 0) w i
      let b := lane (es.getD 1 0) w i
      if tyInt o.ty then (intCompare w o.m.toNat a b, 0) else (tyFmt o.ty).compare o.m.toNat a b

/-- `VSEL` copies encodings by the select mask; m = 0 raises `ILLEGAL` (R351). -/
def semVsel (o : XOp) : Sem := fun s => do
  illegalIf (o.m == 0)
  let w := tyWidth o.ty
  xrun o { plan2 o 0 with merge := false } (fun _ _ en es =>
    ([(List.range (1024 / w)).map fun i => lane (if en i then es.getD 0 0 else es.getD 1 0) w i], 0)) s

/-- Mask logic on bits 0 to N − 1 (R352). Bit i is lane i for the mask and the undisturbed rule. -/
def maskLogic (o : XOp) (p : XPlan) (f : Bool → Bool → Bool) : Sem :=
  let n := 1024 / tyWidth o.ty
  xrun o { p with w := 1 } fun _ _ _ es =>
    ([(List.range n).map fun i => b2n (f (maskBit (es.getD 0 0) i) (maskBit (es.getD 1 0) i))], 0)

def semVmand (o : XOp) : Sem := maskLogic o (plan2 o 0) fun a b => a && b
def semVmor (o : XOp) : Sem := maskLogic o (plan2 o 0) fun a b => a || b
def semVmxor (o : XOp) : Sem := maskLogic o (plan2 o 0) fun a b => a != b
def semVmnot (o : XOp) : Sem := maskLogic o (plan1 o 0) fun a _ => !a

/-- `VIOTA`: lane i counts the set bits below it (R352). -/
def semViota (o : XOp) : Sem :=
  let w := tyWidth o.ty
  typed tyInt o (plan1 o 0) fun _ _ _ es =>
    ([(List.range (1024 / w)).map fun i => ((List.range i).filter fun j => maskBit (es.getD 0 0) j).length % 2 ^ w], 0)

/-- Enabled set lanes (R353). -/
def setLanes (n : Nat) (en : Nat → Bool) (a : Entry) : List Nat := (List.range n).filter fun i => en i && maskBit a i

/-- A word whose one 64-bit result goes to `XQ`. -/
def planXq (p : XPlan) : XPlan := { p with vd := 16, merge := false, w := 1024 }

def semVmpop (o : XOp) : Sem :=
  xrun o (planXq (plan1 o 0)) fun _ _ en es => ([[(setLanes (1024 / tyWidth o.ty) en (es.getD 0 0)).length]], 0)

def semVmfirst (o : XOp) : Sem :=
  xrun o (planXq (plan1 o 0)) fun _ _ en es => ([[(setLanes (1024 / tyWidth o.ty) en (es.getD 0 0)).headD (2 ^ 64 - 1)]], 0)

/-- `VCMP`: issues the word (R350). -/
def execVcmp (o : XOp) (s : State) : Host.Outcome State Fault Refusal := issue (Instr.vcmp o) (semVcmp o) s

/-- `VSEL`: issues the word (R351). -/
def execVsel (o : XOp) (s : State) : Host.Outcome State Fault Refusal := issue (Instr.vsel o) (semVsel o) s

/-- `VMAND`: issues the word (R352). -/
def execVmand (o : XOp) (s : State) : Host.Outcome State Fault Refusal := issue (Instr.vmand o) (semVmand o) s

/-- `VMOR`: issues the word (R352). -/
def execVmor (o : XOp) (s : State) : Host.Outcome State Fault Refusal := issue (Instr.vmor o) (semVmor o) s

/-- `VMXOR`: issues the word (R352). -/
def execVmxor (o : XOp) (s : State) : Host.Outcome State Fault Refusal := issue (Instr.vmxor o) (semVmxor o) s

/-- `VMNOT`: issues the word (R352). -/
def execVmnot (o : XOp) (s : State) : Host.Outcome State Fault Refusal := issue (Instr.vmnot o) (semVmnot o) s

/-- `VIOTA`: issues the word (R352). -/
def execViota (o : XOp) (s : State) : Host.Outcome State Fault Refusal := issue (Instr.viota o) (semViota o) s

/-- `VMPOP`: issues the word (R353). -/
def execVmpop (o : XOp) (s : State) : Host.Outcome State Fault Refusal := issue (Instr.vmpop o) (semVmpop o) s

/-- `VMFIRST`: issues the word (R353). -/
def execVmfirst (o : XOp) (s : State) : Host.Outcome State Fault Refusal := issue (Instr.vmfirst o) (semVmfirst o) s

/-! ### Conversions (R354-R357) -/

/-- Source type and saturation of a `VCVT` source code. -/
def cvtSource (vb : BitVec 4) : Option (BitVec 3 × Bool) :=
  if vb.toNat < 8 then some (vb.setWidth 3, false)
  else if vb = 13 then some (5, true)
  else if vb = 14 then some (6, true)
  else none

/-- One element from a source type to a destination type. -/
def cvtElem (sty dty : BitVec 3) (satInt : Bool) (rm : Nat) (sat : Bool) (c : Nat) : FRes :=
  let ws := tyWidth sty
  let wd := tyWidth dty
  match tyInt sty, tyInt dty with
  | false, false =>
    if sty = dty then (if ((tyFmt sty).val c).isNan then (tyFmt sty).convert (tyFmt sty) rm sat c else (c, 0))
    else (tyFmt sty).convert (tyFmt dty) rm sat c
  | false, true => (tyFmt sty).toIntLane rm wd c
  | true, false => (tyFmt dty).ofInt rm sat (toInt ws c)
  | true, true =>
    let x := toInt ws c
    (wrapInt wd (if satInt then max (intMin wd) (min (intMax wd) x) else x), 0)

/-- Replaces lanes `first` on by converted elements. -/
def placeLanes (base : List Nat) (first : Nat) (vs : List Nat) : List Nat := base.take first ++ vs ++ base.drop (first + vs.length)

/-- Converts a list of lanes, with the OR of the events. -/
def cvtAll (f : Nat → FRes) (vs : List Nat) : List Nat × Nat :=
  let rs := vs.map f
  (rs.map (·.1), rs.foldl (fun a r => a ||| r.2) 0)

/-- A narrowing word: part `part` of an entry of `wd`-bit elements, the rest from vd's oldest entry. -/
def narrowing (o : XOp) (ws wd : Nat) (f : Nat → Bool → Nat → FRes) : Sem :=
  let k := ws / wd
  let part := o.m.toNat
  let n := 1024 / ws
  let src := (o.va.toNat, o.pa == 1, ws)
  fun s => do
    illegalIf (decide (k ≤ part))
    xrun o { reads := if part = 0 then [src] else [src, (o.vd.toNat, false, wd)], masked := false, merge := false
             vd := o.vd.toNat, w := wd, pushes := 1, latMin := 1 }
      (fun rm sat _ es =>
        let r := cvtAll (f rm sat) (lanes (es.getD 0 0) ws)
        ([placeLanes (lanes (es.getD 1 0) wd) (part * n) r.1], r.2)) s

/-- A widening word: part `part` of its source. -/
def widening (o : XOp) (ws wd : Nat) (f : Nat → Bool → Nat → FRes) : Sem :=
  let k := wd / ws
  let part := o.m.toNat
  let n := 1024 / wd
  fun s => do
    illegalIf (decide (k ≤ part))
    xrun o { reads := [(o.va.toNat, o.pa == 1, ws)], masked := false, merge := false, vd := o.vd.toNat, w := wd, pushes := 1, latMin := 1 }
      (fun rm sat _ es =>
        let r := cvtAll (f rm sat) (((lanes (es.getD 0 0) ws).drop (part * n)).take n)
        ([r.1], r.2)) s

def semVcvt (o : XOp) : Sem := fun s =>
  match cvtSource o.vb with
  | none => illegal
  | some (sty, satInt) => do
    let ws := tyWidth sty
    let wd := tyWidth o.ty
    illegalIf (satInt && !(tyInt o.ty && decide (wd < ws)))
    if ws < wd then widening o ws wd (cvtElem sty o.ty satInt) s else narrowing o ws wd (cvtElem sty o.ty satInt) s

/-- One packed element (R355). -/
def packElem (fmt : Nat) (sty : BitVec 3) (rm : Nat) (c : Nat) : FRes :=
  let x := toInt (tyWidth sty) c
  match fmt with
  | 0 => (tyFmt sty).convert .e2m1 rm false c
  | 1 => (c % 16, 0)
  | 2 => (c % 256, 0)
  | 3 => ((max 0 (min 15 x)).toNat, 0)
  | _ => ((max 0 (min 255 x)).toNat, 0)

def semVpack (o : XOp) : Sem := fun s => do
  let fmt := o.vb.toNat
  illegalIf (decide (5 ≤ fmt) || (if fmt = 0 then tyInt o.ty else !tyInt o.ty))
  narrowing o (tyWidth o.ty) (if fmt = 2 ∨ fmt = 4 then 8 else 4) (fun rm _ => packElem fmt o.ty rm) s

/-- One unpacked element (R356). -/
def unpackElem (fmt : Nat) (dty : BitVec 3) (c : Nat) : FRes := if fmt = 0 then Fmt.e2m1.convert (tyFmt dty) 0 false c else (c, 0)

def semVunpk (o : XOp) : Sem := fun s => do
  let fmt := o.vb.toNat
  illegalIf (decide (3 ≤ fmt) || (if fmt = 0 then tyInt o.ty else !tyInt o.ty) || (fmt == 2 && o.ty == 7))
  widening o (if fmt = 2 then 8 else 4) (tyWidth o.ty) (fun _ _ => unpackElem fmt o.ty) s

/-- `VZP` (R357): code width, elements of a zero-point block, result width, clamped, pushes. -/
def zpForm (ty : BitVec 3) : Option (Nat × Nat × Nat × Bool × Nat) :=
  if ty = 7 then some (4, 8, 8, false, 2) else if ty = 6 then some (8, 32, 16, false, 2) else if ty = 5 then some (8, 32, 8, true, 1) else none

def semVzp (o : XOp) : Sem := fun s =>
  match zpForm o.ty with
  | none => illegal
  | some (cw, blk, w, clamp, pushes) =>
    let n := 1024 / w
    xrun o { reads := [(o.va.toNat, o.pa == 1, cw), (o.vb.toNat, o.pb == 1, cw)], masked := true, merge := true, vd := o.vd.toNat
             w := w, pushes := pushes, latMin := 1 }
      (fun _ _ _ es =>
        ((List.range pushes).map fun j => (List.range n).map fun i =>
          let e := n * j + i
          let d : Int := (lane (es.getD 0 0) cw e : Int) - lane (es.getD 1 0) cw (e / blk)
          wrapInt w (if clamp then max (-128) (min 127 d) else d), 0)) s

/-- `VCVT`: issues the word (R354). -/
def execVcvt (o : XOp) (s : State) : Host.Outcome State Fault Refusal := issue (Instr.vcvt o) (semVcvt o) s

/-- `VPACK`: issues the word (R355). -/
def execVpack (o : XOp) (s : State) : Host.Outcome State Fault Refusal := issue (Instr.vpack o) (semVpack o) s

/-- `VUNPK`: issues the word (R356). -/
def execVunpk (o : XOp) (s : State) : Host.Outcome State Fault Refusal := issue (Instr.vunpk o) (semVunpk o) s

/-- `VZP`: issues the word (R357). -/
def execVzp (o : XOp) (s : State) : Host.Outcome State Fault Refusal := issue (Instr.vzp o) (semVzp o) s

/-! ### Reductions (R358) -/

/-- Integer reduction: 0 add, 1 maximum, 2 minimum. -/
def intReduce (w op : Nat) (vs : List Int) : Nat :=
  wrapInt w (match op with
    | 0 => vs.foldl (· + ·) 0
    | 1 => vs.foldl max (intMin w)
    | _ => vs.foldl min (intMax w))

def reduction (op : Nat) (o : XOp) : Sem :=
  let w := tyWidth o.ty
  let n := 1024 / w
  fun s => do
    illegalIf (o.ma == 1)
    xrun o { plan1 o 2 with merge := false } (fun rm sat en es =>
      let ls := (lanes (es.getD 0 0) w).zipIdx
      let r : FRes :=
        if tyInt o.ty then (intReduce w op ((ls.filter fun p => en p.2).map fun p => toInt w p.1), 0)
        else (tyFmt o.ty).reduce op rm sat (ls.map fun p => if en p.2 then some p.1 else none)
      ([List.replicate n r.1], r.2)) s

def semVredadd (o : XOp) : Sem := reduction 0 o
def semVredmax (o : XOp) : Sem := reduction 1 o
def semVredmin (o : XOp) : Sem := reduction 2 o

/-- `VREDADD`: issues the word (R358). -/
def execVredadd (o : XOp) (s : State) : Host.Outcome State Fault Refusal := issue (Instr.vredadd o) (semVredadd o) s

/-- `VREDMAX`: issues the word (R358). -/
def execVredmax (o : XOp) (s : State) : Host.Outcome State Fault Refusal := issue (Instr.vredmax o) (semVredmax o) s

/-- `VREDMIN`: issues the word (R358). -/
def execVredmin (o : XOp) (s : State) : Host.Outcome State Fault Refusal := issue (Instr.vredmin o) (semVredmin o) s

/-! ### Moves, permutes and clearing (R359, R360, R363) -/

/-- A lane of an entry by a signed index, zero outside. -/
def laneAt (e : Entry) (w : Nat) (j : Int) : Nat := if 0 ≤ j ∧ j < (1024 / w : Nat) then lane e w j.toNat else 0

def moveLanes (o : XOp) (p : XPlan) (f : Entry → Entry → Nat → Int) : Sem :=
  let w := tyWidth o.ty
  xrun o p fun _ _ _ es =>
    ([(List.range (1024 / w)).map fun i => laneAt (es.getD 0 0) w (f (es.getD 0 0) (es.getD 1 0) i)], 0)

def semVperm (o : XOp) : Sem := moveLanes o (plan2 o 1) fun _ b i => lane b (tyWidth o.ty) i
def semVslide (o : XOp) : Sem := moveLanes o (plan2 o 0) fun _ b i => i + toInt (tyWidth o.ty) (lane b (tyWidth o.ty) 0)
def semVbcast (o : XOp) : Sem := moveLanes o (plan2 o 0) fun _ b _ => lane b (tyWidth o.ty) 0
def semVmov (o : XOp) : Sem := moveLanes o (plan1 o 0) fun _ _ i => i

/-- `VCLR` empties a v register at its issue and retires at issue + 2 (R261, R360). -/
def semVclr (o : XOp) : Sem := fun s => do
  illegalIf (o.ty != 0 || decide (12 ≤ o.vd.toNat))
  let (s, sig) ← s.syncTake o.sync
  if sig.isSome then quiet s else .ok ()
  let s := { s with core := s.core.setQueue o.vd.toNat [] }
  .ok (.next (s.flightPush o.vd.toNat (s.core.xIssue + 2) [] 0 sig.isSome))

/-- `VXTR`: one lane as a 64-bit scalar (R363). -/
def semVxtr (o : XOp) : Sem :=
  let w := tyWidth o.ty
  xrun o { planXq (plan2 o 1) with masked := false } fun _ _ _ es =>
    let j := lane (es.getD 1 0) w 0
    let v := if j < 1024 / w then lane (es.getD 0 0) w j else 0
    ([[if tyInt o.ty then (sextNat w v).toNat else v]], 0)

/-- `VPERM`: issues the word (R359). -/
def execVperm (o : XOp) (s : State) : Host.Outcome State Fault Refusal := issue (Instr.vperm o) (semVperm o) s

/-- `VSLIDE`: issues the word (R359). -/
def execVslide (o : XOp) (s : State) : Host.Outcome State Fault Refusal := issue (Instr.vslide o) (semVslide o) s

/-- `VBCAST`: issues the word (R359). -/
def execVbcast (o : XOp) (s : State) : Host.Outcome State Fault Refusal := issue (Instr.vbcast o) (semVbcast o) s

/-- `VMOV`: issues the word (R359). -/
def execVmov (o : XOp) (s : State) : Host.Outcome State Fault Refusal := issue (Instr.vmov o) (semVmov o) s

/-- `VCLR`: issues the word (R360). -/
def execVclr (o : XOp) (s : State) : Host.Outcome State Fault Refusal := issue (Instr.vclr o) (semVclr o) s

/-- `VXTR`: issues the word (R363). -/
def execVxtr (o : XOp) (s : State) : Host.Outcome State Fault Refusal := issue (Instr.vxtr o) (semVxtr o) s

/-! ### Integer and bitwise arithmetic (R361, R362) -/

/-- A lane function on signed values, wrapped. -/
def intOp (w : Nat) (f : Int → Int → Int) : Nat → Nat → Nat := fun a b => wrapInt w (f (toInt w a) (toInt w b))

/-- An integer word of two sources. -/
def intWord (o : XOp) (lat : Nat) (f : Nat → Nat → Nat → Nat) : Sem :=
  typed tyInt o (plan2 o lat) (onLanes2 (tyWidth o.ty) (quiet2 (f (tyWidth o.ty))))

def semViadd (o : XOp) : Sem := intWord o 0 fun w => intOp w (· + ·)
def semVisub (o : XOp) : Sem := intWord o 0 fun w => intOp w (· - ·)
def semVimul (o : XOp) : Sem := intWord o 1 fun w => intOp w (· * ·)
def semVimulh (o : XOp) : Sem := intWord o 1 fun w => intOp w fun a b => a * b / 2 ^ w
def semVimin (o : XOp) : Sem := intWord o 0 fun w => intOp w min
def semVimax (o : XOp) : Sem := intWord o 0 fun w => intOp w max
def semViabs (o : XOp) : Sem :=
  typed tyInt o (plan1 o 0) (onLanes1 (tyWidth o.ty) fun _ _ a => (wrapInt (tyWidth o.ty) (toInt (tyWidth o.ty) a).natAbs, 0))

/-- Shift amount: the low log2 w bits. -/
def laneShift (w b : Nat) : Nat := b % w

def semVsll (o : XOp) : Sem := intWord o 0 fun w a b => a * 2 ^ laneShift w b % 2 ^ w
def semVsrl (o : XOp) : Sem := intWord o 0 fun w a b => a / 2 ^ laneShift w b
def semVsra (o : XOp) : Sem := intWord o 0 fun w a b => wrapInt w (toInt w a / 2 ^ laneShift w b)

/-- Lanes combined bit by bit; every type is admitted (R362). -/
def bitWord (o : XOp) (f : Nat → Nat → Nat) : Sem := xrun o (plan2 o 0) (onLanes2 (tyWidth o.ty) (quiet2 f))

def semVand (o : XOp) : Sem := bitWord o (· &&& ·)
def semVor (o : XOp) : Sem := bitWord o (· ||| ·)
def semVxor (o : XOp) : Sem := bitWord o (· ^^^ ·)

/-- `VIADD`: issues the word (R361). -/
def execViadd (o : XOp) (s : State) : Host.Outcome State Fault Refusal := issue (Instr.viadd o) (semViadd o) s

/-- `VISUB`: issues the word (R361). -/
def execVisub (o : XOp) (s : State) : Host.Outcome State Fault Refusal := issue (Instr.visub o) (semVisub o) s

/-- `VIMUL`: issues the word (R361). -/
def execVimul (o : XOp) (s : State) : Host.Outcome State Fault Refusal := issue (Instr.vimul o) (semVimul o) s

/-- `VIMULH`: issues the word (R361). -/
def execVimulh (o : XOp) (s : State) : Host.Outcome State Fault Refusal := issue (Instr.vimulh o) (semVimulh o) s

/-- `VIMIN`: issues the word (R361). -/
def execVimin (o : XOp) (s : State) : Host.Outcome State Fault Refusal := issue (Instr.vimin o) (semVimin o) s

/-- `VIMAX`: issues the word (R361). -/
def execVimax (o : XOp) (s : State) : Host.Outcome State Fault Refusal := issue (Instr.vimax o) (semVimax o) s

/-- `VIABS`: issues the word (R361). -/
def execViabs (o : XOp) (s : State) : Host.Outcome State Fault Refusal := issue (Instr.viabs o) (semViabs o) s

/-- `VSLL`: issues the word (R361). -/
def execVsll (o : XOp) (s : State) : Host.Outcome State Fault Refusal := issue (Instr.vsll o) (semVsll o) s

/-- `VSRL`: issues the word (R361). -/
def execVsrl (o : XOp) (s : State) : Host.Outcome State Fault Refusal := issue (Instr.vsrl o) (semVsrl o) s

/-- `VSRA`: issues the word (R361). -/
def execVsra (o : XOp) (s : State) : Host.Outcome State Fault Refusal := issue (Instr.vsra o) (semVsra o) s

/-- `VAND`: issues the word (R362). -/
def execVand (o : XOp) (s : State) : Host.Outcome State Fault Refusal := issue (Instr.vand o) (semVand o) s

/-- `VOR`: issues the word (R362). -/
def execVor (o : XOp) (s : State) : Host.Outcome State Fault Refusal := issue (Instr.vor o) (semVor o) s

/-- `VXOR`: issues the word (R362). -/
def execVxor (o : XOp) (s : State) : Host.Outcome State Fault Refusal := issue (Instr.vxor o) (semVxor o) s

end Sys2Proof.Machine
end

