-- ==== Sys2Proof/Machine/Matrix.lean ====
section
/-! DEFINITION. The numbers of the matrix engine: operand tiles (R378, R379), one block step (R242, R243), ranking (R382). -/

namespace Sys2Proof.Machine

/-! ### Operand types (R378) -/

/-- Element type of an operand. -/
inductive ElType where
  | float (f : Fmt)
  /-- Offset binary of 4 or 8 bits (R234). -/
  | ob (w : Nat)
  deriving DecidableEq, Repr

def ElType.width : ElType → Nat
  | .float f => f.width
  | .ob w => w

/-- A type pair: operands, the factor of the duration, and whether `MDIST` admits it. -/
structure TypePair where
  a : ElType
  b : ElType
  f : Nat
  dist : Bool
  deriving DecidableEq, Repr

def typePair (tp : Nat) : Option TypePair :=
  match tp with
  | 0 => some { a := .float .e2m1, b := .float .e2m1, f := 1, dist := true }
  | 1 => some { a := .ob 4, b := .ob 4, f := 1, dist := true }
  | 2 => some { a := .float .e4m3, b := .float .e4m3, f := 2, dist := true }
  | 3 => some { a := .float .e4m3, b := .float .e5m2, f := 2, dist := false }
  | 4 => some { a := .float .e5m2, b := .float .e4m3, f := 2, dist := false }
  | 5 => some { a := .float .e5m2, b := .float .e5m2, f := 2, dist := true }
  | 6 => some { a := .ob 8, b := .ob 8, f := 2, dist := true }
  | 7 => some { a := .float .e2m1, b := .float .e4m3, f := 2, dist := false }
  | 8 => some { a := .float .bf16, b := .float .bf16, f := 4, dist := true }
  | _ => none

/-! ### Operand tiles (R379) -/

/-- Bytes of a tile with `k` elements along K. -/
def tileBytes (t : ElType) (scl : Bool) (k : Nat) : Nat :=
  16 * k * t.width + (if scl then 16 * k else 0) +
    match t with | .ob 4 => 8 * k | .ob _ => 4 * k | .float _ => 0

/-- Number `i` of a packed array of `w`-bit numbers. -/
def packedAt (bs : List Byte) (w i : Nat) : Nat :=
  if w = 4 then (bs.getD (i / 2) 0).toNat / 16 ^ (i % 2) % 16
  else if w = 8 then (bs.getD i 0).toNat
  else (bs.getD (2 * i) 0).toNat + 256 * (bs.getD (2 * i + 1) 0).toNat

/-- A tile split into its parts. -/
structure Tile2 where
  ty : ElType
  k : Nat
  elems : List Byte
  /-- Block scales; none = all 0x80. -/
  scales : Option (List Byte)
  zeros : List Byte
  deriving DecidableEq, Repr

def cutTile (t : ElType) (scl : Bool) (k : Nat) (bs : List Byte) : Tile2 :=
  let ne := 16 * k * t.width
  let rest := bs.drop ne
  { ty := t, k := k, elems := bs.take ne, scales := if scl then some (rest.take (16 * k)) else none
    zeros := if scl then rest.drop (16 * k) else rest }

/-- Value of element (i, k). -/
def Tile2.value (t : Tile2) (i k : Nat) : FVal :=
  let c := packedAt t.elems t.ty.width (i * t.k + k)
  match t.ty with
  | .float f => f.val c
  | .ob w =>
    let z := if w = 4 then packedAt t.zeros 4 (i * (t.k / 8) + k / 8) else packedAt t.zeros 8 (i * (t.k / 32) + k / 32)
    let d := (c : Int) - z
    .num (decide (d < 0)) d.natAbs 0

/-- The E3M5 scale of block `b` of row `i` (R232), as m × 2^e. -/
def Tile2.scale (t : Tile2) (i b : Nat) : Nat × Int :=
  match t.scales with
  | none => (1, 0)
  | some ss =>
    let c := (ss.getD (i * (t.k / 8) + b) 0).toNat
    if c / 32 = 0 then (c % 32, -8) else (32 + c % 32, (c / 32 : Int) - 9)

/-! ### One block (R242, R243) -/

/-- A product term: a × b, or (a − b)²; none for an invalid operation. -/
def term (dist : Bool) (a b : FVal) : Option FVal :=
  if dist then match a.add 0 b.neg with
    | some d => d.mul d
    | none => none
  else a.mul b

/-- The sum of terms; none for infinities of both signs or an invalid term. -/
def sumTerms (dist : Bool) : List (FVal × FVal) → Option FVal → Option FVal
  | [], acc => acc
  | (a, b) :: l, acc =>
    match acc, term dist a b with
    | some x, some y => sumTerms dist l (x.add 0 y)
    | _, _ => none

/-- What one block adds, and NV. -/
def blockValue (dist : Bool) (ab : List (FVal × FVal)) (sa sb : Nat × Int) : BlockVal × Nat :=
  if sa.1 = 0 ∨ sb.1 = 0 then (.fin 0 0, 0)
  else
    let nv := if ab.any (fun p => p.1.signals || p.2.signals) then fNV else 0
    if ab.any (fun p => p.1.isNan || p.2.isNan) then (.nan, nv)
    else match sumTerms dist ab (some (.num false 0 0)) with
      | none => (.nan, fNV)
      | some (.inf n) => (.inf n, 0)
      | some (.num n m e) => (.fin (if n then -(m * sa.1 * sb.1 : Int) else (m * sa.1 * sb.1 : Int)) (e + sa.2 + sb.2), 0)
      | some (.nan _ _) => (.nan, nv)

/-- Element (i, j) over the blocks `b`, `b + 1`, …, `b + n - 1`. -/
def blocks (dist : Bool) (ta tb : Tile2) (i j : Nat) : Nat → Nat → FRes → FRes
  | 0, _, r => r
  | n + 1, b, r =>
    let ab := (List.range 8).map fun t => (ta.value i (8 * b + t), tb.value j (8 * b + t))
    let v := blockValue dist ab (ta.scale i b) (tb.scale j b)
    let x := blockAdd r.1 v.1
    blocks dist ta tb i j n (b + 1) (x.1, r.2 ||| v.2 ||| x.2)

/-- The product command on a whole accumulator: its elements and its flags. -/
def product (dist : Bool) (ta tb : Tile2) (acc : List (BitVec 32)) : List (BitVec 32) × Nat :=
  let rs := (acc.zipIdx).map fun p => blocks dist ta tb (p.2 / 128) (p.2 % 128) (ta.k / 8) 0 (p.1.toNat, 0)
  (rs.map fun r => BitVec.ofNat 32 r.1, rs.foldl (fun f r => f ||| r.2) 0)

/-! ### Loads into an accumulator (R381) -/

/-- A loaded FP32 code with a signalling NaN quieted, and NV. -/
def quieted (c : Nat) : FRes := if (Fmt.f32.val c).signals then (c ||| 2 ^ 22, fNV) else (c, 0)

/-- Element formats of `MLOAD` and `MOUT`. -/
def accFmt (f : Nat) : Option Fmt :=
  match f with
  | 0 => some .f32 | 1 => some .bf16 | 2 => some .f16 | 3 => some .e4m3 | 4 => some .e5m2 | _ => none

/-! ### Ranking (R382) -/

/-- A candidate: FP32 code, column, and whether it was read from the destination. -/
structure Cand where
  code : Nat
  col : Nat
  old : Bool
  deriving DecidableEq, Repr

/-- `x` ranks before `y`. -/
def Cand.before (large : Bool) (x y : Cand) : Bool :=
  let a := Fmt.f32.val x.code
  let b := Fmt.f32.val y.code
  let first := if a.isNan then false else if b.isNan then true else if large then b.lt false a else a.lt false b
  let second := if b.isNan then false else if a.isNan then true else if large then a.lt false b else b.lt false a
  if first then true else if second then false
  else if x.col < y.col then true else if y.col < x.col then false else x.old && !y.old

/-- Inserts a candidate in rank order, after those that rank with it. -/
def insertCand (large : Bool) (c : Cand) : List Cand → List Cand
  | [] => [c]
  | d :: ds => if c.before large d then c :: d :: ds else d :: insertCand large c ds

/-- The `k` best. -/
def bestCands (large : Bool) (k : Nat) (cs : List Cand) : List Cand :=
  (cs.foldl (fun l c => insertCand large c l) []).take k

/-- The 8-byte result element. -/
def Cand.word (c : Cand) : Nat := c.code * 2 ^ 32 + c.col

end Sys2Proof.Machine
end

