-- ==== Sys2Proof/Machine/Engines.lean ====
section
/-! DEFINITION. Engine jobs: records and their checks (R369, R375-R391), how an engine reaches memory (R26), arbitration (R225), and the steps of
the matrix and copy engines (R376-R392). -/

namespace Sys2Proof.Machine

/-! ### Fields of records -/

def recWord (r : List Word) (i : Nat) : Word := r.getD i 0

/-- Field of word `i`. -/
def recFld (r : List Word) (i lo len : Nat) : Nat := bitsAt (recWord r i) lo len

/-- A job handle (R365). -/
def Job.handle (j : Job) : Nat := 4096 * j.eng + j.id

/-- Dimensions of a CPY record: count, source stride, destination stride, from dimension 1. -/
def cpyDims (r : List Word) : List (Nat × Int × Int) :=
  (List.range (recFld r 0 50 4 - 1)).map fun i =>
    (recFld r (4 + 2 * i) 40 24, toInt 40 (recFld r (4 + 2 * i) 0 40), toInt 40 (recFld r (5 + 2 * i) 0 40))

/-! ### Record checks (R369) -/

/-- Engine and length a record must have; none if its `OP` is reserved. -/
def recShape (r : List Word) : Option (Nat × Nat) :=
  match recOp r with
  | 0x01 | 0x02 => some (0, 2)
  | 0x03 | 0x05 | 0x06 => some (0, 3)
  | 0x04 => some (0, 1)
  | 0x10 => some (1, 2 + 2 * recFld r 0 50 4)
  | 0x11 => some (1, 4)
  | 0x12 | 0x13 => some (1, 6)
  | 0x14 => some (1, 3)
  | _ => none

/-- A ring as an agent of context `c` finds it: base and tile size in units, depth; none if undefined or another context's. -/
def State.ringOf (s : State) (g n c : Nat) : Option (Nat × Nat × Nat) :=
  let r := s.reg (ringReg g n)
  if bitsAt r 25 7 = 0 ∨ bitsAt r 43 6 ≠ c then none else some (bitsAt r 0 14, bitsAt r 14 11, bitsAt r 25 7)

/-- The tiles of a product record fit their rings, where those are usable. -/
def State.tilesFit (s : State) (g c : Nat) (r : List Word) : Bool :=
  match typePair (recFld r 0 50 4) with
  | none => false
  | some tp =>
    let fits := fun (t : ElType) (ring : Nat) => match s.ringOf g ring c with
      | some (_, ts, _) => decide (tileBytes t (recFld r 0 47 1 == 1) (32 * recFld r 1 48 8) ≤ 128 * ts)
      | none => true
    fits tp.a (recFld r 1 60 4) && fits tp.b (recFld r 1 56 4)

/-- The fields of a record lie in their ranges. -/
def State.recFields (s : State) (g c : Nat) (r : List Word) : Bool :=
  match recOp r with
  | 0x01 | 0x02 =>
    let kb := recFld r 1 48 8
    recFld r 0 40 5 == 0 && recFld r 1 0 48 == 0 && recFld r 1 60 4 != recFld r 1 56 4 && decide (1 ≤ kb ∧ kb ≤ 128) &&
      (match typePair (recFld r 0 50 4) with | some tp => recOp r == 1 || tp.dist | none => false) && s.tilesFit g c r
  | 0x03 => recFld r 0 50 4 == 0 && recFld r 1 0 3 == 0 && recFld r 2 0 32 == 0
  | 0x04 => recFld r 0 50 4 != 0 && recFld r 0 40 10 == 0
  | 0x05 =>
    let e := if recFld r 0 45 3 = 0 then 4 else 2
    recFld r 0 50 4 == 0 && decide (recFld r 0 45 3 ≤ 1) && recFld r 0 40 5 == 0 && recFld r 2 32 32 == 0 &&
      (recWord r 1).toNat % e == 0 && (recWord r 2).toNat % e == 0
  | 0x06 =>
    let f := recFld r 0 45 3
    let e := if f = 0 then 4 else if f ≤ 2 then 2 else 1
    recFld r 0 50 4 == 0 && decide (f ≤ 4) && recFld r 0 40 4 == 0 && recFld r 2 32 32 == 0 &&
      (recWord r 1).toNat % e == 0 && (recWord r 2).toNat % e == 0
  | 0x10 =>
    let ds := cpyDims r
    decide (1 ≤ recFld r 0 50 4 ∧ recFld r 0 50 4 ≤ 12) && recFld r 0 40 10 == 0 && recFld r 3 32 32 == 0 && recFld r 3 0 32 != 0 &&
      ds.all (fun d => d.1 != 0) && (List.range (recFld r 0 50 4 - 1)).all (fun i => recFld r (5 + 2 * i) 40 24 == 0) &&
      decide (ds.foldl (fun p d => p * d.1) (recFld r 3 0 32) < 2 ^ 33)
  | 0x11 => recFld r 0 40 14 == 0 && recFld r 2 33 31 == 0 && recFld r 2 0 33 != 0
  | 0x12 | 0x13 =>
    recFld r 0 40 14 == 0 && recFld r 4 40 24 != 0 && recFld r 4 16 24 != 0 && recFld r 4 1 15 == 0 && recFld r 5 40 24 == 0
  | 0x14 => recFld r 0 40 4 == 0 && recFld r 2 40 24 == 0
  | _ => true

/-- Cuts staged words into records and checks each: the records, and the index of the first that fails (log 25). -/
def State.parseJob (s : State) (g c eng : Nat) : Nat → Nat → List Word → List (List Word) × Option Nat
  | 0, i, ws => ([], if ws.isEmpty then none else some i)
  | f + 1, i, ws =>
    if ws.isEmpty then ([], none)
    else match recShape ws with
      | none => ([], some i)
      | some (e, n) =>
        if e ≠ eng ∨ recFld ws 0 54 5 ≠ n ∨ ws.length < n ∨ !s.recFields g c (ws.take n) then ([], some i)
        else
          let p := s.parseJob g c eng f (i + 1) (ws.drop n)
          (ws.take n :: p.1, p.2)

/-- The first record that names a ring the context may not use. -/
def State.badRing (s : State) (g c : Nat) (rs : List (List Word)) : Option Nat :=
  rs.findIdx? fun r => (recRings r).any fun n => (s.ringOf g n c).isNone

/-! ### Updating jobs -/

def State.jobAt (s : State) (g h : Nat) : Option Job := s.jobs.find? fun j => j.clu == g && j.handle == h

def State.putJob (s : State) (j : Job) : State := { s with jobs := s.jobs.map fun k => if k.seq = j.seq then j else k }

def State.dropJob (s : State) (j : Job) : State := { s with jobs := s.jobs.filter fun k => k.seq != j.seq }

/-- The job ends at its current record with a status (R369). -/
def State.endJob (s : State) (j : Job) (status : Nat) : State :=
  (s.putJob { j with ended := some (status, j.next), busy := none, begun := false }).syncRings j.clu

/-! ### Memory of engines (R26, R388-R392) -/

def Job.who (j : Job) : Who :=
  { agent := j.clu / 32, clu := some j.clu, core := none, ctx := j.view.ctx, die := j.clu / 32, asker := some (.job j.seq) }

/-- Status of a refusal (R369). -/
def denyStatus (r : Nat) : Nat :=
  match r with
  | 1 => 0x10 | 2 => 0x11 | 3 => 0x12 | 7 => 0x14 | _ => 0x13

/-- What an engine's step waits for. -/
inductive EngWait where
  /-- A byte at its home agent. -/
  | home (pa : Nat)
  /-- Allowance of a window slot. -/
  | slot
  /-- Answers of another module. -/
  | peer (ss : List Span)
  deriving DecidableEq, Repr

/-- What comes of an engine's step on memory. A step that waits has had no effect. -/
inductive Eng (α : Type) where
  | ok (s : State) (a : α)
  /-- The job ends with a status. -/
  | stop (s : State) (status : Nat)
  | wait (w : EngWait)
  /-- Poison was consumed at a handle address. -/
  | dead (s : State) (a : Word)

/-- The leading bytes that pass the checks, and why the next one does not. -/
def State.engSpans (s : State) (j : Job) (k : Kind) (a : Word) (n : Nat) : List Span × Nat × Option Nat :=
  match s.checks j.view j.clu k true a n with
  | .ok ss => (ss, n, none)
  | .error (r, off) =>
    match s.checks j.view j.clu k true a off with
    | .ok ss => (ss, off, some r)
    | .error _ => ([], 0, some r)

/-- The job as it now stands. -/
def State.jobNow (s : State) (j : Job) : Job := (s.jobs.find? (fun k => k.seq == j.seq)).getD j

/-- An end-to-end operation of a job, told apart from those of strands (R392). -/
def Job.e2eUid (j : Job) : Nat := 2 ^ 32 + j.seq

/-- Agent number of the job's engine (R120). -/
def Job.agentId (j : Job) : Nat := 2816 + 2 * j.clu + j.eng

/-- A read of the job is on its way to another module. -/
def State.asked (s : State) (j : Job) (p : Span) : Bool :=
  s.fab.e2e.any fun e => e.core.isNone && e.uid == j.e2eUid && e.req.addr == p.addr % 2 ^ 43 && e.dst == p.addr / 2 ^ 43 % 32 &&
    e.req.kind == .read p.len

/-- The request a waiting step leaves: its place in a queue, or reads of another module (R127, R128). -/
def State.engWait (s : State) (j : Job) : EngWait → State
  | .home pa => s.enqueue j.who pa
  | .slot => s
  | .peer ss => ss.foldl (fun s p => if s.asked j p then s
      else s.e2eSend (p.addr / 2 ^ 43 % 32) { kind := .read p.len, addr := p.addr % 2 ^ 43 } j.agentId none j.e2eUid j.view.ctx) s

/-- Transfers of 128 bytes that a copy engine begins in a cycle: at most 512 bytes (R392). -/
def copyBatch : Nat := 4

/-- The command of the job has begun and is at step `sub`; one that has moved bytes goes on in the next cycle. It holds its engine and its bank. -/
def State.pauseEng (s : State) (j : Job) (sub : Nat) : State :=
  let k := s.jobNow j
  s.putJob { k with sub := sub, begun := true, bound := true, pace := if sub = j.sub then k.pace else s.now + 1 }

/-- The command of the job has begun and waits; it holds its engine and its bank (R377, R383). -/
def State.holdEng (s : State) (j : Job) : State := s.putJob { s.jobNow j with begun := true, bound := true }

/-- A command that could not go on: it leaves its request and holds its engine. -/
def State.holdFor (s : State) (j : Job) (w : EngWait) : State := (s.engWait j w).holdEng j

/-- Answers to a job's reads, by number of the span. -/
def State.jobGot (s : State) (j : Job) (ss : List Span) : List (Nat × List Byte) :=
  (ss.zipIdx).filterMap fun p =>
    if p.1.place = .peer then ((s.jobNow j).got.find? fun g => g.1 == (p.1.addr % 2 ^ 48, p.1.len)).map fun g => (p.2, g.2) else none

/-- The transfer is over: its answers are used. -/
def State.jobUsed (s : State) (j : Job) : State := if (s.jobNow j).got.isEmpty then s else s.putJob { s.jobNow j with got := [] }

/-- Bytes of checked spans; a read that returns zeros from a D page counts in `DISCRD` (R32, R33). -/
def State.engRead (s : State) (j : Job) (a : Word) (ss : List Span) : Eng (List Byte) :=
  let got := s.jobGot j ss
  let miss := (ss.zipIdx).filter fun p => p.1.place == .peer && !ahas p.2 got
  if !miss.isEmpty then .wait (.peer (miss.map (·.1)))
  else if s.spansFenced ss then .dead s a
  else match s.requestSpans j.who false ss with
    | .error pa => .wait (.home pa)
    | .ok (s', rss) =>
      let r := (s'.dequeue j.who.asker).readGranted j.view.ctx got 0 ss rss
      if r.2.2 then .dead r.1 a else .ok (r.1.countZerosOf j.view.ctx ss) r.2.1

/-- Reads `n` bytes, or ends the job at the first that is refused. -/
def State.engLoad (s : State) (j : Job) (a : Word) (n : Nat) : Eng (List Byte) :=
  match s.engSpans j .engRead a n with
  | (ss, _, none) => s.engRead j a ss
  | (_, _, some r) => .stop s (denyStatus r)

/-- The job has one more write that its target has to acknowledge. -/
def State.jobWin (s : State) (j : Job) : State := s.putJob { s.jobNow j with wins := (s.jobNow j).wins + 1 }

/-- Sends the writes of the spans that lie on other modules. -/
def State.engPeers (s : State) (j : Job) : List Span → List Byte → State
  | [], _ => s
  | p :: ps, bs =>
    let s := if p.place = .peer then
        (s.e2eSend (p.addr / 2 ^ 43 % 32) { kind := .write (bs.take p.len), addr := p.addr % 2 ^ 43 } j.agentId none j.e2eUid j.view.ctx).jobWin j
      else s
    s.engPeers j ps (bs.drop p.len)

/-- Writes bytes to checked spans: the coherent memory, a posted window write, and requests to other modules (R392). -/
def State.engWrite (s : State) (j : Job) (a : Word) (ss : List Span) (bs : List Byte) : Eng Unit :=
  match ss.find? fun p => p.place == .window with
  | some p =>
    if s.windowFull j.clu p.pol (ss.map windowUnits).sum then .wait .slot
    else .ok ((s.windowPost j.core { MemOp.plain .k a (.store ss bs) with job := some j.seq } p.pol).jobWin j) ()
  | none =>
    if s.spansFenced ss then .dead s a
    else match s.writeSpans j.who ss bs with
      | .error pa => .wait (.home pa)
      | .ok s' => .ok (s'.engPeers j ss bs) ()

/-- Counts bytes written. -/
def State.jobBytes (s : State) (j : Job) (n : Nat) : State :=
  let k := s.jobNow j
  s.putJob { k with bytes := min (2 ^ 33 - 1) (k.bytes + n) }

/-- Writes as many of the bytes as the checks admit. -/
def State.engStore (s : State) (j : Job) (a : Word) (bs : List Byte) : Eng Unit :=
  let r := s.engSpans j .engWrite a bs.length
  match s.engWrite j a r.1 (bs.take r.2.1) with
  | .ok s' _ =>
    let s' := s'.jobBytes j r.2.1
    match r.2.2 with
    | none => .ok s' ()
    | some d => .stop s' (denyStatus d)
  | e => e

/-- Bytes up to the next 128-byte boundary of the destination: one transfer. -/
def pieceLen (a : Word) (n : Nat) : Nat := min n (128 - a.toNat % 128)

/-- Stores a run transfer by transfer. -/
def State.engStoreRun (s : State) (j : Job) : Nat → Word → List Byte → Eng Unit
  | 0, _, _ => .ok s ()
  | f + 1, a, bs =>
    if bs.isEmpty then .ok s ()
    else
      let n := pieceLen a bs.length
      match s.engStore j a (bs.take n) with
      | .ok s' _ => s'.engStoreRun j f (a + BitVec.ofNat 64 n) (bs.drop n)
      | e => e

/-! ### Moves of the copy engine -/

/-- Where a transfer's bytes come from. -/
inductive Src where
  | at_ (a : Word)
  /-- Bytes of the command itself. -/
  | bytes (bs : List Byte)
  deriving DecidableEq, Repr

structure Move where
  src : Src
  dst : Word
  len : Nat
  deriving DecidableEq, Repr

/-- Cuts a move into transfers. -/
def Move.cut (m : Move) : Nat → List Move
  | 0 => []
  | f + 1 =>
    if m.len = 0 then []
    else
      let n := pieceLen m.dst m.len
      let rest : Move :=
        { src := match m.src with | .at_ a => .at_ (a + BitVec.ofNat 64 n) | .bytes bs => .bytes (bs.drop n)
          dst := m.dst + BitVec.ofNat 64 n, len := m.len - n }
      { src := match m.src with | .at_ a => .at_ a | .bytes bs => .bytes (bs.take n), dst := m.dst, len := n } :: rest.cut f

/-- A source byte that the same command also writes: what is read there is undefined (R388, R10). -/
def State.freeWhereWritten (s : State) (written : List Span) (ss : List Span) (bs : List Byte) : State × List Byte :=
  if ss.any fun p => written.any fun w => s.spansMeet p w then
    let d := s.drawBytes bs.length
    let locs := ss.flatMap s.locs
    (d.2, ((bs.zip d.1).zip locs).map fun q =>
      if written.any (fun w => decide (s.loc w ≤ q.2 ∧ q.2 < s.loc w + w.len)) then q.1.2 else q.1.1)
  else (s, bs)

/-- One transfer: the bytes that both sides admit are moved. -/
def State.engMove (s : State) (j : Job) (written : List Span) (m : Move) : Eng Unit :=
  match m.src with
  | .bytes bs => s.engStore j m.dst bs
  | .at_ a =>
    let rs := s.engSpans j .engRead a m.len
    let ws := s.engSpans j .engWrite m.dst m.len
    let n := min rs.2.1 ws.2.1
    let why := if rs.2.1 < m.len ∧ rs.2.1 ≤ ws.2.1 then rs.2.2 else ws.2.2
    let cut := fun (ss : List Span) => cutSpans ss 0 n
    match s.engRead j a (cut rs.1) with
    | .ok s' bs =>
      let fr := s'.freeWhereWritten written (cut rs.1) bs
      match fr.1.engWrite j m.dst (cut ws.1) fr.2 with
      | .ok s' _ =>
        let s' := (s'.jobBytes j n).jobUsed j
        match why with
        | none => .ok s' ()
        | some d => .stop s' (denyStatus d)
      | e => e
    | .stop s' d => .stop s' d
    | .wait w => .wait w
    | .dead s' v => .dead s' v

/-- Performs moves in order until one must wait; the count tells how many are done. -/
def State.engMoves (s : State) (j : Job) (written : List Span) (done : Nat) : List Move → Eng Nat
  | [] => .ok s done
  | m :: ms =>
    match s.engMove j written m with
    | .ok s' _ => s'.engMoves j written (done + 1) ms
    | .wait w => .ok (s.engWait j w) done
    | .stop s' d => .stop s' d
    | .dead s' v => .dead s' v

/-- Index tuples of a CPY in order, dimension 1 fastest, as source and destination offsets. -/
def cpyOffsets : List (Nat × Int × Int) → List (Int × Int)
  | [] => [(0, 0)]
  | (n, a, b) :: ds => (cpyOffsets ds).flatMap fun o => (List.range n).map fun (i : Nat) => (o.1 + (i : Int) * a, o.2 + (i : Int) * b)

def moveFuel (n : Nat) : Nat := n / 128 + 2

def cpyMoves (r : List Word) : List Move :=
  let n := recFld r 3 0 32
  (cpyOffsets (cpyDims r)).flatMap fun o =>
    Move.cut { src := .at_ (recWord r 1 + BitVec.ofInt 64 o.1), dst := recWord r 2 + BitVec.ofInt 64 o.2, len := n } (moveFuel n)

def fillMoves (r : List Word) : List Move :=
  let n := recFld r 2 0 33
  let pat := wordBytes (recWord r 3)
  Move.cut { src := .bytes ((List.range n).map fun i => pat.getD (i % 8) 0), dst := recWord r 1, len := n } (moveFuel n)

/-- Moves of row `n` of a gather or scatter with index `x`. -/
def rowMoves (gather : Bool) (r : List Word) (n x : Nat) (ones : Bool) : List Move :=
  let len := recFld r 4 16 24
  let str := recFld r 5 0 40
  let near := BitVec.ofNat 64 (n * len)
  let far := BitVec.ofNat 64 (x * str)
  if ones then (if gather then Move.cut { src := .bytes (zeroBytes len), dst := recWord r 2 + near, len := len } (moveFuel len) else [])
  else
    Move.cut
      { src := .at_ (recWord r 1 + if gather then far else near), dst := recWord r 2 + if gather then near else far, len := len } (moveFuel len)

/-- Bytes a list of moves writes, as far as the checks admit them. -/
def State.movesWritten (s : State) (j : Job) (ms : List Move) : List Span := ms.flatMap fun m => (s.engSpans j .engWrite m.dst m.len).1

/-! ### Arbitration (R225, R376, R377, R384) -/

/-- The record whose turn it is. -/
def Job.cmd (j : Job) : Option (List Word) := if j.ended.isSome then none else j.recs[j.next]?

/-- The cycle of a stamp: none for an unstamped step; some none when it lay before the `JEND`. -/
def Job.stampAt (j : Job) : Option (Option Nat) :=
  match j.cmd with
  | none => none
  | some r =>
    let t := recStamp r
    if t = 0 ∨ (recOp r = 0x14 ∧ j.sub % 64 ≠ 0) then none
    else
      let d := (t + 2 ^ 40 - j.at_ % 2 ^ 40) % 2 ^ 40
      some (if d < 2 ^ 39 then some (j.at_ + d) else none)

def State.occupancy (s : State) (g n : Nat) : Nat := (s.rfld (ringReg g n + 8) 16 16 + 2 ^ 16 - s.rfld (ringReg g n + 8) 0 16) % 2 ^ 16

/-- The tiles a step reads are present, or its ring has a free slot. -/
def State.tilesReady (s : State) (j : Job) : Bool :=
  match j.cmd with
  | none => false
  | some r =>
    match recOp r with
    | 0x01 | 0x02 => decide (1 ≤ s.occupancy j.clu (recFld r 1 60 4) ∧ 1 ≤ s.occupancy j.clu (recFld r 1 56 4))
    | 0x14 => decide (s.occupancy j.clu (recFld r 0 50 4) < s.rfld (ringReg j.clu (recFld r 0 50 4)) 25 7)
    | _ => true

/-- The job holds its bank or may bind it now. -/
def State.bankReady (s : State) (j : Job) : Bool :=
  j.eng == 1 || j.bound ||
    s.jobs.all fun k => !(k.clu == j.clu && k.eng == 0 && k.stamped == j.stamped && k.word.isNone && decide (k.seq < j.seq))

/-- The engine runs a command; it is free in the cycle after the command's last (R376). -/
def State.engBusy (s : State) (g e : Nat) : Bool := 
  s.jobs.any fun k => k.clu == g && k.eng == e && (match k.busy with | some c => decide (s.now < c) | none => false)

/-- The debug module has stopped the job's context on its cluster (R443). -/
def State.engStopped (s : State) (j : Job) : Bool :=
  bitAt (s.reg (debugBase j.clu + 8)) 63 && s.rfld (debugBase j.clu) 56 6 == j.view.ctx && bitAt (s.reg (debugBase j.clu)) 55

/-- Every operand of an accumulator transfer lies in space 1. -/
def Job.local_ (j : Job) (r : List Word) : Bool :=
  match recOp r with
  | 0x03 | 0x05 | 0x06 => match j.view.handle (recWord r 1) with | some h => h.space == 1 | none => true
  | _ => true

/-- Bytes of an element of `MLOAD` and `MOUT`. -/
def accBytes (f : Nat) : Nat := if f = 0 then 4 else if f ≤ 2 then 2 else 1

/-- Duration of a matrix command (R383). -/
def cmdCycles (r : List Word) : Nat :=
  match recOp r with
  | 0x01 | 0x02 => 16 + (match typePair (recFld r 0 50 4) with | some t => t.f | none => 0) * (4 * recFld r 1 48 8)
  | 0x04 => 8
  | 0x05 | 0x06 => 16 + 16384 * accBytes (recFld r 0 45 3) / 512
  | 0x03 => 144 + (2 + 2 * recFld r 0 46 1) * (recFld r 0 40 6 + 1)
  | _ => 1

/-- Cycles of the stamped steps that engine still owes. -/
def State.stampsOf (s : State) (g e : Nat) : List Nat :=
  (s.jobs.filter fun k => k.clu == g && k.eng == e && k.live).flatMap fun k =>
    ((List.range k.recs.length).filter (k.next ≤ ·)).filterMap fun i =>
      (Job.stampAt { k with next := i, sub := if i = k.next then k.sub else 0 }).bind id

/-- The unstamped step fits before the earliest stamp, or is a copy step outside the pause (R225, R392). -/
def State.gapFits (s : State) (j : Job) : Bool :=
  match j.cmd with
  | none => false
  | some r =>
    let ts := (s.stampsOf j.clu j.eng).filter (s.now ≤ ·)
    if j.eng = 1 then ts.all fun t => decide (s.now + 64 < t)
    else if j.local_ r then ts.all fun t => decide (s.now + cmdCycles r ≤ t)
    else ts.isEmpty

/-- The cycle is the one of a stamp, or the one after a stamp that the correction skipped (R376). -/
def State.atStamp (s : State) (t : Nat) : Bool := s.now == t || (s.now == t + 1 && s.zg.lastCorr == s.now && s.zg.skipped)

/-- The job's next step may issue in this cycle, apart from ties. -/
def State.mayIssue (s : State) (j : Job) : Bool :=
  j.busy.isNone && !j.begun && !s.engStopped j && s.bankReady j && s.tilesReady j &&
    match j.stampAt with
    | none => s.gapFits j
    | some (some t) => s.atStamp t
    | some none => false

/-- The earliest of jobs in acceptance order. -/
def earliest : List Job → Option Job
  | [] => none
  | j :: js => match earliest js with
    | none => some j
    | some k => if j.seq < k.seq then some j else some k

/-- A command of the engine has begun and waits within its transfers; a stamped one comes before an unstamped one that it pauses (R392). -/
def State.engHeld (s : State) (g e : Nat) : Option Job :=
  let held := s.jobs.filter fun j => j.clu == g && j.eng == e && j.begun && j.cmd.isSome
  match held.find? fun j => j.stampAt.isSome with
  | some j => some j
  | none => held.head?

/-- `HEAD` of a ring advances by one. -/
def State.ringPop (s : State) (g n : Nat) : State :=
  s.setFld (ringReg g n + 8) 0 16 ((s.rfld (ringReg g n + 8) 0 16 + 1) % 2 ^ 16)

/-- `TAIL` of a ring advances by `n`. -/
def State.ringTail (s : State) (g n k : Nat) : State :=
  s.setFld (ringReg g n + 8) 16 16 ((s.rfld (ringReg g n + 8) 16 16 + k) % 2 ^ 16)

/-- The command a job runs retires once its cycles have passed: its ring pops take effect (R376, R380). A tile that `CRING` has copied becomes
present, and its further tiles follow (R384, R391). -/
def State.retireCmd (s : State) (j : Job) : State :=
  match j.busy, j.cmd with
  | some c, some r =>
    if s.now < c then s
    else if recOp r = 0x14 then
      let s := s.ringTail j.clu (recFld r 0 50 4) 1
      let j := { j with busy := none, begun := false, got := [], held := none }
      (s.putJob (if j.sub % 64 = recFld r 0 44 6 then { j with next := j.next + 1, sub := 0 } else { j with sub := j.sub % 64 + 1 })).syncRings j.clu
    else
      let pops := if recOp r = 0x01 ∨ recOp r = 0x02 then
          (if recFld r 0 46 1 = 1 then [] else [recFld r 1 60 4]) ++ (if recFld r 0 45 1 = 1 then [] else [recFld r 1 56 4])
        else []
      let s := pops.foldl (fun s n => s.ringPop j.clu n) s
      (s.putJob { j with busy := none, begun := false, next := j.next + 1, sub := 0, got := [], held := none }).syncRings j.clu
  | _, _ => s

/-- Commands of a cluster whose cycles have passed retire before anything is tested (R376). -/
def State.settle (s : State) (g : Nat) : State :=
  (s.jobs.filter fun j => j.clu == g && j.busy.isSome).foldl (fun s j => s.retireCmd j) s

/-- The job whose step the engine takes now (R225): stamped steps come first, but a matrix command that has begun holds its engine. -/
def State.engChoice (s : State) (g e : Nat) : Option Job :=
  if s.engBusy g e then none
  else
    let js := s.jobs.filter fun j => j.clu == g && j.eng == e && j.word.isNone && s.mayIssue j
    let stamped := earliest (js.filter fun j => j.stampAt.isSome)
    match s.engHeld g e with
    | some h =>
      if e = 1 ∧ h.stampAt.isNone ∧ stamped.isSome then stamped
      else if decide (s.now < h.pace) || (e == 1 && h.stampAt.isNone && !s.gapFits h) then none else some h
    | none => match stamped with
      | some j => some j
      | none => earliest js

/-- The step `op` of job `h` is the one its engine takes now. -/
def State.engTurn (s : State) (g h op : Nat) : Option (Job × List Word) :=
  match s.engChoice g (h / 4096) with
  | none => none
  | some j => if j.handle = h then (match j.cmd with | some r => if recOp r = op then some (j, r) else none | none => none) else none

/-- A poisoned or given-up access ends the context (R26). -/
def State.engDead (s : State) (j : Job) (v : Word) : State := s.fatalError j.view.ctx (.agent (j.clu / 32)) 0x84 v 0

/-- The command runs from now for `d` cycles; it binds its job's bank. -/
def State.engStart (s : State) (j : Job) (d : Nat) (f : Job → Job) : State :=
  s.putJob (f { s.jobNow j with busy := some (s.now + d), bound := true })

/-! ### Matrix commands -/

/-- Bytes of the head tile of a ring. -/
def State.headTile (s : State) (g n bytes : Nat) : List Byte :=
  let r := s.reg (ringReg g n)
  let h := s.rfld (ringReg g n + 8) 0 16
  cellRead s.store (storeAddr g (128 * bitsAt r 0 14 + 128 * bitsAt r 14 11 * (h % max 1 (bitsAt r 25 7)))) bytes

/-- An accumulator as a command finds it: undefined elements are free (R377). -/
def State.accOf (s : State) (j : Job) (a : Nat) : List (BitVec 32) × State :=
  match j.accs.getD a none with
  | some v => (v, s)
  | none =>
    let d := s.drawBytes 65536
    ((List.range 16384).map fun i => BitVec.ofNat 32 (bytesNat ((d.1.drop (4 * i)).take 4)), d.2)

def Job.setAcc (j : Job) (a : Nat) (v : List (BitVec 32)) (fl : Nat) : Job :=
  { j with accs := j.accs.set a (some v), flags := j.flags ||| BitVec.ofNat 5 fl }

/-- A product command (R380). -/
def State.runProduct (s : State) (j : Job) (r : List Word) : State :=
  match typePair (recFld r 0 50 4) with
  | none => s
  | some tp =>
    let k := 32 * recFld r 1 48 8
    let scl := recFld r 0 47 1 == 1
    let ta := cutTile tp.a scl k (s.headTile j.clu (recFld r 1 60 4) (tileBytes tp.a scl k))
    let tb := cutTile tp.b scl k (s.headTile j.clu (recFld r 1 56 4) (tileBytes tp.b scl k))
    let acc := s.accOf j (recFld r 0 48 2)
    let p := product (recOp r == 2) ta tb acc.1
    acc.2.engStart j (cmdCycles r) fun k => k.setAcc (recFld r 0 48 2) p.1 p.2

def execMma (clu job : Nat) (s : State) : Host.Outcome State Fault Refusal :=
  let s := s.settle clu
  match s.engTurn clu job 0x01 with
  | some (j, r) => .next (s.runProduct j r)
  | none => .next s

def execMdist (clu job : Nat) (s : State) : Host.Outcome State Fault Refusal :=
  let s := s.settle clu
  match s.engTurn clu job 0x02 with
  | some (j, r) => .next (s.runProduct j r)
  | none => .next s

/-- `MZERO` (R381). -/
def execMzero (clu job : Nat) (s : State) : Host.Outcome State Fault Refusal :=
  let s := s.settle clu
  match s.engTurn clu job 0x04 with
  | some (j, r) =>
    .next (s.engStart j (cmdCycles r) fun k =>
      (List.range 4).foldl (fun k a => if recFld r 0 (50 + a) 1 = 1 then k.setAcc a (List.replicate 16384 0) 0 else k) k)
  | none => .next s

/-- Address of row `i`. -/
def rowAt (r : List Word) (i : Nat) : Word := recWord r 1 + BitVec.ofNat 64 (i * recFld r 2 0 32)

/-- Rows `i` to `i + n - 1` of a load. -/
def State.loadRows (s : State) (j : Job) (r : List Word) : Nat → Nat → List FRes → Eng (List FRes)
  | 0, _, acc => .ok s acc
  | n + 1, i, acc =>
    let e := accBytes (recFld r 0 45 3)
    match s.engLoad j (rowAt r i) (128 * e) with
    | .ok s' bs =>
      let row := (List.range 128).map fun c =>
        let v := bytesNat ((bs.drop (e * c)).take e)
        quieted (if e = 4 then v else v * 65536)
      s'.loadRows j r n (i + 1) (acc ++ row)
    | .stop s' d => .stop s' d
    | .wait w => .wait w
    | .dead s' v => .dead s' v

/-- `MLOAD` (R381). -/
def execMload (clu job : Nat) (s : State) : Host.Outcome State Fault Refusal :=
  let s := s.settle clu
  match s.engTurn clu job 0x05 with
  | none => .next s
  | some (j, r) =>
    match s.loadRows j r 128 0 [] with
    | .ok s' rs =>
      .next (s'.engStart j (cmdCycles r) fun k =>
        k.setAcc (recFld r 0 48 2) (rs.map fun x => BitVec.ofNat 32 x.1) (rs.foldl (fun f x => f ||| x.2) 0))
    | .stop s' d => .next (s'.endJob (s'.jobNow j) d)
    | .wait w => .next (s.holdFor j w)
    | .dead s' v => .next (s'.engDead j v)

/-- Transfers that store rows. -/
def rowStores (addr : Nat → Word) (rows : List (List Byte)) : List Move :=
  (rows.zipIdx).flatMap fun p => Move.cut { src := .bytes p.1, dst := addr p.2, len := p.1.length } (moveFuel p.1.length)

/-- Adds the events of a command's steps. -/
def State.jobFlags (s : State) (j : Job) (fl : Nat) : State :=
  s.putJob { s.jobNow j with flags := (s.jobNow j).flags ||| BitVec.ofNat 5 fl, bound := true }

/-- Performs at most `lim` of the transfers that are left; after the last the command runs for `d` cycles. -/
def State.moveRun (s : State) (j : Job) (ms : List Move) (lim d : Nat) : Host.Outcome State Fault Refusal :=
  match s.engMoves j (s.movesWritten j ms) j.sub ((ms.drop j.sub).take lim) with
  | .ok s' n => if n = ms.length then .next (s'.engStart j d fun k => k) else .next (s'.pauseEng j n)
  | .stop s' e => .next (s'.endJob (s'.jobNow j) e)
  | .wait w => .next (s.holdFor j w)
  | .dead s' v => .next (s'.engDead j v)

/-- Stores the rows of a matrix command; the job keeps them until all are written. -/
def State.matrixStore (s : State) (j : Job) (r : List Word) (addr : Nat → Word) (rows : List (List Byte)) (fl : Nat) :
    Host.Outcome State Fault Refusal :=
  let s := s.jobFlags j fl
  (s.putJob { s.jobNow j with held := some rows }).moveRun j (rowStores addr rows) (rowStores addr rows).length (cmdCycles r)

/-- `MOUT` (R381). -/
def execMout (clu job : Nat) (s : State) : Host.Outcome State Fault Refusal :=
  let s := s.settle clu
  match s.engTurn clu job 0x06 with
  | none => .next s
  | some (j, r) =>
    match accFmt (recFld r 0 45 3), j.held with
    | none, _ => .next s
    | some _, some rows => s.matrixStore j r (rowAt r) rows 0
    | some f, none =>
      let e := accBytes (recFld r 0 45 3)
      let acc := s.accOf j (recFld r 0 48 2)
      let out := acc.1.map fun c => Fmt.convert .f32 f 0 (recFld r 0 44 1 == 1) c.toNat
      let rows := (List.range 128).map fun i => ((out.drop (128 * i)).take 128).flatMap fun x => natBytes e x.1
      acc.2.matrixStore j r (rowAt r) rows (out.foldl (fun fl x => fl ||| x.2) 0)

/-- Elements already at row `i` of a merging `MTOPK`. -/
def candsOf (bs : List Byte) (k : Nat) : List Cand :=
  (List.range k).map fun t =>
    { code := bytesNat ((bs.drop (8 * t + 4)).take 4), col := bytesNat ((bs.drop (8 * t)).take 4), old := true }

/-- Row `i` of a ranking: its best elements, after those at the row's destination are read where the command merges. -/
def State.topRow (s : State) (j : Job) (r : List Word) (acc : List (BitVec 32)) (i : Nat) : Eng (List Byte) :=
  let k := recFld r 0 40 6 + 1
  let row := (acc.drop (128 * i)).take 128
  let new := (row.zipIdx).map fun p => ({ code := p.1.toNat, col := (recFld r 2 32 32 + p.2) % 2 ^ 32, old := false } : Cand)
  let best := fun (old : List Cand) => (bestCands (recFld r 0 47 1 == 1) k (old ++ new)).flatMap fun c => natBytes 8 c.word
  if recFld r 0 46 1 = 1 then
    match s.engLoad j (recWord r 1 + BitVec.ofNat 64 (8 * k * i)) (8 * k) with
    | .ok s' bs => .ok (s'.jobUsed j) (best (candsOf bs k))
    | .stop s' d => .stop s' d
    | .wait w => .wait w
    | .dead s' v => .dead s' v
  else .ok s (best [])

/-- Rows of a ranking in ascending order, each read, ranked and written before the next; `rows` are those worked out. -/
def State.topRun (s : State) (j : Job) (r : List Word) (acc : List (BitVec 32)) : Nat → List (List Byte) → Host.Outcome State Fault Refusal
  | 0, _ => .next s
  | f + 1, rows =>
    let ms := rowStores (fun i => recWord r 1 + BitVec.ofNat 64 (8 * (recFld r 0 40 6 + 1) * i)) rows
    match s.engMoves j [] (s.jobNow j).sub (ms.drop (s.jobNow j).sub) with
    | .ok s' n =>
      let s' := s'.putJob { s'.jobNow j with sub := n, held := some rows }
      if n < ms.length then .next (s'.holdEng j)
      else if 128 ≤ rows.length then .next (s'.engStart j (cmdCycles r) fun k => k)
      else match s'.topRow j r acc rows.length with
        | .ok s'' bs => s''.topRun j r acc f (rows ++ [bs])
        | .stop s'' d => .next (s''.endJob (s''.jobNow j) d)
        | .wait w => .next (s'.holdFor j w)
        | .dead s'' v => .next (s''.engDead j v)
    | .stop s' d => .next (s'.endJob (s'.jobNow j) d)
    | .wait w => .next (s.holdFor j w)
    | .dead s' v => .next (s'.engDead j v)

/-- `MTOPK` (R382). -/
def execMtopk (clu job : Nat) (s : State) : Host.Outcome State Fault Refusal :=
  let s := s.settle clu
  match s.engTurn clu job 0x03 with
  | none => .next s
  | some (j, r) =>
    let acc := s.accOf j (recFld r 0 48 2)
    let s := acc.2.putJob ((acc.2.jobNow j).setAcc (recFld r 0 48 2) acc.1 0)
    s.topRun j r acc.1 129 (j.held.getD [])

/-! ### Copy commands -/

/-- `CPY` (R388). -/
def execCpy (clu job : Nat) (s : State) : Host.Outcome State Fault Refusal :=
  let s := s.settle clu
  match s.engTurn clu job 0x10 with
  | some (j, r) => s.moveRun j (cpyMoves r) copyBatch 1
  | none => .next s

/-- `CFILL` (R389). -/
def execCfill (clu job : Nat) (s : State) : Host.Outcome State Fault Refusal :=
  let s := s.settle clu
  match s.engTurn clu job 0x11 with
  | some (j, r) => s.moveRun j (fillMoves r) copyBatch 1
  | none => .next s

/-- How far a gather or scatter has come: rows done × 2^18 + transfers of the row done. -/
def rowPlace (n done : Nat) : Nat := n * 2 ^ 18 + done

/-- Rows `n` and up of a gather or scatter, with `b` transfers left in this cycle, each with its index read as the command reaches it; `done`
transfers of row `n` are over and its index is `x` where that has been read. The state keeps how far the command came. -/
def State.indexRows (s : State) (j : Job) (r : List Word) (gather : Bool) : Nat → Nat → Nat → Nat → Option (List Byte) → Eng Bool
  | 0, _, _, _, _ => .ok s true
  | f + 1, n, done, b, x =>
    if b = 0 then .ok (s.putJob { s.jobNow j with sub := rowPlace n done, held := none }) false
    else
    let w := if recFld r 4 0 1 = 1 then 8 else 4
    let idx := match x with
      | some bs => Eng.ok s bs
      | none => s.engLoad j (recWord r 3 + BitVec.ofNat 64 (w * n)) w
    match idx with
    | .ok s' bs =>
      let ms := rowMoves gather r n (bytesNat bs) (bytesNat bs == 2 ^ (8 * w) - 1)
      match (s'.jobUsed j).engMoves j [] done ((ms.drop done).take b) with
      | .ok s' k =>
        if k = ms.length then s'.indexRows j r gather f (n + 1) 0 (b - (k - done)) none
        else .ok (s'.putJob { s'.jobNow j with sub := rowPlace n k, held := some [bs] }) false
      | .stop s' d => .stop s' d
      | .wait w => .ok ((s.engWait j w).putJob { s.jobNow j with sub := rowPlace n done, held := none }) false
      | .dead s' v => .dead s' v
    | .stop s' d => .stop s' d
    | .wait w => .ok ((s.engWait j w).putJob { s.jobNow j with sub := rowPlace n done, held := none }) false
    | .dead s' v => .dead s' v

/-- A gather or scatter (R390). -/
def State.indexRun (s : State) (j : Job) (r : List Word) (gather : Bool) : Host.Outcome State Fault Refusal :=
  let n := j.sub / 2 ^ 18
  match s.indexRows j r gather (recFld r 4 40 24 - n) n (j.sub % 2 ^ 18) copyBatch ((j.held.bind (·.head?))) with
  | .ok s' true => .next (s'.engStart j 1 fun k => k)
  | .ok s' false => .next (s'.pauseEng j (s'.jobNow j).sub)
  | .stop s' d => .next (s'.endJob (s'.jobNow j) d)
  | .wait w => .next (s.holdFor j w)
  | .dead s' v => .next (s'.engDead j v)

def execCgath (clu job : Nat) (s : State) : Host.Outcome State Fault Refusal :=
  let s := s.settle clu
  match s.engTurn clu job 0x12 with
  | some (j, r) => s.indexRun j r true
  | none => .next s

def execCscat (clu job : Nat) (s : State) : Host.Outcome State Fault Refusal :=
  let s := s.settle clu
  match s.engTurn clu job 0x13 with
  | some (j, r) => s.indexRun j r false
  | none => .next s

/-- Writes bytes of a tile into a ring's slot in the cluster store, up to the first refused source byte. -/
def State.ringFill (s : State) (j : Job) (at_ : Nat) (a : Word) (n : Nat) : Eng Unit :=
  let rs := s.engSpans j .engRead a n
  match s.engRead j a rs.1 with
  | .ok s' bs =>
    let s' := ((s'.putStore (storeAddr j.clu at_) bs).jobBytes j bs.length).jobUsed j
    match rs.2.2 with
    | none => .ok s' ()
    | some d => .stop s' (denyStatus d)
  | .stop s' d => .stop s' d
  | .wait w => .wait w
  | .dead s' v => .dead s' v

/-- Units `u` and up of the `ts` units of 128 bytes of a tile, at most `f` of them; the count tells how many are done. -/
def State.ringRun (s : State) (j : Job) (at_ : Nat) (a : Word) (ts : Nat) : Nat → Nat → Eng Nat
  | 0, u => .ok s u
  | f + 1, u =>
    if ts ≤ u then .ok s u
    else match s.ringFill j (at_ + 128 * u) (a + BitVec.ofNat 64 (128 * u)) 128 with
      | .ok s' _ => s'.ringRun j at_ a ts f (u + 1)
      | .stop s' d => .stop s' d
      | .wait w => .ok (s.engWait j w) u
      | .dead s' v => .dead s' v

/-- Tiles of a `CRING` done, in bits 5:0 of its step, and units of the next tile done above them. -/
def ringPlace (tile units : Nat) : Nat := 64 * units + tile

/-- One tile of a `CRING` (R391). -/
def execCring (clu job : Nat) (s : State) : Host.Outcome State Fault Refusal :=
  let s := s.settle clu
  match s.engTurn clu job 0x14 with
  | none => .next s
  | some (j, r) =>
    let n := recFld r 0 50 4
    match s.ringOf clu n j.view.ctx with
    | none => .next (s.endJob j 0x21)
    | some (base, ts, depth) =>
      let slot := 128 * base + 128 * ts * (s.rfld (ringReg clu n + 8) 16 16 % depth)
      match s.ringRun j slot (recWord r 1 + BitVec.ofNat 64 (j.sub % 64 * recFld r 2 0 40)) ts copyBatch (j.sub / 64) with
      | .ok s' n => if n = ts then .next (s'.engStart j 1 fun k => k) else .next (s'.pauseEng j (ringPlace (j.sub % 64) n))
      | .stop s' d => .next (s'.endJob (s'.jobNow j) d)
      | .wait w => .next (s.holdFor j w)
      | .dead s' v => .next (s'.engDead j v)

/-! ### Retirement, misses and completion -/

/-- The running command retires once its cycles have passed (R376, R380). -/
def execCommandRetire (clu job : Nat) (s : State) : Host.Outcome State Fault Refusal :=
  match s.jobAt clu job with
  | none => .next s
  | some j => .next (s.retireCmd j)

/-- A stamped step that cannot issue at its stamp ends its job with `MISS` (R225, R384). -/
def execStampMiss (clu job : Nat) (s : State) : Host.Outcome State Fault Refusal :=
  let s := s.settle clu
  match s.jobAt clu job with
  | none => .next s
  | some j =>
    if j.busy.isSome ∨ j.begun ∨ j.word.isSome then .next s
    else match j.stampAt with
      | none => .next s
      | some none => .next (s.endJob j 0x01)
      | some (some t) =>
        let chosen := match s.engChoice clu j.eng with | some k => k.seq == j.seq | none => false
        if t < s.now ∧ !s.atStamp t then .next (s.endJob j 0x01)
        else if s.now = t ∧ !chosen then .next (s.endJob j 0x01)
        else .next s

/-- The completion word (R370). -/
def Job.completion (j : Job) : Word :=
  let e := j.ended.getD (0, j.recs.length - 1)
  let f := j.flags.toNat
  let flags := f / 16 % 2 * 16 + f / 4 % 2 * 4 + f / 2 % 2 * 2 + f % 2
  mkWord [(1, 63), (e.1, 56), (flags, 51), (e.2 % 64, 45), (j.id, 33), (min (2 ^ 33 - 1) j.bytes, 0)]

/-- The completion is over: its trace record, and a dropped job goes (R372, R373, R447). -/
def State.jobFinish (s : State) (j : Job) : State :=
  let s := s.trace (s.coreAt j.core) 9 3 j.handle j.completion 0
  if j.drop then s.dropJob j else s.putJob { j with tokDone := true, doneSeq := s.now }

/-- Every command is performed or the job has ended, and every write is performed (R370, R392). -/
def execJobComplete (clu job : Nat) (s : State) : Host.Outcome State Fault Refusal :=
  match s.jobAt clu job with
  | none => .next s
  | some j =>
    if j.word.isSome ∨ j.busy.isSome ∨ (j.ended.isNone ∧ j.next < j.recs.length) ∨ j.wins ≠ 0 then .next s
    else
      let j := { j with word := some j.completion }
      if j.tok = 0 ∨ j.drop then .next (s.jobFinish j) else .next (s.putJob j)

/-- A completed job pushes its token once the counter has room (R372). -/
def execJobTokenPush (clu job : Nat) (s : State) : Host.Outcome State Fault Refusal :=
  match s.jobAt clu job with
  | none => .next s
  | some j =>
    let p := pairOf .k (strandOf (j.tok - 1))
    let c := s.coreAt j.core
    if j.word.isNone ∨ j.tokDone ∨ j.tok = 0 then .next s
    else if j.drop then .next (s.jobFinish j)
    else if c.tokenFull p then .next s
    else .next ((s.modCore j.core fun c => c.pushToken p).jobFinish j)

/-- An X result lands: registers, flags and the token to S (R258). -/
def execXResultLand (n : Nat) (s : State) : Host.Outcome State Fault Refusal :=
  .next (s.landCore s.core.idx fun c => c.landX n)

/-! ### The vector unit (R223) -/

/-- Core `k` has a ready head. Every result that an instruction reads as a defined value has landed before it issues (rule 1 of R258), so what it
may wait for at binding is there. -/
def vqReady (k : Nat) (cl : Cluster) : Bool := !(cl.vq.getD k []).isEmpty

/-- State of one cycle's arbitration: the cluster, binds so far by core, lane groups left. -/
structure Arb where
  cl : Cluster
  n : List Nat
  free : Nat
  deriving DecidableEq, Repr

/-- The core with the largest credit among those that may bind, lowest on a tie. -/
def pickCore (d : Nat → Int) : List Nat → Option Nat
  | [] => none
  | k :: ks => match pickCore d ks with
    | none => some k
    | some m => if d m ≤ d k then some k else some m

def State.vshareOf (s : State) (g k : Nat) : Nat := bitsAt (s.coreAt (8 * g + k)).vshare 0 4

/-- The core the arbiter serves next. -/
def State.arbPick (s : State) (g : Nat) (a : Arb) : Option Nat :=
  let can := (List.range 8).filter fun k => vqReady k a.cl && decide (a.n.getD k 0 < 2)
  match pickCore (fun k => a.cl.d.getD k 0) (can.filter fun k => s.vshareOf g k != 0) with
  | some k => some k
  | none => (can.filter fun k => s.vshareOf g k == 0).head?

/-- Binds heads while lane groups and ready heads last. -/
def State.arbLoop (s : State) (g : Nat) : Nat → Arb → Arb
  | 0, a => a
  | f + 1, a =>
    if a.free = 0 then a
    else match s.arbPick g a with
      | none => a
      | some k =>
        let cl' : Cluster := { a.cl with
          vq := a.cl.vq.set k ((a.cl.vq.getD k []).drop 1), d := a.cl.d.set k (max (a.cl.d.getD k 0 - 16) (-16)) }
        s.arbLoop g f { cl := cl', n := a.n.set k (a.n.getD k 0 + 1), free := a.free - 1 }

/-- One cycle of the cluster's vector arbiter with `free` free lane groups. -/
def execVectorBind (clu free : Nat) (s : State) : Host.Outcome State Fault Refusal :=
  let cl : Cluster := aget Cluster.reset clu s.clusters
  let d := (List.range 8).map fun k =>
    if !vqReady k cl then 0
    else if s.vshareOf clu k = 0 then cl.d.getD k 0
    else min (cl.d.getD k 0 + (s.vshareOf clu k : Int)) 32
  let a := s.arbLoop clu 16 { cl := { cl with d := d }, n := List.replicate 8 0, free := min 16 free }
  .next { s with clusters := aput Cluster.reset clu a.cl s.clusters }

/-! ### Memory responses (R263) -/

/-- What trying an operation leaves. -/
def perfOutcome (k : Nat) (σ : StrandId) : Perf → Host.Outcome State Fault Refusal
  | .wait s => .next s
  | .done s => .next s
  | .dead s code v => .next (s.fatalError (s.coreAt k).view.ctx (.strand k σ) code v 0)

/-- Strand of an operation of the current core. -/
def State.opStrand (s : State) (uid : Nat) : StrandId :=
  match s.core.ops.find? (fun o => o.uid == uid) with | some o => o.strand | none => .l

/-- A load or atomic of the current core is performed and its data delivered. The bytes are those memory holds now; an access to another
module completes at the acknowledgement that carries its data (R128). -/
def execReadResponse (uid : Nat) (_data : List Byte) (s : State) : Host.Outcome State Fault Refusal :=
  match s.core.ops.find? (fun o => o.uid == uid) with
  | none => .next s
  | some o =>
    if o.hasPlace .peer then .next (s.peerTry s.core.idx uid)
    else perfOutcome s.core.idx o.strand (s.perform s.core.idx uid)

/-- A write of the current core is performed at its coherence point; a held release through a window is sent once its slots are drained. -/
def execWriteCompletion (uid : Nat) (s : State) : Host.Outcome State Fault Refusal :=
  match s.core.ops.find? (fun o => o.uid == uid) with
  | none => .next s
  | some o =>
    if o.slot.isSome then
      if o.sent || !s.opReady s.core o then .next s
      else
        let s := s.releaseOf s.core.idx o
        .next (s.windowSend s.core o)
    else if o.hasPlace .peer && !o.sent then .next (s.peerTry s.core.idx uid)
    else perfOutcome s.core.idx o.strand (s.perform s.core.idx uid)

end Sys2Proof.Machine
end

