-- ==== Sys2Proof/Machine/Launch.lean ====
section
/-! DEFINITION. The launch manager: queues and descriptor checks (R197, R198, R210-R212), ready orders and placement (R215-R221), task start
(R196), saves and resumptions (R113, R426, R427), reruns (R220). -/

namespace Sys2Proof.Machine

/-! ### Lookups -/

def State.taskOf (s : State) (id : Nat) : Option Task := s.lm.tasks.find? fun t => t.id == id

def State.modTask (s : State) (id : Nat) (f : Task → Task) : State := s.mapTasks fun t => if t.id = id then f t else t

def State.launchOf (s : State) (key : Nat) : Option Launch := s.lm.launches.find? fun l => l.key == key

/-- The task a core runs, as the launch manager knows it. -/
def State.taskOn (s : State) (k : Nat) : Option Task := (s.coreAt k).task.bind fun p => s.taskOf p.id

def State.modLm (s : State) (f : Lm → Lm) : State := { s with lm := f s.lm }

/-- A pager task belongs to no launch (R487). -/
def Task.pager (t : Task) : Bool := t.launch.isNone

/-- Context and class as a key. -/
def Task.key (t : Task) : Nat := 2 * t.ctx + t.cls

/-! ### Ready orders (R215) -/

def Lm.readyAt (m : Lm) (key : Nat) : List Nat := aget [] key m.ready

/-- Inserts at a position. -/
def insertAt (i x : Nat) (l : List Nat) : List Nat := l.take i ++ [x] ++ l.drop i

/-- A changed ready order is offered to every free core again (R216). -/
def Lm.setReady (m : Lm) (key : Nat) (l : List Nat) (w v : Nat) : Lm :=
  { m with ready := aput [] key l m.ready, woken := aput 0 key w m.woken, vacated := aput 0 key v m.vacated, offered := [] }

/-- Enters behind the woken tasks. -/
def Lm.enterWoken (m : Lm) (key t : Nat) : Lm :=
  let w := aget 0 key m.woken
  m.setReady key (insertAt w t (m.readyAt key)) (w + 1) (aget 0 key m.vacated)

/-- Enters behind the vacated tasks. -/
def Lm.enterVacated (m : Lm) (key t : Nat) : Lm :=
  let w := aget 0 key m.woken
  let v := aget 0 key m.vacated
  m.setReady key (insertAt (w + v) t (m.readyAt key)) w (v + 1)

def Lm.enterBack (m : Lm) (key t : Nat) : Lm := { m with ready := aput [] key (m.readyAt key ++ [t]) m.ready, offered := [] }

/-- Returns to the front; it counts with the woken tasks (log 27). -/
def Lm.enterFront (m : Lm) (key t : Nat) : Lm :=
  m.setReady key (t :: m.readyAt key) (aget 0 key m.woken + 1) (aget 0 key m.vacated)

/-- Leaves its ready order. -/
def Lm.leaveReady (m : Lm) (key t : Nat) : Lm :=
  let l := m.readyAt key
  match l.findIdx? (· == t) with
  | none => m
  | some i =>
    let w := aget 0 key m.woken
    let v := aget 0 key m.vacated
    m.setReady key (l.eraseIdx i) (if i < w then w - 1 else w) (if w ≤ i ∧ i < w + v then v - 1 else v)

/-! ### Cores -/

def splitReg (g : Nat) : Nat := clusterBase g + 8

/-- A core of the cluster holds a task, as a pager core does, or one is on its way (R48). -/
def State.clusterHolds (s : State) (g : Nat) : Bool :=
  s.pagerMask g != 0 || (s.allCores.any fun c => c.cluster == g && c.task.isSome) ||
    s.lm.tasks.any fun t => match t.core with | some k => k / 8 == g | none => false

/-- No task may be placed on the cluster now: a split change is under way or due, it is fenced, or a checkpoint runs (R48, R465, R469). -/
def State.clusterShut (s : State) (g : Nat) : Bool :=
  bitAt (s.reg (splitReg g)) 8 || (bitAt (s.reg (splitReg g)) 9 && !s.clusterHolds g) || s.ras.fenced.contains (0, g) || s.ras.check.isSome

/-- The core holds no task and none is on its way. -/
def State.coreIdle (s : State) (k : Nat) : Bool :=
  (s.coreAt k).task.isNone && !s.isPagerCore k && !s.clusterShut (k / 8) && !(s.lm.tasks.any fun t => t.core == some k)

/-- The preloaded task of a core (R221). -/
def State.preloadOf (s : State) (k : Nat) : Option Task := (s.lm.preload.find? fun p => p.1 == k).bind fun p => s.taskOf p.2

/-- The core may be offered to any task: no preloaded task waits for it. -/
def State.coreFree (s : State) (k : Nat) : Bool := s.coreIdle k && !(s.lm.preload.any fun p => p.1 == k)

/-- Reserved cores of a cluster: at most the four lowest that are no pager cores (R217). -/
def State.reservedCores (s : State) (g : Nat) : List Nat :=
  (((List.range 8).filter fun k => (s.rfld (clusterBase g + 0x10) 0 8).testBit k && !(s.pagerMask g).testBit k).take 4).map (8 * g + ·)

def State.isReserved (s : State) (k : Nat) : Bool := (s.reservedCores (k / 8)).contains k

/-! ### Numbers (R213) -/

def State.heldRtns (s : State) (c : Nat) : List Nat := (s.lm.tasks.filter fun t => t.ctx == c).filterMap (·.rtn)

def State.freeRtns (s : State) (c : Nat) : List Nat :=
  (List.range (s.poolSize c)).filter fun r => !(s.heldRtns c).contains r

/-! ### Domains of a launch (R199) -/

/-- Tasks per domain of a level 1-3 in a descriptor. -/
def domainSize (desc : List Word) (level : Nat) : Nat :=
  match level with
  | 1 => bitsAt (desc.getD 5 0) 56 4
  | 2 => bitsAt (desc.getD 5 0) 44 9
  | 3 => bitsAt (desc.getD 5 0) 32 12
  | _ => 0

def descCount (desc : List Word) : Nat := bitsAt (desc.getD 0 0) 0 17

def State.descOf (s : State) (t : Task) : List Word :=
  match t.launch.bind s.launchOf with | some l => l.desc | none => []

/-- Tasks that must be placed together with an unplaced task: its die domain, or its cluster domain. -/
def State.together (s : State) (t : Task) : List Task :=
  let d := s.descOf t
  let n := if domainSize d 2 ≠ 0 then domainSize d 2 else domainSize d 1
  if t.saved ∨ n = 0 then [t]
  else s.lm.tasks.filter fun u => u.launch == t.launch && u.index / n == t.index / n && u.st == .queued && !u.saved

/-- Insertion into an ascending list. -/
def insNat (x : Nat) : List Nat → List Nat
  | [] => [x]
  | y :: ys => if x ≤ y then x :: y :: ys else y :: insNat x ys

def sortNat (l : List Nat) : List Nat := l.foldl (fun a x => insNat x a) []

/-- The `n` lowest cores with `k` among them (log 27). -/
def withCore (k n : Nat) (cs : List Nat) : Option (List Nat) :=
  if n = 0 ∨ cs.length < n ∨ !cs.contains k then none
  else if (cs.take n).contains k then some (cs.take n) else some (sortNat (k :: cs.take (n - 1)))

/-- Whole cluster domains of `sub` tasks that a cluster's free cores hold, in ascending order; `k` lies in one of them if it can (log 27). -/
def clusterGroups (sub k : Nat) (cs : List Nat) : List (List Nat) :=
  let cut := fun (l : List Nat) => (List.range (l.length / sub)).map fun i => (l.drop (i * sub)).take sub
  if !cs.contains k || cs.length < sub || (cut cs).any (·.contains k) then cut cs
  else
    let mine := sortNat (k :: cs.take (sub - 1))
    mine :: cut (cs.filter fun c => !mine.contains c)

/-- The `m` lowest groups with the one of `k` among them. -/
def withGroup (k m : Nat) (gs : List (List Nat)) : Option (List (List Nat)) :=
  if m = 0 ∨ gs.length < m then none
  else match gs.find? (·.contains k) with
    | none => none
    | some g => if (gs.take m).contains g then some (gs.take m) else some ((gs.take (m - 1)) ++ [g])

/-- Free cores of a cluster. -/
def clusterCores (ok : Nat → Bool) (g : Nat) : List Nat := ((List.range 8).map (8 * g + ·)).filter ok

/-- Cores for a group of `n` tasks with `k` among them: of one cluster, or of one die with whole cluster domains of `sub` tasks. -/
def groupCores (ok : Nat → Bool) (k n sub : Nat) (die : Bool) : Option (List Nat) :=
  if !die then withCore k n (clusterCores ok (k / 8))
  else if sub = 0 then withCore k n (((List.range 256).map (256 * (k / 256) + ·)).filter ok)
  else
    (withGroup k (n / sub) ((List.range 32).flatMap fun c => clusterGroups sub k (clusterCores ok (32 * (k / 256) + c)))).map List.flatten

/-! ### Eligibility (R215) -/

def State.dieOk (s : State) (c k : Nat) : Bool :=
  let m := s.rfld (ctxBase c + 0x20) 40 8
  m == 0 || m.testBit (k / 256)

/-- A saved task with live fellow members stays on its domain's cluster or die. -/
def State.homeOk (s : State) (t : Task) (k : Nat) : Bool :=
  !t.saved ||
    (let fellow := fun i => s.lm.tasks.any fun u => u.id != t.id && u.ctx == t.ctx && t.doms.getD i 0 != 0 && u.doms.getD i 0 == t.doms.getD i 0
     (!fellow 0 || k / 8 == t.last / 8) && (!fellow 1 || k / 256 == t.last / 256))

/-- The domain of a launch at a level and index, once a first member has opened it (R199). -/
def State.launchDomain (s : State) (t : Task) (level index : Nat) : Option Domain :=
  t.launch.bind fun l => s.lm.domains.find? fun d => d.level == level && d.ctx == t.ctx && d.launch == l && d.index == index

/-- A domain id is to be had at every level where the task would open a domain (R200). -/
def State.idsLeft (s : State) (t : Task) : Bool :=
  t.saved || (List.range 3).all fun i =>
    let n := domainSize (s.descOf t) (i + 1)
    n == 0 || (s.launchDomain t (i + 1) (t.index / n)).isSome ||
      decide ((s.lm.domains.filter fun d => d.level == i + 1 && d.ctx == t.ctx).length < 4095)

/-- Where an eligible task and those placed with it go, apart from numbers. -/
def State.fits (s : State) (ok : Nat → Bool) (t : Task) (k : Nat) : Option (List (Nat × Nat)) :=
  if !(ok k && s.dieOk t.ctx k && s.homeOk t k && s.idsLeft t) then none
  else
    let ts := s.together t
    if ts.length ≤ 1 then some [(t.id, k)]
    else
      let d := s.descOf t
      let die := domainSize d 2 != 0
      let ok' := fun c => ok c && s.dieOk t.ctx c
      (groupCores ok' k ts.length (if die then domainSize d 1 else 0) die).map fun cs => (ts.map (·.id)).zip cs

/-- Resident-task numbers suffice for the tasks placed together. -/
def State.numbered (s : State) (t : Task) : Bool :=
  t.rtn.isSome || decide ((s.together t).length ≤ (s.freeRtns t.ctx).length)

/-- Queued tasks of a ready order, in order. -/
def State.readyTasks (s : State) (key : Nat) : List Task := (s.lm.readyAt key).filterMap s.taskOf

/-- Some latency task is eligible for the core. -/
def State.latencyWants (s : State) (ok : Nat → Bool) (k : Nat) : Bool :=
  (List.range 64).any fun c => (s.readyTasks (2 * c)).any fun t => s.numbered t && (s.fits ok t k).isSome

/-- Cores a class may take. -/
def State.classOk (s : State) (ok : Nat → Bool) (cls k : Nat) : Bool :=
  ok k && (cls == 0 || !s.isReserved k || !s.latencyWants ok k)

/-! ### The choice (R216) -/

def State.weight (s : State) (c cls : Nat) : Nat := s.rfld (ctxBase c + 0x20) (if cls = 0 then 60 else 56) 4

/-- First eligible task of a ready order with its placement. -/
def State.firstFit (s : State) (ok : Nat → Bool) (key k : Nat) : Option (List (Nat × Nat)) :=
  (s.readyTasks key).findSome? fun t => if s.numbered t then s.fits ok t k else none

/-- Contexts in ascending order from `p`, wrapping. -/
def fromCtx (p : Nat) (cs : List Nat) : List Nat := (cs.filter (p ≤ ·)) ++ (cs.filter (· < p))

/-- One class's candidate: the state with credits refilled, the context and the placement. -/
def State.chooseClass (s : State) (free : Nat → Bool) (cls k : Nat) : Option (State × Nat × List (Nat × Nat)) :=
  let ok := s.classOk free cls
  let cands := (List.range 64).filter fun c => (s.firstFit ok (2 * c + cls) k).isSome
  if cands.isEmpty then none
  else
    let p := s.lm.p.getD cls 0
    let pos := cands.filter fun c => s.weight c cls != 0
    if pos.isEmpty then
      (fromCtx p cands).head?.bind fun c => (s.firstFit ok (2 * c + cls) k).map fun g => (s, c, g)
    else
      let credit := fun (m : Lm) c => aget 0 (2 * c + cls) m.credit
      let s := if pos.any fun c => decide (0 < credit s.lm c) then s
        else s.modLm fun m => { m with credit := pos.foldl (fun l c => aput 0 (2 * c + cls) (s.weight c cls : Int) l) m.credit }
      ((fromCtx p pos).find? fun c => decide (0 < credit s.lm c)).bind fun c => (s.firstFit ok (2 * c + cls) k).map fun g => (s, c, g)

/-- Charges a decision. -/
def State.charge (s : State) (c cls n : Nat) : State :=
  s.modLm fun m =>
    let v := aget 0 (2 * c + cls) m.credit - (n : Int)
    { m with credit := aput 0 (2 * c + cls) v m.credit, p := m.p.set cls (if v ≤ 0 then (c + 1) % 64 else c) }

/-- The choice for a core, charged: class, context and placement. -/
def State.choose (s : State) (free : Nat → Bool) (k : Nat) : Option (State × Nat × Nat × List (Nat × Nat)) :=
  match s.chooseClass free 0 k with
  | some (s, c, g) => some (s.charge c 0 g.length, 0, c, g)
  | none => (s.chooseClass free 1 k).map fun r => (r.1.charge r.2.1 1 r.2.2.length, 1, r.2.1, r.2.2)

/-- Contexts with a task in the ready order of a class. -/
def State.readyCtxs (s : State) (cls : Nat) : List Nat := (List.range 64).filter fun c => !(s.lm.readyAt (2 * c + cls)).isEmpty

/-- Before the first eligible task of a ready order stands one that only lacks a number (R213). -/
def State.lacksNumber (s : State) (ok : Nat → Bool) (key k : Nat) : Bool :=
  ((s.readyTasks key).takeWhile fun t => !(s.numbered t && (s.fits ok t k).isSome)).any fun t => !s.numbered t && (s.fits ok t k).isSome

/-- Counts the contexts passed over for want of a number at a decision that looked at the classes up to `top` (R213). -/
def State.countNortn (s : State) (k top : Nat) : State :=
  let cs := (List.range 64).filter fun c => (List.range (top + 1)).any fun cls => s.lacksNumber (s.classOk s.coreFree cls) (2 * c + cls) k
  cs.foldl (fun s c => s.count (ctxBase c + 0x40)) s

/-! ### Domain ids (R200) -/

/-- The lowest id no live domain of the context holds at a level. -/
def State.freeDomain (s : State) (c level : Nat) : Nat :=
  (((List.range 4095).map (· + 1)).find? fun i => (s.domainOf c level i).isNone).getD 1

def Task.withDom (level id : Nat) (t : Task) : Task := { t with doms := t.doms.set (level - 1) id }

/-- The task joins its domain of a level, which its first member opens. -/
def State.joinDomain (s : State) (t : Task) (desc : List Word) (level : Nat) : State :=
  let n := domainSize desc level
  if n = 0 then s
  else match s.launchDomain t level (t.index / n) with
    | some d => s.modTask t.id (Task.withDom level d.id)
    | none =>
      let id := s.freeDomain t.ctx level
      let d := Domain.fresh level id t.ctx (t.launch.getD 0) (t.index / n) (min n (descCount desc - t.index / n * n))
      (s.modLm fun m => { m with domains := m.domains ++ [d] }).modTask t.id (Task.withDom level id)

/-- The task joins the group domain of its launch (R201). -/
def State.joinGroup (s : State) (t : Task) (desc : List Word) : State :=
  let id := bitsAt (desc.getD 5 0) 20 12
  if id = 0 then s else (s.openGroup t.ctx id).modTask t.id (Task.withDom 4 id)

/-! ### Placement -/

/-- Counts a task of launch `key` as placed. -/
def Launch.countPlaced (key : Nat) (l : Launch) : Launch := if l.key = key then { l with placed := l.placed + 1 } else l

/-- `CSCHED` of a context. -/
def State.csched (s : State) (c : Nat) : Word := s.reg (ctxBase c + 0x20)

/-- Gives a task its core and, at its first placement, its number and its domains. -/
def State.assign (s : State) (p : Nat × Nat) : State :=
  match s.taskOf p.1 with
  | none => s
  | some t =>
    let s := s.modLm fun m => m.leaveReady t.key t.id
    let desc := s.descOf t
    let r := match t.rtn with | some r => some r | none => (s.freeRtns t.ctx).head?
    let w := s.csched t.ctx
    let s := s.modTask t.id fun v => { v with st := .running, core := some p.2, last := p.2, rtn := r, sched := w }
    if t.saved then s
    else
      let s := match t.launch with
        | some l => s.modLm fun m => { m with launches := m.launches.map (Launch.countPlaced l) }
        | none => s
      (((s.joinDomain t desc 1).joinDomain t desc 2).joinDomain t desc 3).joinGroup t desc

/-! ### Preload (R221) -/

/-- Returns a preloaded task to the front of its ready order, with its credit. -/
def State.discardPreload (s : State) (k : Nat) : State :=
  match s.preloadOf k with
  | none => s
  | some t =>
    let s := s.modLm fun m =>
      { m.enterFront t.key t.id with
        preload := m.preload.filter fun p => p.1 != k
        credit := aput 0 t.key (aget 0 t.key m.credit + 1) m.credit }
    s.count (stationBase (k / 256) + 0x008)

/-- The launch manager preloads the next task of a busy core. A latency task for which a core is being vacated goes to that core (R218). -/
def execPreload (k : Nat) (s : State) : Host.Outcome State Fault Refusal :=
  let user := match s.taskOn k with | some t => !t.pager | none => false
  if !user || s.isPagerCore k || s.lm.preload.any (fun p => p.1 == k) then .next s
  else
    match s.choose (fun c => c == k || s.coreFree c) k with
    | some (s', _, _, [(t, _)]) =>
      match s'.taskOf t with
      | some u =>
        if s.lm.vacates.any (fun v => v.2.2 == t) then .next s
        else .next (s'.modLm fun m => { m.leaveReady u.key u.id with preload := (k, t) :: m.preload })
      | none => .next s
    | _ => .next s

/-- A preloaded task still suits its core: the masks allow it, and no latency task now wants a reserved core that it would borrow (R221). -/
def State.preloadHolds (s : State) (t : Task) (k : Nat) : Bool :=
  s.dieOk t.ctx k && !s.isPagerCore k && !s.ras.fenced.contains (0, k / 8) &&
    (t.cls == 0 || !s.isReserved k || !s.latencyWants (fun c => c == k || s.coreFree c) k)

/-- Preloads that no longer hold are discarded. -/
def State.recheckPreloads (s : State) : State :=
  s.lm.preload.foldl (fun s p =>
    match s.taskOf p.2 with
    | none => s
    | some t => if s.preloadHolds t p.1 then s else s.discardPreload p.1) s

/-- Every free core is offered again: a number is free, or the host or the supervisor has changed what tasks may take (log 27). -/
def State.reoffer (s : State) : State := s.modLm fun m => { m with offered := [] }

/-- The core is not offered again until a ready order changes. -/
def State.noteOffered (s : State) (k : Nat) : State :=
  s.modLm fun m => { m with offered := if m.offered.contains k then m.offered else k :: m.offered }

/-- A decision that places nothing: it counts the contexts without a number, and the core stays free (R213, R216). -/
def State.offerVain (s : State) (k : Nat) : State := if s.lm.offered.contains k then s else (s.countNortn k 1).noteOffered k

/-- The launch manager places tasks for a free core: its preloaded task once that has a number, or the choice of R216. -/
def execPlacementDecision (k : Nat) (s : State) : Host.Outcome State Fault Refusal :=
  let s := s.recheckPreloads
  if !s.coreIdle k then .next s
  else match s.preloadOf k with
    | some t =>
      if !s.numbered t then .next (if s.lm.offered.contains k then s else (s.count (ctxBase t.ctx + 0x40)).noteOffered k)
      else .next ((s.modLm fun m => { m with preload := m.preload.filter fun p => p.1 != k }).assign (t.id, k))
    | none => match s.choose s.coreFree k with
      | none => .next (s.offerVain k)
      | some (s', cls, _, g) => .next (g.foldl State.assign (s'.countNortn k cls))

/-! ### Task start (R196, R31) -/

/-- The binding a task's array is loaded from (R413, R414): its own or the context's default. -/
def State.bindingOf (s : State) (t : Task) : Option (Nat × Nat) :=
  match t.binding with
  | some b => some b
  | none =>
    let r := s.reg (ctxBase t.ctx + 0x28)
    if bitAt r 0 then some (bitsAt r 4 48 * 16, bitsAt r 52 12 + 1) else none

/-- Loads the core's translation array from its task's binding, or gives the value of `NOXLAT` (R427). -/
def State.loadArray (s : State) (k : Nat) (t : Task) : Except Word State :=
  match s.bindingOf t with
  | none => .error (BitVec.allOnes 64)
  | some (base, n) =>
    match s.loadImage base n with
    | .error i => .error (BitVec.ofNat 64 i)
    | .ok es => .ok (s.modCore k fun c =>
        { c with view := { c.view with ltt := es }, lttBase := base, lttCount := n
                 lttCrc := BitVec.ofNat 64 (crc32c (es.flatMap fun e => wordsBytes [e.1, e.2])) })

/-- A context's handle table and the code as they now stand (R21, R117). -/
def State.viewNow (s : State) (ctx : Nat) (sup : Bool) : View :=
  let h := s.tableOf ctx
  { ctx := ctx, sup := sup, htb := h.1, htn := h.2, snap := s.coherentMem, ltt := [], draw := s.free }

/-- What the placement fixes for the task (R21, R117). -/
def State.newView (s : State) (t : Task) : View := s.viewNow t.ctx t.sup

/-- A strand at task start. -/
def startStrand (pc : Word) (parked : Bool) (g : List Word) (win : List Word) : Strand :=
  { Strand.reset with pc := pc, parked := parked, g := g, win := win ++ List.replicate (96 - win.length) 0 }

/-- The start state (R196): counts, arguments and program counters from the descriptor. -/
def Core.startState (c : Core) (desc : List Word) (index count lid : Word) (dmem : Word) : Core :=
  let ph := bitsAt (desc.getD 0 0) 52 12 * 2 ^ 52
  let split := bitAt (desc.getD 0 0) 51
  let entry := fun i => desc.getD (1 + i) 0
  let pc := fun i => BitVec.ofNat 64 (ph + (if split then bitsAt (entry i) 0 48 else bitsAt (entry 3) 0 48 + 4 * i))
  let parked := fun i => split && !bitAt (entry i) 63
  let args := (desc.drop 8).take 16
  let g := [index, count, lid] ++ args.take 4
  { c with
    split := split, dmem := dmem
    l := startStrand (pc 0) (parked 0) g [], x := startStrand (pc 1) (parked 1) g []
    s := startStrand (pc 2) (parked 2) g [], k := startStrand (pc 3) false g args }

/-- `DMEM` of a task's domain ids (R200). -/
def dmemWord (doms : List Nat) : Word :=
  mkWord [(doms.getD 3 0, 52), (doms.getD 2 0, 40), (doms.getD 1 0, 28), (doms.getD 0 0, 16)]

/-- A core that takes a task: everything is at its start value but what belongs to the core. The placement draws the free value that stands for
code of other modules and absent addresses (log 4). -/
def State.freshCore (s : State) (k : Nat) (t : Task) (lid : Nat) : Core :=
  { (s.coreAt k).idle with
    task := some { id := t.id, rtn := t.rtn, pager := t.pager, lid := lid }
    view := s.newView t
    vshare := BitVec.ofNat 64 (bitsAt t.sched 52 4) }

/-- The launch id of a task. -/
def State.lidOf (s : State) (t : Task) : Nat := match t.launch.bind s.launchOf with | some l => l.lid | none => 0

/-- A core's start state for a task of index `index` of `count` (R196). -/
def Core.startTask (c : Core) (t : Task) (desc : List Word) (index count lid : Nat) : Core :=
  c.startState desc (BitVec.ofNat 64 index) (BitVec.ofNat 64 count) (BitVec.ofNat 64 lid) (dmemWord t.doms)

/-- Puts a task in its start state on a core and loads its array; a failure ends its context. -/
def State.startOn (s : State) (k : Nat) (t : Task) (desc : List Word) (index count lid : Nat) : State :=
  let s := { s.setCore ((s.freshCore k t lid).startTask t desc index count lid) with free := s.free + 1 }
  match s.loadArray k t with
  | .ok s' => s'
  | .error v => s.fatalError t.ctx (.strand k .k) 0x80 v 0

/-- Starts a task on the core it was given, once its cluster is awake. -/
def State.startTask (s : State) (t : Task) (k : Nat) : State :=
  s.startOn k t (s.descOf t) t.index (descCount (s.descOf t)) (s.lidOf t)

def State.awake (s : State) (g : Nat) : Bool :=
  let cl : Cluster := aget Cluster.reset g s.clusters
  cl.power == 0

/-- A task is first placed. -/
def execTaskStart (t : Nat) (s : State) : Host.Outcome State Fault Refusal :=
  match s.taskOf t with
  | none => .next s
  | some u =>
    match u.core with
    | none => .next s
    | some k =>
      if u.st = .running ∧ !u.saved ∧ (s.coreAt k).task.isNone ∧ s.awake (k / 8) then .next (s.startTask u k) else .next s

/-! ### Saves (R113, R426) -/

/-- Scratchpad bytes of a core's slice: store address and count. -/
def State.sliceOf (s : State) (k : Nat) : Nat × Nat := (storeAddr (k / 8) (2 ^ 18 * (k % 8)), 2 ^ 18 - s.l1Part (k / 8))

/-- The slice is written to its image. -/
def State.saveSlice (s : State) (k a : Nat) : State :=
  let sl := s.sliceOf k
  if s.plain && rangeOk a sl.2 then
    let s := (s.hubTouch 130 a sl.2).wrote a sl.2
    { s with
      mem := copyCells s.store sl.1 sl.2 s.mem a
      coh := (s.coh.poison.filter fun p => decide (a ≤ 32 * p ∧ 32 * p + 32 ≤ a + sl.2)).foldl (fun c p => c.setMark p false) s.coh }
  else s.writeMem a (cellRead s.store sl.1 sl.2)

/-- The image is read into the slice. -/
def State.loadSlice (s : State) (k a : Nat) : State :=
  let sl := s.sliceOf k
  let m := if s.plain && rangeOk a sl.2 then s.mem else cellsFrom a (s.readMem a sl.2)
  { s with
    store := copyCells m a sl.2 s.store sl.1
    coh := { s.coh with scWrites := s.coh.scWrites.filter fun q => !(decide (2 ^ 60 + sl.1 ≤ q.1 ∧ q.1 < 2 ^ 60 + sl.1 + sl.2)) } }

/-- Discards the held entries as a save does (R300, R426): their slots are free, and `SPECLOST` tells of them. -/
def Core.discardHeld (c : Core) : Core :=
  let slots := c.hold.filterMap fun h => match h with | .nreq j _ _ _ _ => some j | _ => none
  let free : ArrSlot := { st := .free, word := 0 }
  { c with
    hold := [], slots := slots.foldl (fun l j => l.set j free) c.slots
    specst := setBits (setBits (setBits c.specst 32 8 0) 0 1 0) 1 1 (if c.hold.isEmpty then bitsAt c.specst 1 1 else 1) }

/-- A save may begin: an order to pre-empt stands, no job is open, and the core is not halted (R368). -/
def Core.mayStop (c : Core) : Bool :=
  c.preempt != 0 && c.saving == 0 && c.openJob.isNone && !c.halted && (c.task.map (fun t => !t.pager)).getD false

/-- Steps 1, 2 and 4 of a save: the strands stop, issued X words land, held entries go. -/
def execContextSave (k why : Nat) (s : State) : Host.Outcome State Fault Refusal :=
  let c := s.coreAt k
  if !c.mayStop || (c.preempt != why) then .next s
  else
    let s := s.landCore k Core.landAll
    let s := s.modCore k fun c => { c.discardHeld with saving := why, preempt := 0, asleep := 0, waited := 0 }
    match c.task with
    | some t => .next (s.modTask t.id fun u => { u with st := .saving })
    | none => .next s

/-- Stage numbers of the strands, and of the banked levels (log 7). -/
def Core.stages (c : Core) : List Nat := [c.l.stage, c.x.stage, c.s.stage, c.k.stage, c.bank1.stage, c.bank2.stage]

/-- Jobs of a task that its engines still owe, and those completed. -/
def State.jobsOf (s : State) (t : Nat) : List Job := s.jobs.filter fun j => j.task == t && !j.drop

/-- Completed before, or in the same cycle with an earlier acceptance. -/
def Job.doneBefore (i j : Job) : Bool := decide (i.doneSeq < j.doneSeq ∨ (i.doneSeq = j.doneSeq ∧ i.seq < j.seq))

def insJob (j : Job) : List Job → List Job
  | [] => [j]
  | k :: ks => if j.doneBefore k then j :: k :: ks else k :: insJob j ks

/-- Jobs in completion order. -/
def sortJobs (js : List Job) : List Job := js.foldl (fun l j => insJob j l) []

/-- A job whose completion is over (R372). -/
def Job.completed (j : Job) : Bool := j.word.isSome && j.tokDone

/-- Everything a save drains is drained (step 3): as a release at `.sys` it waits for every window slot of its cluster (R111, R113). -/
def State.saveDrained (s : State) (k : Nat) (t : Task) : Bool :=
  let c := s.coreAt k
  c.ops.isEmpty && c.bsts.isEmpty && s.drainedNow k 5 && (s.jobsOf t.id).all Job.completed

/-- The future it waits on has become terminal, or is gone. -/
def State.futureOver (s : State) (t : Task) : Bool :=
  match t.future with
  | none => true
  | some f => match s.futures.find? (fun x => x.id == f) with
    | some x => decide (3 ≤ x.st ∨ x.st = 0)
    | none => true

/-- The task enters its next state after a save for reason `why` (R194, R215, R221). -/
def State.requeue (s : State) (t : Task) (why k : Nat) : State :=
  let set := fun (s : State) (st : TaskState) => s.modTask t.id fun u => { u with st := st }
  match why with
  | 1 =>
    let s := (set s .queued).modLm fun m => m.enterVacated t.key t.id
    match s.lm.vacates.find? (fun v => v.1 == k) with
    | some v =>
      let s := if v.2.1 + 5000 < s.now then s.count (stationBase (k / 256)) else s
      s.modLm fun m => { m with vacates := m.vacates.filter fun w => w.1 != k }
    | none => s
  | 4 =>
    if s.futureOver t then (set s .queued).modLm fun m => m.enterWoken t.key t.id
    else set s .futwait
  | _ => (set s .queued).modLm fun m => m.enterBack t.key t.id

/-- Steps 5-8 of a save: pins end, the area and the slice image are written, the core is freed. -/
def execSaveComplete (k : Nat) (s : State) : Host.Outcome State Fault Refusal :=
  match s.taskOn k with
  | none => .next s
  | some t =>
    let c := s.coreAt k
    if c.saving = 0 || !s.saveDrained k t then .next s
    else match t.rtn with
      | none => .next s
      | some r =>
        let s := s.endPins k
        let s := s.writeMem (s.areaAt t.ctx r) c.area
        let s := s.saveSlice k (s.imageAt t.ctx r)
        let held := (sortJobs (s.jobsOf t.id)).filterMap fun j => j.word.map fun w => (j.eng, w)
        let s := { s with jobs := s.jobs.filter fun j => j.task != t.id || j.drop }
        let s := s.modTask t.id fun u =>
          { u with
            core := none, saved := true, heldJobs := u.heldJobs ++ held, stages := c.stages, bdone := c.bdone
            rels := c.strands.map (·.rel), pagerOut := c.pagerOut }
        let s := s.trace c 10 0 0 (BitVec.ofNat 64 r) 0
        let s := s.modCore k Core.idle
        .next (s.requeue t c.saving k).superDeliver

/-! ### Resumption (R427) -/

/-- Puts the saved progress of words back, and the scopes at which the strands' writes are releases (R95). -/
def Core.withStages (c : Core) (st rels : List Nat) (bd : BitVec 4) : Core :=
  { c with
    l := { c.l with stage := st.getD 0 0, rel := rels.getD 0 0 }, x := { c.x with stage := st.getD 1 0, rel := rels.getD 1 0 }
    s := { c.s with stage := st.getD 2 0, rel := rels.getD 2 0 }, k := { c.k with stage := st.getD 3 0, rel := rels.getD 3 0 }
    bank1 := { c.bank1 with stage := st.getD 4 0 }
    bank2 := { c.bank2 with stage := st.getD 5 0 }, bdone := bd }

/-- A pager reply reaches a core: `PGREPLY` is set and the event latched (R41). -/
def Core.takeReply (c : Core) (v : Word) : Core := { ({ c with pgreply := v, pagerOut := none }).latch 0 with pgreply := v }

/-- Notifications held for a task are applied (R42, R171). -/
def Core.applyHeld (c : Core) (t : Task) : Core :=
  let c := t.heldSlots.foldl (fun (c : Core) h => { c with slots := c.slots.set h.1 { st := h.2.1, word := h.2.2 } }) c
  match t.heldReply with
  | some v => c.takeReply v
  | none => c

/-- A saved task is restored on the core it was given. -/
def State.resumeTask (s : State) (t : Task) (k r : Nat) : State :=
  let s := s.loadSlice k (s.imageAt t.ctx r)
  let area := cellsFrom 0 (s.readMem (s.areaAt t.ctx r) 16384)
  let c := ((s.freshCore k t (s.lidOf t)).fromArea area 0).withStages t.stages t.rels t.bdone
  let s := { s.setCore { c with pagerOut := t.pagerOut } with free := s.free + 1 }
  match s.loadArray k t with
  | .error v => s.fatalError t.ctx (.strand k .k) 0x80 v 0
  | .ok s =>
    let s := s.modCore k fun c => c.applyHeld t
    let s := s.modTask t.id fun u => { u with saved := false, heldSlots := [], heldReply := none, future := none }
    s.trace (s.coreAt k) 11 0 0 (BitVec.ofNat 64 r) 0

def execTaskResume (t : Nat) (s : State) : Host.Outcome State Fault Refusal :=
  match s.taskOf t with
  | none => .next s
  | some u =>
    match u.core, u.rtn with
    | some k, some r =>
      if u.st = .running ∧ u.saved ∧ (s.coreAt k).task.isNone ∧ s.awake (k / 8) then .next (s.resumeTask u k r) else .next s
    | _, _ => .next s

/-! ### Vacating and budgets (R218, R219) -/

/-- A bulk task borrows the core. -/
def State.borrowed (s : State) (k : Nat) : Bool :=
  s.isReserved k && (match s.taskOn k with | some t => t.cls == 1 && t.st == .running && !t.pager | none => false) && (s.coreAt k).preempt == 0

/-- The core would take latency task `t` if it were free. -/
def State.wouldTake (s : State) (t : Task) (k : Nat) : Bool :=
  s.numbered t && (s.lm.readyAt t.key).contains t.id && !s.isPagerCore k && !s.clusterShut (k / 8) && (s.fits (fun c => c == k || s.coreFree c) t k).isSome

/-- A latency task with no free core it could take vacates the lowest borrowed one. -/
def execVacate (t : Nat) (s : State) : Host.Outcome State Fault Refusal :=
  match s.taskOf t with
  | none => .next s
  | some u =>
    if u.cls ≠ 0 ∨ u.st ≠ .queued ∨ s.lm.vacates.any (fun v => v.2.2 == t) ∨
        (List.range 2048).any (fun k => s.coreFree k && s.wouldTake u k) then .next s
    else match (List.range 2048).find? fun k => s.borrowed k && s.wouldTake u k with
      | none => .next s
      | some k =>
        let keep := match s.preloadOf k with
          | some p => p.cls == 0
          | none => true
        let s := if keep then s else s.discardPreload k
        let s := s.modLm fun m => { m with vacates := (k, s.now, t) :: m.vacates }
        .next (s.modCore k fun c => { c with preempt := 1 })

/-- A task's budget in cycles, with the class default that its placement found (R214); 0 = unlimited. -/
def State.budgetOf (s : State) (t : Task) : Nat :=
  let own := bitsAt ((s.descOf t).getD 6 0) 0 32
  let dflt := if t.cls = 0 then bitsAt t.sched 20 20 else bitsAt t.sched 0 20
  1024 * (if own = 0 then dflt else own)

/-- The budget is used up: the task is to be pre-empted. -/
def execBudgetOverrun (k : Nat) (s : State) : Host.Outcome State Fault Refusal :=
  match s.taskOn k with
  | none => .next s
  | some t =>
    let c := s.coreAt k
    if t.pager ∨ c.preempt ≠ 0 ∨ c.saving ≠ 0 ∨ s.budgetOf t = 0 ∨ c.budget < s.budgetOf t then .next s
    else .next ((s.modCore k fun c => { c with preempt := 2 }).count (ctxBase t.ctx + 0x48))

/-! ### Rerun (R220) -/

/-- Withdraws the arrivals of a task in phases that have not departed. -/
def State.withdraw (s : State) (t : Task) : State :=
  let s := t.arrived.foldl (fun s a =>
    match s.domainOf t.ctx a.1 a.2 with
    | some d => s.setDomain { d with arrived := d.arrived - 1 }
    | none => s) s
  s.modTask t.id fun u => { u with arrived := [] }

/-- Consumer records of a task that starts over go: its slots are FREE (R196, R220). -/
def State.forgetRecords (s : State) (t : Task) : State :=
  let mine := fun (c : Cons) => c.ctx == t.ctx && t.rtn == some c.rtn
  let gone := (s.agate.cons.filter mine).map fun c => (c.stn, c.idx)
  { s with agate := { s.agate with
      cons := s.agate.cons.filter fun c => !mine c
      pends := s.agate.pends.map fun p => { p with cons := p.cons.filter fun i => !gone.contains (p.rt, i) } } }

/-- A job of the task is discarded when it completes (R373). -/
def Job.dropOf (t : Nat) (j : Job) : Job := if j.task = t then { j with drop := true } else j

/-- What a rerun leaves of a core: it is no placement, so the array, the code, `VSHARE` and `DPHASE` stay, and a request to the pager stands
(R31, R40, R220). -/
def Core.rerun (c : Core) : Core :=
  { c.idle with
    task := c.task, view := c.view, lttBase := c.lttBase, lttCount := c.lttCount, lttCrc := c.lttCrc, dphase := c.dphase, pagerOut := c.pagerOut }

/-- The task of a core starts over: its outstanding writes go, its other jobs run on and are dropped (R373). -/
def State.rerun (s : State) (k : Nat) (t : Task) : State :=
  let s := s.endPins k
  let s := (s.withdraw t).forgetRecords t
  let s := { s with jobs := s.jobs.map (Job.dropOf t.id) }
  let s := { s with jobs := s.jobs.filter fun j => !(j.drop && j.completed) }
  let s := s.modTask t.id fun u => { u with misses := u.misses + 1, heldJobs := [] }
  let s := (s.discardPreload k).count (ctxBase t.ctx + 0x50)
  let desc := s.descOf t
  s.modCore k fun c => { c.rerun.startTask t desc t.index (descCount desc) (s.lidOf t) with dphase := c.dphase }

/-! ### Launch queues (R210-R212) -/

def lqReg (c q : Nat) : Nat := ctxBase c + 0x100 + 8 * q

/-- Entries of a queue. -/
def State.queueSize (s : State) (c q : Nat) : Nat := 2 ^ (min 12 (s.rfld (lqReg c q) 52 4) + 2)

def State.queueTail (s : State) (c q : Nat) : Nat := bitsAt (s.wordAt (s.queueHead c q)) 0 32
def State.queuePos (s : State) (c q : Nat) : Nat := bitsAt (s.wordAt (s.queueHead c q + 8)) 0 32
def State.queueSlot (s : State) (c q i : Nat) : Nat := s.queueHead c q + 256 * (1 + i % s.queueSize c q)

/-- The launch manager reads a `TAIL` it was told of; an inconsistent one disables the queue. -/
def execLqTailUpdate (c q : Nat) (s : State) : Host.Outcome State Fault Refusal :=
  if !bitAt (s.reg (lqReg c q)) 63 then .next s
  else
    let tail := s.queueTail c q
    if s.queueSize c q < (tail + 2 ^ 32 - s.queuePos c q) % 2 ^ 32 then
      .next (((s.setFld (lqReg c q) 63 1 0).setFld (lqReg c q) 62 1 1).modLm fun m => { m with tails := adel (32 * c + q) m.tails })
    else .next (s.modLm fun m => { m with tails := aput 0 (32 * c + q) tail m.tails })

/-- Valid program handle: the handle a descriptor names, with execute permission, in space 0. -/
def State.programHandle (s : State) (c : Nat) (desc : List Word) : Option Handle :=
  match (s.viewNow c false).handle (mkWord [(bitsAt (desc.getD 0 0) 52 12, 52)]) with
  | some x => if x.space = 0 ∧ x.perm.getLsbD 2 then some x else none
  | none => none

/-- Check 1 of R198; a pager descriptor's sizes and count are not looked at (R487). -/
def descZero (desc : List Word) (pager : Bool) : Bool :=
  let w := fun i => desc.getD i 0
  bitsAt (w 0) 17 32 == 0 && (List.range 4).all (fun i => bitsAt (w (1 + i)) 48 15 == 0) &&
    bitsAt (w 5) 60 4 == 0 && bitsAt (w 5) 53 3 == 0 && bitsAt (w 5) 0 20 == 0 && bitsAt (w 6) 32 32 == 0 && w 7 == 0 &&
    (List.range 8).all (fun i => w (24 + i) == 0) && (pager || decide (1 ≤ descCount desc ∧ descCount desc ≤ 65536))

/-- Check 3 of R198. -/
def descEntries (desc : List Word) (len : Nat) : Bool :=
  let w := fun i => desc.getD (1 + i) 0
  let off := fun i => bitsAt (w i) 0 48
  if bitAt (desc.getD 0 0) 51 then
    (List.range 4).all (fun i => !bitAt (w i) 63 || (decide (off i < len) && off i % 4 == 0)) && bitAt (w 3) 63
  else decide (off 3 < len) && off 3 % 16 == 0 && (List.range 3).all (fun i => w i == 0)

/-- Check 4 of R198. -/
def descShape (desc : List Word) : Bool :=
  let a := domainSize desc 1
  let b := domainSize desc 2
  let c := domainSize desc 3
  let n := descCount desc
  let least := if a ≠ 0 then a else if b ≠ 0 then b else c
  decide (a ≤ 8 ∧ b ≤ 256 ∧ c ≤ 2048) && (b == 0 || a == 0 || b % a == 0) &&
    (c == 0 || (if b ≠ 0 then c % b == 0 else a == 0 || c % a == 0)) && (least == 0 || n % least == 0)

/-- The status of the first failing check (R198). -/
def State.descStatus (s : State) (c q : Nat) (desc : List Word) : Option Nat :=
  if !descZero desc false then some 0x20
  else match s.programHandle c desc with
    | none => some 0x21
    | some h =>
      if !descEntries desc h.len then some 0x22
      else if !descShape desc then some 0x23
      else if bitsAt (desc.getD 5 0) 20 12 ≠ 0 ∧ (s.gdomReg c (bitsAt (desc.getD 5 0) 20 12)).isNone then some 0x24
      else if s.ctxState c ≠ 1 ∨ !bitAt (s.reg (ctxBase c + 0x10)) 62 then some 0x25
      else if bitAt (desc.getD 0 0) 49 ∧ !bitAt (s.reg (lqReg c q)) 61 then some 0x26
      else none

/-- Tasks of an accepted launch, in ascending index. -/
def newTasks (first key c cls : Nat) (sup : Bool) (n : Nat) : List Task :=
  (List.range n).map fun i =>
    { id := first + i, launch := some key, index := i, ctx := c, cls := cls, sup := sup, st := .queued, rtn := none, core := none, last := 0
      saved := false, binding := none, misses := 0, doms := [0, 0, 0, 0], arrived := [], heldJobs := [], heldReply := none, heldSlots := []
      future := none, pagerOut := none, stages := [], bdone := 0, rels := [], sched := 0 }

def State.acceptLaunch (s : State) (c q lid : Nat) (desc : List Word) : State :=
  s.modLm fun m =>
    let cls := bitsAt (desc.getD 0 0) 50 1
    let n := descCount desc
    let l : Launch := { key := m.nextLaunch, lid := lid, ctx := c, q := q, desc := desc, placed := 0, ended := 0 }
    let ts := newTasks m.nextTask m.nextLaunch c cls (bitAt (desc.getD 0 0) 49) n
    let ids := ts.map (·.id)
    -- behind the tasks of earlier launches, in front of those pre-empted for their budget
    let key := 2 * c + cls
    let old := aget [] key m.ready
    let unplaced := fun id => m.tasks.any fun t => t.id == id && !t.saved
    let cut := aget 0 key m.woken + aget 0 key m.vacated
    let pos := max cut ((old.length) - (old.reverse.takeWhile fun id => !unplaced id).length)
    { m with
      launches := m.launches ++ [l], tasks := m.tasks ++ ts, nextTask := m.nextTask + n, nextLaunch := m.nextLaunch + 1
      ready := aput [] key (old.take pos ++ ids ++ old.drop pos) m.ready, offered := [] }

def Launch.open_ (l : Launch) : Bool := decide (l.placed < descCount l.desc)

/-- The launch manager takes the descriptor at `HEAD`. -/
def execLaunchTake (c q : Nat) (s : State) : Host.Outcome State Fault Refusal :=
  let head := s.queuePos c q
  let open_ := s.lm.launches.filter fun l => l.ctx == c && l.open_
  if !bitAt (s.reg (lqReg c q)) 63 || aget 0 (32 * c + q) s.lm.tails == head || open_.any (fun l => l.q == q) || decide (256 ≤ open_.length) then
    .next s
  else
    let desc := s.wordsAt (s.queueSlot c q head) 32
    let lid := 2 ^ 32 * q + head
    let s' := s.writeWordAt (s.queueHead c q + 8) (BitVec.ofNat 64 ((head + 1) % 2 ^ 32))
    match s.descStatus c q desc with
    | some st => .next (s'.setReg (ctxBase c + 0x200 + 8 * q) (mkWord [(1, 63), (st, 48), (lid, 0)]))
    | none => .next (s'.acceptLaunch c q lid desc)

/-! ### Pager tasks (R487) -/

/-- The launch manager places a pager task on an idle pager core. -/
def execPagerTaskPlace (k : Nat) (s : State) : Host.Outcome State Fault Refusal :=
  let d := s.reg 0x070
  let c := bitsAt d 58 6
  if !(bitAt d 0 && s.isPagerCore k && (s.coreAt k).task.isNone && s.ctxState c == 1 && !s.lm.pagerIdle.contains k && s.awake (k / 8)
      && !s.ras.fenced.contains (0, k / 8)) || decide (2048 ≤ k) then .next s
  else
    let desc := s.wordsAt (bitsAt d 8 44 * 256) 32
    let ok := descZero desc true && (match s.programHandle c desc with | some h => descEntries desc h.len | none => false) &&
      bitAt (s.reg (ctxBase c + 0x10)) 62 && bitAt (desc.getD 0 0) 49
    if !ok then .next (s.modLm fun m => { m with pagerIdle := k :: m.pagerIdle })
    else
      let t : Task :=
        { id := s.lm.nextTask, launch := none, index := k, ctx := c, cls := 0, sup := true, st := .running, rtn := none, core := some k
          last := k, saved := false, binding := none, misses := 0, doms := [0, 0, 0, 0], arrived := [], heldJobs := [], heldReply := none
          heldSlots := [], future := none, pagerOut := none, stages := [], bdone := 0, rels := [], sched := s.csched c }
      let s := s.modLm fun m => { m with nextTask := m.nextTask + 1, tasks := m.tasks ++ [t] }
      let ev := (s.coreAt k).k.pend
      let s := (s.startOn k t desc k 1 0).modCore k fun c => { c with k := { c.k with pend := c.k.pend ||| (ev &&& 4) } }
      .next s.superDeliver

/-- A write of `PAGERDESC` names the pager program; idle pager cores are offered it again. -/
def execPagerdescWrite (v : Word) (s : State) : Host.Outcome State Fault Refusal :=
  .next ((s.writeReg 0x070 v).modLm fun m => { m with pagerIdle := [] })

end Sys2Proof.Machine
end

