-- ==== Sys2Proof/Machine/JobWords.lean ====
section
/-! DEFINITION. The words by which K drives the engines: `JCMD`, `JEND`, `JWAIT`, `JPOLL`, `JPOP` and the ring words (R365-R374, R384-R387). -/

namespace Sys2Proof.Machine

/-! ### Held jobs (R371) -/

/-- Engine number of a code; none if reserved. -/
def engCode (e : BitVec 2) : Option Nat := if e.toNat < 2 then some e.toNat else none

/-- The task of the current core. -/
def State.myTask (s : State) : Option Task := s.taskOn s.core.idx

def State.myTaskId (s : State) : Nat := (s.core.task.map (·.id)).getD 0

/-- Id of a completion word. -/
def wordId (w : Word) : Nat := bitsAt w 33 12

/-- Held completions of the task on an engine (R373). -/
def State.heldWords (s : State) (e : Nat) : List Word :=
  match s.myTask with
  | some t => (t.heldJobs.filter fun p => p.1 == e).map (·.2)
  | none => []

/-- Live jobs of the task on an engine. -/
def State.liveJobs (s : State) (e : Nat) : List Job := s.jobs.filter fun j => j.task == s.myTaskId && j.eng == e && !j.drop

/-- Jobs of the task on an engine that are not retired. -/
def State.unretired (s : State) (e : Nat) : Nat := (s.heldWords e).length + (s.liveJobs e).length

/-- Queue entries taken: open jobs and jobs not completed (R224). -/
def State.entriesTaken (s : State) (g e : Nat) : Nat :=
  (s.jobs.filter fun j => j.clu == g && j.eng == e && !j.completed).length +
    (s.allCores.filter fun c => c.cluster == g && (match c.openJob with | some o => o.eng == e | none => false)).length

/-! ### JCMD (R366) -/

def semJcmd (ra rb : BitVec 5) (eng : BitVec 2) (two : BitVec 1) : Sem := fun s =>
  match engCode eng with
  | none => illegal
  | some e => do
    illegalIf (two == 0 && rb != 0)
    illegalIf (match s.core.openJob with | some o => o.eng != e || decide (o.level < s.core.tl) | none => false)
    ready s (ra :: if two = 1 then [rb] else [])
    illegalIf (s.core.openJob.isNone && decide (16 ≤ s.unretired e))
    waitIf (s.core.openJob.isNone && decide (32 ≤ s.entriesTaken s.core.cluster e)) outside
    let o : OpenJob := s.core.openJob.getD { eng := e, words := [], level := s.core.tl, issued := 0 }
    let ws := s.g ra :: (if two = 1 then [s.g rb] else [])
    illegalIf (decide (256 < o.words.length + ws.length))
    .ok (.next { s with core := { s.core with openJob := some { o with words := o.words ++ ws } } })

/-! ### JEND (R367, R369, R374) -/

/-- The handle may lead to pages of another module. -/
def View.peerPages (v : View) (h : Handle) : Bool :=
  (h.space == 0) && v.ltt.any fun e =>
    bitAt e.1 0 && bitsAt e.2 48 4 == 4 && decide ((lttRange e.1).1 < h.vbase + h.len ∧ h.vbase < (lttRange e.1).2)

/-- Handle address of a copy record's destination. -/
def recDest (r : List Word) : Option Word :=
  match recOp r with
  | 0x10 | 0x12 | 0x13 => some (recWord r 2)
  | 0x11 => some (recWord r 1)
  | _ => none

/-- Scope of the release for one destination. -/
def State.destScope (s : State) (a : Word) : Nat :=
  match s.core.view.handle a with
  | none => 1
  | some h =>
    if h.space = 2 then s.windowScope (2 ^ 29 * (h.win / 2 ^ 27 % 32))
    else if s.core.view.peerPages h then 5 else 1

/-- Scope of the release of a `JEND` (R374). -/
def State.jobScope (s : State) (e : Nat) (rs : List (List Word)) : Nat :=
  if e = 0 then 1 else (rs.filterMap recDest).foldl (fun m a => max m (s.destScope a)) 1

/-- The lowest free id above the last allocated, wrapping (R224, R367). -/
def State.freeJobId (s : State) (e : Nat) : Nat :=
  let g := s.core.cluster
  let cl : Cluster := aget Cluster.reset g s.clusters
  let last := if e = 0 then cl.lastMe else cl.lastCe
  let used := (s.jobs.filter fun j => j.clu == g && j.eng == e).map (·.id) ++ (s.heldWords e).map wordId
  (((List.range 4096).map fun i => (last + 1 + i) % 4096).find? fun i => !used.contains i).getD 0

def Cluster.tookId (cl : Cluster) (e id : Nat) : Cluster := if e = 0 then { cl with lastMe := id } else { cl with lastCe := id }

/-- Accepts the open job. -/
def State.acceptJob (s : State) (o : OpenJob) (tok : Nat) : State × Nat :=
  let g := s.core.cluster
  let p := s.parseJob g s.ctx o.eng 64 0 o.words
  let id := s.freeJobId o.eng
  let ended := match p.2 with
    | some i => some (0x20, i)
    | none => (s.badRing g s.ctx p.1).map fun i => (0x21, i)
  let j : Job :=
    { id := id, eng := o.eng, clu := g, core := s.core.idx, task := s.myTaskId, view := s.core.view, recs := p.1, next := 0, sub := 0
      at_ := s.now, seq := s.jobSeq, stamped := p.1.any (fun r => recStamp r != 0), tok := tok, accs := [none, none, none, none]
      bound := false, flags := 0, bytes := 0, busy := none, begun := false, pace := 0, ended := ended, wins := 0, got := [], held := none, word := none, doneSeq := 0
      tokDone := false, drop := false }
  let cl : Cluster := aget Cluster.reset g s.clusters
  let s := { s with
    jobs := s.jobs ++ [j], jobSeq := s.jobSeq + 1, clusters := aput Cluster.reset g (cl.tookId o.eng id) s.clusters
    core := { s.core with openJob := none } }
  (s.syncRings g, j.handle)

def semJend (rd : BitVec 5) (tok : BitVec 2) : Sem := fun s =>
  match s.core.openJob with
  | none => illegal
  | some o => do
    illegalIf (decide (o.level < s.core.tl))
    ready s [rd]
    quiet s
    let sc := s.effScope (s.jobScope o.eng (s.parseJob s.core.cluster s.ctx o.eng 64 0 o.words).1)
    waitIf (!s.drainedNow s.core.idx sc) outside
    let s := s.widenPins s.core.idx sc
    let r := s.acceptJob o tok.toNat
    .ok (.next (r.1.setG rd (BitVec.ofNat 64 r.2)))

/-! ### Retirement (R371) -/

/-- Runs `f` and takes a trap at the word once everything issued has landed; nothing happens before. -/
def State.trapWith (s : State) (cause detail : Nat) (val : Word) (f : State → State) : Except Stop Done :=
  let s := s.landCore s.core.idx Core.landAll
  match s.drainCore s.core.idx with
  | (_, some (code, v)) => .error (.fatal code v)
  | (s, none) =>
    if s.core.landed then .ok (.at_ (((f s).modMe fun t => { t with wait := 0 }).takeTrap s.cur cause detail val))
    else .ok (.at_ (s.modMe fun t => { t with wait := landing }))

/-- The schedule-miss policy that the task's placement found reruns the task (R214, R220). -/
def State.reruns (s : State) : Bool :=
  match s.myTask with
  | some t => bitAt t.sched 51 && decide (t.misses < 3)
  | none => false

/-- Ends a wait for a job whose word is `w`; `retire` frees its id. -/
def State.finishWait (s : State) (rd : BitVec 5) (stat : BitVec 1) (w : Word) (retire : State → State) : Except Stop Done :=
  if bitsAt w 56 7 = 1 ∧ stat = 0 then
    if s.reruns then
      match s.myTask with
      | some t => .ok (.at_ ((retire s).rerun s.core.idx t))
      | none => .ok (.next s)
    else s.trapWith 0x0A 0 w retire
  else .ok (.next ((retire s).setG rd w))

/-- Retires a held completion. -/
def State.retireHeld (e : Nat) (w : Word) (s : State) : State :=
  s.modTask s.myTaskId fun t => { t with heldJobs := t.heldJobs.filter fun p => !(p.1 == e && p.2 == w) }

def semJwait (rd ra : BitVec 5) (stat : BitVec 1) : Sem := fun s => do
  ready s [rd, ra]
  let j := s.g ra
  let e := bitsAt j 12 1
  let id := bitsAt j 0 12
  illegalIf (bitsAt j 13 51 != 0)
  match (s.heldWords e).find? fun w => wordId w == id with
  | some w => s.finishWait rd stat w (State.retireHeld e w)
  | none => match (s.liveJobs e).find? fun k => k.id == id with
    | none => illegal
    | some k => do
      waitIf (!k.completed) outside
      s.finishWait rd stat (k.word.getD 0) fun s => s.dropJob k

def semJpoll (rd ra : BitVec 5) : Sem := fun s => do
  ready s [rd, ra]
  let j := s.g ra
  let e := bitsAt j 12 1
  let id := bitsAt j 0 12
  illegalIf (bitsAt j 13 51 != 0)
  match (s.heldWords e).find? fun w => wordId w == id with
  | some w => .ok (.next (s.setG rd w))
  | none => match (s.liveJobs e).find? fun k => k.id == id with
    | none => illegal
    | some k => .ok (.next (s.setG rd (if k.completed then k.word.getD 0 else 0)))

def semJpop (rd : BitVec 5) (eng : BitVec 2) (stat : BitVec 1) : Sem := fun s =>
  match engCode eng with
  | none => illegal
  | some e => do
    ready s [rd]
    match s.heldWords e with
    | w :: _ => s.finishWait rd stat w (State.retireHeld e w)
    | [] => do
      illegalIf (s.liveJobs e).isEmpty
      match sortJobs ((s.liveJobs e).filter Job.completed) with
      | [] => .error (.wait outside)
      | k :: _ => s.finishWait rd stat (k.word.getD 0) fun s => s.dropJob k

/-! ### Rings (R385-R387) -/

/-- The extent of a ring breaks R50. -/
def State.extentBad (s : State) (g base size depth : Nat) : Bool :=
  let lo := 128 * base
  let hi := 128 * (base + depth * size)
  let l1 := s.l1Part g
  decide (2 ^ 21 < hi) || (l1 != 0 && decide (lo < hi) &&
    (List.range 8).any fun c => decide (lo < 2 ^ 18 * (c + 1) ∧ 2 ^ 18 * (c + 1) - l1 < hi))

def semRingdef (n ra : BitVec 5) : Sem := fun s => do
  ready s [ra]
  let v := s.g ra
  let g := s.core.cluster
  let r := ringReg g n.toNat
  let base := bitsAt v 0 14
  let size := bitsAt v 14 11
  let depth := bitsAt v 25 7
  illegalIf (decide (15 < n.toNat) || bitsAt v 32 32 != 0 || (depth != 0 && (size == 0 || decide (1024 < size))) || decide (64 < depth))
  illegalIf (s.extentBad g base size depth)
  let cfg := s.reg r
  if bitsAt cfg 32 11 ≠ 0 ∨ s.rfld (r + 8) 0 16 ≠ s.rfld (r + 8) 16 16 ∨ (bitsAt cfg 25 7 ≠ 0 ∧ bitsAt cfg 43 6 ≠ s.ctx ∧ !s.sup) then
    .error (.trap 0x0D 0 (BitVec.ofNat 64 n.toNat))
  else .ok (.next ((s.setReg r (mkWord [(s.ctx, 43), (depth, 25), (size, 14), (base, 0)])).setReg (r + 8) 0))

def semRingadv (n : BitVec 5) (cnt : BitVec 7) : Sem := fun s => do
  let g := s.core.cluster
  let k := n.toNat
  illegalIf (decide (15 < k) || cnt == 0 || decide (64 < cnt.toNat))
  match s.ringOf g k s.ctx with
  | none => illegal
  | some (_, _, depth) => do
    illegalIf (decide (depth < s.occupancy g k + cnt.toNat))
    quiet s
    .ok (.next ((s.widenPins s.core.idx 1).ringTail g k cnt.toNat))

def semRingst (rd : BitVec 5) (n : BitVec 4) (sel : BitVec 1) : Sem := fun s => do
  ready s [rd]
  let r := ringReg s.core.cluster n.toNat
  let cfg := s.reg r
  let v := if bitsAt cfg 43 6 ≠ s.ctx then 0 else if sel = 0 then cfg else s.reg (r + 8)
  .ok (.next (s.setG rd v))

/-- `JCMD`: issues the word (R366). -/
def execJcmd (ra : BitVec 5) (rb : BitVec 5) (eng : BitVec 2) (two : BitVec 1) (s : State) : Host.Outcome State Fault Refusal :=
  issue (Instr.jcmd ra rb eng two) (semJcmd ra rb eng two) s

/-- `JEND`: issues the word (R367). -/
def execJend (rd : BitVec 5) (tok : BitVec 2) (s : State) : Host.Outcome State Fault Refusal := issue (Instr.jend rd tok) (semJend rd tok) s

/-- `JWAIT`: issues the word (R371). -/
def execJwait (rd : BitVec 5) (ra : BitVec 5) (stat : BitVec 1) (s : State) : Host.Outcome State Fault Refusal :=
  issue (Instr.jwait rd ra stat) (semJwait rd ra stat) s

/-- `JPOLL`: issues the word (R371). -/
def execJpoll (rd : BitVec 5) (ra : BitVec 5) (s : State) : Host.Outcome State Fault Refusal := issue (Instr.jpoll rd ra) (semJpoll rd ra) s

/-- `JPOP`: issues the word (R371). -/
def execJpop (rd : BitVec 5) (eng : BitVec 2) (stat : BitVec 1) (s : State) : Host.Outcome State Fault Refusal :=
  issue (Instr.jpop rd eng stat) (semJpop rd eng stat) s

/-- `RINGDEF`: issues the word (R385). -/
def execRingdef (n : BitVec 5) (ra : BitVec 5) (s : State) : Host.Outcome State Fault Refusal :=
  issue (Instr.ringdef n ra) (semRingdef n ra) s

/-- `RINGADV`: issues the word (R386). -/
def execRingadv (n : BitVec 5) (cnt : BitVec 7) (s : State) : Host.Outcome State Fault Refusal :=
  issue (Instr.ringadv n cnt) (semRingadv n cnt) s

/-- `RINGST`: issues the word (R387). -/
def execRingst (rd : BitVec 5) (n : BitVec 4) (sel : BitVec 1) (s : State) : Host.Outcome State Fault Refusal :=
  issue (Instr.ringst rd n sel) (semRingst rd n sel) s

end Sys2Proof.Machine
end

