-- ==== Sys2Proof/Machine/CohEvents.lean ====
section
/-! DEFINITION. Steps of the coherent memory system: the store split (R47, R48), MSC windows (R60-R62), home agents and probes (R65-R75), hot
pages and migration (R76-R84). -/

namespace Sys2Proof.Machine

/-! ### The split of the cluster store (R48, R51) -/

/-- A write of `CSSPLIT.SIZE`: it takes effect once no core of the cluster holds a task. -/
def execCssplitWrite (clu : Nat) (v : Word) (s : State) : Host.Outcome State Fault Refusal :=
  .next ((s.writeReg (splitReg clu) v).setFld (splitReg clu) 9 1 1)

/-- The lines of the cluster's L1 whose super-lines are chosen go; the die L2 holds every unit of them, with the same bytes (R48, R54). -/
def State.dropL1Where (s : State) (g : Nat) (sel : Nat → Bool) : State :=
  s.modCoh fun c =>
    let gone := fun t : Tag => t.cache == 32 + g && sel t.sline
    ((c.tags.filter gone).map (·.sline)).dedup.foldl Coh.tidy { c with tags := c.tags.filter fun t => !gone t }

def State.dropL1 (s : State) (g : Nat) : State := s.dropL1Where g fun _ => true

/-- Undefines the rings of a cluster that now hold an L1 byte (R51). -/
def State.dropRings (s : State) (g : Nat) : State :=
  (List.range 16).foldl (fun s n =>
    let r := s.reg (ringReg g n)
    if bitsAt r 25 7 ≠ 0 ∧ s.extentBad g (bitsAt r 0 14) (bitsAt r 14 11) (bitsAt r 25 7) then s.setFld (ringReg g n) 25 7 0 else s) s

def Cluster.withSplit (cl : Cluster) (n : Nat) : Cluster := { cl with split := n }

/-- The change is carried out: rows that change sides read as zero. -/
def execCssplitChange (clu : Nat) (s : State) : Host.Outcome State Fault Refusal :=
  if !bitAt (s.reg (splitReg clu)) 9 || s.clusterHolds clu then .next s
  else
    let cl : Cluster := aget Cluster.reset clu s.clusters
    let size := s.rfld (splitReg clu) 0 2
    let top := max (l1Bytes cl.split) (l1Bytes size)
    let s := s.dropL1 clu
    let s := { s with
      store := s.store.filter fun c => !(c.1 / 2 ^ 21 == clu && decide (2 ^ 18 - top ≤ c.1 % 2 ^ 18))
      clusters := aput Cluster.reset clu (cl.withSplit size) s.clusters }
    .next ((s.dropRings clu).setFld (splitReg clu) 8 2 0)

/-! ### MSC windows (R60-R62) -/

/-- Base and bytes of a window. -/
def State.mscRange (s : State) (st n : Nat) : Nat × Nat := (s.rfld (mscBase st n) 16 36 * 2 ^ 16, s.rfld (mscBase st n + 8) 0 12 * 2 ^ 16)

def State.mscEnabled (s : State) (st n : Nat) : Bool := bitAt (s.reg (mscBase st n + 8)) 63

/-- The window may be enabled. -/
def State.mscAdmits (s : State) (st n : Nat) : Bool :=
  let r := s.mscRange st n
  let others := (List.range 64).filter fun m => m != n && s.mscEnabled st m
  decide (2 ^ 36 * st ≤ r.1 ∧ r.1 + r.2 ≤ 2 ^ 36 * (st + 1)) && r.2 != 0 &&
    others.all (fun m => decide (r.1 + r.2 ≤ (s.mscRange st m).1 ∨ (s.mscRange st m).1 + (s.mscRange st m).2 ≤ r.1)) &&
    decide (r.2 + (others.map fun m => (s.mscRange st m).2).sum ≤ 192 * 2 ^ 20)

/-- A write of `MSCWL` with `EN` = 1. -/
def execMscWindowEnable (stack n : Nat) (v : Word) (s : State) : Host.Outcome State Fault Refusal :=
  let a := mscBase stack n + 8
  if s.mscEnabled stack n then .next (s.setFld a 60 1 (if bitAt v 60 then 0 else s.rfld a 60 1))
  else
    let s' := s.writeReg a v
    if s'.mscAdmits stack n then
      .next (((s'.setFld a 61 1 1).setFld a 59 1 0).setFld a 40 8 (bitsAt v 48 8))
    else .next ((s.setFld a 60 1 (if bitAt v 60 then 0 else s.rfld a 60 1)).setFld a 59 1 1)

/-- Pins of MSC lines follow the windows that act. -/
def State.mscRepin (s : State) (st : Nat) : State :=
  s.modCoh fun c => { c with msc := c.msc.map fun l =>
    if l.stack = st ∧ l.pinned ∧ (s.mscWindows st (2048 * l.line)).isEmpty then { l with pinned := false } else l }

/-- A write of `MSCWL` with `EN` = 0 unpins at once; `LEN`, `INIT` and `FILL` are written only where the window was not enabled (R60). -/
def execMscWindowDisable (stack n : Nat) (v : Word) (s : State) : Host.Outcome State Fault Refusal :=
  let a := mscBase stack n + 8
  let s := if s.mscEnabled stack n then (s.setFld a 63 1 0).setFld a 60 1 (if bitAt v 60 then 0 else s.rfld a 60 1) else s.writeReg a v
  .next ((s.setFld a 61 1 0).mscRepin stack)

/-- Fetches one line of an acting window. -/
def State.mscFetch (s : State) (st line : Nat) : State :=
  match s.coh.msc.find? (fun l => l.stack == st && l.line == line) with
  | some l => s.modCoh fun c => (c.dropMsc l).putMsc { l with valid := BitVec.allOnes 32 }
  | none =>
    let r := s.mscPin st line
    r.2.modCoh fun c => c.putMsc
      { stack := st, line := line, valid := BitVec.allOnes 32, dirty := 0, poison := 0, touched := 0, first := 0, pinned := r.1, use := 0 }

/-- The background fetch of an enabled window with `FILL`. -/
def execMscWindowFill (stack n : Nat) (s : State) : Host.Outcome State Fault Refusal :=
  let w := s.reg (mscBase stack n + 8)
  if bitAt w 61 && bitAt w 62 then
    let r := s.mscRange stack n
    .next ((List.range (r.2 / 2048)).foldl (fun s i => s.mscFetch stack (r.1 / 2048 + i)) s)
  else .next s

/-- A window at the end of a fade period. -/
def State.fadeWindow (s : State) (st n : Nat) : State :=
  let a := mscBase st n + 8
  let w := s.reg a
  if !bitAt w 61 || bitsAt w 48 8 == 0 then s
  else if s.coh.touched.contains (64 * st + n) then s.setFld a 40 8 (bitsAt w 48 8)
  else if bitsAt w 40 8 ≤ 1 then
    (((((s.setFld a 40 8 0).setFld a 61 1 0).setFld a 63 1 0).setFld a 60 1 1).mscRepin st).superEvent
  else s.setFld a 40 8 (bitsAt w 40 8 - 1)

/-- A fade period ends (R62). -/
def execMscFadeBoundary (stack : Nat) (s : State) : Host.Outcome State Fault Refusal :=
  let p := max 16 (min 24 (s.rfld (stackBase stack) 0 5))
  if s.now % 2 ^ p ≠ 0 then .next s
  else
    let s := (List.range 64).foldl (fun s n => s.fadeWindow stack n) s
    .next (s.modCoh fun c => { c with touched := c.touched.filter fun x => x / 64 != stack })

/-! ### Home agents (R65-R68) -/

/-- The requester of an outside request: a caching agent by number. -/
def reqWho (q : HomeReq) : Who :=
  { agent := q.agent, clu := none, core := none, ctx := reqCtx q, die := q.die, asker := some (.req q) }

/-- An uncached access of several units at their home agents. -/
def State.uncachedRun (s : State) (w : Who) (pol : Nat) (write : Bool) : Nat → Nat → Nat → Except Nat State
  | 0, _, _ => .ok s
  | f + 1, pa, n =>
    if n = 0 then .ok s
    else
      let len := s.unitRun pa 0 n
      match s.uncached w pa len pol write with
      | .error e => .error e
      | .ok s' => s'.uncachedRun w pol write f (pa + len) (n - len)

/-- An agent writes back a dirty unit that it holds and no pin keeps. The companion's data come with its request (R69, R75). -/
def State.takeWriteback (s : State) (q : HomeReq) : State :=
  let sl := slineOf q.addr
  let g := s.grainAt q.addr q.grain
  let u := unitIn q.addr g
  let mine := fun (t : Tag) => t.agent == q.agent && t.ctx == reqCtx q && t.dirty u
  if !((s.coh.tagsOf sl).any fun t => mine t && !s.coh.tagPinned t) then s
  else
    let s := if q.agent = 16 then s.writeCopy everyCtx q.addr (q.data.take (grainBytes g - q.addr % grainBytes g)) else s
    s.writeBack q.agent (reqCtx q) sl g u

/-- Performs a request where it is homed; where it waits, its byte. -/
def State.homePerform (s : State) (q : HomeReq) : Except Nat State :=
  let w := reqWho q
  let n := max 1 q.data.length
  match s.homeOf q.addr with
  | .queued => .error q.addr
  | .moved pa redirect =>
    if s.queuedBefore w q.addr then .error q.addr
    else
      let t := s.forwarded q.addr q.die redirect
      match q.kind with
      | .readShared | .uncachedRead => t.uncached w pa 1 2 false
      | .readExclusive => t.uncached w pa 1 2 true
      | .uncachedWrite => (t.uncachedRun w 2 true (n + 1) pa n).map fun t => t.writeRaw pa q.data
      | .writeback => .ok t
  | .own => match q.kind with
    | .readShared => s.cached w q.addr q.grain q.pol false false
    | .readExclusive => s.cached w q.addr q.grain q.pol false true
    | .uncachedRead => s.uncached w q.addr 1 q.pol false
    | .uncachedWrite => (s.uncachedRun w q.pol true (n + 1) q.addr n).map fun t => t.writeRaw q.addr q.data
    | .writeback => if s.queuedBefore w q.addr then .error q.addr else .ok (s.takeWriteback q)

/-- A request reaches its home agent: performed or forwarded, queued, or refused by a full queue and tried again (R65, R81). -/
def State.homeTake (s : State) (q : HomeReq) : State :=
  let drop := fun (s : State) => s.modCoh fun c => { c with retries := c.retries.filter (· != q) }
  match s.homePerform q with
  | .ok t => drop (t.dequeue (some (.req q)))
  | .error pa =>
    let t := s.enqueue (reqWho q) pa
    if t.coh.queue.any fun e => e.asker == .req q then drop t
    else if s.coh.retries.contains q then s
    else s.modCoh fun c => { c with retries := c.retries ++ [q] }

/-- A request of an outside agent. One to an absent address has no home; a fenced agent serves none (R28, R465). -/
def execHomeAgentRequest (q : HomeReq) (s : State) : Host.Outcome State Fault Refusal :=
  if rangeOk q.addr (max 1 q.data.length) && decide (q.agent < 17) && !s.ras.fenced.contains (1, s.homeAgent q.addr) && !s.notYet (.req q) then
    .next (s.homeTake q)
  else .next s

/-- Requests of outside agents that wait at their home agents. -/
def State.waitingReqs (s : State) : List HomeReq :=
  (s.coh.queue.filterMap fun e => match e.asker with | .req q => some q | _ => none) ++ s.coh.retries

/-! ### Probes (R70, R73-R75) -/

/-- Who sent a probe, as pins judge it. -/
def probeWho (p : Probe) : Who :=
  { agent := if p.from_ < 256 then p.from_ / 32 else p.from_ - 256, clu := if p.from_ < 256 then some p.from_ else none, core := none
    ctx := if p.from_ = 272 then everyCtx else p.ctx, die := 8, asker := none }

/-- A pin held in the probed agent refuses the probe. -/
def State.probeRefused (s : State) (p : Probe) : Bool :=
  s.coh.pins.any fun q => q.clu / 32 == p.agent && q.sline == p.sline && q.unit == p.unit &&
    (if p.kind = 2 then decide (q.scope < 3) else ctxHits (probeWho p).ctx q.ctx && !q.admits (probeWho p))

/-- A probe reaches its agent, which acts on it and answers. Dirty data that it invalidates go to the home with the answer, which writes memory.
A unit the agent does not hold is answered 40 cycles later (R74). -/
def State.probeArrives (s : State) (p : Probe) : State :=
  if s.probeRefused p then
    s.modCoh fun c => { c with answers := c.answers ++ [(p, .retry, s.now)] }
  else
    let ctx := (probeWho p).ctx
    let ds := (s.coh.tagsOf p.sline).filter fun t => p.kind == 1 && t.agent == p.agent && ctxHits ctx t.ctx && t.dirty p.unit && decide (t.cache < 32)
    let s := ds.foldl (fun s t => s.flushUnit t.ctx p.sline t.grain p.unit) s
    let r := s.probeAgent p.agent ctx p.sline p.unit p.kind
    let due := match r.1 with
      | .notheld _ => if p.kind = 2 then s.now else s.now + 40
      | _ => s.now
    r.2.modCoh fun c => { c with answers := c.answers ++ [(p, r.1, due)] }

def execPrbs (p : Probe) (s : State) : Host.Outcome State Fault Refusal := .next (s.probeArrives { p with kind := 0 })

def execPrbx (p : Probe) (s : State) : Host.Outcome State Fault Refusal := .next (s.probeArrives { p with kind := 1 })

def execPrbsys (p : Probe) (s : State) : Host.Outcome State Fault Refusal := .next (s.probeArrives { p with kind := 2 })

/-- Takes an answer at the home agent: the directory follows it, and a `RETRY` is re-issued 64 cycles on. -/
def State.answerTaken (s : State) (p : Probe) (a : Answer) : State :=
  match a with
  | .retry => s.modCoh fun c => { c with refused := c.refused ++ [(p, s.now + 64)] }
  | _ => s.dirAnswer p.agent p.sline p.unit p.kind a

/-- Removes the first pending answer that equals one. -/
def dropAnswer (p : Probe) (a : Answer) : List (Probe × Answer × Nat) → List (Probe × Answer × Nat)
  | [] => []
  | x :: xs => if x.1 = p ∧ x.2.1 = a then xs else x :: dropAnswer p a xs

/-- An answer reaches the home agent. -/
def execProbeResponse (p : Probe) (a : Answer) (s : State) : Host.Outcome State Fault Refusal :=
  if s.coh.answers.any fun x => x.1 == p && x.2.1 == a && decide (x.2.2 ≤ s.now) then
    .next ((s.modCoh fun c => { c with answers := dropAnswer p a c.answers }).answerTaken p a)
  else .next s

/-- A `NOTHELD` answer leaves, 40 cycles after its probe, and reaches the home agent (R74). -/
def execNotheld (p : Probe) (s : State) : Host.Outcome State Fault Refusal :=
  match s.coh.answers.find? fun x => x.1 == p && (match x.2.1 with | .notheld _ => true | _ => false) && decide (x.2.2 ≤ s.now) with
  | some x => .next ((s.modCoh fun c => { c with answers := dropAnswer p x.2.1 c.answers }).answerTaken p x.2.1)
  | none => .next s

/-- A refused probe is re-issued after 64 cycles (R75). -/
def execPinRetry (p : Probe) (s : State) : Host.Outcome State Fault Refusal :=
  if !(s.coh.refused.any fun x => x.1 == p && decide (x.2 ≤ s.now)) then .next s
  else .next ((s.modCoh fun c => { c with refused := c.refused.filter fun x => x.1 != p }).probeArrives p)

/-! ### Hot pages (R77, R84) -/

/-- The frame meets an entry of the peer-pinned list (R127). -/
def State.peerPinned (s : State) (base size : Nat) : Bool :=
  (List.range 256).any fun n =>
    let w := s.reg (peerBase n)
    let b := bitsAt w 16 36 * 2 ^ 16
    let l := 2 ^ bitsAt w 56 5
    bitAt w 63 && decide (b < base + size ∧ base < b + l)

/-- A frame is being migrated or holds a redirect. -/
def State.frameBusy (s : State) (base size : Nat) : Bool :=
  s.coh.migs.any (fun m => decide ((m.old < base + size ∧ base < m.old + 2 ^ m.size) ∨ (m.new < base + size ∧ base < m.new + 2 ^ m.size))) ||
    s.coh.redirects.any fun r => decide (r.1 < base + size ∧ base < r.1 + 2 ^ r.2.2)

/-- Index of the largest count, lowest on a tie. -/
def argMax : List Nat → Nat × Nat
  | [] => (0, 0)
  | [x] => (0, x)
  | x :: y :: l => let r := argMax (y :: l); if r.2 ≤ x then (0, x) else (r.1 + 1, r.2)

def addCounts (a b : List Nat) : List Nat := (List.range 10).map fun i => a.getD i 0 + b.getD i 0

/-- Merges reports for one frame. -/
def mergeTracks (ts : List Track) : List Track :=
  ts.foldl (fun l t =>
    if l.any (fun u => u.frame == t.frame) then
      l.map fun u => if u.frame = t.frame then { u with count := u.count + t.count, dies := addCounts u.dies t.dies } else u
    else l ++ [t]) []

/-- One proposal, unless the frame is pinned, migrating or redirected. -/
def State.propose (s : State) (t : Track) : State :=
  let base := 2 ^ 16 * t.frame
  if s.peerPinned base (2 ^ 16) then s.count 0x080
  else if s.frameBusy base (2 ^ 16) then s
  else if migRing.full s then s.count 0x088
  else (migRing.put s [mkWord [(1, 60), (base, 0), ((argMax t.dies).1, 8)], BitVec.ofNat 64 (t.count % 2 ^ 32)]).migEvent (s.fmode 4)

/-- An epoch ends. -/
def execHptEpochEnd (s : State) : Host.Outcome State Fault Refusal :=
  let e := max 16 (min 30 (s.rfld 0x030 48 5))
  if s.now % 2 ^ e ≠ 0 then .next s
  else
    let hot := mergeTracks (s.coh.tracks.filter fun t => decide (s.rfld 0x030 0 16 ≤ t.count))
    let s := s.modCoh fun c => { c with tracks := [] }
    .next (if bitAt (s.reg 0x030) 63 then hot.foldl State.propose s else s)

/-! ### Migration (R78-R84) -/

/-- The frame lies in memory that may move: HBM, LPDDR6 or one private CXL segment, with no fenced home agent. -/
def State.movable (s : State) (base size : Nat) : Bool :=
  physOk base && physOk (base + size - 1) && region base == region (base + size - 1) &&
    (match region base with
     | 0 | 1 => true
     | 2 => (match s.cxlSeg base with | some n => !bitAt (s.reg (0x900 + 8 * n)) 62 && s.cxlSeg (base + size - 1) == some n | none => false)
     | _ => false) &&
    !(s.ras.fenced.any fun f => f.1 == 1 && (List.range (min 64 (size / 2048))).any fun i => s.homeAgent (base + 2048 * i) == f.2)

/-- Status of a submission (R79). -/
def State.migStatus (s : State) : Nat :=
  let old := s.rfld 0x038 16 36 * 2 ^ 16
  let new := s.rfld 0x040 16 36 * 2 ^ 16
  let k := s.rfld 0x038 0 5
  let size := 2 ^ k
  if k < 16 ∨ 30 < k ∨ old % size ≠ 0 ∨ new % size ≠ 0 ∨ !s.movable old size ∨ !s.movable new size ∨ (old < new + size ∧ new < old + size) then 0x12
  else if s.frameBusy old size || s.frameBusy new size || s.ras.check.isSome then 0x10
  else if s.peerPinned old size then 0x11
  else if 16 ≤ s.coh.migs.length ∨ 64 ≤ s.coh.redirects.length then 0x13
  else 0x01

/-- A pin refuses the home's recall of some unit of a range (R75). -/
def State.rangePinned (s : State) (base size : Nat) : Bool :=
  s.coh.pins.any fun p => decide (base / 512 ≤ p.sline ∧ p.sline < (base + size) / 512 ∧ p.scope < 3)

/-- Recalls every unit of a super-line that no pin keeps, from every agent the directory names. -/
def State.recallFree (s : State) (sl : Nat) (discard : Bool) : State :=
  match s.dirEntry sl with
  | none => s
  | some d =>
    (List.range (512 / grainBytes d.grain)).foldl (fun s u =>
      if s.pinRefusesHome sl u then s
      else (List.range 17).foldl (fun s a =>
        if d.vec.getLsbD a then
          let r := s.recallUnit a sl d.grain u discard
          r.2.dirAnswer a sl u 2 r.1
        else s) s) s

/-- Super-lines of a range that have a directory entry: every cached unit has one (R72). -/
def State.entriesIn (s : State) (base size : Nat) : List Nat :=
  (s.coh.dir.map (·.sline)).filter fun sl => decide (base / 512 ≤ sl ∧ sl < (base + size) / 512)

def State.recallRange (s : State) (base size : Nat) (discard : Bool) : State :=
  (s.entriesIn base size).foldl (fun s sl => s.recallFree sl discard) s

def State.modMig (s : State) (old : Nat) (f : Mig → Mig) : State :=
  s.modCoh fun c => { c with migs := c.migs.map fun m => if m.old = old then f m else m }

/-- Step 1 of a migration: the units of the new frame are recalled and their data discarded. Those a pin keeps are asked for again after 64
cycles (R75, R80). -/
def State.recallNew (s : State) (m : Mig) : State :=
  if m.recalled || decide (s.now < m.due) then s
  else
    let held := s.rangePinned m.new (2 ^ m.size)
    (s.recallRange m.new (2 ^ m.size) true).modMig m.old fun m => { m with recalled := !held, due := s.now + 64 }

/-- A write of `MIGCTL`; with `GO` = 1 it submits a migration. -/
def execMigSubmit (v : Word) (s : State) : Host.Outcome State Fault Refusal :=
  let s := s.writeReg 0x048 v
  if !bitAt v 63 then .next s
  else
    let st := s.migStatus
    let s := s.setFld 0x048 48 8 st
    if st ≠ 1 then .next s
    else
      let m : Mig :=
        { old := s.rfld 0x038 16 36 * 2 ^ 16, new := s.rfld 0x040 16 36 * 2 ^ 16, size := s.rfld 0x038 0 5, nocopy := bitAt v 62
          host := s.fmode 4, recalled := false, due := 0, copied := [] }
      .next ((s.modCoh fun c => { c with migs := c.migs ++ [m] }).recallNew m)

/-- The line the controller copies next: one with a request queued, else the lowest, passing over pinned ones (R80). -/
def State.migNext (s : State) (m : Mig) : Option Nat :=
  if !m.recalled then none
  else
    let open_ := fun i => !m.copied.contains i && !s.rangePinned (m.old + 2048 * i) 2048
    let asked := (s.coh.queue.filter fun q => q.mig && decide (m.old ≤ q.pa ∧ q.pa < m.old + 2 ^ m.size)).map fun q => (q.pa - m.old) / 2048
    match asked.find? open_ with
    | some i => some i
    | none => (List.range (2 ^ m.size / 2048)).find? open_

/-- Memory's copy of a 2 KiB line takes the place of another's, with its marks and the stamps of its `.sc` writes (R56, R80, R99). -/
def State.moveLine (s : State) (a b : Nat) : State :=
  let s := s.wrote b 2048
  let moved := (s.coh.poison.filter fun p => decide (a / 32 ≤ p ∧ p < a / 32 + 64)).map fun p => p - a / 32 + b / 32
  let kept := s.coh.poison.filter fun p => !(decide (b / 32 ≤ p ∧ p < b / 32 + 64))
  let sc := s.coh.scWrites.map fun q => if a ≤ q.1 ∧ q.1 < a + 2048 then (q.1 - a + b, q.2) else q
  { s with mem := copyCells s.mem a 2048 s.mem b, coh := Coh.remark { s.coh with poison := kept ++ moved, scWrites := sc } (b / 2048) }

/-- One 2 KiB line moves to the new frame; requests queued for it are performed there from now on (R80, R81). -/
def execMigLineCopy (old line : Nat) (s : State) : Host.Outcome State Fault Refusal :=
  match s.coh.migs.find? fun m => m.old == old with
  | none => .next s
  | some m =>
    if s.migNext m ≠ some line then .next s
    else
      let a := m.old + 2048 * line
      let b := m.new + 2048 * line
      let s := s.recallRange a 2048 false
      let s := if m.nocopy then s else (((s.recallRange b 2048 false).moveLine a b).mscTouch a 2048 2 false).mscTouch b 2048 2 true
      .next (s.modMig old fun m => { m with copied := line :: m.copied })

/-- Every line is copied: the old frame becomes a redirect. -/
def execMigComplete (old : Nat) (s : State) : Host.Outcome State Fault Refusal :=
  match s.coh.migs.find? fun m => m.old == old with
  | none => .next s
  | some m =>
    if m.copied.length < 2 ^ m.size / 2048 then .next s
    else
      let rec_ : Word × Word × Bool := (mkWord [(2, 60), (0x02, 52), (m.old, 0)], mkWord [(m.new, 0), (m.size, 0)], m.host)
      .next (s.modCoh fun c => { c with
        migs := c.migs.filter fun x => x.old != old, redirects := c.redirects ++ [(m.old, m.new, m.size)], migDone := c.migDone ++ [rec_] })

/-- A completion record is written once the ring has room. -/
def execMigCompletionRecord (s : State) : Host.Outcome State Fault Refusal :=
  match s.coh.migDone with
  | [] => .next s
  | r :: rs =>
    if migRing.full s then .next s
    else .next (((migRing.put s [r.1, r.2.1]).modCoh fun c => { c with migDone := rs }).migEvent r.2.2)

/-- A write of `MIGREL`; with `GO` = 1 it ends a redirect. -/
def execMigRelease (v : Word) (s : State) : Host.Outcome State Fault Refusal :=
  let s := s.writeReg 0x050 v
  if bitAt v 63 then
    .next (s.modCoh fun c => { c with redirects := c.redirects.filter fun r => r.1 != bitsAt v 16 36 * 2 ^ 16 })
  else .next s

end Sys2Proof.Machine
end

