-- ==== Sys2Proof/Machine/Fabric.lean ====
section
/-! DEFINITION. Steps of the package ring, the rack ring and its bridge stations (R118-R127), the optical links (R130-R138) and remote windows
(R139-R141). -/

namespace Sys2Proof.Machine

def State.modFab (s : State) (f : Fabric → Fabric) : State := { s with fab := f s.fab }

/-! ### The package ring (R118-R123) -/

/-- Position of a station, clockwise: CD0-CD3, BS0, CD4-CD7, BS1 (R118). -/
def stationPos (st : Nat) : Nat := if st < 4 then st else if st = 8 then 4 else if st < 8 then st + 1 else 9

/-- A message travels clockwise on the package ring: fewer hops, clockwise at 5 (R119). -/
def ringCw (src dst : Nat) : Bool := decide ((stationPos dst + 10 - stationPos src) % 10 ≤ 5)

/-- The slot of a direction that is at a station: a slot moves one station every 4 cycles (R118). -/
def slotAt (cw : Bool) (st now : Nat) : Nat :=
  if cw then (stationPos st + 10 - now / 4 % 10) % 10 else (stationPos st + now / 4) % 10

/-- The slot is at the station, and was inserted or refused at another. -/
def RingSlot.atStation (r : RingSlot) (st now : Nat) : Bool := r.slot == slotAt r.cw st now && decide (r.since / 4 < now / 4)

/-- The slot header as R120 lays it out. -/
def flitHeader (f : Flit) : BitVec 128 :=
  BitVec.ofNat 128 (packNat 0 [(f.kind % 16, 124), (f.dst % 16, 120), (f.src % 16, 116), (b2n f.cw, 115), (b2n f.rsv, 114), (b2n f.rfs, 113),
    (b2n f.last, 112), (f.idx % 64, 106), (f.ctx % 64, 100), (f.agent % 4096, 88), (f.tag % 4096, 76), (f.e2e % 2 ^ 24, 52), (f.addr % 2 ^ 52, 0)])

/-- A flit from its header, its bytes and the module ids of its link header (R120, R130). -/
def flitOf (h : Nat) (data : List Byte) (dmod smod : Nat) : Flit :=
  { kind := h / 2 ^ 124 % 16, dst := h / 2 ^ 120 % 16, src := h / 2 ^ 116 % 16, cw := h.testBit 115, rsv := h.testBit 114, rfs := h.testBit 113
    last := h.testBit 112, idx := h / 2 ^ 106 % 64, ctx := h / 2 ^ 100 % 64, agent := h / 2 ^ 88 % 4096, tag := h / 2 ^ 76 % 4096
    e2e := h / 2 ^ 52 % 2 ^ 24, addr := h % 2 ^ 52, data := data, rack := true, dmod := dmod, smod := smod }

/-- Source of a message: a station, or a module on the rack ring (R122, R126). -/
def flitFrom (f : Flit) : Nat := if f.rack then f.smod else f.src
def flitTo (f : Flit) : Nat := if f.rack then f.dmod else f.dst

/-- Same message: ring, source and tag (R122). -/
def sameMsg (f g : Flit) : Bool := flitFrom f == flitFrom g && f.tag == g.tag && f.rack == g.rack

/-- The flit as it lies in its slot: headers may differ in what refusals change. -/
def sameFlit (f g : Flit) : Bool := sameMsg f g && flitTo f == flitTo g && f.idx == g.idx

/-- A reservation: destination, source, tag and ring. -/
def flitKey (f : Flit) : Nat × Nat × Nat × Bool := (flitTo f, flitFrom f, f.tag, f.rack)

/-- A lane whose slot of a direction is empty. -/
def State.freeLane (s : State) (cw : Bool) (slot : Nat) : Option Nat :=
  (List.range 32).find? fun l => !s.fab.ring.any fun r => r.cw == cw && r.lane == l && r.slot == slot

/-- A station puts a flit into an empty slot that passes it; none while no lane has one (R119, R121). -/
def State.insertFlit (s : State) (f : Flit) : Option State :=
  let f := { f with cw := ringCw f.src f.dst }
  let slot := slotAt f.cw f.src s.now
  (s.freeLane f.cw slot).map fun l =>
    s.modFab fun b => { b with ring := b.ring ++ [{ cw := f.cw, lane := l, slot := slot, flit := f, back := false, since := s.now }] }

/-- A flit that is not accepted stays in its slot and goes on round its ring; on the rack ring it leaves again (R122, R126). -/
def State.goesOn (s : State) (f : Flit) (back : Bool) : State :=
  if f.rack then s.rackSend f.cw 0 [f]
  else
    let slot := slotAt f.cw f.dst s.now
    match s.fab.ring.find? fun r => sameFlit r.flit f with
    | some r => s.modFab fun b => { b with ring := b.ring.map fun x => if x = r then { r with flit := f, back := back, since := s.now } else x }
    | none => s.modFab fun b => { b with ring := b.ring ++
        [{ cw := f.cw, lane := (s.freeLane f.cw slot).getD 0, slot := slot, flit := f, back := back, since := s.now }] }

/-- A flit of the rack ring for this module enters the package ring at its bridge station, as soon as an empty slot passes (R125). -/
def State.enterRing (s : State) (f : Flit) : State :=
  let f := { f with rack := false, src := if f.cw then 8 else 9 }
  (s.insertFlit f).getD (s.modFab fun b => { b with entering := b.entering ++ [f] })

/-- Flits of a message with the one that now arrives; a whole message leaves the list (R121). -/
def assemble (fs : List Flit) (f : Flit) : List Flit :=
  let mine := f :: fs.filter fun g => sameMsg f g && g.idx != f.idx
  match mine.find? (·.last) with
  | some l => if (List.range (l.idx + 1)).all fun i => mine.any fun g => g.idx == i then fs.filter fun g => !sameMsg f g
    else mine ++ fs.filter fun g => !sameMsg f g
  | none => mine ++ fs.filter fun g => !sameMsg f g

/-- A flit leaves its slot into its destination's buffer; one of the rack ring goes on into the package ring (R122, R125). -/
def State.takeFlit (s : State) (f : Flit) : State :=
  let s := s.modFab fun b => { b with ring := b.ring.filter (fun r => !sameFlit r.flit f), incoming := assemble b.incoming f }
  if f.rack then s.enterRing f else s

/-- A destination takes or refuses a flit. `room`: an entry of the buffer of its `KIND` is free and held for no reservation. A continuation
flit is taken once its first flit has been, and until then goes on round the ring (R122; log 49). -/
def execRingFirstFlit (f : Flit) (room : Bool) (s : State) : Host.Outcome State Fault Refusal :=
  let held := f.rsv && s.fab.resv.contains (flitKey f)
  if f.idx ≠ 0 then .next (if s.fab.incoming.any fun g => sameMsg f g && g.idx == 0 then s.takeFlit f else s.goesOn f false)
  else if room || held then
    .next ((s.modFab fun b => { b with
      resv := if held then b.resv.erase (flitKey f) else b.resv, returned := b.returned.filter fun r => !sameMsg r.flit f }).takeFlit f)
  else if f.rfs then
    let few := decide ((s.fab.resv.filter fun r => r.1 == flitTo f && r.2.1 == flitFrom f && r.2.2.2 == f.rack).length < 4)
    .next ((if few && !s.fab.resv.contains (flitKey f) then s.modFab fun b => { b with resv := b.resv ++ [flitKey f] } else s).goesOn f true)
  else .next (s.goesOn { f with rfs := true } false)

/-- Register that counts returns at a source station (R123). -/
def State.ringRef (s : State) (f : Flit) : Nat :=
  if f.rack then bridgeBase (s.bridgeTo f.dmod) + 0x018
  else if f.src < 8 then stationBase f.src + 0x010 else bridgeBase (f.src - 8) + 0x018

/-- Backoff of the k-th return. -/
def backoff (rack : Bool) (k : Nat) : Nat := (if rack then 1024 else 64) * 2 ^ min (k - 1) 4

/-- A twice-refused flit is back at its source, which removes it. -/
def execRingFlitReturn (f : Flit) (s : State) : Host.Outcome State Fault Refusal :=
  let k := ((s.fab.returned.find? fun r => sameMsg r.flit f).map (·.returns)).getD 0 + 1
  let r : Returned := { flit := { f with rsv := true, rfs := false }, returns := k, due := s.now + backoff f.rack k }
  .next ((s.modFab fun b => { b with
    ring := b.ring.filter fun x => !sameFlit x.flit f
    returned := b.returned.filter (fun x => !sameMsg x.flit f) ++ [r] }).count (s.ringRef f))

/-- The source re-inserts a returned message once its backoff is over and an empty slot passes; its count of returns is kept until it is
accepted. -/
def State.reinsert (s : State) (rack : Bool) (src tag : Nat) : State :=
  match s.fab.returned.find? fun r => r.flit.rack == rack && flitFrom r.flit == src && r.flit.tag == tag && decide (r.due ≤ s.now) with
  | none => s
  | some r =>
    match if rack then some (s.rackSend (s.goesCw s.modid r.flit.dmod) 0 [{ r.flit with cw := s.goesCw s.modid r.flit.dmod }])
      else s.insertFlit r.flit with
    | none => s
    | some t => t.modFab fun b => { b with returned := b.returned.map fun x => if sameMsg x.flit r.flit then { x with due := 2 ^ 64 } else x }

def execRingReinsert (src tag : Nat) (s : State) : Host.Outcome State Fault Refusal := .next (s.reinsert false src tag)

/-! ### The rack ring (R124-R126) -/

/-- A flit for another module leaves by the same direction's out bundle 12 cycles later, or by the other's where that hop is cut; one for this
module enters the package ring (R125, R135). -/
def State.forwardFlit (s : State) (f : Flit) (cw : Bool) : State :=
  if f.dmod = s.modid then s.takeFlit { f with cw := cw, rack := true }
  else s.rackSend (if s.bundleCut (if cw then 0 else 2) then !cw else cw) 12 [{ f with cw := cw, rack := true }]

def execRackForward (f : Flit) (cw : Bool) (s : State) : Host.Outcome State Fault Refusal := .next (s.forwardFlit f cw)

def execRackReinsert (src tag : Nat) (s : State) : Host.Outcome State Fault Refusal := .next (s.reinsert true src tag)

/-- A flit that waits at a bridge station finds an empty slot. -/
def State.enterWaiting (s : State) : State :=
  match s.fab.entering with
  | [] => s
  | f :: fs => match s.insertFlit f with
    | some t => t.modFab fun b => { b with entering := fs }
    | none => s

/-- What the ring does at this cycle without a choice: a returned flit at its source, one with a reservation at its destination (R122). -/
def RingSlot.due (s : State) (r : RingSlot) : Option (State → Host.Outcome State Fault Refusal) :=
  if r.back && r.atStation r.flit.src s.now then some (execRingFlitReturn r.flit)
  else if r.flit.rsv && s.fab.resv.contains (flitKey r.flit) && r.flit.idx == 0 && r.atStation r.flit.dst s.now then
    some (execRingFirstFlit r.flit false)
  else none

/-! ### Peer frames (R127) -/

/-- Physical address of a peer address (R28). -/
def peerPhys (a : Nat) : Nat := if a / 2 ^ 40 % 8 = 0 then a % 2 ^ 40 else 2 ^ 48 + a % 2 ^ 40

/-- The context of the entry that admits an access; a SIZE outside 16-30 is used as it stands (log 48). -/
def State.peerAdmits (s : State) (src pa n : Nat) (write : Bool) : Option Nat :=
  ((List.range 256).find? fun i =>
    let w := s.reg (peerBase i)
    let b := bitsAt w 16 36 * 2 ^ 16
    bitAt w 63 && decide (b ≤ pa ∧ pa + n ≤ b + 2 ^ bitsAt w 56 5) && bitAt (s.reg (peerBase i + 8)) (32 + src) &&
      bitAt w (if write then 62 else 61)).map fun i => s.rfld (peerBase i + 8) 26 6

/-- Bytes an access touches. -/
def peerLen : PeerKind → Nat
  | .read n => n | .write d => d.length | .atomic _ size _ _ => size | .rowAdd _ _ row => row.length | _ => 0

def peerWrites : PeerKind → Bool
  | .read _ => false
  | _ => true

/-- A refusal is counted and recorded, at either module. -/
def State.peerRefuse (s : State) (other a : Nat) : State := (s.count 0x090).ras0 0x10 (other * 2 ^ 46) (BitVec.ofNat 64 a) 0

/-- Reads, combines and writes under one uncached request: the old bytes, or poison. -/
def State.peerModify (s : State) (ctx pa n : Nat) (f : List Byte → Option (List Byte)) : Option (State × PeerAnswer) :=
  let ss := [rawSpan pa n]
  match s.requestSpans (outerWho ctx) true ss with
  | .error _ => none
  | .ok (s1, rss) =>
    let r := s1.readGranted ctx [] 0 ss rss
    if r.2.2 then some (r.1, { status := 2, data := [] })
    else match f r.2.1 with
      | none => some (r.1, { status := 0, data := r.2.1 })
      | some new => some (r.1.writeGranted ctx ss rss new, { status := 0, data := r.2.1 })

/-- Performs an access of another module; none while it waits at a home agent. -/
def State.peerPerform (s : State) (src : Nat) (p : PeerReq) : Option (State × PeerAnswer) :=
  let n := peerLen p.kind
  let pa := peerPhys p.addr
  match p.kind with
  | .window _ | .interest _ _ | .publish _ _ => some (s, { status := 0, data := [] })
  | _ =>
    match (if rangeOk pa n ∧ region pa ≤ 1 ∧ p.addr / 2 ^ 40 % 8 ≤ 1 then s.peerAdmits src pa n (peerWrites p.kind) else none) with
    | none => some (s.peerRefuse src p.addr, { status := 1, data := if peerWrites p.kind then [] else zeroBytes n })
    | some c =>
      match p.kind with
      | .write d =>
        match s.writeSpans (outerWho c) [rawSpan pa n] d with
        | .error _ => none
        | .ok s => some (s, { status := 0, data := [] })
      | .atomic op size v e => s.peerModify c pa n fun old => ((AmoOp.ofNum op).apply size (bytesNat old) v.toNat e.toNat).map (natBytes size)
      | .rowAdd es sat row => (s.peerModify c pa n fun old => some (rowAdd (vraddFmt es) sat es (row.length / es) old row)).map fun r =>
          (r.1, { r.2 with data := [] })
      | _ =>
        match s.readSpans (outerWho c) [rawSpan pa n] with
        | .error _ => none
        | .ok (s, bs, bad) => some (s, if bad then { status := 2, data := [] } else { status := 0, data := bs })

/-- Sends an answer to another module: `KIND`, number, status in `ADDR`, bytes. -/
def State.answerPeer (s : State) (dst kind sq : Nat) (a : PeerAnswer) : State :=
  let st := 8 + s.bridgeTo dst
  s.rackSend (st == 8) 0 (cutFlits
    { kind := kind, dst := st, src := st, cw := st == 8, rsv := false, rfs := false, last := true, idx := 0, ctx := 0, agent := 3340 + st
      tag := sq % 4096, e2e := sq, addr := a.status, data := [], rack := true, dmod := dst, smod := s.modid } a.data)

/-- `KIND` of the answer to a request: a read response, or an end-to-end acknowledgement (R120, R128). -/
def answerCode : PeerKind → Nat
  | .read _ => 3 | .atomic _ _ _ _ => 3 | _ => 11

def State.e2eSrcOf (s : State) (src : Nat) : E2eSrc :=
  (s.fab.e2eSrc.find? fun e => e.src == src).getD { src := src, high := 2 ^ 24 - 1, got := [], results := [] }

def State.putE2eSrc (s : State) (e : E2eSrc) : State :=
  s.modFab fun b => { b with e2eSrc := e :: b.e2eSrc.filter fun x => x.src != e.src }

/-- The result of an atomic is kept beside its map bit (R129). -/
def State.keepResult (s : State) (src sq : Nat) (p : PeerReq) (a : PeerAnswer) : State :=
  match p.kind with
  | .atomic _ _ _ _ => s.putE2eSrc { s.e2eSrcOf src with results := aset sq a.data (s.e2eSrcOf src).results }
  | _ => s

/-- A region 0x4 access is at a bridge station of this module: an accepted request that waited there, or one under number 0. -/
def execPeerAccess (src : Nat) (p : PeerReq) (s : State) : Host.Outcome State Fault Refusal :=
  match s.peerPerform src p with
  | none => .next s
  | some (s', a) =>
    match s.fab.peers.find? fun x => x.1 == src && x.2.2 == p with
    | none => .next (s'.answerPeer src (answerCode p.kind) 0 a)
    | some x => .next (((s'.modFab fun b => { b with peers := b.peers.erase x }).keepResult src x.2.1 p a).answerPeer src (answerCode p.kind) x.2.1 a)

/-! ### Optical links (R130-R138) -/

def TxState.code : TxState → Nat
  | .send => 0 | .replay => 1 | .realign => 2 | .retrain => 3 | .down => 4

def RxState.code : RxState → Nat
  | .accept => 0 | .nakwait => 1 | .realign => 2 | .retrain => 3 | .down => 4

def Lane.new (lg : Nat) : Lane :=
  { lg := lg, rx := .accept, n := 0, since := 0, ackDue := 0, naks := 0, nakDue := 0, tx := .send, m := 0, copies := [], resend := none
    notice := none, trainDue := 0, trained := false, mask := 0xFFFF, beat := 0, oldMask := 0xFFFF, seen := 0, own := 0 }

def State.laneOf (s : State) (lg : Nat) : Lane := (s.fab.lanes.find? fun l => l.lg == lg).getD (Lane.new lg)

/-- `LGSTAT` and `LINKNAK` of a lane group. -/
def lgstat (lg : Nat) : Nat := bridgeBase (lg / 56) + 0x1000 + 0x100 * (lg / 28) + 8 * (lg % 28)
def linknak (lg : Nat) : Nat := bridgeBase (lg / 56) + 0x1800 + 0x100 * (lg / 28) + 8 * (lg % 28)

/-- The lane group that the same hop carries the other way: cw-out with ccw-in, ccw-out with cw-in (R132). -/
def pairLane (lg : Nat) : Nat := 28 * (3 - lg / 28 % 4) + lg % 28

/-- The neighbour on the rack ring, clockwise or not (R125). -/
def State.neighbour (s : State) (cw : Bool) : Option Nat :=
  let ms := s.rack
  let i := (ms.findIdx? (· == s.modid)).getD 0
  if ms.length < 2 then none else ms[(if cw then i + 1 else i + ms.length - 1) % ms.length]?

/-- The module at the other end of a lane group's hop. -/
def State.hopEnd (s : State) (lg : Nat) : Nat := (s.neighbour (lg / 28 % 4 == 0 || lg / 28 % 4 == 3)).getD 0

/-- Keeps a lane group, with the fields of `LGSTAT` that show it. -/
def State.putLane (s : State) (l : Lane) : State :=
  let s := s.modFab fun b => { b with lanes := l :: b.lanes.filter fun x => x.lg != l.lg }
  ((s.setFld (lgstat l.lg) 32 16 l.mask.toNat).setFld (lgstat l.lg) 28 4 l.tx.code).setFld (lgstat l.lg) 24 4 l.rx.code

/-- The 160 bytes of a flit on a lane group: link header, slot header or control data, flit, CRC (R130). -/
def linkBytes (kind sq ack dmod smod : Nat) (slot data : List Byte) : List Byte :=
  let bs := wordBytes (mkWord [(kind % 16, 60), (sq % 2 ^ 24, 36), (ack % 2 ^ 24, 12), (dmod % 32, 7), (smod % 32, 2)]) ++ slot ++ data
  bs ++ natBytes 8 (crc32c bs)

/-- Indices of the active wavelengths, ascending (R131). -/
def actives (m : BitVec 16) : List Nat := (List.range 16).filter fun i => m.getLsbD i

/-- A flit as its ten beats: the wavelength of each and its 16 bytes (R131). -/
def Lane.beats (l : Lane) (bs : List Byte) : List Word :=
  let a := actives l.mask
  (List.range 10).flatMap fun j => BitVec.ofNat 64 (a.getD ((l.beat + j) % a.length) 0) :: bytesWords 2 (bs.drop (16 * j))

/-- A lane group sends a flit. -/
def State.laneOut (s : State) (l : Lane) (bs : List Byte) : State :=
  (s.putLane { l with beat := l.beat + 10 }).emit 2 (BitVec.ofNat 64 l.lg :: l.beats bs)

/-- A control flit about a lane group leaves on its pair: 2 acknowledgement, 3 NAK, 4 notice with the new mask (R130, R132). -/
def State.control (s : State) (lg kind n : Nat) (mask : BitVec 16) : State :=
  s.laneOut (s.laneOf (pairLane lg)) (linkBytes kind 0 n (s.hopEnd lg) s.modid (natBytes 16 mask.toNat) (zeroBytes 128))

/-- A data flit of a lane group; its `ACKSEQ` is what the paired receiver expects next. -/
def State.dataBytes (s : State) (lg sq : Nat) (f : Flit) : List Byte :=
  linkBytes 1 sq (s.laneOf (pairLane lg)).n f.dmod f.smod (natBytes 16 (flitHeader f).toNat) ((f.data ++ zeroBytes 128).take 128)

/-- `a` is before `b` in link sequence. -/
def seqBefore (a b : Nat) : Bool := let d := (b + 2 ^ 24 - a) % 2 ^ 24; d != 0 && decide (d < 2 ^ 23)

def Lane.free (l : Lane) (n : Nat) : Lane := { l with copies := l.copies.filter fun c => !seqBefore c.1 n }

/-- Resends from `n`, if a copy is left. -/
def Lane.replayFrom (l : Lane) (n : Nat) : Lane :=
  let l := l.free n
  if l.copies.isEmpty then { l with tx := .send, resend := none } else { l with tx := .replay, resend := some n }

/-- An acknowledgement frees copies, and a replay does not go back to what it freed (R134). -/
def Lane.acked (l : Lane) (n : Nat) : Lane :=
  match l.tx, l.resend with
  | .send, _ => l.free n
  | .replay, some r => if seqBefore r n then l.replayFrom n else l.free n
  | .replay, none => l.free n
  | _, _ => l

/-- The sender's acknowledgements reach its lane group. -/
def State.laneAcked (s : State) (lg n : Nat) : State := s.putLane ((s.laneOf lg).acked n)

/-- What waits for a bundle no longer does. -/
def State.takeWaiting (s : State) (u : Nat) (f : Flit) : State :=
  match s.fab.waiting.find? fun w => w.1 == u && w.2.2 == f with
  | some w => s.modFab fun b => { b with waiting := b.waiting.erase w }
  | none => s

/-- A lane group sends a new flit or, in a replay, the next copy. A data flit acknowledges for the paired receiver (R132). -/
def execLinkSend (lg : Nat) (f : Flit) (s : State) : Host.Outcome State Fault Refusal :=
  let l := s.laneOf lg
  let pair := s.laneOf (pairLane lg)
  match l.tx with
  | .send =>
    if 4096 ≤ l.copies.length then .next s
    else
      let s' := (s.takeWaiting (lg / 28) f).putLane { pair with since := 0 }
      .next (s'.laneOut { l with copies := l.copies ++ [(l.m, f)], m := (l.m + 1) % 2 ^ 24 } (s.dataBytes lg l.m f))
  | .replay =>
    match l.resend.bind fun r => l.copies.find? fun c => c.1 == r with
    | none => .next (s.putLane { l with tx := .send, resend := none })
    | some c =>
      let r := (c.1 + 1) % 2 ^ 24
      let l' : Lane := if r = l.m then { l with tx := .send, resend := none } else { l with resend := some r }
      .next ((s.putLane { pair with since := 0 }).laneOut l' (s.dataBytes lg c.1 c.2))
  | _ => .next s

/-- Cycles of the acknowledgement and NAK timers and of training (R133, R134). -/
def ackCycles : Nat := 128
def nakCycles : Nat := 256

/-- The receiver sends a NAK for what it expects and starts its timer. -/
def State.sendNak (s : State) (l : Lane) : State :=
  (s.putLane { l with rx := .nakwait, naks := 1, nakDue := s.now + nakCycles }).control l.lg 3 l.n 0

/-- A delivery; the 64th since the last acknowledgement sends one. -/
def State.deliverFlit (s : State) (l : Lane) (f : Flit) : State :=
  let l' : Lane := { l with
    n := (l.n + 1) % 2 ^ 24, since := l.since + 1, ackDue := if l.since = 0 then s.now + ackCycles else l.ackDue, rx := .accept, naks := 0 }
  let s := if l'.since = 64 then ((s.putLane { l' with since := 0 }).control l.lg 2 l'.n 0) else s.putLane l'
  s.forwardFlit f (l.lg / 28 % 4 == 1)

/-- A sender's copies are freed and it resends from `n`. -/
def execLinkNak (lg n : Nat) (s : State) : Host.Outcome State Fault Refusal :=
  let l := s.laneOf lg
  match l.tx with
  | .send | .replay => .next (s.putLane (l.replayFrom n))
  | _ => .next s

def execLinkAck (lg n : Nat) (s : State) : Host.Outcome State Fault Refusal := .next (s.laneAcked lg n)

/-- Fields of the 160 bytes of a received flit: kind, sequence, acknowledgement, the mask of a notice, the flit, and whether the CRC and the kind
are good (R130). -/
structure LinkFlit where
  kind : Nat
  sq : Nat
  ack : Nat
  mask : BitVec 16
  good : Bool
  flit : Flit
  deriving DecidableEq, Repr

def linkFlit (bs : List Byte) : LinkFlit :=
  let h := bytesNat (bs.take 8)
  let kind := h / 2 ^ 60 % 16
  { kind := kind, sq := h / 2 ^ 36 % 2 ^ 24, ack := h / 2 ^ 12 % 2 ^ 24
    mask := BitVec.ofNat 16 (bytesNat ((bs.drop 8).take 2))
    good := bs.length == 160 && decide (kind < 6) && bytesNat (bs.drop 152) == crc32c (bs.take 152)
    flit := flitOf (bytesNat ((bs.drop 8).take 16)) ((bs.drop 24).take 128) (h / 2 ^ 7 % 32) (h / 2 ^ 2 % 32) }

/-- The receiver's table for a data flit, or for one with a CRC error (R133). -/
def State.receiveData (s : State) (lg : Nat) (x : LinkFlit) (room : Bool) : State :=
  let l := s.laneOf lg
  let take : Bool := x.good && x.sq == l.n && room
  match l.rx with
  | .accept =>
    if take then s.deliverFlit l x.flit
    else if x.good && seqBefore x.sq l.n then (s.putLane { l with since := 0 }).control lg 2 l.n 0
    else s.sendNak l
  | .nakwait => if take then s.deliverFlit l x.flit else s
  | _ => s

/-- The receiver acknowledges what it delivered, 128 cycles after the first (R133). -/
def execLinkAckTimer (lg : Nat) (s : State) : Host.Outcome State Fault Refusal :=
  let l := s.laneOf lg
  if l.since = 0 ∨ l.rx ≠ .accept ∨ s.now < l.ackDue then .next s else .next ((s.putLane { l with since := 0 }).control lg 2 l.n 0)

/-- Retraining begins: the firmware does it, or the host after an interrupt (R135). -/
def State.retrainLane (s : State) (l : Lane) : State :=
  let s := if s.fmode 3 then s.interrupt 4 else s
  s.putLane { l with rx := .retrain, tx := if l.tx = .down then .down else .retrain }

/-- The NAK timer expires; the sixteenth NAK for one sequence starts retraining. -/
def execLinkNakTimer (lg : Nat) (s : State) : Host.Outcome State Fault Refusal :=
  let l := s.laneOf lg
  if l.rx ≠ .nakwait ∨ s.now < l.nakDue then .next s
  else
    let s' := (s.count (linknak lg)).control lg 3 l.n 0
    if l.naks + 1 = 16 then .next (s'.retrainLane { l with naks := 0 })
    else .next (s'.putLane { l with naks := l.naks + 1, nakDue := s.now + nakCycles })

/-- Wavelengths that are active. -/
def lit (m : BitVec 16) : Nat := (actives m).length

/-- Writes a link event record (R138): `seen` is Quartz at detection. -/
def State.linkRecord (s : State) (type lg elsu : Nat) (old new : BitVec 16) (seen first count : Nat) : State :=
  let u := lg / 28
  s.rasAt (BitVec.ofNat 64 seen) type (((8 + u / 2) * 2 ^ 47 + u * 2 ^ 45 + lg % 28 * 2 ^ 40 + elsu * 2 ^ 36 + old.toNat * 2 ^ 20 + new.toNat * 2 ^ 4))
    (mkWord [(first % 2 ^ 24, 40), (count % 2 ^ 16, 24)]) 0

/-- What waits for a bundle that is cut waits for the other direction's (R135). -/
def State.reroutFlits (s : State) : State :=
  if s.bundleCut 0 == s.bundleCut 2 then s
  else s.modFab fun b => { b with waiting := b.waiting.map fun w => (if s.bundleCut w.1 then 2 - w.1 else w.1, w.2) }

/-- The lane group goes down: its unacknowledged flits are new flits of the others of its bundle, or of the other direction (R135). -/
def State.laneDown (s : State) (l : Lane) : State :=
  let s := (s.putLane { l with rx := .down, tx := .down, copies := [], resend := none }).linkRecord 0x23 l.lg l.own l.oldMask l.mask s.now 0 0
  (s.modFab fun b => { b with waiting := l.copies.map (fun c => (l.lg / 28, s.now, c.2)) ++ b.waiting }).reroutFlits

/-- The sender trains on its new mask for 128 cycles; its stream begins again (R134, R131, log 49). -/
def State.train (s : State) (l : Lane) : State :=
  s.laneOut { l with tx := .realign, trained := false, trainDue := s.now + 128, beat := 0 }
    (linkBytes 5 0 (s.laneOf (pairLane l.lg)).n (s.hopEnd l.lg) s.modid (zeroBytes 16) (zeroBytes 128))

/-- A receiver loses light on wavelengths; `mask` is what remains. It tells the sender what it expects next. -/
def execLossOfLight (lg : Nat) (mask : BitVec 16) (s : State) : Host.Outcome State Fault Refusal :=
  let l := s.laneOf lg
  let new := l.mask &&& mask
  if l.rx = .down ∨ new = l.mask then .next s
  else
    let s' := s.control lg 4 l.n new
    let l' : Lane := { l with mask := new, oldMask := l.mask, rx := .realign, naks := 0, seen := s.now }
    if lit new < 4 then .next (s'.laneDown l') else .next (s'.putLane l')

/-- The receiver locks on the new mask. Its record names the first resent flit and how many come, which the training says (R137, R138). -/
def execLinkTrainingLocked (lock : LinkLock) (s : State) : Host.Outcome State Fault Refusal :=
  let l := s.laneOf lock.lg
  if l.rx = .realign then .next ((s.putLane { l with rx := .accept }).linkRecord 0x21 lock.lg 0 l.oldMask l.mask l.seen l.n lock.resent) else .next s

/-- Asks for replacement (R468): the first reason is kept. -/
def State.svcreq (s : State) (reason pos : Nat) : State :=
  let r := s.reg 0x808
  let r := if bitAt r 63 then r else setBits (setBits (setBits r 63 1 1) 56 7 reason) 0 48 pos
  let r := setBits r 48 8 (min 255 (bitsAt r 48 8 + 1))
  (s.setReg 0x808 r).ras0 0x05 0 r 0

/-- Wavelengths of an ELSU (R131). -/
def elsuMask (e : Nat) : BitVec 16 := BitVec.ofNat 16 (0xF * 2 ^ (4 * (e % 4)))

/-- Wavelengths a plane's sender still lights (R151). -/
def State.planeMask (s : State) (p : Nat) : Nat := aget 0xFF p s.zg.masks

/-- One of the two ELSUs of a plane's sender fails: four wavelengths go, and the plane is marked reduced (R151, R153). -/
def State.planeFault (s : State) (p e : Nat) : State :=
  let new := s.planeMask p &&& (if e % 2 = 0 then 0xF0 else 0x0F)
  let s := { s with zg := { s.zg with masks := aset p new s.zg.masks } }
  (s.setFld 0x020 p 1 1).svcreq 1 (2 ^ (e % 2) * 2 ^ 35)

/-- The mask before the event that a lane group is realigning for, and the cycle it was seen. -/
def Lane.begins (l : Lane) (now : Nat) : Lane := if l.tx = .realign then l else { l with oldMask := l.mask, seen := now }

/-- The sender's own ELSU fails: a lane group's, or from 112 on a Zheuc plane's. -/
def execElsuFault (lg e : Nat) (s : State) : Host.Outcome State Fault Refusal :=
  let l := s.laneOf lg
  if 112 ≤ lg then .next (if lg < 128 then s.planeFault (lg - 112) e else s)
  else if l.tx = .down then .next s
  else
    let new := l.mask &&& ~~~(elsuMask e)
    let s := s.setFld (lgstat lg) 20 4 (s.rfld (lgstat lg) 20 4 ||| 2 ^ (e % 4))
    let u := lg / 28
    let s := s.svcreq 1 (u / 2 * 2 ^ 46 + u % 4 * 2 ^ 44 + lg % 28 * 2 ^ 39 + 2 ^ (e % 4) * 2 ^ 35)
    let l' : Lane := { l.begins s.now with mask := new, own := l.own ||| 2 ^ (e % 4) }
    if lit new < 4 then .next (s.laneDown l') else .next (s.train l')

/-- Training is done and a notice is here: the sender resends from the receiver's next sequence and records the event. -/
def State.tryReplay (s : State) (l : Lane) : State :=
  match l.tx, l.trained, l.notice with
  | .realign, true, some n =>
    let l' := { l with trained := false, notice := none, own := 0 }.replayFrom n
    (s.putLane l').linkRecord 0x21 l.lg l.own l.oldMask l.mask l.seen n l'.copies.length
  | _, _, _ => s.putLane l

/-- A notice reaches the sender: it trains, from the start where it names a mask that is new to it. -/
def execLinkNotice (lg n : Nat) (mask : BitVec 16) (s : State) : Host.Outcome State Fault Refusal :=
  let l := s.laneOf lg
  let new := l.mask &&& mask
  if l.tx = .down then .next s
  else
    let l' : Lane := { l.begins s.now with mask := new, notice := some n }
    if lit new < 4 then .next (s.laneDown l')
    else if l.tx = .realign ∧ new = l.mask then .next (s.tryReplay l') else .next (s.train l')

/-- A flit reaches a receiver. Its `ACKSEQ` also acknowledges for the paired sender; a control flit is about that sender (R130, R132). -/
def execLinkDataFlit (lg : Nat) (body : List Byte) (crc : Word) (room : Bool) (s : State) : Host.Outcome State Fault Refusal :=
  let x := linkFlit (body ++ wordBytes crc)
  if !x.good then .next (s.receiveData lg x room)
  else
    match x.kind with
    | 1 => .next ((s.laneAcked (pairLane lg) x.ack).receiveData lg x room)
    | 2 => execLinkAck (pairLane lg) x.ack s
    | 3 => execLinkNak (pairLane lg) x.ack s
    | 4 => execLinkNotice (pairLane lg) x.ack x.mask s
    | _ => .next s

/-- Training on the new mask ends after its 128 cycles. -/
def execLinkTrainingDone (lg : Nat) (s : State) : Host.Outcome State Fault Refusal :=
  let l := s.laneOf lg
  if l.tx = .realign ∧ l.trainDue ≤ s.now then .next (s.tryReplay { l with trained := true }) else .next s

/-- Wavelengths that retraining can bring back: all but those of this end's ELSUs still at fault (R137). -/
def State.sound (s : State) (lg : Nat) : BitVec 16 :=
  (List.range 4).foldl (fun m e => if (s.rfld (lgstat lg) 20 4).testBit e then m &&& ~~~(elsuMask e) else m) 0xFFFF

/-- Retraining ends; `mask` is what the two ends found lit. -/
def execLinkRetrainResult (lg : Nat) (trained : LinkTrained) (s : State) : Host.Outcome State Fault Refusal :=
  let l := s.laneOf lg
  if l.rx ≠ .retrain ∧ l.tx ≠ .retrain then .next s
  else
    let new := trained.mask &&& s.sound lg
    if trained.good then
      let l' : Lane := { l with rx := if l.rx = .retrain then .accept else l.rx, tx := if l.tx = .retrain then .send else l.tx
                                mask := new, oldMask := new, naks := 0, beat := 0, own := 0 }
      .next ((s.putLane l').linkRecord 0x22 lg 0 l.mask new s.now l.n 0)
    else .next ((s.linkRecord 0x22 lg 0 l.mask l.mask s.now l.n 0).laneDown l)

/-- A lane group of a bundle that can take a flit now: one that replays, or one that sends and has room for a copy. -/
def State.laneFor (s : State) (u : Nat) : Option Nat :=
  ((List.range 28).map (28 * u + ·)).find? fun g => (s.laneOf g).tx == .send && decide ((s.laneOf g).copies.length < 4096)

/-! ### Remote windows (R139-R141) -/

def iwinReg (g n : Nat) : Nat := clusterBase g + 0x100 + 8 * n

/-- The target cluster admits the write. -/
def State.windowAdmits (s : State) (w : WinWrite) : Bool :=
  let n := w.data.length
  ((List.range 16).any fun i =>
    let r := s.reg (iwinReg w.clu i)
    bitAt r 63 && bitsAt r 58 5 == w.smod && bitsAt r 52 6 == w.sctx &&
      decide (1024 * bitsAt r 40 11 ≤ w.off ∧ w.off + n ≤ 1024 * (bitsAt r 40 11 + bitsAt r 28 12))) &&
    decide (w.off + n ≤ 2 ^ 21) && (s.l1Clash w.clu w.off n).isNone

/-- Counts a refused window write at a cluster. -/
def State.winRef (s : State) (g : Nat) : State := s.count (clusterBase g + 0x020)

/-- Acknowledges a write: on its way to its slot on this module, or to the other module. -/
def State.windowAnswer (s : State) (w : WinWrite) (refused : Bool) : State :=
  if w.smod = s.modid then s.modFab fun b => { b with winAcks := b.winAcks ++ [(w.sclu, w.slot, w.seq, refused)] }
  else s.answerPeer w.smod 9 w.seq { status := b2n refused, data := natBytes 8 (16 * w.sclu + w.slot) }

/-- Bytes of a cluster store as a span. -/
def storeSpan (g off n : Nat) : Span := { place := .store, addr := storeAddr g off, len := n, grain := 0, pol := 0 }

/-- Source of a window write: module, and 16 × cluster + slot; and the sequence it performs next. -/
def winKey (w : WinWrite) : Nat × Nat := (w.smod, 16 * w.sclu + w.slot)
def State.winNextOf (s : State) (k : Nat × Nat) : Nat := ((s.fab.winNext.find? fun p => p.1 == k).map (·.2)).getD 0

/-- Performs the writes that are next in the sequence of their source. -/
def State.windowPerform (s : State) : Nat → State
  | 0 => s
  | f + 1 =>
    match s.fab.winBuf.find? fun w => w.seq == s.winNextOf (winKey w) with
    | none => s
    | some w =>
      let ok := s.windowAdmits w
      let t := if ok then (s.putStore (storeAddr w.clu w.off) w.data).scMark w.stamp [storeSpan w.clu w.off w.data.length] else s.winRef w.clu
      let t := t.modFab fun b => { b with
        winBuf := b.winBuf.erase w, winNext := (winKey w, (w.seq + 1) % 2 ^ 16) :: b.winNext.filter fun p => p.1 != winKey w }
      (t.windowAnswer w (!ok)).windowPerform f

/-- A window write reaches its target station: it is performed in its turn; early arrivals wait there, at most 64 (R140). -/
def execWindowWriteArrival (w : WinWrite) (s : State) : Host.Outcome State Fault Refusal :=
  if !s.fab.winFly.contains w then .next s
  else if w.seq ≠ s.winNextOf (winKey w) ∧ 64 ≤ (s.fab.winBuf.filter fun x => x.clu / 32 == w.clu / 32).length then .next s
  else
    let t := s.modFab fun b => { b with winFly := b.winFly.erase w, winBuf := b.winBuf ++ [w] }
    .next (t.windowPerform t.fab.winBuf.length)

/-- A window or peer write of a job is over. -/
def State.jobWrote (s : State) (seq : Nat) : State :=
  { s with jobs := s.jobs.map fun j => if j.seq = seq then { j with wins := j.wins - 1 } else j }

/-- Number of the write with a sequence among those of a posted operation. -/
def MemOp.winAt (o : MemOp) (slot seq : Nat) : Option Nat :=
  let i := (seq + 2 ^ 16 - o.wseq) % 2 ^ 16
  if o.slot = some slot ∧ o.sent ∧ i < o.spans.length ∧ !ahas i o.got then some i else none

/-- One write of a posted operation is over: its units return, and with its last write the operation does. -/
def State.windowDone (s : State) (k : Nat) (o : MemOp) (i : Nat) : State :=
  let c := s.coreAt k
  let sl := o.slot.getD 0
  let units := match o.spans[i]? with | some p => windowUnits p | none => 0
  let o' : MemOp := { o with got := aset i [] o.got }
  let s := s.windowCount c.cluster sl (s.windowOut c.cluster sl - units)
  if o'.got.length < o.spans.length then s.modCore k fun c => { c with ops := c.ops.map fun p => if p.uid = o.uid then o' else p }
  else
    let s := s.modCore k fun c => { c with ops := c.ops.filter fun p => p.uid != o.uid }
    match o.job with
    | some j => s.jobWrote j
    | none => s

/-- The request that carried a window write needs no other answer. -/
def E2eReq.isWindow (e : E2eReq) (clu slot seq : Nat) : Bool :=
  match e.req.kind with
  | .window w => w.sclu == clu && w.slot == slot && w.seq == seq
  | _ => false

/-- An acknowledgement of a posted write returns its units; a refusal counts at the source as well (R139, R141). -/
def execWindowAck (clu slot seq : Nat) (refused : Bool) (s : State) : Host.Outcome State Fault Refusal :=
  match (s.windowOps clu).findSome? fun p => (p.2.winAt slot seq).map fun i => (p.1, p.2, i) with
  | none => .next s
  | some (k, o, i) =>
    let s' := s.modFab fun b => { b with e2e := b.e2e.filter fun e => !e.isWindow clu slot seq }
    if (o.spans[i]?.map fun p => p.addr / 2 ^ 29) = some s.modid then
      match s.fab.winAcks.find? fun a => a.1 == clu && a.2.1 == slot && a.2.2.1 == seq with
      | none => .next s
      | some a =>
        let t := s.modFab fun b => { b with winAcks := b.winAcks.erase a }
        .next ((if a.2.2.2 then t.winRef clu else t).windowDone k o i)
    else .next ((if refused then s'.winRef clu else s').windowDone k o i)

end Sys2Proof.Machine
end

