-- ==== Sys2Proof/Machine/Agate.lean ====
section
/-! DEFINITION. Agate named tiles (R155-R185): names, routing, interests and their entries, tile stores, deliveries, and what `NREQ`, `NPUB`,
`NWAIT` and `NCANCEL` ask of a station. Router 8 is the bridge router. -/

namespace Sys2Proof.Machine

def State.modAg (s : State) (f : Agate → Agate) : State := { s with agate := f s.agate }

/-! ### Names (R155, R168, R170) -/

def nameNs (n : Nat) : Nat := n / 2 ^ 80 % 2 ^ 16
def nameTensor (n : Nat) : Nat := n / 2 ^ 56 % 2 ^ 24
def nameTile (n : Nat) : Nat := n / 2 ^ 24 % 2 ^ 32
def nameIter (n : Nat) : Nat := n % 2 ^ 24

/-- The name without its iteration. -/
def nameKey (n : Nat) : Nat := n / 2 ^ 24

/-- A requirement covers another of the same key (R168). -/
def covers (p : Nat) (prlx : Bool) (i : Nat) (irlx : Bool) : Bool :=
  nameKey p == nameKey i &&
    (if prlx then irlx && decide (nameIter i ≤ nameIter p) else !irlx && nameIter i == nameIter p)

/-- A tile satisfies a requirement (R170). -/
def satisfies (tile req : Nat) (rlx : Bool) : Bool :=
  nameKey tile == nameKey req && (if rlx then decide (nameIter req ≤ nameIter tile) else nameIter tile == nameIter req)

/-! ### Namespaces (R157-R159) -/

/-- The one valid register of a namespace; two act as none. -/
def State.nsReg (s : State) (ns : Nat) : Option (Word × Word) :=
  match (List.range 256).filter fun n => bitAt (s.reg (nsBase n)) 63 && bitsAt (s.reg (nsBase n)) 34 16 == ns with
  | [n] => some (s.reg (nsBase n), s.reg (nsBase n + 8))
  | _ => none

/-- Admission at issue: bit 61 for requests, 62 for publishes. -/
def State.nsAdmits (s : State) (ns ctx bit : Nat) : Bool :=
  match s.nsReg ns with
  | some r => bitsAt r.1 55 6 == ctx && bitAt r.1 bit
  | none => false

def State.agEnabled (s : State) : Bool := bitAt (s.reg 0x028) 63

/-- A message of the namespace from a module is admitted here. -/
def State.agAdmits (s : State) (ns m : Nat) : Bool :=
  match s.nsReg ns with
  | some r => m == s.modid || bitAt r.2 (32 + m)
  | none => false

/-- The default lifetime of a namespace, in units of 1,024 cycles. -/
def State.defLife (s : State) (ns : Nat) : Nat :=
  match s.nsReg ns with
  | some r => max 1 (bitsAt r.1 18 16)
  | none => 1

/-! ### Capacities (R160) -/

def pendCap (rt : Nat) : Nat := if rt = 8 then 16384 else 4096
def tileCap (rt : Nat) : Nat := if rt = 8 then 4096 else 1024
def blockCap (rt : Nat) : Nat := if rt = 8 then 32768 else 8192

/-- Blocks of 2 KiB that a tile of `n` units of 128 bytes takes. -/
def tileBlocks (n : Nat) : Nat := (n + 15) / 16

/-- The least index not in use. -/
def freeIdx (used : List Nat) : Nat → Nat → Nat
  | 0, i => i
  | f + 1, i => if used.contains i then freeIdx used f (i + 1) else i

def State.pendsAt (s : State) (rt : Nat) : List Pend := s.agate.pends.filter fun p => p.rt == rt
def State.tilesAt (s : State) (rt : Nat) : List Tile := s.agate.tiles.filter fun t => t.rt == rt
def State.consAt (s : State) (stn : Nat) : List Cons := s.agate.cons.filter fun c => c.stn == stn

/-- Counters of a router (R185, R401). -/
def agMerge (rt : Nat) : Nat := routerBase rt + 0x018
def agHit (rt : Nat) : Nat := routerBase rt + 0x020
def agExp (rt : Nat) : Nat := routerBase rt + 0x028
def agRef (rt : Nat) : Nat := routerBase rt + 0x030
def agDup (rt : Nat) : Nat := routerBase rt + 0x038
def annEvict (rt : Nat) : Nat := routerBase rt + 0x040
def agFull (rt : Nat) : Nat := routerBase rt + 0x048

/-! ### Messages between routers (R161, R165) -/

/-- Marks of a message on this module: 0-9 a downstream station (8 and 9 the bridge router), 10 clockwise, 11 counter-clockwise, 12 none,
16 + i consumer record i of the station. -/
def noMark : Nat := 12

/-- Adds a message to those on their way to a router. -/
def State.agMsg (s : State) (rt kind : Nat) (m : AgMsg) (mark : Nat) : State :=
  s.modAg fun a => { a with msgs := a.msgs ++ [(rt, kind, m, mark)] }

/-- A message that has arrived is no longer on its way. -/
def State.agTake (s : State) (rt kind : Nat) (m : AgMsg) (mark : Nat) : State :=
  s.modAg fun a => { a with msgs := a.msgs.erase (rt, kind, m, mark), held := a.held.filter fun h => h.1 != (rt, kind, m, mark) }

/-- A message that a router refuses under the slot rules goes round the ring and is there again 40 cycles later (R122, R158, R172). -/
def State.agLater (s : State) (rt kind : Nat) (m : AgMsg) (mark : Nat) : State :=
  if s.agate.msgs.contains (rt, kind, m, mark) then s.modAg fun a => { a with
    held := ((rt, kind, m, mark), s.now + 40) :: a.held.filter fun h => h.1 != (rt, kind, m, mark) }
  else s

/-- The message has been refused before. -/
def State.agLate (s : State) (rt kind : Nat) (m : AgMsg) (mark : Nat) : Bool := s.agate.held.any fun h => h.1 == (rt, kind, m, mark)

/-- Sends a message to a module as agent 3,348 or 3,349; it is protected end to end, and its loss is silent (R128, R160, R184). -/
def State.agSend (s : State) (dst kind : Nat) (m : AgMsg) : State :=
  s.e2eSend dst { kind := if kind = 1 ∨ kind = 2 then .publish kind m else .interest kind m, addr := 0 } (3348 + s.bridgeTo dst) none (2 ^ 40) 0

/-- A message of another module is at the bridge router; an interest, cancel or refresh marks the side it came from (R161, R166). -/
def State.agFrom (s : State) (src kind : Nat) (m : AgMsg) : State :=
  s.agMsg 8 kind m (if kind = 0 ∨ kind = 3 ∨ kind = 4 then (if s.bridgeFrom src = 0 then 11 else 10) else noMark)

def State.agRack (s : State) (cw : Bool) (kind : Nat) (m : AgMsg) : State :=
  match s.neighbour cw with
  | some dst => s.agSend dst kind m
  | none => s

/-- Sends a message from router `rt` to a downstream mark. -/
def State.agDown (s : State) (rt kind : Nat) (m : AgMsg) (mark : Nat) : State :=
  if mark < 8 then s.agMsg mark kind m noMark
  else if mark < 10 then s.agMsg 8 kind m noMark
  else if mark = 10 then s.agRack true kind m
  else if mark = 11 then s.agRack false kind m
  else if 16 ≤ mark then s.agMsg rt kind m mark
  else s

/-- The downstream mark under which the next router sees router `rt` for an interest of module `omod`. -/
def State.markOf (s : State) (rt omod : Nat) : Nat := if rt = 8 then 8 + s.bridgeFrom omod else rt

/-! ### The name routing table (R162-R164) -/

/-- Valid routing entries of a router: index, word 0 and word 1, ascending. -/
def State.routes (s : State) (rt : Nat) : List (Nat × Word × Word) :=
  let b := routerBase rt + 0x100000
  (s.dev.filter fun e => decide (b ≤ e.1 ∧ e.1 < b + 0x4000 ∧ (e.1 - b) % 16 = 0) && bitAt e.2 63).map fun e =>
    ((e.1 - b) / 16, e.2, s.reg (e.1 + 8))

/-- An entry matches a name. -/
def routeMatch (name : Nat) (r : Nat × Word × Word) : Bool :=
  bitsAt r.2.1 40 16 == nameNs name &&
    ((bitsAt r.2.1 16 24 ^^^ nameTensor name) &&& bitsAt r.2.2 40 24) == 0

def popCount (n v : Nat) : Nat := ((List.range n).filter fun i => v.testBit i).length

/-- The winning entry's producer module and station: most mask bits, then the lowest index. -/
def State.route (s : State) (rt name : Nat) : Option (Nat × Nat) :=
  let best := ((s.routes rt).filter (routeMatch name)).foldl (fun (b : Option (Nat × Word × Word)) r =>
    match b with
    | none => some r
    | some q => if popCount 24 (bitsAt q.2.2 40 24) < popCount 24 (bitsAt r.2.2 40 24) then some r else some q) none
  best.map fun r => (bitsAt r.2.2 35 5, bitsAt r.2.2 31 4)

/-- Sends an interest, cancel or refresh toward the producer: the state after and the entry's state. -/
def State.agUp (s : State) (rt kind : Nat) (m : AgMsg) : State × PendState :=
  match s.route rt m.name with
  | none => (s, .noroute)
  | some (pm, ps) =>
    if pm = s.modid then
      if ps = rt then (s, .producer)
      else if ps < 8 then (s.agMsg ps kind m (s.markOf rt m.omod), .forwarded)
      else (s, .forwarded)
    else if rt = 8 then (s.agRack (s.goesCw s.modid pm) kind m, .forwarded)
    else (s.agMsg 8 kind m (s.markOf rt m.omod), .forwarded)

/-! ### Pending-interest entries (R166, R168, R173) -/

/-- Quartz bits 47:0 have reached an expiry. -/
def State.agPast (s : State) (e : Nat) : Bool := decide ((s.now % 2 ^ 48 + 2 ^ 48 - e % 2 ^ 48) % 2 ^ 48 < 2 ^ 47)

/-- `a` is a later expiry than `b`. -/
def expAfter (a b : Nat) : Bool :=
  let d := (a % 2 ^ 48 + 2 ^ 48 - b % 2 ^ 48) % 2 ^ 48
  d != 0 && decide (d < 2 ^ 47)

def State.putPend (s : State) (p : Pend) : State :=
  s.modAg fun a => { a with pends := a.pends.map fun q => if q.rt = p.rt ∧ q.idx = p.idx then p else q }

def State.dropPend (s : State) (p : Pend) : State :=
  s.modAg fun a => { a with pends := a.pends.filter fun q => !(q.rt == p.rt && q.idx == p.idx) }

/-- Adds a downstream mark and the origin module to an entry. -/
def Pend.join (p : Pend) (mark omod : Nat) : Pend :=
  let p : Pend := { p with modmask := p.modmask ||| BitVec.ofNat 32 (2 ^ omod) }
  if mark < 10 then { p with stns := p.stns ||| BitVec.ofNat 10 (2 ^ mark) }
  else if mark = 10 then { p with cw := true }
  else if mark = 11 then { p with ccw := true }
  else if 16 ≤ mark then { p with cons := p.cons ++ [mark - 16] }
  else p

/-- Removes a downstream mark. -/
def Pend.leave (p : Pend) (mark : Nat) : Pend :=
  if mark < 10 then { p with stns := p.stns &&& ~~~(BitVec.ofNat 10 (2 ^ mark)) }
  else if mark = 10 then { p with cw := false }
  else if mark = 11 then { p with ccw := false }
  else if 16 ≤ mark then { p with cons := p.cons.filter (· != mark - 16) }
  else p

def Pend.empty (p : Pend) : Bool := p.stns == 0 && !p.cw && !p.ccw && p.cons.isEmpty

/-- The requirement of an entry as a message of the interest that made it; one merged since is not named (log 51). -/
def Pend.msg (p : Pend) : AgMsg :=
  { name := p.name, relaxed := p.relaxed, hit := false, ostn := p.ostn, omod := p.omod, size := 0, exp := p.exp, segoff := 0, data := [] }

/-- The entry of a router that covers a requirement; an equal requirement before others. -/
def State.pendFor (s : State) (rt name : Nat) (rlx : Bool) : Option Pend :=
  let ps := (s.pendsAt rt).filter fun p => covers p.name p.relaxed name rlx
  match ps.find? fun p => p.name == name && p.relaxed == rlx with
  | some p => some p
  | none => ps.head?

/-! ### Tile stores (R169) -/

/-- The newest whole tile of a router that satisfies a requirement. -/
def State.tileFor (s : State) (rt name : Nat) (rlx : Bool) : Option Tile :=
  ((s.tilesAt rt).filter fun t => t.whole && satisfies t.name name rlx).foldl (fun (b : Option Tile) t =>
    match b with
    | none => some t
    | some u => if nameIter u.name < nameIter t.name then some t else some u) none

def State.dropTile (s : State) (t : Tile) : State :=
  s.modAg fun a => { a with tiles := a.tiles.filter fun u => !(u.rt == t.rt && u.idx == t.idx) }

/-- Index of a tile that is put together outside its store, which has no room for it. -/
def noEntry : Nat := 2 ^ 16

/-- Blocks and entries in use. -/
def storeUse (ts : List Tile) : Nat × Nat :=
  let ts := ts.filter fun t => t.idx != noEntry
  (((ts.map fun t => tileBlocks t.size).sum), ts.length)

/-- The tile longest without use that may be evicted (not architectural). -/
def evictable (ts : List Tile) : Option Tile :=
  (ts.filter fun t => t.whole && !t.prod).foldl (fun (b : Option Tile) t =>
    match b with
    | none => some t
    | some u => if t.qtz < u.qtz then some t else some u) none

/-- Evicts tiles until one of `n` units fits; none if it cannot. -/
def State.makeRoom (s : State) (rt n : Nat) : Nat → Option State
  | 0 => none
  | f + 1 =>
    let u := storeUse (s.tilesAt rt)
    if u.1 + tileBlocks n ≤ blockCap rt ∧ u.2 < tileCap rt then some s
    else match evictable (s.tilesAt rt) with
      | some t => (s.dropTile t).makeRoom rt n f
      | none => none

/-- Keeps at most the two newest iterations of a key at a router; producer copies stay. -/
def State.trimKey (s : State) (rt key : Nat) : State :=
  let ts := (s.tilesAt rt).filter fun t => t.whole && nameKey t.name == key
  if ts.length ≤ 2 then s
  else
    match (ts.filter fun t => !t.prod).foldl (fun (b : Option Tile) t =>
      match b with
      | none => some t
      | some u => if nameIter t.name < nameIter u.name then some t else some u) none with
    | some t => s.dropTile t
    | none => s

/-- Inserts a whole tile if space can be freed; `prod` for a producer copy. -/
def State.insertTile (s : State) (rt name size : Nat) (data : List Byte) (prod : Bool) : State :=
  if (s.tilesAt rt).any fun t => t.whole && t.name == name then
    if prod then s.modAg fun a => { a with tiles := a.tiles.map fun t =>
      if t.rt = rt ∧ t.name = name then { t with prod := true, data := data, size := size } else t }
    else s
  else match s.makeRoom rt size (tileCap rt + 1) with
    | none => s
    | some s =>
      let ts := s.tilesAt rt
      let t : Tile :=
        { rt := rt, idx := freeIdx (ts.map (·.idx)) ts.length 0, name := name, prod := prod, whole := true, size := size
          qtz := s.now, data := data, segs := [], hit := false }
      (s.modAg fun a => { a with tiles := a.tiles ++ [t] }).trimKey rt (nameKey name)

/-- The segments of a tile: 63 units of 128 bytes each. -/
def tileSegs (m : AgMsg) : List AgMsg :=
  (List.range ((m.size + 62) / 63)).map fun i => { m with segoff := 63 * i, data := (m.data.drop (8064 * i)).take 8064 }

/-- Sends a whole tile to a downstream mark; a record of the station gets it in one piece. -/
def State.sendTile (s : State) (rt : Nat) (m : AgMsg) (mark : Nat) : State :=
  if 16 ≤ mark then s.agMsg rt 1 m mark else (tileSegs m).foldl (fun s g => s.agDown rt 1 g mark) s

/-! ### Interests (R172) -/

/-- Sends a refusal toward the consumer station. -/
def State.agRefuse (s : State) (rt : Nat) (m : AgMsg) : State :=
  if m.omod = s.modid then (if m.ostn < 8 ∧ m.ostn ≠ rt then s.agMsg m.ostn 5 m noMark else s)
  else if s.rack.contains m.omod then
    (if rt = 8 then s.agRack (s.goesCw s.modid m.omod) 5 m else s.agMsg 8 5 m noMark)
  else s

/-- A router examines an interest that came by a mark: none where its table is full and the message is refused under the slot rules. With
`EN` = 0 an interest is discarded and refused, as R172 says; R158's slot rules hold for the other messages (log 51). -/
def State.agInterest (s : State) (rt : Nat) (m : AgMsg) (mark : Nat) : Option State :=
  if !s.agEnabled || !s.agAdmits (nameNs m.name) m.omod then some ((s.count (agRef rt)).agRefuse rt m)
  else if m.omod ≠ s.modid ∧ !s.rack.contains m.omod then some (s.count (agRef rt))
  else match s.tileFor rt m.name m.relaxed with
    | some t =>
      let s := s.modAg fun a => { a with tiles := a.tiles.map fun u => if u = t then { u with qtz := s.now } else u }
      let r : AgMsg := { m with
        name := t.name, relaxed := false, hit := !t.prod, ostn := min rt 8, omod := s.modid, size := t.size, exp := 0, segoff := 0, data := t.data }
      some ((s.count (agHit rt)).sendTile rt r mark)
    | none =>
      match s.pendFor rt m.name m.relaxed with
      | some p =>
        let s := s.count (agMerge rt)
        let p := p.join mark m.omod
        if expAfter m.exp p.exp then some (((s.putPend { p with exp := m.exp }).agUp rt 4 { m with name := p.name, relaxed := p.relaxed }).1)
        else some (s.putPend p)
      | none =>
        if pendCap rt ≤ (s.pendsAt rt).length then none
        else
          let up := s.agUp rt 0 m
          let ps := s.pendsAt rt
          let p : Pend :=
            { rt := rt, idx := freeIdx (ps.map (·.idx)) ps.length 0, name := m.name, relaxed := m.relaxed, st := up.2, exp := m.exp
              modmask := 0, cw := false, ccw := false, stns := 0, omod := m.omod, ostn := m.ostn, cons := [] }
          let s := up.1.modAg fun a => { a with pends := a.pends ++ [p.join mark m.omod] }
          some (if up.2 = .noroute ∧ s.fmode 2 then
            (s.interrupt 3).emit 0 [BitVec.ofNat 64 m.name, BitVec.ofNat 64 (m.name / 2 ^ 64)] else s)

/-- An interest, or a refresh that acts as one, reaches a router. -/
def execAgateInterest (rt : Nat) (m : AgMsg) (down : Nat) (s : State) : Host.Outcome State Fault Refusal :=
  match s.agInterest rt m down with
  | some s' => .next ((if s.agLate rt 0 m down && s.agPast m.exp then s else s').agTake rt 0 m down)
  | none => .next ((s.count (agFull rt)).agLater rt 0 m down)

/-- A refresh moves an entry's expiry on, or acts as a new interest (R168, R176). -/
def execAgateRefresh (rt : Nat) (m : AgMsg) (down : Nat) (s : State) : Host.Outcome State Fault Refusal :=
  let past := s.agLate rt 4 m down && s.agPast m.exp
  match s.pendFor rt m.name m.relaxed with
  | some p =>
    if !s.agEnabled then .next (s.agLater rt 4 m down)
    else
      let s := s.agTake rt 4 m down
      if expAfter m.exp p.exp && !past then .next ((s.putPend { p with exp := m.exp }).agUp rt 4 { m with name := p.name, relaxed := p.relaxed }).1
      else .next s
  | none =>
    match s.agInterest rt m down with
    | some s' => .next ((if past then s else s').agTake rt 4 m down)
    | none => .next ((s.count (agFull rt)).agLater rt 4 m down)

/-- Frees an entry that has emptied, and cancels it upstream (R175). -/
def State.leavePend (s : State) (p : Pend) : State :=
  if p.empty then
    let s := s.dropPend p
    if p.st = .forwarded then (s.agUp p.rt 3 p.msg).1 else s
  else s.putPend p

/-- A cancel removes a downstream station or direction. -/
def execAgateCancel (rt : Nat) (m : AgMsg) (down : Nat) (s : State) : Host.Outcome State Fault Refusal :=
  if !s.agEnabled then .next (s.agLater rt 3 m down)
  else
    let s := s.agTake rt 3 m down
    match s.pendFor rt m.name m.relaxed with
    | some p => .next (s.leavePend (p.leave down))
    | none => .next s

/-- A refusal goes on toward the consumer station, where it removes nothing. -/
def execAgateRefusal (rt : Nat) (m : AgMsg) (s : State) : Host.Outcome State Fault Refusal :=
  if !s.agEnabled then .next (s.agLater rt 5 m noMark)
  else
    let s := s.agTake rt 5 m noMark
    if m.omod = s.modid ∧ m.ostn = rt then .next s else .next (s.agRefuse rt m)

/-- Quartz reaches an entry's expiry: the router frees it, silently (R173). -/
def execAgateEntryExpiry (rt n : Nat) (s : State) : Host.Outcome State Fault Refusal :=
  match (s.pendsAt rt).find? fun p => p.idx == n with
  | some p => if s.agPast p.exp then .next (s.dropPend p) else .next s
  | none => .next s

/-- NOROUTE entries of a router are examined again (R163). -/
def State.reroute (s : State) (rt : Nat) : State :=
  ((s.pendsAt rt).filter fun p => p.st == .noroute).foldl (fun s p =>
    let up := s.agUp rt 0 p.msg
    if up.2 = .noroute then s else up.1.putPend { p with st := up.2 }) s

def routeReg (rt n : Nat) : Nat := routerBase rt + 0x100000 + 16 * n

/-- Both words of a routing entry are written. -/
def execRoutingEntryWrite (rt n : Nat) (w0 w1 : Word) (s : State) : Host.Outcome State Fault Refusal :=
  if 9 ≤ rt ∨ 1024 ≤ n then .next s
  else .next (((s.writeReg (routeReg rt n) w0).writeReg (routeReg rt n + 8) w1).reroute rt)

/-! ### Announcements (R164, R179) -/

/-- A router's announcement cache takes an iteration; a full cache evicts. -/
def State.announce (s : State) (rt name : Nat) : State :=
  let k := nameNs name * 2 ^ 24 + nameTensor name
  let mine := s.agate.anns.filter fun a => a.1 == rt
  match mine.find? fun a => a.2.1 == k with
  | some a =>
    s.modAg fun g => { g with anns := g.anns.map fun b => if b = a then (rt, k, max a.2.2 (nameIter name)) else b }
  | none =>
    let s' := if mine.length < 4096 then s
      else (s.modAg fun g => { g with anns := match mine with | b :: _ => g.anns.erase b | [] => g.anns }).count (annEvict rt)
    s'.modAg fun g => { g with anns := g.anns ++ [(rt, k, nameIter name)] }

/-- The index a learned entry takes: its own, a free one, or the lowest learned one. -/
def State.learnAt (s : State) (rt name : Nat) : Option Nat :=
  let rs := s.routes rt
  match rs.find? fun r => bitAt r.2.1 62 && bitsAt r.2.1 40 16 == nameNs name && bitsAt r.2.1 16 24 == nameTensor name &&
      bitsAt r.2.2 40 24 == 2 ^ 24 - 1 with
  | some r => some r.1
  | none =>
    let i := freeIdx (rs.map (·.1)) rs.length 0
    if i < 1024 then some i else (rs.find? fun r => bitAt r.2.1 62).map (·.1)

/-- A learned route to the origin of an announcement. -/
def State.learn (s : State) (rt : Nat) (m : AgMsg) : State :=
  if s.fmode 2 then s
  else match s.learnAt rt m.name with
    | none => s
    | some n =>
      let s := s.setReg (routeReg rt n) (mkWord [(1, 63), (1, 62), (nameNs m.name, 40), (nameTensor m.name, 16)])
      (s.setReg (routeReg rt n + 8) (mkWord [(2 ^ 24 - 1, 40), (m.omod % 32, 35), (m.ostn % 16, 31)])).reroute rt

/-- Modules an announcement of a namespace goes to. -/
def State.annModules (s : State) (ns : Nat) : List Nat :=
  match s.nsReg ns with
  | some r => s.rack.filter fun m => m != s.modid && bitAt r.2 (32 + m)
  | none => []

/-- An announcement reaches a router; the bridge router carries it to the modules of the namespace, or to this module's stations. -/
def execAgateAnnouncement (rt : Nat) (m : AgMsg) (s : State) : Host.Outcome State Fault Refusal :=
  if !s.agEnabled then .next (s.agLater rt 2 m noMark)
  else
    let s := s.agTake rt 2 m noMark
    if !s.agAdmits (nameNs m.name) m.omod then .next s
    else
      let s := (s.announce rt m.name).learn rt m
      if rt ≠ 8 then .next s
      else if m.omod = s.modid then .next ((s.annModules (nameNs m.name)).foldl (fun s d => s.agSend d 2 m) s)
      else .next ((List.range 8).foldl (fun s d => s.agMsg d 2 m noMark) s)

/-! ### Delivery (R174, R177-R179) -/

/-- The value `NEVERPROD` gives (R174). -/
def neverVal (name slot : Nat) : Word := mkWord [(nameIter name, 40), (nameTile name, 8), (slot % 64, 0)]

/-- Resident-task number a record keeps; a pager task has none. -/
def consRtn (r : Option Nat) : Nat := r.getD 4096

/-- Where a record's task stands: on a core, or saved with its id. -/
inductive ConsHome where
  | core (k : Nat)
  /-- Its save is in progress. -/
  | saving
  | saved (t r : Nat)
  | gone
  deriving DecidableEq, Repr

def State.consHome (s : State) (c : Cons) : ConsHome :=
  match s.allCores.find? fun k => k.view.ctx == c.ctx &&
      match k.task with
      | some t => consRtn t.rtn == c.rtn && (t.rtn.isSome || k.idx == c.core)
      | none => false with
  | some k => if k.saving = 0 then .core k.idx else .saving
  | none =>
    match s.lm.tasks.find? fun t => t.ctx == c.ctx && t.rtn == some c.rtn && t.saved with
    | some t => .saved t.id c.rtn
    | none => .gone

/-- The slot of a record's task changes, or its notification is held. -/
def State.setSlot (s : State) (c : Cons) (st : SlotState) (w : Word) : State :=
  let a : ArrSlot := { st := st, word := w }
  match s.consHome c with
  | .core k => s.modCore k fun x => { x with slots := x.slots.set c.slot a }
  | .saved t _ => s.mapTasks fun u => if u.id = t then { u with heldSlots := u.heldSlots ++ [(c.slot, st, w)] } else u
  | _ => s

def State.putCons (s : State) (c : Cons) : State :=
  s.modAg fun a => { a with cons := a.cons.map fun d => if d.stn = c.stn ∧ d.idx = c.idx then c else d }

/-- Removes a record and takes it out of its entry; the entry stays. -/
def State.dropCons (s : State) (c : Cons) : State :=
  s.modAg fun a => { a with
    cons := a.cons.filter fun d => !(d.stn == c.stn && d.idx == c.idx)
    pends := a.pends.map fun p => if p.rt = c.stn then { p with cons := p.cons.filter (· != c.idx) } else p }

/-- Records of one task's slot. -/
def Cons.same (c d : Cons) : Bool := c.ctx == d.ctx && c.rtn == d.rtn && c.slot == d.slot && (c.rtn != 4096 || c.core == d.core)

/-- Quartz at the consumer station has reached E: the record goes and the slot is EXPIRED. -/
def State.expireCons (s : State) (c : Cons) : State :=
  (((s.setSlot c .expired (neverVal c.name c.slot)).dropCons c).modAg fun a => { a with gone := c :: a.gone.filter fun d => !c.same d }).count
    (agExp c.stn)

/-- A record's expiry, numbered 8,192 × station + record. -/
def execAgateRecordExpiry (n : Nat) (s : State) : Host.Outcome State Fault Refusal :=
  match (s.consAt (n / 8192)).find? fun c => c.idx == n % 8192 with
  | some c => if !c.arrived && decide (c.exp ≤ s.now) && s.consHome c != .saving then .next (s.expireCons c) else .next s
  | none => .next s

/-- The destination bytes as they lie now: the cluster-store part follows the task to its core, or lies in its slice image (R177). -/
def State.landSpans (s : State) (c : Cons) : Option (List Span) :=
  match s.consHome c with
  | .core k => some (c.dst.map fun p =>
      if p.place = .store then { p with addr := storeAddr (k / 8) (2 ^ 18 * (k % 8) + p.addr % 2 ^ 18) } else { p with pol := 2 })
  | .saved _ r => some (c.dst.map fun p =>
      if p.place = .store then { p with place := .mem, addr := s.imageAt c.ctx r + p.addr % 2 ^ 18, grain := 0, pol := 2 } else { p with pol := 2 })
  | .saving => none
  | .gone => some []

/-- The arrival word (R178), with staleness from the station's announcement cache: the word, and whether the read is stale. -/
def State.arrivalWord (s : State) (c : Cons) (m : AgMsg) : Word × Bool :=
  let k := nameNs m.name * 2 ^ 24 + nameTensor m.name
  let a := ((s.agate.anns.find? fun x => x.1 == c.stn && x.2.1 == k).map (·.2.2)).getD 0
  let st := c.relaxed && decide (nameIter m.name < a)
  let len := (c.dst.map (·.len)).sum
  (mkWord [(nameIter m.name, 40), (if st then a - nameIter m.name else 0, 16), (b2n (len != 128 * m.size), 15), (b2n st, 7),
    (b2n m.hit, 6), (c.slot % 64, 0)], st)

/-- The spans another module holds, with their bytes. -/
def peerParts : List Span → List Byte → List (Span × List Byte)
  | [], _ => []
  | p :: ps, bs => (if p.place = .peer then [(p, bs.take p.len)] else []) ++ peerParts ps (bs.drop p.len)

/-- Mark of a delivery whose writes to another module are on their way. -/
def agSent : Nat := 2 ^ 16

/-- Number under which a delivery's peer writes are protected. -/
def agUid (c : Cons) : Nat := 2 ^ 41 + 8192 * c.stn + c.idx

/-- The slot becomes ARRIVED once the destination is written whole. -/
def State.arrive (s : State) (c : Cons) (m : AgMsg) : State :=
  let w := s.arrivalWord c m
  let s := if w.2 then s.count64 (ctxBase c.ctx + 0x038) else s
  (s.setSlot c .arrived w.1).putCons { c with arrived := true, name := m.name, relaxed := false }

/-- Delivers a whole tile to a record; while its bytes cannot be written the message stays on its way. -/
def State.deliverTile (s : State) (rt : Nat) (m : AgMsg) (mark : Nat) : State :=
  let i := mark % agSent - 16
  match (s.consAt rt).find? fun c => c.idx == i with
  | none => s.agTake rt 1 m mark
  | some c =>
    if c.arrived || !satisfies m.name c.name c.relaxed then
      (if c.arrived && c.name == m.name then s.count (agDup rt) else s).agTake rt 1 m mark
    else match s.landSpans c with
      | none => s
      | some ss =>
        if s.ctxState c.ctx = 2 then s.agTake rt 1 m mark
        else if agSent ≤ mark then
          if s.fab.e2e.any fun e => e.uid == agUid c then s else (s.arrive c m).agTake rt 1 m mark
        else if c.exp ≤ s.now then (s.expireCons c).agTake rt 1 m mark
        else
          let ss := cutSpans ss 0 (128 * m.size)
          match s.writeSpans (hubWho c.ctx) (ss.filter fun p => p.place != .peer) (localParts ss m.data) with
          | .error _ => s
          | .ok s =>
            let ps := peerParts ss m.data
            if ps.isEmpty then (s.arrive c m).agTake rt 1 m mark
            else
              let s := ps.foldl (fun s p =>
                s.e2eSend (p.1.addr / 2 ^ 43 % 32) { kind := .write p.2, addr := p.1.addr % 2 ^ 43 } (3340 + c.stn) none (agUid c) c.ctx) s
              (s.agTake rt 1 m mark).agMsg rt 1 m (mark + agSent)

/-! ### Tiles at routers (R165, R176, R182) -/

/-- Group members other than this module that an entry's tile goes to on a plane; empty where the rack ring carries it (R182). -/
def State.planeMembers (s : State) (rt : Nat) (m : AgMsg) (mask : BitVec 32) : List Nat :=
  let z := match s.nsReg (nameNs m.name) with | some r => bitsAt r.1 50 5 | none => 0
  let ms := s.members.filter fun k => k != s.modid && mask.getLsbD k
  if rt = 8 ∧ m.omod = s.modid ∧ z ≠ 0 ∧ s.rfld 0x028 52 4 ≠ 0 ∧ s.inGroup ∧ z ≤ ms.length then ms else []

/-- Cuts bytes into pieces of 8,176. -/
def burstCuts : Nat → Nat → List Byte → List (Nat × List Byte)
  | 0, _, _ => []
  | f + 1, off, bs => if bs.isEmpty then [] else (off, bs.take 8176) :: burstCuts f (off + 8176) (bs.drop 8176)

/-- Queues a tile's bursts, the header's last (R182). -/
def State.planeTile (s : State) (m : AgMsg) : State :=
  let p := s.rfld 0x028 52 4
  let base := s.rfld 0x028 46 6 * 2 ^ 48 + 131072 * (4 * s.modid + s.agate.landing % 4)
  let head := (wordsBytes (agHeader m) ++ zeroBytes 96).take 128
  let items := (burstCuts 9 128 m.data).map (fun c => (base + c.1, c.2)) ++ [(base, head)]
  let s := s.modAg fun a => { a with landing := (a.landing + 1) % 4 }
  items.foldl (fun s it =>
    let id := aget 0 p s.zg.burstId
    let b : Burst := { src := s.modid, plane := p, burst := id, ctx := 0, items := [it], crcGood := true }
    s.queueBurst b (s.syncWords 2 0 0 p 0 id 0 (0, 0) 0 0)) s

/-- The directions in which an entry's modules outside a set of members lie. -/
def State.sidesOf (s : State) (mask : BitVec 32) (ms : List Nat) : Bool × Bool :=
  let out := s.rack.filter fun k => k != s.modid && mask.getLsbD k && !ms.contains k
  (out.any fun k => !s.goesCw k s.modid, out.any fun k => s.goesCw k s.modid)

/-- A whole tile is at a router: it goes to every entry it satisfies, once to each downstream station or direction, and into the store. -/
def State.tileHere (s : State) (rt : Nat) (m : AgMsg) : State :=
  let hits := (s.pendsAt rt).filter fun p => satisfies m.name p.name p.relaxed
  let dups := (s.consAt rt).filter fun c => c.arrived && c.name == m.name
  let s := if dups.isEmpty then s else s.count (agDup rt) dups.length
  let stns := hits.foldl (fun a p => a ||| p.stns) (0 : BitVec 10)
  let plane := hits.filter fun p => !(s.planeMembers rt m p.modmask).isEmpty
  let side := hits.map fun p =>
    let ms := s.planeMembers rt m p.modmask
    if ms.isEmpty then (p.cw, p.ccw) else s.sidesOf p.modmask ms
  let marks := ((List.range 8).filter fun i => stns.getLsbD i) ++ (if stns.getLsbD 8 || stns.getLsbD 9 then [8] else []) ++
    (if side.any (·.1) then [10] else []) ++ (if side.any (·.2) then [11] else []) ++ (hits.flatMap (·.cons)).map (· + 16)
  let s := hits.foldl (fun s p => s.dropPend p) s
  let s := marks.foldl (fun s k => s.sendTile rt m k) s
  let s := if plane.isEmpty then s else s.planeTile m
  if hits.isEmpty && !dups.isEmpty then s else s.insertTile rt m.name m.size m.data false

/-- A tile's segments are put together at a router: in an entry of its store, filling, or outside where no room can be made (R165, R169). -/
def State.fillOf (s : State) (rt : Nat) (m : AgMsg) : State × Tile :=
  let t : Tile :=
    { rt := rt, idx := noEntry, name := m.name, prod := false, whole := false, size := m.size, qtz := s.now
      data := List.replicate (128 * m.size) 0, segs := [], hit := m.hit }
  match s.makeRoom rt m.size (tileCap rt + 1) with
  | none => (s, t)
  | some s' => let ts := s'.tilesAt rt; (s', { t with idx := freeIdx (ts.map (·.idx)) ts.length 0 })

/-- Replaces bytes of a list from an offset. -/
def splice (bs : List Byte) (off : Nat) (new : List Byte) : List Byte := bs.take off ++ new ++ bs.drop (off + new.length)

/-- A segment, or a tile for one record, reaches a router. -/
def execAgateTileSegment (rt : Nat) (m : AgMsg) (s : State) : Host.Outcome State Fault Refusal :=
  if !s.agEnabled then .next (s.agLater rt 1 m noMark)
  else match s.agate.msgs.find? fun x => x.1 == rt && x.2.1 == 1 && x.2.2.1 == m && decide (16 ≤ x.2.2.2) with
    | some x => .next (s.deliverTile rt m x.2.2.2)
    | none =>
      let s := s.agTake rt 1 m noMark
      if !s.agAdmits (nameNs m.name) m.omod || m.size = 0 then .next s
      else
        let same := fun (t : Tile) => t.rt == rt && !t.whole && t.name == m.name && t.size == m.size && t.hit == m.hit
        let (s, t) := match s.agate.tiles.find? same with
          | some t => (s, t)
          | none => s.fillOf rt m
        let segs := if t.segs.contains m.segoff then t.segs else m.segoff :: t.segs
        let t' : Tile := { t with segs := segs, data := splice t.data (128 * m.segoff) (m.data.take (128 * (m.size - m.segoff))) }
        let s := s.modAg fun a => { a with tiles := a.tiles.filter fun u => !same u }
        if (m.size + 62) / 63 ≤ segs.length then .next (s.tileHere rt { m with segoff := 0, data := t'.data })
        else .next (s.modAg fun a => { a with tiles := t' :: a.tiles })

/-! ### What strands ask of their station (R170, R171, R175) -/

/-- A record or an entry that an interest of this station needs is free (R167). -/
def State.nreqRoom (s : State) (stn name : Nat) (rlx : Bool) : Bool :=
  decide ((s.consAt stn).length < 8192) &&
    ((s.tileFor stn name rlx).isSome || (s.pendFor stn name rlx).isSome || decide ((s.pendsAt stn).length < pendCap stn))

/-- A core makes a consumer record and sends its interest; the slot is PENDING. -/
def State.sendInterest (s : State) (k slot name : Nat) (rlx : Bool) (life : Nat) (dst : List Span) : State :=
  let c := s.coreAt k
  let stn := c.die
  let cs := s.consAt stn
  let e := s.now + 1024 * life
  let r : Cons :=
    { idx := freeIdx (cs.map (·.idx)) cs.length 0, stn := stn, ctx := c.view.ctx, rtn := consRtn (c.task.bind (·.rtn)), core := k
      slot := slot, name := name, relaxed := rlx, exp := e, dst := dst, arrived := false }
  let s := s.modAg fun a => { a with cons := a.cons ++ [r], gone := a.gone.filter fun d => !r.same d }
  let a : ArrSlot := { st := .pending, word := neverVal name slot }
  let s := s.modCore k fun c => { c with slots := c.slots.set slot a }
  let m : AgMsg :=
    { name := name, relaxed := rlx, hit := false, ostn := stn, omod := s.modid, size := 0, exp := (e + 64) % 2 ^ 48, segoff := 0, data := [] }
  (s.agInterest stn m (16 + r.idx)).getD s

/-- The record of a core's arrival slot, or of its slot when it expired. -/
def State.consOf (s : State) (k slot : Nat) : Option Cons :=
  let c := s.coreAt k
  (s.agate.cons ++ s.agate.gone).find? fun r => r.slot == slot && r.ctx == c.view.ctx && r.rtn == consRtn (c.task.bind (·.rtn)) &&
    (r.rtn != 4096 || r.core == k)

/-- Bytes that become undefined (R10). -/
def State.undefine (s : State) (ss : List Span) : State :=
  ss.foldl (fun s p =>
    let d := s.drawBytes p.len
    match p.place with
    | .mem => d.2.writeMem p.addr d.1
    | .store => d.2.putStore p.addr d.1
    | _ => s) s

/-- The record of a slot goes, and its destination is undefined; an entry that empties is cancelled upstream (R175). -/
def State.cancelSlot (s : State) (k slot : Nat) : State :=
  let free : ArrSlot := { st := .free, word := 0 }
  let s' := s.modCore k fun c => { c with slots := c.slots.set slot free }
  match s.consOf k slot with
  | none => s'
  | some r =>
    let dst := (s.landSpans r).getD []
    let live := s.agate.cons.contains r
    let held := if live then (s'.pendsAt r.stn).filter fun p => p.cons.contains r.idx else []
    let s' := (if live then s'.dropCons r else s'.modAg fun a => { a with gone := a.gone.erase r }).undefine dst
    held.foldl (fun s p => s.leavePend (p.leave (16 + r.idx))) s'

/-- Older producer copies of a key lose `PROD` when a newer iteration is published (R170). -/
def State.unprod (s : State) (stn name : Nat) : State :=
  s.modAg fun a => { a with tiles := a.tiles.map fun t =>
    if t.rt = stn ∧ t.prod ∧ nameKey t.name = nameKey name ∧ nameIter t.name < nameIter name then { t with prod := false } else t }

/-- Room for a producer copy: producer copies fill at most half of the store, and space for it can be freed (R170). -/
def State.npubRoom (s : State) (stn name size : Nat) : Bool :=
  s.agate.published.contains name ||
    let s := s.unprod stn name
    let ps := (s.tilesAt stn).filter fun t => t.prod && t.name != name
    decide ((ps.map fun t => tileBlocks t.size).sum + tileBlocks size ≤ blockCap stn / 2 ∧ ps.length < tileCap stn / 2) &&
      ((s.tilesAt stn).any (fun t => t.whole && t.name == name) || (s.makeRoom stn size (tileCap stn + 1)).isSome)

/-- Publishes a tile at a core's station: producer copy, delivery, announcements; a repeated name only counts (R156, R170). -/
def State.publish (s : State) (k name : Nat) (data : List Byte) : State :=
  if s.agate.published.contains name then s.count 0x0A8
  else
    let stn := (s.coreAt k).die
    let size := data.length / 128
    let s := (s.modAg fun a => { a with published := name :: a.published }).unprod stn name
    let m : AgMsg :=
      { name := name, relaxed := false, hit := false, ostn := stn, omod := s.modid, size := size, exp := 0, segoff := 0, data := data }
    let s := (s.insertTile stn name size data true).tileHere stn m
    let ann : AgMsg := { m with size := 0, data := [] }
    ((List.range 9).filter (· != stn)).foldl (fun s rt => s.agMsg rt 2 ann noMark) s

/-- What a context reset does to named tiles (R184). -/
def State.agReset (s : State) (c : Nat) : State :=
  let gone := (s.agate.cons.filter fun r => r.ctx == c).map fun r => (r.stn, r.idx)
  let ns := ((List.range 256).filter fun n => bitAt (s.reg (nsBase n)) 63 && bitsAt (s.reg (nsBase n)) 55 6 == c).map fun n =>
    bitsAt (s.reg (nsBase n)) 34 16
  s.modAg fun a => { a with
    cons := a.cons.filter fun r => r.ctx != c
    gone := a.gone.filter fun r => r.ctx != c
    pends := a.pends.map fun p => { p with cons := p.cons.filter fun i => !gone.contains (p.rt, i) }
    tiles := a.tiles.filter fun t => !ns.contains (nameNs t.name) }

end Sys2Proof.Machine
end

