-- ==== Sys2Proof/Machine/E2e.lean ====
section
/-! DEFINITION. End-to-end protection of what crosses modules (R128, R129, R184): a request at its destination, its answer, its timer. -/

namespace Sys2Proof.Machine

/-! ### At the destination (R129) -/

/-- `H` moves over the numbers received next to it. -/
def advanceHigh : Nat → Nat → List Nat → Nat × List Nat
  | 0, h, got => (h, got)
  | f + 1, h, got =>
    let n := (h + 1) % 2 ^ 24
    if got.contains n then advanceHigh f n (got.filter (· != n)) else (h, got)

/-- What an accepted request sets going: an access is performed and answered, or waits at its home agent; a window write goes to its station,
a named-tile message to the bridge router. -/
def State.e2eServe (s : State) (src sq : Nat) (p : PeerReq) : State :=
  let ack := fun (s : State) => s.answerPeer src 11 sq { status := 0, data := [] }
  match p.kind with
  | .window w => ack (s.modFab fun b => { b with winFly := b.winFly ++ [w] })
  | .interest k m | .publish k m => ack (s.agFrom src k m)
  | _ =>
    match s.peerPerform src p with
    | some (s', a) => (s'.keepResult src sq p a).answerPeer src (answerCode p.kind) sq a
    | none => s.modFab fun b => { b with peers := b.peers ++ [(src, sq, p)] }

/-- A duplicate is answered again: a read by performing it, an atomic with the result kept, the others as performed. One that still waits has
its answer to come. -/
def State.e2eAgain (s : State) (src sq : Nat) (p : PeerReq) : State :=
  if s.fab.peers.any fun x => x.1 == src && x.2.1 == sq then s
  else match p.kind with
    | .read _ => s.e2eServe src sq p
    | .atomic _ _ _ _ => s.answerPeer src 3 sq { status := 0, data := aget [] sq (s.e2eSrcOf src).results }
    | _ => s.answerPeer src 11 sq { status := 0, data := [] }

/-- A protected request arrives; `room` says whether its destination buffer has room. -/
def execE2eRequest (src sq : Nat) (room : Bool) (p : PeerReq) (s : State) : Host.Outcome State Fault Refusal :=
  let e := s.e2eSrcOf src
  let d := (sq + 2 ^ 24 - e.high) % 2 ^ 24
  if d = 0 ∨ 2 ^ 23 ≤ d ∨ e.got.contains sq then .next ((s.count (bridgeBase (s.bridgeFrom src) + 0x008)).e2eAgain src sq p)
  else if 1024 < d ∨ !room then .next s
  else
    let h := advanceHigh 1024 e.high (sq :: e.got)
    .next ((s.putE2eSrc { e with high := h.1, got := h.2 }).e2eServe src sq p)

/-! ### At the source (R128) -/

def State.e2eOf (s : State) (dst sq : Nat) : Option E2eReq := s.fab.e2e.find? fun e => e.dst == dst && e.sq == sq

def State.dropE2e (s : State) (dst sq : Nat) : State :=
  s.modFab fun b => { b with e2e := b.e2e.filter fun e => !(e.dst == dst && e.sq == sq) }

/-- The first unanswered span of an operation that a request asked for. -/
def MemOp.asked (o : MemOp) (dst addr : Nat) : Option Nat :=
  (List.range o.spans.length).find? fun i => !ahas i o.got &&
    match o.spans[i]? with
    | some p => p.place == .peer && p.addr / 2 ^ 43 % 32 == dst && p.addr % 2 ^ 43 == addr
    | none => false

/-- The answer to a request of an operation is kept with its span. -/
def MemOp.take (e : E2eReq) (data : List Byte) (o : MemOp) : MemOp :=
  if o.uid = e.uid then
    match o.asked e.dst e.req.addr with
    | some i => { o with got := aset i data o.got }
    | none => o
  else o

def Core.take (e : E2eReq) (data : List Byte) (c : Core) : Core := { c with ops := c.ops.map (MemOp.take e data) }

/-- The answer to a job's request: a read's bytes are kept for the running command, a write is over. -/
def State.jobAnswered (s : State) (e : E2eReq) (data : List Byte) : State :=
  let seq := e.uid - 2 ^ 32
  match e.req.kind with
  | .read n =>
    { s with jobs := s.jobs.map fun j =>
      if j.seq = seq then { j with got := ((e.dst * 2 ^ 43 + e.req.addr, n), data) :: j.got } else j }
  | _ => s.jobWrote seq

/-- The strand that issued a request, or its agent, for a fatal error. -/
def State.originOf (s : State) (e : E2eReq) : Origin × Word :=
  match e.core with
  | some k => match (s.coreAt k).ops.find? fun o => o.uid == e.uid with
    | some o => (.strand k o.strand, o.ha)
    | none => (.agent 0, BitVec.ofNat 64 e.req.addr)
  | none => (.agent 0, BitVec.ofNat 64 e.req.addr)

/-- The request's answer is here: a load or atomic takes its data, a write is performed. A refusal is counted and recorded at this module too;
poisoned data end the context (R56, R127). -/
def execE2eAck (dst sq : Nat) (ans : PeerAnswer) (s : State) : Host.Outcome State Fault Refusal :=
  match s.e2eOf dst sq with
  | none => .next s
  | some e =>
    let t := if ans.status = 1 then (s.dropE2e dst sq).peerRefuse dst e.req.addr else s.dropE2e dst sq
    if ans.status = 2 then .next (t.fatalError e.ctx (s.originOf e).1 0x84 (s.originOf e).2 0)
    else
      match e.core with
      | none => .next (t.jobAnswered e ans.data)
      | some k =>
        match (s.coreAt k).ops.find? fun o => o.uid == e.uid with
        | none => .next t
        | some o =>
          if o.slot.isSome then .next t
          else
            match (t.modCore k (Core.take e ans.data)).perform k e.uid with
            | .wait s' => .next s'
            | .done s' => .next s'
            | .dead s' code v => .next (s'.fatalError e.ctx (.strand k o.strand) code v 0)

/-- Cycles of the timer and sends in all (R128). -/
def State.e2eTimer (s : State) (b : Nat) : Nat := 2 ^ max 12 (min 24 (s.rfld (bridgeBase b) 0 5))
def State.e2eTries (s : State) (b : Nat) : Nat := max 1 (s.rfld (bridgeBase b) 8 4)

/-- The units of a window write that is given up return. -/
def State.windowLost (s : State) (e : E2eReq) : State :=
  match e.req.kind, e.core with
  | .window w, some k =>
    match (s.coreAt k).ops.findSome? fun o => (o.winAt w.slot w.seq).map fun i => (o, i) with
    | some (o, i) => s.windowDone k o i
    | none => s
  | _, _ => s

/-- A request is given up: a named-tile message is dropped, any other ends its context (R128, R184). -/
def State.e2eGiveUp (s : State) (b : Nat) (e : E2eReq) : State :=
  let t := ((s.dropE2e e.dst e.sq).count (bridgeBase b + 0x010)).ras0 0x11 (e.dst * 2 ^ 46) (BitVec.ofNat 64 e.req.addr) 0
  match e.req.kind with
  | .interest _ _ | .publish _ _ => t
  | _ => (t.windowLost e).fatalError e.ctx (s.originOf e).1 0x84 (s.originOf e).2 0

/-- The timer of a request elapses: it is sent again, or given up. A module off the ring is given up at once (R125). -/
def execE2eTimeout (dst sq : Nat) (s : State) : Host.Outcome State Fault Refusal :=
  match s.e2eOf dst sq with
  | none => .next s
  | some e =>
    let b := s.bridgeTo dst
    if !s.rack.contains dst then .next (s.e2eGiveUp b e)
    else if s.now < e.sentAt + s.e2eTimer b then .next s
    else if e.sends < s.e2eTries b then
      let e' : E2eReq := { e with sends := e.sends + 1, sentAt := s.now }
      .next ((s.modFab fun f => { f with e2e := f.e2e.map fun x => if x = e then e' else x }).e2eEmit e')
    else .next (s.e2eGiveUp b e)

end Sys2Proof.Machine
end

