-- ==== Sys2Proof/Machine/Zheuc.lean ====
section
/-! DEFINITION. The Zheuc broadcast planes (R100, R106-R108, R143-R153): frames, sync messages, bursts, the token and its loss, Quartz across the
group, and what a broadcast store or a group operation does at its commit. -/

namespace Sys2Proof.Machine

def State.modZg (s : State) (f : Zheuc → Zheuc) : State := { s with zg := f s.zg }

/-- `ZGSTAT.FENCED`. -/
def State.zgFenced (s : State) : Bool := bitAt (s.reg 0x020) 62

/-- The member sends, receives and performs on the planes. -/
def State.zgOn (s : State) : Bool := s.inGroup && !s.zgFenced

def State.zgProp (s : State) (m : Nat) : Nat := s.rfld (0x100 + 8 * m) 0 16
def State.pmax (s : State) : Nat := s.rfld 0x018 0 16

/-- Hold limit of a plane; doubled with four wavelengths or fewer (R144, R151). -/
def State.hmax (s : State) (p : Nat) : Nat :=
  (if p = 0 then 10 else 75) * (if popCount 8 (s.planeMask p) ≤ 4 then 2 else 1)

/-- Rotation bound of a plane (R144). -/
def State.trot (s : State) (p : Nat) : Nat := s.members.length * (s.hmax p + 8 + s.pmax)

/-- The member after this one, wrapping. -/
def State.nextMember (s : State) : Nat :=
  match s.members.find? (fun m => decide (s.modid < m)) with
  | some m => m
  | none => (s.members.head?).getD s.modid

/-! ### Token frames (R145) -/

def frameCrc (f : List Word) : Nat := crc32c ((wordsBytes (f.take 1)).drop 4 ++ wordsBytes ((f.drop 1).take 3))

def frameKind (f : List Word) : Nat := bitsAt (f.getD 0 0) 60 4
def frameFrom (f : List Word) : Nat := bitsAt (f.getD 0 0) 55 5
def frameNext (f : List Word) : Nat := bitsAt (f.getD 0 0) 50 5
def framePlane (f : List Word) : Nat := bitsAt (f.getD 0 0) 46 4
def frameSeq (f : List Word) : Nat := bitsAt (f.getD 1 0) 0 48
def frameTlast (f : List Word) : Nat := (f.getD 2 0).toNat
def frameSent (f : List Word) : Nat := (f.getD 3 0).toNat

/-- The frame is whole and from a member. -/
def State.frameOk (s : State) (f : List Word) (kind : Nat) : Bool :=
  s.zgOn && f.length == 4 && frameKind f == kind && bitsAt (f.getD 0 0) 0 32 == frameCrc f && s.members.contains (frameFrom f)

def State.mkFrame (s : State) (kind next plane sq t : Nat) : List Word :=
  let w0 := mkWord [(kind, 60), (s.modid, 55), (next, 50), (plane, 46), (s.planeMask plane, 38)]
  let ws := [BitVec.ofNat 64 (sq % 2 ^ 48), BitVec.ofNat 64 t, s.quartz]
  (w0 ||| BitVec.ofNat 64 (frameCrc (w0 :: ws))) :: ws

/-- Sends a frame; it comes back to this member too. -/
def State.sendFrame (s : State) (f : List Word) : State := (s.modZg fun z => { z with echo := z.echo ++ [f] }).emit 3 f

/-! ### Sync messages (R146) -/

def syncKind (m : List Word) : Nat := bitsAt (m.getD 0 0) 60 4
def syncSrc (m : List Word) : Nat := bitsAt (m.getD 0 0) 55 5
def syncCtx (m : List Word) : Nat := bitsAt (m.getD 0 0) 49 6
def syncLen (m : List Word) : Nat := bitsAt (m.getD 0 0) 44 5
def syncPlane (m : List Word) : Nat := bitsAt (m.getD 0 0) 40 4
def syncOpc (m : List Word) : Nat := bitsAt (m.getD 0 0) 32 8
def syncBurst (m : List Word) : Nat := bitsAt (m.getD 0 0) 16 16
def syncSeq (m : List Word) : Nat := bitsAt (m.getD 1 0) 0 48
def syncTime (m : List Word) : Nat := (m.getD 2 0).toNat
def syncGa (m : List Word) : Nat := bitsAt (m.getD 3 0) 0 56
def syncPay (m : List Word) : List Byte := wordsBytes ((m.drop 4).take 2)
def syncCore (m : List Word) : Nat := bitsAt (m.getD 6 0) 53 11
def syncDetail (m : List Word) : Nat := bitsAt (m.getD 6 0) 0 53

/-- What a history copy is a copy of, from its fields (log 30). -/
def copiedKind (m : List Word) : Nat :=
  if syncLen m ≠ 0 then 1
  else if m.getD 4 0 ≠ 0 then 5
  else if syncOpc m = 1 then 4
  else if syncOpc m ≠ 0 then 3
  else if syncPlane m ≠ 0 then 2
  else 0

/-- A message with its kind. -/
def withKind (k : Nat) (m : List Word) : List Word := m.set 0 (setBits (m.getD 0 0) 60 4 k)

/-- Numbers a message: sequence, commit time and CRC. -/
def numberMsg (n t : Nat) (m : List Word) : List Word :=
  let m := (m.set 1 (BitVec.ofNat 64 (n % 2 ^ 48))).set 2 (BitVec.ofNat 64 t)
  m.set 7 (syncCrc (m.take 7))

/-- A resend request: the burst of a sender, or a message number, which the payload also names (log 30). -/
def State.resendReq (s : State) (plane burst src n : Nat) : List Word :=
  s.syncWords 5 0 0 plane 0 burst src (BitVec.ofNat 64 (2 ^ 63 + n % 2 ^ 48), 0) 0 0

/-! ### Fencing (R151) -/

/-- The member fences itself from the group. -/
def State.zgFence (s : State) : State :=
  (s.setFld 0x020 62 1 1).ras0 0x13 (s.rfld 0x020 32 16 * 2 ^ 35) 0 0

/-! ### Performing committed messages (R106, R147-R149) -/

/-- A broadcast store of this module is performed: its token, and its place among the 16 (R333). -/
def Core.bstDone (c : Core) (ga : Nat) (data : List Byte) : Core :=
  match c.bsts.find? fun b => b.ga == ga && b.data == data with
  | none => c
  | some b =>
    let c := { c with bsts := c.bsts.filter fun x => x.uid != b.uid }
    match b.sig with
    | some p => c.pushReserved p
    | none => c

/-- A group operation that a committed message places. -/
def MemOp.placedAs (o : MemOp) (uid t : Nat) : Bool := o.uid % 4096 == uid && (o.grp || o.stamp == some (t, 4095))

/-- A group operation of this module has its place: its stamp is the commit time, with 4,095 as issuer, and it is performed now. The flag says
whether it has been: while it waits, later messages do too (R100, R106). -/
def State.grpCommit (s : State) (k uid t : Nat) : State × Bool :=
  match (s.coreAt k).ops.find? fun o => o.placedAs uid t with
  | none => (s, true)
  | some o =>
    let o' : MemOp := { o with grp := false, stamp := some (t, 4095) }
    let s := s.modCore k fun c => { c with ops := c.ops.map fun p => if p.uid = o.uid then o' else p }
    let s := if o.slot.isSome && !o.sent && s.opReady (s.coreAt k) o' then s.windowSend (s.coreAt k) o' else s.peerTry k o.uid
    if o.slot.isSome then (s, (s.coreAt k).ops.all fun p => p.uid != o.uid || p.sent)
    else match s.perform k o.uid with
      | .done s' => (s', true)
      | .wait s' => (s', false)
      | .dead s' code v => (s'.fatalError (s'.coreAt k).view.ctx (.strand k o.strand) code v 0, true)

/-- The items of a burst of module `src`, in order, as one step: none while one must wait. -/
def State.groupItems (s : State) (src : Nat) : List (Nat × List Byte) → Option State
  | [] => some s
  | it :: its =>
    match s.groupWrite src it.1 it.2 with
    | none => none
    | some s' => s'.groupItems src its

/-- The header item of a plane-delivered tile is performed: the bridge router takes the tile from the landing memory (R183). -/
def State.planeArrival (s : State) (src ga : Nat) (head : List Byte) : State :=
  if src = s.modid ∨ head.length ≠ 128 ∨ ga / 2 ^ 48 ≠ s.rfld 0x028 46 6 ∨ ga % 131072 ≠ 0 then s
  else
    let w := bytesWords 4 head
    let size := bitsAt (w.getD 1 0) 33 10
    match s.gwin (ga + 128) (128 * size) with
    | none => s
    | some (pa, _) =>
      let m : AgMsg :=
        { name := (w.getD 0 0).toNat + bitsAt (w.getD 1 0) 0 32 * 2 ^ 64, relaxed := false, hit := bitAt (w.getD 1 0) 52
          ostn := bitsAt (w.getD 1 0) 48 4, omod := bitsAt (w.getD 1 0) 43 5, size := size, exp := 0, segoff := 0
          data := s.readMem pa (128 * size) }
      if !s.agEnabled || !s.agAdmits (nameNs m.name) m.omod || size = 0 then s else s.tileHere 8 m

def sameBurst (b : Burst) (src plane id : Nat) : Bool := b.src == src && b.plane == plane && b.burst == id

/-- Key under which resends of a burst are counted; messages count at 2^40 + number. -/
def burstKey (src plane id : Nat) : Nat := src * 2 ^ 20 + plane * 2 ^ 16 + id

/-- Asks once for a missing burst or message. -/
def State.askOnce (s : State) (key : Nat) (req : List Word) : State :=
  if ahas key s.zg.resends then s
  else (s.modZg fun z => { z with resends := aset key 0 z.resends }).syncQueue req

/-- This member holds the committed message of a number (R147). -/
def State.zgHolds (s : State) (n : Nat) : Bool := s.zg.history.any fun m => syncSeq m == n

/-- Committed messages stay at hand, the last 256 of them, performed or not (R147). -/
def State.zgKeep (s : State) : State :=
  let new := s.zg.pending.filter fun m => decide (syncSeq m < s.zg.committed) && !s.zgHolds (syncSeq m)
  s.modZg fun z => { z with history := (z.history ++ new).filter fun m => decide (z.committed ≤ syncSeq m + 256) }

/-- Performs one committed message; the flag is false while it, and so every later one, must wait. -/
def State.syncPerform (s : State) (m : List Word) : State × Bool :=
  let k := if syncKind m = 6 then copiedKind m else syncKind m
  let own := syncSrc m == s.modid
  match k with
  | 1 =>
    match s.groupWrite (syncSrc m) (syncGa m) ((syncPay m).take (syncLen m)) with
    | none => (s, false)
    | some s => (if own then s.modCore (syncCore m) fun c => c.bstDone (syncGa m) ((syncPay m).take (syncLen m)) else s, true)
  | 2 =>
    match s.zg.bursts.find? fun b => b.crcGood && sameBurst b (syncSrc m) (syncPlane m) (syncBurst m) with
    | none => (s, false)
    | some b =>
      match s.groupItems b.src b.items with
      | none => (s, false)
      | some s =>
        let s := s.modZg fun z => { z with bursts := z.bursts.filter fun x => !sameBurst x b.src b.plane b.burst }
        let s := if own then b.items.foldl (fun s it => s.modCore (syncCore m) fun c => c.bstDone it.1 it.2) s else s
        match b.items with
        | [it] => (s.planeArrival b.src it.1 it.2, true)
        | _ => (s, true)
  | 3 =>
    if syncOpc m < 0x10 ∨ 0x13 < syncOpc m then (s.count 0x0A0, true)
    else if own then s.grpCommit (syncCore m) (syncDetail m / 2 ^ 39 % 4096) (syncTime m)
    else (s, true)
  | 4 =>
    let r := s.groupArrival (syncSrc m) (syncDetail m) (syncTime m)
    (if r.1 then r.2 else r.2.count 0x0A0, true)
  | 5 =>
    if syncPlane m ≠ 0 then
      if syncGa m % 32 = s.modid then
        match s.zg.sentBursts.find? fun b => sameBurst b s.modid (syncPlane m) (syncBurst m) with
        | some b => (s.modZg fun z => { z with outBursts := b :: z.outBursts }, true)
        | none => (s, true)
      else (s, true)
    else
      let n := bitsAt (m.getD 4 0) 0 48
      let lower := s.members.filter fun i => decide (i < s.modid) && i != syncSrc m
      (if s.zgHolds n && !own then s.modZg fun z => { z with copies := aset n lower z.copies } else s, true)
  | _ => (s, true)

/-- What a committed marker waits for. -/
def State.askBurst (s : State) (m : List Word) : State :=
  let k := if syncKind m = 6 then copiedKind m else syncKind m
  if k = 2 ∧ !(s.zg.bursts.any fun b => b.crcGood && sameBurst b (syncSrc m) (syncPlane m) (syncBurst m)) then
    s.askOnce (burstKey (syncSrc m) (syncPlane m) (syncBurst m)) (s.resendReq (syncPlane m) (syncBurst m) (syncSrc m) 0)
  else s

/-- Performs committed messages strictly in sequence order, as far as they can be. -/
def State.zgDrain (s : State) : Nat → State
  | 0 => s
  | f + 1 =>
    if s.zg.committed ≤ s.zg.performed then s
    else match s.zg.pending.find? fun m => syncSeq m == s.zg.performed with
      | none =>
        if s.zg.performed < s.zg.skip then (s.modZg fun z => { z with performed := z.performed + 1 }).zgDrain f
        else if 256 < s.zg.committed - s.zg.performed then s.zgFence
        else s.askOnce (2 ^ 40 + s.zg.performed) (s.resendReq 0 0 0 s.zg.performed)
      | some m =>
        let r := s.syncPerform m
        if !r.2 && decide (s.zg.skip ≤ s.zg.performed) then r.1.askBurst m
        else
          (r.1.modZg fun z => { z with
            performed := z.performed + 1, pending := z.pending.filter fun x => syncSeq x != syncSeq m }).zgDrain f

def State.zgWork (s : State) : State := if s.zgOn then s.zgDrain (s.zg.committed - s.zg.performed + 1) else s

/-! ### Tenures (R144, R147, R148) -/

/-- Splits queued messages into those that may be sent now, at most `n`, and the rest: a marker waits for its burst to be sent, and the later
messages of its core wait with it. -/
def pickMsgs (sent : List Burst) (src : Nat) : Nat → List Nat → List (List Word) → List (List Word) × List (List Word)
  | _, _, [] => ([], [])
  | n, blocked, m :: ms =>
    let late := syncKind m == 2 && !(sent.any fun b => sameBurst b src (syncPlane m) (syncBurst m))
    if n = 0 || late || (blocked.contains (syncCore m) && syncKind m < 4) then
      let r := pickMsgs sent src n (syncCore m :: blocked) ms
      (r.1, m :: r.2)
    else
      let r := pickMsgs sent src (n - 1) blocked ms
      (m :: r.1, r.2)

/-- Numbers and sends a message: its commit time is past the last one's. -/
def State.sendSync (s : State) (m : List Word) : State :=
  let t := max s.now (s.zg.tlast + 1)
  let m := numberMsg s.zg.seq t m
  (s.modZg fun z => { z with seq := (z.seq + 1) % 2 ^ 48, tlast := t, pending := z.pending ++ [m] }).emit 3 m

/-- Notes the wavelengths a frame of this member names (R151). -/
def State.passFrame (s : State) (p sq t : Nat) : State :=
  (s.modZg fun z => { z with sentMask := aset p (s.planeMask p) z.sentMask }).sendFrame (s.mkFrame 1 s.nextMember p sq t)

/-- A tenure on the sync plane: history copies that no lower member has sent, then own messages, 16 in all, and the pass frame (log 50). -/
def State.syncTenure (s : State) : State :=
  let cs := (s.zg.copies.filter fun c => c.2.isEmpty).take 16
  let msgs := cs.filterMap fun n => s.zg.history.find? fun m => syncSeq m == n.1
  let s := s.modZg fun z => { z with copies := z.copies.filter fun c => !cs.contains c }
  let s := msgs.foldl (fun s m =>
    let k := if syncKind m = 6 then m else withKind 6 m
    s.emit 3 (k.set 7 (syncCrc (k.take 7)))) s
  let r := pickMsgs s.zg.sentBursts s.modid (16 - msgs.length) [] s.zg.outbox
  let s := r.1.foldl (fun s m => s.sendSync m) (s.modZg fun z => { z with outbox := r.2 })
  s.passFrame 0 s.zg.seq s.zg.tlast

/-- The words of a burst's items (R148). -/
def itemWords (it : Nat × List Byte) : List Word :=
  BitVec.ofNat 64 it.1 :: BitVec.ofNat 64 it.2.length :: bytesWords ((it.2.length + 15) / 16 * 2) it.2

/-- A burst as it travels. -/
def burstWords (b : Burst) : List Word :=
  let body := b.items.flatMap itemWords
  let head := mkWord [(b.src, 59), (b.plane, 55), (b.burst, 39), (b.ctx, 33), (8 * body.length, 19), (b.items.length, 12)] ::
    List.replicate 7 0
  head ++ body ++ [BitVec.ofNat 64 (crc32c (wordsBytes (head ++ body)))]

/-- A tenure on a data plane: one burst, and the pass frame. The receivers discard the burst of a tenure whose frame names new wavelengths, and
it is sent again; the last 64 bursts sent are kept for resend requests (R148, R151, log 50). -/
def State.dataTenure (s : State) (p : Nat) : State :=
  let lost := aget 0xFF p s.zg.sentMask != s.planeMask p
  let s := match s.zg.outBursts.find? fun b => b.plane == p with
    | none => s
    | some b => (if lost then s else s.modZg fun z => { z with
        outBursts := z.outBursts.erase b
        bursts := if z.bursts.contains b || z.sentBursts.contains b then z.bursts else z.bursts ++ [b]
        sentBursts := if z.sentBursts.contains b then z.sentBursts else (z.sentBursts ++ [b]).drop (z.sentBursts.length + 1 - 64) }).emit 3 (burstWords b)
  s.passFrame p 0 0

def State.tenure (s : State) (p : Nat) : State := if p = 0 then s.syncTenure else s.dataTenure p

/-! ### Quartz across the group (R152, R153) -/

/-- The offset a pass frame of the reference shows. -/
def State.qtzMeasure (s : State) (f : List Word) : State :=
  let ref := (s.members.head?).getD s.modid
  if framePlane f ≠ 0 ∨ frameFrom f ≠ ref ∨ ref = s.modid then s
  else
    let d : Int := (s.now : Int) - ((frameSent f : Int) + (s.zgProp ref : Int))
    let s := s.setFld 0x020 32 16 (wrapInt 16 d)
    let far := decide (d < -32 ∨ 32 < d)
    let near := decide (-8 ≤ d ∧ d ≤ 8)
    let s := s.modZg fun z => { z with delta := d, fast := far || (z.fast && !near) }
    if far then (s.setFld 0x020 63 1 1).ras0 0x12 (wrapInt 16 d * 2 ^ 35) 0 0 else s

/-- Quartz holds or skips one count, at most once in 1,024 cycles, or in 64 while it is out of bound. -/
def execQtzCorrection (s : State) : Host.Outcome State Fault Refusal :=
  let gap := if s.zg.fast then 64 else 1024
  if s.zg.delta = 0 ∨ s.now < s.zg.lastCorr + gap then .next s
  else if 0 < s.zg.delta then
    let d := s.zg.delta - 1
    .next (s.modZg fun z => { z with delta := d, lastCorr := s.now, skipped := false, fast := z.fast && decide (8 < d) })
  else
    let d := s.zg.delta + 1
    .next (({ s with quartz := s.quartz + 2 }).modZg fun z =>
      { z with delta := d, lastCorr := s.now + 2, skipped := true, fast := z.fast && decide (d < -8) })

/-! ### Frames as they arrive (R147) -/

/-- A frame on a plane: its time, and the end of a token-loss procedure. -/
def State.heard (s : State) (p : Nat) : State := s.modZg fun z => { z with lastFrame := aset p s.now z.lastFrame }

/-- Messages up to a number are committed, and those this member holds are performed. -/
def State.zgCommit (s : State) (f : List Word) : State :=
  if framePlane f ≠ 0 then s
  else
    let n := frameSeq f
    let s := if s.zg.committed < n then
        ({ s with moduleFloor := max s.moduleFloor (frameTlast f) }.modZg fun z => { z with committed := n }).zgKeep
      else s
    let s := if s.zg.rejoin then s.modZg fun z => { z with rejoin := false, skip := z.committed } else s
    (s.modZg fun z => { z with seq := n, tlast := frameTlast f }).zgWork

/-- A pass frame ends a tenure: bursts of it are discarded where the frame names new wavelengths, and a lower member that has not answered a
resend request lacks the message (R147, R151). -/
def State.tenureEnds (s : State) (f : List Word) : State :=
  let p := framePlane f
  let src := frameFrom f
  let mask := bitsAt (f.getD 0 0) 38 8
  let key := 32 * p + src
  let mine := fun (b : Burst) => b.src == src && b.plane == p && b.src != s.modid && s.zg.fresh.contains (burstKey b.src b.plane b.burst)
  let lost := aget 0xFF key s.zg.seenMask != mask
  s.modZg fun z => { z with
    bursts := if lost then z.bursts.filter fun b => !mine b else z.bursts
    fresh := z.fresh.filter fun k => k / 2 ^ 16 != src * 16 + p
    seenMask := aset key mask z.seenMask
    copies := if p = 0 then z.copies.map fun c => (c.1, c.2.filter (· != src)) else z.copies }

/-- The loss procedure of a plane is over. -/
def State.endLoss (s : State) (p : Nat) : State :=
  (s.modZg fun z => { z with loss := z.loss.filter fun l => l.plane != p }).setFld 0x020 (16 + p) 1 0

/-- A pass frame: commits, a measurement, and the token where it names this member. -/
def execZgPassFrame (f : List Word) (s : State) : Host.Outcome State Fault Refusal :=
  if !s.frameOk f 1 then .next s
  else
    let p := framePlane f
    let s := s.modZg fun z => { z with echo := z.echo.erase f }
    let s := (((s.heard p).endLoss p).qtzMeasure f).tenureEnds f
    let s := s.zgCommit f
    .next (if frameNext f = s.modid ∧ s.zgOn then s.tenure p else s)

/-- A sync message: kept until its number is committed. -/
def execZgSyncMessage (f : List Word) (s : State) : Host.Outcome State Fault Refusal :=
  if !s.zgOn || f.length ≠ 8 || f.getD 7 0 ≠ syncCrc (f.take 7) || !s.members.contains (syncSrc f) then .next s
  else
    let k := syncKind f
    let bad := k == 0 || decide (6 < k)
    let s := if bad then s.count 0x0A0 else s
    let n := syncSeq f
    let s := if k = 6 then s.modZg fun z => { z with copies := adel n z.copies } else s
    if n < s.zg.performed || s.zg.pending.any fun m => syncSeq m == n then .next s
    else .next (s.modZg fun z => { z with pending := z.pending ++ [f] }).zgKeep.zgWork

/-- A failed resend: the fourth fences the member. -/
def State.badResend (s : State) (b : Burst) : State :=
  let key := burstKey b.src b.plane b.burst
  if !ahas key s.zg.resends then s
  else
    let n := aget 0 key s.zg.resends + 1
    if 4 ≤ n then s.zgFence
    else (s.modZg fun z => { z with resends := aset key n z.resends }).syncQueue (s.resendReq b.plane b.burst b.src 0)

/-- A data burst: at most four wait for their markers from one sender on one plane. -/
def execZgDataBurst (b : Burst) (s : State) : Host.Outcome State Fault Refusal :=
  if !s.zgOn || !s.members.contains b.src || b.src = s.modid then .next s
  else
    let s := s.heard b.plane
    let rest := s.zg.bursts.filter fun x => !sameBurst x b.src b.plane b.burst
    if !b.crcGood ∨ 4 ≤ (rest.filter fun x => x.src == b.src && x.plane == b.plane).length then .next (s.badResend b)
    else
      let key := burstKey b.src b.plane b.burst
      .next (s.modZg fun z => { z with bursts := rest ++ [b], resends := adel key z.resends, fresh := key :: z.fresh.filter (· != key) }).zgWork

/-! ### Token loss (R150) -/

/-- Own messages that were sent and not committed wait again for a tenure; the others are discarded. -/
def State.dropUncommitted (s : State) : State :=
  let open_ := s.zg.pending.filter fun m => decide (s.zg.committed ≤ syncSeq m)
  let mine := (open_.filter fun m => syncSrc m == s.modid && syncKind m != 6).map fun m => ((m.set 1 0).set 2 0).set 7 0
  s.modZg fun z => { z with pending := z.pending.filter fun m => decide (syncSeq m < z.committed), outbox := mine ++ z.outbox }

/-- Own bursts of a plane whose markers are not committed are sent again. -/
def State.resendBursts (s : State) (p : Nat) : State :=
  let again := s.zg.sentBursts.filter fun b => b.plane == p &&
    (s.zg.outbox ++ s.zg.pending).any (fun m => syncKind m == 2 && sameBurst b s.modid (syncPlane m) (syncBurst m)) &&
    !s.zg.outBursts.contains b
  s.modZg fun z => { z with outBursts := again ++ z.outBursts }

/-- The first base time: a multiple of 2^16, at least 2^15 cycles ahead. -/
def lossBase (t : Nat) : Nat := (t + 2 ^ 15 + 2 ^ 16 - 1) / 2 ^ 16 * 2 ^ 16

def State.lossOf (s : State) (p : Nat) : Option Loss := s.zg.loss.find? fun l => l.plane == p

def State.putLoss (s : State) (l : Loss) : State :=
  s.modZg fun z => { z with loss := l :: z.loss.filter fun x => x.plane != l.plane }

/-- A plane has been silent for four rotations. -/
def State.planeSilent (s : State) (p : Nat) : Bool :=
  s.zgOn && (s.lossOf p).isNone && decide (aget 0 p s.zg.lastFrame + 4 * s.trot p ≤ s.now)

def execZgTokenLossTimeout (plane : Nat) (s : State) : Host.Outcome State Fault Refusal :=
  if 16 ≤ plane ∨ !s.planeSilent plane then .next s
  else
    let s := s.setFld 0x020 (16 + plane) 1 1
    let s := if plane = 0 then s.dropUncommitted else s.resendBursts plane
    .next (s.putLoss { plane := plane, base := lossBase s.now, reports := [], reported := false })

/-- Another member's report: before its own base a member adopts the reporter's. -/
def execZgLossReport (f : List Word) (s : State) : Host.Outcome State Fault Refusal :=
  if !s.frameOk f 3 then .next s
  else
    let s := (s.modZg fun z => { z with echo := z.echo.erase f }).heard (framePlane f)
    match s.lossOf (framePlane f) with
    | none => .next s
    | some l =>
      let base := if s.now < l.base then frameTlast f else l.base
      .next (s.putLoss { l with base := base, reports := aset (frameFrom f) (frameSeq f) l.reports })

/-- Cycles between two members' report slots. -/
def State.lossSlot (s : State) : Nat := s.pmax + 80

/-- The number of the last committed message, 2^48 - 1 before the first. -/
def State.lastCommitted (s : State) : Nat := (s.zg.committed + 2 ^ 48 - 1) % 2 ^ 48

def execZgLossReportSlot (plane : Nat) (s : State) : Host.Outcome State Fault Refusal :=
  match s.lossOf plane with
  | none => .next s
  | some l =>
    if l.reported || !s.zgOn || decide (s.now < l.base + s.modid * s.lossSlot) then .next s
    else
      let n := if plane = 0 then s.lastCommitted else 0
      let s := s.putLoss { l with reported := true, reports := aset s.modid n l.reports }
      .next (s.sendFrame (s.mkFrame 3 s.nextMember plane n l.base))

/-- Reports in order of their numbers, the value before the first message lowest. -/
def seqUp (n : Nat) : Nat := (n + 1) % 2 ^ 48

def maxReport (rs : List (Nat × Nat)) : Nat := rs.foldl (fun a r => max a (seqUp r.2)) 0
def minReport (rs : List (Nat × Nat)) : Nat := rs.foldl (fun a r => min a (seqUp r.2)) (2 ^ 48)

/-- The commit time of a number this member holds. -/
def State.timeOf (s : State) (n : Nat) : Nat :=
  match (s.zg.history ++ s.zg.pending).find? fun m => syncSeq m == n with
  | some m => syncTime m
  | none => s.zg.tlast

def execZgRegenerate (plane : Nat) (s : State) : Host.Outcome State Fault Refusal :=
  match s.lossOf plane with
  | none => .next s
  | some l =>
    if !s.zgOn || decide (s.now < l.base + 32 * s.lossSlot) || (l.reports.map (·.1)).head? != some s.modid then .next s
    else
      let c := maxReport l.reports
      .next (s.sendFrame (if plane = 0 then s.mkFrame 2 s.modid 0 c (s.timeOf (c - 1)) else s.mkFrame 2 s.modid plane 0 0))

/-- A regenerate frame: it commits, counts, and its sender holds the token. -/
def execZgRegenerateFrame (f : List Word) (s : State) : Host.Outcome State Fault Refusal :=
  if !s.frameOk f 2 then .next s
  else
    let p := framePlane f
    let s := (s.modZg fun z => { z with echo := z.echo.erase f }).heard p
    let top := fun (l : Loss) => ((l.reports.filter fun r => seqUp r.2 == maxReport l.reports).map (·.1)).head?
    let copies := match s.lossOf p with
      | some l => if p = 0 ∧ top l = some s.modid then
          (List.range (maxReport l.reports - minReport l.reports)).map (· + minReport l.reports) else []
      | none => []
    let s := (s.endLoss p).count (0x600 + 8 * p)
    let s := s.modZg fun z => { z with copies := copies.map (·, []) ++ z.copies.filter fun c => !copies.contains c.1 }
    let s := s.zgCommit f
    .next (if frameNext f = s.modid ∧ s.zgOn then s.tenure p else s)

/-! ### Broadcast stores (R332, R333) -/

/-- An operation of the sending strand that comes before a broadcast store in program order and touches its bytes here is not performed (R91,
R107). -/
def State.bstWaits (s : State) (c : Core) (ga n : Nat) : Bool :=
  match s.gwin ga n with
  | none => false
  | some w => c.ops.any fun o => (o.strand == .s || o.bundle) && o.spans.any fun a =>
      a.place == .mem && decide (s.placed a.addr < w.1 + n ∧ w.1 < s.placed a.addr + a.len)

/-- Sends a broadcast store of core `k`; outside every group it is performed at once, and none is the answer while it must wait. -/
def State.sendBst (s : State) (k ga : Nat) (data : List Byte) (uid : Nat) (sig : Option Nat) : Option State :=
  let push := fun (s : State) => match sig with | some p => s.modCore k fun c => c.pushReserved p | none => s
  let c := s.coreAt k
  if s.bstWaits c ga data.length then none
  else if !s.inGroup then (s.groupWrite s.modid ga data).map push
  else
    let ctx := c.view.ctx
    let b : PendBst :=
      { uid := uid, ga := ga, addr := match s.gwin ga data.length with | some w => w.1 | none => 2 ^ 52, data := data, sig := sig }
    let s := s.modCore k fun c => { c with bsts := c.bsts ++ [b] }
    if data.length ≤ 16 then
      let w := bytesWords 2 (data ++ List.replicate (16 - data.length) 0)
      some (s.syncQueue (s.syncWords 1 ctx data.length 0 0 0 ga (w.getD 0 0, w.getD 1 0) k 0))
    else
      let p := 1 + c.cluster % 15
      let id := aget 0 p s.zg.burstId
      let b : Burst := { src := s.modid, plane := p, burst := id, ctx := ctx, items := [(ga, data)], crcGood := true }
      some (s.queueBurst b (s.syncWords 2 ctx 0 p 0 id 0 (0, 0) k 0))

/-- Writing `ZGCFG` forms the group anew: the planes are watched from now on. A fenced member is readmitted by the host alone: its own messages
that were not committed are sent again, and numbers it lacks up to its first pass frame stay lost to it (R143, R151, log 50). -/
def State.zgForm (s : State) (host : Bool) : State :=
  let s := s.modZg fun z => { z with lastFrame := (List.range 16).map fun p => (p, s.now) }
  if host && s.zgFenced then ((s.setFld 0x020 62 1 0).modZg fun z => { z with rejoin := true, skip := z.committed }).dropUncommitted else s

end Sys2Proof.Machine
end

