-- ==== Sys2Proof/Machine/Futures.lean ====
section
/-! DEFINITION. The future table (R407-R411, R433-R441): calls, their states, records in the prefill queues, and the words of the K strand that use
them. -/

namespace Sys2Proof.Machine

/-! ### Entries (R433, R436) -/

def State.futAt (s : State) (id : Nat) : Option Future := s.futures.find? fun f => f.id == id

def State.putFut (s : State) (f : Future) : State := { s with futures := s.futures.map fun g => if g.id = f.id then f else g }

/-- Frees an entry. -/
def State.freeFut (s : State) (id : Nat) : State := { s with futures := s.futures.filter fun f => f.id != id }

/-- First id and number of entries of a context's slice. -/
def State.slice (s : State) (c : Nat) : Nat × Nat :=
  (s.rfld (ctxBase c + 0x400) 48 16, min 65536 (s.rfld (ctxBase c + 0x400) 31 17))

def State.inSlice (s : State) (c id : Nat) : Bool :=
  let p := s.slice c
  decide (p.1 ≤ id ∧ id < p.1 + p.2 ∧ id < 65536)

/-- Contexts whose slices hold an id. -/
def State.slicesOf (s : State) (id : Nat) : List Nat := (List.range 64).filter fun c => s.inSlice c id

/-- The lowest free id of a context's slice that lies in no other slice. -/
def State.freeSliceId (s : State) (c : Nat) : Nat → Nat → Option Nat
  | 0, _ => none
  | f + 1, id =>
    if !s.inSlice c id then none
    else if (s.futAt id).isNone && s.slicesOf id == [c] then some id
    else s.freeSliceId c f (id + 1)

/-- Number by which a task owns futures: its resident-task number, or 4,096 + its core for a pager task. -/
def ownerNum (r : Option Nat) (core : Nat) : Nat :=
  match r with
  | some n => n
  | none => 4096 + core

def State.myOwner (s : State) : Nat := ownerNum (s.core.task.bind (·.rtn)) s.core.idx

def termState (st : Nat) : Bool := decide (3 ≤ st)

/-- The four states before and after a call is over: pending or dispatched. -/
def Future.open_ (f : Future) : Bool := f.st == 1 || f.st == 2

/-- Adds to `STALE` of a context (R441). -/
def State.stale (s : State) (c : Nat) : State :=
  let a := ctxBase c + 0x420
  s.setFld a 32 32 (min (2 ^ 32 - 1) (s.rfld a 32 32 + 1))

/-- The entry's spans as they lie now: its cluster-store part follows its task; none while the task's save is in progress. -/
def State.futSpans (s : State) (f : Future) (ss : List Span) : Option (List Span) :=
  if 4096 ≤ f.rtn then some ss
  else
    let c : Cons :=
      { idx := 0, stn := 0, ctx := f.ctx, rtn := f.rtn, core := 0, slot := 0, name := 0, relaxed := false, exp := 0, dst := ss, arrived := false }
    match s.landSpans c with
    | none => none
    | some [] => some ss
    | some l => some l

/-- Answers for the spans that lie on other modules: free values (log 26). -/
def State.peerFree (s : State) : Nat → List Span → State × List (Nat × List Byte)
  | _, [] => (s, [])
  | i, p :: ps =>
    if p.place = .peer then
      let d := s.drawBytes p.len
      let r := d.2.peerFree (i + 1) ps
      (r.1, (i, d.1) :: r.2)
    else s.peerFree (i + 1) ps

/-- Reads spans for an agent under one request, with free bytes for other modules: the bytes and whether some are poisoned; none while it
waits at a home agent. -/
def State.gather (s : State) (w : Who) (ss : List Span) : Option (State × List Byte × Bool) :=
  match s.requestSpans w false ss with
  | .error _ => none
  | .ok (s', rss) =>
    let d := s'.peerFree 0 ss
    some (d.1.readGranted w.ctx d.2 0 ss rss)

/-- Number under which a reply's writes to another module are protected. -/
def futUid (id : Nat) : Nat := 2 ^ 42 + id

/-- Writes bytes for an agent; those of another module go there as protected requests. -/
def State.scatter (s : State) (w : Who) (uid : Nat) (ss : List Span) (bs : List Byte) : Option State :=
  match s.writeSpans w (ss.filter fun p => p.place != .peer) (localParts ss bs) with
  | .error _ => none
  | .ok s => some ((peerParts ss bs).foldl (fun s p =>
      s.e2eSend (p.1.addr / 2 ^ 43 % 32) { kind := .write p.2, addr := p.1.addr % 2 ^ 43 } 3328 none uid w.ctx) s)

/-! ### Queues (R434, R435) -/

/-- A prefill queue: ring header and log2 of its data bytes. -/
def State.pqDesc (s : State) (c q : Nat) : Option (Nat × Nat) :=
  let t := s.reg (ctxBase c + 0x410)
  let base := bitsAt t 3 49 * 8
  if bitsAt t 52 12 < q ∨ 1 < region base then none
  else
    let d := s.wordAt (base + 8 * q)
    let size := bitsAt d 52 5
    if bitAt d 63 && bitsAt d 57 6 == 0 && bitsAt d 0 6 == 0 && decide (12 ≤ size ∧ size ≤ 30) then some (bitsAt d 6 46 * 64, size) else none

/-- Number of a queue among all contexts'. -/
def pqKey (c q : Nat) : Nat := 4096 * c + q

/-- The table finds a queue's descriptor not valid: its record numbers start anew (R439, log 52). -/
def State.pqGone (s : State) (c q : Nat) : State := { s with pqSeq := s.pqSeq.filter fun p => p.1 != pqKey c q }

/-- The words of an endpoint entry that is valid for a call of its kind. -/
def State.endpoint (s : State) (c e : Nat) (rem : Bool) : Option (List Word) :=
  let t := s.reg (ctxBase c + 0x418)
  let base := bitsAt t 5 47 * 32
  if bitsAt t 52 12 < e ∨ 1 < region base then none
  else
    let w := s.wordsAt (base + 32 * e) 4
    let w0 := w.getD 0 0
    if bitAt w0 63 && bitAt w0 62 == rem && bitsAt w0 24 30 == 0 && w.getD 3 0 == 0 &&
        (rem || (bitsAt w0 0 24 == 0 && w.getD 1 0 == 0 && w.getD 2 0 == 0)) then some w
    else none

/-! ### Records (R439) -/

/-- Payload bytes of an entry's record. -/
def Future.recLen (f : Future) : Nat := if f.record = some 2 then 4 else f.rlen

/-- Units of 16 bytes it needs. -/
def Future.recUnits (f : Future) : Nat := 1 + (f.recLen + 15) / 16

/-- The queue has room for the entry's record, and no earlier one waits for the same queue. -/
def State.recRoom (s : State) (f : Future) : Bool :=
  match s.pqDesc f.ctx f.pq with
  | none => false
  | some (h, size) =>
    let tail := bitsAt (s.wordAt h) 0 32
    let head := bitsAt (s.wordAt (h + 8)) 0 32
    decide ((tail + 2 ^ 32 - head) % 2 ^ 32 + f.recUnits ≤ 2 ^ (size - 4)) &&
      s.futures.all fun g => !(g.ctx == f.ctx && g.pq == f.pq && g.record.isSome && decide (g.seq < f.seq))

/-- Writes bytes of a record into the ring from unit `u`, unit by unit. -/
def State.ringUnits (s : State) (h size : Nat) : Nat → Nat → List Byte → State
  | 0, _, _ => s
  | n + 1, u, bs =>
    (s.writeMem (h + 64 + 16 * (u % 2 ^ (size - 4))) (bs.take 16)).ringUnits h size n (u + 1) (bs.drop 16)

/-- Pads to a multiple of 16 bytes. -/
def pad16 (bs : List Byte) : List Byte := bs ++ List.replicate ((16 - bs.length % 16) % 16) 0

/-- Writes an entry's record: payload, header, `TAIL`; the entry is then terminal. -/
def State.putRecord (s : State) (f : Future) (st : Nat) (h size : Nat) (data : List Byte) : State :=
  let tail := bitsAt (s.wordAt h) 0 32
  let key := pqKey f.ctx f.pq
  let n := aget 0 key s.pqSeq
  let head := [mkWord [(f.id, 48), (st, 44), (data.length % 2 ^ 32, 0)], BitVec.ofNat 64 (n % 2 ^ 32 * 2 ^ 32)]
  let body := pad16 data
  let s := s.ringUnits h size (body.length / 16) (tail + 1) body
  let s := s.ringUnits h size 1 tail (wordsBytes head)
  let s := s.writeWordAt h (BitVec.ofNat 64 ((tail + f.recUnits) % 2 ^ 32))
  let s := { s with pqSeq := aset key (n + 1) s.pqSeq }
  s.putFut { f with st := if st = 2 then 4 else 3, cpy := false, record := none, pqpos := tail }

/-- The bytes of a remote reply go into the reply range; none while they wait. -/
def State.writeReply (s : State) (f : Future) (bs : List Byte) : Option State :=
  match s.futSpans f (cutSpans f.rplAt 0 bs.length) with
  | none => none
  | some ss => s.scatter (hubWho f.ctx) (futUid f.id) (ss.map fun p => { p with pol := 2 }) bs

/-- A resolution or timeout record is written once its queue has room; waiting for room counts once. The bytes of a reply come before it. -/
def execPrefillRecordWrite (f : Nat) (s : State) : Host.Outcome State Fault Refusal :=
  match s.futAt f with
  | none => .next s
  | some e =>
    match e.reply with
    | some bs => match s.writeReply e bs with
      | some s => .next (s.putFut { e with reply := none })
      | none => .next s
    | none => match e.record, s.pqDesc e.ctx e.pq with
    | some st, some (h, size) =>
      if s.fab.e2e.any fun x => x.uid == futUid f then .next s
      else if !s.recRoom e then
        if e.counted then .next s
        else
          let a := ctxBase e.ctx + 0x420
          .next ((s.setFld a 0 32 (min (2 ^ 32 - 1) (s.rfld a 0 32 + 1))).putFut { e with counted := true })
      else if st = 2 then
        .next (s.putRecord e 2 h size (natBytes 4 (s.rfld (ctxBase e.ctx + 0x408) 40 24)))
      else match s.futSpans e (cutSpans e.rplAt 0 e.rlen) with
        | none => .next s
        | some ss =>
          match s.gather (hubWho e.ctx) (ss.map fun p => { p with pol := 2 }) with
          | some (s', bs, _) => .next (s'.putRecord e st h size bs)
          | none => .next s
    | some _, none => .next (s.pqGone e.ctx e.pq)
    | none, _ => .next s

/-! ### Events at an entry (R437) -/

/-- The entry meets a terminal event: its record is due, in arrival order. -/
def State.futEnds (s : State) (f : Future) (st : Nat) : State :=
  { s.putFut { f with cpy := true, record := some st, seq := s.futSeq, counted := false } with futSeq := s.futSeq + 1 }

/-- The deadline test of the entry in this cycle, in hardware mode. -/
def State.futTick (s : State) (id : Nat) : State :=
  match s.futAt id with
  | some f => if f.hw && f.open_ && !f.cpy && decide (f.deadline ≤ s.now) then s.futEnds f 2 else s
  | none => s

/-- Quartz reaches the deadline: nothing if a record is under way. -/
def execFutureDeadline (f : Nat) (s : State) : Host.Outcome State Fault Refusal :=
  match s.futAt f with
  | some e => if e.open_ && !e.cpy && decide (e.deadline ≤ s.now) then .next (s.futEnds e 2) else .next s
  | none => .next s

/-- The endpoint's send of a remote request is complete. -/
def execRemoteSendComplete (f : Nat) (s : State) : Host.Outcome State Fault Refusal :=
  let s := s.futTick f
  match s.futAt f with
  | some e => if e.st = 1 ∧ e.rem ∧ !e.cpy ∧ e.hw then .next (s.putFut { e with st := 2 }) else .next s
  | none => .next s

/-- A remote tool's reply, tagged with generation and id: it resolves the entry, or is dropped and counted. -/
def execRemoteReply (gen f : Nat) (data : List Byte) (s : State) : Host.Outcome State Fault Refusal :=
  let s := s.futTick f
  let drop : State := match s.futAt f with
    | some e => s.stale e.ctx
    | none => match s.slicesOf f with
      | c :: _ => s.stale c
      | [] => s
  match s.futAt f with
  | none => .next drop
  | some e =>
    if !(e.open_ && !e.cpy && e.rem && e.gen == gen && e.hw) then .next drop
    else
      let n := min data.length e.rplcap
      let st := if n < data.length then 3 else 1
      match s.writeReply e (data.take n) with
      | none => .next (s.futEnds { e with rlen := n, reply := some (data.take n) } st)
      | some s => .next (s.futEnds { e with rlen := n } st)

/-- A terminal future wakes its waiting task: it enters the front section of its ready order (R227). -/
def execFutureWake (f : Nat) (s : State) : Host.Outcome State Fault Refusal :=
  match s.lm.tasks.find? fun t => t.future == some f && t.st == .futwait with
  | none => .next s
  | some t =>
    if !s.futureOver t then .next s
    else
      let s := match s.futAt f with
        | some e => s.putFut { e with wait := false }
        | none => s
      let s := s.modTask t.id fun u => { u with st := .queued, future := none }
      .next (s.modLm fun m => m.enterWoken t.key t.id)

/-! ### FCALL (R407, R408) -/

/-- Checks common to the words of R395: an open job of this level, and an open hold buffer. -/
def beforeEnd (job : Bool) (s : State) : Except Stop Unit := do
  illegalIf (job && (match s.core.openJob with | some o => o.level == s.core.tl | none => false))
  if bitAt s.core.specst 0 then .error (.trap 8 0 s.core.specst) else .ok ()

/-- Reads a range for the executing strand: the bytes as they stand. Poison ends the context. -/
def State.readNow (s : State) (a : Word) (ss : List Span) : Except Stop (State × List Byte) :=
  match s.gather s.core.who ss with
  | none => .error (.wait outside)
  | some (s', bs, bad) => if bad then .error (.fatal 0x84 a) else .ok (s'.countZeros ss, bs)

/-- Checks a range under R22 unless it is empty. -/
def State.rangeOf (s : State) (k : Kind) (a : Word) (n : Nat) : Except Stop (List Span) :=
  if n = 0 then .ok [] else s.access k a n

/-- The request of a remote call leaves through the endpoint (R440). -/
def State.sendRemote (s : State) (f : Future) (ep : List Word) (bs : List Byte) : State :=
  s.emit 1 ([BitVec.ofNat 64 (f.gen % 2 ^ 16 * 2 ^ 16 + f.id), ep.getD 1 0, ep.getD 2 0, BitVec.ofNat 64 (bitsAt (ep.getD 0 0) 0 24),
    BitVec.ofNat 64 f.reqlen] ++ bytesWords ((bs.length + 7) / 8) bs)

/-- The entry of a call that succeeds. -/
def State.newFut (s : State) (w : List Word) (id sbx : Nat) (reqAt rplAt : List Span) : Future :=
  let tmo := bitsAt (w.getD 3 0) 0 40
  let gen := (aget 0 id s.futGen + 1) % 2 ^ 16
  { id := id, st := 1, ctx := s.ctx, rtn := s.myOwner, pq := bitsAt (w.getD 1 0) 32 12, ep := bitsAt (w.getD 1 0) 48 15
    rem := bitAt (w.getD 1 0) 63, wait := false, cpy := false, req := w.getD 0 0, reqlen := bitsAt (w.getD 1 0) 0 32, rlen := 0
    rpl := w.getD 2 0, rplcap := bitsAt (w.getD 3 0) 40 24
    deadline := (s.now + (if tmo = 0 then s.rfld (ctxBase s.ctx + 0x408) 0 40 else tmo)) % 2 ^ 64, gen := gen
    reqAt := reqAt, rplAt := rplAt, sbx := sbx, claimer := none, hw := !s.fmode 1, seq := s.futSeq, record := none, counted := false, pqpos := 0, reply := none }

def semFcall (rd ra : BitVec 5) : Sem := fun s => do
  ready s [rd, ra]
  beforeEnd false s
  let a := s.g ra
  illegalIf (a.toNat % 32 != 0)
  let blk ← s.access .load a 32
  quiet s
  let (s, bs) ← s.readNow a blk
  let w := bytesWords 4 bs
  let req ← s.rangeOf .load (w.getD 0 0) (bitsAt (w.getD 1 0) 0 32)
  let rpl ← s.rangeOf .nreq (w.getD 2 0) (bitsAt (w.getD 3 0) 40 24)
  let rem := bitAt (w.getD 1 0) 63
  let bad := fun (n : Nat) => Except.ok (Done.next (s.setG rd (BitVec.ofNat 64 (2 ^ 63 + n))))
  if bitsAt (w.getD 1 0) 44 4 ≠ 0 then bad 0x43
  else if (s.pqDesc s.ctx (bitsAt (w.getD 1 0) 32 12)).isNone then
    .ok (.next ((s.pqGone s.ctx (bitsAt (w.getD 1 0) 32 12)).setG rd (BitVec.ofNat 64 (2 ^ 63 + 0x41))))
  else match s.endpoint s.ctx (bitsAt (w.getD 1 0) 48 15) rem with
    | none => bad 0x42
    | some ep =>
      match s.freeSliceId s.ctx (s.slice s.ctx).2 (s.slice s.ctx).1 with
      | none => bad 0x40
      | some id => do
        let sc := if rem then 5 else 3
        waitIf (!s.drainedNow s.core.idx sc) outside
        let s := s.widenPins s.core.idx sc
        let f := s.newFut w id (bitsAt (ep.getD 0 0) 54 8) req rpl
        let s := { s with futures := s.futures ++ [f], futSeq := s.futSeq + 1, futGen := aset id f.gen s.futGen }
        let s ← if rem && f.hw then do
            let (s, bs) ← s.readNow (w.getD 0 0) req
            .ok (s.sendRemote f ep bs)
          else .ok s
        .ok (.next (s.setG rd (BitVec.ofNat 64 id)))

/-! ### FAWAIT, FPOLL, FCANCEL (R409-R411) -/

/-- The result word (R410). -/
def Future.result (f : Future) : Word :=
  mkWord [(1, 63), (f.st % 8, 60), (f.pq % 4096, 48), ((if f.st = 5 then 0 else f.pqpos) % 2 ^ 32, 16), (f.id % 2 ^ 16, 0)]

/-- The future a word names: not free, and this task's. -/
def State.myFut (s : State) (v : Word) : Except Stop Future := do
  illegalIf (bitsAt v 16 48 != 0)
  match s.futAt (bitsAt v 0 16) with
  | some f => if f.ctx = s.ctx ∧ f.rtn = s.myOwner ∧ s.slicesOf f.id = [s.ctx] then .ok f else illegal
  | none => illegal

/-- Returns a terminal future's result and frees it. -/
def State.takeResult (s : State) (rd : BitVec 5) (f : Future) : Done := .next ((s.freeFut f.id).setG rd f.result)

/-- `FAWAIT`: an unresolved future gives up the core; the word issues again after the resumption. -/
def semFawait (rd ra : BitVec 5) : Sem := fun s => do
  ready s [rd, ra]
  beforeEnd true s
  illegalIf ((s.core.task.map (·.pager)).getD false)
  let s := s.futTick (bitsAt (s.g ra) 0 16)
  let f ← s.myFut (s.g ra)
  if termState f.st then .ok (s.takeResult rd f)
  else
    let s := s.putFut { f with wait := true }
    let s := s.modTask s.myTaskId fun t => { t with future := some f.id }
    .ok (.at_ (({ s with core := { s.core with preempt := if s.core.preempt = 0 then 4 else s.core.preempt } }).modMe fun t =>
      { t with wait := outside }))

def semFpoll (rd ra : BitVec 5) : Sem := fun s => do
  ready s [rd, ra]
  let s := s.futTick (bitsAt (s.g ra) 0 16)
  let f ← s.myFut (s.g ra)
  if termState f.st then .ok (s.takeResult rd f) else .ok (.next (s.setG rd 0))

/-- `FCANCEL`: a record that is being written completes first; one that waits for room is not written. -/
def semFcancel (rd ra : BitVec 5) : Sem := fun s => do
  ready s [rd, ra]
  let s := s.futTick (bitsAt (s.g ra) 0 16)
  let f ← s.myFut (s.g ra)
  if termState f.st then .ok (s.takeResult rd f)
  else do
    waitIf (f.cpy && s.recRoom f) outside
    .ok (s.takeResult rd { f with st := 5 })

/-- `FCALL`: issues the word (R408). -/
def execFcall (rd : BitVec 5) (ra : BitVec 5) (s : State) : Host.Outcome State Fault Refusal := issue (Instr.fcall rd ra) (semFcall rd ra) s

/-- `FAWAIT`: issues the word (R409). -/
def execFawait (rd : BitVec 5) (ra : BitVec 5) (s : State) : Host.Outcome State Fault Refusal :=
  issue (Instr.fawait rd ra) (semFawait rd ra) s

/-- `FPOLL`: issues the word (R409). -/
def execFpoll (rd : BitVec 5) (ra : BitVec 5) (s : State) : Host.Outcome State Fault Refusal := issue (Instr.fpoll rd ra) (semFpoll rd ra) s

/-- `FCANCEL`: issues the word (R409). -/
def execFcancel (rd : BitVec 5) (ra : BitVec 5) (s : State) : Host.Outcome State Fault Refusal :=
  issue (Instr.fcancel rd ra) (semFcancel rd ra) s

/-! ### Ends of tasks and contexts (R403, R437) -/

/-- Futures a task owns go: what was not terminal is cancelled, and every entry is freed. -/
def State.dropFutures (s : State) (c owner : Nat) : State :=
  { s with futures := s.futures.filter fun f => !(f.ctx == c && f.rtn == owner) }

/-- A context reset frees its entries, with no record. -/
def State.resetFutures (s : State) (c : Nat) : State :=
  { s with futures := s.futures.filter (fun f => f.ctx != c), pqSeq := s.pqSeq.filter fun p => p.1 / 4096 != c }

end Sys2Proof.Machine
end

