-- ==== Sys2Proof/Machine/ContextEvents.lean ====
section
/-! DEFINITION. Ends of tasks (R403), context state (R205, R206, R424), pager cores and replies (R37-R44), and the steps that drive them. -/

namespace Sys2Proof.Machine

/-! ### Ending a task (R403) -/

/-- Everything `TEND` drains is drained: operations, broadcast stores and engine jobs, and, as for any release at `.sys`, every window slot of
the cluster (R111, R403). -/
def State.endDrained (s : State) (k : Nat) : Bool :=
  let c := s.coreAt k
  c.ops.isEmpty && c.bsts.isEmpty && s.drainedNow k 5 && (match s.taskOn k with | some t => (s.jobsOf t.id).all Job.completed | none => true)

/-- A task of its launch has ended; the launch goes with its last. -/
def Lm.countEnded (m : Lm) (key : Option Nat) : Lm :=
  match key with
  | none => m
  | some k =>
    let f : Launch → Launch := fun l => if l.key = k then { l with ended := l.ended + 1 } else l
    { m with launches := (m.launches.map f).filter fun l => decide (l.ended < descCount l.desc) }

/-- Steps 3-5 of `TEND`: pins end, slots and futures go, domains shrink, the number frees and the core is idle. -/
def State.endTask (s : State) (k : Nat) : State :=
  match s.taskOn k with
  | none => s.modCore k Core.idle
  | some t =>
    let c := s.coreAt k
    let s := s.landCore k Core.landAll
    let s := s.endPins k
    let live := (List.range 64).filter fun j => ((c.slots.getD j { st := .free, word := 0 }).st) != .free
    let s := live.foldl (fun s j => s.cancelSlot k j) s
    let s := s.dropFutures t.ctx (ownerNum t.rtn k)
    let s := { s with jobs := s.jobs.filter fun j => !(j.task == t.id && j.completed) }
    let s := { s with jobs := s.jobs.map (Job.dropOf t.id) }
    let s := s.leaveDomains t
    let s := s.modLm fun m =>
      let m := (m.forget fun i => i == t.id).countEnded t.launch
      { m with vacates := m.vacates.filter fun v => v.1 != k }
    let s := s.modCore k Core.idle
    s.superDeliver

/-! ### Context state (R205, R206, R424) -/

def ctxCtl (c : Nat) : Nat := ctxBase c + 0x10

/-- `EN` := 1 makes a FREE context ACTIVE. A descriptor of `PAGERDESC` that failed is not tried again for it (R487). -/
def State.enableCtx (s : State) (c : Nat) : State :=
  let s := s.setFld (ctxCtl c) 62 1 1
  if s.ctxState c = 0 then s.setFld (ctxCtl c) 60 2 1 else s

def execCtxEnable (c : Nat) (s : State) : Host.Outcome State Fault Refusal := if 64 ≤ c then .next s else .next (s.enableCtx c)

def execCtxDisable (c : Nat) (s : State) : Host.Outcome State Fault Refusal :=
  if 64 ≤ c then .next s else .next (s.setFld (ctxCtl c) 62 1 0)

/-- `RST` := 1: an ACTIVE or HALTED context is stopped and is RESETTING. -/
def State.startReset (s : State) (c : Nat) : State :=
  if s.ctxState c = 1 ∨ s.ctxState c = 2 then ((s.stopContext c).resetFutures c).setFld (ctxCtl c) 60 2 3 else s

def execCtxReset (c : Nat) (s : State) : Host.Outcome State Fault Refusal := if 64 ≤ c then .next s else .next (s.startReset c)

/-- Rings of a context lose their `DEPTH` (R51). -/
def State.resetRings (s : State) (c : Nat) : State :=
  let rs := (s.dev.map (·.1)).filter fun a =>
    decide (0x001000000000 ≤ a ∧ a < 0x001800000000 ∧ a % 2 ^ 32 < 0x200000 ∧ 0x200 ≤ a % 0x10000 ∧ a % 0x10000 < 0x300 ∧ a % 16 = 0)
  rs.foldl (fun s a => if s.rfld a 43 6 = c then s.setFld a 25 7 0 else s) s

/-- Inbound windows that belong to a context are disabled (R141). -/
def State.resetWindows (s : State) (c : Nat) : State :=
  let rs := (s.dev.map (·.1)).filter fun a =>
    decide (0x001000000000 ≤ a ∧ a < 0x001800000000 ∧ a % 2 ^ 32 < 0x200000 ∧ 0x100 ≤ a % 0x10000 ∧ a % 0x10000 < 0x180)
  rs.foldl (fun s a => if s.rfld a 22 6 = c then s.setFld a 63 1 0 else s) s

/-- Registers a reset returns to their reset values (R9): bindings, counters and queue status. -/
def ctxResetRegs : List Nat :=
  [0x028, 0x030, 0x038, 0x040, 0x048, 0x050, 0x070, 0x420] ++ (List.range 32).map fun q => 0x200 + 8 * q

def clearRegs (b : Nat) : List Nat → State → State
  | [], s => s
  | o :: os, s => clearRegs b os (s.setReg (b + o) (BitVec.ofNat 64 (regSpec (b + o)).reset))

/-- Requests of a context leave the pager queues (R44). -/
def Lm.dropRequests (m : Lm) (c : Nat) : Lm :=
  let keep := fun (w : List Word) => bitsAt (w.getD 0 0) 42 6 != c
  { m with pagerq := m.pagerq.filter keep, hostq := m.hostq.filter keep }

/-- Step 4 of R206. -/
def State.finishReset (s : State) (c : Nat) : State :=
  let s := s.modLm fun m => m.dropRequests c
  let s := (((s.resetRings c).resetWindows c).agReset c).resetFutures c
  let s := clearRegs (ctxBase c) ctxResetRegs s
  ((s.setFld (ctxCtl c) 62 1 0).setFld (ctxCtl c) 48 8 0).setFld (ctxCtl c) 60 2 0

/-- The reset completes once the context's requests to other modules have their outcome. -/
def execCtxResetComplete (c : Nat) (s : State) : Host.Outcome State Fault Refusal :=
  if 64 ≤ c ∨ s.ctxState c ≠ 3 ∨ s.fab.e2e.any (fun e => e.ctx == c && e.uid != 2 ^ 40) then .next s
  else .next (s.finishReset c)

/-- `KILL` := 1 (R424). -/
def execCtxkillWrite (c : Nat) (s : State) : Host.Outcome State Fault Refusal :=
  if 64 ≤ c then .next s else .next (s.fatalError c (.agent 3329) 0x87 0 0)

/-! ### Pager replies (R41, R42, R399) -/

/-- The `PGREPLY` value of a reply word. -/
def replyValue (v : Word) : Word :=
  mkWord [(1, 63), (bitsAt v 28 3, 56), (bitsAt v 48 16, 40), ((if bitsAt v 28 3 = 3 then bitsAt v 0 28 else 0), 0)]

/-- The register that counts a discarded reply of a sender. -/
def staleReg (src : Option Nat) : Nat :=
  match src with
  | some k => clusterBase (k / 8) + (if k % 8 = 6 then 0x028 else 0x030)
  | none => 0x068

/-- A reply answers a request of the same core, sequence and context. -/
def answers (v : Word) (w : List Word) : Bool :=
  let w0 := w.getD 0 0
  bitsAt w0 31 11 == bitsAt v 31 11 && bitsAt w0 48 16 == bitsAt v 48 16 && bitsAt w0 42 6 == bitsAt v 42 6

/-- A reply finds its requester on a core, in a save area, or not at all; the host answers what it was sent. -/
def State.deliverReply (s : State) (src : Option Nat) (v : Word) : State :=
  let key := (bitsAt v 31 11, bitsAt v 48 16)
  let c := bitsAt v 42 6
  let s := if src.isNone then s.modLm fun m => { m with hostq := m.hostq.filter (fun w => !answers v w) } else s
  match s.allCores.find? fun k => k.task.isSome && k.view.ctx == c && k.pagerOut == some key with
  | some k => s.modCore k.idx fun x => x.takeReply (replyValue v)
  | none =>
    match s.lm.tasks.find? fun t => t.saved && t.ctx == c && t.pagerOut == some key with
    | some t => s.modTask t.id fun u => { u with heldReply := some (replyValue v), pagerOut := none }
    | none => s.count (staleReg src)

def execPagerReplyArrival (src : Option Nat) (v : Word) (s : State) : Host.Outcome State Fault Refusal := .next (s.deliverReply src v)

/-! ### Pager cores (R37) -/

/-- A pager task on a core that is no pager core any more ends once it holds no request and is drained. -/
def State.endPager (s : State) (k : Nat) : State :=
  let c := s.coreAt k
  if (c.task.map (·.pager)).getD false && !s.isPagerCore k && c.pagerHeld.isEmpty && s.endDrained k then s.endTask k else s

def execPagercfgWrite (clu : Nat) (v : Word) (s : State) : Host.Outcome State Fault Refusal :=
  if 256 ≤ clu then .next s
  else
    let s := (s.writeReg (clusterBase clu) v).superDeliver
    .next ((List.range 8).foldl (fun s i => s.endPager (8 * clu + i)) s)

end Sys2Proof.Machine
end

