-- ==== Sys2Proof/Machine/Debug.lean ====
section
/-! DEFINITION. Debug, trace and replay as steps (R442-R455): halts and resumptions, the state windows, samples, and the modes of the Beryl log
points. -/

namespace Sys2Proof.Machine

/-! ### Halt and resume (R443, R444) -/

def execDebugHalt (clu : Nat) (s : State) : Host.Outcome State Fault Refusal := if 256 ≤ clu then .next s else .next (s.haltCluster clu 0)

def execCrossTrigger (clu ch : Nat) (s : State) : Host.Outcome State Fault Refusal :=
  if 256 ≤ clu ∨ 4 ≤ ch ∨ !bitAt (s.reg (debugBase clu)) (43 + ch) then .next s else .next (s.haltCluster clu 1)

/-- The four addresses suit the mode as a `TRET` asks (R421). -/
def pcsOk (split : Bool) (l x σ k : Word) (parked : Bool) : Bool :=
  split || (l.toNat % 16 == 0 && x == l + 4 && σ == l + 8 && k == l + 12 && !parked)

def Core.pcsOk (c : Core) : Bool :=
  c.tl != 0 || Sys2Proof.Machine.pcsOk c.split c.l.pc c.x.pc c.s.pc c.k.pc (c.l.parked || c.x.parked || c.s.parked)

/-- A halted core resumes; addresses that suit no mode raise `ILLEGAL` at the next level (R445). -/
def State.resumeCore (s : State) (k : Nat) : State :=
  let me := s.core.idx
  let s := s.modCore k fun c => { c with halted := false }
  let s := s.trace (s.coreAt k) 2 0 0 0 0
  let c := s.coreAt k
  if c.pcsOk then s
  else
    let s := s.focus k
    let w := match s.codeWord s.core.k.pc with | .ok w => BitVec.ofNat 64 w.toNat | .error _ => 0
    (s.takeTrap .k 1 0 w).focus me

/-- Resumes every halted core of a cluster, and its engines. -/
def State.debugResume (s : State) (g : Nat) : State :=
  let ks := (s.allCores.filter fun c => c.cluster == g && c.halted).map (·.idx)
  let s := (s.setFld (debugBase g + 8) 63 1 0).setFld (debugBase g + 8) 55 8 0
  ks.foldl (fun s k => s.resumeCore k) s

def execDebugResume (clu : Nat) (s : State) : Host.Outcome State Fault Refusal := if 256 ≤ clu then .next s else .next (s.debugResume clu)

/-! ### State windows (R445) -/

/-- The core is halted and its operations are complete. -/
def Core.shown (c : Core) : Bool := c.halted && c.ops.all fun o => o.slot.isSome

/-- A word of a core's state window. -/
def State.windowRead (s : State) (k o : Nat) : Word :=
  let c := s.coreAt k
  if c.shown && decide (o < 0x3F00 ∧ o % 8 = 0) then BitVec.ofNat 64 (bytesNat ((c.area.drop o).take 8)) else 0

/-- Words that the window does not write: occupancy, DONE counts and reserved bytes. -/
def windowRo (o : Nat) : Bool :=
  o == 0x2900 || o == 0x3680 || (decide (0xF00 ≤ o ∧ o < 0x1500) && o % 64 == 24) || decide (0x90 ≤ o ∧ o < 0x100) || o == 0x1F8 ||
    decide (0xEE0 ≤ o ∧ o < 0xF00) || decide (0x2968 ≤ o ∧ o < 0x2A00) || decide (0x3688 ≤ o)

/-- A strand keeps how far its word has come unless its address is changed. -/
def Strand.withProgress (t old : Strand) : Strand :=
  let same := t.pc == old.pc
  { t with
    stage := if same then old.stage else 0, wait := if same then old.wait else 0, rel := old.rel
    fence := if same then old.fence else none }

/-- The core with a word of its window replaced. -/
def Core.windowPut (c : Core) (o : Nat) (v : Word) : Core :=
  let m := cellWrite (cellsFrom 0 c.area) o (wordBytes v)
  let d := c.fromArea m 0
  { d with
    l := d.l.withProgress c.l, x := d.x.withProgress c.x, s := d.s.withProgress c.s, k := d.k.withProgress c.k
    bdone := if d.k.pc = c.k.pc then c.bdone else 0, flight := c.flight
    bank1 := { d.bank1 with stage := c.bank1.stage }, bank2 := { d.bank2 with stage := c.bank2.stage }
    resv := c.resv, ops := c.ops, hold := c.hold, bsts := c.bsts }

def State.windowWrite (s : State) (k o : Nat) (v : Word) : State :=
  if (s.coreAt k).shown && decide (o < 0x3F00 ∧ o % 8 = 0) && !windowRo o then s.modCore k fun c => c.windowPut o v else s

/-! ### Samples (R450) -/

/-- State of a strand as a sample shows it. -/
def Core.sampleCode (c : Core) (σ : StrandId) : Nat :=
  if c.halted then 0xD
  else if σ ≠ .k ∧ c.tl ≠ 0 then 0xC
  else if (c.strand σ).parked then 0xF
  else if !c.wordMode ∧ c.bdone.getLsbD σ.num then 9
  else if 16 ≤ (c.strand σ).wait then 0xB
  else (c.strand σ).wait

/-- Sampling period of a cluster. -/
def State.samplePeriod (s : State) (g : Nat) : Nat := 2 ^ max 10 (min 24 (s.rfld (debugBase g + 0x020) 0 5))

def State.sampleDue (s : State) (g : Nat) : Bool :=
  bitAt (s.reg (debugBase g)) 52 && bitAt (s.reg (debugBase g)) 55 && s.now % s.samplePeriod g == 0

def execDebugSample (clu : Nat) (s : State) : Host.Outcome State Fault Refusal :=
  if 256 ≤ clu ∨ !s.sampleDue clu then .next s
  else
    .next ((s.allCores.filter fun c => c.cluster == clu && s.debugged c).foldl (fun s c =>
      s.trace c 8 0 0 c.k.pc (mkWord ((allStrands.map fun σ => (c.sampleCode σ, 4 * σ.num))))) s)

/-! ### Beryl modes (R452-R455) -/

/-- Atomics the point held are performed in the order of their arrival. -/
def State.releaseHeld (s : State) (hs : List (Nat × Nat × Nat × Nat × Nat)) : State :=
  hs.foldl (fun s h =>
    match s.perform h.1 h.2.1 with
    | .done s' => s'
    | .wait s' => s'
    | .dead s' code v => s'.fatalError (s'.coreAt h.1).view.ctx (.strand h.1 .l) code v 0) s

/-- A log point's mode changes from the one it has. -/
def State.berylMode (s : State) (p mode : Nat) : State :=
  let old := s.logMode p
  let s := if old = 1 then s.logFlush p else s
  let s := if old = 1 then s.setFld (berylBase p + 0x10) 32 32 (s.logPos p) else s
  let held := (s.berylOf p).held
  let s := (s.setFld (berylBase p) 62 2 mode).setFld (berylBase p + 0x10) 0 32 0
  let s := if mode = 1 then s.setFld (berylBase p + 0x18) 63 1 0 else s
  let s := s.setBeryl (Beryl.new p)
  if mode = 2 then s else s.releaseHeld held

def berylPoints : Nat := 208

def execBerylModeOff (p : Nat) (s : State) : Host.Outcome State Fault Refusal :=
  if berylPoints ≤ p then .next s else .next (s.berylMode p 0)

def execBerylModeRecord (p : Nat) (s : State) : Host.Outcome State Fault Refusal :=
  if berylPoints ≤ p then .next s else .next (s.berylMode p 1)

def execBerylModeReplay (p : Nat) (s : State) : Host.Outcome State Fault Refusal :=
  if berylPoints ≤ p then .next s else .next (s.berylMode p 2)

/-- Cycles an atomic may be held. -/
def State.replayLimit (s : State) (p : Nat) : Nat := 2 ^ max 8 (min 24 (s.rfld (berylBase p) 48 5))

/-- A held atomic is past the limit, and its logged requester was admitted to another key since it came. -/
def State.overLimit (s : State) (p : Nat) (b : Beryl) (h : Nat × Nat × Nat × Nat × Nat) : Bool :=
  let key := h.2.2.1
  let rs := (s.logRuns p b (s.logEnd p - s.logPos p) (s.logPos p) 0).1
  match rs.find? fun r => r.key == key && r.left != 0 with
  | some r => decide (h.2.2.2.2 + s.replayLimit p < s.now) &&
      b.admitted.any fun a => a.1 == r.id && a.2.1 != key && decide (h.2.2.2.2 ≤ a.2.2)
  | none => false

def execBerylReplayLimit (p : Nat) (s : State) : Host.Outcome State Fault Refusal :=
  let b := s.berylOf p
  if berylPoints ≤ p ∨ s.logMode p ≠ 2 ∨ b.diverged then .next s
  else match b.held.find? (s.overLimit p b) with
    | some h => .next (s.diverge p h.2.2.1 h.2.2.2.1 1)
    | none => .next s

end Sys2Proof.Machine
end

