-- ==== Sys2Proof/Machine/Hosting.lean ====
section
/-! DEFINITION. Module reset, boot and attestation (R9, R461, R462), power (R463, R464), errors and fencing (R465), eye margins (R467),
replacement requests (R468) and checkpoints (R469). -/

namespace Sys2Proof.Machine

/-! ### Module reset and boot (R9, R461) -/

/-- Module reset: memory, as the latest writes left it, and the model's own fields stay, everything else returns to its reset value (log 31). -/
def execModuleReset (s : State) : Host.Outcome State Fault Refusal :=
  .next { State.reset with
    mem := s.coherentMem, store := s.store, coh := { Coh.reset with poison := s.coh.poison }, free := s.free, agenda := s.agenda, turn := s.turn
    out := s.out }

/-- `BOOTST`: state in bits 62:61. -/
def bootReg : Nat := 0x800

def State.bootState (s : State) : Nat := s.rfld bootReg 61 2

def execBootGo (s : State) : Host.Outcome State Fault Refusal := if s.bootState = 0 then .next (s.setFld bootReg 61 2 1) else .next s

/-- The number of the first failing check of an image, 0 if none fails. -/
def State.bootError (s : State) : Nat :=
  let b := 2 ^ 48
  let hd := s.readMem b 256
  let n := fun (o k : Nat) => bytesNat ((hd.drop o).take k)
  if n 0 4 ≠ 0x4C464B44 then 1
  else if Config.sha256 ((hd.drop 48).take 64) ≠ Config.fusedKeyDigest then 2
  else if !Config.ecdsaVerify ((hd.drop 48).take 64) (Config.sha256 (hd.take 128)) ((hd.drop 128).take 64) then 3
  else if n 4 4 < Config.fusedVersion then 4
  else if Config.sha256 (s.readMem (b + 256) (n 8 8)) ≠ n 16 32 then 5
  else 0

/-- Verification ends: in RUN with every register at its reset value, or LOCKED. -/
def execBootVerify (s : State) : Host.Outcome State Fault Refusal :=
  if s.bootState ≠ 1 then .next s
  else
    let e := s.bootError
    if e = 0 then
      let body := bytesNat (s.readMem (2 ^ 48 + 16) 32)
      .next (({ s with dev := [], ras := { s.ras with body := some body } }).setFld bootReg 61 2 2)
    else .next ((s.setFld bootReg 61 2 3).setFld bootReg 0 8 e)

/-! ### Attestation (R462) -/

/-- The registers a report covers, in address order. -/
def attestRegs : List Nat := [0x000, 0x008, 0x010, 0x018] ++ (List.range 16).map fun n => 0x900 + 8 * n

def execAttestRequest (v : Word) (s : State) : Host.Outcome State Fault Refusal :=
  let s := s.writeReg 0x848 v
  if s.bootState ≠ 2 then .next s
  else .next { s with ras := { s.ras with attest := some (v.toNat, wordsBytes (attestRegs.map s.reg)) } }

def execAttestReport (s : State) : Host.Outcome State Fault Refusal :=
  match s.ras.attest with
  | none => .next s
  | some (a, regs) =>
    let nonce := wordsBytes ([0x850, 0x858, 0x860, 0x868].map s.reg)
    let head := nonce ++ natBytes 32 Config.romDigest ++ natBytes 32 (s.ras.body.getD 0) ++ natBytes 32 (Config.sha256 regs)
    let rep := head ++ Config.ecdsaSign (Config.sha256 head)
    let s := s.writeMem (3 * 2 ^ 48 + a % 2 ^ 48) rep
    .next ({ s with ras := { s.ras with attest := none } }.interrupt 5)

/-! ### Power (R463, R464) -/

/-- The longest wake time a die's contexts tolerate; none = unbounded. -/
def State.tolerance (s : State) (die : Nat) : Option Nat :=
  ((List.range 64).filter fun c => s.ctxState c == 1 && s.dieOk c (256 * die)).foldl (fun m c =>
    let t := s.rfld (ctxBase c + 0x078) 0 32
    match m with
    | none => some t
    | some u => some (min u t)) none

def within (t : Option Nat) (wake : Nat) : Bool :=
  match t with
  | none => true
  | some n => decide (wake ≤ n)

/-- A ring of the cluster is defined. -/
def State.ringsDefined (s : State) (g : Nat) : Bool := (List.range 16).any fun n => s.rfld (ringReg g n) 25 7 != 0

/-- The deepest power state a cluster may be in. -/
def State.deepest (s : State) (g : Nat) : Nat :=
  let t := s.tolerance (g / 32)
  if (s.allCores.any fun c => c.cluster == g && c.task.isSome) ||
      (s.lm.tasks.any fun u => match u.core with | some k => k / 8 == g | none => false) then 0
  else if s.jobs.any fun j => j.clu == g then (if within t 20 then 1 else 0)
  else if !s.ringsDefined g && within t 20000 then 3
  else if within t 2000 then 2
  else if within t 20 then 1
  else 0

def State.setPower (s : State) (g d : Nat) : State :=
  let cl : Cluster := aget Cluster.reset g s.clusters
  let cl' : Cluster := { cl with power := d }
  { s with clusters := aput Cluster.reset g cl' s.clusters }

def execClusterSleep (clu : Nat) (s : State) : Host.Outcome State Fault Refusal :=
  if 256 ≤ clu then .next s else .next (s.setPower clu (s.deepest clu))

def execClusterWake (clu : Nat) (s : State) : Host.Outcome State Fault Refusal :=
  if 256 ≤ clu then .next s else .next (s.setPower clu 0)

/-- Every strand of the core waits on an event or is parked. -/
def Core.allWait (c : Core) : Bool :=
  c.task.isSome && allStrands.all fun σ => (c.strand σ).parked || (c.strand σ).wait != 0 || (σ != .k && c.tl != 0)

/-- The depth a core sleeps at, plus one. -/
def State.sleepDepth (s : State) (c : Core) : Nat :=
  let d := min 2 (bitsAt c.slpcfg 0 2)
  let t := let n := s.rfld (ctxBase c.view.ctx + 0x078) 0 32
           min n ((s.tolerance c.die).getD n)
  let fit := if 600 ≤ t then 2 else if 40 ≤ t then 1 else 0
  let d := min d fit
  1 + (if d = 2 ∧ s.l1Part c.cluster = 0 then 1 else d)

/-- A core falls asleep; at depth 2 the lines of its slice's L1 part are written back and invalidated first (R464). -/
def execCoreSleep (k : Nat) (s : State) : Host.Outcome State Fault Refusal :=
  let c := s.coreAt k
  if c.asleep ≠ 0 ∨ !c.allWait ∨ c.waited < bitsAt c.slpcfg 2 16 then .next s
  else
    let d := s.sleepDepth c
    let s := if d = 3 then s.dropL1Where c.cluster fun sl => sl % 8 == k % 8 else s
    .next (s.modCore k fun x => { x with asleep := d })

def execCoreWake (k : Nat) (s : State) : Host.Outcome State Fault Refusal :=
  .next (s.modCore k fun x => { x with asleep := 0, waited := 0 })

/-- `QTZR … until`: the wait of K is over once Quartz has reached the deadline (R412); the word then issues. -/
def execQtzrWake (k : Nat) (s : State) : Host.Outcome State Fault Refusal :=
  .next (s.modCore k fun x => if x.k.wait = outside then { x with k := { x.k with wait := 0 }, asleep := 0, waited := 0 } else x)

/-! ### Errors and fencing (R465) -/

def execCorrectedError (unit pa : Nat) (s : State) : Host.Outcome State Fault Refusal :=
  .next ((s.count 0x878).ras0 0x01 (unit % 2 ^ 11 * 2 ^ 40) (BitVec.ofNat 64 pa) 0)

/-- Fences a unit: 0 cluster, 1 home agent, 2 lane. -/
def State.fence (s : State) (kind id : Nat) : State :=
  if s.ras.fenced.contains (kind, id) then s
  else
    let s := { s with ras := { s.ras with fenced := (kind, id) :: s.ras.fenced } }
    let s := s.ras0 0x04 (kind * 2 ^ 48 + id % 2 ^ 12 * 2 ^ 36) 0 0
    let s := s.svcreq (if kind = 0 then 2 else if kind = 1 then 3 else 4) id
    if kind = 0 then
      (s.allCores.filter fun c => c.cluster == id && c.task.isSome).foldl (fun s c =>
        s.fatalError c.view.ctx (.strand c.idx .l) 0x84 0 0) s
    else s

/-- An uncorrectable error: kind 0 cluster, 1 home agent, 2 lane with a spare left, 3 lane with none; data of memory are poisoned. -/
def execUncorrectableError (kind id pa : Nat) (s : State) : Host.Outcome State Fault Refusal :=
  let s := if region pa ≤ 3 then s.markPoison pa else s
  let s := s.ras0 0x02 (id % 2 ^ 11 * 2 ^ 40) (BitVec.ofNat 64 pa) 0
  let u := min kind 2
  let es := ((u, id, s.now) :: s.ras.errors).filter fun e => decide (s.now < e.2.2 + 2 ^ 30)
  let n := (es.filter fun e => e.1 == u && e.2.1 == id).length
  let s := { s with ras := { s.ras with errors := es } }
  if n < 16 then .next s
  else if kind = 2 then .next { s with ras := { s.ras with retrain := if s.ras.retrain.contains id then s.ras.retrain else id :: s.ras.retrain } }
  else .next (s.fence u id)

/-! ### Eye margins and channels (R467) -/

/-- The memory channel of a monitor, as its home agent. -/
def channelOf (a : Nat) : Option Nat :=
  if 0x002000000000 ≤ a ∧ a < 0x002800000000 ∧ 0x800 ≤ a % 2 ^ 32 ∧ a % 2 ^ 32 < 0xA00 then
    some (64 * (a / 2 ^ 32 % 16) + (a % 2 ^ 32 - 0x800) / 8)
  else if 0xA00 ≤ a ∧ a < 0xC00 then some (512 + (a - 0xA00) / 8)
  else none

/-- The lane group of a monitor. -/
def laneMon (a : Nat) : Option Nat :=
  if 0x004000000000 ≤ a ∧ a < 0x004200000000 ∧ 0x2000 ≤ a % 2 ^ 32 ∧ a % 2 ^ 32 < 0x2400 then
    let o := a % 2 ^ 32 - 0x2000
    some (28 * (o / 0x100) + o % 0x100 / 8)
  else none

/-- A margin under its threshold asks for retraining; in host-assisted mode the host is interrupted. -/
def State.askRetrain (s : State) (mon : Nat) : State :=
  match channelOf mon with
    | some h =>
      if s.fmode 3 then s.interrupt 4
      else { s with ras := { s.ras with retrain := if s.ras.retrain.contains h then s.ras.retrain else h :: s.ras.retrain } }
    | none => match laneMon mon with
      | some lg => s.retrainLane (s.laneOf lg)
      | none => s

def execEyeMarginLow (mon mv mt : Nat) (s : State) : Host.Outcome State Fault Refusal :=
  if (channelOf mon).isNone && (laneMon mon).isNone then .next s
  else
    let s := (s.setFld mon 40 8 mv).setFld mon 32 8 mt
    if s.rfld mon 24 8 ≤ mv % 256 ∧ s.rfld mon 16 8 ≤ mt % 256 then .next s
    else .next (((s.setFld mon 63 1 1).ras0 0x24 (mon % 2 ^ 16 * 2 ^ 35) 0 0).askRetrain mon)

/-- A memory channel is trained again; its home agent resumes its held requests. -/
def execMemoryChannelRetrainDone (ch : Nat) (s : State) : Host.Outcome State Fault Refusal :=
  .next { s with ras := { s.ras with retrain := s.ras.retrain.filter (· != ch) } }

/-- A Crany Link lane is lost (R468). -/
def execCranyLinkLaneLost (lane : Nat) (s : State) : Host.Outcome State Fault Refusal := .next (s.svcreq 5 lane)

/-! ### Checkpoints (R469) -/

def ckReg : Nat := 0x830

/-- A `GO`: placement stops, and every running task is to be saved. -/
def State.checkStart (s : State) (v : Word) (dir : Nat) : State :=
  let s := s.writeReg ckReg v
  if s.ras.check.isSome then s
  else
    let s := (s.setFld ckReg 62 1 dir).setFld ckReg 52 8 1
    let s := { s with ras := { s.ras with check := some (dir, bitsAt v 60 2, 0) } }
    s.mapCores fun c =>
      match c.task with
      | some t => if !t.pager ∧ c.saving = 0 then { c with preempt := 3 } else c
      | none => c

def execCheckpointSave (v : Word) (s : State) : Host.Outcome State Fault Refusal := .next (s.checkStart v 0)

def execCheckpointRestore (v : Word) (s : State) : Host.Outcome State Fault Refusal := .next (s.checkStart v 1)

/-- The runs of memory a scope covers: address and bytes. -/
def checkRuns (scope : Nat) : List (Nat × Nat) :=
  (if scope % 2 = 1 then [(0, 2 ^ 39)] else []) ++ (if 2 ≤ scope then [(2 ^ 48, 2 ^ 40)] else [])

/-- The SAFE segments in ascending number: decoder, address and bytes. -/
def State.safeRuns (s : State) : List (Nat × Nat × Nat) :=
  ((List.range 16).filter fun n => bitAt (s.reg (0x900 + 8 * n)) 63 && bitAt (s.reg (0x900 + 8 * n)) 61).map fun n =>
    (n, 2 * 2 ^ 48 + s.rfld (0x900 + 8 * n) 20 20 * 2 ^ 28, s.rfld (0x900 + 8 * n) 0 20 * 2 ^ 28)

/-- Pairs memory runs with segment runs: memory address, segment address, bytes. -/
def checkPieces : Nat → List (Nat × Nat) → List (Nat × Nat × Nat) → List (Nat × Nat × Nat)
  | 0, _, _ => []
  | _, [], _ => []
  | _, _, [] => []
  | f + 1, (a, n) :: rs, (i, d, m) :: ds =>
    if n = 0 then checkPieces f rs ((i, d, m) :: ds)
    else if m = 0 then checkPieces f ((a, n) :: rs) ds
    else
      let k := min n m
      (a, d, k) :: checkPieces f ((a + k, n - k) :: rs) ((i, d + k, m - k) :: ds)

/-- Dirty cached units of a range go to memory with their marks; who holds them keeps them. -/
def State.settleDirty (s : State) (base n : Nat) : State :=
  (s.coh.tags.filter fun t => decide (t.cache < 32 ∧ base ≤ 512 * t.sline ∧ 512 * t.sline < base + n)).foldl (fun s t =>
    ((List.range 16).filter t.dirty).foldl (fun s u => s.flushUnit t.ctx t.sline t.grain u) s) s

/-- Copies bytes with their poison marks: cached data are read, and what is cached of the destination goes (R56, R469). -/
def State.copyMarked (s : State) (src n dst : Nat) : State :=
  let s := (s.settleDirty src n).recallRange dst n true
  let old := s.coh.poison.filter fun p => decide (dst ≤ 32 * p ∧ 32 * p < dst + n)
  let new := (s.coh.poison.filter fun p => decide (src ≤ 32 * p ∧ 32 * p < src + n)).map fun p => p + dst / 32 - src / 32
  let s := { s with mem := copyCells s.coherentMem src n s.mem dst }
  s.modCoh fun c => new.foldl (fun c p => c.setMark p true) (old.foldl (fun c p => c.setMark p false) c)

/-- Everything a checkpoint waits for is over: tasks are saved and no migration is in progress. -/
def State.checkReady (s : State) : Bool :=
  s.coh.migs.isEmpty && s.allCores.all fun c => match c.task with | some t => t.pager | none => true

/-- The copy ends: status, record, interrupt, and placement again. -/
def execCheckpointEnd (s : State) : Host.Outcome State Fault Refusal :=
  match s.ras.check with
  | none => .next s
  | some (dir, scope, _) =>
    if !s.checkReady then .next s
    else
      let rs := checkRuns scope
      let ds := s.safeRuns
      let need := (rs.map (·.2)).sum
      let room := (ds.map (·.2.2)).sum
      let dead := ds.any fun d => s.ras.fenced.contains (1, 576 + d.1)
      let st : Nat := if room < need then 0x10 else if dead then 0x11 else 0x02
      let s := if st = 0x02 then (checkPieces 64 rs ds).foldl (fun s p =>
          if dir = 0 then s.copyMarked p.1 p.2.2 p.2.1 else s.copyMarked p.2.1 p.2.2 p.1) s
        else s
      let s := { (s.setFld ckReg 52 8 st) with ras := { s.ras with check := none } }
      .next ((s.ras0 0x30 (st * 2 ^ 43) (BitVec.ofNat 64 (if st = 0x02 then need else 0)) 0).interrupt 5)

end Sys2Proof.Machine
end

