-- ==== Sys2Proof/Machine/Registers.lean ====
section
/-! DEFINITION. Reads and writes of device registers with their side effects (R400, R401), as `MFS`, `MTS`, region 0x8 accesses, the host and
Ferle harts make them. -/

namespace Sys2Proof.Machine

/-! ### Computed reads -/

/-- Word `i` of a pending-interest entry (R166). -/
def Pend.word (p : Pend) (i : Nat) : Word :=
  match i with
  | 0 => BitVec.ofNat 64 p.name
  | 1 => mkWord [((match p.st with | .forwarded => 1 | .noroute => 2 | .producer => 3), 61), (b2n p.relaxed, 60), (p.name / 2 ^ 64 % 2 ^ 32, 0)]
  | 2 => mkWord [(p.cons.head?.getD 0xFFFF % 2 ^ 16, 48), (p.exp % 2 ^ 48, 0)]
  | _ => mkWord [(p.modmask.toNat, 32), (b2n p.ccw, 11), (b2n p.cw, 10), (p.stns.toNat, 0)]

/-- Word `i` of a tile-store entry (R169). -/
def Tile.word (t : Tile) (i : Nat) : Word :=
  match i with
  | 0 => BitVec.ofNat 64 t.name
  | 1 => mkWord [((if t.whole then 2 else 1), 62), (b2n t.prod, 61), (t.size % 1024, 51), (t.name / 2 ^ 64 % 2 ^ 32, 0)]
  | 2 => BitVec.ofNat 64 t.qtz
  | _ => 0

/-- Word `i` of a future entry; its generation outlives it (R436). -/
def State.futureWord (s : State) (n i : Nat) : Word :=
  let f := s.futAt n
  match i, f with
  | 6, none => mkWord [(aget 0 n s.futGen % 2 ^ 16, 48)]
  | _, none => 0
  | 0, some f => mkWord [(f.st, 61), (f.ctx, 55), (f.rtn % 4096, 43), (f.pq, 31), (f.ep, 16), (b2n f.rem, 15), (b2n f.wait, 14), (b2n f.cpy, 13)]
  | 1, some f => f.req
  | 2, some f => mkWord [(f.reqlen, 32), (f.rlen, 0)]
  | 3, some f => f.rpl
  | 4, some f => mkWord [(f.rplcap, 40)]
  | 5, some f => BitVec.ofNat 64 f.deadline
  | 6, some f => mkWord [(f.gen % 2 ^ 16, 48)]
  | _, some _ => 0

/-- A read of a router's tables. -/
def State.routerRead (s : State) (rt o : Nat) (a : Nat) : Word :=
  if 0x400000 ≤ o then
    if tileCap rt ≤ (o - 0x400000) / 32 then 0
    else match s.agate.tiles.find? fun t => t.rt == rt && t.idx == (o - 0x400000) / 32 with
      | some t => t.word (o % 32 / 8)
      | none => 0
  else if 0x200000 ≤ o then
    match (s.pendsAt rt).find? fun p => p.idx == (o - 0x200000) / 32 with
    | some p => p.word (o % 32 / 8)
    | none => 0
  else s.reg a

/-- The value of the register at bits 47:0 of an address. -/
def State.devRead (s : State) (a : Nat) : Word :=
  if a % 8 ≠ 0 then 0
  else if 0x001000000000 ≤ a ∧ a < 0x001800000000 ∧ a % 2 ^ 32 < 0x200000 ∧ a % 0x10000 = 0x018 then
    s.flagor (32 * ((a - 0x001000000000) / 2 ^ 32) + a % 2 ^ 32 / 0x10000)
  else if 0x001000000000 ≤ a ∧ a < 0x001800000000 ∧ 0x400000 ≤ a % 2 ^ 32 then
    s.routerRead ((a - 0x001000000000) / 2 ^ 32) (a % 2 ^ 32 - 0x400000) a
  else if bridgeRouterBase ≤ a ∧ a < 0x004300000000 then s.routerRead 8 (a - bridgeRouterBase) a
  else if futureBase ≤ a ∧ a < futureBase + 64 * 65536 then s.futureWord ((a - futureBase) / 64) (a % 64 / 8)
  else if 0x006000000000 ≤ a ∧ a < 0x006004000000 ∧ 0x10000 ≤ a % 0x40000 ∧ a % 0x40000 < 0x30000 then
    s.windowRead (8 * ((a - 0x006000000000) / 0x40000) + (a % 0x40000 - 0x10000) / 0x4000) (a % 0x4000)
  else s.reg a

/-! ### Writes -/

/-- The state an event that always goes on leaves. -/
def after (s : State) : Host.Outcome State Fault Refusal → State
  | .next t => t
  | _ => s

def State.moduleWrite (s : State) (o : Nat) (v : Word) (host : Bool) : State :=
  match o with
  | 0x018 => (s.writeReg o v).zgForm host
  | 0x048 => after s (execMigSubmit v s)
  | 0x050 => after s (execMigRelease v s)
  | 0x070 => after s (execPagerdescWrite v s)
  | 0x0F8 => (s.writeReg o v).superDeliver
  | 0x800 => if bitAt v 63 then after s (execBootGo s) else s
  | 0x830 => if !bitAt v 63 then s.writeReg o v else s.checkStart v (bitsAt v 62 1)
  | 0x848 => after s (execAttestRequest v s)
  | _ => s.writeReg o v

/-- `CTXCTL`: a reset is taken first, then the value of `EN` (log 32). -/
def State.ctxctlWrite (s : State) (c : Nat) (v : Word) : State :=
  let s := if bitAt v 63 then s.startReset c else s
  if bitAt v 62 then s.enableCtx c else s.setFld (ctxCtl c) 62 1 0

/-- `LQCFG`: `SIZE` and `BASE` keep their values while `EN` = 1 (R210); a queue that is enabled starts with no tail read. -/
def State.lqcfgWrite (s : State) (c q : Nat) (v : Word) : State :=
  let a := lqReg c q
  let old := s.reg a
  let v' := if bitAt old 63 then setBits (setBits v 52 4 (bitsAt old 52 4)) 8 44 (bitsAt old 8 44) else v
  let s := s.writeReg a v'
  if bitAt old 63 && bitAt v 63 then s else s.modLm fun m => { m with tails := adel (32 * c + q) m.tails }

def State.ctxWrite (s : State) (c o : Nat) (v : Word) : State :=
  let a := ctxBase c + o
  if o = 0x010 then s.ctxctlWrite c v
  else if o = 0x018 then (if (s.heldRtns c).isEmpty then (s.writeReg a v).reoffer else s)
  else if o = 0x020 then (s.writeReg a v).recheckPreloads.reoffer
  else if o = 0x058 then (if bitAt v 63 then after s (execCtxkillWrite c s) else s)
  else if 0x100 ≤ o ∧ o < 0x200 then s.lqcfgWrite c ((o - 0x100) / 8) v
  else s.writeReg a v

def State.clusterWrite (s : State) (g o : Nat) (v : Word) : State :=
  let a := clusterBase g + o
  if o = 0 then (after s (execPagercfgWrite g v s)).reoffer
  else if o = 8 then after s (execCssplitWrite g v s)
  else if o = 0x10 then (s.writeReg a v).recheckPreloads.reoffer
  else s.writeReg a v

/-- A write to a router's block: a routing entry makes NOROUTE entries be examined again (R163). -/
def State.routerWrite (s : State) (rt o a : Nat) (v : Word) : State :=
  if 0x100000 ≤ o ∧ o < 0x104000 then (s.writeReg a v).reroute rt else s.writeReg a v

/-- An MSC window: while it is enabled `BASE`, `LEN`, `INIT` and `FILL` keep their values (R60). -/
def State.mscWrite (s : State) (st o : Nat) (v : Word) : State :=
  let n := (o - 0x100) / 16
  if o % 16 = 0 then (if s.mscEnabled st n then s else s.writeReg (mscBase st n) v)
  else if bitAt v 63 then after s (execMscWindowEnable st n v s)
  else after s (execMscWindowDisable st n v s)

/-- A log point's block: a change of `MODE` takes its effects before the other fields change (R453). -/
def State.berylWrite (s : State) (p o : Nat) (v : Word) : State :=
  let a := berylBase p + o
  if o = 0 then
    let m := bitsAt v 62 2
    let m' := if m = 3 then 0 else m
    let s := if s.logMode p = m' then s else s.berylMode p m'
    s.writeReg a v
  else s.writeReg a v

/-- `DBGCTL`: its fields, then a halt or a resumption it asks for (R442). -/
def State.dbgctlWrite (s : State) (g : Nat) (v : Word) : State :=
  let s := s.writeReg (debugBase g) v
  let s := if bitAt v 63 then s.haltCluster g 0 else s
  if bitAt v 62 then s.debugResume g else s

/-- A write of the register at bits 47:0 of an address (R400); only the host's readmits a fenced member (R151). -/
def State.regWrite (s : State) (a : Nat) (v : Word) (host : Bool) : State :=
  if a % 8 ≠ 0 then s
  else if a < 0x1000 then s.moduleWrite a v host
  else if 0x000100000000 ≤ a ∧ a < 0x000100040000 then s.ctxWrite ((a - 0x000100000000) / 0x1000) (a % 0x1000) v
  else if 0x001000000000 ≤ a ∧ a < 0x001800000000 then
    let d := (a - 0x001000000000) / 2 ^ 32
    let o := a % 2 ^ 32
    if o < 0x200000 then s.clusterWrite (32 * d + o / 0x10000) (o % 0x10000) v
    else if 0x400000 ≤ o then s.routerWrite d (o - 0x400000) a v
    else s
  else if 0x002000000000 ≤ a ∧ a < 0x002800000000 ∧ 0x100 ≤ a % 2 ^ 32 ∧ a % 2 ^ 32 < 0x500 then
    s.mscWrite ((a - 0x002000000000) / 2 ^ 32) (a % 2 ^ 32) v
  else if 0x003000200000 ≤ a ∧ a < 0x003000250000 ∧ 0x100 ≤ a % 0x1000 ∧ a % 0x1000 < 0x130 then
    s.berylWrite (128 + (a - 0x003000200000) / 0x1000) (a % 0x1000 - 0x100) v
  else if bridgeRouterBase ≤ a ∧ a < 0x004300000000 then s.routerWrite 8 (a - bridgeRouterBase) a v
  else if 0x006000000000 ≤ a ∧ a < 0x006004000000 then
    let g := (a - 0x006000000000) / 0x40000
    let o := a % 0x40000
    if o = 0 then s.dbgctlWrite g v
    else if 0x10000 ≤ o ∧ o < 0x30000 then s.windowWrite (8 * g + (o - 0x10000) / 0x4000) (o % 0x4000) v
    else s.writeReg a v
  else if 0x006100000000 ≤ a ∧ a < 0x006100080000 then s.berylWrite ((a - 0x006100000000) / 0x1000) (a % 0x1000) v
  else s.writeReg a v

/-- A supervisor's or a hart's write. -/
def State.devWrite (s : State) (a : Nat) (v : Word) : State := s.regWrite a v false

/-- The host writes a device register. -/
def execRegisterWrite (pa : Nat) (v : Word) (s : State) : Host.Outcome State Fault Refusal := .next (s.regWrite (pa % 2 ^ 48) v true)

end Sys2Proof.Machine
end

