-- ==== Sys2Proof/Machine/ScalarMem.lean ====
section
/-! DEFINITION. Scalar loads and stores of every strand (R297), with the region 0x8 forms of `LDD` and `STD` (R401). -/

namespace Sys2Proof.Machine

/-- A word that acted on device registers completes, its token after the strand's earlier writes (R96); one that ended its own task leaves the core as the end left it. -/
def State.deviceDone (s : State) (sig : Option Nat) : Done := if s.core.task.isNone then .at_ s else .next (s.signalAfter sig)

/-- Destination of a load into a g register. -/
def State.regDest (s : State) (rd : BitVec 5) (size : Nat) (signed : Bool) : Dest :=
  if rd = 0 then .none else .reg (s.me.key rd.toNat) size signed

/-- The device register that an access names, if it names one. -/
def devSpan (ss : List Span) : Option Nat := (ss.find? (fun p => p.place == .dev)).map fun p => p.addr % 2 ^ 48

/-- A scalar load of `size` bytes. -/
def scalarLoad (size : Nat) (signed : Bool) (rd ra : BitVec 5) (y : BitVec 2) (off : BitVec 13) : Sem := fun s => do
  ready s [ra, rd]
  let r ← s.syncTake y
  let s := r.1
  let a := effAddr (s.g ra) off size
  let ss ← s.access (if size = 8 then .loadD else .load) a size
  match devSpan ss with
  | some d => .ok ((s.setG rd (s.devRead d)).deviceDone r.2)
  | none => .ok (.next ((s.countZeros ss).issueOp a (.load ss) (s.regDest rd size signed) r.2 0 0))

/-- A scalar store of `size` bytes. -/
def scalarStore (size : Nat) (rd ra : BitVec 5) (y : BitVec 2) (off : BitVec 13) : Sem := fun s => do
  ready s [ra, rd]
  let r ← s.syncTake y
  let s := r.1
  let a := effAddr (s.g ra) off size
  let ss ← s.access (if size = 8 then .storeD else .store) a size
  match devSpan ss with
  | some d => .ok ((s.devWrite d (s.g rd)).deviceDone r.2)
  | none => do
    let s ← s.issueStore a ss (natBytes size (s.g rd).toNat) r.2 0 0
    .ok (.next s)

def semLdb (rd ra : BitVec 5) (sync : BitVec 2) (off : BitVec 13) : Sem := scalarLoad 1 true rd ra sync off
def semLdbu (rd ra : BitVec 5) (sync : BitVec 2) (off : BitVec 13) : Sem := scalarLoad 1 false rd ra sync off
def semLdh (rd ra : BitVec 5) (sync : BitVec 2) (off : BitVec 13) : Sem := scalarLoad 2 true rd ra sync off
def semLdhu (rd ra : BitVec 5) (sync : BitVec 2) (off : BitVec 13) : Sem := scalarLoad 2 false rd ra sync off
def semLdw (rd ra : BitVec 5) (sync : BitVec 2) (off : BitVec 13) : Sem := scalarLoad 4 true rd ra sync off
def semLdwu (rd ra : BitVec 5) (sync : BitVec 2) (off : BitVec 13) : Sem := scalarLoad 4 false rd ra sync off
def semLdd (rd ra : BitVec 5) (sync : BitVec 2) (off : BitVec 13) : Sem := scalarLoad 8 false rd ra sync off
def semStb (rd ra : BitVec 5) (sync : BitVec 2) (off : BitVec 13) : Sem := scalarStore 1 rd ra sync off
def semSth (rd ra : BitVec 5) (sync : BitVec 2) (off : BitVec 13) : Sem := scalarStore 2 rd ra sync off
def semStw (rd ra : BitVec 5) (sync : BitVec 2) (off : BitVec 13) : Sem := scalarStore 4 rd ra sync off
def semStd (rd ra : BitVec 5) (sync : BitVec 2) (off : BitVec 13) : Sem := scalarStore 8 rd ra sync off

/-- `LDB`: issues the word (R297). -/
def execLdb (rd : BitVec 5) (ra : BitVec 5) (sync : BitVec 2) (off : BitVec 13) (s : State) : Host.Outcome State Fault Refusal :=
  issue (Instr.ldb rd ra sync off) (semLdb rd ra sync off) s

/-- `LDBU`: issues the word (R297). -/
def execLdbu (rd : BitVec 5) (ra : BitVec 5) (sync : BitVec 2) (off : BitVec 13) (s : State) : Host.Outcome State Fault Refusal :=
  issue (Instr.ldbu rd ra sync off) (semLdbu rd ra sync off) s

/-- `LDH`: issues the word (R297). -/
def execLdh (rd : BitVec 5) (ra : BitVec 5) (sync : BitVec 2) (off : BitVec 13) (s : State) : Host.Outcome State Fault Refusal :=
  issue (Instr.ldh rd ra sync off) (semLdh rd ra sync off) s

/-- `LDHU`: issues the word (R297). -/
def execLdhu (rd : BitVec 5) (ra : BitVec 5) (sync : BitVec 2) (off : BitVec 13) (s : State) : Host.Outcome State Fault Refusal :=
  issue (Instr.ldhu rd ra sync off) (semLdhu rd ra sync off) s

/-- `LDW`: issues the word (R297). -/
def execLdw (rd : BitVec 5) (ra : BitVec 5) (sync : BitVec 2) (off : BitVec 13) (s : State) : Host.Outcome State Fault Refusal :=
  issue (Instr.ldw rd ra sync off) (semLdw rd ra sync off) s

/-- `LDWU`: issues the word (R297). -/
def execLdwu (rd : BitVec 5) (ra : BitVec 5) (sync : BitVec 2) (off : BitVec 13) (s : State) : Host.Outcome State Fault Refusal :=
  issue (Instr.ldwu rd ra sync off) (semLdwu rd ra sync off) s

/-- `LDD`: issues the word (R297). -/
def execLdd (rd : BitVec 5) (ra : BitVec 5) (sync : BitVec 2) (off : BitVec 13) (s : State) : Host.Outcome State Fault Refusal :=
  issue (Instr.ldd rd ra sync off) (semLdd rd ra sync off) s

/-- `STB`: issues the word (R297). -/
def execStb (rd : BitVec 5) (ra : BitVec 5) (sync : BitVec 2) (off : BitVec 13) (s : State) : Host.Outcome State Fault Refusal :=
  issue (Instr.stb rd ra sync off) (semStb rd ra sync off) s

/-- `STH`: issues the word (R297). -/
def execSth (rd : BitVec 5) (ra : BitVec 5) (sync : BitVec 2) (off : BitVec 13) (s : State) : Host.Outcome State Fault Refusal :=
  issue (Instr.sth rd ra sync off) (semSth rd ra sync off) s

/-- `STW`: issues the word (R297). -/
def execStw (rd : BitVec 5) (ra : BitVec 5) (sync : BitVec 2) (off : BitVec 13) (s : State) : Host.Outcome State Fault Refusal :=
  issue (Instr.stw rd ra sync off) (semStw rd ra sync off) s

/-- `STD`: issues the word (R297). -/
def execStd (rd : BitVec 5) (ra : BitVec 5) (sync : BitVec 2) (off : BitVec 13) (s : State) : Host.Outcome State Fault Refusal :=
  issue (Instr.std rd ra sync off) (semStd rd ra sync off) s

end Sys2Proof.Machine
end

