-- ==== Sys2Proof/Machine/HoldBuffer.lean ====
section
/-! DEFINITION. The hold buffer (R299-R301, R334): holding, `COMMIT` and `ABORT`. -/

namespace Sys2Proof.Machine

/-- The buffer is open. -/
def Core.holding (c : Core) : Bool := bitAt c.specst 0

/-- The core with other held entries; `HELD` counts them. -/
def Core.setHold (c : Core) (h : List Held) : Core := { c with hold := h, specst := setBits c.specst 32 8 h.length }

/-- Entries of a hold buffer. -/
def holdSize : Nat := 32

/-- An entry enters the buffer; a full buffer stalls the strand. -/
def State.hold (s : State) (h : Held) : Except Stop State :=
  if holdSize ≤ s.core.hold.length then .error (.wait outside)
  else .ok { s with core := s.core.setHold (s.core.hold ++ [h]) }

/-- The buffer closes with what it holds discarded. -/
def Core.closeHold (c : Core) : Core := { c.setHold [] with specst := setBits (setBits c.specst 32 8 0) 0 1 0 }

def Core.setSlot (c : Core) (i : Nat) (st : SlotState) (w : Word) : Core := { c with slots := c.slots.set i { st := st, word := w } }

/-- A discarded entry; a held `NREQ` frees its slot (R171). -/
def Core.dropHeld (c : Core) : Held → Core
  | .nreq slot _ _ _ _ => c.setSlot slot .free 0
  | _ => c

/-- Only K executes `COMMIT` and `ABORT`, and only while the buffer is open (R300, R301). -/
def holdCheck (s : State) : Except Stop Unit := do
  illegalIf (s.cur != .k)
  if s.core.holding then .ok () else .error (.trap 8 0 s.core.specst)

def semAbort : Sem := fun s => do
  holdCheck s
  .ok (.next { s with core := (s.core.hold.foldl Core.dropHeld s.core).closeHold })

/-- Everything the core has issued is performed, and window slots within the group are drained: a publish releases (R96, R111). -/
def State.publishFree (s : State) : Bool :=
  (s.core.ops.all fun o => o.slot.isSome) && s.drainedNow s.core.idx (s.effScope 4)

/-- What comes of sending the oldest held entry. -/
inductive HoldSend where
  | wait
  | sent (s : State)
  | dead (s : State)
  deriving DecidableEq, Repr

/-- Sends one held entry, with its reads and its release. -/
def State.sendHeld (s : State) (h : Held) : HoldSend :=
  match h with
  | .nreq slot name rlx life dst =>
    if s.agEnabled && s.nreqRoom s.core.die name rlx then .sent (s.sendInterest s.core.idx slot name rlx life dst) else .wait
  | .npub name src =>
    if !s.agEnabled || !s.publishFree || !s.npubRoom s.core.die name ((src.map (·.len)).sum / 128) then .wait
    else match (s.widenPins s.core.idx (s.effScope 4)).gather s.core.who src with
      | none => .wait
      | some (s', bs, bad) =>
        if bad then .dead (s'.fatalError s'.ctx (.strand s'.core.idx .k) 0x84 (BitVec.ofNat 64 name) 0)
        else .sent ((s'.countZeros src).publish s'.core.idx name bs)
  | .bst ga data uid =>
    if 16 ≤ s.core.bsts.length then .wait
    else match s.sendBst s.core.idx ga data uid none with
      | some s' => .sent s'
      | none => .wait

/-- Sends held entries in buffer order: the state after, and whether the buffer has emptied or the context has ended. -/
def State.sendAll : Nat → State → State × Bool
  | 0, s => (s, s.core.hold.isEmpty)
  | f + 1, s =>
    match s.core.hold with
    | [] => (s, true)
    | h :: hs =>
      match ({ s with core := s.core.setHold hs }).sendHeld h with
      | .wait => (s, false)
      | .sent s' => State.sendAll f s'
      | .dead s' => (s', true)

def semCommit : Sem := fun s => do
  holdCheck s
  let r := s.sendAll (s.core.hold.length + 1)
  if !r.2 then .ok (.hold r.1 outside)
  else if r.1.core.task.isNone then .ok (.at_ r.1)
  else .ok (.next { r.1 with core := r.1.core.closeHold })

/-- `COMMIT`: issues the word (R300). -/
def execCommit (s : State) : Host.Outcome State Fault Refusal := issue (Instr.commit) (semCommit) s

/-- `ABORT`: issues the word (R300). -/
def execAbort (s : State) : Host.Outcome State Fault Refusal := issue (Instr.abort) (semAbort) s

end Sys2Proof.Machine
end

