-- ==== Sys2Proof/Machine/LoadStrand.lean ====
section
/-! DEFINITION. The words of L (R312-R322): vector loads, probes and prefetches, acquire loads, and requests for named tiles. -/

namespace Sys2Proof.Machine

/-! ### Vector loads (R312-R316) -/

/-- Issues a vector load whose entries a queue will take. -/
def State.queueLoad (s : State) (a : Word) (ss : List Span) (dest : Dest) (code n : Nat) (sig : Option Nat) : Except Stop Done := do
  room s code n
  .ok (.next (((s.countZeros ss).pushPending code n s.core.nextUid).issueOp a (.load ss) dest sig 0 0))

def semVld (rsz : BitVec 2) (q : BitVec 1) (ga : BitVec 5) (off : BitVec 13) (sync : BitVec 2) (row : BitVec 1) : Sem := fun s => do
  illegalIf (row == 0 && rsz != 0)
  ready s [ga]
  let r ← s.syncTake sync
  let s := r.1
  let n := if row = 0 then 128 else rszBytes rsz
  let a := effAddr (s.g ga) off 128
  illegalIf (row == 1 && misaligned a n)
  let ss ← s.access .load a n
  let k := max 1 (n / 128)
  s.queueLoad a ss (.queue (12 + q.toNat) k) (12 + q.toNat) k r.2

def semVlds (esz : BitVec 2) (q : BitVec 1) (ga gs : BitVec 5) (off : BitVec 8) (sync : BitVec 2) : Sem := fun s => do
  illegalIf (esz == 3)
  ready s [ga, gs]
  let r ← s.syncTake sync
  let s := r.1
  let e := eszBytes esz
  let a := effAddr (s.g ga) off e
  illegalIf (misaligned a e || misaligned (s.g gs) e)
  let ss ← s.accessAll .load e (strided a (s.g gs) (128 / e))
  s.queueLoad a ss (.queue (12 + q.toNat) 1) (12 + q.toNat) 1 r.2

def semVldb (esz : BitVec 2) (q : BitVec 1) (ga : BitVec 5) (off : BitVec 13) (sync : BitVec 2) : Sem := fun s => do
  illegalIf (esz == 3)
  ready s [ga]
  let r ← s.syncTake sync
  let s := r.1
  let e := eszBytes esz
  let a := effAddr (s.g ga) off e
  illegalIf (misaligned a e)
  let ss ← s.access .load a e
  s.queueLoad a ss (.bcast (12 + q.toNat) e) (12 + q.toNat) 1 r.2

/-! ### Probes and prefetches (R35, R317, R318) -/

/-- The access kind whose rights an intent takes. -/
def intentKind (i : BitVec 2) : Kind := if i = 0 then .load else if i = 1 then .store else if i = 2 then .amo else .fetch

def semProbe (gl : BitVec 3) (ga : BitVec 5) (off : BitVec 13) (sync : BitVec 2) (intent : BitVec 2) : Sem := fun s => do
  ready s [ga, g3 gl]
  let r ← s.syncTake sync
  let s := r.1
  let n := (s.g (g3 gl)).toNat
  let a := effAddr (s.g ga) off 128
  if n = 0 then .ok (.next (s.signalAfter r.2))
  else match s.checks s.core.view s.core.cluster (intentKind intent) true a n with
    | .ok _ => .ok (.next (s.signalAfter r.2))
    | .error d => .error (.trap 7 (d.1 + 256 * intent.toNat) (a + BitVec.ofNat 64 d.2))

/-- Brings the unit of `n` bytes at an address to a level: 0 L1, 1 L2, 2 MSC; lower levels replace those that are not allocated. -/
def State.prefetchUnit (s : State) (w : Who) (pa n grain pol lvl : Nat) (write : Bool) : State :=
  let lv := s.allocs w pa pol
  let fill := fun (l1 : Bool) =>
    match s.cached w pa grain pol l1 write with
    | .ok s' => s'
    | .error _ => s
  match s.homeOf pa with
  | .own =>
    if s.channelHeld pa then s
    else if lvl = 0 && lv.1 then fill true
    else if lvl ≤ 1 && lv.2 then fill false
    else if region pa = 0 ∧ pol ≠ 2 then s.mscTouch pa n pol false
    else s
  | _ => s

/-- Prefetches a run of bytes, unit by unit. -/
def State.prefetchRun (s : State) (w : Who) (grain pol lvl : Nat) (write : Bool) : Nat → Nat → Nat → State
  | 0, _, _ => s
  | f + 1, pa, n =>
    if n = 0 then s
    else
      let k := s.unitRun pa grain n
      (s.prefetchUnit w pa k grain pol lvl write).prefetchRun w grain pol lvl write f (pa + k) (n - k)

/-- `PREF` of checked spans; one that is not wholly in memory is dropped. -/
def State.prefetch (s : State) (lvl : Nat) (write : Bool) (ss : List Span) : State :=
  if ss.all fun p => p.place == .mem then
    ss.foldl (fun s p => s.prefetchRun s.core.who p.grain p.pol lvl write 8 p.addr p.len) s
  else s

def semPref (lvl : BitVec 3) (ga : BitVec 5) (off : BitVec 13) (sync : BitVec 2) (wr : BitVec 1) : Sem := fun s => do
  illegalIf (decide (3 ≤ lvl.toNat))
  ready s [ga]
  let r ← s.syncTake sync
  let s := r.1
  let s := match s.checks s.core.view s.core.cluster (if wr = 1 then .store else .load) false (effAddr (s.g ga) off 128) 128 with
    | .ok ss => s.prefetch lvl.toNat (wr == 1) ss
    | .error _ => s
  .ok (.next (s.signalAfter r.2))

/-! ### Acquire loads (R319) -/

def semLda (gd : BitVec 3) (ga : BitVec 5) (scope ord : BitVec 3) (off : BitVec 7) (sync sz : BitVec 2) : Sem := fun s => do
  illegalIf (decide (6 ≤ scope.toNat) || !(ord == 1 || ord == 4) || decide (2 ≤ sz.toNat))
  ready s [ga, g3 gd]
  let r ← s.syncTake sync
  let s := r.1
  let n := szBytes sz
  let a := effAddr (s.g ga) off n
  illegalIf (misaligned a n)
  let ss ← s.access .load a n
  .ok (.next ((s.countZeros ss).issueOp a (.load ss) (s.regDest (g3 gd) n true) r.2 ord.toNat scope.toNat))

/-- `VLD`: issues the word (R312). -/
def execVld (rsz : BitVec 2) (q : BitVec 1) (ga : BitVec 5) (off : BitVec 13) (sync : BitVec 2) (row : BitVec 1) (s : State) : Host.Outcome State Fault Refusal :=
  issue (Instr.vld rsz q ga off sync row) (semVld rsz q ga off sync row) s

/-- `VLDS`: issues the word (R314). -/
def execVlds (esz : BitVec 2) (q : BitVec 1) (ga : BitVec 5) (gs : BitVec 5) (off : BitVec 8) (sync : BitVec 2) (s : State) : Host.Outcome State Fault Refusal :=
  issue (Instr.vlds esz q ga gs off sync) (semVlds esz q ga gs off sync) s

/-- `VLDB`: issues the word (R315). -/
def execVldb (esz : BitVec 2) (q : BitVec 1) (ga : BitVec 5) (off : BitVec 13) (sync : BitVec 2) (s : State) : Host.Outcome State Fault Refusal :=
  issue (Instr.vldb esz q ga off sync) (semVldb esz q ga off sync) s

/-- `PROBE`: issues the word (R35). -/
def execProbe (gl : BitVec 3) (ga : BitVec 5) (off : BitVec 13) (sync : BitVec 2) (intent : BitVec 2) (s : State) : Host.Outcome State Fault Refusal :=
  issue (Instr.probe gl ga off sync intent) (semProbe gl ga off sync intent) s

/-- `PREF`: issues the word (R318). -/
def execPref (lvl : BitVec 3) (ga : BitVec 5) (off : BitVec 13) (sync : BitVec 2) (wr : BitVec 1) (s : State) : Host.Outcome State Fault Refusal :=
  issue (Instr.pref lvl ga off sync wr) (semPref lvl ga off sync wr) s

/-- `LDA`: issues the word (R319). -/
def execLda (gd : BitVec 3) (ga : BitVec 5) (scope : BitVec 3) (ord : BitVec 3) (off : BitVec 7) (sync : BitVec 2) (sz : BitVec 2) (s : State) : Host.Outcome State Fault Refusal :=
  issue (Instr.lda gd ga scope ord off sync sz) (semLda gd ga scope ord off sync sz) s

/-! ### Named tiles (R320-R322) -/

/-- The namespace must admit the word: bit 61 for a request, 62 for a publish; a failure ends the context with `HPERM` (R159). -/
def State.nsCheck (s : State) (name bit : Nat) : Except Stop Unit :=
  if s.nsAdmits (nameNs name) s.ctx bit then .ok () else .error (.fatal 0x82 (BitVec.ofNat 64 name))

/-- Bytes of a destination length field; 0 means 512 units. -/
def destBytes (v : Word) : Nat := if bitsAt v 16 10 = 0 then 512 * 128 else 128 * bitsAt v 16 10

def State.slot (s : State) (i : BitVec 6) : ArrSlot := s.core.slots.getD i.toNat { st := .free, word := 0 }

def semNreq (gl : BitVec 3) (ga gn : BitVec 5) (slot : BitVec 6) (rlx : BitVec 1) (sync : BitVec 2) : Sem := fun s => do
  ready s [ga, gn, gn + 1, g3 gl]
  let r ← s.syncTake sync
  let s := r.1
  waitIf (!s.agEnabled) outside
  let v := s.g (g3 gl)
  match s.namePair gn with
  | none => illegal
  | some name => do
    illegalIf (bitsAt v 26 38 != 0 || decide (512 < bitsAt v 16 10))
    illegalIf ((s.slot slot).st != .free)
    s.nsCheck name 61
    let dst ← s.access .nreq (s.g ga) (destBytes v)
    let life := if bitsAt v 0 16 = 0 then s.defLife (nameNs name) else bitsAt v 0 16
    if s.core.holding then do
      let s ← s.hold (.nreq slot.toNat name (rlx == 1) life dst)
      .ok (.next (({ s with core := s.core.setSlot slot.toNat .held 0 }).signalAfter r.2))
    else do
      waitIf (!s.nreqRoom s.core.die name (rlx == 1)) outside
      .ok (.next ((s.sendInterest s.core.idx slot.toNat name (rlx == 1) life dst).signalAfter r.2))

/-- The arrival word is taken: the slot is free and its record gone. -/
def State.takeSlot (s : State) (i : BitVec 6) : State :=
  let s' := match s.consOf s.core.idx i.toNat with
    | some c => s.dropCons c
    | none => s
  { s' with core := s'.core.setSlot i.toNat .free 0 }

/-- `NWAIT`; the trap of an EXPIRED slot leaves the word's token where it is, since the word does not issue (R174, R271). -/
def semNwait (gd : BitVec 3) (slot : BitVec 6) (sync : BitVec 2) : Sem := fun s0 => do
  ready s0 [g3 gd]
  let r ← s0.syncTake sync
  let s := r.1
  match (s.slot slot).st with
  | .free => illegal
  | .held | .pending => .error (.wait outside)
  | .expired => s0.trapWith 9 0 (s.slot slot).word (fun s => s.takeSlot slot)
  | .arrived => .ok (.next (((s.takeSlot slot).setG (g3 gd) (s.slot slot).word).signalAfter r.2))

/-- A held request of a slot. -/
def Held.isReq (i : Nat) : Held → Bool
  | .nreq slot _ _ _ _ => slot == i
  | _ => false

def semNcancel (slot : BitVec 6) (sync : BitVec 2) : Sem := fun s => do
  let r ← s.syncTake sync
  let s := r.1
  match (s.slot slot).st with
  | .free => illegal
  | .held =>
    let c := s.core.setHold (s.core.hold.filter fun h => !h.isReq slot.toNat)
    .ok (.next (({ s with core := c.setSlot slot.toNat .free 0 }).signalAfter r.2))
  | _ => .ok (.next ((s.cancelSlot s.core.idx slot.toNat).signalAfter r.2))

/-- `NREQ`: issues the word (R320). -/
def execNreq (gl : BitVec 3) (ga : BitVec 5) (gn : BitVec 5) (slot : BitVec 6) (rlx : BitVec 1) (sync : BitVec 2) (s : State) : Host.Outcome State Fault Refusal :=
  issue (Instr.nreq gl ga gn slot rlx sync) (semNreq gl ga gn slot rlx sync) s

/-- `NWAIT`: issues the word (R321). -/
def execNwait (gd : BitVec 3) (slot : BitVec 6) (sync : BitVec 2) (s : State) : Host.Outcome State Fault Refusal :=
  issue (Instr.nwait gd slot sync) (semNwait gd slot sync) s

/-- `NCANCEL`: issues the word (R322). -/
def execNcancel (slot : BitVec 6) (sync : BitVec 2) (s : State) : Host.Outcome State Fault Refusal :=
  issue (Instr.ncancel slot sync) (semNcancel slot sync) s

end Sys2Proof.Machine
end

