-- ==== Sys2Proof/Machine/StoreStrand.lean ====
section
/-! DEFINITION. The words of S (R323-R333): vector stores, release stores, atomics, row adds, publishes and broadcast stores. -/

namespace Sys2Proof.Machine

/-! ### Vector stores (R323, R324) -/

/-- q2. -/
def q2 : Nat := 14

def semVst (vsz : BitVec 2) (ga : BitVec 5) (off : BitVec 13) (sync : BitVec 2) : Sem := fun s => do
  illegalIf (vsz == 3)
  ready s [ga]
  let r ← s.syncTake sync
  let s := r.1
  let a := effAddr (s.g ga) off 128
  let ss ← s.access .store a (vszBytes vsz)
  let (es, s) ← s.popLanded q2 1
  let s ← s.issueStore a ss ((es.flatMap entryBytes).take (vszBytes vsz)) r.2 0 0
  .ok (.next s)

def semVsts (esz : BitVec 2) (ga gs : BitVec 5) (off : BitVec 8) (sync : BitVec 2) : Sem := fun s => do
  illegalIf (esz == 3)
  ready s [ga, gs]
  let r ← s.syncTake sync
  let s := r.1
  let e := eszBytes esz
  let a := effAddr (s.g ga) off e
  illegalIf (misaligned a e || misaligned (s.g gs) e)
  let ss ← s.accessAll .store e (strided a (s.g gs) (128 / e))
  let (es, s) ← s.popLanded q2 1
  let s ← s.issueStore a ss (es.flatMap entryBytes) r.2 0 0
  .ok (.next s)

/-! ### Release stores and atomics (R325-R328) -/

def semStl (gd : BitVec 3) (ga : BitVec 5) (scope ord : BitVec 3) (off : BitVec 7) (sync sz : BitVec 2) : Sem := fun s => do
  illegalIf (decide (6 ≤ scope.toNat) || !(ord == 2 || ord == 4) || decide (2 ≤ sz.toNat))
  ready s [ga, g3 gd]
  let r ← s.syncTake sync
  let s := r.1
  let n := szBytes sz
  let a := effAddr (s.g ga) off n
  illegalIf (misaligned a n)
  let ss ← s.access .store a n
  let s ← s.issueStore a ss (natBytes n (s.g (g3 gd)).toNat) r.2 ord.toNat scope.toNat
  .ok (.next s)

/-- The shape of the eight atomics. -/
def amo (op : AmoOp) (gd : BitVec 3) (ga : BitVec 5) (scope ord : BitVec 3) (gs : BitVec 5) (sync sz : BitVec 2) : Sem := fun s => do
  illegalIf (decide (6 ≤ scope.toNat) || decide (5 ≤ ord.toNat) || decide (2 ≤ sz.toNat))
  ready s [ga, gs, g3 gd]
  let r ← s.syncTake sync
  let s := r.1
  let n := szBytes sz
  let a := s.g ga
  illegalIf (misaligned a n)
  let ss ← s.access .amo a n
  .ok (.next (s.issueOp a (.amo op ss n (s.g gs) (s.g (g3 gd))) (s.regDest (g3 gd) n true) r.2 ord.toNat scope.toNat))

def semAmoadd (gd : BitVec 3) (ga : BitVec 5) (scope ord : BitVec 3) (gs : BitVec 5) (sync sz : BitVec 2) : Sem :=
  amo .add gd ga scope ord gs sync sz

def semAmomin (gd : BitVec 3) (ga : BitVec 5) (scope ord : BitVec 3) (gs : BitVec 5) (u : BitVec 1) (sync sz : BitVec 2) : Sem :=
  amo (if u = 1 then .minu else .min) gd ga scope ord gs sync sz

def semAmomax (gd : BitVec 3) (ga : BitVec 5) (scope ord : BitVec 3) (gs : BitVec 5) (u : BitVec 1) (sync sz : BitVec 2) : Sem :=
  amo (if u = 1 then .maxu else .max) gd ga scope ord gs sync sz

def semAmoand (gd : BitVec 3) (ga : BitVec 5) (scope ord : BitVec 3) (gs : BitVec 5) (sync sz : BitVec 2) : Sem :=
  amo .and gd ga scope ord gs sync sz

def semAmoor (gd : BitVec 3) (ga : BitVec 5) (scope ord : BitVec 3) (gs : BitVec 5) (sync sz : BitVec 2) : Sem :=
  amo .or gd ga scope ord gs sync sz

def semAmoxor (gd : BitVec 3) (ga : BitVec 5) (scope ord : BitVec 3) (gs : BitVec 5) (sync sz : BitVec 2) : Sem :=
  amo .xor gd ga scope ord gs sync sz

def semAmoswp (gd : BitVec 3) (ga : BitVec 5) (scope ord : BitVec 3) (gs : BitVec 5) (sync sz : BitVec 2) : Sem :=
  amo .swp gd ga scope ord gs sync sz

def semAmocas (gd : BitVec 3) (ga : BitVec 5) (scope ord : BitVec 3) (gs : BitVec 5) (sync sz : BitVec 2) : Sem :=
  amo .cas gd ga scope ord gs sync sz

/-- `VRADD` (R330). -/
def semVradd (rsz : BitVec 2) (ty : BitVec 1) (ga : BitVec 5) (scope ord : BitVec 3) (off : BitVec 7) (sync : BitVec 2) (sat : BitVec 1) :
    Sem := fun s => do
  illegalIf (decide (6 ≤ scope.toNat) || !(ord == 0 || ord == 2))
  ready s [ga]
  let r ← s.syncTake sync
  let s := r.1
  let n := rszBytes rsz
  let a := effAddr (s.g ga) off n
  illegalIf (misaligned a n)
  let ss ← s.access .amo a n
  let (es, s) ← s.popLanded q2 (max 1 (n / 128))
  let row := (es.flatMap entryBytes).take n
  .ok (.next (s.issueOp a (.vradd ss (if ty = 0 then 2 else 4) row (sat == 1)) .none r.2 ord.toNat scope.toNat))

/-- `VST`: issues the word (R323). -/
def execVst (vsz : BitVec 2) (ga : BitVec 5) (off : BitVec 13) (sync : BitVec 2) (s : State) : Host.Outcome State Fault Refusal :=
  issue (Instr.vst vsz ga off sync) (semVst vsz ga off sync) s

/-- `VSTS`: issues the word (R324). -/
def execVsts (esz : BitVec 2) (ga : BitVec 5) (gs : BitVec 5) (off : BitVec 8) (sync : BitVec 2) (s : State) : Host.Outcome State Fault Refusal :=
  issue (Instr.vsts esz ga gs off sync) (semVsts esz ga gs off sync) s

/-- `STL`: issues the word (R325). -/
def execStl (gd : BitVec 3) (ga : BitVec 5) (scope : BitVec 3) (ord : BitVec 3) (off : BitVec 7) (sync : BitVec 2) (sz : BitVec 2) (s : State) : Host.Outcome State Fault Refusal :=
  issue (Instr.stl gd ga scope ord off sync sz) (semStl gd ga scope ord off sync sz) s

/-- `AMOADD`: issues the word (R326). -/
def execAmoadd (gd : BitVec 3) (ga : BitVec 5) (scope : BitVec 3) (ord : BitVec 3) (gs : BitVec 5) (sync : BitVec 2) (sz : BitVec 2) (s : State) : Host.Outcome State Fault Refusal :=
  issue (Instr.amoadd gd ga scope ord gs sync sz) (semAmoadd gd ga scope ord gs sync sz) s

/-- `AMOMIN`: issues the word (R326). -/
def execAmomin (gd : BitVec 3) (ga : BitVec 5) (scope : BitVec 3) (ord : BitVec 3) (gs : BitVec 5) (u : BitVec 1) (sync : BitVec 2) (sz : BitVec 2) (s : State) : Host.Outcome State Fault Refusal :=
  issue (Instr.amomin gd ga scope ord gs u sync sz) (semAmomin gd ga scope ord gs u sync sz) s

/-- `AMOMAX`: issues the word (R326). -/
def execAmomax (gd : BitVec 3) (ga : BitVec 5) (scope : BitVec 3) (ord : BitVec 3) (gs : BitVec 5) (u : BitVec 1) (sync : BitVec 2) (sz : BitVec 2) (s : State) : Host.Outcome State Fault Refusal :=
  issue (Instr.amomax gd ga scope ord gs u sync sz) (semAmomax gd ga scope ord gs u sync sz) s

/-- `AMOAND`: issues the word (R326). -/
def execAmoand (gd : BitVec 3) (ga : BitVec 5) (scope : BitVec 3) (ord : BitVec 3) (gs : BitVec 5) (sync : BitVec 2) (sz : BitVec 2) (s : State) : Host.Outcome State Fault Refusal :=
  issue (Instr.amoand gd ga scope ord gs sync sz) (semAmoand gd ga scope ord gs sync sz) s

/-- `AMOOR`: issues the word (R326). -/
def execAmoor (gd : BitVec 3) (ga : BitVec 5) (scope : BitVec 3) (ord : BitVec 3) (gs : BitVec 5) (sync : BitVec 2) (sz : BitVec 2) (s : State) : Host.Outcome State Fault Refusal :=
  issue (Instr.amoor gd ga scope ord gs sync sz) (semAmoor gd ga scope ord gs sync sz) s

/-- `AMOXOR`: issues the word (R326). -/
def execAmoxor (gd : BitVec 3) (ga : BitVec 5) (scope : BitVec 3) (ord : BitVec 3) (gs : BitVec 5) (sync : BitVec 2) (sz : BitVec 2) (s : State) : Host.Outcome State Fault Refusal :=
  issue (Instr.amoxor gd ga scope ord gs sync sz) (semAmoxor gd ga scope ord gs sync sz) s

/-- `AMOSWP`: issues the word (R326). -/
def execAmoswp (gd : BitVec 3) (ga : BitVec 5) (scope : BitVec 3) (ord : BitVec 3) (gs : BitVec 5) (sync : BitVec 2) (sz : BitVec 2) (s : State) : Host.Outcome State Fault Refusal :=
  issue (Instr.amoswp gd ga scope ord gs sync sz) (semAmoswp gd ga scope ord gs sync sz) s

/-- `AMOCAS`: issues the word (R326). -/
def execAmocas (gd : BitVec 3) (ga : BitVec 5) (scope : BitVec 3) (ord : BitVec 3) (gs : BitVec 5) (sync : BitVec 2) (sz : BitVec 2) (s : State) : Host.Outcome State Fault Refusal :=
  issue (Instr.amocas gd ga scope ord gs sync sz) (semAmocas gd ga scope ord gs sync sz) s

/-- `VRADD`: issues the word (R330). -/
def execVradd (rsz : BitVec 2) (ty : BitVec 1) (ga : BitVec 5) (scope : BitVec 3) (ord : BitVec 3) (off : BitVec 7) (sync : BitVec 2) (sat : BitVec 1) (s : State) : Host.Outcome State Fault Refusal :=
  issue (Instr.vradd rsz ty ga scope ord off sync sat) (semVradd rsz ty ga scope ord off sync sat) s

/-! ### Publishing (R331) -/

def semNpub (gz : BitVec 3) (ga gn : BitVec 5) (sync : BitVec 2) : Sem := fun s => do
  ready s [ga, gn, gn + 1, g3 gz]
  let r ← s.syncTake sync
  let s := r.1
  waitIf (!s.agEnabled) outside
  let v := s.g (g3 gz)
  match s.namePair gn with
  | none => illegal
  | some name => do
    illegalIf (gz == 0 || bitsAt v 10 54 != 0 || bitsAt v 0 10 == 0 || decide (512 < bitsAt v 0 10))
    s.nsCheck name 62
    let a := s.g ga
    let src ← s.access .npub a (128 * bitsAt v 0 10)
    if s.core.holding then do
      let s ← s.hold (.npub name src)
      .ok (.next (s.signalAfter r.2))
    else do
      quiet s
      waitIf (!s.drainedNow s.core.idx (s.effScope 4) || !s.npubRoom s.core.die name (bitsAt v 0 10)) outside
      let s := s.widenPins s.core.idx (s.effScope 4)
      let (s, bs) ← s.readNow a src
      .ok (.next ((s.publish s.core.idx name bs).signalAfter r.2))

/-! ### Broadcast stores (R332, R333) -/

/-- The group address of a broadcast store: the handle's checks, and the alignment of the target where the handle is not null (log 33). -/
def State.groupAddr (s : State) (a : Word) (n : Nat) : Except Stop Nat :=
  let off := bitsAt a 0 48
  match s.core.view.handle a with
  | none => .error (.fatal 0x83 a)
  | some h =>
    if (h.vbase + off) % n ≠ 0 then illegal
    else if bitsAt a 48 4 ≠ 0 ∨ h.len < off + n then .error (.fatal 0x81 a)
    else if h.space ≠ 4 ∨ h.perm &&& 50 ≠ 50 then .error (.fatal 0x82 a)
    else .ok (h.vbase + off)

/-- Bytes of a BSZ code. -/
def bszBytes (b : BitVec 3) : Nat := if b = 5 then 128 else 2 ^ b.toNat

/-- The data of a broadcast store: low bytes of a register, an even pair, or a q2 entry. -/
def State.bstData (s : State) (bsz : BitVec 3) (gs : BitVec 5) : Except Stop (List Byte × State) :=
  if bsz = 5 then
    match s.popLanded q2 1 with
    | .ok (es, s') => .ok (es.flatMap entryBytes, s')
    | .error e => .error e
  else if bsz = 4 then .ok (wordBytes (s.g gs) ++ wordBytes (s.g (gs + 1)), s)
  else .ok (natBytes (bszBytes bsz) (s.g gs).toNat, s)

def semBst (bsz : BitVec 3) (ga gs : BitVec 5) (off : BitVec 8) (sync : BitVec 2) : Sem := fun s => do
  illegalIf (decide (6 ≤ bsz.toNat) || (bsz == 5 && gs != 0))
  ready s [ga, gs, if bsz = 4 then gs + 1 else 0]
  let r ← s.syncTake sync
  let s := r.1
  illegalIf (bsz == 4 && (gs == 0 || gs.toNat % 2 == 1))
  let n := bszBytes bsz
  let ga' ← s.groupAddr (effAddr (s.g ga) off n) n
  let (data, s) ← s.bstData bsz gs
  let uid := s.core.nextUid
  let s := { s with core := { s.core with nextUid := uid + 1 } }
  if s.core.holding then do
    let s ← s.hold (.bst ga' data uid)
    .ok (.next (s.signalAfter r.2))
  else do
    waitIf (decide (16 ≤ s.core.bsts.length)) outside
    if r.2.isSome then quiet s
    match s.sendBst s.core.idx ga' data uid r.2 with
    | some s => .ok (.next s)
    | none => .error (.wait outside)

/-- `NPUB`: issues the word (R331). -/
def execNpub (gz : BitVec 3) (ga : BitVec 5) (gn : BitVec 5) (sync : BitVec 2) (s : State) : Host.Outcome State Fault Refusal :=
  issue (Instr.npub gz ga gn sync) (semNpub gz ga gn sync) s

/-- `BST`: issues the word (R332). -/
def execBst (bsz : BitVec 3) (ga : BitVec 5) (gs : BitVec 5) (off : BitVec 8) (sync : BitVec 2) (s : State) : Host.Outcome State Fault Refusal :=
  issue (Instr.bst bsz ga gs off sync) (semBst bsz ga gs off sync) s

end Sys2Proof.Machine
end

