-- ==== Sys2Proof/Machine/System.lean ====
section
/-! DEFINITION. The system words of K (R394-R406, R412-R415): traps and returns, supervisor calls, device registers, the end and the yield of a
task, launches, Quartz, translation bindings and breaks. -/

namespace Sys2Proof.Machine

/-! ### Traps (R396, R397, R421) -/

def semTrap (ra : BitVec 5) (n : BitVec 10) : Sem := fun s => do
  ready s [ra]
  .ok (.raise s 0x0C n.toNat (s.g ra))

/-- The address of a `TPC` word. -/
def tpcAddr (w : Word) : Word := w &&& ~~~(3 : Word)

/-- A strand goes back to its saved address; its word starts anew if that is another one. -/
def Strand.back (t : Strand) (w : Word) : Strand :=
  { t with
    pc := tpcAddr w, parked := bitAt w 0, stage := if tpcAddr w = t.pc then t.stage else 0
    fence := if tpcAddr w = t.pc then t.fence else none
    wait := if bitAt w 0 then 6 else if tpcAddr w = t.pc ∧ t.wait = stranded then stranded else 0 }

/-- The saved addresses suit the saved mode. -/
def Bank.ok (b : Bank) : Bool :=
  pcsOk (bitAt b.pck 0) (tpcAddr b.pcl) (tpcAddr b.pcx) (tpcAddr b.pcs) (tpcAddr b.pck) (bitAt b.pcl 0 || bitAt b.pcx 0 || bitAt b.pcs 0)

/-- The address that a strand gets back. -/
def Bank.pcOf (b : Bank) : StrandId → Word
  | .l => tpcAddr b.pcl | .x => tpcAddr b.pcx | .s => tpcAddr b.pcs | .k => tpcAddr b.pck

/-- Words that issue once without meeting a watchpoint after a return: the one a `WATCH` level stopped, and those whose strands are still there. -/
def Core.skipsAfter (c : Core) (b : Bank) : List (StrandId × Word) :=
  let old := c.watchSkip.filter fun e => e.2 == b.pcOf e.1
  let σ := strandOf (bitsAt b.cause 18 2)
  if bitsAt b.cause 0 8 = 0x0E then (σ, b.pcOf σ) :: old else old

/-- The core back at the level below. -/
def Core.leaveTrap (c : Core) (b : Bank) : Core :=
  { c with
    l := c.l.back b.pcl, x := c.x.back b.pcx, s := c.s.back b.pcs
    k := { c.k with pc := tpcAddr b.pck, stage := if b.stage = 32 then 0 else b.stage, wait := if b.stage = 32 then stranded else 0
                    fence := if b.stage = 0 then none else c.k.fence }
    bdone := if c.split = bitAt b.pck 0 ∧ tpcAddr b.pcl = c.l.pc then c.bdone else 0
    split := bitAt b.pck 0, tl := c.tl - 1, watchSkip := c.skipsAfter b }

/-- After a probe fault the array is loaded again from the task's binding (R31). -/
def State.reload (s : State) (b : Bank) : Except Stop State :=
  if bitsAt b.cause 0 8 ≠ 7 then .ok s
  else match s.taskOn s.core.idx with
    | none => .ok s
    | some t => match s.loadArray s.core.idx t with
      | .ok s' => .ok s'
      | .error v => .error (.fatal 0x80 v)

def semTret : Sem := fun s => do
  illegalIf (decide (s.core.tl = 0))
  let b := s.core.bank s.core.tl
  illegalIf (!b.ok)
  let s ← s.reload b
  let s := { s with core := s.core.leaveTrap b }
  .ok (.at_ (s.trace s.core 4 3 s.core.tl (tpcAddr b.pck) 0))

/-- `TRAP`: issues the word (R396). -/
def execTrap (ra : BitVec 5) (n : BitVec 10) (s : State) : Host.Outcome State Fault Refusal := issue (Instr.trap ra n) (semTrap ra n) s

/-- `TRET`: issues the word (R397). -/
def execTret (s : State) : Host.Outcome State Fault Refusal := issue (Instr.tret) (semTret) s

/-! ### Supervisor calls (R398, R399, R40-R42) -/

/-- `SYSC` 0x01: a context register by selector. -/
def semSyscReadContext (rd ra : BitVec 5) : Sem := fun s => do
  ready s [rd, ra]
  let v := s.g ra
  let b := ctxBase s.ctx
  if v = 0 then .ok (.next (s.setG rd (s.reg (b + 0x30))))
  else if v = 1 then .ok (.next (s.setG rd (s.reg (b + 0x38))))
  else if v.toNat / 32 = 8 ∨ v.toNat / 32 = 16 then
    let a := b + 0x200 + 8 * (v.toNat % 32)
    let r := s.reg a
    let s := if v.toNat / 32 = 16 then s.setFld a 63 1 0 else s
    .ok (.next (s.setG rd r))
  else illegal

/-- Capacity of the pager request queue and of the host's. -/
def pagerDepth : Nat := 1024

/-- The request a handler sends (R40). -/
def State.pagerMessage (s : State) (seq : Nat) : List Word :=
  let b := s.core.bank s.core.tl
  let va := match s.core.view.handle b.val with
    | some h => if h.space = 0 ∨ h.space = 3 then h.vbase + bitsAt b.val 0 48 else 0
    | none => 0
  [mkWord [(seq, 48), (s.ctx, 42), (s.core.idx, 31), (s.core.tl, 29), (bitsAt b.cause 16 2, 27), (bitsAt b.cause 8 8, 16)],
   b.val, BitVec.ofNat 64 va, BitVec.ofNat 64 s.core.lttBase]

/-- Requests go to the host (R39). -/
def State.pagerToHost (s : State) : Bool := s.fmode 0 || s.pagerHolders.isEmpty

/-- A reply the device gives itself: status, sequence and delay; it raises the event of `PGREPLY`. -/
def Core.selfReply (c : Core) (status seq delay : Nat) : Core :=
  { c.latch 0 with pgreply := mkWord [(1, 63), (status, 56), (seq, 40), (delay, 0)] }

/-- The core after a request is sent. -/
def Core.asked (c : Core) (seq : Nat) : Core := { c with pagerSeq := seq, pagerOut := some (c.idx, seq), pgreply := 0 }

def semSyscPagerRequest (rd : BitVec 5) : Sem := fun s => do
  ready s [rd]
  illegalIf (decide (s.core.tl = 0) || bitsAt (s.core.bank s.core.tl).cause 0 8 != 7)
  let full := decide (pagerDepth ≤ (if s.pagerToHost then s.lm.hostq else s.lm.pagerq).length)
  match s.core.pagerOut with
  | some out => .ok (.next ({ s with core := s.core.selfReply 4 out.2 0 }.setG rd 0))
  | none =>
    if full then .ok (.next ({ s with core := s.core.selfReply 3 s.core.pagerSeq 1024 }.setG rd 0))
    else
      let seq := if s.core.pagerSeq = 0xFFFF then 1 else s.core.pagerSeq + 1
      let m := s.pagerMessage seq
      let host := s.pagerToHost
      let s := { s with core := s.core.asked seq }
      let s := if host then (s.modLm fun l => { l with hostq := l.hostq ++ [m] }).interrupt 2
        else s.modLm fun l => { l with pagerq := l.pagerq ++ [m] }
      .ok (.next (s.setG rd (BitVec.ofNat 64 seq)))

/-- The core runs the pager program (R487). -/
def State.isPager (s : State) : Bool := (s.core.task.map (·.pager)).getD false

def semSyscPagerTake (rd ra : BitVec 5) : Sem := fun s => do
  illegalIf (!s.isPager)
  ready s [rd, ra]
  illegalIf (misaligned (s.g ra) 32)
  let ss ← s.access .store (s.g ra) 32
  match s.lm.pagerq with
  | [] => .error (.wait outside)
  | m :: ms => do
    let s ← s.issueStore (s.g ra) ss (wordsBytes m) none 0 0
    let w0 := m.getD 0 0
    let s := s.modLm fun l => { l with pagerq := ms }
    let s := { s with core := { s.core with pagerHeld := s.core.pagerHeld ++ [(bitsAt w0 31 11, bitsAt w0 48 16)] } }
    .ok (.next (s.setG rd 1))

/-- The reply is a release at `.sys` scope (R42). -/
def semSyscPagerReply (rd ra : BitVec 5) : Sem := fun s => do
  illegalIf (!s.isPager)
  ready s [rd, ra]
  let v := s.g ra
  let st := bitsAt v 28 3
  illegalIf (st == 0 || decide (4 ≤ st) || (st != 3 && bitsAt v 0 28 != 0))
  quiet s
  waitIf (!s.drainedNow s.core.idx 5) outside
  let s := (s.widenPins s.core.idx 5).deliverReply (some s.core.idx) v
  let s := { s with core := { s.core with pagerHeld := s.core.pagerHeld.filter (· != (bitsAt v 31 11, bitsAt v 48 16)) } }
  .ok (.next (s.setG rd 0))

/-- `SYSC_READ_CONTEXT`: issues the word (R398). -/
def execSyscReadContext (rd : BitVec 5) (ra : BitVec 5) (s : State) : Host.Outcome State Fault Refusal :=
  issue (Instr.syscReadContext rd ra) (semSyscReadContext rd ra) s

/-- `SYSC_PAGER_REQUEST`: issues the word (R40). -/
def execSyscPagerRequest (rd : BitVec 5) (s : State) : Host.Outcome State Fault Refusal :=
  issue (Instr.syscPagerRequest rd) (semSyscPagerRequest rd) s

/-- `SYSC_PAGER_TAKE`: issues the word (R398). -/
def execSyscPagerTake (rd : BitVec 5) (ra : BitVec 5) (s : State) : Host.Outcome State Fault Refusal :=
  issue (Instr.syscPagerTake rd ra) (semSyscPagerTake rd ra) s

/-- `SYSC_PAGER_REPLY`: issues the word (R399). -/
def execSyscPagerReply (rd : BitVec 5) (ra : BitVec 5) (s : State) : Host.Outcome State Fault Refusal :=
  issue (Instr.syscPagerReply rd ra) (semSyscPagerReply rd ra) s

/-! ### Device registers (R400) -/

/-- The register that `MFS` and `MTS` name. -/
def State.devAddr (s : State) (ra : BitVec 5) (off : BitVec 10) : Except Stop Nat :=
  let p := s.g ra + BitVec.ofNat 64 (8 * off.toNat)
  if bitsAt (s.g ra) 52 12 ≠ 0 ∨ bitsAt p 48 4 ≠ 8 ∨ bitsAt p 0 3 ≠ 0 then illegal else .ok (bitsAt p 0 48)

def semMfs (rd ra : BitVec 5) (off : BitVec 10) : Sem := fun s => do
  privIf (!s.sup)
  ready s [rd, ra]
  let a ← s.devAddr ra off
  .ok (.next (s.setG rd (s.devRead a)))

def semMts (ra rb : BitVec 5) (off : BitVec 10) : Sem := fun s => do
  privIf (!s.sup)
  ready s [ra, rb]
  let a ← s.devAddr ra off
  .ok ((s.devWrite a (s.g rb)).deviceDone none)

/-- `MFS`: issues the word (R400). -/
def execMfs (rd : BitVec 5) (ra : BitVec 5) (off : BitVec 10) (s : State) : Host.Outcome State Fault Refusal :=
  issue (Instr.mfs rd ra off) (semMfs rd ra off) s

/-- `MTS`: issues the word (R400). -/
def execMts (ra : BitVec 5) (rb : BitVec 5) (off : BitVec 10) (s : State) : Host.Outcome State Fault Refusal :=
  issue (Instr.mts ra rb off) (semMts ra rb off) s

/-! ### Giving up and ending a task (R402, R403) -/

def semYield : Sem := fun s => do
  illegalIf s.isPager
  beforeEnd true s
  .ok (.next { s with core := { s.core with preempt := if s.core.preempt = 0 then 5 else s.core.preempt } })

def semTend : Sem := fun s => do
  beforeEnd true s
  waitIf (s.core.split && s.core.tl == 0 && !(s.core.l.parked && s.core.x.parked && s.core.s.parked)) 7
  if s.endDrained s.core.idx then .ok (.at_ (s.endTask s.core.idx)) else .ok (.hold s outside)

/-- `YIELD`: issues the word (R402). -/
def execYield (s : State) : Host.Outcome State Fault Refusal := issue (Instr.yield) (semYield) s

/-- `TEND`: issues the word (R403). -/
def execTend (s : State) : Host.Outcome State Fault Refusal := issue (Instr.tend) (semTend) s

/-! ### Launching (R404) -/

/-- Writes a word or a slot of a queue as the issuing core does, with the pins of a release at `scope` if one is given; none while it waits. -/
def State.queueWrite (s : State) (a : Nat) (bs : List Byte) (scope : Option Nat) : Option State :=
  let ss : List Span := [{ place := .mem, addr := a, len := bs.length, grain := 0, pol := 0 }]
  match s.requestSpans s.core.who true ss with
  | .error _ => none
  | .ok (s, rss) =>
    let s := s.writeGranted s.core.view.ctx ss rss bs
    some (match scope with | some n => s.pinWrites s.core.who n rss | none => s)

/-- The indivisible step of a launch: a descriptor goes into slot `TAIL`, then `TAIL` + 1 is written with a release at `.pkg`. -/
def State.appendLaunch (s : State) (q : Nat) (desc : List Byte) : Except Stop (State × Word) :=
  if !bitAt (s.reg (lqReg s.ctx q)) 63 then .ok (s, 0x31)
  else
    let tail := s.queueTail s.ctx q
    if s.queueSize s.ctx q ≤ (tail + 2 ^ 32 - s.queuePos s.ctx q) % 2 ^ 32 then .ok (s, 0x30)
    else match s.queueWrite (s.queueSlot s.ctx q tail) desc none with
      | none => .error (.wait outside)
      | some s1 =>
        match s1.queueWrite (s.queueHead s.ctx q) (natBytes 8 ((tail + 1) % 2 ^ 32)) (some 3) with
        | none => .error (.wait outside)
        | some s2 => .ok (s2, mkWord [(1, 63), (q, 32), (tail, 0)])

def semLnch (rd ra q : BitVec 5) : Sem := fun s => do
  beforeEnd true s
  ready s [rd, ra]
  let a := s.g ra
  illegalIf (misaligned a 256)
  let ss ← s.access .load a 256
  if !s.sup && bitAt (s.reg (lqReg s.ctx q.toNat)) 61 then .ok (.next (s.setG rd 0x32))
  else do
    quiet s
    waitIf (!s.drainedNow s.core.idx 3) outside
    let (s, desc) ← (s.widenPins s.core.idx 3).readNow a ss
    let (s, v) ← s.appendLaunch q.toNat desc
    .ok (.next (s.setG rd v))

/-- `LNCH`: issues the word (R404). -/
def execLnch (rd : BitVec 5) (ra : BitVec 5) (q : BitVec 5) (s : State) : Host.Outcome State Fault Refusal :=
  issue (Instr.lnch rd ra q) (semLnch rd ra q) s

/-! ### Quartz, bindings and breaks (R412-R415) -/

def semQtzr (rd : BitVec 5) : Sem := fun s => do
  ready s [rd]
  .ok (.next (s.setG rd s.quartz))

def semQtzrUntil (rd ra : BitVec 5) : Sem := fun s => do
  ready s [rd, ra]
  waitIf (s.quartz.ult (s.g ra)) outside
  .ok (.next (s.setG rd s.quartz))

/-- Binds an image to a task number of a context, or as the context's default. -/
def State.bindImage (s : State) (c rtn base n : Nat) : State × Word :=
  if rtn = 0xFFF then (s.setReg (ctxBase c + 0x28) (mkWord [(n - 1, 52), (base / 16, 4), (1, 0)]), 1)
  else match s.lm.tasks.find? fun t => t.ctx == c && t.rtn == some rtn with
    | none => (s, 0x51)
    | some t => (s.modTask t.id fun u => { u with binding := some (base, n) }, 1)

def semLttld (rd ra rb : BitVec 5) : Sem := fun s => do
  privIf (!s.sup)
  ready s [rd, ra, rb]
  let base := (s.g ra).toNat
  let w := s.g rb
  let n := bitsAt w 0 13
  illegalIf (base % 16 != 0 || decide (4 * 2 ^ 48 ≤ base) || bitsAt w 13 33 != 0 || n == 0 || decide (4096 < n))
  quiet s
  if s.poisoned base (16 * n) then .error (.fatal 0x84 (s.g ra))
  else match s.loadImage base n with
    | .error i => .ok (.next (s.setG rd (BitVec.ofNat 64 (0x50 + 2 ^ 16 * i))))
    | .ok _ =>
      let r := s.bindImage (bitsAt w 58 6) (bitsAt w 46 12) base n
      .ok (.next (r.1.setG rd r.2))

def semDbg (n : BitVec 10) : Sem := fun s =>
  if s.debugged s.core && bitAt (s.reg (debugBase s.core.cluster)) (35 + s.core.idx % 8) then
    .ok (.next (s.haltCluster s.core.cluster 2))
  else .ok (.raise s 0x0F n.toNat 0)

/-- `QTZR`: issues the word (R412). -/
def execQtzr (rd : BitVec 5) (s : State) : Host.Outcome State Fault Refusal := issue (Instr.qtzr rd) (semQtzr rd) s

/-- `QTZR_UNTIL`: issues the word (R412). -/
def execQtzrUntil (rd : BitVec 5) (ra : BitVec 5) (s : State) : Host.Outcome State Fault Refusal :=
  issue (Instr.qtzrUntil rd ra) (semQtzrUntil rd ra) s

/-- `LTTLD`: issues the word (R413). -/
def execLttld (rd : BitVec 5) (ra : BitVec 5) (rb : BitVec 5) (s : State) : Host.Outcome State Fault Refusal :=
  issue (Instr.lttld rd ra rb) (semLttld rd ra rb) s

/-- `DBG`: issues the word (R415). -/
def execDbg (n : BitVec 10) (s : State) : Host.Outcome State Fault Refusal := issue (Instr.dbg n) (semDbg n) s

end Sys2Proof.Machine
end

