-- ==== Sys2Proof/Machine/FerleArith.lean ====
section
/-! DEFINITION. The integer arithmetic of a Ferle hart and the expansion of its 16-bit words. The spec names RISC-V's RVA23 profile (R429) and
gives no instruction of it but custom-0: what stands here is taken from RISC-V (PRESUMED, log 13). -/

namespace Sys2Proof.Machine

/-! ### Fields of a 32-bit word -/

def rvBits (w hi lo : Nat) : Nat := w / 2 ^ lo % 2 ^ (hi + 1 - lo)
def rvImmI (w : Nat) : Word := sextNat 12 (rvBits w 31 20)
def rvImmS (w : Nat) : Word := sextNat 12 (rvBits w 31 25 * 32 + rvBits w 11 7)
def rvImmB (w : Nat) : Word :=
  sextNat 13 (rvBits w 31 31 * 4096 + rvBits w 7 7 * 2048 + rvBits w 30 25 * 32 + rvBits w 11 8 * 2)
def rvImmU (w : Nat) : Word := sextNat 32 (rvBits w 31 12 * 4096)
def rvImmJ (w : Nat) : Word :=
  sextNat 21 (rvBits w 31 31 * 2 ^ 20 + rvBits w 19 12 * 4096 + rvBits w 20 20 * 2048 + rvBits w 30 21 * 2)

/-- The low 32 bits, sign-extended. -/
def sext32 (w : Word) : Word := sextNat 32 w.toNat

def ofInt (x : Int) : Word := BitVec.ofInt 64 x

/-! ### Register operations -/

/-- RISC-V division: a zero divisor gives all ones, and the overflow gives the dividend. -/
def rvDiv (n : Nat) (signed : Bool) (a b : Nat) : Nat :=
  if b % 2 ^ n = 0 then 2 ^ n - 1
  else if signed then wrapInt n ((toInt n a).tdiv (toInt n b)) else a % 2 ^ n / (b % 2 ^ n)

def rvRem (n : Nat) (signed : Bool) (a b : Nat) : Nat :=
  if b % 2 ^ n = 0 then a % 2 ^ n
  else if signed then wrapInt n ((toInt n a).tmod (toInt n b)) else a % 2 ^ n % (b % 2 ^ n)

def countOnes : Nat → Nat → Nat
  | 0, _ => 0
  | n + 1, v => v % 2 + countOnes n (v / 2)

/-- Zeros below the lowest one of an `n`-bit value. -/
def trailing : Nat → Nat → Nat
  | 0, _ => 0
  | n + 1, v => if v % 2 = 1 then 0 else 1 + trailing n (v / 2)

/-- Zeros above the highest one of an `n`-bit value. -/
def leading (n v : Nat) : Nat := if v = 0 then n else n - 1 - v.log2

def rotl (n v k : Nat) : Nat := (v * 2 ^ (k % n) + v / 2 ^ (n - k % n)) % 2 ^ n

/-- `OP` by funct7 and funct3. -/
def rvOp (f7 f3 : Nat) (a b : Word) : Option Word :=
  let s := b.toNat % 64
  match f7, f3 with
  | 0, 0 => some (a + b)
  | 0x20, 0 => some (a - b)
  | 0, 1 => some (a <<< s)
  | 0, 2 => some (boolWord (a.slt b))
  | 0, 3 => some (boolWord (a.ult b))
  | 0, 4 => some (a ^^^ b)
  | 0, 5 => some (a >>> s)
  | 0x20, 5 => some (a.sshiftRight s)
  | 0, 6 => some (a ||| b)
  | 0, 7 => some (a &&& b)
  | 1, 0 => some (a * b)
  | 1, 1 => some (ofInt (a.toInt * b.toInt / 2 ^ 64))
  | 1, 2 => some (ofInt (a.toInt * (b.toNat : Int) / 2 ^ 64))
  | 1, 3 => some (BitVec.ofNat 64 (a.toNat * b.toNat / 2 ^ 64))
  | 1, 4 => some (BitVec.ofNat 64 (rvDiv 64 true a.toNat b.toNat))
  | 1, 5 => some (BitVec.ofNat 64 (rvDiv 64 false a.toNat b.toNat))
  | 1, 6 => some (BitVec.ofNat 64 (rvRem 64 true a.toNat b.toNat))
  | 1, 7 => some (BitVec.ofNat 64 (rvRem 64 false a.toNat b.toNat))
  | 0x10, 2 => some (a <<< 1 + b)
  | 0x10, 4 => some (a <<< 2 + b)
  | 0x10, 6 => some (a <<< 3 + b)
  | 0x20, 7 => some (a &&& ~~~b)
  | 0x20, 6 => some (a ||| ~~~b)
  | 0x20, 4 => some (~~~(a ^^^ b))
  | 5, 4 => some (if a.slt b then a else b)
  | 5, 5 => some (if a.ult b then a else b)
  | 5, 6 => some (if a.slt b then b else a)
  | 5, 7 => some (if a.ult b then b else a)
  | 0x30, 1 => some (BitVec.ofNat 64 (rotl 64 a.toNat s))
  | 0x30, 5 => some (BitVec.ofNat 64 (rotl 64 a.toNat (64 - s)))
  | 0x24, 1 => some (a &&& ~~~((1 : Word) <<< s))
  | 0x24, 5 => some ((a >>> s) &&& 1)
  | 0x34, 1 => some (a ^^^ ((1 : Word) <<< s))
  | 0x14, 1 => some (a ||| ((1 : Word) <<< s))
  | 7, 5 => some (if b = 0 then 0 else a)
  | 7, 7 => some (if b = 0 then a else 0)
  | _, _ => none

/-- `OP-32`. -/
def rvOp32 (f7 f3 rs2 : Nat) (a b : Word) : Option Word :=
  let x := a.toNat % 2 ^ 32
  let s := b.toNat % 32
  let ua : Word := BitVec.ofNat 64 x
  match f7, f3 with
  | 0, 0 => some (sext32 (a + b))
  | 0x20, 0 => some (sext32 (a - b))
  | 0, 1 => some (sext32 (a <<< s))
  | 0, 5 => some (sextNat 32 (x / 2 ^ s))
  | 0x20, 5 => some ((sext32 a).sshiftRight s)
  | 1, 0 => some (sext32 (a * b))
  | 1, 4 => some (sextNat 32 (rvDiv 32 true a.toNat b.toNat))
  | 1, 5 => some (sextNat 32 (rvDiv 32 false a.toNat b.toNat))
  | 1, 6 => some (sextNat 32 (rvRem 32 true a.toNat b.toNat))
  | 1, 7 => some (sextNat 32 (rvRem 32 false a.toNat b.toNat))
  | 4, 0 => some (ua + b)
  | 4, 4 => if rs2 = 0 then some (BitVec.ofNat 64 (a.toNat % 2 ^ 16)) else none
  | 0x10, 2 => some (ua <<< 1 + b)
  | 0x10, 4 => some (ua <<< 2 + b)
  | 0x10, 6 => some (ua <<< 3 + b)
  | 0x30, 1 => some (sextNat 32 (rotl 32 x s))
  | 0x30, 5 => some (sextNat 32 (rotl 32 x (32 - s)))
  | _, _ => none

/-- Each byte all ones where it is not zero. -/
def orcBytes : Nat → Nat → Nat
  | 0, _ => 0
  | n + 1, v => (if v % 256 = 0 then 0 else 255) + 256 * orcBytes n (v / 256)

/-- `OP-IMM`: `i` is the 12-bit field. -/
def rvOpImm (f3 i : Nat) (a imm : Word) : Option Word :=
  let s := i % 64
  match f3 with
  | 0 => some (a + imm)
  | 2 => some (boolWord (a.slt imm))
  | 3 => some (boolWord (a.ult imm))
  | 4 => some (a ^^^ imm)
  | 6 => some (a ||| imm)
  | 7 => some (a &&& imm)
  | 1 =>
    if i = 0x600 then some (BitVec.ofNat 64 (leading 64 a.toNat))
    else if i = 0x601 then some (BitVec.ofNat 64 (trailing 64 a.toNat))
    else if i = 0x602 then some (BitVec.ofNat 64 (countOnes 64 a.toNat))
    else if i = 0x604 then some (sextNat 8 a.toNat)
    else if i = 0x605 then some (sextNat 16 a.toNat)
    else match i / 64 with
      | 0 => some (a <<< s)
      | 0x12 => some (a &&& ~~~((1 : Word) <<< s))
      | 0x1A => some (a ^^^ ((1 : Word) <<< s))
      | 0x0A => some (a ||| ((1 : Word) <<< s))
      | _ => none
  | _ =>
    if i = 0x287 then some (BitVec.ofNat 64 (orcBytes 8 a.toNat))
    else if i = 0x6B8 then some (BitVec.ofNat 64 (bytesNat (wordBytes a).reverse))
    else match i / 64 with
      | 0 => some (a >>> s)
      | 0x10 => some (a.sshiftRight s)
      | 0x12 => some ((a >>> s) &&& 1)
      | 0x18 => some (BitVec.ofNat 64 (rotl 64 a.toNat (64 - s)))
      | _ => none

/-- `OP-IMM-32`. -/
def rvOpImm32 (f3 i : Nat) (a imm : Word) : Option Word :=
  let s := i % 32
  let x := a.toNat % 2 ^ 32
  match f3 with
  | 0 => some (sext32 (a + imm))
  | 1 =>
    if i = 0x600 then some (BitVec.ofNat 64 (leading 32 x))
    else if i = 0x601 then some (BitVec.ofNat 64 (trailing 32 x))
    else if i = 0x602 then some (BitVec.ofNat 64 (countOnes 32 x))
    else if i / 64 = 2 then some ((BitVec.ofNat 64 x : Word) <<< (i % 64))
    else if i / 32 = 0 then some (sext32 (a <<< s)) else none
  | 5 =>
    match i / 32 with
    | 0 => some (sextNat 32 (x / 2 ^ s))
    | 0x20 => some ((sext32 a).sshiftRight s)
    | 0x30 => some (sextNat 32 (rotl 32 x (32 - s)))
    | _ => none
  | _ => none

/-- A branch is taken; none for a reserved code. -/
def rvBranch (f3 : Nat) (a b : Word) : Option Bool :=
  match f3 with
  | 0 => some (a == b)
  | 1 => some (a != b)
  | 4 => some (a.slt b)
  | 5 => some (b.sle a)
  | 6 => some (a.ult b)
  | 7 => some (b.ule a)
  | _ => none

/-- The new value of an AMO by funct5. -/
def rvAmo (f5 n : Nat) (old v : Nat) : Option Nat :=
  let w := 8 * n
  let v := v % 2 ^ w
  match f5 with
  | 0 => some ((old + v) % 2 ^ w)
  | 1 => some v
  | 4 => some (old ^^^ v)
  | 8 => some (old ||| v)
  | 0xC => some (old &&& v)
  | 0x10 => some (if toInt w v < toInt w old then v else old)
  | 0x14 => some (if toInt w old < toInt w v then v else old)
  | 0x18 => some (min old v)
  | 0x1C => some (max old v)
  | _ => none

/-! ### 16-bit words -/

def encI (op f3 rd rs1 imm : Nat) : Nat := op + rd * 2 ^ 7 + f3 * 2 ^ 12 + rs1 * 2 ^ 15 + imm % 4096 * 2 ^ 20
def encR (op f3 f7 rd rs1 rs2 : Nat) : Nat := op + rd * 2 ^ 7 + f3 * 2 ^ 12 + rs1 * 2 ^ 15 + rs2 * 2 ^ 20 + f7 * 2 ^ 25
def encS (f3 rs1 rs2 imm : Nat) : Nat :=
  0x23 + imm % 32 * 2 ^ 7 + f3 * 2 ^ 12 + rs1 * 2 ^ 15 + rs2 * 2 ^ 20 + imm / 32 % 128 * 2 ^ 25
def encJ (rd off : Nat) : Nat :=
  0x6F + rd * 2 ^ 7 + off / 2 ^ 12 % 256 * 2 ^ 12 + off / 2 ^ 11 % 2 * 2 ^ 20 + off / 2 % 1024 * 2 ^ 21 + off / 2 ^ 20 % 2 * 2 ^ 31
def encB (f3 rs1 rs2 off : Nat) : Nat :=
  0x63 + off / 2 ^ 11 % 2 * 2 ^ 7 + off / 2 % 16 * 2 ^ 8 + f3 * 2 ^ 12 + rs1 * 2 ^ 15 + rs2 * 2 ^ 20 + off / 32 % 64 * 2 ^ 25 + off / 2 ^ 12 % 2 * 2 ^ 31

/-- Sign extension to 32 bits of an `n`-bit field. -/
def sx (n v : Nat) : Nat := if v < 2 ^ (n - 1) then v else 2 ^ 32 - 2 ^ n + v

/-- The 32-bit word a 16-bit word stands for: none if it is reserved, and the word of a floating-point load or store is one. -/
def rvExpand (c : Nat) : Option Nat :=
  let b := fun hi lo => rvBits c hi lo
  let r := fun lo => 8 + b (lo + 2) lo
  let rd := b 11 7
  let rs := b 6 2
  let i6 := sx 6 (b 12 12 * 32 + b 6 2)
  let sh := b 12 12 * 32 + b 6 2
  let lw := b 5 5 * 64 + b 12 10 * 8 + b 6 6 * 4
  let ld := b 6 5 * 64 + b 12 10 * 8
  let jo := sx 12 (b 12 12 * 2048 + b 8 8 * 1024 + b 10 9 * 256 + b 6 6 * 128 + b 7 7 * 64 + b 2 2 * 32 + b 11 11 * 16 + b 5 3 * 2)
  let bo := sx 9 (b 12 12 * 256 + b 6 5 * 64 + b 2 2 * 32 + b 11 10 * 8 + b 4 3 * 2)
  match c % 4, b 15 13 with
  | 0, 0 =>
    let imm := b 10 7 * 64 + b 12 11 * 16 + b 5 5 * 8 + b 6 6 * 4
    if imm = 0 then none else some (encI 0x13 0 (r 2) 2 imm)
  | 0, 1 => some (encI 0x07 3 (r 2) (r 7) ld)
  | 0, 2 => some (encI 0x03 2 (r 2) (r 7) lw)
  | 0, 3 => some (encI 0x03 3 (r 2) (r 7) ld)
  | 0, 4 =>
    match b 12 10 with
    | 0 => some (encI 0x03 4 (r 2) (r 7) (b 5 5 * 2 + b 6 6))
    | 1 => some (encI 0x03 (if b 6 6 = 0 then 5 else 1) (r 2) (r 7) (b 5 5 * 2))
    | 2 => some (encS 0 (r 7) (r 2) (b 5 5 * 2 + b 6 6))
    | 3 => if b 6 6 = 0 then some (encS 1 (r 7) (r 2) (b 5 5 * 2)) else none
    | _ => none
  | 0, 5 => some (encS 3 (r 7) (r 2) ld - 0x23 + 0x27)
  | 0, 6 => some (encS 2 (r 7) (r 2) lw)
  | 0, _ => some (encS 3 (r 7) (r 2) ld)
  | 1, 0 => some (encI 0x13 0 rd rd i6)
  | 1, 1 => if rd = 0 then none else some (encI 0x1B 0 rd rd i6)
  | 1, 2 => some (encI 0x13 0 rd 0 i6)
  | 1, 3 =>
    if rd = 2 then
      let imm := sx 10 (b 12 12 * 512 + b 4 3 * 128 + b 5 5 * 64 + b 2 2 * 32 + b 6 6 * 16)
      if imm = 0 then none else some (encI 0x13 0 2 2 imm)
    else if sh = 0 then (if rd % 2 = 1 ∧ rd < 16 then some (encI 0x13 0 0 0 0) else none)
    else some (0x37 + rd * 2 ^ 7 + i6 % 2 ^ 20 * 2 ^ 12)
  | 1, 4 =>
    match b 11 10 with
    | 0 => some (encI 0x13 5 (r 7) (r 7) sh)
    | 1 => some (encI 0x13 5 (r 7) (r 7) (0x400 + sh))
    | 2 => some (encI 0x13 7 (r 7) (r 7) i6)
    | _ =>
      match b 12 12, b 6 5 with
      | 0, 0 => some (encR 0x33 0 0x20 (r 7) (r 7) (r 2))
      | 0, 1 => some (encR 0x33 4 0 (r 7) (r 7) (r 2))
      | 0, 2 => some (encR 0x33 6 0 (r 7) (r 7) (r 2))
      | 0, _ => some (encR 0x33 7 0 (r 7) (r 7) (r 2))
      | _, 0 => some (encR 0x3B 0 0x20 (r 7) (r 7) (r 2))
      | _, 1 => some (encR 0x3B 0 0 (r 7) (r 7) (r 2))
      | _, 2 => some (encR 0x33 0 1 (r 7) (r 7) (r 2))
      | _, _ =>
        match b 4 2 with
        | 0 => some (encI 0x13 7 (r 7) (r 7) 255)
        | 1 => some (encI 0x13 1 (r 7) (r 7) 0x604)
        | 2 => some (encR 0x3B 4 4 (r 7) (r 7) 0)
        | 3 => some (encI 0x13 1 (r 7) (r 7) 0x605)
        | 4 => some (encR 0x3B 0 4 (r 7) (r 7) 0)
        | 5 => some (encI 0x13 4 (r 7) (r 7) 4095)
        | _ => none
  | 1, 5 => some (encJ 0 jo)
  | 1, 6 => some (encB 0 (r 7) 0 bo)
  | 1, _ => some (encB 1 (r 7) 0 bo)
  | 2, 0 => some (encI 0x13 1 rd rd sh)
  | 2, 1 => some (encI 0x07 3 rd 2 (b 4 2 * 64 + b 12 12 * 32 + b 6 5 * 8))
  | 2, 2 => if rd = 0 then none else some (encI 0x03 2 rd 2 (b 3 2 * 64 + b 12 12 * 32 + b 6 4 * 4))
  | 2, 3 => if rd = 0 then none else some (encI 0x03 3 rd 2 (b 4 2 * 64 + b 12 12 * 32 + b 6 5 * 8))
  | 2, 4 =>
    if b 12 12 = 0 then
      if rs = 0 then (if rd = 0 then none else some (encI 0x67 0 0 rd 0)) else some (encR 0x33 0 0 rd 0 rs)
    else if rs = 0 then (if rd = 0 then some 0x00100073 else some (encI 0x67 0 1 rd 0))
    else some (encR 0x33 0 0 rd rd rs)
  | 2, 5 => some (encS 3 2 rs (b 9 7 * 64 + b 12 10 * 8) - 0x23 + 0x27)
  | 2, 6 => some (encS 2 2 rs (b 8 7 * 64 + b 12 9 * 4))
  | 2, _ => some (encS 3 2 rs (b 9 7 * 64 + b 12 10 * 8))
  | _, _ => none

end Sys2Proof.Machine
end

