-- ==== Sys2Proof/Machine/FerleFloat.lean ====
section
/-! DEFINITION. The floating-point words of a Ferle hart: the F and D extensions, the half-precision moves and conversions of Zfhmin, and Zfa,
which R429 names through the RVA23 profile without giving their text (PRESUMED, log 13). Codes are numbers; flags are those of `fcsr`. -/

namespace Sys2Proof.Machine

/-! ### Formats and NaNs -/

def Fmt.f64 : Fmt := { eb := 11, fb := 52, bias := 1023, kind := 0 }

/-- The format of a two-bit code; none for quadruple precision. -/
def rvFmt (n : Nat) : Option Fmt :=
  match n with
  | 0 => some .f32 | 1 => some .f64 | 2 => some .f16 | _ => none

/-- The canonical NaN. -/
def Fmt.rvNan (f : Fmt) : Nat := (2 ^ f.eb - 1) * 2 ^ f.fb + 2 ^ (f.fb - 1)

def Fmt.isNan (f : Fmt) (c : Nat) : Bool := (f.val c).isNan

/-- A NaN with its quiet bit clear. -/
def Fmt.isSnan (f : Fmt) (c : Nat) : Bool := f.isNan c && !c.testBit (f.fb - 1)

/-- Rounding mode of the model for one of RISC-V's, with 7 the dynamic one; none where it is reserved. -/
def rvMode (rm frm : Nat) : Option Nat :=
  match (if rm = 7 then frm else rm) with
  | 0 => some 0 | 1 => some 1 | 2 => some 3 | 3 => some 2 | 4 => some 8 | _ => none

/-- A result: a NaN operand or an invalid operation gives the canonical NaN; else the exact value is rounded. -/
def Fmt.rvDone (f : Fmt) (rm : Nat) (ops : List Nat) (nv : Bool) (r : Option FVal) : FRes :=
  if ops.any f.isNan then (f.rvNan, if nv || ops.any f.isSnan then fNV else 0)
  else match r with
    | none => (f.rvNan, fNV)
    | some v => f.ofVal rm false v

/-! ### Arithmetic -/

def Fmt.rvAdd (f : Fmt) (rm a b : Nat) : FRes := f.rvDone rm [a, b] false ((f.val a).add rm (f.val b))
def Fmt.rvSub (f : Fmt) (rm a b : Nat) : FRes := f.rvDone rm [a, b] false ((f.val a).add rm (f.val b).neg)
def Fmt.rvMul (f : Fmt) (rm a b : Nat) : FRes := f.rvDone rm [a, b] false ((f.val a).mul (f.val b))

/-- ±(a × b) ± c with one rounding. -/
def Fmt.rvFma (f : Fmt) (rm : Nat) (np nc : Bool) (a b c : Nat) : FRes :=
  let x := f.val a
  let y := f.val b
  let z := f.val c
  f.rvDone rm [a, b, c] (badProduct x y) ((x.mul y).bind fun p => (if np then p.neg else p).add rm (if nc then z.neg else z))

/-- A quotient of magnitudes with 160 bits after the point, its last bit marking a remainder. -/
def quotient (m e m' e' : Int) : Nat × Int :=
  let k := 160 + m'.natAbs.log2
  let n := m.natAbs * 2 ^ k
  (2 * (n / m'.natAbs) + (if n % m'.natAbs = 0 then 0 else 1), e - e' - k - 1)

def Fmt.rvDiv (f : Fmt) (rm a b : Nat) : FRes :=
  match f.val a, f.val b with
  | .num n m e, .num n' m' e' =>
    if m' = 0 then (if m = 0 then (f.rvNan, fNV) else (f.infCode (n != n'), fDZ))
    else
      let q := quotient m e m' e'
      f.round rm false (n != n') q.1 q.2
  | .inf n, .num n' _ _ => (f.infCode (n != n'), 0)
  | .num n _ _, .inf n' => (f.signBit (n != n'), 0)
  | _, _ => f.rvDone rm [a, b] false none

def Fmt.rvSqrt (f : Fmt) (rm a : Nat) : FRes :=
  match f.val a with
  | .num n m e =>
    if m = 0 then (a, 0)
    else if n then (f.rvNan, fNV)
    else
      let m' := (if e % 2 = 0 then m else 2 * m) * 2 ^ 200
      let e' := (if e % 2 = 0 then e else e - 1) - 200
      let r := isqrt 140 m'
      f.round rm false false (2 * r + (if r * r = m' then 0 else 1)) (e' / 2 - 1)
  | .inf n => if n then (f.rvNan, fNV) else (a, 0)
  | .nan _ _ => f.rvDone rm [a] false none

/-- The smaller or larger operand: −0 is below +0. A NaN gives the other operand, or with `strict` the canonical NaN. -/
def Fmt.rvMinmax (f : Fmt) (mx strict : Bool) (a b : Nat) : FRes :=
  let nv := if f.isSnan a || f.isSnan b then fNV else 0
  if f.isNan a && f.isNan b || strict && (f.isNan a || f.isNan b) then (f.rvNan, nv)
  else if f.isNan a then (b, nv)
  else if f.isNan b then (a, nv)
  else ((if mx then (if (f.val a).lt true (f.val b) then b else a) else (if (f.val b).lt true (f.val a) then b else a)), 0)

/-- Comparisons: 0 equal, 1 less, 2 less or equal; `quiet` raises NV for signalling NaNs only. -/
def Fmt.rvCompare (f : Fmt) (cond : Nat) (quiet : Bool) (a b : Nat) : Bool × Nat :=
  let un := f.isNan a || f.isNan b
  let nv := if f.isSnan a || f.isSnan b || (un && !quiet) then fNV else 0
  let x := f.val a
  let y := f.val b
  (!un && (match cond with | 0 => x.eq y | 1 => x.lt false y | _ => !y.lt false x), nv)

/-- The ten classes of `FCLASS`. -/
def Fmt.rvClass (f : Fmt) (a : Nat) : Nat :=
  match f.val a with
  | .nan _ _ => if f.isSnan a then 2 ^ 8 else 2 ^ 9
  | .inf n => if n then 1 else 2 ^ 7
  | .num n m _ =>
    if m = 0 then (if n then 2 ^ 3 else 2 ^ 4)
    else if m < 2 ^ f.fb then (if n then 2 ^ 2 else 2 ^ 5)
    else if n then 2 else 2 ^ 6

/-- Sign injection: 0 the sign of b, 1 its opposite, 2 the product of signs. -/
def Fmt.rvSign (f : Fmt) (k a b : Nat) : Nat :=
  let p := f.eb + f.fb
  let sa := a.testBit p
  let sb := b.testBit p
  a % 2 ^ p + f.signBit (match k with | 0 => sb | 1 => !sb | _ => sa != sb)

/-! ### Conversions -/

/-- To another format. -/
def rvConvert (src dst : Fmt) (rm c : Nat) : FRes :=
  if src.isNan c then (dst.rvNan, if src.isSnan c then fNV else 0) else dst.ofVal rm false (src.val c)

/-- To an integer of `w` bits, saturating; a NaN gives the largest. -/
def Fmt.rvToInt (f : Fmt) (rm w : Nat) (sgn : Bool) (c : Nat) : FRes :=
  let lo : Int := if sgn then intMin w else 0
  let hi : Int := if sgn then intMax w else 2 ^ w - 1
  match f.val c with
  | .nan _ _ => (wrapInt w hi, fNV)
  | .inf neg => (wrapInt w (if neg then lo else hi), fNV)
  | .num neg m e =>
    let n := quantize rm neg m e 0
    let x : Int := if neg then -(n : Int) else n
    if x < lo then (wrapInt w lo, fNV) else if hi < x then (wrapInt w hi, fNV)
    else (wrapInt w x, if sameDyadic m e n 0 then 0 else fNX)

/-- From an integer of `w` bits. -/
def Fmt.rvOfInt (f : Fmt) (rm w : Nat) (sgn : Bool) (v : Nat) : FRes :=
  let x : Int := if sgn then toInt w v else (v % 2 ^ w : Nat)
  if x = 0 then (0, 0) else f.round rm false (decide (x < 0)) x.natAbs 0

/-- Rounded to an integral value of the same format; `exact` raises NX. -/
def Fmt.rvRoundInt (f : Fmt) (rm : Nat) (nx : Bool) (c : Nat) : FRes :=
  match f.val c with
  | .nan _ _ => f.rvDone rm [c] false none
  | .inf _ => (c, 0)
  | .num neg m e =>
    if 0 ≤ e then (c, 0)
    else
      let n := quantize rm neg m e 0
      let r := f.round rm false neg n 0
      (r.1, if nx && !sameDyadic m e n 0 then fNX else 0)

/-- `FCVTMOD.W.D`: toward zero, modulo 2^32. -/
def rvConvertMod (c : Nat) : FRes :=
  match Fmt.f64.val c with
  | .num neg m e =>
    let n := quantize 1 neg m e 0
    let x : Int := if neg then -(n : Int) else n
    (wrapInt 32 x, if x < intMin 32 ∨ intMax 32 < x then fNV else if sameDyadic m e n 0 then 0 else fNX)
  | _ => (0, fNV)

/-- The constants of `FLI` as value × 2^16 for indices 2-29; 0 is −1, 1 the smallest normal, 30 and 31 infinity and the canonical NaN. -/
def fliValues : List Nat :=
  [1, 2, 2 ^ 8, 2 ^ 9, 2 ^ 12, 2 ^ 13, 2 ^ 14, 5 * 2 ^ 12, 3 * 2 ^ 13, 7 * 2 ^ 12, 2 ^ 15, 5 * 2 ^ 13, 3 * 2 ^ 14, 7 * 2 ^ 13, 2 ^ 16,
   5 * 2 ^ 14, 3 * 2 ^ 15, 7 * 2 ^ 14, 2 ^ 17, 5 * 2 ^ 15, 3 * 2 ^ 16, 2 ^ 18, 2 ^ 19, 2 ^ 20, 2 ^ 23, 2 ^ 24, 2 ^ 31, 2 ^ 32]

def Fmt.rvConst (f : Fmt) (i : Nat) : Nat :=
  match i with
  | 0 => (f.round 0 false true 1 0).1
  | 1 => 2 ^ f.fb
  | 30 => f.infCode false
  | 31 => f.rvNan
  | _ => (f.round 0 false false (fliValues.getD (i - 2) 0) (-16)).1

/-! ### Estimates of 7 bits -/

/-- The two upper digits of a magnitude as the estimates index them: exponent of the leading bit and 7 fraction bits. -/
def estParts (m : Nat) (e : Int) : Int × Nat := ((m.log2 : Int) + e, m * 2 ^ 7 / 2 ^ m.log2 % 128)

/-- 128 × (2 / x − 1) at the middle of a step of the mantissa, rounded. -/
def rec7 (i : Nat) : Nat := (256 * 256 * 2 + (257 + 2 * i)) / (2 * (257 + 2 * i)) - 128

/-- 128 × (2 / √x − 1) at the middle of a step, rounded; x in [1, 2) for an even exponent, in [2, 4) for an odd one. -/
def rsqrt7 (odd : Bool) (i : Nat) : Nat :=
  -- 256 / √x with x = (129 + 2 i) / 128, doubled where odd
  let d := (129 + 2 * i) * (if odd then 2 else 1)
  let r := isqrt 60 (2 ^ 16 * 128 * 2 ^ 40 / d)
  (r / 2 ^ 19 + 1) / 2 - 128

/-- `VFREC7`. -/
def Fmt.rvRec7 (f : Fmt) (rm c : Nat) : FRes :=
  match f.val c with
  | .nan _ _ => f.rvDone rm [c] false none
  | .inf n => (f.signBit n, 0)
  | .num n m e =>
    if m = 0 then (f.infCode n, fDZ)
    else
      let p := estParts m e
      let top : Int := -p.1 - 1
      let mant := rec7 p.2 * 2 ^ f.fb / 128
      let b := top + f.bias
      if b < -1 then (f.signBit n, 0)   -- not reached: the exponent of a reciprocal is at least −1 − bias
      else if (2 ^ f.eb - 1 : Int) ≤ b then
        (f.signBit n + (if rm = 0 ∨ rm = 8 ∨ (rm = 2 ∧ !n) ∨ (rm = 3 ∧ n) then f.infCode false else f.maxCode), fOF + fNX)
      else if b ≤ 0 then (f.signBit n + (mant + 2 ^ f.fb) / 2 ^ (1 - b).toNat, 0)
      else (f.signBit n + b.toNat * 2 ^ f.fb + mant, 0)

/-- `VFRSQRT7`. -/
def Fmt.rvRsqrt7 (f : Fmt) (rm c : Nat) : FRes :=
  match f.val c with
  | .nan _ _ => f.rvDone rm [c] false none
  | .inf n => if n then (f.rvNan, fNV) else (0, 0)
  | .num n m e =>
    if m = 0 then (f.infCode n, fDZ)
    else if n then (f.rvNan, fNV)
    else
      let top : Int := (m.log2 : Int) + e
      let odd := top % 2 != 0
      let i := m * 2 ^ 6 / 2 ^ m.log2 % 64
      let q : Int := if odd then (top - 1) / 2 else top / 2
      ((-q - 1 + f.bias).toNat * 2 ^ f.fb + rsqrt7 odd i * 2 ^ f.fb / 128, 0)

/-! ### The words -/

/-- A value of a format in a 64-bit register: narrower ones lie under ones. -/
def Fmt.box (f : Fmt) (c : Nat) : Word := BitVec.ofNat 64 (2 ^ 64 - 2 ^ f.width + c % 2 ^ f.width)

/-- A register as a value of a format; one that is not boxed is the canonical NaN. -/
def Fmt.unbox (f : Fmt) (v : Word) : Nat :=
  if v.toNat / 2 ^ f.width = 2 ^ (64 - f.width) - 1 then v.toNat % 2 ^ f.width else f.rvNan

/-- What a floating-point word gives: a value for an f register or an x register, with flags. -/
inductive FOut where
  | f (v : Word) (flags : Nat)
  | x (v : Word) (flags : Nat)
  deriving DecidableEq, Repr

def Fmt.toF (f : Fmt) (r : FRes) : FOut := .f (f.box r.1) r.2

/-- A value of `w` bits, sign-extended into an x register. -/
def toX (w : Nat) (r : FRes) : FOut := .x (sextNat w r.1) r.2

/-- A register operation of `OP-FP`: `a`, `b` its f operands, `x` its x operand, `frm` the dynamic mode. -/
def rvFloat (w frm : Nat) (a b x : Word) : Option FOut := do
  let f ← rvFmt (rvBits w 26 25)
  let f3 := rvBits w 14 12
  let r2 := rvBits w 24 20
  let fa := f.unbox a
  let fb := f.unbox b
  let half := f == Fmt.f16
  let arith := fun (op : Nat → FOut) => if half then none else (rvMode f3 frm).map op
  match rvBits w 31 27 with
  | 0 => arith fun rm => f.toF (f.rvAdd rm fa fb)
  | 1 => arith fun rm => f.toF (f.rvSub rm fa fb)
  | 2 => arith fun rm => f.toF (f.rvMul rm fa fb)
  | 3 => arith fun rm => f.toF (f.rvDiv rm fa fb)
  | 0x0B => if r2 = 0 then arith fun rm => f.toF (f.rvSqrt rm fa) else none
  | 4 => if half || decide (2 < f3) then none else some (f.toF (f.rvSign f3 fa fb, 0))
  | 5 => if half || decide (3 < f3) then none else some (f.toF (f.rvMinmax (f3 % 2 == 1) (decide (2 ≤ f3)) fa fb))
  | 8 =>
    if r2 = 4 then arith fun rm => f.toF (f.rvRoundInt rm false fa)
    else if r2 = 5 then arith fun rm => f.toF (f.rvRoundInt rm true fa)
    else do
      let g ← rvFmt r2
      let rm ← rvMode f3 frm
      if g = f then none else some (f.toF (rvConvert g f rm (g.unbox a)))
  | 0x14 =>
    if half then none
    else
      let cmp := fun k q => let r := f.rvCompare k q fa fb; FOut.x (boolWord r.1) r.2
      match f3 with
      | 0 => some (cmp 2 false) | 1 => some (cmp 1 false) | 2 => some (cmp 0 true)
      | 4 => some (cmp 2 true) | 5 => some (cmp 1 true) | _ => none
  | 0x18 =>
    if r2 = 8 ∧ f = Fmt.f64 ∧ f3 = 1 then some (toX 32 (rvConvertMod fa))
    else if 4 ≤ r2 then none
    else
      let n := if r2 < 2 then 32 else 64
      arith fun rm => toX n (f.rvToInt rm n (r2 % 2 == 0) fa)
  | 0x1A => if 4 ≤ r2 then none else arith fun rm => f.toF (f.rvOfInt rm (if r2 < 2 then 32 else 64) (r2 % 2 == 0) x.toNat)
  | 0x1C =>
    if r2 ≠ 0 then none
    else if f3 = 0 then some (.x (sextNat f.width a.toNat) 0)
    else if f3 = 1 ∧ !half then some (.x (BitVec.ofNat 64 (f.rvClass fa)) 0)
    else none
  | 0x1E =>
    if f3 ≠ 0 then none
    else if r2 = 0 then some (.f (f.box x.toNat) 0)
    else if r2 = 1 ∧ !half then some (.f (f.box (f.rvConst (rvBits w 19 15))) 0)
    else none
  | _ => none

/-- A fused multiply-add word by its opcode. -/
def rvFused (w frm : Nat) (a b c : Word) : Option FOut := do
  let f ← rvFmt (rvBits w 26 25)
  let rm ← rvMode (rvBits w 14 12) frm
  let k := rvBits w 3 2
  if f = Fmt.f16 then none
  else some (f.toF (f.rvFma rm (decide (2 ≤ k)) (k == 1 || k == 3) (f.unbox a) (f.unbox b) (f.unbox c)))

end Sys2Proof.Machine
end

