-- ==== Sys2Proof/Machine/FerleLanes.lean ====
section
/-! DEFINITION. What a Ferle hart's vector words do to one element: integer, fixed-point and floating-point lanes of the V extension, with Zvbb
(PRESUMED, log 13). Elements are numbers below 2^w; `a` is the element of `vs2`, `b` that of `vs1`, of the scalar or of the immediate. -/

namespace Sys2Proof.Machine

/-! ### Integers -/

/-- A number as a `w`-bit element. -/
def vlane (w : Nat) (x : Int) : Nat := wrapInt w x

/-- v / 2^d rounded by `vxrm`: to nearest up, to nearest even, down, to odd. -/
def vround (rm : Nat) (v : Int) (d : Nat) : Int :=
  let q := v / 2 ^ d
  let r := v % 2 ^ d
  let half : Int := if d = 0 then 1 else 2 ^ (d - 1)
  let up : Bool := match rm with
    | 0 => d != 0 && decide (half ≤ r)
    | 1 => d != 0 && (decide (half < r) || (decide (r = half) && decide (q % 2 = 1)))
    | 2 => false
    | _ => decide (r ≠ 0 ∧ q % 2 = 0)
  if up then q + 1 else q

/-- An exact value brought into a range: the element, and 1 where it saturates. -/
def vclip (w : Nat) (sgn : Bool) (x : Int) : Nat × Nat :=
  let lo : Int := if sgn then intMin w else 0
  let hi : Int := if sgn then intMax w else 2 ^ w - 1
  if x < lo then (vlane w lo, 1) else if hi < x then (vlane w hi, 1) else (vlane w x, 0)

/-- Bits of a value in reverse order. -/
def revBits : Nat → Nat → Nat
  | 0, _ => 0
  | n + 1, v => v % 2 * 2 ^ n + revBits n (v / 2)

/-- The bytes of an element with `f` applied to each. -/
def mapBytes (f : Nat → Nat) : Nat → Nat → Nat
  | 0, _ => 0
  | n + 1, v => f (v % 256) + 256 * mapBytes f n (v / 256)

/-- `OPI` words of one width: the element and its saturation. -/
def vopi (f6 w rm a b : Nat) : Option (Nat × Nat) :=
  let s := b % w
  let ia := toInt w a
  let ib := toInt w b
  let un := fun (x : Nat) => some (x % 2 ^ w, 0)
  match f6 with
  | 0x00 => un (a + b)
  | 0x01 => un (a &&& (2 ^ w - 1 - b % 2 ^ w))
  | 0x02 => some (vlane w ((a : Int) - b), 0)
  | 0x03 => some (vlane w ((b : Int) - a), 0)
  | 0x04 => un (min a b)
  | 0x05 => un (if ib < ia then b else a)
  | 0x06 => un (max a b)
  | 0x07 => un (if ia < ib then b else a)
  | 0x09 => un (a &&& b)
  | 0x0A => un (a ||| b)
  | 0x0B => un (a ^^^ b)
  | 0x14 => un (rotl w a (w - s))
  | 0x15 => un (rotl w a s)
  | 0x20 => some (vclip w false ((a : Int) + b))
  | 0x21 => some (vclip w true (ia + ib))
  | 0x22 => some (vclip w false ((a : Int) - b))
  | 0x23 => some (vclip w true (ia - ib))
  | 0x25 => un (a * 2 ^ s)
  | 0x27 => some (vclip w true (vround rm (ia * ib) (w - 1)))
  | 0x28 => un (a / 2 ^ s)
  | 0x29 => some (vlane w (ia / 2 ^ s), 0)
  | 0x2A => some (vlane w (vround rm a s), 0)
  | 0x2B => some (vlane w (vround rm ia s), 0)
  | _ => none

/-- `OPM` words of one width. -/
def vopm (f6 w rm a b : Nat) : Option Nat :=
  let ia := toInt w a
  let ib := toInt w b
  match f6 with
  | 0x08 => some (vlane w (vround rm ((a : Int) + b) 1))
  | 0x09 => some (vlane w (vround rm (ia + ib) 1))
  | 0x0A => some (vlane w (vround rm ((a : Int) - b) 1))
  | 0x0B => some (vlane w (vround rm (ia - ib) 1))
  | 0x20 => some (rvDiv w false a b)
  | 0x21 => some (rvDiv w true a b)
  | 0x22 => some (rvRem w false a b)
  | 0x23 => some (rvRem w true a b)
  | 0x24 => some (a * b / 2 ^ w)
  | 0x25 => some (a * b % 2 ^ w)
  | 0x26 => some (vlane w (ia * b / 2 ^ w))
  | 0x27 => some (vlane w (ia * ib / 2 ^ w))
  | _ => none

/-- Multiply-add words: `d` is the old element of `vd`. -/
def vmac (f6 w a b d : Nat) : Option Nat :=
  match f6 with
  | 0x29 => some (vlane w ((b : Int) * d + a))
  | 0x2B => some (vlane w ((a : Int) - b * d))
  | 0x2D => some (vlane w ((b : Int) * a + d))
  | 0x2F => some (vlane w ((d : Int) - b * a))
  | _ => none

/-- Widening words: `w` is the narrow width; `a` is wide for the codes 0x34-0x37. -/
def vwide (f6 w a b d : Nat) : Option Nat :=
  let sa := toInt w a
  let sb := toInt w b
  let out := fun (x : Int) => some (vlane (2 * w) x)
  match f6 with
  | 0x30 => out ((a : Int) + b)
  | 0x31 => out (sa + sb)
  | 0x32 => out ((a : Int) - b)
  | 0x33 => out (sa - sb)
  | 0x34 => out ((a : Int) + b)
  | 0x35 => out ((a : Int) + sb)
  | 0x36 => out ((a : Int) - b)
  | 0x37 => out ((a : Int) - sb)
  | 0x38 => out ((a : Int) * b)
  | 0x3A => out (sa * b)
  | 0x3B => out (sa * sb)
  | 0x3C => out ((a : Int) * b + d)
  | 0x3D => out (sa * sb + d)
  | 0x3E => out (sa * b + d)
  | 0x3F => out ((a : Int) * sb + d)
  | _ => none

/-- Narrowing words: `a` is 2w bits wide. -/
def vnarrow (f6 w rm a b : Nat) : Option (Nat × Nat) :=
  let s := b % (2 * w)
  let ia := toInt (2 * w) a
  match f6 with
  | 0x2C => some (a / 2 ^ s % 2 ^ w, 0)
  | 0x2D => some (vlane w (ia / 2 ^ s), 0)
  | 0x2E => some (vclip w false (vround rm a s))
  | 0x2F => some (vclip w true (vround rm ia s))
  | _ => none

/-- Integer comparisons. -/
def vcmp (f6 w a b : Nat) : Option Bool :=
  let ia := toInt w a
  let ib := toInt w b
  match f6 with
  | 0x18 => some (a == b)
  | 0x19 => some (a != b)
  | 0x1A => some (decide (a < b))
  | 0x1B => some (decide (ia < ib))
  | 0x1C => some (decide (a ≤ b))
  | 0x1D => some (decide (ia ≤ ib))
  | 0x1E => some (decide (b < a))
  | 0x1F => some (decide (ib < ia))
  | _ => none

/-- Single-width reductions. -/
def vred (f6 w a b : Nat) : Option Nat :=
  let ia := toInt w a
  let ib := toInt w b
  match f6 with
  | 0 => some ((a + b) % 2 ^ w)
  | 1 => some (a &&& b)
  | 2 => some (a ||| b)
  | 3 => some (a ^^^ b)
  | 4 => some (min a b)
  | 5 => some (if ib < ia then b else a)
  | 6 => some (max a b)
  | 7 => some (if ia < ib then b else a)
  | _ => none

/-- Words on one integer operand of the same width, by their `vs1` code. -/
def vun (k w a : Nat) : Option Nat :=
  match k with
  | 8 => some (mapBytes (revBits 8) (w / 8) a)
  | 9 => some (bytesNat (natBytes (w / 8) a).reverse)
  | 10 => some (revBits w a)
  | 12 => some (leading w a)
  | 13 => some (trailing w a)
  | 14 => some (countOnes w a)
  | _ => none

/-- Words on mask bits: `a` of `vs2`, `b` of `vs1`. -/
def vmaskOp (f6 : Nat) (a b : Bool) : Option Bool :=
  match f6 with
  | 0x18 => some (a && !b)
  | 0x19 => some (a && b)
  | 0x1A => some (a || b)
  | 0x1B => some (a != b)
  | 0x1C => some (a || !b)
  | 0x1D => some (!(a && b))
  | 0x1E => some (!(a || b))
  | 0x1F => some (a == b)
  | _ => none

/-! ### Floating point -/

/-- The format of an element width. -/
def sewFmt (w : Nat) : Option Fmt :=
  match w with
  | 32 => some .f32 | 64 => some .f64 | _ => none

/-- `OPF` words of one width. -/
def vopf (f : Fmt) (f6 rm a b : Nat) : Option FRes :=
  match f6 with
  | 0x00 => some (f.rvAdd rm a b)
  | 0x02 => some (f.rvSub rm a b)
  | 0x04 => some (f.rvMinmax false false a b)
  | 0x06 => some (f.rvMinmax true false a b)
  | 0x08 => some (f.rvSign 0 a b, 0)
  | 0x09 => some (f.rvSign 1 a b, 0)
  | 0x0A => some (f.rvSign 2 a b, 0)
  | 0x20 => some (f.rvDiv rm a b)
  | 0x21 => some (f.rvDiv rm b a)
  | 0x24 => some (f.rvMul rm a b)
  | 0x27 => some (f.rvSub rm b a)
  | _ => none

/-- Fused words: codes 0x28-0x2B multiply by the destination, 0x2C-0x2F add it. -/
def vfma (f : Fmt) (k rm a b d : Nat) : FRes :=
  let np := k % 4 == 1 || k % 4 == 3
  let nc := k % 4 == 1 || k % 4 == 2
  if k < 0x2C then f.rvFma rm np nc b d a else f.rvFma rm np nc b a d

/-- Comparisons into a mask. -/
def vfcmp (f : Fmt) (f6 a b : Nat) : Option (Bool × Nat) :=
  match f6 with
  | 0x18 => some (f.rvCompare 0 true a b)
  | 0x19 => some (f.rvCompare 2 false a b)
  | 0x1B => some (f.rvCompare 1 false a b)
  | 0x1C => let r := f.rvCompare 0 true a b; some (!r.1, r.2)
  | 0x1D => some (f.rvCompare 1 false b a)
  | 0x1F => some (f.rvCompare 2 false b a)
  | _ => none

/-- Words on one floating operand of the same width (`VFUNARY1`). -/
def vfun (f : Fmt) (k rm a : Nat) : Option FRes :=
  match k with
  | 0 => some (f.rvSqrt rm a)
  | 4 => some (f.rvRsqrt7 rm a)
  | 5 => some (f.rvRec7 rm a)
  | 16 => some (f.rvClass a, 0)
  | _ => none

/-- A conversion (`VFUNARY0`): widths of source and destination, and the lane; `w` is the element width. None for one the profile lacks. -/
def vconv (k w rm : Nat) : Option (Nat × Nat × (Nat → FRes)) :=
  let src := if k < 16 then w else 2 * w
  let dst := if k < 8 then w else if k < 16 then 2 * w else w
  let mode := if k % 8 = 6 ∨ k % 8 = 7 then 1 else rm
  let toI := fun (sgn : Bool) => (sewFmt src).map fun f => (src, dst, f.rvToInt mode dst sgn)
  let ofI := fun (sgn : Bool) => (sewFmt dst).map fun f => (src, dst, f.rvOfInt rm src sgn)
  if 64 < src ∨ 64 < dst then none
  else match k with
    | 0 | 8 | 16 | 6 | 14 | 22 => toI false
    | 1 | 9 | 17 | 7 | 15 | 23 => toI true
    | 2 | 10 | 18 => ofI false
    | 3 | 11 | 19 => ofI true
    | 12 =>
      match w with
      | 16 => some (16, 32, rvConvert .f16 .f32 rm)
      | 32 => some (32, 64, rvConvert .f32 .f64 rm)
      | _ => none
    | 20 =>
      match w with
      | 16 => some (32, 16, rvConvert .f32 .f16 rm)
      | 32 => some (64, 32, rvConvert .f64 .f32 rm)
      | _ => none
    | 21 => if w = 32 then some (64, 32, rvConvert .f64 .f32 9) else none
    | _ => none

/-- A single-precision element as a double-precision one. -/
def widenF (c : Nat) : FRes := rvConvert .f32 .f64 0 c

/-- Widening floating words; `a` is wide for the codes 0x34 and 0x36. -/
def vfwide (f6 rm a b d : Nat) : Option FRes :=
  let x := if f6 = 0x34 ∨ f6 = 0x36 then (a, 0) else widenF a
  let y := widenF b
  let out := fun (r : FRes) => some (r.1, r.2 ||| x.2 ||| y.2)
  match f6 with
  | 0x30 | 0x34 => out (Fmt.f64.rvAdd rm x.1 y.1)
  | 0x32 | 0x36 => out (Fmt.f64.rvSub rm x.1 y.1)
  | 0x38 => out (Fmt.f64.rvMul rm x.1 y.1)
  | 0x3C | 0x3D | 0x3E | 0x3F => out (vfma .f64 (f6 - 0x10) rm x.1 y.1 d)
  | _ => none

end Sys2Proof.Machine
end

