-- ==== Sys2Proof/Machine/Harts.lean ====
section
/-! DEFINITION. The Ferle harts (R429-R432): privilege, traps, Sv57 translation, capabilities, memory with the order of R115, atomics and control
registers. All but the sandbox and the capabilities is RISC-V's (PRESUMED, log 13). -/

namespace Sys2Proof.Machine

/-! ### Harts -/

def State.hartAt (s : State) (h : Nat) : Hart := aget Hart.reset h s.harts

def State.putHart (s : State) (h : Nat) (x : Hart) : State := { s with harts := aput Hart.reset h x s.harts }

def Hart.get (x : Hart) (r : Nat) : Word := if r = 0 then 0 else x.x.getD (r - 1) 0

def Hart.set (x : Hart) (r : Nat) (v : Word) : Hart := if r = 0 then x else { x with x := x.x.set (r - 1) v }

/-- Context and sandbox of the hart (R430). -/
def Hart.ctx (x : Hart) : Nat := bitsAt x.fsbx 50 6
def Hart.sbx (x : Hart) : Nat := bitsAt x.fsbx 42 8
def Hart.sandboxed (x : Hart) : Bool := bitAt x.fsbx 63

/-- The hart as a requester (R71, R120). -/
def Hart.who (x : Hart) (h : Nat) : Who := { agent := 8 + h / 8, clu := none, core := none, ctx := x.ctx, die := 8, asker := some (.hart h) }

def hartAgent (h : Nat) : Nat := 2048 + h

/-- Why an instruction of a hart does not complete. -/
inductive HStop where
  /-- It takes an exception. -/
  | trap (cause : Nat) (tval : Word)
  /-- It takes an exception with some of its elements done. -/
  | trapAt (s : State) (cause : Nat) (tval : Word)
  /-- It waits for memory and is tried again. -/
  | wait (s : State)
  /-- It would consume poisoned data (R56). -/
  | uncorr (va : Word)
  deriving DecidableEq, Repr

abbrev HM (α : Type) := Except HStop α

/-- The illegal-instruction exception. -/
def hartIllegal {α : Type} (w : Nat) : HM α := .error (.trap 2 (BitVec.ofNat 64 w))

/-! ### Privilege and traps -/

def Priv.num : Priv → Nat
  | .u => 0 | .s => 1 | .m => 3

def Priv.ofNum : Nat → Priv
  | 0 => .u | 1 => .s | _ => .m

/-- The address a trap goes to. -/
def trapVector (tvec : Word) (intr : Bool) (code : Nat) : Word :=
  (tvec &&& ~~~(3 : Word)) + (if intr && bitAt tvec 0 then BitVec.ofNat 64 (4 * code) else 0)

def trapCauseWord (intr : Bool) (code : Nat) : Word := mkWord [(b2n intr, 63), (code, 0)]

def Hart.enterM (x : Hart) (intr : Bool) (code : Nat) (tval : Word) : Hart :=
  { x with
    mepc := x.pc, mcause := trapCauseWord intr code, mtval := tval, priv := .m, wfi := false
    mstatus := setBits (setBits (setBits x.mstatus 11 2 x.priv.num) 7 1 (bitsAt x.mstatus 3 1)) 3 1 0
    pc := trapVector x.mtvec intr code }

def Hart.enterS (x : Hart) (intr : Bool) (code : Nat) (tval : Word) : Hart :=
  { x with
    sepc := x.pc, scause := trapCauseWord intr code, stval := tval, priv := .s, wfi := false
    mstatus := setBits (setBits (setBits x.mstatus 8 1 (x.priv.num % 2)) 5 1 (bitsAt x.mstatus 1 1)) 1 1 0
    pc := trapVector x.stvec intr code }

/-- Takes an exception or an interrupt at the level it is delegated to; a `.sc` operation that waited has not happened. -/
def Hart.take (x : Hart) (intr : Bool) (code : Nat) (tval : Word) : Hart :=
  let x := { x with scWait := none }
  if x.priv != .m && bitAt (if intr then x.mideleg else x.medeleg) code then x.enterS intr code tval else x.enterM intr code tval

/-- A future that the hart's sandbox may claim (R438, R440). -/
def State.claimable (s : State) (x : Hart) (f : Future) : Bool :=
  f.st == 1 && !f.cpy && f.ctx == x.ctx && f.sbx == x.sbx && (!f.rem || !f.hw)

/-- `menvcfg.STCE`: `stimecmp` is the supervisor timer. -/
def Hart.stce (x : Hart) : Bool := bitAt x.menvcfg 63

/-- `mip`: bit 16 while the sandbox queue holds a pending entry; the supervisor timer's bit while Quartz has reached `stimecmp`. -/
def State.mipOf (s : State) (x : Hart) : Word :=
  (if x.stce then setBits x.mip 5 1 (b2n !(s.quartz.ult x.stimecmp)) else x.mip) |||
    (if x.sandboxed && s.futures.any (s.claimable x) then 0x10000 else 0)

/-- Interrupts in order of priority. -/
def intrOrder : List Nat := [11, 3, 7, 9, 1, 5, 16]

/-- The interrupt the hart takes now. -/
def State.intrOf (s : State) (x : Hart) : Option Nat :=
  let p := s.mipOf x &&& x.mie
  let m := x.priv != .m || bitAt x.mstatus 3
  let sv := x.priv == .u || (x.priv == .s && bitAt x.mstatus 1)
  match intrOrder.find? fun i => m && bitAt p i && !bitAt x.mideleg i with
  | some i => some i
  | none => intrOrder.find? fun i => sv && bitAt p i && bitAt x.mideleg i

/-! ### Capabilities and translation (R431) -/

inductive HAcc where
  | fetch | load | store | amo
  deriving DecidableEq, Repr

def HAcc.pageFault : HAcc → Nat
  | .fetch => 12 | .load => 13 | _ => 15

def HAcc.accessFault : HAcc → Nat
  | .fetch => 1 | .load => 5 | _ => 7

/-- Rights of an `FCAPL` the access needs. -/
def HAcc.capBits : HAcc → List Nat
  | .fetch => [54] | .load => [56] | .store => [55] | .amo => [56, 55]

/-- Some capability pair admits a U-mode access. -/
def Hart.capOk (x : Hart) (acc : HAcc) (va n : Nat) : Bool :=
  (List.range 16).any fun i =>
    let b := (x.fcapb.getD i 0).toNat
    let l := x.fcapl.getD i 0
    bitAt l 57 && bitsAt l 58 6 == x.ctx && acc.capBits.all (bitAt l) && decide (b ≤ va ∧ va + n ≤ b + bitsAt l 0 54)

/-- Levels of the table `satp` selects; 0 = none. -/
def Hart.levels (x : Hart) : Nat :=
  match bitsAt x.satp 60 4 with
  | 8 => 3 | 9 => 4 | 10 => 5 | _ => 0

/-- A leaf admits the access. -/
def leafOk (pte : Word) (p : Priv) (acc : HAcc) (sum mxr : Bool) (level : Nat) : Bool :=
  let user := bitAt pte 4
  let who := if p == .u then user else !user || (acc != .fetch && sum)
  let right := match acc with
    | .fetch => bitAt pte 3
    | .load => bitAt pte 1 || (mxr && bitAt pte 3)
    | .store => bitAt pte 2
    | .amo => bitAt pte 2 && bitAt pte 1
  let dirty := bitAt pte 6 && ((acc != .store && acc != .amo) || bitAt pte 7)
  who && right && dirty && bitsAt pte 10 44 % 2 ^ (9 * level) == 0 &&
    (!bitAt pte 63 || (level == 0 && bitsAt pte 10 4 == 8))

/-- The table walk of `level` + 1 levels from the table at page `ppn`. -/
def State.hartWalk (s : State) (p : Priv) (acc : HAcc) (sum mxr pbmt : Bool) (va : Nat) : Nat → Nat → HM Nat
  | 0, _ => .error (.trap acc.pageFault (BitVec.ofNat 64 va))
  | level + 1, ppn =>
    let a := ppn * 4096 + va / 2 ^ (12 + 9 * level) % 512 * 8
    if 2 ^ 52 ≤ a ∨ !physOk a then .error (.trap acc.accessFault (BitVec.ofNat 64 va))
    else
      let pte := s.wordAt a
      let bad := !bitAt pte 0 || (!bitAt pte 1 && bitAt pte 2) || bitsAt pte 54 7 != 0 || bitsAt pte 61 2 == 3 || (!pbmt && bitsAt pte 61 2 != 0)
      if bad then .error (.trap acc.pageFault (BitVec.ofNat 64 va))
      else if bitAt pte 1 || bitAt pte 3 then
        if !leafOk pte p acc sum mxr level then .error (.trap acc.pageFault (BitVec.ofNat 64 va))
        else
          let low := if bitAt pte 63 then 2 ^ 16 else 2 ^ (12 + 9 * level)
          .ok (bitsAt pte 10 44 * 4096 / low * low + va % low)
      else if bitsAt pte 4 1 + bitsAt pte 6 2 + bitsAt pte 61 3 ≠ 0 then .error (.trap acc.pageFault (BitVec.ofNat 64 va))
      else s.hartWalk p acc sum mxr pbmt va level (bitsAt pte 10 44)

/-- The physical address of a virtual one. -/
def State.hartPa (s : State) (x : Hart) (p : Priv) (acc : HAcc) (va : Nat) : HM Nat :=
  if p = .m ∨ x.levels = 0 then .ok va
  else
    let top := 11 + 9 * x.levels
    if va / 2 ^ top ≠ 0 ∧ va / 2 ^ top ≠ 2 ^ (64 - top) - 1 then .error (.trap acc.pageFault (BitVec.ofNat 64 va))
    else s.hartWalk p acc (bitAt x.mstatus 18) (bitAt x.mstatus 19) (bitAt x.menvcfg 62) va x.levels (bitsAt x.satp 0 44)

/-- The place of `n` bytes at a physical address: memory, or a device register, which tool code does not reach (R85, R401). -/
def State.hartPlace (s : State) (p : Priv) (acc : HAcc) (va pa n : Nat) : HM Span :=
  let fault : HM Span := .error (.trap acc.accessFault (BitVec.ofNat 64 va))
  if 2 ^ 52 ≤ pa + n then fault
  else if region pa = 8 then
    (if p != .u && (acc == .load || acc == .store) && n == 8 && pa % 8 == 0 then .ok { place := .dev, addr := pa % 2 ^ 48, len := 8, grain := 0, pol := 0 }
     else fault)
  else if !physOk pa || !physOk (pa + n - 1) || (region pa == 2 && (s.cxlSeg pa).isNone) then fault
  else .ok { place := .mem, addr := pa, len := n, grain := 0, pol := 0 }

/-- The spans of an access, page by page. -/
def State.hartRuns (s : State) (x : Hart) (p : Priv) (acc : HAcc) : Nat → Nat → Nat → HM (List Span)
  | 0, _, _ => .ok []
  | f + 1, va, n =>
    if n = 0 then .ok []
    else do
      let k := min n (4096 - va % 4096)
      let pa ← s.hartPa x p acc va
      let sp ← s.hartPlace p acc va pa k
      let rest ← s.hartRuns x p acc f (va + k) (n - k)
      .ok (sp :: rest)

/-- An access at privilege `p`: the capability check comes first and covers every byte (R431). -/
def State.hartAccess (s : State) (x : Hart) (p : Priv) (acc : HAcc) (va n : Nat) : HM (List Span) :=
  if p = .u ∧ n ≠ 0 ∧ !x.capOk acc va n then .error (.trap acc.accessFault (BitVec.ofNat 64 va))
  else s.hartRuns x p acc (n / 4096 + 2) va n

/-- Privilege of loads and stores. -/
def Hart.dataPriv (x : Hart) : Priv := if bitAt x.mstatus 17 then Priv.ofNum (bitsAt x.mstatus 11 2) else x.priv

/-- The address that a load or store uses: in U- and S-mode `senvcfg.PMM` and `menvcfg.PMM` mask its upper bits. -/
def Hart.dataAddr (x : Hart) (va : Word) : Nat :=
  let pmm := match x.dataPriv with | .u => bitsAt x.senvcfg 32 2 | .s => bitsAt x.menvcfg 32 2 | .m => 0
  if bitAt x.mstatus 19 then va.toNat
  else match pmm with
    | 2 => (sextNat 57 va.toNat).toNat
    | 3 => (sextNat 48 va.toNat).toNat
    | _ => va.toNat

/-! ### Loads and stores -/

/-- The hart waits at the home agent of a byte (R65, R75). -/
def State.hartWait {α : Type} (s : State) (w : Who) (pa : Nat) : HM α := .error (.wait (s.enqueue w pa))

/-- Reads `n` bytes at a virtual address. -/
def State.hartRead (s : State) (h : Nat) (p : Priv) (acc : HAcc) (va n : Nat) : HM (State × List Byte) := do
  let x := s.hartAt h
  let ss ← s.hartAccess x p acc va n
  match devSpan ss with
  | some d => .ok (s, wordBytes (s.devRead d))
  | none =>
    if s.notYet (.hart h) then .error (.wait s)
    else match s.readSpans (x.who h) ss with
      | .error pa => s.hartWait (x.who h) pa
      | .ok (s', bs, bad) => if bad then .error (.uncorr (BitVec.ofNat 64 va)) else .ok (s', bs)

/-- Writes bytes at a virtual address. -/
def State.hartWrite (s : State) (h : Nat) (p : Priv) (acc : HAcc) (va : Nat) (bs : List Byte) : HM State := do
  let x := s.hartAt h
  let ss ← s.hartAccess x p acc va bs.length
  match devSpan ss with
  | some d => .ok (s.devWrite d (BitVec.ofNat 64 (bytesNat bs)))
  | none =>
    if s.notYet (.hart h) then .error (.wait s)
    else match s.writeSpans (x.who h) ss bs with
      | .error pa => s.hartWait (x.who h) pa
      | .ok s' => .ok s'

/-- The hart completes: it writes `rd` and goes on at `pc`. -/
def State.hartDone (s : State) (h rd : Nat) (v pc : Word) : State :=
  s.putHart h { (s.hartAt h).set rd v with pc := pc }

def State.hartLoad (s : State) (h f3 rd : Nat) (va pc : Word) (w : Nat) : HM State := do
  if f3 = 7 then hartIllegal w
  else do
    let x := s.hartAt h
    let n := 2 ^ (f3 % 4)
    let r ← s.hartRead h x.dataPriv .load (x.dataAddr va) n
    let v := bytesNat r.2
    .ok (r.1.hartDone h rd (if f3 < 4 then sextNat (8 * n) v else BitVec.ofNat 64 v) pc)

def State.hartStore (s : State) (h f3 : Nat) (va v pc : Word) (w : Nat) : HM State := do
  if 4 ≤ f3 then hartIllegal w
  else do
    let x := s.hartAt h
    let s' ← s.hartWrite h x.dataPriv .store (x.dataAddr va) (natBytes (2 ^ f3) v.toNat)
    .ok (s'.hartDone h 0 0 pc)

/-! ### Atomics (R99, R115) -/

/-- Physical address of the first byte. -/
def headAddr (ss : List Span) : Nat := (ss.head?.map (·.addr)).getD 0

/-- A `FENCE.sc` of a core with a smaller stamp, whose scope takes in the harts, is under way (R98). -/
def State.fenceBeforeHart (s : State) (t : Nat × Nat) : Bool :=
  s.allCores.any fun c => c.strands.any fun σ => match σ.fence with
    | some (u, i, sc) => stampLt (u, i) t && decide (3 ≤ sc)
    | none => false

/-- The hart's `.sc` operation must wait: one with a smaller stamp can still reach its bytes (R99). -/
def State.hartBlocked (s : State) (t : Nat × Nat) (ss : List Span) : Bool :=
  decide (s.now ≤ t.1) || s.fenceBeforeHart t || s.hartBefore t ss ||
    s.allCores.any fun c => c.ops.any fun p => match p.stamp with
      | none => false
      | some u => stampLt u t && p.spans.any fun a => ss.any fun b => s.spansMeet a b

/-- With both `aq` and `rl` the operation is `.sc` at `.pkg`: it takes a stamp when it issues, and waits its turn (R99, R115). -/
def State.hartScTurn (s : State) (h : Nat) (sc : Bool) (ss : List Span) (n : Nat) : HM (Option (Nat × Nat)) :=
  let x := s.hartAt h
  if !sc then .ok none
  else match x.scWait with
    | some (t, a, m) =>
      if a = headAddr ss ∧ m = n ∧ !s.hartBlocked (t, 2048 + h) ss then .ok (some (t, 2048 + h)) else .error (.wait s)
    | none =>
      let t := max s.now (max (x.scLast + 1) (s.moduleFloor + 1))
      .error (.wait (s.putHart h { x with scLast := t, scWait := some (t, headAddr ss, n) }))

/-- The `.sc` operation is performed: what it read raises `sc_last`, and what it wrote bears its stamp. -/
def State.hartScDone (s : State) (h : Nat) (seen : Nat) (t : Option (Nat × Nat)) (written : List Span) : State :=
  match t with
  | none => s
  | some u =>
    let x := s.hartAt h
    (s.putHart h { x with scLast := max x.scLast seen, scWait := none }).scMark (some u) written

/-- Both order bits of an atomic word. -/
def bothOrders (w : Nat) : Bool := rvBits w 26 25 == 3

def State.hartLr (s : State) (h n rd : Nat) (va pc : Word) (w : Nat) : HM State := do
  let x := s.hartAt h
  let a := x.dataAddr va
  let ss ← s.hartAccess x x.dataPriv .load a n
  if ss.any fun p => p.place == .dev then .error (.trap 5 va)
  else do
    let t ← s.hartScTurn h (bothOrders w) ss n
    let seen := s.scStamp ss
    let r ← s.hartRead h x.dataPriv .load a n
    let s' := (r.1.hartScDone h seen t []).hartDone h rd (sextNat (8 * n) (bytesNat r.2)) pc
    .ok (s'.putHart h { s'.hartAt h with resv := some (headAddr ss, n) })

def State.hartSc (s : State) (h n rd : Nat) (va v pc : Word) (w : Nat) : HM State := do
  let x := s.hartAt h
  let a := x.dataAddr va
  let ss ← s.hartAccess x x.dataPriv .store a n
  if ss.any fun p => p.place == .dev then .error (.trap 7 va)
  else do
    let t ← s.hartScTurn h (bothOrders w) ss n
    let held := x.resv == some (headAddr ss, n)
    let s' ← if held then s.hartWrite h x.dataPriv .store a (natBytes n v.toNat) else .ok s
    let s' := (s'.hartScDone h 0 t (if held then ss else [])).hartDone h rd (boolWord (!held)) pc
    .ok (s'.putHart h { s'.hartAt h with resv := none })

/-- Reads, combines and writes under one request for ownership (R69): the old bytes. -/
def State.hartModify (s : State) (h : Nat) (va : Word) (ss : List Span) (f : List Byte → Option (List Byte)) : HM (State × List Byte) :=
  let w := (s.hartAt h).who h
  if s.notYet (.hart h) then .error (.wait s)
  else match s.requestSpans w true ss with
    | .error pa => s.hartWait w pa
    | .ok (s', rss) =>
      let r := (s'.dequeue w.asker).readGranted w.ctx [] 0 ss rss
      if r.2.2 then .error (.uncorr va)
      else match f r.2.1 with
        | none => .ok (r.1, r.2.1)
        | some bs => .ok (r.1.writeGranted w.ctx ss rss bs, r.2.1)

/-- An AMO meets its log point as any atomic does (R453, R454); `AMOCAS` is no part of the profile. -/
def State.hartAmo (s : State) (h f5 n rd : Nat) (va v pc : Word) (w : Nat) : HM State := do
  let x := s.hartAt h
  let ss ← s.hartAccess x x.dataPriv .amo (x.dataAddr va) n
  if (rvAmo f5 n 0 0).isNone then hartIllegal w
  else do
    let t ← s.hartScTurn h (bothOrders w) ss n
    let s ← match s.logAdmit x.ctx (headAddr ss) (hartAgent h) (hartAgent h) 0 with
      | (some s', _) => Except.ok s'
      | (none, s') => .error (.wait s')
    let seen := s.scStamp ss
    let r ← s.hartModify h va ss fun old => (rvAmo f5 n (bytesNat old) v.toNat).map (natBytes n)
    .ok ((r.1.hartScDone h seen t ss).hartDone h rd (sextNat (8 * n) (bytesNat r.2)) pc)

def State.hartAtomic (s : State) (h : Nat) (w : Nat) (pc : Word) : HM State :=
  let x := s.hartAt h
  let f3 := rvBits w 14 12
  let f5 := rvBits w 31 27
  let rd := rvBits w 11 7
  let va := x.get (rvBits w 19 15)
  let v := x.get (rvBits w 24 20)
  let n := 2 ^ f3
  if !(f3 == 2 || f3 == 3) then hartIllegal w
  else if va.toNat % n ≠ 0 then .error (.trap (if f5 = 2 then 4 else 6) va)
  else if f5 = 2 then (if rvBits w 24 20 = 0 then s.hartLr h n rd va pc w else hartIllegal w)
  else if f5 = 3 then s.hartSc h n rd va v pc w
  else s.hartAmo h f5 n rd va v pc w

/-! ### Control registers -/

/-- Writable bits of `mstatus`, and those `sstatus` shows. -/
def mstatusMask : Word := 0x7E7FAA
def sstatusMask : Word := 0xC6722

/-- Extension lengths as read: 64 bits at every privilege. -/
def xlenBits : Word := 0xA00000000

/-- A dirty unit shows in bit 63. -/
def statusRead (m : Word) : Word :=
  m ||| xlenBits ||| (if bitsAt m 13 2 = 3 ∨ bitsAt m 9 2 = 3 then 0x8000000000000000 else 0)

/-- Extensions and width as `misa` reads: A, B, C, D, F, I, M, S, U, V at 64 bits. -/
def misaWord : Word := 0x800000000034112F

/-- Counters that are not `cycle`, `time` or `instret`, and their event selectors: they read 0. -/
def csrZero (n : Nat) : Bool :=
  decide ((0xC03 ≤ n ∧ n < 0xC20) ∨ (0xB03 ≤ n ∧ n < 0xB20) ∨ (0x323 ≤ n ∧ n < 0x340)) || [0x320, 0xDA0, 0xF11, 0xF12, 0xF13, 0xF15].contains n

/-- The value of a control register: none where there is none of that number. -/
def State.csrRead (s : State) (h : Nat) (x : Hart) (n : Nat) : Option Word :=
  if 0x5C0 ≤ n ∧ n < 0x5D0 then some (x.fcapb.getD (n - 0x5C0) 0)
  else if 0x5D0 ≤ n ∧ n < 0x5E0 then some (x.fcapl.getD (n - 0x5D0) 0)
  else if csrZero n then some 0
  else match n with
  | 0x7C0 => some x.fsbx
  | 0x001 => some (x.fcsr.setWidth 64 &&& 0x1F)
  | 0x002 => some (x.fcsr.setWidth 64 >>> 5)
  | 0x003 => some (x.fcsr.setWidth 64)
  | 0x008 => some (BitVec.ofNat 64 x.vstart)
  | 0x009 => some (x.vcsr.setWidth 64 &&& 1)
  | 0x00A => some (x.vcsr.setWidth 64 >>> 1)
  | 0x00F => some (x.vcsr.setWidth 64)
  | 0xC20 => some (BitVec.ofNat 64 x.vl)
  | 0xC21 => some x.vtype
  | 0xC22 => some 32
  | 0xC00 | 0xB00 => some (s.quartz + x.cycles)
  | 0xC01 => some s.quartz
  | 0xC02 | 0xB02 => some x.instret
  | 0x300 => some (statusRead x.mstatus)
  | 0x301 => some misaWord
  | 0x302 => some x.medeleg
  | 0x303 => some x.mideleg
  | 0x304 => some x.mie
  | 0x305 => some x.mtvec
  | 0x306 => some x.mcounteren
  | 0x30A => some x.menvcfg
  | 0x340 => some x.mscratch
  | 0x341 => some x.mepc
  | 0x342 => some x.mcause
  | 0x343 => some x.mtval
  | 0x344 => some (s.mipOf x)
  | 0x100 => some (statusRead (x.mstatus &&& sstatusMask) &&& ~~~(0x800000000 : Word))
  | 0x104 => some (x.mie &&& x.mideleg)
  | 0x105 => some x.stvec
  | 0x106 => some x.scounteren
  | 0x10A => some x.senvcfg
  | 0x140 => some x.sscratch
  | 0x141 => some x.sepc
  | 0x142 => some x.scause
  | 0x143 => some x.stval
  | 0x144 => some (s.mipOf x &&& x.mideleg)
  | 0x14D => some x.stimecmp
  | 0x180 => some x.satp
  | 0xF14 => some (BitVec.ofNat 64 h)
  | _ => none

def mixBits (mask old v : Word) : Word := (old &&& ~~~mask) ||| (v &&& mask)

/-- Writable bits of `senvcfg`, and of `menvcfg`. -/
def senvMask : Word := 0x3000000F1
def menvMask : Word := 0xC0000003000000F1

/-- The floating-point unit's state has changed (`mstatus.FS`). -/
def Hart.dirtyF (x : Hart) : Hart := { x with mstatus := setBits x.mstatus 13 2 3 }

/-- The vector unit's state has changed (`mstatus.VS`). -/
def Hart.dirtyV (x : Hart) : Hart := { x with mstatus := setBits x.mstatus 9 2 3 }

def Hart.setFcsr (x : Hart) (v : Nat) : Hart := { x with fcsr := BitVec.ofNat 8 v }.dirtyF

def Hart.setVcsr (x : Hart) (v : Nat) : Hart := { x with vcsr := BitVec.ofNat 3 v }.dirtyV

/-- A write of a control register that the model has; the counters count the writing word itself afterwards. -/
def State.csrWrite (s : State) (x : Hart) (n : Nat) (v : Word) : Hart :=
  if 0x5C0 ≤ n ∧ n < 0x5D0 then { x with fcapb := x.fcapb.set (n - 0x5C0) (BitVec.ofNat 64 (bitsAt v 0 57)) }
  else if 0x5D0 ≤ n ∧ n < 0x5E0 then { x with fcapl := x.fcapl.set (n - 0x5D0) v }
  else match n with
  | 0x7C0 => { x with fsbx := mkWord [(bitsAt v 63 1, 63), (bitsAt v 42 14, 42)] }
  | 0x001 => x.setFcsr (x.fcsr.toNat / 32 * 32 + v.toNat % 32)
  | 0x002 => x.setFcsr (v.toNat % 8 * 32 + x.fcsr.toNat % 32)
  | 0x003 => x.setFcsr v.toNat
  | 0x008 => { x with vstart := v.toNat % 256 }.dirtyV
  | 0x009 => x.setVcsr (x.vcsr.toNat / 2 * 2 + v.toNat % 2)
  | 0x00A => x.setVcsr (v.toNat % 4 * 2 + x.vcsr.toNat % 2)
  | 0x00F => x.setVcsr v.toNat
  | 0xB00 => { x with cycles := v - s.quartz }
  | 0xB02 => { x with instret := v - 1 }
  | 0x300 => { x with mstatus := mixBits mstatusMask x.mstatus (if bitsAt v 11 2 = 2 then setBits v 11 2 0 else v) }
  | 0x302 => { x with medeleg := v }
  | 0x303 => { x with mideleg := v &&& 0x10222 }
  | 0x304 => { x with mie := v &&& 0x10AAA }
  | 0x305 => { x with mtvec := v &&& ~~~(2 : Word) }
  | 0x306 => { x with mcounteren := v &&& 0xFFFFFFFF }
  | 0x30A => { x with menvcfg := v &&& menvMask }
  | 0x340 => { x with mscratch := v }
  | 0x341 => { x with mepc := v &&& ~~~(1 : Word) }
  | 0x342 => { x with mcause := v }
  | 0x343 => { x with mtval := v }
  | 0x344 => { x with mip := mixBits (if x.stce then 0x202 else 0x222) x.mip v }
  | 0x100 => { x with mstatus := mixBits (sstatusMask &&& mstatusMask) x.mstatus v }
  | 0x104 => { x with mie := mixBits x.mideleg x.mie (v &&& 0x10AAA) }
  | 0x105 => { x with stvec := v &&& ~~~(2 : Word) }
  | 0x106 => { x with scounteren := v &&& 0xFFFFFFFF }
  | 0x10A => { x with senvcfg := v &&& senvMask }
  | 0x140 => { x with sscratch := v }
  | 0x141 => { x with sepc := v &&& ~~~(1 : Word) }
  | 0x142 => { x with scause := v }
  | 0x143 => { x with stval := v }
  | 0x144 => { x with mip := mixBits (2 &&& x.mideleg) x.mip v }
  | 0x14D => { x with stimecmp := v }
  | 0x180 => if [0, 8, 9, 10].contains (bitsAt v 60 4) then { x with satp := v } else x
  | _ => x

/-- The number belongs to floating point or vectors, whose unit is off. -/
def csrUnitOff (x : Hart) (n : Nat) : Bool :=
  (decide (1 ≤ n ∧ n ≤ 3) && bitsAt x.mstatus 13 2 == 0) ||
    (([0x008, 0x009, 0x00A, 0x00F, 0xC20, 0xC21, 0xC22].contains n) && bitsAt x.mstatus 9 2 == 0)

/-- A counter, or the supervisor timer, that the mode above does not let the hart read. -/
def csrDenied (x : Hart) (n : Nat) : Bool :=
  (decide (0xC00 ≤ n ∧ n < 0xC20) &&
    ((x.priv != .m && !bitAt x.mcounteren (n % 32)) || (x.priv == .u && !bitAt x.scounteren (n % 32)))) ||
  (n == 0x14D && x.priv != .m && !(x.stce && bitAt x.mcounteren 1))

def State.hartCsr (s : State) (h : Nat) (w : Nat) (pc : Word) : HM State :=
  let x := s.hartAt h
  let n := rvBits w 31 20
  let f3 := rvBits w 14 12
  let r1 := rvBits w 19 15
  let arg := if 4 ≤ f3 then BitVec.ofNat 64 r1 else x.get r1
  let wr := f3 % 4 == 1 || r1 != 0
  if x.priv.num < n / 256 % 4 ∨ (wr ∧ n / 1024 = 3) ∨ csrUnitOff x n ∨ csrDenied x n ∨
      (n = 0x180 ∧ x.priv = .s ∧ bitAt x.mstatus 20) then hartIllegal w
  else match s.csrRead h x n with
    | none => hartIllegal w
    | some old =>
      let base := if n = 0x344 ∨ n = 0x144 then old &&& ~~~(0x10000 : Word) else old
      let new := if f3 % 4 = 1 then arg else if f3 % 4 = 2 then base ||| arg else base &&& ~~~arg
      let x := if wr then s.csrWrite x n new else x
      .ok (s.putHart h { x.set (rvBits w 11 7) old with pc := pc })

end Sys2Proof.Machine
end

