-- ==== Sys2Proof/Machine/FerleVector.lean ====
section
/-! DEFINITION. The vector words of a Ferle hart (R429): configuration, arithmetic, permutations, masks, reductions and memory, with VLEN 256 and
ELEN 64. They are RISC-V's (PRESUMED, log 13): tail and masked-off elements keep their values, and an encoding with reserved registers is illegal. -/

namespace Sys2Proof.Machine

/-! ### Registers and configuration -/

/-- Element `i` of `n` bytes in a register group. -/
def vget (v : List Byte) (reg n i : Nat) : Nat := bytesNat ((v.drop (32 * reg + n * i)).take n)

def vput (v : List Byte) (reg n i val : Nat) : List Byte :=
  let k := 32 * reg + n * i
  v.take k ++ natBytes n val ++ v.drop (k + n)

/-- Bit `i` of a mask register. -/
def Hart.vbit (x : Hart) (reg i : Nat) : Bool := (x.v.getD (32 * reg + i / 8) 0).getLsbD (i % 8)

def vputBit (v : List Byte) (reg i : Nat) (b : Bool) : List Byte :=
  let k := 32 * reg + i / 8
  let old := (v.getD k 0).toNat
  v.set k (BitVec.ofNat 8 (old - old / 2 ^ (i % 8) % 2 * 2 ^ (i % 8) + b2n b * 2 ^ (i % 8)))

/-- Element width and group size in eighths of a register of a `vtype` value: none if it is not supported. -/
def vtypeCfg (v : Nat) : Option (Nat × Nat) :=
  let lm := match v % 8 with
    | 0 => 8 | 1 => 16 | 2 => 32 | 3 => 64 | 5 => 1 | 6 => 2 | 7 => 4 | _ => 0
  let sew := 8 * 2 ^ (v / 8 % 8)
  if v / 256 = 0 ∧ v / 8 % 8 < 4 ∧ lm ≠ 0 ∧ sew ≤ 8 * lm then some (sew, lm) else none

def Hart.sew (x : Hart) : Nat := 8 * 2 ^ bitsAt x.vtype 3 3
def Hart.lmul (x : Hart) : Nat := ((vtypeCfg (bitsAt x.vtype 0 8)).map (·.2)).getD 8
def vlMax (sew lm : Nat) : Nat := 32 * lm / sew
def Hart.vill (x : Hart) : Bool := bitAt x.vtype 63

/-- `vsetvli`, `vsetivli` and `vsetvl`. -/
def Hart.vset (x : Hart) (w : Nat) : Option Hart :=
  let rd := rvBits w 11 7
  let r1 := rvBits w 19 15
  let out := fun (vt : Word) (avl : Nat → Nat) (keep : Bool) => match vtypeCfg vt.toNat with
    | some (sew, lm) =>
      let mx := vlMax sew lm
      if keep && (x.vill || vlMax x.sew x.lmul != mx) then { x with vtype := 0x8000000000000000, vl := 0 }
      else
        let n := min (avl mx) mx
        { x.set rd (BitVec.ofNat 64 n) with vtype := vt, vl := n }
    | none => { x.set rd 0 with vtype := 0x8000000000000000, vl := 0 }
  let avl := fun mx => if r1 ≠ 0 then (x.get r1).toNat else if rd ≠ 0 then mx else x.vl
  let keep := r1 == 0 && rd == 0
  if rvBits w 31 31 = 0 then some (out (BitVec.ofNat 64 (rvBits w 30 20)) avl keep)
  else if rvBits w 30 30 = 1 then some (out (BitVec.ofNat 64 (rvBits w 29 20)) (fun _ => r1) false)
  else if rvBits w 31 25 = 0x40 then some (out (x.get (rvBits w 24 20)) avl keep)
  else none

/-! ### Operand groups -/

/-- A register operand: first register, element width (1 = a mask) and group size in eighths. -/
structure VOpd where
  reg : Nat
  eew : Nat
  em : Nat
  deriving DecidableEq, Repr

def VOpd.regs (o : VOpd) : Nat := max 1 (o.em / 8)

/-- The group is legal and aligned. -/
def VOpd.ok (o : VOpd) : Bool := decide (1 ≤ o.em ∧ o.em ≤ 64 ∧ o.eew ≤ 64 ∧ o.reg % o.regs = 0)

def VOpd.clear (d s : VOpd) : Bool := decide (d.reg + d.regs ≤ s.reg ∨ s.reg + s.regs ≤ d.reg)

/-- A destination may overlap a source only with equal widths, in the lowest part of a wider source, or in the highest part of a wider destination. -/
def VOpd.fits (d s : VOpd) : Bool :=
  d.clear s || d.eew == s.eew || (decide (d.eew < s.eew) && d.reg == s.reg) ||
    (decide (s.eew < d.eew) && decide (8 ≤ s.em) && s.reg + s.regs == d.reg + d.regs)

/-- A mask in one register. -/
def vmaskOpd (reg : Nat) : VOpd := { reg := reg, eew := 1, em := 8 }

/-- An operand whose width is `k`/`d` times the element width. -/
def Hart.vopd (x : Hart) (reg k d : Nat) : VOpd := { reg := reg, eew := x.sew * k / d, em := x.lmul * k / d }

/-- A masked word whose destination is not the mask. -/
def vmaskFree (w : Nat) (d : VOpd) : Bool := rvBits w 25 25 == 1 || d.reg != 0 || d.eew == 1

/-- Destination and sources of a word are legal together. -/
def vlegal (w : Nat) (d : VOpd) (ss : List VOpd) : Bool :=
  d.ok && vmaskFree w d && ss.all fun s => s.ok && d.fits s

/-- Element `i` is active. -/
def Hart.von (x : Hart) (w i : Nat) : Bool := rvBits w 25 25 == 1 || x.vbit 0 i

/-- The elements from `lo` that the word writes. -/
def Hart.vactive (x : Hart) (w lo : Nat) : List Nat :=
  (List.range x.vl).filter fun i => decide (max lo x.vstart ≤ i) && x.von w i

/-- Writes active elements from `lo`, each from the registers as they were: the flags gathered. -/
def Hart.vmap (x : Hart) (w lo : Nat) (d : VOpd) (f : Nat → Nat × Nat) : Hart × Nat :=
  (x.vactive w lo).foldl (fun a i => let r := f i; ({ a.1 with v := vput a.1.v d.reg (d.eew / 8) i r.1 }, a.2 ||| r.2)) (x, 0)

/-- The same for a mask destination. -/
def Hart.vmapBit (x : Hart) (w reg : Nat) (f : Nat → Bool × Nat) : Hart × Nat :=
  (x.vactive w 0).foldl (fun a i => let r := f i; ({ a.1 with v := vputBit a.1.v reg i r.1 }, a.2 ||| r.2)) (x, 0)

def Hart.sat (r : Hart × Nat) : Hart := if r.2 = 0 then r.1 else { r.1 with vcsr := r.1.vcsr ||| 1 }

def Hart.flags (r : Hart × Nat) : Hart := if r.2 = 0 then r.1 else r.1.setFcsr (r.1.fcsr.toNat ||| r.2)

/-- Rounding mode of fixed point. -/
def Hart.vxrm (x : Hart) : Nat := x.vcsr.toNat / 2

/-- The second source is a vector. -/
def vvForm (w : Nat) : Bool := rvBits w 14 12 ≤ 2

/-- The second source as an element of `eew` bits: vector element, scalar, or immediate (`un`: not sign-extended). -/
def Hart.vb (x : Hart) (w eew : Nat) (un : Bool) (i : Nat) : Nat :=
  let r1 := rvBits w 19 15
  match rvBits w 14 12 with
  | 3 => if un then r1 else (sextNat 5 r1).toNat % 2 ^ eew
  | 4 | 6 => (x.get r1).toNat % 2 ^ eew
  | 5 => ((sewFmt eew).map fun f => f.unbox (x.f.getD r1 0)).getD 0
  | _ => vget x.v r1 (eew / 8) i

/-- First source group, with its elements. -/
def Hart.va (x : Hart) (w eew : Nat) (i : Nat) : Nat := vget x.v (rvBits w 24 20) (eew / 8) i

/-- The sources of a word: `vs2`, and `vs1` where the form has it. -/
def Hart.vsrcs (x : Hart) (w k1 k2 d : Nat) : List VOpd :=
  x.vopd (rvBits w 24 20) k2 d :: (if vvForm w then [x.vopd (rvBits w 19 15) k1 d] else [])

/-- An amount or index given whole: an x register or an unsigned immediate. -/
def Hart.vamount (x : Hart) (w : Nat) : Nat :=
  if rvBits w 14 12 = 3 then rvBits w 19 15 else (x.get (rvBits w 19 15)).toNat

/-! ### Permutations -/

def Hart.vslideUp (x : Hart) (w off : Nat) : Option Hart :=
  let d := x.vopd (rvBits w 11 7) 1 1
  let s := x.vopd (rvBits w 24 20) 1 1
  if vlegal w d [s] && d.clear s then some (x.vmap w off d fun i => (x.va w x.sew (i - off), 0)).1 else none

/-- An element of `vs2`, or 0 past the group. -/
def Hart.vpick (x : Hart) (w j : Nat) : Nat := if j < vlMax x.sew x.lmul then x.va w x.sew j else 0

def Hart.vslideDown (x : Hart) (w off : Nat) : Option Hart :=
  let d := x.vopd (rvBits w 11 7) 1 1
  if vlegal w d [x.vopd (rvBits w 24 20) 1 1] then some (x.vmap w 0 d fun i => (x.vpick w (i + off), 0)).1 else none

/-- A slide by one with `e` in the free element. -/
def Hart.vslide1 (x : Hart) (w : Nat) (up : Bool) (e : Nat) : Option Hart :=
  let d := x.vopd (rvBits w 11 7) 1 1
  let s := x.vopd (rvBits w 24 20) 1 1
  if !(vlegal w d [s] && (!up || d.clear s)) then none
  else if up then some (x.vmap w 0 d fun i => (if i = 0 then e else x.va w x.sew (i - 1), 0)).1
  else some (x.vmap w 0 d fun i => (if i + 1 = x.vl then e else x.vpick w (i + 1), 0)).1

/-- `vrgather`, and `vrgatherei16` with `e16`. -/
def Hart.vgather (x : Hart) (w : Nat) (e16 : Bool) : Option Hart :=
  let d := x.vopd (rvBits w 11 7) 1 1
  let s := x.vopd (rvBits w 24 20) 1 1
  let ix : VOpd := if e16 then { reg := rvBits w 19 15, eew := 16, em := x.lmul * 16 / x.sew } else x.vopd (rvBits w 19 15) 1 1
  let ss := if vvForm w then [s, ix] else [s]
  if vlegal w d ss && ss.all d.clear then
    some (x.vmap w 0 d fun i => (x.vpick w (if vvForm w then vget x.v ix.reg (ix.eew / 8) i else x.vamount w), 0)).1
  else none

def Hart.vcompress (x : Hart) (w : Nat) : Option Hart :=
  let d := x.vopd (rvBits w 11 7) 1 1
  let s := x.vopd (rvBits w 24 20) 1 1
  let m := rvBits w 19 15
  if rvBits w 25 25 = 1 && x.vstart == 0 && vlegal w d [s] && d.clear s && d.clear (vmaskOpd m) then
    let picked := (List.range x.vl).filter (x.vbit m)
    some ((picked.zipIdx).foldl (fun y p => { y with v := vput y.v d.reg (d.eew / 8) p.2 (x.va w x.sew p.1) }) x)
  else none

/-! ### Integer words -/

/-- Words of one width with two sources. -/
def Hart.vsame (x : Hart) (w : Nat) (ok : Bool) (un : Bool) (f : Nat → Nat → Option (Nat × Nat)) : Option Hart :=
  let d := x.vopd (rvBits w 11 7) 1 1
  if !(ok && vlegal w d (x.vsrcs w 1 1 1) && (f 0 1).isSome) then none
  else some (Hart.sat (x.vmap w 0 d fun i => (f (x.va w x.sew i) (x.vb w x.sew un i)).getD (0, 0)))

/-- Comparisons, and carries into a mask. -/
def Hart.vtest (x : Hart) (w : Nat) (ok : Bool) (f : Nat → Nat → Nat → Bool × Nat) : Option (Hart × Nat) :=
  if ok && vlegal w (vmaskOpd (rvBits w 11 7)) (x.vsrcs w 1 1 1) then
    some (x.vmapBit w (rvBits w 11 7) fun i => f i (x.va w x.sew i) (x.vb w x.sew false i))
  else none

/-- The word as an unmasked one: `v0` is an operand. -/
def unmasked (w : Nat) : Nat := w - rvBits w 25 25 * 2 ^ 25 + 2 ^ 25

/-- Add and subtract with carry: into a group (`v0` the carries), or the carries out into a mask. -/
def Hart.vcarry (x : Hart) (w : Nat) (sub out : Bool) : Option Hart :=
  let vm := rvBits w 25 25
  let u := unmasked w
  let cin := fun i => if vm = 0 then b2n (x.vbit 0 i) else 0
  if out then
    (x.vtest u true fun i a b => (if sub then decide (a < b + cin i) else decide (2 ^ x.sew ≤ a + b + cin i), 0)).map (·.1)
  else
    let d := x.vopd (rvBits w 11 7) 1 1
    if vm = 0 && d.reg != 0 && vlegal u d (x.vsrcs w 1 1 1) then
      some (x.vmap u 0 d fun i =>
        let a := x.va w x.sew i
        let b := x.vb w x.sew false i
        (vlane x.sew (if sub then (a : Int) - b - cin i else (a : Int) + b + cin i), 0)).1
    else none

/-- `vmerge`, `vfmerge`, and the moves they become unmasked. -/
def Hart.vmerge (x : Hart) (w : Nat) : Option Hart :=
  let vm := rvBits w 25 25
  let d := x.vopd (rvBits w 11 7) 1 1
  let move := vm == 1
  let ss := if move then (x.vsrcs w 1 1 1).drop 1 else x.vsrcs w 1 1 1
  if (if move then rvBits w 24 20 == 0 else d.reg != 0) && vlegal (unmasked w) d ss then
    some (x.vmap (unmasked w) 0 d fun i => (if move || x.vbit 0 i then x.vb w x.sew false i else x.va w x.sew i, 0)).1
  else none

/-- Narrowing words. -/
def Hart.vnarrows (x : Hart) (w f6 : Nat) : Option Hart :=
  let d := x.vopd (rvBits w 11 7) 1 1
  if 32 < x.sew ∨ !vlegal w d (x.vsrcs w 1 2 1) then none
  else some (Hart.sat (x.vmap w 0 d fun i => (vnarrow f6 x.sew x.vxrm (x.va w (2 * x.sew) i) (x.vb w x.sew true i)).getD (0, 0)))

/-- Widening words; `vs2` is already wide for `wide`. -/
def Hart.vwiden (x : Hart) (w : Nat) (wide un : Bool) (f : Nat → Nat → Nat → Option FRes) : Option (Hart × Nat) :=
  let d := x.vopd (rvBits w 11 7) 2 1
  let k2 := if wide then 2 else 1
  if 32 < x.sew ∨ !vlegal w d (x.vsrcs w 1 k2 1) ∨ (f 0 0 0).isNone then none
  else some (x.vmap w 0 d fun i => (f (x.va w (k2 * x.sew) i) (x.vb w x.sew un i) (vget x.v d.reg (d.eew / 8) i)).getD (0, 0))

/-- Multiply-adds of one width. -/
def Hart.vfused (x : Hart) (w : Nat) (f : Nat → Nat → Nat → Option FRes) : Option (Hart × Nat) :=
  let d := x.vopd (rvBits w 11 7) 1 1
  if !vlegal w d (x.vsrcs w 1 1 1) ∨ (f 0 0 0).isNone then none
  else some (x.vmap w 0 d fun i => (f (x.va w x.sew i) (x.vb w x.sew false i) (vget x.v d.reg (d.eew / 8) i)).getD (0, 0))

/-- Words with one source of width `k`/`dv` of the element. -/
def Hart.vunary (x : Hart) (w kd k dv : Nat) (f : Nat → Option FRes) : Option (Hart × Nat) :=
  let d := x.vopd (rvBits w 11 7) kd 1
  let s := x.vopd (rvBits w 24 20) k dv
  if !vlegal w d [s] ∨ s.eew < 8 ∨ (f 0).isNone then none
  else some (x.vmap w 0 d fun i => (f (x.va w s.eew i)).getD (0, 0))

/-- Reductions: `kd` the width of the scalar against the elements' width. -/
def Hart.vreduce (x : Hart) (w kd : Nat) (f : Nat → Nat → Option FRes) : Option (Hart × Nat) :=
  let n := x.sew * kd / 8
  let s := x.vopd (rvBits w 24 20) 1 1
  if !(s.ok && x.vstart == 0 && decide (n ≤ 8)) ∨ (f 0 0).isNone then none
  else if x.vl = 0 then some (x, 0)
  else
    let r := (x.vactive w 0).foldl (fun a i => let q := (f a.1 (x.va w x.sew i)).getD (0, 0); (q.1, a.2 ||| q.2)) (vget x.v (rvBits w 19 15) n 0, 0)
    some ({ x with v := vput x.v (rvBits w 11 7) n 0 r.1 }, r.2)

/-- Whole-register moves. -/
def Hart.vmoveRegs (x : Hart) (w : Nat) : Option Hart :=
  let n := rvBits w 19 15 + 1
  let vd := rvBits w 11 7
  let vs := rvBits w 24 20
  if rvBits w 25 25 = 1 ∧ (n = 1 ∨ n = 2 ∨ n = 4 ∨ n = 8) ∧ vd % n = 0 ∧ vs % n = 0 then
    let lo := min (x.vstart * (x.sew / 8)) (32 * n)
    some { x with v := x.v.take (32 * vd + lo) ++ (x.v.drop (32 * vs + lo)).take (32 * n - lo) ++ x.v.drop (32 * vd + 32 * n) }
  else none

/-- The forms an `OPI` code of one width has: vector, immediate, scalar. -/
def vopiForms (f6 : Nat) : Bool × Bool × Bool :=
  if [0x01, 0x02, 0x04, 0x05, 0x06, 0x07, 0x22, 0x23].contains f6 then (true, false, true)
  else if f6 = 0x03 then (false, true, true)
  else if f6 = 0x14 ∨ f6 = 0x15 ∨ f6 = 0x27 then (true, false, true)
  else (true, true, true)

/-- The form is among them. -/
def vformOf (w : Nat) (p : Bool × Bool × Bool) : Bool :=
  match rvBits w 14 12 with
  | 3 => p.2.1 | 4 => p.2.2 | _ => p.1

/-- `OPIVV`, `OPIVX`, `OPIVI`. -/
def Hart.opi (x : Hart) (w : Nat) : Option Hart :=
  let f6 := rvBits w 31 26
  let f3 := rvBits w 14 12
  let same := fun ok un => x.vsame w ok un fun a b => vopi f6 x.sew x.vxrm a b
  if f3 = 3 ∧ (f6 = 0x14 ∨ f6 = 0x15) then
    x.vsame w true true fun a b => vopi 0x14 x.sew 0 a (b + 32 * (f6 % 2))
  else if f3 = 3 ∧ f6 = 0x27 then x.vmoveRegs w
  else match f6 with
  | 0x0C => x.vgather w false
  | 0x0E => if f3 = 0 then x.vgather w true else x.vslideUp w (x.vamount w)
  | 0x0F => if f3 = 0 then none else x.vslideDown w (x.vamount w)
  | 0x10 => x.vcarry w false false
  | 0x11 => x.vcarry w false true
  | 0x12 => if f3 = 3 then none else x.vcarry w true false
  | 0x13 => if f3 = 3 then none else x.vcarry w true true
  | 0x17 => x.vmerge w
  | 0x18 | 0x19 | 0x1A | 0x1B | 0x1C | 0x1D | 0x1E | 0x1F =>
    let ok := vformOf w (decide (f6 < 0x1E), decide (f6 ≠ 0x1A ∧ f6 ≠ 0x1B), true)
    (x.vtest w ok fun _ a b => ((vcmp f6 x.sew a b).getD false, 0)).map (·.1)
  | 0x2C | 0x2D | 0x2E | 0x2F => x.vnarrows w f6
  | 0x30 | 0x31 =>
    if f3 ≠ 0 then none
    else
      let ext := fun (e : Nat) => if f6 = 0x30 then (e : Int) else toInt x.sew e
      (x.vreduce w 2 fun a e => some (vlane (2 * x.sew) (a + ext e), 0)).map (·.1)
  | 0x35 => (x.vwiden w false true fun a b _ => some (a * 2 ^ (b % (2 * x.sew)) % 2 ^ (2 * x.sew), 0)).map (·.1)
  | _ => same (vformOf w (vopiForms f6)) (decide (0x25 ≤ f6))

/-- Bits set before the first set bit, at it, or both, among active elements. -/
def Hart.vfirstBits (x : Hart) (w k : Nat) : Option Hart :=
  let vd := rvBits w 11 7
  let vs := rvBits w 24 20
  if x.vstart ≠ 0 ∨ vd = vs ∨ (rvBits w 25 25 = 0 ∧ vd = 0) then none
  else
    let hit := (x.vactive w 0).find? (x.vbit vs)
    let p := fun i => match hit with
      | none => k != 2
      | some j => match k with
        | 1 => decide (i < j) | 2 => i == j | _ => decide (i ≤ j)
    some (x.vmapBit w vd fun i => (p i, 0)).1

/-- `viota`: active set bits below each element. -/
def Hart.viota (x : Hart) (w : Nat) : Option Hart :=
  let d := x.vopd (rvBits w 11 7) 1 1
  let vs := rvBits w 24 20
  if x.vstart = 0 && vlegal w d [] && d.clear (vmaskOpd vs) then
    some (x.vmap w 0 d fun i => (((List.range i).filter fun j => x.von w j && x.vbit vs j).length, 0)).1
  else none

/-- Results in x registers. -/
def Hart.vscalar (x : Hart) (w : Nat) : Option Hart :=
  let rd := rvBits w 11 7
  let vs := rvBits w 24 20
  match rvBits w 19 15 with
  | 0 => if rvBits w 25 25 = 1 then some (x.set rd (sextNat x.sew (x.va w x.sew 0))) else none
  | 0x10 => if x.vstart = 0 then some (x.set rd (BitVec.ofNat 64 ((x.vactive w 0).filter (x.vbit vs)).length)) else none
  | 0x11 =>
    if x.vstart ≠ 0 then none
    else some (x.set rd (match (x.vactive w 0).find? (x.vbit vs) with
      | some i => BitVec.ofNat 64 i
      | none => 0xFFFFFFFFFFFFFFFF))
  | _ => none

/-- A scalar into element 0. -/
def Hart.vfirst (x : Hart) (w : Nat) (e : Nat) : Option Hart :=
  if rvBits w 25 25 ≠ 1 ∨ rvBits w 24 20 ≠ 0 then none
  else if x.vstart < x.vl then some { x with v := vput x.v (rvBits w 11 7) (x.sew / 8) 0 e } else some x

/-- `OPMVV`, `OPMVX`. -/
def Hart.opm (x : Hart) (w : Nat) : Option Hart :=
  let f6 := rvBits w 31 26
  let vv := rvBits w 14 12 == 2
  let r1 := rvBits w 19 15
  let e := x.vb w x.sew false 0
  match f6 with
  | 0 | 1 | 2 | 3 | 4 | 5 | 6 | 7 =>
    if vv then (x.vreduce w 1 fun a b => (vred f6 x.sew a b).map fun v => (v, 0)).map (·.1) else none
  | 0x0E => if vv then none else x.vslide1 w true e
  | 0x0F => if vv then none else x.vslide1 w false e
  | 0x10 => if vv then x.vscalar w else x.vfirst w e
  | 0x12 =>
    if !vv then none
    else if 2 ≤ r1 ∧ r1 ≤ 7 then
      let n := 2 ^ (4 - r1 / 2)
      (x.vunary w 1 1 n fun a => some (if r1 % 2 = 0 then a else vlane x.sew (toInt (x.sew / n) a), 0)).map (·.1)
    else (x.vunary w 1 1 1 fun a => (vun r1 x.sew a).map fun v => (v, 0)).map (·.1)
  | 0x14 =>
    if !vv then none
    else match r1 with
      | 1 => x.vfirstBits w 1
      | 2 => x.vfirstBits w 2
      | 3 => x.vfirstBits w 3
      | 0x10 => x.viota w
      | 0x11 => if rvBits w 24 20 = 0 && vlegal w (x.vopd (rvBits w 11 7) 1 1) [] then
          some (x.vmap w 0 (x.vopd (rvBits w 11 7) 1 1) fun i => (i, 0)).1 else none
      | _ => none
  | 0x17 => if vv then x.vcompress w else none
  | 0x18 | 0x19 | 0x1A | 0x1B | 0x1C | 0x1D | 0x1E | 0x1F =>
    if vv ∧ rvBits w 25 25 = 1 then
      some (x.vmapBit w (rvBits w 11 7) fun i => ((vmaskOp f6 (x.vbit (rvBits w 24 20) i) (x.vbit r1 i)).getD false, 0)).1
    else none
  | 0x29 | 0x2B | 0x2D | 0x2F => (x.vfused w fun a b d => (vmac f6 x.sew a b d).map fun v => (v, 0)).map (·.1)
  | 0x3E => if vv then none else (x.vwiden w false false fun a b d => (vwide f6 x.sew a b d).map fun v => (v, 0)).map (·.1)
  | _ =>
    if 0x30 ≤ f6 then
      (x.vwiden w (decide (0x34 ≤ f6 ∧ f6 < 0x38)) false fun a b d => (vwide f6 x.sew a b d).map fun v => (v, 0)).map (·.1)
    else x.vsame w true false fun a b => (vopm f6 x.sew x.vxrm a b).map fun v => (v, 0)

/-! ### Floating-point words -/

/-- `VFUNARY0`: conversions. -/
def Hart.vconverts (x : Hart) (w rm : Nat) : Option (Hart × Nat) := do
  let (src, dst, f) ← vconv (rvBits w 19 15) x.sew rm
  x.vunary w (dst / x.sew) (src / x.sew) 1 fun a => some (f a)

/-- `OPFVV`, `OPFVF`, with a legal rounding mode. -/
def Hart.opf (x : Hart) (w rm : Nat) : Option (Hart × Nat) :=
  let f6 := rvBits w 31 26
  let vv := rvBits w 14 12 == 1
  let r1 := rvBits w 19 15
  let plain := fun (h : Option Hart) => h.map fun y => (y, 0)
  if vv ∧ f6 = 0x12 then x.vconverts w rm
  else match sewFmt x.sew with
  | none => none
  | some f =>
    let e := x.vb w x.sew false 0
    match f6 with
    | 1 | 3 => if vv then x.vreduce w 1 fun a b => some (f.rvAdd rm a b) else none
    | 5 => if vv then x.vreduce w 1 fun a b => some (f.rvMinmax false false a b) else none
    | 7 => if vv then x.vreduce w 1 fun a b => some (f.rvMinmax true false a b) else none
    | 0x0E => if vv then none else plain (x.vslide1 w true e)
    | 0x0F => if vv then none else plain (x.vslide1 w false e)
    | 0x10 =>
      if !vv then plain (x.vfirst w e)
      else if rvBits w 25 25 = 1 ∧ r1 = 0 then some ({ x with f := x.f.set (rvBits w 11 7) (f.box (x.va w x.sew 0)) }.dirtyF, 0)
      else none
    | 0x13 => if vv then x.vunary w 1 1 1 fun a => vfun f r1 rm a else none
    | 0x17 => if vv then none else plain (x.vmerge w)
    | 0x18 | 0x19 | 0x1B | 0x1C | 0x1D | 0x1F =>
      x.vtest w (!vv || decide (f6 < 0x1D)) fun _ a b => (vfcmp f f6 a b).getD (false, 0)
    | 0x28 | 0x29 | 0x2A | 0x2B | 0x2C | 0x2D | 0x2E | 0x2F => x.vfused w fun a b d => some (vfma f f6 rm a b d)
    | 0x31 | 0x33 => if vv ∧ x.sew = 32 then x.vreduce w 2 fun a b => some (let y := widenF b; let r := Fmt.f64.rvAdd rm a y.1; (r.1, r.2 ||| y.2)) else none
    | 0x21 | 0x27 => if vv then none else
      (let d := x.vopd (rvBits w 11 7) 1 1
       if vlegal w d (x.vsrcs w 1 1 1) then some (x.vmap w 0 d fun i => (vopf f f6 rm (x.va w x.sew i) e).getD (0, 0)) else none)
    | _ =>
      if 0x30 ≤ f6 then (if x.sew = 32 then x.vwiden w (f6 == 0x34 || f6 == 0x36) false fun a b d => vfwide f6 rm a b d else none)
      else
        let d := x.vopd (rvBits w 11 7) 1 1
        if vlegal w d (x.vsrcs w 1 1 1) ∧ (vopf f f6 rm 0 0).isSome then
          some (x.vmap w 0 d fun i => (vopf f f6 rm (x.va w x.sew i) (x.vb w x.sew false i)).getD (0, 0))
        else none

/-- An `OP-V` word: none if it is illegal. -/
def Hart.opv (x : Hart) (w : Nat) : Option Hart :=
  let f3 := rvBits w 14 12
  let frm := x.fcsr.toNat / 32
  if bitsAt x.mstatus 9 2 = 0 then none
  else if f3 = 7 then x.vset w
  else if x.vill then none
  else if f3 = 1 ∨ f3 = 5 then (if bitsAt x.mstatus 13 2 = 0 ∨ 4 < frm then none else (x.opf w frm).map Hart.flags)
  else if f3 = 2 ∨ f3 = 6 then x.opm w
  else x.opi w

def State.hartVector (s : State) (h w : Nat) (pc : Word) : HM State :=
  match (s.hartAt h).opv w with
  | none => hartIllegal w
  | some y => .ok (s.putHart h { y.dirtyV with vstart := 0, pc := pc })

/-! ### Memory -/

/-- The stop of element `i`: what came before it stands. -/
def State.vstopped (s : State) (h i : Nat) : HStop → HStop
  | .trap c v => .trapAt (s.putHart h { s.hartAt h with vstart := i }) c v
  | .trapAt t c v => .trapAt t c v
  | .wait t => .wait (t.putHart h { t.hartAt h with vstart := i })
  | .uncorr va => .uncorr va

/-- Elements in order; each sees what the ones before it did. -/
def State.velems (s : State) (h : Nat) (f : State → Nat → HM State) : List Nat → HM State
  | [] => .ok s
  | i :: is => match f s i with
    | .ok s' => s'.velems h f is
    | .error e => .error (s.vstopped h i e)

/-- One field of one element: `n` bytes between the group at `reg` and memory. -/
def State.vfield (s : State) (h : Nat) (load : Bool) (va reg n i : Nat) : HM State := do
  let x := s.hartAt h
  if load then
    let r ← s.hartRead h x.dataPriv .load va n
    let y := r.1.hartAt h
    .ok (r.1.putHart h { y with v := vput y.v reg n i (bytesNat r.2) })
  else s.hartWrite h x.dataPriv .store va (natBytes n (vget x.v reg n i))

/-- The fields of one segment, `step` registers apart. -/
def State.vsegment (s : State) (h : Nat) (load : Bool) (va reg n i step : Nat) : Nat → HM State
  | 0 => .ok s
  | k + 1 => do
    let s' ← s.vsegment h load va reg n i step k
    let at_ := (s'.hartAt h).dataAddr (BitVec.ofNat 64 (va + n * k))
    s'.vfield h load at_ (reg + k * step) n i

/-- Fault-only-first: an exception past element 0 ends the word and cuts `vl` there. -/
def State.vfirstFault (s : State) (h : Nat) (pc : Word) : HM State → HM State
  | .error (.trapAt t c v) =>
    let y := t.hartAt h
    if y.vstart = 0 then .error (.trapAt t c v) else .ok (t.putHart h { y.dirtyV with vl := y.vstart, vstart := 0, pc := pc })
  | r => r.map fun t => t.putHart h { (t.hartAt h).dirtyV with vstart := 0, pc := pc }

/-- The word is complete. -/
def State.vdone (s : State) (h : Nat) (pc : Word) : State := s.putHart h { (s.hartAt h).dirtyV with vstart := 0, pc := pc }

/-- Element width of a vector load or store. -/
def vmemWidth (f3 : Nat) : Option Nat :=
  match f3 with
  | 0 => some 8 | 5 => some 16 | 6 => some 32 | 7 => some 64 | _ => none

/-- A vector load or store. -/
def State.hartVmem (s : State) (h w : Nat) (load : Bool) (pc : Word) : HM State :=
  let x := s.hartAt h
  let base := (x.get (rvBits w 19 15)).toNat
  let vd := rvBits w 11 7
  let r2 := rvBits w 24 20
  let nf := rvBits w 31 29 + 1
  let mop := rvBits w 27 26
  let vm := rvBits w 25 25
  match vmemWidth (rvBits w 14 12) with
  | none => hartIllegal w
  | some eew =>
    let bytes := eew / 8
    if bitsAt x.mstatus 9 2 = 0 ∨ rvBits w 28 28 = 1 then hartIllegal w
    else if mop = 0 ∧ r2 = 8 then
      -- whole registers
      if !(vm == 1 && (nf == 1 || nf == 2 || nf == 4 || nf == 8) && vd % nf == 0 && (load || eew == 8)) then hartIllegal w
      else do
        let is := (List.range (32 * nf / bytes)).filter fun i => decide (x.vstart ≤ i)
        let t ← s.velems h (fun s i => s.vfield h load ((s.hartAt h).dataAddr (BitVec.ofNat 64 (base + bytes * i))) vd bytes i) is
        .ok (t.vdone h pc)
    else if x.vill then hartIllegal w
    else if mop = 0 ∧ r2 = 0x0B then
      if !(vm == 1 && nf == 1 && eew == 8) then hartIllegal w
      else do
        let is := (List.range ((x.vl + 7) / 8)).filter fun i => decide (x.vstart ≤ i)
        let t ← s.velems h (fun s i => s.vfield h load ((s.hartAt h).dataAddr (BitVec.ofNat 64 (base + i))) vd 1 i) is
        .ok (t.vdone h pc)
    else
      let indexed := mop % 2 == 1
      let first := mop == 0 && r2 == 0x10
      let em := x.lmul * eew / x.sew
      let d : VOpd := if indexed then { reg := vd, eew := x.sew, em := x.lmul } else { reg := vd, eew := eew, em := em }
      let ix : VOpd := { reg := r2, eew := eew, em := em }
      let n := if indexed then x.sew / 8 else bytes
      let legal := d.ok && decide (d.em * nf ≤ 64 ∧ vd + d.regs * nf ≤ 32) && (!load || vmaskFree w d) &&
        (!indexed || (ix.ok && (!load || (if nf = 1 then d.fits ix else
          decide (vd + d.regs * nf ≤ ix.reg ∨ ix.reg + ix.regs ≤ vd))))) &&
        (mop != 0 || r2 == 0 || (first && load))
      if !legal then hartIllegal w
      else
        let addr := fun (i : Nat) =>
          if indexed then base + vget x.v ix.reg (eew / 8) i
          else if mop = 2 then base + i * (x.get r2).toNat
          else base + i * n * nf
        let run := s.velems h (fun s i => s.vsegment h load (addr i) vd n i d.regs nf) (x.vactive w 0)
        if first then s.vfirstFault h pc run else run.map fun t => t.vdone h pc

end Sys2Proof.Machine
end

