-- ==== Sys2Proof/Machine/Ferle.lean ====
section
/-! DEFINITION. The words of a Ferle hart (R429-R432): the RVA23 instructions and `Xkredunfut` (R438), and how a hart fetches, completes, traps and
waits. The words are RISC-V's (PRESUMED, log 13). -/

namespace Sys2Proof.Machine

/-! ### System words -/

def Hart.mret (x : Hart) : Hart :=
  let p := Priv.ofNum (bitsAt x.mstatus 11 2)
  let m := setBits (setBits (setBits x.mstatus 3 1 (bitsAt x.mstatus 7 1)) 7 1 1) 11 2 0
  { x with priv := p, pc := x.mepc, mstatus := if p = .m then m else setBits m 17 1 0 }

def Hart.sret (x : Hart) : Hart :=
  let m := setBits (setBits (setBits x.mstatus 1 1 (bitsAt x.mstatus 5 1)) 5 1 1) 8 1 0
  { x with priv := Priv.ofNum (bitsAt x.mstatus 8 1), pc := x.sepc, mstatus := setBits m 17 1 0 }

/-- `SINVAL.VMA` and `SFENCE.VMA`, which one that may not use `satp` cannot run. -/
def fencesTable (w : Nat) : Bool := rvBits w 11 7 == 0 && (rvBits w 31 25 == 9 || rvBits w 31 25 == 11)

/-- `MOP.R.n` and `MOP.RR.n`: their result is 0. -/
def mayBeOp (w : Nat) : Bool :=
  rvBits w 31 31 == 1 && rvBits w 29 28 == 0 && (rvBits w 25 25 == 1 || rvBits w 25 22 == 7)

/-- System words. The walk reads tables afresh for every access, so the fences of translations, and the waits for a reservation, only complete. -/
def State.hartSystem (s : State) (h : Nat) (w : Nat) (pc : Word) : HM State :=
  let x := s.hartAt h
  let f3 := rvBits w 14 12
  if f3 = 4 then (if mayBeOp w then .ok (s.hartDone h (rvBits w 11 7) 0 pc) else hartIllegal w)
  else if f3 ≠ 0 then s.hartCsr h w pc
  else if w = 0x00000073 then .error (.trap (8 + x.priv.num) 0)
  else if w = 0x00100073 then .error (.trap 3 x.pc)
  else if w = 0x30200073 then (if x.priv = .m then .ok (s.putHart h x.mret) else hartIllegal w)
  else if w = 0x10200073 then
    (if x.priv = .u ∨ (x.priv = .s ∧ bitAt x.mstatus 22) then hartIllegal w else .ok (s.putHart h x.sret))
  else if w = 0x10500073 then
    (if x.priv ≠ .m ∧ bitAt x.mstatus 21 then hartIllegal w else .ok (s.putHart h { x with pc := pc, wfi := true }))
  else if fencesTable w then
    (if x.priv = .u ∨ (x.priv = .s ∧ bitAt x.mstatus 20) then hartIllegal w else .ok (s.hartDone h 0 0 pc))
  else if w = 0x18000073 ∨ w = 0x18100073 then (if x.priv = .u then hartIllegal w else .ok (s.hartDone h 0 0 pc))
  else if w = 0x00D00073 ∨ w = 0x01D00073 then .ok (s.hartDone h 0 0 pc)
  else hartIllegal w

/-! ### Xkredunfut (R438) -/

/-- The oldest request the sandbox may claim. -/
def oldest : List Future → Option Future
  | [] => none
  | f :: fs => match oldest fs with
    | none => some f
    | some g => if f.seq ≤ g.seq then some f else some g

/-- The hart may resolve an entry. -/
def State.resolver (s : State) (h : Nat) (x : Hart) (f : Future) : Bool :=
  f.ctx == x.ctx && f.open_ && !f.cpy &&
    ((f.st == 2 && f.claimer == some h) || (f.rem && !f.hw && f.sbx == x.sbx))

def State.hartFget (s : State) (h : Nat) (rs2 rs1 rd : Nat) (pc : Word) : HM State := do
  let x := s.hartAt h
  let s := (s.futures.map (·.id)).foldl (fun s i => s.futTick i) s
  match oldest (s.futures.filter (s.claimable x)) with
  | none => .ok (s.hartDone h rd 0 pc)
  | some f => do
    let n := min f.reqlen (x.get rs2).toNat
    let _ ← s.hartAccess x .u .store (x.get rs1).toNat n
    match s.futSpans f (cutSpans f.reqAt 0 n) with
    | none => .error (.wait s)
    | some ss => match s.gather (hubWho f.ctx) (ss.map fun p => { p with pol := 2 }) with
      | none => .error (.wait s)
      | some (s', bs, bad) =>
        if bad then .error (.uncorr f.req)
        else do
          let s' ← s'.hartWrite h .u .store (x.get rs1).toNat (bs.take n)
          let s' := s'.putFut { f with st := 2, claimer := some h }
          .ok (s'.hartDone h rd (mkWord [(1, 63), (f.id, 32), (f.reqlen, 0)]) pc)

/-- A resolution or extension that has no effect. -/
def State.hartStale (s : State) (h rd : Nat) (x : Hart) (pc : Word) : State := (s.stale x.ctx).hartDone h rd 1 pc

def State.hartFres (s : State) (h : Nat) (rs2 rs1 rd : Nat) (pc : Word) (w : Nat) : HM State := do
  let x := s.hartAt h
  let v := x.get rs1
  if bitsAt v 16 16 ≠ 0 then hartIllegal w
  else
    let s := s.futTick (bitsAt v 0 16)
    match s.futAt (bitsAt v 0 16) with
    | none => .ok (s.hartStale h rd x pc)
    | some f =>
      if !s.resolver h x f then .ok (s.hartStale h rd x pc)
      else do
        let len := bitsAt v 32 32
        let n := min len f.rplcap
        let r ← s.hartRead h .u .load (x.get rs2).toNat n
        match r.1.futSpans f (cutSpans f.rplAt 0 n) with
        | none => .error (.wait s)
        | some ss => match r.1.scatter (hubWho f.ctx) (futUid f.id) (ss.map fun p => { p with pol := 2 }) r.2 with
          | none => .error (.wait s)
          | some s' => .ok ((s'.futEnds { f with rlen := n } (if n < len then 3 else 1)).hartDone h rd 0 pc)

def State.hartFext (s : State) (h : Nat) (rs2 rs1 rd : Nat) (pc : Word) (w : Nat) : HM State := do
  let x := s.hartAt h
  let v := x.get rs1
  if bitsAt v 16 48 ≠ 0 then hartIllegal w
  else
    let s := s.futTick (bitsAt v 0 16)
    match s.futAt (bitsAt v 0 16) with
    | none => .ok (s.hartStale h rd x pc)
    | some f =>
      if !s.resolver h x f then .ok (s.hartStale h rd x pc)
      else
        let d := min (f.deadline + (x.get rs2).toNat) (s.now + 2 ^ 40 - 1)
        .ok ((s.putFut { f with deadline := d }).hartDone h rd 0 pc)

/-- A custom-0 word. -/
def State.hartCustom (s : State) (h : Nat) (w : Nat) (pc : Word) : HM State :=
  let rd := rvBits w 11 7
  let rs1 := rvBits w 19 15
  let rs2 := rvBits w 24 20
  if rvBits w 31 25 ≠ 0 ∨ !(s.hartAt h).sandboxed then hartIllegal w
  else match rvBits w 14 12 with
    | 0 => s.hartFget h rs2 rs1 rd pc
    | 1 => s.hartFres h rs2 rs1 rd pc w
    | 2 => s.hartFext h rs2 rs1 rd pc w
    | _ => hartIllegal w

/-! ### One instruction -/

/-- The cache units of a 64-byte block. -/
def State.blockUnits (s : State) (a : Nat) : List (Nat × Nat × Nat) :=
  ([a, a + 32].map fun p => (slineOf p, s.grainAt p 0, unitIn p (s.grainAt p 0))).eraseDups

/-- What a cache-block word does to a unit: 0 invalidate and 2 flush write dirty data back and drop every copy; 1 clean keeps the copies. -/
def State.blockUnit (s : State) (ctx k sl g u : Nat) : State :=
  if k ≠ 1 then s.clearUnit ctx sl g u
  else
    let ds := ((s.coh.tagsOf sl).filter fun t => ctxHits ctx t.ctx && t.dirty u && t.cache < 32).map (·.ctx)
    let clean := fun (m : Moesi) => match m with | .m => Moesi.e | .o => .s | y => y
    (ds.foldl (fun s c => s.flushUnit c sl g u) s).modCoh fun c =>
      c.modTags sl fun t => if ctxHits ctx t.ctx then t.withUnit u (clean (t.unit u)) else t

/-- The environment bits at `lo` of the modes above let the hart run a cache-block word; the bits of `menvcfg` and `senvcfg` that apply. -/
def Hart.envBits (x : Hart) (lo n : Nat) : List Nat :=
  match x.priv with
  | .m => []
  | .s => [bitsAt x.menvcfg lo n]
  | .u => [bitsAt x.menvcfg lo n, bitsAt x.senvcfg lo n]

/-- `CBO.INVAL`, `CBO.CLEAN`, `CBO.FLUSH` and `CBO.ZERO`, on 64-byte blocks. -/
def State.hartBlock (s : State) (h w : Nat) (pc : Word) : HM State :=
  let x := s.hartAt h
  let k := rvBits w 31 20
  let va := x.dataAddr (x.get (rvBits w 19 15)) / 64 * 64
  let allowed := match k with
    | 0 => !(x.envBits 4 2).contains 0
    | 1 | 2 => !(x.envBits 6 1).contains 0
    | 4 => !(x.envBits 7 1).contains 0
    | _ => false
  if rvBits w 11 7 ≠ 0 ∨ !allowed then hartIllegal w
  else if k = 4 then do
    let s' ← s.hartWrite h x.dataPriv .store va (List.replicate 64 0)
    .ok (s'.hartDone h 0 0 pc)
  else do
    let ss ← match s.hartAccess x x.dataPriv .load va 64 with
      | .ok ss => Except.ok ss
      | .error _ => s.hartAccess x x.dataPriv .store va 64
    let us := s.blockUnits (headAddr ss)
    if ss.any fun p => p.place == .dev then .ok (s.hartDone h 0 0 pc)
    else match us.find? fun p => s.pinRefuses (x.who h) p.1 p.2.2 with
      | some _ => s.hartWait (x.who h) (headAddr ss)
      | none => .ok ((us.foldl (fun s p => s.blockUnit x.ctx k p.1 p.2.1 p.2.2) (s.dequeue (some (.hart h)))).hartDone h 0 0 pc)

/-! ### Floating point -/

/-- Writes what a floating-point word gives. -/
def State.hartFOut (s : State) (h rd w : Nat) (pc : Word) : Option FOut → HM State
  | none => hartIllegal w
  | some o =>
    let x := s.hartAt h
    let acc := fun (y : Hart) (fl : Nat) => if fl = 0 then y else y.setFcsr (y.fcsr.toNat ||| fl)
    match o with
    | .f v fl => .ok (s.putHart h { (acc { x with f := x.f.set rd v } fl).dirtyF with pc := pc })
    | .x v fl => .ok (s.putHart h { acc (x.set rd v) fl with pc := pc })

/-- Words of `OP-FP` and the fused ones; with the unit off they are illegal. -/
def State.hartFloat (s : State) (h w raw : Nat) (pc : Word) : HM State :=
  let x := s.hartAt h
  let frm := x.fcsr.toNat / 32
  let f := fun (lo : Nat) => x.f.getD (rvBits w (lo + 4) lo) 0
  if bitsAt x.mstatus 13 2 = 0 then hartIllegal raw
  else if w % 128 = 0x53 then s.hartFOut h (rvBits w 11 7) raw pc (rvFloat w frm (f 15) (f 20) (x.get (rvBits w 19 15)))
  else s.hartFOut h (rvBits w 11 7) raw pc (rvFused w frm (f 15) (f 20) (f 27))

/-- Scalar floating-point loads and stores of 2, 4 and 8 bytes. -/
def State.hartFmem (s : State) (h w raw : Nat) (pc : Word) : HM State :=
  let x := s.hartAt h
  let n := 2 ^ rvBits w 14 12
  let a := x.get (rvBits w 19 15)
  if bitsAt x.mstatus 13 2 = 0 then hartIllegal raw
  else if w % 128 = 0x07 then do
    let r ← s.hartRead h x.dataPriv .load (x.dataAddr (a + rvImmI w)) n
    let y := r.1.hartAt h
    let v := BitVec.ofNat 64 (2 ^ 64 - 2 ^ (8 * n) + bytesNat r.2)
    .ok (r.1.putHart h { ({ y with f := y.f.set (rvBits w 11 7) v } : Hart).dirtyF with pc := pc })
  else do
    let s' ← s.hartWrite h x.dataPriv .store (x.dataAddr (a + rvImmS w)) (natBytes n (x.f.getD (rvBits w 24 20) 0).toNat)
    .ok (s'.hartDone h 0 0 pc)

/-! ### One instruction -/

/-- Writes an optional result. -/
def State.hartAlu (s : State) (h rd w : Nat) (pc : Word) : Option Word → HM State
  | some v => .ok (s.hartDone h rd v pc)
  | none => hartIllegal w

/-- The meaning of a 32-bit word whose next word is at `pc`; `raw` is the word as fetched. -/
def State.hartWord (s : State) (h w raw : Nat) (pc : Word) : HM State :=
  let x := s.hartAt h
  let rd := rvBits w 11 7
  let f3 := rvBits w 14 12
  let a := x.get (rvBits w 19 15)
  let b := x.get (rvBits w 24 20)
  match w % 128 with
  | 0x37 => .ok (s.hartDone h rd (rvImmU w) pc)
  | 0x17 => .ok (s.hartDone h rd (x.pc + rvImmU w) pc)
  | 0x6F => .ok (s.hartDone h rd pc (x.pc + rvImmJ w))
  | 0x67 => if f3 = 0 then .ok (s.hartDone h rd pc ((a + rvImmI w) &&& ~~~(1 : Word))) else hartIllegal raw
  | 0x63 =>
    match rvBranch f3 a b with
    | some true => .ok (s.hartDone h 0 0 (x.pc + rvImmB w))
    | some false => .ok (s.hartDone h 0 0 pc)
    | none => hartIllegal raw
  | 0x03 => s.hartLoad h f3 rd (a + rvImmI w) pc raw
  | 0x23 => s.hartStore h f3 (a + rvImmS w) b pc raw
  | 0x13 => s.hartAlu h rd raw pc (rvOpImm f3 (rvBits w 31 20) a (rvImmI w))
  | 0x1B => s.hartAlu h rd raw pc (rvOpImm32 f3 (rvBits w 31 20) a (rvImmI w))
  | 0x33 => s.hartAlu h rd raw pc (rvOp (rvBits w 31 25) f3 a b)
  | 0x3B => s.hartAlu h rd raw pc (rvOp32 (rvBits w 31 25) f3 (rvBits w 24 20) a b)
  | 0x0F => if f3 ≤ 1 then .ok (s.hartDone h 0 0 pc) else if f3 = 2 then s.hartBlock h w pc else hartIllegal raw
  | 0x2F => s.hartAtomic h w pc
  | 0x73 => s.hartSystem h w pc
  | 0x0B => s.hartCustom h w pc
  | 0x07 => if 1 ≤ f3 ∧ f3 ≤ 3 then s.hartFmem h w raw pc else s.hartVmem h w true pc
  | 0x27 => if 1 ≤ f3 ∧ f3 ≤ 3 then s.hartFmem h w raw pc else s.hartVmem h w false pc
  | 0x43 | 0x47 | 0x4B | 0x4F | 0x53 => s.hartFloat h w raw pc
  | 0x57 => s.hartVector h w pc
  | _ => hartIllegal raw

/-- The meaning of a fetched word of 16 or 32 bits. -/
def State.hartExec (s : State) (h w : Nat) : HM State :=
  let x := s.hartAt h
  if w % 4 = 3 then s.hartWord h (w % 2 ^ 32) (w % 2 ^ 32) (x.pc + 4)
  else match rvExpand (w % 2 ^ 16) with
    | some e => s.hartWord h e (w % 2 ^ 16) (x.pc + 2)
    | none => hartIllegal (w % 2 ^ 16)

/-- The hart takes an exception or an interrupt: what waits of its instruction has not happened. -/
def State.hartTakes (s : State) (h : Nat) (intr : Bool) (c : Nat) (v : Word) : State :=
  (s.dequeue (some (.hart h))).putHart h ((s.hartAt h).take intr c v)

/-- Consuming poisoned data ends the sandbox's context; a hart in none takes a load access fault (R56). -/
def State.hartUncorr (s : State) (h : Nat) (va : Word) : State :=
  let x := s.hartAt h
  if x.sandboxed && s.ctxState x.ctx == 1 then s.fatalError x.ctx (.agent (hartAgent h)) 0x84 va 0
  else s.hartTakes h false 5 va

/-- What an instruction of hart `h` leaves. -/
def hartOutcome (s : State) (h : Nat) : HM State → Host.Outcome State Fault Refusal
  | .ok t => .next ((t.dequeue (some (.hart h))).putHart h { t.hartAt h with instret := (t.hartAt h).instret + 1 })
  | .error (.trap c v) => .next (s.hartTakes h false c v)
  | .error (.trapAt t c v) => .next (t.hartTakes h false c v)
  | .error (.wait t) => .next t
  | .error (.uncorr va) => .next (s.hartUncorr h va)

def execFerleHartInstruction (h : Nat) (w : IWord) (s : State) : Host.Outcome State Fault Refusal :=
  if 64 ≤ h then .next s else hartOutcome { s with hart := h } h (({ s with hart := h } : State).hartExec h w.toNat)

/-- The word of a custom-0 instruction. -/
def customWord (f3 : Nat) (rs2 rs1 rd : BitVec 5) : Nat := encR 0x0B f3 0 rd.toNat rs1.toNat rs2.toNat

def execFget (rs2 rs1 rd : BitVec 5) (s : State) : Host.Outcome State Fault Refusal :=
  hartOutcome s s.hart (s.hartCustom s.hart (customWord 0 rs2 rs1 rd) ((s.hartAt s.hart).pc + 4))

def execFres (rs2 rs1 rd : BitVec 5) (s : State) : Host.Outcome State Fault Refusal :=
  hartOutcome s s.hart (s.hartCustom s.hart (customWord 1 rs2 rs1 rd) ((s.hartAt s.hart).pc + 4))

def execFext (rs2 rs1 rd : BitVec 5) (s : State) : Host.Outcome State Fault Refusal :=
  hartOutcome s s.hart (s.hartCustom s.hart (customWord 2 rs2 rs1 rd) ((s.hartAt s.hart).pc + 4))

/-! ### Fetch -/

/-- Two bytes of an instruction; poisoned ones are not consumed (R56). -/
def State.hartParcel (s : State) (x : Hart) (a : Nat) : HM Nat := do
  let ss ← s.hartAccess x x.priv .fetch a 2
  if ss.any fun p => s.poisoned p.addr p.len then .error (.uncorr (BitVec.ofNat 64 a))
  else .ok (bytesNat (ss.flatMap fun p => s.readMem p.addr p.len))

/-- The word at a hart's address: 16 bits, or 32 where the low two are 11. -/
def State.hartFetch (s : State) (h : Nat) : HM Nat := do
  let x := s.hartAt h
  let a := x.pc.toNat
  let v ← s.hartParcel x a
  if v % 4 ≠ 3 then .ok v
  else do
    let u ← s.hartParcel x ((a + 2) % 2 ^ 64)
    .ok (v + 2 ^ 16 * u)

/-- What a hart does next: an interrupt, its wait, or its next word. -/
inductive HartNext where
  | intr (code : Nat)
  | idle
  | word (w : Nat)
  | stop (e : HStop)
  deriving DecidableEq, Repr

def State.hartNext (s : State) (h : Nat) : HartNext :=
  let x := s.hartAt h
  match s.intrOf x with
  | some i => .intr i
  | none =>
    if x.wfi && (s.mipOf x &&& x.mie) == 0 then .idle
    else match ({ s with harts := aput Hart.reset h { x with wfi := false } s.harts } : State).hartFetch h with
      | .ok w => .word w
      | .error e => .stop e

end Sys2Proof.Machine
end

