-- ==== Sys2Proof/Machine/Slots.lean ====
section
/-! DEFINITION. Bundles (R187-R190): the four slots of a bundle tested together and performed in the order L, X, S, K. -/

namespace Sys2Proof.Machine

/-- The meaning of a word in a slot; a step without a word of its own is none. -/
def slotSem : Instr → Sem
  | .nop => semNop
  | .fence scope ord => semFence scope ord
  | .commit => semCommit
  | .abort => semAbort
  | .wfe rd => semWfe rd
  | .tsig pair => semTsig pair
  | .twait pair => semTwait pair
  | .ttry rd pair => semTtry rd pair
  | .ccset cc => semCcset cc
  | .ccclr cc => semCcclr cc
  | .ccwait cc => semCcwait cc
  | .join cc => semJoin cc
  | .add rd ra rb => semAdd rd ra rb
  | .sub rd ra rb => semSub rd ra rb
  | .and rd ra rb => semAnd rd ra rb
  | .or rd ra rb => semOr rd ra rb
  | .xor rd ra rb => semXor rd ra rb
  | .andn rd ra rb => semAndn rd ra rb
  | .sll rd ra rb => semSll rd ra rb
  | .srl rd ra rb => semSrl rd ra rb
  | .sra rd ra rb => semSra rd ra rb
  | .rol rd ra rb => semRol rd ra rb
  | .mul rd ra rb => semMul rd ra rb
  | .mulh rd ra rb => semMulh rd ra rb
  | .mulhu rd ra rb => semMulhu rd ra rb
  | .div rd ra rb => semDiv rd ra rb
  | .divu rd ra rb => semDivu rd ra rb
  | .rem rd ra rb => semRem rd ra rb
  | .remu rd ra rb => semRemu rd ra rb
  | .divw rd ra rb => semDivw rd ra rb
  | .remw rd ra rb => semRemw rd ra rb
  | .min rd ra rb => semMin rd ra rb
  | .max rd ra rb => semMax rd ra rb
  | .minu rd ra rb => semMinu rd ra rb
  | .maxu rd ra rb => semMaxu rd ra rb
  | .slt rd ra rb => semSlt rd ra rb
  | .sltu rd ra rb => semSltu rd ra rb
  | .seq rd ra rb => semSeq rd ra rb
  | .clz rd ra => semClz rd ra
  | .ctz rd ra => semCtz rd ra
  | .popc rd ra => semPopc rd ra
  | .addi rd ra imm => semAddi rd ra imm
  | .andi rd ra imm => semAndi rd ra imm
  | .ori rd ra imm => semOri rd ra imm
  | .xori rd ra imm => semXori rd ra imm
  | .slli rd ra sh => semSlli rd ra sh
  | .srli rd ra sh => semSrli rd ra sh
  | .srai rd ra sh => semSrai rd ra sh
  | .slti rd ra imm => semSlti rd ra imm
  | .sltiu rd ra imm => semSltiu rd ra imm
  | .movhi rd ra imm => semMovhi rd ra imm
  | .beq ra rb off => semBeq ra rb off
  | .bne ra rb off => semBne ra rb off
  | .blt ra rb off => semBlt ra rb off
  | .bge ra rb off => semBge ra rb off
  | .bltu ra rb off => semBltu ra rb off
  | .bgeu ra rb off => semBgeu ra rb off
  | .j off => semJ off
  | .jal off => semJal off
  | .call fc off => semCall fc off
  | .jr ra => semJr ra
  | .callr ra fc => semCallr ra fc
  | .ret => semRet
  | .loop k ra len => semLoop k ra len
  | .loopi k cnt len => semLoopi k cnt len
  | .lstep rd ra k j => semLstep rd ra k j
  | .lfirst n k => semLfirst n k
  | .llast n k => semLlast n k
  | .lbreak k => semLbreak k
  | .ldb rd ra sync off => semLdb rd ra sync off
  | .ldbu rd ra sync off => semLdbu rd ra sync off
  | .ldh rd ra sync off => semLdh rd ra sync off
  | .ldhu rd ra sync off => semLdhu rd ra sync off
  | .ldw rd ra sync off => semLdw rd ra sync off
  | .ldwu rd ra sync off => semLdwu rd ra sync off
  | .ldd rd ra sync off => semLdd rd ra sync off
  | .stb rd ra sync off => semStb rd ra sync off
  | .sth rd ra sync off => semSth rd ra sync off
  | .stw rd ra sync off => semStw rd ra sync off
  | .std rd ra sync off => semStd rd ra sync off
  | .bararr mask bar => semBararr mask bar
  | .barwait bar => semBarwait bar
  | .barsync mask bar => semBarsync mask bar
  | .dsync level => semDsync level
  | .fork rd ra rb => semFork rd ra rb
  | .mfc rd crn => semMfc rd crn
  | .mtc ra crn => semMtc ra crn
  | .mfcXq rd => semMfcXq rd
  | .mtcQ3 ra => semMtcQ3 ra
  | .vld rsz q ga off sync row => semVld rsz q ga off sync row
  | .vlds esz q ga gs off sync => semVlds esz q ga gs off sync
  | .vldb esz q ga off sync => semVldb esz q ga off sync
  | .probe gl ga off sync intent => semProbe gl ga off sync intent
  | .pref lvl ga off sync wr => semPref lvl ga off sync wr
  | .lda gd ga scope ord off sync sz => semLda gd ga scope ord off sync sz
  | .nreq gl ga gn slot rlx sync => semNreq gl ga gn slot rlx sync
  | .nwait gd slot sync => semNwait gd slot sync
  | .ncancel slot sync => semNcancel slot sync
  | .vst vsz ga off sync => semVst vsz ga off sync
  | .vsts esz ga gs off sync => semVsts esz ga gs off sync
  | .stl gd ga scope ord off sync sz => semStl gd ga scope ord off sync sz
  | .amoadd gd ga scope ord gs sync sz => semAmoadd gd ga scope ord gs sync sz
  | .amomin gd ga scope ord gs u sync sz => semAmomin gd ga scope ord gs u sync sz
  | .amomax gd ga scope ord gs u sync sz => semAmomax gd ga scope ord gs u sync sz
  | .amoand gd ga scope ord gs sync sz => semAmoand gd ga scope ord gs sync sz
  | .amoor gd ga scope ord gs sync sz => semAmoor gd ga scope ord gs sync sz
  | .amoxor gd ga scope ord gs sync sz => semAmoxor gd ga scope ord gs sync sz
  | .amoswp gd ga scope ord gs sync sz => semAmoswp gd ga scope ord gs sync sz
  | .amocas gd ga scope ord gs sync sz => semAmocas gd ga scope ord gs sync sz
  | .vradd rsz ty ga scope ord off sync sat => semVradd rsz ty ga scope ord off sync sat
  | .npub gz ga gn sync => semNpub gz ga gn sync
  | .bst bsz ga gs off sync => semBst bsz ga gs off sync
  | .vadd o => semVadd o
  | .vsub o => semVsub o
  | .vmul o => semVmul o
  | .vfma o => semVfma o
  | .vfms o => semVfms o
  | .vfnma o => semVfnma o
  | .vmin o => semVmin o
  | .vmax o => semVmax o
  | .vabs o => semVabs o
  | .vneg o => semVneg o
  | .vrcp o => semVrcp o
  | .vrsq o => semVrsq o
  | .vexp2 o => semVexp2 o
  | .vlog2 o => semVlog2 o
  | .vcmp o => semVcmp o
  | .vsel o => semVsel o
  | .vcvt o => semVcvt o
  | .vpack o => semVpack o
  | .vunpk o => semVunpk o
  | .vzp o => semVzp o
  | .vscacc o => semVscacc o
  | .vscalex o => semVscalex o
  | .vredadd o => semVredadd o
  | .vredmax o => semVredmax o
  | .vredmin o => semVredmin o
  | .vperm o => semVperm o
  | .vslide o => semVslide o
  | .vbcast o => semVbcast o
  | .vmov o => semVmov o
  | .vclr o => semVclr o
  | .viadd o => semViadd o
  | .visub o => semVisub o
  | .vimul o => semVimul o
  | .vimulh o => semVimulh o
  | .vimin o => semVimin o
  | .vimax o => semVimax o
  | .viabs o => semViabs o
  | .vand o => semVand o
  | .vor o => semVor o
  | .vxor o => semVxor o
  | .vsll o => semVsll o
  | .vsrl o => semVsrl o
  | .vsra o => semVsra o
  | .vmand o => semVmand o
  | .vmor o => semVmor o
  | .vmxor o => semVmxor o
  | .vmnot o => semVmnot o
  | .vmpop o => semVmpop o
  | .vmfirst o => semVmfirst o
  | .viota o => semViota o
  | .vxtr o => semVxtr o
  | .jcmd ra rb eng two => semJcmd ra rb eng two
  | .jend rd tok => semJend rd tok
  | .jwait rd ra stat => semJwait rd ra stat
  | .jpoll rd ra => semJpoll rd ra
  | .jpop rd eng stat => semJpop rd eng stat
  | .ringdef n ra => semRingdef n ra
  | .ringadv n cnt => semRingadv n cnt
  | .ringst rd n sel => semRingst rd n sel
  | .trap ra n => semTrap ra n
  | .tret => semTret
  | .syscReadContext rd ra => semSyscReadContext rd ra
  | .syscPagerRequest rd => semSyscPagerRequest rd
  | .syscPagerTake rd ra => semSyscPagerTake rd ra
  | .syscPagerReply rd ra => semSyscPagerReply rd ra
  | .mfs rd ra off => semMfs rd ra off
  | .mts ra rb off => semMts ra rb off
  | .yield => semYield
  | .tend => semTend
  | .lnch rd ra q => semLnch rd ra q
  | .fcall rd ra => semFcall rd ra
  | .fawait rd ra => semFawait rd ra
  | .fpoll rd ra => semFpoll rd ra
  | .fcancel rd ra => semFcancel rd ra
  | .qtzr rd => semQtzr rd
  | .qtzrUntil rd ra => semQtzrUntil rd ra
  | .lttld rd ra rb => semLttld rd ra rb
  | .dbg n => semDbg n
  | _ => fun _ => illegal

/-- A slot word decoded as its strand fetches it; a word that is no instruction raises `ILLEGAL` (R271). -/
structure Slot where
  id : StrandId
  word : IWord
  deriving DecidableEq, Repr

def Slot.instr (t : Slot) : Option Instr :=
  match decodeWord t.id t.word with
  | .ok i => some i
  | .error _ => none

def slotsOf (wl wx ws wk : IWord) : List Slot := [⟨.l, wl⟩, ⟨.x, wx⟩, ⟨.s, ws⟩, ⟨.k, wk⟩]

def isDsync : Option Instr → Bool
  | some (.dsync _) => true
  | _ => false

/-- A use of a slot that R188 forbids whatever the state. -/
def slotBad (earlier : List Slot) (t : Slot) : Bool :=
  match t.instr with
  | none => false
  | some i => bundleForbids i t.id || (isDsync t.instr && earlier.any fun u => isDsync u.instr)

/-- The lowest slot that R188 forbids. -/
def firstBad (earlier : List Slot) : List Slot → Option Slot
  | [] => none
  | t :: ts => if slotBad earlier t then some t else firstBad (t :: earlier) ts

/-- What a slot does from a state. -/
def Slot.run (t : Slot) (s : State) : Except Stop Done :=
  match t.instr with
  | none => illegal
  | some i => checked i (slotSem i) { s with cur := t.id }

/-- A transfer of K whose target bundle mode does not admit. -/
def Slot.odd (t : Slot) (s : State) : Bool :=
  match t.instr with
  | none => false
  | some i => match slotChecked i (slotSem i) { s with cur := t.id } with
    | .ok d => d.odd s
    | .error _ => false

/-- A slot's trap value where the word decodes to nothing or traps (R422). -/
def Slot.val (t : Slot) : Word := BitVec.ofNat 64 (t.word.toNat + t.id.num * 2 ^ 32)

/-- What stops a slot, as a step; no slot of the bundle issues (R189). -/
def Slot.stop (t : Slot) (s : State) (e : Stop) : Host.Outcome State Fault Refusal :=
  let s := { s with cur := t.id }
  match e with
  | .wait code => .next (s.modMe fun u => { u with wait := code })
  | .trap cause detail val => .next (s.trapStop t.id cause detail (if cause = 1 ∨ cause = 2 then t.val else val))
  | .fatal code val => .next (s.fatalError s.ctx (.strand s.core.idx t.id) code val 0)
  | .watch n a => .next (s.watchStop n a)

/-- A result that ends the bundle's step by itself: the word took a trap, waits for one, gave up the core or ended its context. The other slots
of a `TEND` issue with it (R403). -/
def endsStep (s : State) (t : Slot) : Done → Option State
  | .at_ s' =>
    if t.instr == some .tend then none
    else if s'.core.task != s.core.task || decide (s.core.tl < s'.core.tl) || (s'.strand t.id).wait != 0 then some s' else none
  | _ => none

/-- A slot whose effect follows the completion of the other slots: a transfer, or a trap past the bundle (R396). -/
def Done.last : Done → Bool
  | .jump _ _ => true
  | .raise _ _ _ _ => true
  | .at_ _ => true
  | _ => false

def slotBit (σ : StrandId) : BitVec 4 := BitVec.ofNat 4 (2 ^ σ.num)

/-- The slot has completed. -/
def State.slotDone (s : State) (σ : StrandId) : Bool := s.core.bdone &&& slotBit σ != 0

/-- Marks a slot completed; until its bundle has completed it waits for the other slots (code 9). -/
def State.markSlot (s : State) (σ : StrandId) : State :=
  ({ s with core := { s.core with bdone := s.core.bdone ||| slotBit σ } }).modStrand σ fun t => { t with stage := 0, wait := 9 }

/-- The bundle has issued. -/
def State.begun (s : State) : Bool := s.core.bdone != 0 || allStrands.any fun σ => (s.strand σ).stage != 0

/-- A word that only tests a token count or a sync bit, which it sees as the bundle finds it at issue (R190). -/
def Slot.tests (t : Slot) : Bool :=
  match t.instr with
  | some (.ccwait _) | some (.ttry _ _) => true
  | _ => false

/-- The slots in the order in which a bundle performs them: what only tests a condition of issue, then program order. -/
def testsFirst (ts : List Slot) : List Slot := ts.filter Slot.tests ++ ts.filter fun t => !t.tests

/-- Performs the slots that have not completed, in order, and leaves those that come last. One that could issue and now waits for the bundle's
own effects waits with its bundle issued. -/
def performSlots : List Slot → State → Except (Slot × Stop) State
  | [], s => .ok s
  | t :: ts, s =>
    if s.slotDone t.id then performSlots ts s
    else match t.run s with
      | .error (.wait code) => if s.begun && decide (outside ≤ code) then performSlots ts (s.modStrand t.id fun u => { u with wait := code }) else .error (t, .wait code)
      | .error e => .error (t, e)
      | .ok (.next s') => performSlots ts (s'.markSlot t.id)
      | .ok (.hold s' code) => performSlots ts (s'.modStrand t.id fun u => { u with stage := max 1 u.stage, wait := code })
      | .ok _ => performSlots ts s

/-- Ends a bundle: every strand is at its slot of the next one. -/
def State.endBundle (s : State) (next : Word) : State :=
  let c := s.core
  let clear : Strand → Strand := fun t => { t with stage := 0, wait := 0 }
  ({ s with cur := .k, core := { c with bdone := 0, l := clear c.l, x := clear c.x, s := clear c.s, k := clear c.k } }).complete next

/-- A trap past the bundle, once everything issued has landed; until then the last slots are not performed (`s0`). -/
def State.raisePast (s0 s : State) (σ : StrandId) (next : Word) (cause detail : Nat) (val : Word) : State :=
  let s' := s.landCore s.core.idx Core.landAll
  match s'.drainCore s'.core.idx with
  | (s', some (code, v)) => s'.fatalError s'.ctx (.strand s'.core.idx σ) code v 0
  | (s', none) =>
    if s'.core.landed then (s'.endBundle next).takeTrap σ cause detail val
    else s0.modStrand σ fun t => { t with wait := landing }

/-- Performs the slots that come last, in order: where the bundle goes and the lowest trap past it. -/
def lastSlots (s0 : State) (next : Word) (trap : Option (StrandId × Nat × Nat × Word)) : List Slot → State → Host.Outcome State Fault Refusal
  | [], s => .next (match trap with
      | none => s.endBundle next
      | some (σ, cause, detail, val) => State.raisePast s0 s σ next cause detail val)
  | t :: ts, s =>
    if s.slotDone t.id then lastSlots s0 next trap ts s
    else match t.run s with
      | .error e => t.stop s e
      | .ok (.jump s' a) => lastSlots s0 a trap ts s'
      | .ok (.raise s' cause detail val) => lastSlots s0 next (trap.orElse fun _ => some (t.id, cause, detail, val)) ts s'
      | .ok (.at_ s') => .next s'
      | .ok (.next s') => lastSlots s0 next trap ts s'
      | .ok (.hold s' code) => .next (s'.modStrand t.id fun u => { u with stage := max 1 u.stage, wait := code })

/-- Some slot that does not come last has yet to complete. -/
def State.waitsOn (s : State) (ts : List Slot) : Bool :=
  ts.any fun t => !s.slotDone t.id &&
    match t.run s with
    | .ok d => !d.last
    | .error _ => true

/-- Performs a bundle that can issue, or goes on with one that has issued. A stop of a bundle that has not issued leaves every slot
unperformed. -/
def State.performBundle (s : State) (ts : List Slot) : Host.Outcome State Fault Refusal :=
  match performSlots (testsFirst ts) s with
  | .error (t, e) => t.stop s e
  | .ok s' => if s'.waitsOn ts then .next s' else lastSlots s' s'.pcNext none ts s'

def isWait : Except Stop Done → Bool
  | .error (.wait _) => true
  | _ => false

/-- The state in which no slot waits for a token. -/
def State.withTokens (s : State) : State := { s with core := { s.core with tokens := s.core.tokens.map fun n => max 1 n } }

/-- The core with the tokens and the queue entries that a slot adds on its way from `c` to `d`. -/
def Core.given (c d0 d : Core) : Core :=
  let c := (List.range 16).foldl (fun c p =>
    if d0.token p + d0.reserved p < d.token p + d.reserved p then c.pushToken p else c) c
  (List.range 17).foldl (fun c q =>
    ((d.queue q).drop (d0.occ q)).foldl (fun c e => c.push q { e with due := 0, landed := true }) c) c

/-- Another slot of the bundle would provide what the slot waits for (R190). -/
def State.givenBy (s : State) (t u : Slot) : Bool :=
  u.id != t.id &&
    match u.run s.withTokens with
    | .ok (.next s') | .ok (.hold s' _) => !isWait (t.run { s with core := s.core.given s.withTokens.core s'.core })
    | _ => false

/-- The wait code of a slot of a bundle that cannot issue: 9 where the slot could issue, or waits for another slot of the bundle. -/
def State.slotWait (s : State) (ts : List Slot) (t : Slot) : Nat :=
  match t.run s with
  | .error (.wait code) => if (code = 1 ∨ code = 3) ∧ ts.any (s.givenBy t) then 9 else code
  | _ => 9

/-- The waits of the slots of a bundle that cannot issue. -/
def State.markWaits (s : State) (ts : List Slot) : State :=
  ts.foldl (fun u t => u.modStrand t.id fun v => { v with wait := s.slotWait ts t }) s

/-- The lowest slot that stops or ends the step by itself, as the step's outcome; a slot that waits is passed over. -/
def State.firstStop (s : State) : List Slot → Option (Host.Outcome State Fault Refusal)
  | [] => none
  | t :: ts =>
    match t.run s with
    | .error (.wait _) => s.firstStop ts
    | .error e => some (t.stop s e)
    | .ok d => match endsStep s t d with
      | some s' => some (.next s')
      | none => s.firstStop ts

def isFatal : Except Stop Done → Bool
  | .error (.fatal _ _) => true
  | _ => false

/-- What stops a bundle that R188 admits: a wait of some slot, unless a slot holds no instruction; then a fatal error (R417); then a misaligned
target of K; then the lowest slot that traps (R188-R190). -/
def State.bundleStop (s : State) (ts : List Slot) : Option (Host.Outcome State Fault Refusal) :=
  let waits := ts.any fun t => isWait (t.run s)
  if waits && !ts.any (fun t => t.instr.isNone) then some (.next (s.markWaits ts))
  else match ts.find? fun t => isFatal (t.run s) with
    | some t => s.firstStop [t]
    | none =>
      match if waits then none else ts.find? (·.odd s) with
      | some t => some (t.stop s (.trap 1 0 0))
      | none => s.firstStop ts

/-- `NOP`. -/
def nopWord : IWord := (encode .nop).getD 0

/-- Issues a bundle: the uses that R188 forbids first, then what stops it, then its effects (R187-R190). -/
def State.issueBundle (s : State) (ts : List Slot) : Host.Outcome State Fault Refusal :=
  if s.core.k.stage = tested then
    let s := { s with cur := .k }
    .next (if s.stepsBusy then s else s.advance s.pcNext)
  else
    let s := ({ s with cur := .k }).landForIssue
    let ts := if s.spentMarker then ts.map fun t => if t.id = .k then { t with word := nopWord } else t else ts
    if s.begun then s.performBundle ts
    else match firstBad [] ts with
      | some t => t.stop s (.trap 1 0 0)
      | none => (s.bundleStop ts).getD (s.performBundle ts)

/-! ### Fetching the code (R22, R56, R117) -/

/-- The code word at a handle address; poisoned code ends the context. -/
def State.fetchCode (s : State) (a : Word) : Except Stop IWord :=
  match s.access .fetch a 4 with
  | .ok [p] => if p.place = .mem ∧ s.poisoned p.addr p.len then .error (.fatal 0x84 a) else s.fetchWord a
  | _ => s.fetchWord a

/-- What stops a fetch, as a step. -/
def State.fetchStop (s : State) : Stop → Host.Outcome State Fault Refusal
  | .wait code => .next (s.modMe fun t => { t with wait := code })
  | .trap cause detail val => .next (s.trapStop s.cur cause detail val)
  | .fatal code val => .next (s.fatalError s.ctx (.strand s.core.idx s.cur) code val 0)
  | .watch n a => .next (s.watchStop n a)

/-- `BUNDLE_ISSUE`: a bundle issues in one cycle (R187); no core in word mode has a bundle. -/
def execBundleIssue (wl wx ws wk : BitVec 32) (s : State) : Host.Outcome State Fault Refusal :=
  if s.wordMode then .next s else s.issueBundle (slotsOf wl wx ws wk)

end Sys2Proof.Machine
end

