-- ==== Sys2Proof/Machine/Deadlock.lean ====
section
/-! DEFINITION. Deadlock (R209): a core whose strands all wait for one another. Each strand's word is tested afresh, so a wait whose cause has gone
is none. -/

namespace Sys2Proof.Machine

/-- The wait code of what issuing a word now would give; 0 where it would not wait. -/
def waitOf : Except Stop Done → Nat
  | .error (.wait code) => code
  | .ok (.hold _ code) => code
  | _ => 0

/-- The executing strand's word as it stands. -/
def State.wordWait (s : State) : Nat :=
  if s.skips || s.me.stage == tested then 0
  else match s.fetchCode s.here with
    | .error _ => 0
    | .ok w => match decodeWord s.cur w with
      | .error _ => 0
      | .ok i => waitOf (checked i (slotSem i) s.landForIssue)

/-- The slots of the core's bundle; none where it cannot be fetched. -/
def State.bundleHere (s : State) : List Slot :=
  match s.fetchCode s.here, s.fetchCode (s.here + 4), s.fetchCode (s.here + 8), s.fetchCode (s.here + 12) with
  | .ok wl, .ok wx, .ok ws, .ok wk => slotsOf wl wx ws wk
  | _, _, _, _ => []

/-- The wait codes of a bundle's slots. -/
def State.bundleWaits (s : State) : List Nat :=
  let s := { s with cur := .k }
  if s.skips || s.core.k.stage == tested then [0]
  else
    let s := s.landForIssue
    let ts := s.bundleHere
    if ts.isEmpty then [0]
    else if s.begun then ts.map fun t => if s.slotDone t.id then 9 else waitOf (t.run s)
    else if ts.any (fun t => isWait (t.run s)) then ts.map (s.slotWait ts)
    else [0]

/-- What each strand of the current core waits on, as R209 codes it. -/
def State.waitCodes (s : State) : List Nat :=
  let c := s.core
  if c.wordMode then
    allStrands.map fun σ =>
      if σ ≠ .k ∧ c.tl ≠ 0 then 0xC
      else if (c.strand σ).parked then 6
      else State.wordWait { s with cur := σ }
  else s.bundleWaits

/-- The task has an operation outstanding in memory, an engine, a named tile or a future. -/
def State.outstanding (s : State) (c : Core) : Bool :=
  !c.ops.isEmpty || !c.bsts.isEmpty || c.openJob.isSome ||
    (match c.task with
     | some t => s.jobs.any (fun j => j.task == t.id && !j.completed) ||
         s.futures.any fun f => f.ctx == c.view.ctx && t.rtn == some f.rtn && decide (f.st = 1 ∨ f.st = 2)
     | none => false) ||
    c.slots.any fun a => a.st == .pending

/-- A core whose strands all wait on one another traps. -/
def execDeadlockDetect (k : Nat) (s : State) : Host.Outcome State Fault Refusal :=
  let c := s.coreAt k
  if c.task.isNone || c.halted || c.saving != 0 || s.outstanding c then .next s
  else
    let back := s.core.idx
    let t := s.focus k
    let codes := t.waitCodes
    if !(codes.all fun w => decide (1 ≤ w ∧ w ≤ 12)) then .next s
    else
      let val := BitVec.ofNat 64 ((codes.zipIdx.map fun p => p.1 * 16 ^ p.2).sum)
      .next ((t.trapStop .k 0x0B 0 val).focus back)

end Sys2Proof.Machine
end

