-- ==== Sys2Proof/Machine/Dispatch.lean ====
section
/-! DEFINITION. One arm per instruction and per step: its meaning. -/

namespace Sys2Proof.Machine

def exec (i : Instr) (s : State) : Host.Outcome State Fault Refusal :=
  match i with
  | .nop => Sys2Proof.Machine.execNop s
  | .fence scope ord => Sys2Proof.Machine.execFence scope ord s
  | .commit => Sys2Proof.Machine.execCommit s
  | .abort => Sys2Proof.Machine.execAbort s
  | .wfe rd => Sys2Proof.Machine.execWfe rd s
  | .tsig pair => Sys2Proof.Machine.execTsig pair s
  | .twait pair => Sys2Proof.Machine.execTwait pair s
  | .ttry rd pair => Sys2Proof.Machine.execTtry rd pair s
  | .ccset cc => Sys2Proof.Machine.execCcset cc s
  | .ccclr cc => Sys2Proof.Machine.execCcclr cc s
  | .ccwait cc => Sys2Proof.Machine.execCcwait cc s
  | .join cc => Sys2Proof.Machine.execJoin cc s
  | .add rd ra rb => Sys2Proof.Machine.execAdd rd ra rb s
  | .sub rd ra rb => Sys2Proof.Machine.execSub rd ra rb s
  | .and rd ra rb => Sys2Proof.Machine.execAnd rd ra rb s
  | .or rd ra rb => Sys2Proof.Machine.execOr rd ra rb s
  | .xor rd ra rb => Sys2Proof.Machine.execXor rd ra rb s
  | .andn rd ra rb => Sys2Proof.Machine.execAndn rd ra rb s
  | .sll rd ra rb => Sys2Proof.Machine.execSll rd ra rb s
  | .srl rd ra rb => Sys2Proof.Machine.execSrl rd ra rb s
  | .sra rd ra rb => Sys2Proof.Machine.execSra rd ra rb s
  | .rol rd ra rb => Sys2Proof.Machine.execRol rd ra rb s
  | .mul rd ra rb => Sys2Proof.Machine.execMul rd ra rb s
  | .mulh rd ra rb => Sys2Proof.Machine.execMulh rd ra rb s
  | .mulhu rd ra rb => Sys2Proof.Machine.execMulhu rd ra rb s
  | .div rd ra rb => Sys2Proof.Machine.execDiv rd ra rb s
  | .divu rd ra rb => Sys2Proof.Machine.execDivu rd ra rb s
  | .rem rd ra rb => Sys2Proof.Machine.execRem rd ra rb s
  | .remu rd ra rb => Sys2Proof.Machine.execRemu rd ra rb s
  | .divw rd ra rb => Sys2Proof.Machine.execDivw rd ra rb s
  | .remw rd ra rb => Sys2Proof.Machine.execRemw rd ra rb s
  | .min rd ra rb => Sys2Proof.Machine.execMin rd ra rb s
  | .max rd ra rb => Sys2Proof.Machine.execMax rd ra rb s
  | .minu rd ra rb => Sys2Proof.Machine.execMinu rd ra rb s
  | .maxu rd ra rb => Sys2Proof.Machine.execMaxu rd ra rb s
  | .slt rd ra rb => Sys2Proof.Machine.execSlt rd ra rb s
  | .sltu rd ra rb => Sys2Proof.Machine.execSltu rd ra rb s
  | .seq rd ra rb => Sys2Proof.Machine.execSeq rd ra rb s
  | .clz rd ra => Sys2Proof.Machine.execClz rd ra s
  | .ctz rd ra => Sys2Proof.Machine.execCtz rd ra s
  | .popc rd ra => Sys2Proof.Machine.execPopc rd ra s
  | .addi rd ra imm => Sys2Proof.Machine.execAddi rd ra imm s
  | .andi rd ra imm => Sys2Proof.Machine.execAndi rd ra imm s
  | .ori rd ra imm => Sys2Proof.Machine.execOri rd ra imm s
  | .xori rd ra imm => Sys2Proof.Machine.execXori rd ra imm s
  | .slli rd ra sh => Sys2Proof.Machine.execSlli rd ra sh s
  | .srli rd ra sh => Sys2Proof.Machine.execSrli rd ra sh s
  | .srai rd ra sh => Sys2Proof.Machine.execSrai rd ra sh s
  | .slti rd ra imm => Sys2Proof.Machine.execSlti rd ra imm s
  | .sltiu rd ra imm => Sys2Proof.Machine.execSltiu rd ra imm s
  | .movhi rd ra imm => Sys2Proof.Machine.execMovhi rd ra imm s
  | .beq ra rb off => Sys2Proof.Machine.execBeq ra rb off s
  | .bne ra rb off => Sys2Proof.Machine.execBne ra rb off s
  | .blt ra rb off => Sys2Proof.Machine.execBlt ra rb off s
  | .bge ra rb off => Sys2Proof.Machine.execBge ra rb off s
  | .bltu ra rb off => Sys2Proof.Machine.execBltu ra rb off s
  | .bgeu ra rb off => Sys2Proof.Machine.execBgeu ra rb off s
  | .j off => Sys2Proof.Machine.execJ off s
  | .jal off => Sys2Proof.Machine.execJal off s
  | .call fc off => Sys2Proof.Machine.execCall fc off s
  | .jr ra => Sys2Proof.Machine.execJr ra s
  | .callr ra fc => Sys2Proof.Machine.execCallr ra fc s
  | .ret => Sys2Proof.Machine.execRet s
  | .loop k ra len => Sys2Proof.Machine.execLoop k ra len s
  | .loopi k cnt len => Sys2Proof.Machine.execLoopi k cnt len s
  | .lstep rd ra k j => Sys2Proof.Machine.execLstep rd ra k j s
  | .lfirst n k => Sys2Proof.Machine.execLfirst n k s
  | .llast n k => Sys2Proof.Machine.execLlast n k s
  | .lbreak k => Sys2Proof.Machine.execLbreak k s
  | .ldb rd ra sync off => Sys2Proof.Machine.execLdb rd ra sync off s
  | .ldbu rd ra sync off => Sys2Proof.Machine.execLdbu rd ra sync off s
  | .ldh rd ra sync off => Sys2Proof.Machine.execLdh rd ra sync off s
  | .ldhu rd ra sync off => Sys2Proof.Machine.execLdhu rd ra sync off s
  | .ldw rd ra sync off => Sys2Proof.Machine.execLdw rd ra sync off s
  | .ldwu rd ra sync off => Sys2Proof.Machine.execLdwu rd ra sync off s
  | .ldd rd ra sync off => Sys2Proof.Machine.execLdd rd ra sync off s
  | .stb rd ra sync off => Sys2Proof.Machine.execStb rd ra sync off s
  | .sth rd ra sync off => Sys2Proof.Machine.execSth rd ra sync off s
  | .stw rd ra sync off => Sys2Proof.Machine.execStw rd ra sync off s
  | .std rd ra sync off => Sys2Proof.Machine.execStd rd ra sync off s
  | .bararr mask bar => Sys2Proof.Machine.execBararr mask bar s
  | .barwait bar => Sys2Proof.Machine.execBarwait bar s
  | .barsync mask bar => Sys2Proof.Machine.execBarsync mask bar s
  | .dsync level => Sys2Proof.Machine.execDsync level s
  | .fork rd ra rb => Sys2Proof.Machine.execFork rd ra rb s
  | .mfc rd crn => Sys2Proof.Machine.execMfc rd crn s
  | .mtc ra crn => Sys2Proof.Machine.execMtc ra crn s
  | .mfcXq rd => Sys2Proof.Machine.execMfcXq rd s
  | .mtcQ3 ra => Sys2Proof.Machine.execMtcQ3 ra s
  | .vld rsz q ga off sync row => Sys2Proof.Machine.execVld rsz q ga off sync row s
  | .vlds esz q ga gs off sync => Sys2Proof.Machine.execVlds esz q ga gs off sync s
  | .vldb esz q ga off sync => Sys2Proof.Machine.execVldb esz q ga off sync s
  | .probe gl ga off sync intent => Sys2Proof.Machine.execProbe gl ga off sync intent s
  | .pref lvl ga off sync wr => Sys2Proof.Machine.execPref lvl ga off sync wr s
  | .lda gd ga scope ord off sync sz => Sys2Proof.Machine.execLda gd ga scope ord off sync sz s
  | .nreq gl ga gn slot rlx sync => Sys2Proof.Machine.execNreq gl ga gn slot rlx sync s
  | .nwait gd slot sync => Sys2Proof.Machine.execNwait gd slot sync s
  | .ncancel slot sync => Sys2Proof.Machine.execNcancel slot sync s
  | .vst vsz ga off sync => Sys2Proof.Machine.execVst vsz ga off sync s
  | .vsts esz ga gs off sync => Sys2Proof.Machine.execVsts esz ga gs off sync s
  | .stl gd ga scope ord off sync sz => Sys2Proof.Machine.execStl gd ga scope ord off sync sz s
  | .amoadd gd ga scope ord gs sync sz => Sys2Proof.Machine.execAmoadd gd ga scope ord gs sync sz s
  | .amomin gd ga scope ord gs u sync sz => Sys2Proof.Machine.execAmomin gd ga scope ord gs u sync sz s
  | .amomax gd ga scope ord gs u sync sz => Sys2Proof.Machine.execAmomax gd ga scope ord gs u sync sz s
  | .amoand gd ga scope ord gs sync sz => Sys2Proof.Machine.execAmoand gd ga scope ord gs sync sz s
  | .amoor gd ga scope ord gs sync sz => Sys2Proof.Machine.execAmoor gd ga scope ord gs sync sz s
  | .amoxor gd ga scope ord gs sync sz => Sys2Proof.Machine.execAmoxor gd ga scope ord gs sync sz s
  | .amoswp gd ga scope ord gs sync sz => Sys2Proof.Machine.execAmoswp gd ga scope ord gs sync sz s
  | .amocas gd ga scope ord gs sync sz => Sys2Proof.Machine.execAmocas gd ga scope ord gs sync sz s
  | .vradd rsz ty ga scope ord off sync sat => Sys2Proof.Machine.execVradd rsz ty ga scope ord off sync sat s
  | .npub gz ga gn sync => Sys2Proof.Machine.execNpub gz ga gn sync s
  | .bst bsz ga gs off sync => Sys2Proof.Machine.execBst bsz ga gs off sync s
  | .vadd o => Sys2Proof.Machine.execVadd o s
  | .vsub o => Sys2Proof.Machine.execVsub o s
  | .vmul o => Sys2Proof.Machine.execVmul o s
  | .vfma o => Sys2Proof.Machine.execVfma o s
  | .vfms o => Sys2Proof.Machine.execVfms o s
  | .vfnma o => Sys2Proof.Machine.execVfnma o s
  | .vmin o => Sys2Proof.Machine.execVmin o s
  | .vmax o => Sys2Proof.Machine.execVmax o s
  | .vabs o => Sys2Proof.Machine.execVabs o s
  | .vneg o => Sys2Proof.Machine.execVneg o s
  | .vrcp o => Sys2Proof.Machine.execVrcp o s
  | .vrsq o => Sys2Proof.Machine.execVrsq o s
  | .vexp2 o => Sys2Proof.Machine.execVexp2 o s
  | .vlog2 o => Sys2Proof.Machine.execVlog2 o s
  | .vcmp o => Sys2Proof.Machine.execVcmp o s
  | .vsel o => Sys2Proof.Machine.execVsel o s
  | .vcvt o => Sys2Proof.Machine.execVcvt o s
  | .vpack o => Sys2Proof.Machine.execVpack o s
  | .vunpk o => Sys2Proof.Machine.execVunpk o s
  | .vzp o => Sys2Proof.Machine.execVzp o s
  | .vscacc o => Sys2Proof.Machine.execVscacc o s
  | .vscalex o => Sys2Proof.Machine.execVscalex o s
  | .vredadd o => Sys2Proof.Machine.execVredadd o s
  | .vredmax o => Sys2Proof.Machine.execVredmax o s
  | .vredmin o => Sys2Proof.Machine.execVredmin o s
  | .vperm o => Sys2Proof.Machine.execVperm o s
  | .vslide o => Sys2Proof.Machine.execVslide o s
  | .vbcast o => Sys2Proof.Machine.execVbcast o s
  | .vmov o => Sys2Proof.Machine.execVmov o s
  | .vclr o => Sys2Proof.Machine.execVclr o s
  | .viadd o => Sys2Proof.Machine.execViadd o s
  | .visub o => Sys2Proof.Machine.execVisub o s
  | .vimul o => Sys2Proof.Machine.execVimul o s
  | .vimulh o => Sys2Proof.Machine.execVimulh o s
  | .vimin o => Sys2Proof.Machine.execVimin o s
  | .vimax o => Sys2Proof.Machine.execVimax o s
  | .viabs o => Sys2Proof.Machine.execViabs o s
  | .vand o => Sys2Proof.Machine.execVand o s
  | .vor o => Sys2Proof.Machine.execVor o s
  | .vxor o => Sys2Proof.Machine.execVxor o s
  | .vsll o => Sys2Proof.Machine.execVsll o s
  | .vsrl o => Sys2Proof.Machine.execVsrl o s
  | .vsra o => Sys2Proof.Machine.execVsra o s
  | .vmand o => Sys2Proof.Machine.execVmand o s
  | .vmor o => Sys2Proof.Machine.execVmor o s
  | .vmxor o => Sys2Proof.Machine.execVmxor o s
  | .vmnot o => Sys2Proof.Machine.execVmnot o s
  | .vmpop o => Sys2Proof.Machine.execVmpop o s
  | .vmfirst o => Sys2Proof.Machine.execVmfirst o s
  | .viota o => Sys2Proof.Machine.execViota o s
  | .vxtr o => Sys2Proof.Machine.execVxtr o s
  | .jcmd ra rb eng two => Sys2Proof.Machine.execJcmd ra rb eng two s
  | .jend rd tok => Sys2Proof.Machine.execJend rd tok s
  | .jwait rd ra stat => Sys2Proof.Machine.execJwait rd ra stat s
  | .jpoll rd ra => Sys2Proof.Machine.execJpoll rd ra s
  | .jpop rd eng stat => Sys2Proof.Machine.execJpop rd eng stat s
  | .ringdef n ra => Sys2Proof.Machine.execRingdef n ra s
  | .ringadv n cnt => Sys2Proof.Machine.execRingadv n cnt s
  | .ringst rd n sel => Sys2Proof.Machine.execRingst rd n sel s
  | .trap ra n => Sys2Proof.Machine.execTrap ra n s
  | .tret => Sys2Proof.Machine.execTret s
  | .syscReadContext rd ra => Sys2Proof.Machine.execSyscReadContext rd ra s
  | .syscPagerRequest rd => Sys2Proof.Machine.execSyscPagerRequest rd s
  | .syscPagerTake rd ra => Sys2Proof.Machine.execSyscPagerTake rd ra s
  | .syscPagerReply rd ra => Sys2Proof.Machine.execSyscPagerReply rd ra s
  | .mfs rd ra off => Sys2Proof.Machine.execMfs rd ra off s
  | .mts ra rb off => Sys2Proof.Machine.execMts ra rb off s
  | .yield => Sys2Proof.Machine.execYield s
  | .tend => Sys2Proof.Machine.execTend s
  | .lnch rd ra q => Sys2Proof.Machine.execLnch rd ra q s
  | .fcall rd ra => Sys2Proof.Machine.execFcall rd ra s
  | .fawait rd ra => Sys2Proof.Machine.execFawait rd ra s
  | .fpoll rd ra => Sys2Proof.Machine.execFpoll rd ra s
  | .fcancel rd ra => Sys2Proof.Machine.execFcancel rd ra s
  | .qtzr rd => Sys2Proof.Machine.execQtzr rd s
  | .qtzrUntil rd ra => Sys2Proof.Machine.execQtzrUntil rd ra s
  | .lttld rd ra rb => Sys2Proof.Machine.execLttld rd ra rb s
  | .dbg n => Sys2Proof.Machine.execDbg n s
  | .fget rs2 rs1 rd => Sys2Proof.Machine.execFget rs2 rs1 rd s
  | .fres rs2 rs1 rd => Sys2Proof.Machine.execFres rs2 rs1 rd s
  | .fext rs2 rs1 rd => Sys2Proof.Machine.execFext rs2 rs1 rd s
  | .bundleIssue wl wx ws wk => Sys2Proof.Machine.execBundleIssue wl wx ws wk s
  | .mma clu job => Sys2Proof.Machine.execMma clu job s
  | .mdist clu job => Sys2Proof.Machine.execMdist clu job s
  | .mtopk clu job => Sys2Proof.Machine.execMtopk clu job s
  | .mzero clu job => Sys2Proof.Machine.execMzero clu job s
  | .mload clu job => Sys2Proof.Machine.execMload clu job s
  | .mout clu job => Sys2Proof.Machine.execMout clu job s
  | .cpy clu job => Sys2Proof.Machine.execCpy clu job s
  | .cfill clu job => Sys2Proof.Machine.execCfill clu job s
  | .cgath clu job => Sys2Proof.Machine.execCgath clu job s
  | .cscat clu job => Sys2Proof.Machine.execCscat clu job s
  | .cring clu job => Sys2Proof.Machine.execCring clu job s
  | .commandRetire clu job => Sys2Proof.Machine.execCommandRetire clu job s
  | .stampMiss clu job => Sys2Proof.Machine.execStampMiss clu job s
  | .jobComplete clu job => Sys2Proof.Machine.execJobComplete clu job s
  | .jobTokenPush clu job => Sys2Proof.Machine.execJobTokenPush clu job s
  | .vectorBind clu free => Sys2Proof.Machine.execVectorBind clu free s
  | .xResultLand n => Sys2Proof.Machine.execXResultLand n s
  | .readResponse uid data => Sys2Proof.Machine.execReadResponse uid data s
  | .writeCompletion uid => Sys2Proof.Machine.execWriteCompletion uid s
  | .taskStart t => Sys2Proof.Machine.execTaskStart t s
  | .taskResume t => Sys2Proof.Machine.execTaskResume t s
  | .placementDecision k => Sys2Proof.Machine.execPlacementDecision k s
  | .preload k => Sys2Proof.Machine.execPreload k s
  | .vacate t => Sys2Proof.Machine.execVacate t s
  | .budgetOverrun k => Sys2Proof.Machine.execBudgetOverrun k s
  | .contextSave k why => Sys2Proof.Machine.execContextSave k why s
  | .saveComplete k => Sys2Proof.Machine.execSaveComplete k s
  | .deadlockDetect k => Sys2Proof.Machine.execDeadlockDetect k s
  | .ctxkillWrite c => Sys2Proof.Machine.execCtxkillWrite c s
  | .ctxReset c => Sys2Proof.Machine.execCtxReset c s
  | .ctxResetComplete c => Sys2Proof.Machine.execCtxResetComplete c s
  | .ctxEnable c => Sys2Proof.Machine.execCtxEnable c s
  | .ctxDisable c => Sys2Proof.Machine.execCtxDisable c s
  | .lqTailUpdate c q => Sys2Proof.Machine.execLqTailUpdate c q s
  | .launchTake c q => Sys2Proof.Machine.execLaunchTake c q s
  | .pagerTaskPlace k => Sys2Proof.Machine.execPagerTaskPlace k s
  | .pagerdescWrite v => Sys2Proof.Machine.execPagerdescWrite v s
  | .pagercfgWrite clu v => Sys2Proof.Machine.execPagercfgWrite clu v s
  | .pagerReplyArrival src v => Sys2Proof.Machine.execPagerReplyArrival src v s
  | .cssplitWrite clu v => Sys2Proof.Machine.execCssplitWrite clu v s
  | .cssplitChange clu => Sys2Proof.Machine.execCssplitChange clu s
  | .mscWindowEnable stack n v => Sys2Proof.Machine.execMscWindowEnable stack n v s
  | .mscWindowDisable stack n v => Sys2Proof.Machine.execMscWindowDisable stack n v s
  | .mscWindowFill stack n => Sys2Proof.Machine.execMscWindowFill stack n s
  | .mscFadeBoundary stack => Sys2Proof.Machine.execMscFadeBoundary stack s
  | .homeAgentRequest q => Sys2Proof.Machine.execHomeAgentRequest q s
  | .prbs p => Sys2Proof.Machine.execPrbs p s
  | .prbx p => Sys2Proof.Machine.execPrbx p s
  | .prbsys p => Sys2Proof.Machine.execPrbsys p s
  | .probeResponse p a => Sys2Proof.Machine.execProbeResponse p a s
  | .notheld p => Sys2Proof.Machine.execNotheld p s
  | .pinRetry p => Sys2Proof.Machine.execPinRetry p s
  | .hptEpochEnd => Sys2Proof.Machine.execHptEpochEnd s
  | .migSubmit v => Sys2Proof.Machine.execMigSubmit v s
  | .migLineCopy old line => Sys2Proof.Machine.execMigLineCopy old line s
  | .migComplete old => Sys2Proof.Machine.execMigComplete old s
  | .migCompletionRecord => Sys2Proof.Machine.execMigCompletionRecord s
  | .migRelease v => Sys2Proof.Machine.execMigRelease v s
  | .ringFirstFlit f room => Sys2Proof.Machine.execRingFirstFlit f room s
  | .ringFlitReturn f => Sys2Proof.Machine.execRingFlitReturn f s
  | .ringReinsert src tag => Sys2Proof.Machine.execRingReinsert src tag s
  | .rackForward f cw => Sys2Proof.Machine.execRackForward f cw s
  | .rackReinsert src tag => Sys2Proof.Machine.execRackReinsert src tag s
  | .peerAccess src p => Sys2Proof.Machine.execPeerAccess src p s
  | .e2eRequest src sq room p => Sys2Proof.Machine.execE2eRequest src sq room p s
  | .e2eAck dst sq ans => Sys2Proof.Machine.execE2eAck dst sq ans s
  | .e2eTimeout dst sq => Sys2Proof.Machine.execE2eTimeout dst sq s
  | .linkSend lg f => Sys2Proof.Machine.execLinkSend lg f s
  | .linkDataFlit lg body crc room => Sys2Proof.Machine.execLinkDataFlit lg body crc room s
  | .linkAck lg n => Sys2Proof.Machine.execLinkAck lg n s
  | .linkNak lg n => Sys2Proof.Machine.execLinkNak lg n s
  | .linkAckTimer lg => Sys2Proof.Machine.execLinkAckTimer lg s
  | .linkNakTimer lg => Sys2Proof.Machine.execLinkNakTimer lg s
  | .lossOfLight lg mask => Sys2Proof.Machine.execLossOfLight lg mask s
  | .elsuFault lg e => Sys2Proof.Machine.execElsuFault lg e s
  | .linkNotice lg n mask => Sys2Proof.Machine.execLinkNotice lg n mask s
  | .linkTrainingDone lg => Sys2Proof.Machine.execLinkTrainingDone lg s
  | .linkTrainingLocked lock => Sys2Proof.Machine.execLinkTrainingLocked lock s
  | .linkRetrainResult lg trained => Sys2Proof.Machine.execLinkRetrainResult lg trained s
  | .windowWriteArrival w => Sys2Proof.Machine.execWindowWriteArrival w s
  | .windowAck clu slot seq refused => Sys2Proof.Machine.execWindowAck clu slot seq refused s
  | .zgPassFrame f => Sys2Proof.Machine.execZgPassFrame f s
  | .zgRegenerateFrame f => Sys2Proof.Machine.execZgRegenerateFrame f s
  | .zgLossReport f => Sys2Proof.Machine.execZgLossReport f s
  | .zgSyncMessage f => Sys2Proof.Machine.execZgSyncMessage f s
  | .zgDataBurst b => Sys2Proof.Machine.execZgDataBurst b s
  | .qtzCorrection => Sys2Proof.Machine.execQtzCorrection s
  | .zgTokenLossTimeout plane => Sys2Proof.Machine.execZgTokenLossTimeout plane s
  | .zgLossReportSlot plane => Sys2Proof.Machine.execZgLossReportSlot plane s
  | .zgRegenerate plane => Sys2Proof.Machine.execZgRegenerate plane s
  | .agateInterest rt m down => Sys2Proof.Machine.execAgateInterest rt m down s
  | .agateTileSegment rt m => Sys2Proof.Machine.execAgateTileSegment rt m s
  | .agateAnnouncement rt m => Sys2Proof.Machine.execAgateAnnouncement rt m s
  | .agateCancel rt m down => Sys2Proof.Machine.execAgateCancel rt m down s
  | .agateRefresh rt m down => Sys2Proof.Machine.execAgateRefresh rt m down s
  | .agateRefusal rt m => Sys2Proof.Machine.execAgateRefusal rt m s
  | .agateEntryExpiry rt n => Sys2Proof.Machine.execAgateEntryExpiry rt n s
  | .agateRecordExpiry n => Sys2Proof.Machine.execAgateRecordExpiry n s
  | .routingEntryWrite rt n w0 w1 => Sys2Proof.Machine.execRoutingEntryWrite rt n w0 w1 s
  | .futureDeadline f => Sys2Proof.Machine.execFutureDeadline f s
  | .remoteSendComplete f => Sys2Proof.Machine.execRemoteSendComplete f s
  | .remoteReply gen f data => Sys2Proof.Machine.execRemoteReply gen f data s
  | .prefillRecordWrite f => Sys2Proof.Machine.execPrefillRecordWrite f s
  | .futureWake f => Sys2Proof.Machine.execFutureWake f s
  | .qtzrWake k => Sys2Proof.Machine.execQtzrWake k s
  | .debugHalt clu => Sys2Proof.Machine.execDebugHalt clu s
  | .debugResume clu => Sys2Proof.Machine.execDebugResume clu s
  | .crossTrigger clu ch => Sys2Proof.Machine.execCrossTrigger clu ch s
  | .debugSample clu => Sys2Proof.Machine.execDebugSample clu s
  | .berylReplayLimit p => Sys2Proof.Machine.execBerylReplayLimit p s
  | .berylModeOff p => Sys2Proof.Machine.execBerylModeOff p s
  | .berylModeRecord p => Sys2Proof.Machine.execBerylModeRecord p s
  | .berylModeReplay p => Sys2Proof.Machine.execBerylModeReplay p s
  | .moduleReset => Sys2Proof.Machine.execModuleReset s
  | .bootGo => Sys2Proof.Machine.execBootGo s
  | .bootVerify => Sys2Proof.Machine.execBootVerify s
  | .attestRequest v => Sys2Proof.Machine.execAttestRequest v s
  | .attestReport => Sys2Proof.Machine.execAttestReport s
  | .clusterSleep clu => Sys2Proof.Machine.execClusterSleep clu s
  | .clusterWake clu => Sys2Proof.Machine.execClusterWake clu s
  | .coreSleep k => Sys2Proof.Machine.execCoreSleep k s
  | .coreWake k => Sys2Proof.Machine.execCoreWake k s
  | .correctedError unit pa => Sys2Proof.Machine.execCorrectedError unit pa s
  | .uncorrectableError kind id pa => Sys2Proof.Machine.execUncorrectableError kind id pa s
  | .eyeMarginLow mon mv mt => Sys2Proof.Machine.execEyeMarginLow mon mv mt s
  | .checkpointSave v => Sys2Proof.Machine.execCheckpointSave v s
  | .checkpointRestore v => Sys2Proof.Machine.execCheckpointRestore v s
  | .checkpointEnd => Sys2Proof.Machine.execCheckpointEnd s
  | .registerWrite pa v => Sys2Proof.Machine.execRegisterWrite pa v s
  | .ferleHartInstruction h w => Sys2Proof.Machine.execFerleHartInstruction h w s
  | .cranyLinkLaneLost lane => Sys2Proof.Machine.execCranyLinkLaneLost lane s
  | .memoryChannelRetrainDone ch => Sys2Proof.Machine.execMemoryChannelRetrainDone ch s

end Sys2Proof.Machine
end

