-- ==== Sys2Proof/Machine/Schedule.lean ====
section
/-! DEFINITION. Which part of the module acts in a step (log 3): the agenda first; else, between two cycles, whatever step of the module is due;
else the next strand or hart that may issue; else a cycle passes. -/

namespace Sys2Proof.Machine

/-! ### A strand's turn -/

/-- The executing strand may issue: its core runs a task and is neither halted nor being saved, no pre-emption stands at its boundary, the
strand is not parked, a handler runs in K alone, and no other strand is landing for a trap (R191-R194, R218, R416-R418, R443). -/
def State.canIssue (s : State) : Bool :=
  s.core.task.isSome && !s.core.halted && s.core.saving == 0 && !s.core.mayStop &&
    (s.core.tl == 0 || s.cur == .k) && (!s.wordMode || !s.me.parked) && !s.otherLanding

/-- Fetches the word or the bundle of the executing strand and issues it. A word that is no instruction raises `ILLEGAL` (R271). -/
def State.fetchIssue (s : State) : Host.Outcome State Fault Refusal :=
  if s.wordMode then
    match s.fetchCode s.here with
    | .error e => s.fetchStop e
    | .ok w => match decodeWord s.cur w with
      | .error _ => .next (s.trapStop s.cur 1 0 (BitVec.ofNat 64 w.toNat))
      | .ok i => exec i s
  else
    match s.fetchCode s.here, s.fetchCode (s.here + 4), s.fetchCode (s.here + 8), s.fetchCode (s.here + 12) with
    | .ok wl, .ok wx, .ok ws, .ok wk => execBundleIssue wl wx ws wk s
    | .error e, _, _, _ => s.fetchStop e
    | _, .error e, _, _ => s.fetchStop e
    | _, _, .error e, _ => s.fetchStop e
    | _, _, _, .error e => s.fetchStop e

/-- A strand's turn: it passes over a word that does not issue in this iteration, or issues. In bundle mode the bundle is K's turn. -/
def State.issueTurn (s : State) (σ : StrandId) : Host.Outcome State Fault Refusal :=
  let s := { s with cur := if s.wordMode then σ else .k }
  if !s.canIssue then .next s
  else if s.skips then .next s.skip
  else s.fetchIssue

/-! ### A hart's turn (R429) -/

def State.hartTurn (s : State) (h : Nat) : Host.Outcome State Fault Refusal :=
  if 64 ≤ h then .next s
  else
    let s := { s with hart := h }
    let x := s.hartAt h
    let awake : Hart := { x with wfi := false }
    match s.hartNext h with
    | .intr c => .next ((s.putHart h awake).hartTakes h true c 0)
    | .idle => .next s
    | .stop e => hartOutcome (s.putHart h awake) h (.error e)
    | .word w =>
      let s := s.putHart h awake
      match decodeFerle w with
      | some (.fget a b c) => execFget a b c s
      | some (.fres a b c) => execFres a b c s
      | some (.fext a b c) => execFext a b c s
      | _ => execFerleHartInstruction h (BitVec.ofNat 32 w) s

/-! ### Steps of the module that are due -/

/-- A step of the module; it leaves the state as it is where its condition does not hold. -/
abbrev Due := State → Host.Outcome State Fault Refusal

/-- Takes a step unless it changes nothing. -/
def tryStep (s : State) (f : Due) : Option (Host.Outcome State Fault Refusal) :=
  match f s with
  | .next s' => if s' = s then none else some (.next s')
  | r => some r

/-- The first of some steps that changes something. -/
def firstDue (s : State) : List Due → Option (Host.Outcome State Fault Refusal)
  | [] => none
  | f :: fs => match tryStep s f with
    | some r => some r
    | none => firstDue s fs

/-- A step of core `k`, which becomes the current one if it changes anything. -/
def onCore (k : Nat) (f : Due) : Due := fun s =>
  match tryStep (s.focus k) f with
  | some r => r
  | none => .next s

/-- Outstanding memory operations (R263). -/
def opDues (s : State) : List Due :=
  s.allCores.flatMap fun c => c.ops.map fun o => onCore c.idx fun t =>
    match o.act with
    | .load _ => execReadResponse o.uid [] t
    | .amo _ _ _ _ _ => execReadResponse o.uid [] t
    | _ => execWriteCompletion o.uid t

/-- The command of a job (R380-R391). -/
def commandDue (j : Job) : Due := fun s =>
  match j.cmd.map recOp with
  | some 0x01 => execMma j.clu j.handle s
  | some 0x02 => execMdist j.clu j.handle s
  | some 0x03 => execMtopk j.clu j.handle s
  | some 0x04 => execMzero j.clu j.handle s
  | some 0x05 => execMload j.clu j.handle s
  | some 0x06 => execMout j.clu j.handle s
  | some 0x10 => execCpy j.clu j.handle s
  | some 0x11 => execCfill j.clu j.handle s
  | some 0x12 => execCgath j.clu j.handle s
  | some 0x13 => execCscat j.clu j.handle s
  | some 0x14 => execCring j.clu j.handle s
  | _ => .next s

/-- Engine jobs (R224, R225, R370-R376). Commands that end free their engines before a stamp is judged. -/
def jobDues (s : State) : List Due :=
  s.jobs.map (fun j => execCommandRetire j.clu j.handle) ++
  s.jobs.flatMap fun j => [execStampMiss j.clu j.handle, commandDue j, execJobComplete j.clu j.handle, execJobTokenPush j.clu j.handle]

/-- Launch queues that are enabled, as (context, queue) (R210). -/
def State.openQueues (s : State) : List (Nat × Nat) :=
  (s.dev.filter fun p => bitAt p.2 63 && decide (ctxBase 0 ≤ p.1 ∧ p.1 < ctxBase 64 ∧ 0x100 ≤ p.1 % 0x1000 ∧ p.1 % 0x1000 < 0x200)).map
    fun p => ((p.1 - ctxBase 0) / 0x1000, (p.1 % 0x1000 - 0x100) / 8)

/-- Launch queues and resets of contexts (R205, R211, R212). -/
def queueDues (s : State) : List Due :=
  ((List.range 64).filter fun c => s.ctxState c == 3).map execCtxResetComplete ++
  s.openQueues.flatMap fun p => [execLqTailUpdate p.1 p.2, execLaunchTake p.1 p.2]

/-- Tasks that wait on futures wake in ascending future id (R215). -/
def wakeDues (s : State) : List Due :=
  (sortNat (s.lm.tasks.filterMap fun t => if t.st = .futwait then t.future else none)).map execFutureWake

/-- A task of the launch manager's table: its core wakes, it starts or resumes, it takes a borrowed core. -/
def taskDues (s : State) : List Due :=
  wakeDues s ++ s.lm.tasks.flatMap fun t =>
    let wake : Due := fun u => match t.core with
      | some k => if u.awake (k / 8) then .next u else execClusterWake (k / 8) u
      | none => .next u
    [wake, execTaskStart t.id, execTaskResume t.id] ++ if t.cls = 0 ∧ t.st = .queued then [execVacate t.id] else []

/-- A placement decision for the core would place a task, or count that its preloaded task lacks a number (R213, R216, R221). -/
def State.placeable (s : State) (k : Nat) : Bool :=
  s.coreIdle k && match s.preloadOf k with
    | some t => s.numbered t || !s.lm.offered.contains k
    | none => (s.choose s.coreFree k).isSome

/-- The placement decisions: the lowest free core that takes a task; where none does, every free core is offered in vain once (R213, R216). -/
def placeDue : Due := fun s =>
  let s := s.recheckPreloads
  if s.lm.preload.isEmpty && s.lm.ready.all (fun r => r.2.isEmpty) then .next s
  else match (List.range 2048).find? s.placeable with
    | some k => execPlacementDecision k s
    | none => .next (((List.range 2048).filter fun k => s.coreFree k && !s.lm.offered.contains k).foldl State.offerVain s)

/-- Pre-emption, saves, deadlock and sleep of cores that run tasks (R209, R219, R426, R464). -/
def coreDues (s : State) : List Due :=
  s.allCores.flatMap fun c =>
    if c.task.isNone then []
    else [execBudgetOverrun c.idx, execContextSave c.idx c.preempt, execSaveComplete c.idx, execCoreSleep c.idx,
      fun t => if 8 ≤ c.waited then execDeadlockDetect c.idx t else .next t]

/-- Preloads, pager cores and slices (R37, R48, R221, R487). -/
def clusterDues (s : State) : List Due :=
  (s.allCores.filter fun c => c.task.isSome).map (fun c => execPreload c.idx) ++
  s.pagerCores.map execPagerTaskPlace ++
  s.pagerHolders.map (fun c => fun t => .next (t.endPager c.idx)) ++
  (List.range 256).filterMap fun g => if bitAt (s.reg (splitReg g)) 9 then some (execCssplitChange g) else none

/-- Answers, retries, waiting requests and migrations of the coherent memory system (R65, R70-R84). -/
def cohDues (s : State) : List Due :=
  (s.coh.answers.flatMap fun x => [execNotheld x.1, execProbeResponse x.1 x.2.1]) ++
  s.coh.refused.map (fun x => execPinRetry x.1) ++
  s.waitingReqs.map execHomeAgentRequest ++
  (s.coh.migs.flatMap fun m =>
    ((fun t => .next (t.recallNew m) : Due)) :: (match s.migNext m with
      | some line => [execMigLineCopy m.old line]
      | none => []) ++ [execMigComplete m.old]) ++
  [execMigCompletionRecord]

/-- What the links do by themselves: timers, training, replays, and flits that wait for a lane group (R125, R133-R135). -/
def linkDues (s : State) : List Due :=
  (s.fab.lanes.flatMap fun l => [execLinkAckTimer l.lg, execLinkNakTimer l.lg, execLinkTrainingDone l.lg] ++
    match l.copies with
    | c :: _ => if l.tx = .replay then [execLinkSend l.lg c.2] else []
    | [] => []) ++
  (s.fab.waiting.filter fun w => decide (w.2.1 ≤ s.now)).filterMap fun w => (s.laneFor w.1).map fun g => execLinkSend g w.2.2

/-- Rings, protected requests and windows (R122-R141). -/
def fabDues (s : State) : List Due :=
  s.fab.ring.filterMap (RingSlot.due s) ++
  s.fab.returned.map (fun r => if r.flit.rack then execRackReinsert r.flit.smod r.flit.tag else execRingReinsert r.flit.src r.flit.tag) ++
  (fun t => .next t.enterWaiting) :: linkDues s ++
  s.fab.e2e.map (fun e => execE2eTimeout e.dst e.sq) ++
  s.fab.peers.map (fun p => execPeerAccess p.1 p.2.2) ++
  s.fab.winFly.map execWindowWriteArrival ++
  s.fab.winAcks.map (fun a => execWindowAck a.1 a.2.1 a.2.2.1 a.2.2.2)

/-- Own frames come back through the star; lost tokens are restored; committed messages are performed (R143-R150). -/
def zgDues (s : State) : List Due :=
  (s.zg.echo.flatMap fun f => [execZgPassFrame f, execZgRegenerateFrame f, execZgLossReport f]) ++
  (fun t => .next t.zgWork) ::
  (if s.zgOn then (List.range 16).map execZgTokenLossTimeout else []) ++
  s.zg.loss.flatMap fun l => [execZgLossReportSlot l.plane, execZgRegenerate l.plane]

/-- A message reaches its router. -/
def agateDue (rt kind : Nat) (m : AgMsg) (down : Nat) : Due := fun s =>
  match kind with
  | 0 => execAgateInterest rt m down s
  | 1 => execAgateTileSegment rt m s
  | 2 => execAgateAnnouncement rt m s
  | 3 => execAgateCancel rt m down s
  | 4 => execAgateRefresh rt m down s
  | _ => execAgateRefusal rt m s

/-- Messages of the named-tile fabric but for refused ones that have not come round again, and expiries (R158, R172). -/
def agateDues (s : State) : List Due :=
  (s.agate.msgs.filter fun x => !s.agate.held.any fun h => h.1 == x && decide (s.now < h.2)).map (fun x => agateDue x.1 x.2.1 x.2.2.1 x.2.2.2) ++
  s.agate.pends.map (fun p => execAgateEntryExpiry p.rt p.idx) ++
  s.agate.cons.map (fun c => execAgateRecordExpiry (8192 * c.stn + c.idx))

/-- Futures, boot, attestation, checkpoints and replay (R437-R439, R455, R461-R469). -/
def unitDues (s : State) : List Due :=
  (s.futures.flatMap fun f => [execFutureDeadline f.id, execPrefillRecordWrite f.id]) ++
  (if s.bootState = 1 then [execBootVerify] else []) ++
  (if s.ras.attest.isSome then [execAttestReport] else []) ++
  (if s.ras.check.isSome then [execCheckpointEnd] else []) ++
  s.beryl.map (fun b => execBerylReplayLimit b.point)

/-- The next step of the module that is due. -/
def State.dueStep (s : State) : Option (Host.Outcome State Fault Refusal) :=
  firstDue s (opDues s ++ jobDues s ++ queueDues s ++ taskDues s ++ placeDue :: coreDues s ++ clusterDues s ++ cohDues s ++ fabDues s ++
    zgDues s ++ agateDues s ++ unitDues s)

/-! ### The turn of strands and harts -/

/-- The strand gets a turn in the rotation. -/
def Core.takesTurn (c : Core) (σ : StrandId) : Bool :=
  c.task.isSome && !c.halted && c.saving == 0 && !c.mayStop && (if c.wordMode then (c.tl == 0 || σ == .k) && !(c.strand σ).parked else σ == .k)

/-- Strands that take turns, by 4 × core + strand, and after the cores the harts once the firmware runs (R461). -/
def State.turns (s : State) : List Nat :=
  (s.allCores.flatMap fun c => (allStrands.filter fun σ => c.takesTurn σ).map fun σ => 4 * c.idx + σ.num) ++
  if s.bootState = 2 then (List.range 64).map (8192 + ·) else []

/-- The lowest turn not before `n`. -/
def nextTurn (n : Nat) (ts : List Nat) : Option Nat :=
  (ts.filter fun t => decide (n ≤ t)).foldl (fun m t => some (match m with | none => t | some u => min t u)) none

/-! ### A cycle -/

/-- Counters of a core over a cycle: its budget, and how long all its strands have waited (R219, R464). -/
def Core.tick (c : Core) : Core :=
  { c with
    budget := if c.task.isSome && !c.halted && c.saving == 0 then c.budget + 1 else c.budget
    waited := if c.allWait then c.waited + 1 else 0
    asleep := if c.allWait then c.asleep else 0 }

/-- X issues nothing in this cycle, so the results it has issued land (R258). -/
def Core.xIdle (c : Core) : Bool := !c.flight.isEmpty && (c.x.parked || c.x.wait != 0 || c.tl != 0)

/-- Runs steps one after the other. -/
def State.runAll (s : State) (fs : List Due) : State := fs.foldl (fun s f => after s (f s)) s

/-- Steps tied to values of Quartz: fade and tracker periods, samples, corrections (R62, R77, R152, R450). -/
def clockDues (s : State) : List Due :=
  (if s.now % 2 ^ 16 = 0 then execHptEpochEnd :: (List.range 8).map execMscFadeBoundary else []) ++
  (if s.now % 2 ^ 10 = 0 then (List.range 256).map execDebugSample else []) ++
  [execQtzCorrection]

/-- The vector arbiters that have a head to bind or a credit to clear (R223). -/
def arbDues (s : State) : List Due :=
  (s.clusters.filter fun p => p.2.vq.any (fun q => !q.isEmpty) || p.2.d.any (· != 0)).map fun p => execVectorBind p.1 16

/-- A cycle passes: Quartz advances (R3). -/
def State.passCycle (s : State) : State :=
  let s := (s.allCores.filter Core.xIdle).foldl (fun s c => s.landCore c.idx Core.landAll) s
  let s := s.allCores.foldl (fun s c => s.modCore c.idx Core.tick) s
  let s := { s with quartz := s.quartz + 1, turn := 0 }
  (s.runAll (arbDues s)).runAll (clockDues s)

/-! ### The next step -/

/-- What a turn of the agenda does. -/
def State.runTurn (s : State) : Turn → Host.Outcome State Fault Refusal
  | .issue σ => s.issueTurn σ
  | .event i => exec i s
  | .cycle => .next s.passCycle
  | .hart h => s.hartTurn h
  | .core k => .next (if k < 2048 then s.focus k else s)
  | .trigger clu ch => execCrossTrigger clu ch s

/-- The rotation: the next strand or hart in order, or a cycle once each has had its turn. -/
def State.rotate (s : State) : Host.Outcome State Fault Refusal :=
  match nextTurn (s.turn - 1) s.turns with
  | none => .next s.passCycle
  | some n =>
    if 8192 ≤ n then ({ s with turn := n + 2 } : State).hartTurn (n - 8192)
    else (({ s with turn := n + 2 } : State).focus (n / 4)).issueTurn (strandOf (n % 4))

/-- With no agenda: what is due between cycles, then the rotation. -/
def State.freeStep (s : State) : Host.Outcome State Fault Refusal :=
  if s.turn = 0 then
    match s.dueStep with
    | some r => r
    | none => .next { s with turn := 1 }
  else s.rotate

/-! ### Placing one word for the next step (log 34) -/

/-- The handle table, with one entry over 64 KiB of memory read and fetched, and a code word at 0x100. -/
def wordImage (w : IWord) : List Host.Cell :=
  cellWrite (cellWrite [] 32 (wordsBytes [0, 0x8000000000010000, 0x500000000, 0])) 0x100 (bytesOfWord w)

/-- The translation array that maps the image. -/
def wordArray : List (Word × Word) := [(0x1000000000000001, 0x0500000000000000)]

/-- A task in split mode whose code is the word. -/
def Core.withWord (c : Core) (σ : StrandId) (w : IWord) : Core :=
  let v : View := { ctx := 0, sup := false, htb := 0, htn := 2, snap := wordImage w, ltt := wordArray, draw := 0 }
  let d : Core := { c with task := some { id := 0, rtn := some 0, pager := false, lid := 0 }, split := true, view := v }
  let t : Strand := d.strand σ
  d.setStrand σ { t with pc := 0x0010000000000100, parked := false }

/-- The next step fetches and runs the word: in its strand's stream, or in hart 0. -/
def State.placeWord (s : State) (w : IWord) : State :=
  match streamOf w with
  | some (.strand σ) => { s with core := s.core.withWord σ w, agenda := [.issue σ] }
  | _ =>
    let x : Hart := { s.hartAt 0 with priv := .m }
    { (s.writeMem x.pc.toNat (bytesOfWord w)).putHart 0 x with agenda := [.hart 0] }

end Sys2Proof.Machine
end

