-- ==== Sys2Proof/Machine/Step.lean ====
section
/-! DEFINITION. One step of the module, and the placing of a word for the next step. -/

namespace Sys2Proof.Machine

/-- The agenda's next turn, or what the model's own order gives (log 3). -/
def step (s : State) : Host.Outcome State Fault Refusal :=
  match s.agenda with
  | t :: ts => ({ s with agenda := ts } : State).runTurn t
  | [] => s.freeStep

/-- The state whose next step fetches and runs the instruction of a table word (log 34). -/
def State.withFetchWord (s : State) (nbits w : Nat) : State := s.placeWord (BitVec.ofNat 32 (w % 2 ^ nbits))

end Sys2Proof.Machine
end

