-- ==== Sys2Proof/Safety.lean ====
section
/-! DEFINITION. The states that statements speak of: a strand about to issue a word, registers a word may read, a retired word, and what a word may
leave unchanged. -/

namespace Sys2Proof.Machine

/-- No vector result of the core is due before the word: none of X's own, or of a bundle's (R258). -/
abbrev Landed (s : State) : Prop := (s.cur ≠ .x ∧ s.wordMode = true) ∨ ∀ f ∈ s.core.flight, s.core.xIssue < f.due

/-- The executing strand stands at the start of a word, with no vector result due before it (R258), and no open job counts the word (R368). -/
abbrev Fresh (s : State) : Prop :=
  s.me.stage = 0 ∧ Landed s ∧ (s.cur = .k → ∀ j, s.core.openJob = some j → j.level ≠ s.core.tl)

/-- No result of an earlier word is still to be written to any of the registers (R277). -/
abbrev Written (s : State) (rs : List (BitVec 5)) : Prop := rs.any s.busy = false

/-- Every operation of the executing strand is performed, its broadcast stores among them; posted window writes may be on their way (R94, R111). -/
abbrev Quiet (s : State) : Prop := s.unperformed = false

/-- What a word that completes leaves: its own effects, the loop end tests, and the next word's address (R187, R291). -/
def State.retired (s : State) : State := s.complete s.pcNext

/-- The current core agrees but for the four strands. -/
def Core.sameBut (c d : Core) : Prop := { d with l := c.l, x := c.x, s := c.s, k := c.k, xIssue := c.xIssue, watchSkip := c.watchSkip } = c

/-- Everything outside the current core is the same: memory, cluster stores, device registers, the other cores and every unit. -/
def State.sameOutside (s t : State) : Prop := { t with core := s.core } = s

/-- The low 32 bits of a register as a signed number. -/
def low32 (w : Word) : Int := (w.setWidth 32).toInt

/-- A transfer the strand may make to `t`: bundle mode admits aligned targets only (R188). -/
abbrev Admits (s : State) (t : Word) : Prop := s.wordMode = true ∨ t.toNat % 16 = 0

/-- Where a taken branch or `J` may go: within the innermost active body (R295). -/
def InBody (s : State) (t : Word) : Prop := ∀ l, s.innermost = some l → l.beg.toNat ≤ t.toNat ∧ t.toNat ≤ l.fin.toNat

/-- A word that transfers control stands on a stream of words or in the K slot of a bundle (R188). -/
abbrev MayTransfer (s : State) : Prop := s.wordMode = true ∨ s.cur = .k

/-- `ILLEGAL` at the word. -/
def State.raisesIllegal (s : State) (i : Instr) : Host.Outcome State Fault Refusal := .next (s.trapStop s.cur 1 0 (s.wordVal i))

/-- What a conditional branch with condition `c` to `t` does. -/
def BranchRule (s : State) (i : Instr) (c : Prop) (t : Word) : Prop :=
  (¬c → exec i s = .next s.retired) ∧
  (c → InBody s t → Admits s t → exec i s = .next (s.complete t)) ∧
  (c → ¬(InBody s t ∧ Admits s t) → exec i s = State.raisesIllegal s i)

/-- The link of a windowed call: the next address with the frame code in bits 49:48 (R286). -/
def callLink (s : State) (fc : BitVec 2) : Word := setBits s.pcNext 48 4 fc.toNat

/-- The state in which a windowed call enters: window moved, link in the callee's g31, depth risen (R286). -/
def callEnters (v : State) (link : Word) : State := (v.setG 31 link).modMe fun t => { t with depth := t.depth + 1 }

/-- Granules a call with frame code `fc` must spill: 24 registers above the new base, of 96, stay resident (R288). -/
def spillsDue (s : State) (fc : BitVec 2) : Nat := ((s.me.wb + 8 * (fc.toNat + 1) - s.me.sb - 65) / 8).toNat

/-- Granules a return must fill: the registers from the new base up to the spilled base (R288). -/
def fillsDue (s : State) : Nat := ((s.me.sb - (s.me.wb - 8 * (bitsAt (s.g 31) 48 2 + 1)) + 7) / 8).toNat

/-- The body of `len` words or bundles after the loop word (R290). -/
def bodyEnd (s : State) (len : Nat) : Word := s.pcNext + BitVec.ofNat 64 s.unit * BitVec.ofNat 64 (len - 1)

/-- The conditions of a loop start (R290). -/
abbrev LoopMay (s : State) (k len : Nat) : Prop :=
  k < 6 ∧ s.core.tl = 0 ∧ (s.level k).active = false ∧ (s.wordMode = true ∨ len ≤ 64) ∧
    ∀ j ∈ (s.strand s.seqStrand).activeLevels, (bodyEnd s len).toNat ≤ (s.level j).fin.toNat

/-- The state after a loop with a count of at least one starts. -/
def loopStarts (s : State) (k len : Nat) (count : Word) : State :=
  (s.modLevel s.seqStrand k fun l => { l with beg := s.pcNext, fin := bodyEnd s len, cnt := count }).modLevel s.seqStrand k
    fun l => { l with done := 0, active := true }

/-- What a loop word of level `k`, count and length does (R290). -/
def LoopRule (s : State) (i : Instr) (k len : Nat) (count : Word) : Prop :=
  (LoopMay s k len → count ≠ 0 → exec i s = .next (loopStarts s k len count).retired) ∧
  (LoopMay s k len → count = 0 → Admits s (bodyEnd s len + BitVec.ofNat 64 s.unit) →
    exec i s = .next ((s.modLevel s.seqStrand k fun l => { l with beg := s.pcNext, fin := bodyEnd s len, cnt := 0 }).complete
      (bodyEnd s len + BitVec.ofNat 64 s.unit))) ∧
  (¬LoopMay s k len → exec i s = State.raisesIllegal s i)

/-- What a fence with a release side leaves: the core's pins are widened, and the strand's later writes are releases at its scope or a wider one
(R95, R102). -/
def fenceReleases (s : State) (scope : Nat) : State :=
  (s.widenPins s.core.idx (s.effScope scope)).modMe fun t => { t with rel := max t.rel (scope + 1) }

/-- A token pair whose receiver, or whose sender, is the strand (R303). -/
abbrev TakesFrom (s : State) (p : BitVec 4) : Prop := p.toNat % 4 = s.cur.num ∧ p.toNat / 4 ≠ s.cur.num
abbrev GivesTo (s : State) (p : BitVec 4) : Prop := p.toNat / 4 = s.cur.num ∧ p.toNat % 4 ≠ s.cur.num

/-- The core with the count of pair `p` changed. -/
def State.withToken (s : State) (p : BitVec 4) (n : Nat) : State := { s with core := s.core.setToken p.toNat n }

/-- The core with a sync bit set or cleared (R193). -/
def State.withCc (s : State) (i : BitVec 4) (b : Bool) : State :=
  { s with core := { s.core with cc := if b then s.core.cc ||| ((1 : BitVec 16) <<< i.toNat) else s.core.cc &&& ~~~((1 : BitVec 16) <<< i.toNat) } }

/-- A strand ready at an address. -/
def started (t : Strand) (a : Word) (parked : Bool) : Strand := { t with pc := a, parked := parked, stage := 0, wait := 0 }

/-- The core in bundle mode at bundle address `b`. -/
def Core.inBundles (c : Core) (b : Word) : Core :=
  { c with split := false, bdone := 0, l := started c.l b false, x := started c.x (b + 4) false, s := started c.s (b + 8) false
           k := started c.k (b + 12) false }

/-- The barrier after strand `i` arrives with mask `m` (R305). -/
def barArrives (v : Barrier) (m : BitVec 4) (i : Nat) : Barrier :=
  if v.a ||| ((1 : BitVec 4) <<< i) = m then { p := 0, a := 0, phase := !v.phase } else { p := m, a := v.a ||| ((1 : BitVec 4) <<< i), phase := v.phase }

/-- The machine with one barrier changed. -/
def State.withBar (s : State) (b : BitVec 8) (v : Barrier) : State := { s with core := { s.core with bars := s.core.bars.set b.toNat v } }

/-- The core after it departs from a phase of the core level: the phase flips, and the superstep number rises as the phase returns to compute. -/
def Core.stepsOn (c : Core) : Core :=
  { c with dphase := if c.dphase.getLsbD 59 then setBits (setBits c.dphase 59 1 0) 48 8 (bitsAt c.dphase 48 8 + 1) else setBits c.dphase 59 1 1 }

/-- A word that reads or sets nothing but registers of its own core is turned away with `PRIV` (R270). -/
def State.raisesPriv (s : State) (i : Instr) : Host.Outcome State Fault Refusal := .next (s.trapStop s.cur 2 0 (s.wordVal i))

/-- The executing strand's own loop level. -/
def State.ownLevel (s : State) (k : Nat) : Loop := s.me.loops.getD k Loop.reset

/-- The base register plus a signed offset in units of `u` bytes (R251, R311). -/
def baseOff {n : Nat} (s : State) (ra : BitVec 5) (off : BitVec n) (u : Nat) : Word := s.g ra + off.signExtend 64 * BitVec.ofNat 64 u

/-- The operation that a word of the executing strand adds to its core's list: an access at a handle address, with its destination, token, order
and scope (R94, R263). -/
def State.newOp (s : State) (ha : Word) (act : MemAct) (dest : Dest) (sig : Option Nat) (ord scope : Nat) (stamp : Option (Nat × Nat)) (grp : Bool) :
    MemOp :=
  { uid := s.core.nextUid, strand := s.cur, ha := ha, act := act, dest := dest, sig := sig, ord := ord, scope := scope, rel := s.me.rel
    bundle := !s.wordMode, stamp := stamp, grp := grp, slot := none, units := 0, sent := false, got := [], job := none, wseq := 0 }

/-- The core with one more operation to be performed. -/
def State.withOp (s : State) (o : MemOp) : State :=
  { s with core := { s.core with ops := s.core.ops ++ [o], nextUid := s.core.nextUid + 1 } }

/-- A load counts in `DISCRD` where it reads a D page (R33). -/
def State.counted (s : State) (ss : List Span) : State := s.countZeros ss

/-- A request that names other modules is sent as soon as its order lets it be performed (R127, R128). -/
def State.asking (s : State) (uid : Nat) (ss : List Span) : State :=
  if ss.any fun p => p.place == .peer then s.peerTry s.core.idx uid else s

/-- The sequentially consistent stamp an operation takes at issue, its time and its issuer (R99): none at group scope, where a sync message orders
it (R100). -/
def scStamp (s : State) (ord scope : Nat) : Option (Nat × Nat) :=
  if ord = 4 ∧ s.effScope scope ≠ 4 then some (s.scStampNow, s.core.idx) else none

/-- An operation of an order and scope, as it is issued. -/
def newOrdered (s : State) (ha : Word) (act : MemAct) (dest : Dest) (sig : Option Nat) (ord scope : Nat) : MemOp :=
  s.newOp ha act dest sig ord scope (scStamp s ord scope) (ord == 4 && s.effScope scope == 4)

/-- The state after an operation of an order and scope is added: `sc_last` takes its stamp; at group scope its sync message is queued; what it
asks of other modules is sent. -/
def orderedOp (s : State) (ha : Word) (act : MemAct) (dest : Dest) (sig : Option Nat) (ord scope : Nat) : State :=
  let t := s.withOp (newOrdered s ha act dest sig ord scope)
  let t : State := { t with core := { t.core with scLast := match scStamp s ord scope with | some p => p.1 | none => s.core.scLast } }
  (if ord == 4 && s.effScope scope == 4 then t.syncSc act.syncOp s.core.nextUid else t).asking s.core.nextUid act.spans

/-- The word does not issue in this turn, and its strand waits (R271). -/
def State.waits (s : State) (code : Nat) : Host.Outcome State Fault Refusal := .next (s.modMe fun t => { t with wait := code })

/-- What a word does that loads: `t` is the state once its operands are read and its queue places taken. -/
def LoadRule (s t : State) (i : Instr) (a : Word) (ss : List Span) (dest : Dest) (sig : Option Nat) (ord scope : Nat) : Prop :=
  exec i s = .next (orderedOp t a (.load ss) dest sig ord scope).retired

/-- What a word does that stores (R111, R139, R297): bytes of this module and of others are stored by an operation; one through a window is
posted, and waits while its slot's allowance is used up. -/
def StoreRule (s t : State) (i : Instr) (a : Word) (ss : List Span) (data : List Byte) (sig : Option Nat) (ord scope : Nat) : Prop :=
  ((∀ p ∈ ss, p.place ≠ .window) → exec i s = .next (orderedOp t a (.store ss data) .none sig ord scope).retired) ∧
  (∀ p, ss.find? (fun p => p.place == .window) = some p →
    (t.windowFull t.core.cluster p.pol ((ss.map windowUnits).sum) = true → exec i s = s.waits outside) ∧
    (t.windowFull t.core.cluster p.pol ((ss.map windowUnits).sum) = false →
      ∀ u, u = t.windowPost t.core.idx (newOrdered t a (.store ss data) .none none ord scope) p.pol →
      exec i s = .next ((if ord == 4 && t.effScope scope == 4 then u.syncSc 0x11 t.core.nextUid else u).signalAfter sig).retired))

/-- A word stops as its sync field or its access does: it waits, meets a watchpoint, or ends the context (R22, R263, R446). -/
def StopRule {α : Type} (s : State) (i : Instr) (r : Except Stop α) : Prop :=
  ∀ e, r = .error e → exec i s = s.stop i e

/-- What a scalar load of `size` bytes does (R297): the register is written once the load is performed, and reads of it wait until then. -/
def ScalarLoad (s v : State) (i : Instr) (rd ra : BitVec 5) (off : BitVec 13) (size : Nat) (signed : Bool) (sig : Option Nat) : Prop :=
  ∀ r, r = v.access (if size = 8 then .loadD else .load) (baseOff s ra off size) size →
    StopRule s i r ∧
    ∀ ss, r = .ok ss → devSpan ss = none →
      LoadRule s (v.counted ss) i (baseOff s ra off size) ss (if rd = 0 then .none else .reg (s.me.key rd.toNat) size signed) sig 0 0

/-- What a scalar store of `size` bytes does (R297): the low bytes of rd are to be written. -/
def ScalarStore (s v : State) (i : Instr) (rd ra : BitVec 5) (off : BitVec 13) (size : Nat) (sig : Option Nat) : Prop :=
  ∀ r, r = v.access (if size = 8 then .storeD else .store) (baseOff s ra off size) size →
    StopRule s i r ∧
    ∀ ss, r = .ok ss → devSpan ss = none → StoreRule s v i (baseOff s ra off size) ss (natBytes size (s.g rd).toNat) sig 0 0

/-- Room for `n` entries in a queue (R256). -/
abbrev QueueRoom (s : State) (code n : Nat) : Prop := (s.core.queue code).length + n ≤ 8

/-- The queue with `n` entries that operation `uid` is to fill. -/
def State.awaiting (s : State) (code n uid : Nat) : State :=
  { s with core := s.core.setQueue code (s.core.queue code ++ List.replicate n { data := 0, due := 0, src := uid, landed := false }) }

/-- What a vector load does whose `n` entries go to queue `code` (R312-R314): it waits while the queue lacks room. -/
def VectorLoad (s v : State) (i : Instr) (a : Word) (r : Except Stop (List Span)) (dest : Dest) (code n : Nat) (sig : Option Nat) : Prop :=
  StopRule s i r ∧
  ∀ ss, r = .ok ss →
    (QueueRoom v code n → LoadRule s ((v.counted ss).awaiting code n v.core.nextUid) i a ss dest sig 0 0) ∧
    (¬QueueRoom v code n → exec i s = s.waits 4)

/-- The oldest entry of a queue has landed. -/
abbrev QueueHead (s : State) (code : Nat) (e : FEntry) (rest : List FEntry) : Prop := s.core.queue code = e :: rest ∧ e.landed = true

/-- The `es` oldest entries of a queue have landed. -/
abbrev QueueHeads (s : State) (code : Nat) (es rest : List FEntry) : Prop := s.core.queue code = es ++ rest ∧ ∀ e ∈ es, e.landed = true

/-- The core with a queue as given. -/
def State.withQueue (s : State) (code : Nat) (q : List FEntry) : State := { s with core := s.core.setQueue code q }

/-- The `n` oldest entries of a queue have not all landed. -/
abbrev QueueShort (s : State) (code n : Nat) : Prop := (s.core.queue code).length < n ∨ ∃ e ∈ (s.core.queue code).take n, e.landed = false

/-- What a vector store does (R323, R324): the oldest entry of q2, once it has landed, gives the bytes. -/
def VectorStore (s v : State) (i : Instr) (a : Word) (r : Except Stop (List Span)) (n : Nat) (sig : Option Nat) : Prop :=
  StopRule s i r ∧
  ∀ ss, r = .ok ss →
    (∀ e rest, QueueHead v 14 e rest → StoreRule s (v.withQueue 14 rest) i a ss ((entryBytes e.data).take n) sig 0 0) ∧
    (QueueShort v 14 1 → exec i s = s.waits 3)

/-- What an atomic does (R326-R328). -/
def AtomicRule (s v : State) (i : Instr) (op : AmoOp) (gd : BitVec 3) (ga gs : BitVec 5) (scope ord : BitVec 3) (n : Nat) (sig : Option Nat) :
    Prop :=
  ((s.g ga).toNat % n ≠ 0 → exec i s = State.raisesIllegal s i) ∧
  ((s.g ga).toNat % n = 0 → ∀ r, r = v.access .amo (s.g ga) n → StopRule s i r ∧
    ∀ ss, r = .ok ss →
      exec i s = .next (orderedOp v (s.g ga) (.amo op ss n (s.g gs) (s.g (g3 gd))) (v.regDest (g3 gd) n true) sig ord.toNat scope.toNat).retired)

/-- An operation of the current core's list that is to be performed now: plain, of this module, and first among those that order it. -/
abbrev PlainOp (s : State) (o : MemOp) : Prop :=
  s.core.ops.find? (fun p => p.uid == o.uid) = some o ∧ o.slot = none ∧ o.grp = false ∧ o.ord = 0 ∧ o.stamp = none ∧ o.sent = false ∧ o.got = [] ∧
    s.opReady s.core o = true ∧ s.notYet (.op s.core.idx o.uid) = false ∧ s.flitHeld s.core.idx o.uid = false

/-- Nothing of another module. -/
abbrev NoPeer (ss : List Span) : Prop := ∀ p ∈ ss, p.place ≠ .peer

/-- A number that names no control register (R264). -/
abbrev ReservedCrn (n : Nat) : Prop :=
  n = 0x0C ∨ n = 0x0D ∨ n = 0x0E ∨ n = 0x0F ∨ n = 0x23 ∨ n = 0x36 ∨ n = 0x37 ∨ n = 0x3E ∨ n = 0x3F ∨ 0x46 ≤ n

/-- `SPECST` once written: bit 1 of the value clears `SPECLOST`, bit 0 opens the buffer (R299). -/
def specOpens (s : State) (v : Word) : State :=
  let w := if v.getLsbD 1 then setBits s.core.specst 1 1 0 else s.core.specst
  { s with core := { s.core with specst := if v.getLsbD 0 then setBits w 0 1 1 else w } }

/-! ### X words -/

/-- What an X word takes before it reads its operands (R256-R263, R340): the sync field acts, the occupancies admit the word, then the mask and
the lanes left undisturbed are read. `p` is the word's form; `v` the state after the sync field; `en` and `base` the enables and the undisturbed
lanes, and `x` the state after. -/
structure XStart (s : State) (o : XOp) (p : XPlan) (v : State) (sig : Option Nat) (en base : Entry) (x : XRead) : Prop where
  fresh : Fresh s
  strand : s.cur = .x
  mask : p.masked = true → o.m = 0 → o.ma = 0
  uses : usesBad p = false
  lat : p.latMin ≤ o.lat.toNat
  sync : s.syncTake o.sync = .ok (v, sig)
  signals : sig ≠ none → Quiet v
  occupied : occCheck v.core p o.m = .ok ()
  takes : ∃ x1 : XRead, (if p.masked then XRead.mask ⟨v, []⟩ o.m else .ok (BitVec.allOnes 1024, ⟨v, []⟩)) = .ok (en, x1) ∧
    (base, x) = (if p.merge && o.m != 0 then
      (if o.ma = 0 then x1.base p.vd else (x1.s.drawEntry.1, { x1 with s := x1.s.drawEntry.2 })) else (0, x1))

/-- An X word that issues: it reads its operands `es` in order, and `x` is the state after. -/
def XIssue (s : State) (o : XOp) (p : XPlan) (sig : Option Nat) (en base : Entry) (es : List Entry) (x : XRead) : Prop :=
  ∃ (v : State) (x2 : XRead), XStart s o p v sig en base x2 ∧ readAll x2 p.reads = .ok (es, x)

/-- An X word that does not issue (R255, R256, R259, R271, R341): a register use, a mask field or a latency that its form forbids is illegal; the
sync field, the tokens it would give, the occupancies, and an operand that has not landed stop it. `s` is the state with the due results landed. -/
def XRefuses (s : State) (i : Instr) (o : XOp) (p : XPlan) (out : Host.Outcome State Fault Refusal) : Prop :=
  Fresh s → s.cur = .x →
    ((p.masked = true ∧ o.m = 0 ∧ o.ma = 1) ∨ usesBad p = true ∨ o.lat.toNat < p.latMin → out = State.raisesIllegal s i) ∧
    ((p.masked = true → o.m = 0 → o.ma = 0) → usesBad p = false → p.latMin ≤ o.lat.toNat →
      (∀ e, s.syncTake o.sync = .error e → out = s.stop i e) ∧
      ∀ v sig, s.syncTake o.sync = .ok (v, sig) →
        (sig ≠ none → ¬Quiet v → out = s.waits outside) ∧
        ((sig ≠ none → Quiet v) → ∀ e, occCheck v.core p o.m = .error e → out = s.stop i e) ∧
        ∀ en base x e, XStart s o p v sig en base x → readAll x p.reads = .error e → out = s.stop i e)

/-- The word of form `p` does what follows from its operands, or is refused; due results land first (R258). -/
def XRule (s : State) (i : Instr) (o : XOp) (p : XPlan) (f : Option Nat → Entry → Entry → List Entry → XRead → State) : Prop :=
  i.fieldsOk = true →
    (∀ sig en base es x, XIssue s.landForIssue o p sig en base es x → exec i s = .next (f sig en base es x)) ∧
    XRefuses s.landForIssue i o p (exec i s)

/-- The entry whose lane i is `f i` where the lane is enabled, and keeps the undisturbed lane elsewhere (R259). -/
def lanesOf (w : Nat) (en base : Entry) (f : Nat → Nat) : Entry :=
  entryOfLanes w ((List.range (1024 / w)).map fun i => if en.getLsbD i then f i else lane base w i)

/-- The OR of the events of the enabled lanes (R240). -/
def eventsOf (w : Nat) (en : Entry) (f : Nat → Nat) : Nat :=
  (List.range (1024 / w)).foldl (fun a i => a ||| (if en.getLsbD i then f i else 0)) 0

/-- The word has read its operands and pushes entries that land within its latency bound (R258). -/
def xPushes (x : XRead) (o : XOp) (vd : Nat) (out : List Entry) (flags : Nat) (sig : Option Nat) : State :=
  let t := x.s.hazardTrace x.hazards
  (t.flightPush vd (t.core.xIssue + 2 ^ (o.lat.toNat + 1)) out flags sig.isSome).retired

/-- A lane-wise word whose lanes give values and events. -/
def XLanes (s : State) (i : Instr) (o : XOp) (p : XPlan) (f : List Entry → Nat → FRes) : Prop :=
  XRule s i o p fun sig en base es x =>
    xPushes x o o.vd.toNat [lanesOf p.w en base fun j => (f es j).1] (eventsOf p.w en fun j => (f es j).2) sig

/-- A lane-wise integer word. -/
def XInts (s : State) (i : Instr) (o : XOp) (p : XPlan) (f : List Entry → Nat → Nat) : Prop :=
  XRule s i o p fun sig en base es x => xPushes x o o.vd.toNat [lanesOf p.w en base (f es)] 0 sig

/-- A word that pushes one entry that is a function of the enables and the operands. -/
def XWhole (s : State) (i : Instr) (o : XOp) (p : XPlan) (f : Entry → List Entry → Entry) : Prop :=
  XRule s i o p fun sig en _ es x => xPushes x o p.vd [f en es] 0 sig

/-- A word that pushes entries, and raises events, that are a function of the operands. -/
def XParts (s : State) (i : Instr) (o : XOp) (p : XPlan) (f : Entry → Entry → List Entry → List Entry × Nat) : Prop :=
  XRule s i o p fun sig en base es x => xPushes x o o.vd.toNat (f en base es).1 (f en base es).2 sig

/-- The word is illegal whatever its state, as its fields do not fit each other (R341). -/
def XIllegal (s : State) (i : Instr) : Prop := Fresh s.landForIssue → exec i s = State.raisesIllegal s.landForIssue i

/-- The magnitude that a code below the sign bit stands for (R229). -/
def Fmt.mag (f : Fmt) (c : Nat) : ℚ :=
  match f.val c with
  | .num _ m e => (m : ℚ) * (2 : ℚ) ^ e
  | _ => 0

/-- Lane i of operand j. -/
def opLane (es : List Entry) (j w i : Nat) : Nat := lane (es.getD j 0) w i

/-- A lane as a signed integer. -/
def opInt (es : List Entry) (j w i : Nat) : Int := toInt w (opLane es j w i)

/-! ### K words -/

/-- The registers that an entry from level `n` fills (R417). -/
def Core.entered (d : Core) (n : Nat) : Bank := if n = 0 then d.bank1 else d.bank2

/-- The core of a trap entry (R416): the banked registers of the next level hold the cause, the value and the strands' addresses, and K stands at
`TVEC`. -/
abbrev TrapEntered (c d : Core) (σ : StrandId) (cause detail : Nat) (val : Word) : Prop :=
  d.tl = c.tl + 1 ∧ d.k.pc = c.tvec ∧
    (d.entered c.tl).cause = BitVec.ofNat 64 (cause % 256 + detail % 1024 * 2 ^ 8 + σ.num * 2 ^ 18) ∧ (d.entered c.tl).val = val ∧
    (d.entered c.tl).pcl = (c.l.pc &&& ~~~3 ||| if c.l.parked then 1 else 0) ∧ (d.entered c.tl).pcx = (c.x.pc &&& ~~~3 ||| if c.x.parked then 1 else 0) ∧
    (d.entered c.tl).pcs = (c.s.pc &&& ~~~3 ||| if c.s.parked then 1 else 0) ∧ (d.entered c.tl).pck = (c.k.pc &&& ~~~3 ||| if c.split then 1 else 0)

/-- The core holds no instruction of L, X or S that has not landed, nor any operation at all (R263, R416). -/
abbrev Still (s : State) : Prop := s.core.flight = [] ∧ s.core.ops = []

/-- Held completion words of the current task on an engine, oldest first (R373). -/
def State.heldOn (s : State) (e : Nat) : List Word := s.heldWords e

/-- The word ends its context with a fatal error (R22, R458). -/
def State.raisesFatal (s : State) (code : Nat) (val : Word) : Host.Outcome State Fault Refusal :=
  .next (s.fatalError s.core.view.ctx (.strand s.core.idx s.cur) code val 0)

/-- The translation array of the current task is loaded again (R31). -/
def State.arrayAgain (s : State) : Except Word State :=
  match s.taskOn s.core.idx with
  | some t => s.loadArray s.core.idx t
  | none => .ok s

/-- A word that writes a device register: its effects are those of the write, after which it completes and gives its token, unless the write ended
its own task. -/
def WritesDevice (s : State) (i : Instr) (v : State) (sig : Option Nat) : Prop :=
  (v.core.task.isSome → exec i s = .next (v.signalAfter sig).retired) ∧ (v.core.task = none → exec i s = .next v)

/-- A completion word that retires without a trap: it is no schedule miss, or the word asks for the status (R371). -/
abbrev Plain (w : Word) (stat : BitVec 1) : Prop := bitsAt w 56 7 ≠ 1 ∨ stat = 1

/-- What a word does that retires a job whose completion word is `w` (R220, R371, R372): a schedule miss runs the task anew, or traps. -/
def Retires (s : State) (i : Instr) (rd : BitVec 5) (stat : BitVec 1) (w : Word) (retire : State → State) : Prop :=
  (Plain w stat → exec i s = .next ((retire s).setG rd w).retired) ∧
  (¬Plain w stat → ∀ t, s.taskOn s.core.idx = some t →
    (t.sched.getLsbD 51 = true → t.misses < 3 → exec i s = .next ((retire s).rerun s.core.idx t)) ∧
    ((t.sched.getLsbD 51 = false ∨ 3 ≤ t.misses) → Still s →
      exec i s = .next (((retire s).modMe fun u => { u with wait := 0 }).takeTrap s.cur 0x0A 0 w)))

/-- The machine with another current core, and with another pager queue. -/
def State.onCore (s : State) (c : Core) : State := { s with core := c }
def State.withHostq (s : State) (q : List (List Word)) : State := { s with lm := { s.lm with hostq := q } }
def State.withPagerq (s : State) (q : List (List Word)) : State := { s with lm := { s.lm with pagerq := q } }

/-- The machine with one more future. -/
def State.addFuture (s : State) (f : Future) : State :=
  { s with futures := s.futures ++ [f], futSeq := s.futSeq + 1, futGen := aset f.id f.gen s.futGen }

/-- The future belongs to the current task, in a slice of its own (R409, R433). -/
abbrev MyFuture (s : State) (f : Future) : Prop := f.ctx = s.core.view.ctx ∧ f.rtn = s.myOwner ∧ s.slicesOf f.id = [s.core.view.ctx]

/-- What a call does whose block `w` has been read and whose ranges have been checked (R407, R408, R440): `v` is the state then. -/
def FutureCall (s v : State) (i : Instr) (rd : BitVec 5) (w : List Word) (req rpl : List Span) : Prop :=
  let c := v.core.view.ctx
  let q := bitsAt (w.getD 1 0) 32 12
  let rem := (w.getD 1 0).getLsbD 63
  let sc := if rem = true then 5 else 3
  (bitsAt (w.getD 1 0) 44 4 ≠ 0 → exec i s = .next (v.setG rd 0x8000000000000043).retired) ∧
  (bitsAt (w.getD 1 0) 44 4 = 0 →
    (v.pqDesc c q = none → exec i s = .next ((v.pqGone c q).setG rd 0x8000000000000041).retired) ∧
    (v.pqDesc c q ≠ none →
      (v.endpoint c (bitsAt (w.getD 1 0) 48 15) rem = none → exec i s = .next (v.setG rd 0x8000000000000042).retired) ∧
      (∀ ep, v.endpoint c (bitsAt (w.getD 1 0) 48 15) rem = some ep →
        (v.freeSliceId c (v.slice c).2 (v.slice c).1 = none → exec i s = .next (v.setG rd 0x8000000000000040).retired) ∧
        (∀ id, v.freeSliceId c (v.slice c).2 (v.slice c).1 = some id →
          (v.drainedNow v.core.idx sc = false → exec i s = s.waits outside) ∧
          (v.drainedNow v.core.idx sc = true → ∀ u f t : _, u = v.widenPins v.core.idx sc →
            f = u.newFut w id (bitsAt (ep.getD 0 0) 54 8) req rpl → t = u.addFuture f →
            (¬(rem = true ∧ f.hw = true) → exec i s = .next (t.setG rd (BitVec.ofNat 64 id)).retired) ∧
            (rem = true → f.hw = true → ∀ r, r = t.readNow (w.getD 0 0) req → StopRule s i r ∧
              ∀ x bs, r = .ok (x, bs) → exec i s = .next ((x.sendRemote f ep bs).setG rd (BitVec.ofNat 64 id)).retired))))))

/-- The data of a broadcast store and the state once they are taken (R332): the low bytes of a register, an even pair, or the oldest entry of q2. -/
def BroadcastData (s : State) (bsz : BitVec 3) (gs : BitVec 5) (data : List Byte) (t : State) : Prop :=
  (bsz.toNat < 4 → data = natBytes (2 ^ bsz.toNat) (s.g gs).toNat ∧ t = s) ∧
  (bsz = 4 → data = wordBytes (s.g gs) ++ wordBytes (s.g (gs + 1)) ∧ t = s) ∧
  (bsz = 5 → ∃ e rest, QueueHead s 14 e rest ∧ data = entryBytes e.data ∧ t = s.withQueue 14 rest)

/-- The current core with an open job. -/
def State.withOpenJob (s : State) (o : OpenJob) : State := { s with core := { s.core with openJob := some o } }

/-! ### Engines and the launch manager -/

/-- A command step of an engine's job: on the machine `u`, whose commands that are over have retired, engine `h / 4096` of cluster `g` takes record
`r`, whose opcode is `op`, of the job with handle `h` (R225, R376). -/
abbrev TakesTurn (u : State) (g h op : Nat) (j : Job) (r : List Word) : Prop := u.engTurn g h op = some (j, r)

/-- The job once its command has begun: it runs for `d` cycles and its accumulator bank is bound (R376, R377). -/
def Job.issued (j : Job) (now d : Nat) : Job := { j with busy := some (now + d), bound := true }

/-- The job with an accumulator written. -/
def Job.withAcc (j : Job) (a : Nat) (v : List (BitVec 32)) (fl : Nat) : Job :=
  { j with accs := j.accs.set a (some v), flags := j.flags ||| BitVec.ofNat 5 fl }

/-- The job with the accumulators that `MZERO` names at zero (R381). -/
def Job.zeroed (j : Job) (w : Word) : Job :=
  { j with accs := (List.range 4).map fun i => if bitsAt w (50 + i) 1 = 1 then some (List.replicate 16384 0) else j.accs.getD i none }

/-- The job with its command begun and at step `n`, to go on in cycle `pace`: it holds its engine and its bank. -/
def Job.waiting (j : Job) (n pace : Nat) : Job := { j with sub := n, begun := true, bound := true, pace := pace }

/-- The job once its command is over. -/
def Job.over (j : Job) (next sub : Nat) : Job := { j with busy := none, begun := false, next := next, sub := sub, got := [], held := none }

/-- Accumulator `a` as a command finds it: its elements, or free ones where none is defined (R377). -/
def AccumulatorIs (u : State) (j : Job) (a : Nat) (v : List (BitVec 32)) (t : State) : Prop :=
  (j.accs.getD a none = some v ∧ t = u) ∨
  (j.accs.getD a none = none ∧ v.length = 16384 ∧ t = (u.drawBytes 65536).2 ∧
    ∀ i < 16384, v.getD i 0 = BitVec.ofNat 32 (bytesNat (((u.drawBytes 65536).1.drop (4 * i)).take 4)))

/-- How a command ends or waits whose step on memory did not succeed: a refused transfer ends the job with its status, one that waits leaves its
request and holds the engine, and consumed poison ends the context (R26, R369, R392). -/
def CommandEnds {α : Type} (u : State) (j : Job) (r : Eng α) (out : Host.Outcome State Fault Refusal) : Prop :=
  (∀ t e, r = .stop t e → out = .next (t.endJob (t.jobNow j) e)) ∧
  (∀ w, r = .wait w → out = .next ((u.engWait j w).putJob { (u.engWait j w).jobNow j with begun := true, bound := true })) ∧
  (∀ t v, r = .dead t v → out = .next (t.fatalError j.view.ctx (.agent (j.clu / 32)) 0x84 v 0))

/-- What a command does whose transfers are `ms`, from machine `u`: at most `lim` of those that are left are performed in order; once all are over
it runs for `d` cycles, else it keeps its engine, and goes on in the next cycle if it has moved anything (R376, R392). -/
def Transfers (u : State) (j : Job) (ms : List Move) (lim d : Nat) (out : Host.Outcome State Fault Refusal) : Prop :=
  let r := u.engMoves j (u.movesWritten j ms) j.sub ((ms.drop j.sub).take lim)
  (∀ t, r = .ok t ms.length → out = .next (t.putJob ((t.jobNow j).issued t.now d))) ∧
  (∀ t n, r = .ok t n → n ≠ ms.length →
    out = .next (t.putJob ((t.jobNow j).waiting n (if n = j.sub then (t.jobNow j).pace else t.now + 1)))) ∧ CommandEnds u j r out

/-- Rings whose head tile a product releases (R380). -/
def poppedRings (r : List Word) : List Nat :=
  if recOp r = 1 ∨ recOp r = 2 then
    (if bitsAt (r.getD 0 0) 46 1 = 0 then [bitsAt (r.getD 1 0) 60 4] else []) ++
    (if bitsAt (r.getD 0 0) 45 1 = 0 then [bitsAt (r.getD 1 0) 56 4] else [])
  else []

/-- `HEAD` of ring `n` goes on by one tile. -/
def State.popRing (s : State) (g n : Nat) : State :=
  s.setFld (ringReg g n + 8) 0 16 ((s.rfld (ringReg g n + 8) 0 16 + 1) % 2 ^ 16)

/-- The command steps of the engines, with their opcodes. -/
def engineSteps (g h : Nat) : List (Nat × Instr) :=
  [(0x01, .mma g h), (0x02, .mdist g h), (0x03, .mtopk g h), (0x04, .mzero g h), (0x05, .mload g h), (0x06, .mout g h), (0x10, .cpy g h),
   (0x11, .cfill g h), (0x12, .cgath g h), (0x13, .cscat g h), (0x14, .cring g h)]

/-- A step that comes before another in its engine: a stamped one before an unstamped one, else the job accepted first (R225). -/
def Job.ahead (j k : Job) : Prop := (k.stampAt.isSome → j.stampAt.isSome) ∧ (j.stampAt.isSome = k.stampAt.isSome → j.seq ≤ k.seq)

/-- A machine whose task `t` is queued, running or saved as named. -/
abbrev TaskIs (s : State) (t : Task) : Prop := s.taskOf t.id = some t

/-- The machine with core `k` in the start state of task `t`, before its array is loaded (R31, R194, R196). -/
def State.started (s : State) (t : Task) (k : Nat) : State :=
  { s.setCore ((s.freshCore k t (s.lidOf t)).startTask t (s.descOf t) t.index (descCount (s.descOf t)) (s.lidOf t)) with free := s.free + 1 }

/-- The machine with task `t` back on core `k` from its slice image and its save area, before its array is loaded (R427). -/
def State.resumed (s : State) (t : Task) (k r : Nat) : State :=
  let u := s.loadSlice k (s.imageAt t.ctx r)
  let c := ((u.freshCore k t (u.lidOf t)).fromArea (cellsFrom 0 (u.readMem (u.areaAt t.ctx r) 16384)) 0).withStages t.stages t.rels t.bdone
  { u.setCore { c with pagerOut := t.pagerOut } with free := u.free + 1 }

/-- Core `k` with its task's translation array, loaded from `n` entries at `a` (R31, R413). -/
def Core.withArray (c : Core) (a n : Nat) (es : List (Word × Word)) : Core :=
  { c with
    view := { c.view with ltt := es }, lttBase := a, lttCount := n
    lttCrc := BitVec.ofNat 64 (crc32c (es.flatMap fun e => wordsBytes [e.1, e.2])) }

/-- The machine without the preload of core `k`. -/
def State.unpreloaded (s : State) (k : Nat) : State := { s with lm := { s.lm with preload := s.lm.preload.filter fun p => p.1 != k } }

/-- The machine after core `k` stops for a save (R426). -/
def stopsForSave (s : State) (k why : Nat) : State :=
  (s.landCore k Core.landAll).modCore k fun c => { c.discardHeld with saving := why, preempt := 0, asleep := 0, waited := 0 }

/-! ### Contexts, coherence and the fabric -/

/-- The coherent memory system with one part replaced. -/
def State.withCoh (s : State) (c : Coh) : State := { s with coh := c }

/-- The fabric with one part replaced. -/
def State.withFab (s : State) (f : Fabric) : State := { s with fab := f }

/-- The machine once the host's answer has left its list of requests; replies of the module's own pager cores leave it alone (R41). -/
def State.answered (s : State) (src : Option Nat) (v : Word) : State :=
  if src.isNone then { s with lm := { s.lm with hostq := s.lm.hostq.filter fun w => !answers v w } } else s

/-- A pager task that has to end: its core is no pager core any more, it holds no request, and everything of it is drained (R37). -/
abbrev PagerEnds (s : State) (k : Nat) : Prop :=
  ((s.coreAt k).task.map (·.pager)).getD false = true ∧ s.isPagerCore k = false ∧ (s.coreAt k).pagerHeld = [] ∧ s.endDrained k = true

/-- Context a probe asks for: an I/O coherent write's reaches every context (R70). -/
def probeCtx (p : Probe) : Nat := if p.from_ = 272 then everyCtx else p.ctx

/-- The machine once a probe that invalidates has sent the dirty data under it to memory (R69). -/
def State.dirtyOut (s : State) (p : Probe) (kind : Nat) : State :=
  ((s.coh.tagsOf p.sline).filter fun t =>
    kind == 1 && t.agent == p.agent && ctxHits (probeCtx p) t.ctx && t.dirty p.unit && decide (t.cache < 32)).foldl
    (fun s t => s.flushUnit t.ctx p.sline t.grain p.unit) s

/-- A probe's answer that has left its agent and is due. -/
def AnswerDue (s : State) (p : Probe) (a : Answer) : Prop := ∃ t, t ≤ s.now ∧ (p, a, t) ∈ s.coh.answers

/-- The fabric's flit in a slot of the package ring. -/
def RingSlot.with_ (r : RingSlot) (f : Flit) (back : Bool) (now : Nat) : RingSlot := { r with flit := f, back := back, since := now }

/-- The receiver of a lane group delivers a flit: the next sequence number, and an acknowledgement with the 64th; the flit goes on into the module
(R125, R133). -/
def laneDelivers (s : State) (l : Lane) (f : Flit) : State :=
  let m : Lane := { l with
    n := (l.n + 1) % 2 ^ 24, since := l.since + 1, ackDue := if l.since = 0 then s.now + 128 else l.ackDue, rx := .accept, naks := 0 }
  State.forwardFlit (if m.since = 64 then (s.putLane { m with since := 0 }).control l.lg 2 m.n 0 else s.putLane m) f (l.lg / 28 % 4 == 1)

/-- The receiver acknowledges at once what it has delivered. -/
def laneAcks (s : State) (l : Lane) : State := (s.putLane { l with since := 0 }).control l.lg 2 l.n 0

/-- The receiver sends a NAK for the flit it expects, and waits 256 cycles for it (R133). -/
def laneNaks (s : State) (l : Lane) : State :=
  (s.putLane { l with rx := .nakwait, naks := 1, nakDue := s.now + 256 }).control l.lg 3 l.n 0

/-- The number of a request is acceptable: above `H`, at most 1,024 on, and not received before (R129). -/
abbrev NewNumber (x : E2eSrc) (sq : Nat) : Prop :=
  let d := (sq + 2 ^ 24 - x.high) % 2 ^ 24
  1 ≤ d ∧ d ≤ 1024 ∧ sq ∉ x.got

/-- The number of a request was received before (R129). -/
abbrev OldNumber (x : E2eSrc) (sq : Nat) : Prop :=
  let d := (sq + 2 ^ 24 - x.high) % 2 ^ 24
  d = 0 ∨ 2 ^ 23 ≤ d ∨ sq ∈ x.got

/-- The machine once `H` and the map have taken a number (R129). -/
def State.numberTaken (s : State) (src sq : Nat) : State :=
  s.putE2eSrc { s.e2eSrcOf src with
    high := (advanceHigh 1024 (s.e2eSrcOf src).high (sq :: (s.e2eSrcOf src).got)).1
    got := (advanceHigh 1024 (s.e2eSrcOf src).high (sq :: (s.e2eSrcOf src).got)).2 }

/-- A request that is performed where it arrives: no window write and no named-tile message. -/
def PeerKind.access : PeerKind → Bool
  | .window _ | .interest _ _ | .publish _ _ => false
  | _ => true

/-! ### Zheuc, Agate, futures and hosting -/

/-- The Zheuc state replaced. -/
def State.withZg (s : State) (z : Zheuc) : State := { s with zg := z }

/-- The Agate state replaced. -/
def State.withAg (s : State) (a : Agate) : State := { s with agate := a }

/-- A frame that has come back through the star. -/
def State.returned (s : State) (f : List Word) : State := s.withZg { s.zg with echo := s.zg.echo.erase f }

/-- A state in which every committed message is performed. -/
abbrev Performed (s : State) : Prop := s.zg.committed ≤ s.zg.performed

/-- An instruction of a hart is over: it counts in `minstret`, and no request of it waits. -/
def hartRetires (t : State) (h : Nat) : State :=
  (t.dequeue (some (.hart h))).putHart h { t.hartAt h with instret := (t.hartAt h).instret + 1 }

/-- A hart after a word of 32 bits that writes `rd`. -/
def hartSteps (s : State) (h : Nat) (rd : Nat) (v : Word) : State := hartRetires (s.hartDone h rd v ((s.hartAt h).pc + 4)) h

/-- The exception a word of a hart takes (R429, PRESUMED: the RISC-V privileged architecture, log 13). -/
def hartTraps (s : State) (h cause : Nat) (v : Word) : State :=
  (s.dequeue (some (.hart h))).putHart h ((s.hartAt h).take false cause v)

/-- What a pass frame does before it commits (R145, R147, R151, R152). -/
def State.passed (s : State) (f : List Word) : State :=
  ((((s.returned f).heard (framePlane f)).endLoss (framePlane f)).qtzMeasure f).tenureEnds f

/-- A sync message of a member, whole and numbered (R146). -/
def State.syncOk (s : State) (f : List Word) : Bool :=
  s.zgOn && f.length == 8 && f.getD 7 0 == syncCrc (f.take 7) && s.members.contains (syncSrc f)

/-- A message of the named tiles that came round again after a refusal and is past its expiry (R172). -/
def State.agExpired (s : State) (rt kind : Nat) (m : AgMsg) (mark : Nat) : Bool := s.agLate rt kind m mark && s.agPast m.exp

/-- A tile that is being put together from segments of the same tile (R165). -/
def sameFill (rt : Nat) (m : AgMsg) (t : Tile) : Bool :=
  t.rt == rt && !t.whole && t.name == m.name && t.size == m.size && t.hit == m.hit

/-- The state with hart `h` current. -/
def State.atHart (s : State) (h : Nat) : State := { s with hart := h }

/-- The errors and units of the module replaced. -/
def State.withRas (s : State) (r : Ras) : State := { s with ras := r }

/-! ### Bundles -/

/-- A bundle that has not begun to issue (R187), with no vector result due before it (R258), outside a job's group of its level (R368), and whose K slot
does not hold a marker past its first iteration (R293). -/
abbrev BundleFresh (s : State) : Prop :=
  s.wordMode = false ∧ s.core.bdone = 0 ∧ (s.core.l.stage = 0 ∧ s.core.x.stage = 0 ∧ s.core.s.stage = 0 ∧ s.core.k.stage = 0) ∧
    (∀ f ∈ s.core.flight, s.core.xIssue < f.due) ∧ (∀ j, s.core.openJob = some j → j.level ≠ s.core.tl) ∧
    ({ s with cur := .k } : State).spentMarker = false

/-- The word of a strand's slot. -/
def slotWord (wl wx ws wk : IWord) : StrandId → IWord
  | .l => wl | .x => wx | .s => ws | .k => wk

/-- The core with no strand waiting. -/
def State.allReady (s : State) : State :=
  { s with cur := .k, core := { s.core with
    l := { s.core.l with wait := 0 }, x := { s.core.x with wait := 0 }, s := { s.core.s with wait := 0 }, k := { s.core.k with wait := 0 } } }

/-- The words that R188 keeps out of the L, X and S slots. -/
def KSlotOnly (i : Instr) : Prop :=
  (∃ a b o, i = .beq a b o ∨ i = .bne a b o ∨ i = .blt a b o ∨ i = .bge a b o ∨ i = .bltu a b o ∨ i = .bgeu a b o) ∨
    (∃ o, i = .j o ∨ i = .jal o) ∨ (∃ f o, i = .call f o) ∨ (∃ a, i = .jr a) ∨ (∃ a f, i = .callr a f) ∨ i = .ret ∨
    (∃ a b l, i = .loop a b l) ∨ (∃ a n l, i = .loopi a n l) ∨ (∃ k, i = .lbreak k) ∨ (∃ a b c, i = .fork a b c)

/-- A slot of a bundle holds a word that R188 forbids there. -/
def Forbidden (wl wx ws wk : IWord) (σ : StrandId) : Prop :=
  ∃ i, decodeWord σ (slotWord wl wx ws wk σ) = .ok i ∧ (KSlotOnly i ∧ σ ≠ .k ∨ (∃ c, i = .join c) ∨
    (∃ a, i = .dsync a) ∧ ∃ τ b, τ.num < σ.num ∧ decodeWord τ (slotWord wl wx ws wk τ) = .ok (.dsync b))

/-! ### What a step keeps -/

/-- Memory and the cluster stores are in canonical form. -/
abbrev Canonical (s : State) : Prop := Memory.wf s.mem = true ∧ Memory.wf s.store = true

/-- The words that compute in registers alone (R278-R281), with their destination and sources. -/
inductive RegisterWord (rd ra rb : BitVec 5) : Instr → Prop where
  | add : RegisterWord rd ra rb (.add rd ra rb)
  | sub : RegisterWord rd ra rb (.sub rd ra rb)
  | and : RegisterWord rd ra rb (.and rd ra rb)
  | or : RegisterWord rd ra rb (.or rd ra rb)
  | xor : RegisterWord rd ra rb (.xor rd ra rb)
  | andn : RegisterWord rd ra rb (.andn rd ra rb)
  | sll : RegisterWord rd ra rb (.sll rd ra rb)
  | srl : RegisterWord rd ra rb (.srl rd ra rb)
  | sra : RegisterWord rd ra rb (.sra rd ra rb)
  | rol : RegisterWord rd ra rb (.rol rd ra rb)
  | mul : RegisterWord rd ra rb (.mul rd ra rb)
  | mulh : RegisterWord rd ra rb (.mulh rd ra rb)
  | mulhu : RegisterWord rd ra rb (.mulhu rd ra rb)
  | min : RegisterWord rd ra rb (.min rd ra rb)
  | max : RegisterWord rd ra rb (.max rd ra rb)
  | minu : RegisterWord rd ra rb (.minu rd ra rb)
  | maxu : RegisterWord rd ra rb (.maxu rd ra rb)
  | slt : RegisterWord rd ra rb (.slt rd ra rb)
  | sltu : RegisterWord rd ra rb (.sltu rd ra rb)
  | seq : RegisterWord rd ra rb (.seq rd ra rb)
  | clz : RegisterWord rd ra rb (.clz rd ra)
  | ctz : RegisterWord rd ra rb (.ctz rd ra)
  | popc : RegisterWord rd ra rb (.popc rd ra)
  | addi (n : BitVec 15) : RegisterWord rd ra rb (.addi rd ra n)
  | andi (n : BitVec 15) : RegisterWord rd ra rb (.andi rd ra n)
  | ori (n : BitVec 15) : RegisterWord rd ra rb (.ori rd ra n)
  | xori (n : BitVec 15) : RegisterWord rd ra rb (.xori rd ra n)
  | slli (n : BitVec 6) : RegisterWord rd ra rb (.slli rd ra n)
  | srli (n : BitVec 6) : RegisterWord rd ra rb (.srli rd ra n)
  | srai (n : BitVec 6) : RegisterWord rd ra rb (.srai rd ra n)
  | slti (n : BitVec 14) : RegisterWord rd ra rb (.slti rd ra n)
  | sltiu (n : BitVec 14) : RegisterWord rd ra rb (.sltiu rd ra n)
  | movhi (n : BitVec 15) : RegisterWord rd ra rb (.movhi rd ra n)

/-- The strands' fields that no register word changes: all but registers, loop levels, address, stage and wait. -/
def Strand.sameBut (t u : Strand) : Prop :=
  { u with g := t.g, win := t.win, loops := t.loops, pc := t.pc, stage := t.stage, wait := t.wait } = t

/-- A loop end steps register `r` of strand `τ` (R292). -/
def StepsReg (s : State) (τ : StrandId) (r : BitVec 5) : Prop :=
  ∃ k < 6, ∃ p ∈ ((s.strand s.seqStrand).loops.getD k Loop.reset).slots, p.strand = τ ∧ p.reg = r

/-- A scalar store of the executing strand, by its size code (R297). -/
def storeWord (n : Nat) (rd ra : BitVec 5) (y : BitVec 2) (off : BitVec 13) : Instr :=
  match n with
  | 0 => .stb rd ra y off
  | 1 => .sth rd ra y off
  | 2 => .stw rd ra y off
  | _ => .std rd ra y off

def loadWord (n : Nat) (rd ra : BitVec 5) (y : BitVec 2) (off : BitVec 13) : Instr :=
  match n with
  | 0 => .ldb rd ra y off
  | 1 => .ldbu rd ra y off
  | 2 => .ldh rd ra y off
  | 3 => .ldhu rd ra y off
  | 4 => .ldw rd ra y off
  | 5 => .ldwu rd ra y off
  | _ => .ldd rd ra y off

end Sys2Proof.Machine
end

