-- ==== Sys2Proof/Certificates/Slice0/Obligations.lean ====
section
/-! DEFINITION. The statements for the provers, by family of the opcode table. -/

open Sys2Proof Sys2Proof.Machine

/-! ### Words of every strand -/

/-- R278: the register forms other than the divisions. -/
def Obligations.RegisterArithmetic : Prop :=
  ∀ (s : State) (rd ra rb : BitVec 5), Fresh s → Written s [rd, ra, rb] →
    exec (.add rd ra rb) s = .next (s.setG rd (s.g ra + s.g rb)).retired ∧
    exec (.sub rd ra rb) s = .next (s.setG rd (s.g ra - s.g rb)).retired ∧
    exec (.and rd ra rb) s = .next (s.setG rd (s.g ra &&& s.g rb)).retired ∧
    exec (.or rd ra rb) s = .next (s.setG rd (s.g ra ||| s.g rb)).retired ∧
    exec (.xor rd ra rb) s = .next (s.setG rd (s.g ra ^^^ s.g rb)).retired ∧
    exec (.andn rd ra rb) s = .next (s.setG rd (s.g ra &&& ~~~(s.g rb))).retired ∧
    exec (.sll rd ra rb) s = .next (s.setG rd (s.g ra <<< ((s.g rb).toNat % 64))).retired ∧
    exec (.srl rd ra rb) s = .next (s.setG rd (s.g ra >>> ((s.g rb).toNat % 64))).retired ∧
    exec (.sra rd ra rb) s = .next (s.setG rd ((s.g ra).sshiftRight ((s.g rb).toNat % 64))).retired ∧
    exec (.rol rd ra rb) s = .next (s.setG rd ((s.g ra).rotateLeft ((s.g rb).toNat % 64))).retired ∧
    exec (.mul rd ra rb) s = .next (s.setG rd (s.g ra * s.g rb)).retired ∧
    exec (.mulh rd ra rb) s = .next (s.setG rd (BitVec.ofInt 64 ((s.g ra).toInt * (s.g rb).toInt / 2 ^ 64))).retired ∧
    exec (.mulhu rd ra rb) s = .next (s.setG rd (BitVec.ofNat 64 ((s.g ra).toNat * (s.g rb).toNat / 2 ^ 64))).retired ∧
    exec (.min rd ra rb) s = .next (s.setG rd (if (s.g rb).toInt < (s.g ra).toInt then s.g rb else s.g ra)).retired ∧
    exec (.max rd ra rb) s = .next (s.setG rd (if (s.g ra).toInt < (s.g rb).toInt then s.g rb else s.g ra)).retired ∧
    exec (.minu rd ra rb) s = .next (s.setG rd (if (s.g rb).toNat < (s.g ra).toNat then s.g rb else s.g ra)).retired ∧
    exec (.maxu rd ra rb) s = .next (s.setG rd (if (s.g ra).toNat < (s.g rb).toNat then s.g rb else s.g ra)).retired ∧
    exec (.slt rd ra rb) s = .next (s.setG rd (if (s.g ra).toInt < (s.g rb).toInt then 1 else 0)).retired ∧
    exec (.sltu rd ra rb) s = .next (s.setG rd (if (s.g ra).toNat < (s.g rb).toNat then 1 else 0)).retired ∧
    exec (.seq rd ra rb) s = .next (s.setG rd (if s.g ra = s.g rb then 1 else 0)).retired

/-- R278: the unary rows. `CLZ` counts the zeros above the highest one bit, `CTZ` those below the lowest, `POPC` the one bits. R279: quotients and
remainders; a zero divisor raises `DIVZ` while `TRAPEN` asks for it, and overflow never traps. -/
def Obligations.CountsAndDivisions : Prop :=
  (∀ (s : State) (rd ra : BitVec 5), Fresh s → Written s [rd, ra] →
      (s.g ra = 0 → exec (.clz rd ra) s = .next (s.setG rd 64).retired ∧ exec (.ctz rd ra) s = .next (s.setG rd 64).retired) ∧
      (∀ n : Nat, n < 64 → (s.g ra).getLsbD (63 - n) = true → (∀ i, 63 - n < i → (s.g ra).getLsbD i = false) →
        exec (.clz rd ra) s = .next (s.setG rd (BitVec.ofNat 64 n)).retired) ∧
      (∀ n : Nat, n < 64 → (s.g ra).getLsbD n = true → (∀ i, i < n → (s.g ra).getLsbD i = false) →
        exec (.ctz rd ra) s = .next (s.setG rd (BitVec.ofNat 64 n)).retired) ∧
      exec (.popc rd ra) s =
        .next (s.setG rd (BitVec.ofNat 64 ((List.range 64).countP fun i => (s.g ra).getLsbD i))).retired) ∧
  (∀ (s : State) (rd ra rb : BitVec 5), Fresh s → Written s [rd, ra, rb] →
      (s.g rb ≠ 0 →
        exec (.div rd ra rb) s = .next (s.setG rd (BitVec.ofInt 64 ((s.g ra).toInt.tdiv (s.g rb).toInt))).retired ∧
        exec (.divu rd ra rb) s = .next (s.setG rd (BitVec.ofNat 64 ((s.g ra).toNat / (s.g rb).toNat))).retired ∧
        exec (.rem rd ra rb) s = .next (s.setG rd (BitVec.ofInt 64 ((s.g ra).toInt.tmod (s.g rb).toInt))).retired ∧
        exec (.remu rd ra rb) s = .next (s.setG rd (BitVec.ofNat 64 ((s.g ra).toNat % (s.g rb).toNat))).retired) ∧
      (low32 (s.g rb) ≠ 0 →
        exec (.divw rd ra rb) s =
          .next (s.setG rd ((BitVec.ofInt 32 ((low32 (s.g ra)).tdiv (low32 (s.g rb)))).signExtend 64)).retired ∧
        exec (.remw rd ra rb) s =
          .next (s.setG rd ((BitVec.ofInt 32 ((low32 (s.g ra)).tmod (low32 (s.g rb)))).signExtend 64)).retired) ∧
      (s.g rb = 0 → s.core.trapen.getLsbD 0 = false →
        exec (.div rd ra rb) s = .next (s.setG rd (BitVec.allOnes 64)).retired ∧
        exec (.divu rd ra rb) s = .next (s.setG rd (BitVec.allOnes 64)).retired ∧
        exec (.rem rd ra rb) s = .next (s.setG rd (s.g ra)).retired ∧
        exec (.remu rd ra rb) s = .next (s.setG rd (s.g ra)).retired) ∧
      (low32 (s.g rb) = 0 → s.core.trapen.getLsbD 0 = false →
        exec (.divw rd ra rb) s = .next (s.setG rd (BitVec.allOnes 64)).retired ∧
        exec (.remw rd ra rb) s = .next (s.setG rd (((s.g ra).setWidth 32).signExtend 64)).retired) ∧
      (s.core.trapen.getLsbD 0 = true →
        (s.g rb = 0 → ∀ i ∈ [Instr.div rd ra rb, .divu rd ra rb, .rem rd ra rb, .remu rd ra rb],
          exec i s = .next (s.trapStop s.cur 3 0 (s.g ra))) ∧
        (low32 (s.g rb) = 0 → ∀ i ∈ [Instr.divw rd ra rb, .remw rd ra rb], exec i s = .next (s.trapStop s.cur 3 0 (s.g ra)))))

/-- R280, R281: the immediate forms. -/
def Obligations.ImmediateForms : Prop :=
  ∀ (s : State) (rd ra : BitVec 5), Fresh s → Written s [rd, ra] →
    (∀ imm : BitVec 15,
      exec (.addi rd ra imm) s = .next (s.setG rd (s.g ra + imm.signExtend 64)).retired ∧
      exec (.andi rd ra imm) s = .next (s.setG rd (s.g ra &&& imm.signExtend 64)).retired ∧
      exec (.ori rd ra imm) s = .next (s.setG rd (s.g ra ||| imm.signExtend 64)).retired ∧
      exec (.xori rd ra imm) s = .next (s.setG rd (s.g ra ^^^ imm.signExtend 64)).retired ∧
      exec (.movhi rd ra imm) s = .next (s.setG rd (s.g ra * 2 ^ 15 + imm.setWidth 64)).retired) ∧
    (∀ n : BitVec 6,
      exec (.slli rd ra n) s = .next (s.setG rd (s.g ra <<< n.toNat)).retired ∧
      exec (.srli rd ra n) s = .next (s.setG rd (s.g ra >>> n.toNat)).retired ∧
      exec (.srai rd ra n) s = .next (s.setG rd ((s.g ra).sshiftRight n.toNat)).retired) ∧
    (∀ imm : BitVec 14,
      exec (.slti rd ra imm) s = .next (s.setG rd (if (s.g ra).toInt < imm.toInt then 1 else 0)).retired ∧
      exec (.sltiu rd ra imm) s =
        .next (s.setG rd (if (s.g ra).toNat < (imm.signExtend 64).toNat then 1 else 0)).retired)

/-- R282, R283 (`J`), R250: branches go to the word or bundle at B + 4 × offset, and a taken branch that leaves the innermost body is illegal. R283,
R284, R295: `JAL` links in g7 with the address of the next word or bundle; `JR` goes to its register; both are illegal in a loop. -/
def Obligations.BranchesAndJumps : Prop :=
  (∀ (s : State) (ra rb : BitVec 5) (off : BitVec 15) (far : BitVec 25), Fresh s → Written s [ra, rb] → MayTransfer s →
      BranchRule s (.beq ra rb off) (s.g ra = s.g rb) (s.here + off.signExtend 64 * 4) ∧
      BranchRule s (.bne ra rb off) (s.g ra ≠ s.g rb) (s.here + off.signExtend 64 * 4) ∧
      BranchRule s (.blt ra rb off) ((s.g ra).toInt < (s.g rb).toInt) (s.here + off.signExtend 64 * 4) ∧
      BranchRule s (.bge ra rb off) ((s.g rb).toInt ≤ (s.g ra).toInt) (s.here + off.signExtend 64 * 4) ∧
      BranchRule s (.bltu ra rb off) ((s.g ra).toNat < (s.g rb).toNat) (s.here + off.signExtend 64 * 4) ∧
      BranchRule s (.bgeu ra rb off) ((s.g rb).toNat ≤ (s.g ra).toNat) (s.here + off.signExtend 64 * 4) ∧
      BranchRule s (.j far) True (s.here + far.signExtend 64 * 4)) ∧
  (∀ (s : State) (ra : BitVec 5) (far : BitVec 25), Fresh s → MayTransfer s →
      (Written s [7] → s.innermost = none → Admits s (s.here + far.signExtend 64 * 4) →
        exec (.jal far) s = .next ((s.setG 7 s.pcNext).complete (s.here + far.signExtend 64 * 4))) ∧
      (Written s [7] → (s.innermost ≠ none ∨ ¬Admits s (s.here + far.signExtend 64 * 4)) → exec (.jal far) s = State.raisesIllegal s (.jal far)) ∧
      (Written s [ra] → s.innermost = none → (s.g ra).toNat % 4 = 0 → Admits s (s.g ra) →
        exec (.jr ra) s = .next (s.complete (s.g ra))) ∧
      (Written s [ra] → (s.innermost ≠ none ∨ (s.g ra).toNat % 4 ≠ 0 ∨ ¬Admits s (s.g ra)) →
        exec (.jr ra) s = State.raisesIllegal s (.jr ra)))

/-- R286-R288, R295: `CALL`, `CALLR` and `RET`. `v` is the state after the spills or fills that the window needs; where it needs none, it is the state
with the window moved. All three are illegal in a loop, and so is a target that bundle mode does not admit. -/
def Obligations.WindowedCalls : Prop :=
  ∀ (s v : State) (ra : BitVec 5) (fc : BitVec 2) (off : BitVec 23), Fresh s → MayTransfer s →
    (s.innermost = none → fc ≠ 3 → s.me.depth ≠ 65535 →
      spillGo (spillsDue s fc) (s.modMe fun t => { t with wb := t.wb + 8 * (fc.toNat + 1) }) = .ok v → v.core.busyKey v.cur (v.me.key 31) = false →
      (Admits s (s.here + off.signExtend 64 * 4) →
        exec (.call fc off) s = .next ((callEnters v (callLink s fc)).complete (s.here + off.signExtend 64 * 4))) ∧
      (¬Admits s (s.here + off.signExtend 64 * 4) → exec (.call fc off) s = State.raisesIllegal s (.call fc off)) ∧
      (Written s [ra] → (s.g ra).toNat % 4 = 0 → Admits s (s.g ra) →
        exec (.callr ra fc) s = .next ((callEnters v (callLink s fc)).complete (s.g ra))) ∧
      (Written s [ra] → ((s.g ra).toNat % 4 ≠ 0 ∨ ¬Admits s (s.g ra)) → exec (.callr ra fc) s = State.raisesIllegal s (.callr ra fc))) ∧
    (s.me.wb + 8 * (fc.toNat + 1) + 24 - s.me.sb ≤ 96 →
      spillGo (spillsDue s fc) (s.modMe fun t => { t with wb := t.wb + 8 * (fc.toNat + 1) }) =
        .ok (s.modMe fun t => { t with wb := t.wb + 8 * (fc.toNat + 1) })) ∧
    (Written s [31] → s.innermost = none → s.me.depth ≠ 0 → bitsAt (s.g 31) 50 2 = 0 → bitsAt (s.g 31) 48 2 ≠ 3 →
      fillGo (fillsDue s) (s.modMe fun t => { t with wb := t.wb - 8 * (bitsAt (s.g 31) 48 2 + 1), depth := t.depth - 1 }) = .ok v →
      (Admits s (setBits (s.g 31) 48 4 0) → exec .ret s = .next (v.complete (setBits (s.g 31) 48 4 0))) ∧
      (¬Admits s (setBits (s.g 31) 48 4 0) → exec .ret s = State.raisesIllegal s .ret)) ∧
    ((s.innermost ≠ none ∨ fc = 3 ∨ s.me.depth = 65535) → exec (.call fc off) s = State.raisesIllegal s (.call fc off) ∧
      (Written s [ra] → exec (.callr ra fc) s = State.raisesIllegal s (.callr ra fc))) ∧
    (Written s [31] → (s.innermost ≠ none ∨ s.me.depth = 0 ∨ bitsAt (s.g 31) 50 2 ≠ 0 ∨ bitsAt (s.g 31) 48 2 = 3) →
      exec .ret s = State.raisesIllegal s .ret)

/-- R290: `LOOP` and `LOOPI`. R292, R293, R294: `LSTEP` sets a step slot of an inactive level; a marker inside its body completes; `LBREAK` ends its
level and those within. R291: at the end of an iteration of the one level that ends here, the count rises and the steps are taken; the body repeats
while the count is below `LCNT`, and otherwise the level ends and execution goes on past the body. -/
def Obligations.Loops : Prop :=
  (∀ (s : State) (k ra : BitVec 5) (len : BitVec 8) (cnt : BitVec 7), Fresh s → MayTransfer s → Written s [ra] →
      LoopRule s (.loop k ra len) k.toNat (len.toNat + 1) (s.g ra) ∧
      LoopRule s (.loopi k cnt len) k.toNat (len.toNat + 1) (cnt.setWidth 64)) ∧
  (∀ (s : State) (rd ra n : BitVec 5) (k : BitVec 3) (j : BitVec 2), Fresh s →
      (k.toNat < 6 → Written s [ra] → (s.level k.toNat).active = false →
        exec (.lstep rd ra k j) s = .next (s.modLevel s.seqStrand k.toNat fun l =>
          { l with slots := l.slots.set j.toNat { reg := rd, strand := s.cur, stride := s.g ra } }).retired) ∧
      (k.toNat < 6 → Written s [ra] → (s.level k.toNat).active = true →
        exec (.lstep rd ra k j) s = .next (s.trapStop s.cur 6 0 (0x100 + k.setWidth 64))) ∧
      (MayTransfer s → k.toNat < 6 → n ≠ 0 → s.core.tl = 0 → (s.level k.toNat).active = true →
        (∀ l, s.innermost = some l → s.here.toNat + n.toNat * s.unit ≤ l.fin.toNat) → s.innermost ≠ none →
        exec (.lfirst n k) s = .next s.retired ∧ exec (.llast n k) s = .next s.retired) ∧
      (s.core.tl = 0 → (s.level k.toNat).active = false →
        exec (.lfirst n k) s = State.raisesIllegal s (.lfirst n k) ∧ exec (.llast n k) s = State.raisesIllegal s (.llast n k)) ∧
      (MayTransfer s → k.toNat < 6 → s.core.tl = 0 → (s.level k.toNat).active = true →
        Admits s ((s.level k.toNat).fin + BitVec.ofNat 64 s.unit) →
        exec (.lbreak k) s = .next ((((s.strand s.seqStrand).activeLevels.filter fun i =>
            decide ((s.level k.toNat).beg.toNat ≤ (s.level i).beg.toNat)).foldl
          (fun t i => t.modLevel s.seqStrand i fun m => { m with active := false }) s).complete
            ((s.level k.toNat).fin + BitVec.ofNat 64 s.unit))) ∧
      (MayTransfer s → (s.level k.toNat).active = false → exec (.lbreak k) s = State.raisesIllegal s (.lbreak k))) ∧
  (∀ (s : State) (k : Nat) (next : Word), s.endLevels = [k] → s.stepsBusy = false →
      let l := s.level k
      let stepped := (s.modLevel s.seqStrand k fun m => { m with done := m.done + 1 }).applySteps l.slots
      ((l.done + 1).toNat < l.cnt.toNat →
        s.advance next = (stepped.modMe fun t => { t with stage := 0, wait := 0 }).goto l.beg) ∧
      (l.cnt.toNat ≤ (l.done + 1).toNat →
        s.advance next = ((stepped.modLevel s.seqStrand k fun m => { m with active := false }).modMe fun t =>
          { t with stage := 0, wait := 0 }).goto (l.fin + BitVec.ofNat 64 s.unit)))

/-- R95, R98, R277, R298, R302: `NOP` only advances; a fence completes once what it orders is performed, and one with a release side widens the pins and
makes the strand's later writes releases; a `FENCE.sc` takes a stamp as it issues and completes in a later cycle, in its turn, and one at group
scope sends a sync message; `WFE` returns and empties a pending set that is not empty. R98, R298: a fence that has issued completes once what it
orders is performed and its turn has come, and waits until then. R303: tokens. A token is pushed once the strand's earlier operations are performed.
R193, R304: sync bits. -/
def Obligations.FencesTokensAndSyncBits : Prop :=
  (∀ (s : State) (rd : BitVec 5) (scope ord : BitVec 3), Fresh s →
      exec .nop s = .next s.retired ∧
      (scope.toNat < 6 → 1 ≤ ord.toNat → ord.toNat < 4 → s.me.fence = none → s.fenceMet scope.toNat ord.toNat = true →
        exec (.fence scope ord) s = .next (if ord.toNat = 1 then s else fenceReleases s scope.toNat).retired) ∧
      (scope.toNat < 6 → 1 ≤ ord.toNat → ord.toNat < 4 → s.fenceMet scope.toNat ord.toNat = false →
        exec (.fence scope ord) s = .next (s.modMe fun t => { t with stage := 1, wait := outside })) ∧
      (∀ u : State, u = ({ s with core := { s.core with scLast := s.scStampNow } } : State).modMe (fun t =>
          { t with fence := some (s.scStampNow, s.core.idx, s.effScope scope.toNat) }) →
        scope.toNat < 6 → ord.toNat = 4 → s.effScope scope.toNat ≠ 4 →
        exec (.fence scope ord) s = .next ((if u.fenceMet scope.toNat 4 then fenceReleases u scope.toNat else u).modMe fun t =>
          { t with stage := 1, wait := outside })) ∧
      (scope.toNat < 6 → ord.toNat = 4 → s.effScope scope.toNat = 4 →
        exec (.fence scope ord) s = .next (((s.withOp (s.newOp 0 (.load []) .none none 4 scope.toNat none true)).syncSc 0x13 s.core.nextUid).modMe
          fun t => { t with stage := 1, wait := outside })) ∧
      (scope.toNat = 6 ∨ scope.toNat = 7 ∨ ord.toNat = 0 ∨ 5 ≤ ord.toNat →
        exec (.fence scope ord) s = State.raisesIllegal s (.fence scope ord)) ∧
      (Written s [rd] → s.me.pend ≠ 0 →
        exec (.wfe rd) s = .next ((s.setG rd s.me.pend).modMe fun t => { t with pend := 0 }).retired) ∧
      (Written s [rd] → s.me.pend = 0 → exec (.wfe rd) s = .next (s.modMe fun t => { t with wait := outside }))) ∧
  (∀ (s u : State) (scope ord : BitVec 3), s.me.stage = 1 → Landed s → scope.toNat < 6 → 1 ≤ ord.toNat → ord.toNat < 5 →
      (s.fenceMet scope.toNat ord.toNat = true → u = (if ord.toNat = 1 then s else fenceReleases s scope.toNat) →
        (u.fenceTurn = true → exec (.fence scope ord) s = .next (u.modMe fun t => { t with fence := none }).retired) ∧
        (u.fenceTurn = false → exec (.fence scope ord) s = .next (u.modMe fun t => { t with wait := outside }))) ∧
      (s.fenceMet scope.toNat ord.toNat = false → exec (.fence scope ord) s = .next (s.modMe fun t => { t with wait := outside }))) ∧
  (∀ (s : State) (rd : BitVec 5) (p : BitVec 4), Fresh s →
      (GivesTo s p → s.core.token p.toNat + s.core.reserved p.toNat < 63 → Quiet s →
        exec (.tsig p) s = .next (s.withToken p (s.core.token p.toNat + 1)).retired) ∧
      (∀ u : State, u = { s with core := s.core.setResv p.toNat (s.core.reserved p.toNat + 1) } →
        GivesTo s p → s.core.token p.toNat + s.core.reserved p.toNat < 63 → ¬Quiet s →
        exec (.tsig p) s = .next (u.withOp (u.newOp 0 (.load []) .none (some p.toNat) 0 0 none false)).retired) ∧
      (GivesTo s p → 63 ≤ s.core.token p.toNat + s.core.reserved p.toNat →
        exec (.tsig p) s = .next (s.modMe fun t => { t with wait := 2 })) ∧
      (TakesFrom s p → 0 < s.core.token p.toNat →
        exec (.twait p) s = .next (s.withToken p (s.core.token p.toNat - 1)).retired) ∧
      (TakesFrom s p → s.core.token p.toNat = 0 → exec (.twait p) s = .next (s.modMe fun t => { t with wait := 1 })) ∧
      (TakesFrom s p → Written s [rd] → 0 < s.core.token p.toNat →
        exec (.ttry rd p) s = .next ((s.withToken p (s.core.token p.toNat - 1)).setG rd 1).retired) ∧
      (TakesFrom s p → Written s [rd] → s.core.token p.toNat = 0 → exec (.ttry rd p) s = .next (s.setG rd 0).retired) ∧
      (¬GivesTo s p → exec (.tsig p) s = State.raisesIllegal s (.tsig p)) ∧
      (¬TakesFrom s p → exec (.twait p) s = State.raisesIllegal s (.twait p) ∧
        exec (.ttry rd p) s = State.raisesIllegal s (.ttry rd p))) ∧
  (∀ (s : State) (cc : BitVec 4), Fresh s →
      (Quiet s → exec (.ccset cc) s = .next (s.withCc cc true).retired) ∧
      (¬Quiet s → exec (.ccset cc) s = .next (s.modMe fun t => { t with wait := outside })) ∧
      exec (.ccclr cc) s = .next (s.withCc cc false).retired ∧
      (s.core.cc.getLsbD cc.toNat = true → exec (.ccwait cc) s = .next s.retired) ∧
      (s.core.cc.getLsbD cc.toNat = false → exec (.ccwait cc) s = .next (s.modMe fun t => { t with wait := 5 })))

/-- R191, R192, R291, R308: `FORK` starts the strands at three checked addresses; `JOIN` parks L, X and S once what they issued has landed, which
sets the sync bit and may complete the core's arrival at a domain; K's `JOIN` returns the core to bundles once they are parked. The end tests of
levels that end at the word follow it, and decide where the parked strand, K or the bundles go on. -/
def Obligations.Modes : Prop :=
  ∀ (s t : State) (next : Word) (rd ra rb : BitVec 5) (cc : BitVec 4), Fresh s → s.core.tl = 0 → s.stepsBusy = false →
    (s.cur = .k → s.core.split = false → Written s [rd, ra, rb] → Quiet s →
      (∀ r ∈ [rd, ra, rb], (s.g r).toNat % 4 = 0 ∧ s.startOk (s.g r) = .ok ()) →
      s.loopTests .k 16 s.endLevels (s.core.k.pc + 4) = (t, next) →
      exec (.fork rd ra rb) s = .next { t with core := { t.core with
        split := true, bdone := 0, xIssue := t.core.xIssue + 1
        l := started t.core.l (s.g rd) (bitsAt (s.g rd) 52 12 == 0), x := started t.core.x (s.g ra) (bitsAt (s.g ra) 52 12 == 0)
        s := started t.core.s (s.g rb) (bitsAt (s.g rb) 52 12 == 0), k := started t.core.k next false } }) ∧
    ((s.cur ≠ .k ∨ s.core.split = true) → exec (.fork rd ra rb) s = State.raisesIllegal s (.fork rd ra rb)) ∧
    (s.cur = .k → s.core.split = true → cc = 0 → s.pcNext.toNat % 16 = 0 → s.core.l.parked = true → s.core.x.parked = true →
      s.core.s.parked = true → s.loopTests .k 4 s.endLevels s.pcNext = (t, next) →
      exec (.join cc) s = .next { t with core := t.core.inBundles next }) ∧
    (s.cur = .k → s.core.split = true → cc = 0 → s.pcNext.toNat % 16 = 0 →
      (s.core.l.parked && s.core.x.parked && s.core.s.parked) = false →
      exec (.join cc) s = .next (s.modMe fun t => { t with wait := 7 })) ∧
    (s.cur = .k → s.core.split = true → (cc ≠ 0 ∨ s.pcNext.toNat % 16 ≠ 0) → exec (.join cc) s = State.raisesIllegal s (.join cc)) ∧
    (∀ u : State, s.cur ≠ .k → s.core.split = true → u = (if s.cur = .x then s.landCore s.core.idx Core.landAll else s) →
      (u.core.strandLanded s.cur = true →
        (u.withCc cc true).countIssue.loopTests s.cur 4 (u.withCc cc true).countIssue.endLevels u.pcNext = (t, next) →
        exec (.join cc) s = .next (t.modMe fun t => { t with pc := next, parked := true, stage := 0, wait := 6 }).parkArrival) ∧
      (u.core.strandLanded s.cur = false → exec (.join cc) s = .next (u.modMe fun t => { t with stage := 1, wait := outside }))) ∧
    (s.core.split = false → exec (.join cc) s = State.raisesIllegal s (.join cc))

/-- R305: named barriers. R200, R202, R306: a strand whose earlier operations are performed executes `DSYNC`; the core arrives with its last strand, and
where it departs at once the word completes. In bundle mode a core-level `DSYNC` departs at once; a strand in split mode waits for the others; a
strand whose core has departed completes; an id that names no domain waits for good; a level in which the task has no domain, and a handler, are
illegal. -/
def Obligations.BarriersAndDomains : Prop :=
  (∀ (s : State) (m : BitVec 4) (b : BitVec 8), Fresh s → s.core.bars.length = 256 →
      let v := s.core.bar b
      let free := m.getLsbD s.cur.num = true ∧ v.a.getLsbD s.cur.num = false ∧ (v.a = 0 ∨ v.p = m) ∧ Quiet s
      let w := barArrives v m s.cur.num
      (m.getLsbD s.cur.num = true → v.a.getLsbD s.cur.num = true →
        exec (.bararr m b) s = .next (s.modMe fun t => { t with wait := 10 }) ∧
        exec (.barsync m b) s = .next (s.modMe fun t => { t with wait := 10 })) ∧
      (m.getLsbD s.cur.num = true → v.a.getLsbD s.cur.num = false → (v.a = 0 ∨ v.p = m) → ¬Quiet s →
        exec (.bararr m b) s = .next (s.modMe fun t => { t with wait := outside }) ∧
        exec (.barsync m b) s = .next (s.modMe fun t => { t with wait := outside })) ∧
      (free → exec (.bararr m b) s = .next (s.withBar b w).retired) ∧
      (free → w.a = 0 → exec (.barsync m b) s = .next (s.withBar b w).retired) ∧
      (free → w.a ≠ 0 → exec (.barsync m b) s = .next ((s.withBar b w).modMe fun t => { t with stage := 1, wait := 10 })) ∧
      (v.a.getLsbD s.cur.num = false → exec (.barwait b) s = .next s.retired) ∧
      (v.a.getLsbD s.cur.num = true → exec (.barwait b) s = .next (s.modMe fun t => { t with stage := 1, wait := 10 })) ∧
      (m.getLsbD s.cur.num = false → exec (.bararr m b) s = State.raisesIllegal s (.bararr m b) ∧
        exec (.barsync m b) s = State.raisesIllegal s (.barsync m b)) ∧
      (m.getLsbD s.cur.num = true → v.a.getLsbD s.cur.num = false → v.a ≠ 0 → v.p ≠ m →
        exec (.bararr m b) s = State.raisesIllegal s (.bararr m b) ∧ exec (.barsync m b) s = State.raisesIllegal s (.barsync m b))) ∧
  (∀ (s : State) (lv : BitVec 3), s.me.wait ≠ stranded →
      (Fresh s → s.core.tl = 0 → s.core.split = false → s.cur = .k → Quiet s → s.drainedNow s.core.idx (s.effScope 0) = true →
        s.core.l.stage ≠ 2 → s.core.x.stage ≠ 2 → s.core.s.stage ≠ 2 →
        exec (.dsync 0) s = .next ({ s with core := s.core.stepsOn.setStrand s.cur { s.me with stage := 1, wait := 0 } } : State).retired) ∧
      (Fresh s → s.core.tl = 0 → lv.toNat < 5 → (lv.toNat ≠ 0 → dmemId s.core.dmem lv.toNat ≠ 0 ∧
          (s.domainOf s.core.view.ctx lv.toNat (dmemId s.core.dmem lv.toNat)).isSome = true) →
        Quiet s → s.drainedNow s.core.idx (s.effScope lv.toNat) = true →
        (∀ t, t = s.dsyncArrive lv.toNat → t.me.stage = 1 → exec (.dsync lv) s = .next t.retired) ∧
        (s.core.split = true → (∃ σ, σ ≠ s.cur ∧ (s.strand σ).stage ≠ 2 + lv.toNat ∧ (s.strand σ).parked = false) →
          exec (.dsync lv) s = .next (s.modMe fun t => { t with stage := 2 + lv.toNat, wait := if lv.toNat = 0 then 8 else outside }))) ∧
      (s.me.stage = 1 → Landed s → s.core.tl = 0 → lv.toNat < 5 →
        (lv.toNat = 0 ∨ dmemId s.core.dmem lv.toNat ≠ 0) → exec (.dsync lv) s = .next s.retired) ∧
      (Fresh s → s.core.tl = 0 → lv.toNat < 5 → lv.toNat ≠ 0 → dmemId s.core.dmem lv.toNat ≠ 0 →
        s.domainOf s.core.view.ctx lv.toNat (dmemId s.core.dmem lv.toNat) = none →
        exec (.dsync lv) s = .next (s.modMe fun t => { t with wait := stranded })) ∧
      (Fresh s → (5 ≤ lv.toNat ∨ s.core.tl ≠ 0 ∨ (lv.toNat ≠ 0 ∧ dmemId s.core.dmem lv.toNat = 0)) →
        exec (.dsync lv) s = State.raisesIllegal s (.dsync lv)))

/-- R264, R309: what `MFC` reads. R240, R264, R285, R299, R420: what `MTC` writes, and who may. -/
def Obligations.ControlRegisters : Prop :=
  (∀ (s : State) (rd : BitVec 5), Fresh s → Written s [rd] →
      (∀ p ∈ [((0x00 : BitVec 8), s.core.xfctl), (0x01, s.quartz), (0x02, BitVec.ofNat 64 s.core.view.ctx), (0x03, s.core.dmem),
          (0x04, s.core.dphase), (0x05, s.core.vshare), (0x06, s.core.slpcfg), (0x07, s.core.specst), (0x0A, s.me.spillb)],
        exec (.mfc rd p.1) s = .next (s.setG rd p.2).retired) ∧
      (∀ k < 6, exec (.mfc rd (BitVec.ofNat 8 (0x30 + k))) s = .next (s.setG rd (s.ownLevel k).cnt).retired ∧
        exec (.mfc rd (BitVec.ofNat 8 (0x38 + k))) s = .next (s.setG rd (s.ownLevel k).beg).retired ∧
        exec (.mfc rd (BitVec.ofNat 8 (0x40 + k))) s = .next (s.setG rd (s.ownLevel k).fin).retired) ∧
      (∀ p ∈ [((0x08 : BitVec 8), s.core.pgreply), (0x20, BitVec.ofNat 64 s.core.tl), (0x21, s.core.trapen), (0x22, s.core.tvec),
          (0x24, s.core.bank1.cause), (0x25, s.core.bank2.cause), (0x26, s.core.bank1.val), (0x27, s.core.bank2.val),
          (0x28, s.core.bank1.pcl), (0x29, s.core.bank1.pcx), (0x2A, s.core.bank1.pcs), (0x2B, s.core.bank1.pck),
          (0x2C, s.core.bank2.pcl), (0x2D, s.core.bank2.pcx), (0x2E, s.core.bank2.pcs), (0x2F, s.core.bank2.pck)],
        (s.cur = .k → exec (.mfc rd p.1) s = .next (s.setG rd p.2).retired) ∧
        (s.cur ≠ .k → exec (.mfc rd p.1) s = State.raisesIllegal s (.mfc rd p.1))) ∧
      (s.cur = .k → ∀ n < 16, exec (.mfc rd (BitVec.ofNat 8 (0x10 + n))) s =
        .next (s.setG rd (s.reg (clusterBase s.core.cluster + 0x080 + 8 * n))).retired) ∧
      (s.cur = .k → ∀ e rest, QueueHead s 16 e rest →
        exec (.mfcXq rd) s = .next ((s.withQueue 16 rest).setG rd (e.data.setWidth 64)).retired) ∧
      (s.cur = .k → s.core.queue 16 = [] → exec (.mfcXq rd) s = .next (s.modMe fun t => { t with wait := 3 })) ∧
      (s.cur = .k → ∀ e rest, s.core.queue 16 = e :: rest → e.landed = false →
        exec (.mfcXq rd) s = .next (s.modMe fun t => { t with wait := 3 })) ∧
      (s.cur ≠ .k → exec (.mfcXq rd) s = State.raisesIllegal s (.mfcXq rd) ∧
        ∀ n < 16, exec (.mfc rd (BitVec.ofNat 8 (0x10 + n))) s = State.raisesIllegal s (.mfc rd (BitVec.ofNat 8 (0x10 + n)))) ∧
      (∀ n : BitVec 8, n = 0x0B ∨ ReservedCrn n.toNat → exec (.mfc rd n) s = State.raisesIllegal s (.mfc rd n))) ∧
  (∀ (s : State) (ra : BitVec 5) (v : Word), Fresh s → Written s [ra] → s.g ra = v →
      ((s.cur = .x ∨ (s.cur = .k ∧ s.core.tl ≠ 0)) →
        exec (.mtc ra 0x00) s = .next ({ s with core := { s.core with xfctl := v &&& 0x71F } } : State).retired) ∧
      ((s.cur = .l ∨ s.cur = .s ∨ (s.cur = .k ∧ s.core.tl = 0)) → exec (.mtc ra 0x00) s = State.raisesIllegal s (.mtc ra 0x00)) ∧
      (s.sup = true →
        exec (.mtc ra 0x03) s = .next ({ s with core := { s.core with dmem := v &&& 0xFFFFFFFFFFFF0000 } } : State).retired ∧
        exec (.mtc ra 0x05) s = .next ({ s with core := { s.core with vshare := v &&& 0xF } } : State).retired ∧
        (∀ n < 16, exec (.mtc ra (BitVec.ofNat 8 (0x10 + n))) s =
          .next (s.setFld (clusterBase s.core.cluster + 0x080 + 8 * n) 0 11 (bitsAt v 0 11)).retired)) ∧
      (s.sup = false → ∀ n : BitVec 8, n = 0x03 ∨ n = 0x05 ∨ (0x10 ≤ n.toNat ∧ n.toNat < 0x20) → exec (.mtc ra n) s = State.raisesPriv s (.mtc ra n)) ∧
      (s.cur = .k →
        exec (.mtc ra 0x06) s = .next ({ s with core := { s.core with slpcfg := v &&& 0x3FFFF } } : State).retired ∧
        exec (.mtc ra 0x07) s = .next (specOpens s v).retired ∧
        exec (.mtc ra 0x08) s =
          .next (if v.getLsbD 63 then { s with core := { s.core with pgreply := setBits s.core.pgreply 63 1 0 } } else s).retired ∧
        exec (.mtc ra 0x21) s = .next ({ s with core := { s.core with trapen := v &&& 1 } } : State).retired ∧
        (bitsAt v 48 4 = 0 → bitsAt v 0 2 = 0 → exec (.mtc ra 0x22) s = .next ({ s with core := { s.core with tvec := v } } : State).retired) ∧
        ((bitsAt v 48 4 ≠ 0 ∨ bitsAt v 0 2 ≠ 0) → exec (.mtc ra 0x22) s = State.raisesIllegal s (.mtc ra 0x22)) ∧
        ((s.core.queue 15).length < 8 → exec (.mtcQ3 ra) s =
          .next (s.withQueue 15 (s.core.queue 15 ++ [{ data := v.setWidth 1024, due := 0, src := 0, landed := true }])).retired) ∧
        (8 ≤ (s.core.queue 15).length → exec (.mtcQ3 ra) s = .next (s.modMe fun t => { t with wait := 4 }))) ∧
      (s.cur ≠ .k → exec (.mtcQ3 ra) s = State.raisesIllegal s (.mtcQ3 ra) ∧
        ∀ n ∈ [(0x06 : BitVec 8), 0x07, 0x08, 0x21, 0x22], exec (.mtc ra n) s = State.raisesIllegal s (.mtc ra n)) ∧
      (s.cur = .k → s.core.tl ≠ 0 →
        ∀ n, n = 1 ∨ n = 2 →
          exec (.mtc ra (BitVec.ofNat 8 (0x23 + n))) s =
            .next ({ s with core := s.core.setBank n { s.core.bank n with cause := v &&& 0xFFFFF } } : State).retired ∧
          exec (.mtc ra (BitVec.ofNat 8 (0x25 + n))) s = .next ({ s with core := s.core.setBank n { s.core.bank n with val := v } } : State).retired ∧
          ∀ σ : StrandId, exec (.mtc ra (BitVec.ofNat 8 (0x24 + 4 * n + σ.num))) s =
            .next ({ s with core := s.core.setBank n ((s.core.bank n).setPc σ (v &&& ~~~(2 : Word))) } : State).retired) ∧
      ((s.cur ≠ .k ∨ s.core.tl = 0) → ∀ n < 12, exec (.mtc ra (BitVec.ofNat 8 (0x24 + n))) s =
        State.raisesIllegal s (.mtc ra (BitVec.ofNat 8 (0x24 + n)))) ∧
      (bitsAt v 0 6 = 0 → s.me.sb = 0 → exec (.mtc ra 0x0A) s = .next (s.modMe fun t => { t with spillb := v }).retired) ∧
      ((bitsAt v 0 6 ≠ 0 ∨ 0 < s.me.sb) → exec (.mtc ra 0x0A) s = State.raisesIllegal s (.mtc ra 0x0A)) ∧
      (∀ k < 6, exec (.mtc ra (BitVec.ofNat 8 (0x30 + k))) s = .next (s.modLevel s.cur k fun l => { l with cnt := v }).retired) ∧
      (∀ k < 6, (s.ownLevel k).active = true →
        exec (.mtc ra (BitVec.ofNat 8 (0x38 + k))) s = .next (s.trapStop s.cur 6 0 (BitVec.ofNat 64 (0x38 + k))) ∧
        exec (.mtc ra (BitVec.ofNat 8 (0x40 + k))) s = .next (s.trapStop s.cur 6 0 (BitVec.ofNat 64 (0x40 + k)))) ∧
      (∀ k < 6, (s.ownLevel k).active = false →
        exec (.mtc ra (BitVec.ofNat 8 (0x38 + k))) s = .next (s.modLevel s.cur k fun l => { l with beg := v }).retired ∧
        exec (.mtc ra (BitVec.ofNat 8 (0x40 + k))) s = .next (s.modLevel s.cur k fun l => { l with fin := v }).retired) ∧
      (∀ n : BitVec 8, n ∈ [(0x01 : BitVec 8), 0x02, 0x04, 0x09, 0x20] ∨ ReservedCrn n.toNat → exec (.mtc ra n) s = State.raisesIllegal s (.mtc ra n)))

/-! ### Memory -/

/-- R263: the sync field. `11` acts as both others. -/
def Obligations.SyncField : Prop :=
  ∀ (s : State) (w g : StrandId), partners s.cur = some (w, g) →
    let p := 4 * w.num + s.cur.num
    let q := 4 * s.cur.num + g.num
    s.syncTake 0 = .ok (s, none) ∧
    (0 < s.core.token p → s.syncTake 1 = .ok ({ s with core := s.core.setToken p (s.core.token p - 1) }, none)) ∧
    (s.core.token p = 0 → s.syncTake 1 = .error (.wait 1) ∧ s.syncTake 3 = .error (.wait 1)) ∧
    (s.core.token q + s.core.reserved q < 63 →
      s.syncTake 2 = .ok ({ s with core := s.core.setResv q (s.core.reserved q + 1) }, some q)) ∧
    (63 ≤ s.core.token q + s.core.reserved q → s.syncTake 2 = .error (.wait 2)) ∧
    (0 < s.core.token p → s.core.token q + s.core.reserved q < 63 →
      s.syncTake 3 = .ok ({ s with core := (s.core.setToken p (s.core.token p - 1)).setResv q (s.core.reserved q + 1) }, some q))

/-- R297: scalar loads, issued. `v` is the state once the sync field has acted; the register takes its value when the load is performed. R139, R297:
scalar stores to memory, cluster stores, other modules and windows, issued. -/
def Obligations.ScalarLoadsAndStores : Prop :=
  (∀ (s v : State) (rd ra : BitVec 5) (y : BitVec 2) (off : BitVec 13) (sig : Option Nat), Fresh s → Written s [ra, rd] →
      s.syncTake y = .ok (v, sig) →
      ScalarLoad s v (.ldb rd ra y off) rd ra off 1 true sig ∧ ScalarLoad s v (.ldbu rd ra y off) rd ra off 1 false sig ∧
      ScalarLoad s v (.ldh rd ra y off) rd ra off 2 true sig ∧ ScalarLoad s v (.ldhu rd ra y off) rd ra off 2 false sig ∧
      ScalarLoad s v (.ldw rd ra y off) rd ra off 4 true sig ∧ ScalarLoad s v (.ldwu rd ra y off) rd ra off 4 false sig ∧
      ScalarLoad s v (.ldd rd ra y off) rd ra off 8 false sig) ∧
  (∀ (s v : State) (rd ra : BitVec 5) (y : BitVec 2) (off : BitVec 13) (sig : Option Nat), Fresh s → Written s [ra, rd] →
      s.syncTake y = .ok (v, sig) →
      ScalarStore s v (.stb rd ra y off) rd ra off 1 sig ∧ ScalarStore s v (.sth rd ra y off) rd ra off 2 sig ∧
      ScalarStore s v (.stw rd ra y off) rd ra off 4 sig ∧ ScalarStore s v (.std rd ra y off) rd ra off 8 sig)

/-- R312-R316: the vector loads of L, by element size and row size; an operand rule that fails is illegal. R35, R317-R319: a probe that passes changes
nothing but its token, and one that fails raises `PROBE`; a prefetch whose address fails is dropped; `LDA`. -/
def Obligations.VectorLoadsAndProbes : Prop :=
  (∀ (s v : State) (q : BitVec 1) (ga gs : BitVec 5) (y esz rsz : BitVec 2) (off : BitVec 13) (off8 : BitVec 8) (sig : Option Nat),
      Fresh s → s.cur = .l → s.syncTake y = .ok (v, sig) → Written s [ga, gs] →
      let code := 12 + q.toNat
      let n := 64 * 2 ^ rsz.toNat
      let e := 4 / 2 ^ esz.toNat
      VectorLoad s v (.vld 0 q ga off y 0) (baseOff s ga off 128) (v.access .load (baseOff s ga off 128) 128) (.queue code 1) code 1 sig ∧
      ((baseOff s ga off 128).toNat % n = 0 →
        VectorLoad s v (.vld rsz q ga off y 1) (baseOff s ga off 128) (v.access .load (baseOff s ga off 128) n)
          (.queue code (max 1 (n / 128))) code (max 1 (n / 128)) sig) ∧
      ((baseOff s ga off 128).toNat % n ≠ 0 → exec (.vld rsz q ga off y 1) s = State.raisesIllegal s (.vld rsz q ga off y 1)) ∧
      (rsz ≠ 0 → exec (.vld rsz q ga off y 0) s = State.raisesIllegal s (.vld rsz q ga off y 0)) ∧
      (esz ≠ 3 → (baseOff s ga off8 e).toNat % e = 0 → (s.g gs).toNat % e = 0 →
        VectorLoad s v (.vlds esz q ga gs off8 y) (baseOff s ga off8 e)
          (v.accessAll .load e (strided (baseOff s ga off8 e) (s.g gs) (128 / e))) (.queue code 1) code 1 sig) ∧
      ((esz = 3 ∨ (baseOff s ga off8 e).toNat % e ≠ 0 ∨ (s.g gs).toNat % e ≠ 0) →
        exec (.vlds esz q ga gs off8 y) s = State.raisesIllegal s (.vlds esz q ga gs off8 y)) ∧
      (esz ≠ 3 → (baseOff s ga off e).toNat % e = 0 →
        VectorLoad s v (.vldb esz q ga off y) (baseOff s ga off e) (v.access .load (baseOff s ga off e) e) (.bcast code e) code 1 sig) ∧
      ((esz = 3 ∨ (baseOff s ga off e).toNat % e ≠ 0) →
        exec (.vldb esz q ga off y) s = State.raisesIllegal s (.vldb esz q ga off y))) ∧
  (∀ (s v : State) (gl gd : BitVec 3) (ga : BitVec 5) (off : BitVec 13) (intent y : BitVec 2) (sig : Option Nat), Fresh s → s.cur = .l →
      Written s [ga, g3 gl, g3 gd] → s.syncTake y = .ok (v, sig) →
      ((s.g (g3 gl) = 0 ∨ ∃ ss, v.checks v.core.view v.core.cluster (intentKind intent) true (baseOff s ga off 128) (s.g (g3 gl)).toNat = .ok ss) →
        exec (.probe gl ga off y intent) s = .next (v.signalAfter sig).retired) ∧
      (∀ reason dist, s.g (g3 gl) ≠ 0 →
        v.checks v.core.view v.core.cluster (intentKind intent) true (baseOff s ga off 128) (s.g (g3 gl)).toNat = .error (reason, dist) →
        exec (.probe gl ga off y intent) s =
          .next (s.trapStop s.cur 7 (reason + 256 * intent.toNat) (baseOff s ga off 128 + BitVec.ofNat 64 dist))) ∧
      (∀ (lvl : BitVec 3) (wr : BitVec 1) (r : Except Deny (List Span)),
        r = v.checks v.core.view v.core.cluster (if wr = 1 then .store else .load) false (baseOff s ga off 128) 128 →
        (∀ d, lvl.toNat < 3 → r = .error d → exec (.pref lvl ga off y wr) s = .next (v.signalAfter sig).retired) ∧
        (∀ ss, lvl.toNat < 3 → r = .ok ss →
          exec (.pref lvl ga off y wr) s = .next ((v.prefetch lvl.toNat (wr == 1) ss).signalAfter sig).retired) ∧
        (3 ≤ lvl.toNat → exec (.pref lvl ga off y wr) s = State.raisesIllegal s (.pref lvl ga off y wr))) ∧
      (∀ (scope ord : BitVec 3) (near : BitVec 7) (sz : BitVec 2) (n : Nat) (r : Except Stop (List Span)), n = 8 / 2 ^ sz.toNat →
        r = v.access .load (baseOff s ga near n) n →
        (scope.toNat < 6 → (ord = 1 ∨ ord = 4) → sz.toNat < 2 → (baseOff s ga near n).toNat % n = 0 →
          StopRule s (.lda gd ga scope ord near y sz) r ∧
          ∀ ss, r = .ok ss → LoadRule s (v.counted ss) (.lda gd ga scope ord near y sz) (baseOff s ga near n) ss (v.regDest (g3 gd) n true) sig
            ord.toNat scope.toNat) ∧
        ((6 ≤ scope.toNat ∨ (ord ≠ 1 ∧ ord ≠ 4) ∨ 2 ≤ sz.toNat ∨ (baseOff s ga near n).toNat % n ≠ 0) →
          exec (.lda gd ga scope ord near y sz) s = State.raisesIllegal s (.lda gd ga scope ord near y sz))))

/-- R323-R325, R330: the vector and release stores of S and row adds; vector stores and row adds take the oldest landed entries of q2. -/
def Obligations.VectorStores : Prop :=
  ∀ (s v : State) (ga gs : BitVec 5) (y vsz esz rsz : BitVec 2) (off : BitVec 13) (off8 : BitVec 8) (off7 : BitVec 7) (scope ord gd : BitVec 3)
    (sz : BitVec 2) (ty sat : BitVec 1) (sig : Option Nat), Fresh s → s.cur = .s → s.syncTake y = .ok (v, sig) → Written s [ga, gs, g3 gd] →
    let e := 4 / 2 ^ esz.toNat
    let n := 8 / 2 ^ sz.toNat
    let row := 64 * 2 ^ rsz.toNat
    (vsz ≠ 3 → VectorStore s v (.vst vsz ga off y) (baseOff s ga off 128) (v.access .store (baseOff s ga off 128) (128 / 2 ^ vsz.toNat))
      (128 / 2 ^ vsz.toNat) sig) ∧
    (vsz = 3 → exec (.vst vsz ga off y) s = State.raisesIllegal s (.vst vsz ga off y)) ∧
    (esz ≠ 3 → (baseOff s ga off8 e).toNat % e = 0 → (s.g gs).toNat % e = 0 →
      VectorStore s v (.vsts esz ga gs off8 y) (baseOff s ga off8 e)
        (v.accessAll .store e (strided (baseOff s ga off8 e) (s.g gs) (128 / e))) 128 sig) ∧
    ((esz = 3 ∨ (baseOff s ga off8 e).toNat % e ≠ 0 ∨ (s.g gs).toNat % e ≠ 0) →
      exec (.vsts esz ga gs off8 y) s = State.raisesIllegal s (.vsts esz ga gs off8 y)) ∧
    (scope.toNat < 6 → (ord = 2 ∨ ord = 4) → sz.toNat < 2 → (baseOff s ga off7 n).toNat % n = 0 →
      ∀ r, r = v.access .store (baseOff s ga off7 n) n → StopRule s (.stl gd ga scope ord off7 y sz) r ∧
        ∀ ss, r = .ok ss → StoreRule s v (.stl gd ga scope ord off7 y sz) (baseOff s ga off7 n) ss (natBytes n (s.g (g3 gd)).toNat) sig ord.toNat
          scope.toNat) ∧
    ((6 ≤ scope.toNat ∨ (ord ≠ 2 ∧ ord ≠ 4) ∨ 2 ≤ sz.toNat ∨ (baseOff s ga off7 n).toNat % n ≠ 0) →
      exec (.stl gd ga scope ord off7 y sz) s = State.raisesIllegal s (.stl gd ga scope ord off7 y sz)) ∧
    (scope.toNat < 6 → (ord = 0 ∨ ord = 2) → (baseOff s ga off7 row).toNat % row = 0 → ∀ r, r = v.access .amo (baseOff s ga off7 row) row →
      StopRule s (.vradd rsz ty ga scope ord off7 y sat) r ∧
      ∀ ss, r = .ok ss →
        (∀ es rest, es.length = max 1 (row / 128) → QueueHeads v 14 es rest →
          exec (.vradd rsz ty ga scope ord off7 y sat) s = .next (orderedOp (v.withQueue 14 rest) (baseOff s ga off7 row)
            (.vradd ss (if ty = 0 then 2 else 4) ((es.flatMap fun e => entryBytes e.data).take row) (sat == 1)) .none sig ord.toNat
            scope.toNat).retired) ∧
        (QueueShort v 14 (max 1 (row / 128)) → exec (.vradd rsz ty ga scope ord off7 y sat) s = s.waits 3)) ∧
    ((6 ≤ scope.toNat ∨ (ord ≠ 0 ∧ ord ≠ 2) ∨ (baseOff s ga off7 row).toNat % row ≠ 0) →
      exec (.vradd rsz ty ga scope ord off7 y sat) s = State.raisesIllegal s (.vradd rsz ty ga scope ord off7 y sat))

/-- R326-R328: atomics, issued. R326: the values of the atomics on `w` bits, the old value `m` in memory and the operand `x`. -/
def Obligations.Atomics : Prop :=
  (∀ (s v : State) (gd scope ord : BitVec 3) (ga gs : BitVec 5) (y sz : BitVec 2) (sig : Option Nat) (n : Nat), Fresh s → s.cur = .s →
      Written s [ga, gs, g3 gd] → scope.toNat < 6 → ord.toNat < 5 → sz.toNat < 2 → n = 8 / 2 ^ sz.toNat → s.syncTake y = .ok (v, sig) →
      AtomicRule s v (.amoadd gd ga scope ord gs y sz) .add gd ga gs scope ord n sig ∧
      AtomicRule s v (.amomin gd ga scope ord gs 0 y sz) .min gd ga gs scope ord n sig ∧
      AtomicRule s v (.amomin gd ga scope ord gs 1 y sz) .minu gd ga gs scope ord n sig ∧
      AtomicRule s v (.amomax gd ga scope ord gs 0 y sz) .max gd ga gs scope ord n sig ∧
      AtomicRule s v (.amomax gd ga scope ord gs 1 y sz) .maxu gd ga gs scope ord n sig ∧
      AtomicRule s v (.amoand gd ga scope ord gs y sz) .and gd ga gs scope ord n sig ∧
      AtomicRule s v (.amoor gd ga scope ord gs y sz) .or gd ga gs scope ord n sig ∧
      AtomicRule s v (.amoxor gd ga scope ord gs y sz) .xor gd ga gs scope ord n sig ∧
      AtomicRule s v (.amoswp gd ga scope ord gs y sz) .swp gd ga gs scope ord n sig ∧
      AtomicRule s v (.amocas gd ga scope ord gs y sz) .cas gd ga gs scope ord n sig) ∧
  (∀ (size m x e : Nat), size = 4 ∨ size = 8 → m < 2 ^ (8 * size) → x < 2 ^ (8 * size) → e < 2 ^ (8 * size) →
      let sgn : Nat → Int := fun v => if v < 2 ^ (8 * size - 1) then v else (v : Int) - 2 ^ (8 * size)
      AmoOp.add.apply size m x e = some ((m + x) % 2 ^ (8 * size)) ∧
      AmoOp.min.apply size m x e = some (if sgn x < sgn m then x else m) ∧
      AmoOp.max.apply size m x e = some (if sgn m < sgn x then x else m) ∧
      AmoOp.minu.apply size m x e = some (if x < m then x else m) ∧
      AmoOp.maxu.apply size m x e = some (if m < x then x else m) ∧
      AmoOp.and.apply size m x e = some (m &&& x) ∧ AmoOp.or.apply size m x e = some (m ||| x) ∧
      AmoOp.xor.apply size m x e = some (m ^^^ x) ∧ AmoOp.swp.apply size m x e = some x ∧
      AmoOp.cas.apply size m x m = some x ∧ (m ≠ e → AmoOp.cas.apply size m x e = none))

/-- R94, R263, R297: a plain load that is performed writes its register with the bytes of memory, low byte first, and retires. R94, R263, R297: a plain
store that is performed writes its bytes and retires. -/
def Obligations.OperationsPerformed : Prop :=
  (∀ (s v : State) (o : MemOp) (ss : List Span) (bs d : List Byte) (key size : Nat) (signed : Bool), PlainOp s o → o.act = .load ss →
      o.dest = .reg key size signed → NoPeer ss → s.spansFenced ss = false → s.readSpans (s.core.whoOf o) ss = .ok (v, bs, false) →
      exec (.readResponse o.uid d) s = .next (v.modCore s.core.idx fun c => (c.setStrand o.strand ((c.strand o.strand).setKey key
          (if signed then (BitVec.ofNat (8 * size) (bytesNat (bs.take size))).signExtend 64
            else BitVec.ofNat 64 (bytesNat (bs.take size))))).retire o)) ∧
  (∀ (s v : State) (o : MemOp) (ss : List Span) (bs : List Byte), PlainOp s o → o.act = .store ss bs → o.rel = 0 → NoPeer ss →
      s.spansFenced ss = false → s.writeSpans (s.core.whoOf o) ss bs = .ok v →
      exec (.writeCompletion o.uid) s = .next (v.modCore s.core.idx fun c => c.retire o))

/-- R14, R28, R66: with no line cached, reading a run of memory past the caches gives its bytes in ascending order, and writing one changes those bytes
alone, whatever the home agents and the MSC do for it. R55, R66, R69: what one agent of a context writes to bytes of one sector, cached or not, is
what any agent of that context then reads, cached or not. -/
def Obligations.MemoryRuns : Prop :=
  (∀ (s v : State) (w : Who) (p : Span) (bs : List Byte) (bad : Bool), s.coh.tags = [] → s.coh.migs = [] → s.coh.redirects = [] →
      p.place = .mem → (p.pol = 2 ∨ 17 ≤ w.agent) → Memory.wf s.mem = true →
      (s.readSpans w [p] = .ok (v, bs, bad) → bs = cellRead s.mem p.addr p.len ∧ v.mem = s.mem ∧ v.store = s.store) ∧
      (bs.length = p.len → s.writeSpans w [p] bs = .ok v →
        ∀ a, cellGet v.mem a = if p.addr ≤ a ∧ a < p.addr + p.len then bs.getD (a - p.addr) 0 else cellGet s.mem a)) ∧
  (∀ (s v u : State) (w r : Who) (p q : Span) (bs bs' : List Byte) (bad : Bool), s.coh.tags = [] → s.coh.migs = [] → s.coh.redirects = [] →
      p.place = .mem → q.place = .mem → q.addr = p.addr → q.len = p.len → bs.length = p.len → p.addr % 32 + p.len ≤ 32 → r.ctx = w.ctx →
      Memory.wf s.mem = true → s.writeSpans w [p] bs = .ok v → v.readSpans r [q] = .ok (u, bs', bad) → bs' = bs)

/-! ### Vector words -/

/-- R240, R338-R349: the lane-wise floating-point words, in the types they admit. `rm` is the rounding mode and `sat` the saturation of `XFCTL`. R342: a
type that a word does not admit is illegal. R236: the rounded code has the magnitude that the rounding mode picks among the format's finite ones,
unless it overflows: the nearest, and the even code of two as near; or the nearest on the side that the mode and the sign give; the result is
inexact where it differs. -/
def Obligations.VectorFloatWords : Prop :=
  (∀ (s : State) (o : XOp), o.ty.toNat < 3 →
      let w := if o.ty = 0 then 32 else 16
      let F : Fmt := if o.ty = 0 then .f32 else if o.ty = 1 then .bf16 else .f16
      let rm := bitsAt s.core.xfctl 8 2
      let sat := s.core.xfctl.getLsbD 10
      XLanes s (.vadd o) o (plan2 o 0) (fun es j => F.add rm sat (opLane es 0 w j) (opLane es 1 w j)) ∧
      XLanes s (.vsub o) o (plan2 o 0) (fun es j => F.sub rm sat (opLane es 0 w j) (opLane es 1 w j)) ∧
      XLanes s (.vmul o) o (plan2 o 0) (fun es j => F.mul rm sat (opLane es 0 w j) (opLane es 1 w j)) ∧
      XLanes s (.vfma o) o (plan3 o 1) (fun es j => F.fma rm sat false false (opLane es 0 w j) (opLane es 1 w j) (opLane es 2 w j)) ∧
      XLanes s (.vfms o) o (plan3 o 1) (fun es j => F.fma rm sat false true (opLane es 0 w j) (opLane es 1 w j) (opLane es 2 w j)) ∧
      XLanes s (.vfnma o) o (plan3 o 1) (fun es j => F.fma rm sat true false (opLane es 0 w j) (opLane es 1 w j) (opLane es 2 w j)) ∧
      XLanes s (.vmin o) o (plan2 o 0) (fun es j => F.minmax false (opLane es 0 w j) (opLane es 1 w j)) ∧
      XLanes s (.vmax o) o (plan2 o 0) (fun es j => F.minmax true (opLane es 0 w j) (opLane es 1 w j)) ∧
      XLanes s (.vabs o) o (plan1 o 0) (fun es j => F.abs (opLane es 0 w j)) ∧
      XLanes s (.vneg o) o (plan1 o 0) (fun es j => F.negate (opLane es 0 w j)) ∧
      XLanes s (.vrcp o) o (plan1 o 2) (fun es j => F.unit 0 rm sat (opLane es 0 w j)) ∧
      XLanes s (.vrsq o) o (plan1 o 2) (fun es j => F.unit 1 rm sat (opLane es 0 w j)) ∧
      XLanes s (.vexp2 o) o (plan1 o 2) (fun es j => F.unit 2 rm sat (opLane es 0 w j)) ∧
      XLanes s (.vlog2 o) o (plan1 o 2) (fun es j => F.unit 3 rm sat (opLane es 0 w j)) ∧
      XLanes s (.vscalex o) o (plan2 o 1) (fun es j => F.scale rm sat (opLane es 0 w j) (opInt es 1 w j)) ∧
      (o.ty = 0 → XLanes s (.vscacc o) o (plan3 o 1) fun es j => vscaccLane rm sat (opLane es 0 32 j) (opLane es 1 32 j) (opLane es 2 32 j)) ∧
      (o.ty ≠ 0 → XIllegal s (.vscacc o))) ∧
  (∀ (s : State) (o : XOp),
      (3 ≤ o.ty.toNat → ∀ i ∈ [Instr.vadd o, .vsub o, .vmul o, .vfma o, .vfms o, .vfnma o, .vmin o, .vmax o, .vabs o, .vneg o, .vrcp o, .vrsq o,
        .vexp2 o, .vlog2 o, .vscalex o, .vscacc o], XIllegal s i) ∧
      (o.ty.toNat < 5 → ∀ i ∈ [Instr.viadd o, .visub o, .vimul o, .vimulh o, .vimin o, .vimax o, .viabs o, .vsll o, .vsrl o, .vsra o, .viota o,
        .vzp o], XIllegal s i) ∧
      (o.ty = 3 ∨ o.ty = 4 → XIllegal s (.vcmp o))) ∧
  (∀ (f : Fmt) (rm m c : Nat) (sat neg : Bool) (e : Int) (x : ℚ), f ∈ [Fmt.f32, .bf16, .f16, .e4m3, .e5m2, .e2m1] → rm < 4 → m ≠ 0 →
      x = (m : ℚ) * (2 : ℚ) ^ e → (f.round rm sat neg m e).2 &&& 4 = 0 → c = (f.round rm sat neg m e).1 - f.signBit neg →
      (f.round rm sat neg m e).1 = f.signBit neg + c ∧ c ≤ f.maxCode ∧ ((f.round rm sat neg m e).2 &&& 1 = 0 ↔ f.mag c = x) ∧
      ∀ d ≤ f.maxCode,
        (rm = 0 → |x - f.mag c| ≤ |x - f.mag d| ∧ (|x - f.mag c| = |x - f.mag d| → d ≠ c → c % 2 = 0)) ∧
        (rm = 1 ∨ (rm = 2 ∧ neg = true) ∨ (rm = 3 ∧ neg = false) → f.mag c ≤ x ∧ (f.mag d ≤ x → f.mag d ≤ f.mag c)) ∧
        ((rm = 2 ∧ neg = false) ∨ (rm = 3 ∧ neg = true) → x ≤ f.mag c ∧ (x ≤ f.mag d → f.mag c ≤ f.mag d)))

/-- R361, R362: integer arithmetic wraps, shifts take the low bits of their count, and the bitwise words take lanes of every type. R350-R353: compares,
selects and the words on masks. A mask entry holds one bit a lane, and bit i of a mask word belongs to lane i. -/
def Obligations.VectorIntegerWords : Prop :=
  (∀ (s : State) (o : XOp),
      let w := if o.ty = 0 ∨ o.ty = 5 then 32 else if o.ty = 1 ∨ o.ty = 2 ∨ o.ty = 6 then 16 else 8
      let wrap : Int → Nat := fun v => (BitVec.ofInt w v).toNat
      (5 ≤ o.ty.toNat →
        XInts s (.viadd o) o (plan2 o 0) (fun es j => wrap (opInt es 0 w j + opInt es 1 w j)) ∧
        XInts s (.visub o) o (plan2 o 0) (fun es j => wrap (opInt es 0 w j - opInt es 1 w j)) ∧
        XInts s (.vimul o) o (plan2 o 1) (fun es j => wrap (opInt es 0 w j * opInt es 1 w j)) ∧
        XInts s (.vimulh o) o (plan2 o 1) (fun es j => wrap (opInt es 0 w j * opInt es 1 w j / 2 ^ w)) ∧
        XInts s (.vimin o) o (plan2 o 0) (fun es j => if opInt es 1 w j < opInt es 0 w j then opLane es 1 w j else opLane es 0 w j) ∧
        XInts s (.vimax o) o (plan2 o 0) (fun es j => if opInt es 0 w j < opInt es 1 w j then opLane es 1 w j else opLane es 0 w j) ∧
        XInts s (.viabs o) o (plan1 o 0) (fun es j => wrap (opInt es 0 w j).natAbs) ∧
        XInts s (.vsll o) o (plan2 o 0) (fun es j => opLane es 0 w j * 2 ^ (opLane es 1 w j % w) % 2 ^ w) ∧
        XInts s (.vsrl o) o (plan2 o 0) (fun es j => opLane es 0 w j / 2 ^ (opLane es 1 w j % w)) ∧
        XInts s (.vsra o) o (plan2 o 0) (fun es j => wrap (opInt es 0 w j / 2 ^ (opLane es 1 w j % w)))) ∧
      XInts s (.vand o) o (plan2 o 0) (fun es j => opLane es 0 w j &&& opLane es 1 w j) ∧
      XInts s (.vor o) o (plan2 o 0) (fun es j => opLane es 0 w j ||| opLane es 1 w j) ∧
      XInts s (.vxor o) o (plan2 o 0) (fun es j => opLane es 0 w j ^^^ opLane es 1 w j)) ∧
  (∀ (s : State) (o : XOp),
      let w := tyWidth o.ty
      let n := 1024 / w
      let bits : (Nat → Bool) → Entry := fun f => BitVec.ofNat 1024 (((List.range n).map fun i => if f i then 2 ^ i else 0).sum)
      let logic : Entry → Entry → (Nat → Bool) → Entry := fun en base f =>
        BitVec.ofNat 1024 (((List.range n).map fun i => if (if en.getLsbD i then f i else base.getLsbD i) then 2 ^ i else 0).sum)
      let set : Entry → List Entry → List Nat := fun en es => (List.range n).filter fun i => en.getLsbD i && (es.getD 0 0).getLsbD i
      (5 ≤ o.ty.toNat → XWhole s (.vcmp o) o { plan2 o 0 with masked := false, merge := false, w := 1 } fun _ es =>
        bits fun i => match o.m.toNat with
          | 0 => opInt es 0 w i == opInt es 1 w i
          | 1 => opInt es 0 w i != opInt es 1 w i
          | 2 => decide (opInt es 0 w i < opInt es 1 w i)
          | 3 => decide (opInt es 0 w i ≤ opInt es 1 w i)
          | 4 => decide (opInt es 1 w i < opInt es 0 w i)
          | 5 => decide (opInt es 1 w i ≤ opInt es 0 w i)
          | 6 => decide (opLane es 0 w i < opLane es 1 w i)
          | _ => decide (opLane es 1 w i ≤ opLane es 0 w i)) ∧
      (o.ty.toNat < 3 → ∀ F, F = tyFmt o.ty → XParts s (.vcmp o) o { plan2 o 0 with masked := false, merge := false, w := 1 } fun _ _ es =>
        ([bits fun i => (F.compare o.m.toNat (opLane es 0 w i) (opLane es 1 w i)).1],
          (List.range n).foldl (fun a i => a ||| (F.compare o.m.toNat (opLane es 0 w i) (opLane es 1 w i)).2) 0)) ∧
      (o.m = 0 → XIllegal s (.vsel o)) ∧
      (o.m ≠ 0 → XWhole s (.vsel o) o { plan2 o 0 with merge := false } fun en es =>
        entryOfLanes w ((List.range n).map fun i => opLane es (if en.getLsbD i then 0 else 1) w i)) ∧
      XParts s (.vmand o) o { plan2 o 0 with w := 1 } (fun en base es =>
        ([logic en base fun i => (es.getD 0 0).getLsbD i && (es.getD 1 0).getLsbD i], 0)) ∧
      XParts s (.vmor o) o { plan2 o 0 with w := 1 } (fun en base es =>
        ([logic en base fun i => (es.getD 0 0).getLsbD i || (es.getD 1 0).getLsbD i], 0)) ∧
      XParts s (.vmxor o) o { plan2 o 0 with w := 1 } (fun en base es =>
        ([logic en base fun i => (es.getD 0 0).getLsbD i != (es.getD 1 0).getLsbD i], 0)) ∧
      XParts s (.vmnot o) o { plan1 o 0 with w := 1 } (fun en base es => ([logic en base fun i => !(es.getD 0 0).getLsbD i], 0)) ∧
      (5 ≤ o.ty.toNat → XInts s (.viota o) o (plan1 o 0) fun es j => ((List.range j).filter fun i => (es.getD 0 0).getLsbD i).length % 2 ^ w) ∧
      XWhole s (.vmpop o) o (planXq (plan1 o 0)) (fun en es => BitVec.ofNat 1024 (set en es).length) ∧
      XWhole s (.vmfirst o) o (planXq (plan1 o 0)) (fun en es => BitVec.ofNat 1024 ((set en es).headD (2 ^ 64 - 1))))

/-- R354-R357: conversions. The narrow part of an entry is replaced, or the wide elements of one part are made, and the rest is as the rules say; a part
or a format that the types do not have is illegal. R358: an integer reduction fills every lane with the sum (wrapped), the greatest or the least of
the enabled lanes, and a floating-point one with the result of the tree that the rule gives. -/
def Obligations.VectorConversions : Prop :=
  (∀ (s : State) (o : XOp),
      let w := tyWidth o.ty
      let part := o.m.toNat
      let wide : Nat → (Nat → FRes) → Nat → List Entry → List Entry × Nat := fun ws f r es =>
        let n := 1024 / r
        ([entryOfLanes r ((List.range n).map fun i => (f (opLane es 0 ws (part * n + i))).1)],
          (List.range n).foldl (fun a i => a ||| (f (opLane es 0 ws (part * n + i))).2) 0)
      let narrow : Nat → (Nat → FRes) → Nat → List Entry → List Entry × Nat := fun ws f r es =>
        let n := 1024 / ws
        ([entryOfLanes r ((List.range (1024 / r)).map fun i => if i / n = part then (f (opLane es 0 ws (i % n))).1 else opLane es 1 r i)],
          (List.range n).foldl (fun a i => a ||| (f (opLane es 0 ws i)).2) 0)
      let wideForm : Nat → XPlan := fun ws =>
        { reads := [(o.va.toNat, o.pa == 1, ws)], masked := false, merge := false, vd := o.vd.toNat, w := w, pushes := 1, latMin := 1 }
      let narrowForm : Nat → Nat → XPlan := fun ws r =>
        { reads := if o.m = 0 then [(o.va.toNat, o.pa == 1, ws)] else [(o.va.toNat, o.pa == 1, ws), (o.vd.toNat, false, r)]
          masked := false, merge := false, vd := o.vd.toNat, w := r, pushes := 1, latMin := 1 }
      (∀ sty satInt ws, cvtSource o.vb = some (sty, satInt) → ws = tyWidth sty →
        ∀ f : Nat → FRes, f = cvtElem sty o.ty satInt s.core.rm s.core.sat →
        ((satInt = true → 5 ≤ o.ty.toNat ∧ w < ws) →
          (ws < w → part < w / ws → XParts s (.vcvt o) o (wideForm ws) fun _ _ es => wide ws f w es) ∧
          (w ≤ ws → part < ws / w → XParts s (.vcvt o) o (narrowForm ws w) fun _ _ es => narrow ws f w es)) ∧
        ((satInt = true ∧ ¬(5 ≤ o.ty.toNat ∧ w < ws)) ∨ (if ws < w then w / ws else ws / w) ≤ part → XIllegal s (.vcvt o))) ∧
      (cvtSource o.vb = none → XIllegal s (.vcvt o)) ∧
      (∀ fmt r, fmt = o.vb.toNat → r = (if fmt = 2 ∨ fmt = 4 then 8 else 4) →
        (fmt < 5 → (fmt = 0 ↔ o.ty.toNat < 5) → part < w / r →
          XParts s (.vpack o) o (narrowForm w r) fun _ _ es => narrow w (packElem fmt o.ty s.core.rm) r es) ∧
        ((5 ≤ fmt ∨ ¬(fmt = 0 ↔ o.ty.toNat < 5) ∨ w / r ≤ part) → XIllegal s (.vpack o))) ∧
      (∀ fmt ws, fmt = o.vb.toNat → ws = (if fmt = 2 then 8 else 4) →
        (fmt < 3 → (fmt = 0 ↔ o.ty.toNat < 5) → (fmt = 2 → o.ty ≠ 7) → part < w / ws →
          XParts s (.vunpk o) o (wideForm ws) fun _ _ es => wide ws (unpackElem fmt o.ty) w es) ∧
        ((3 ≤ fmt ∨ ¬(fmt = 0 ↔ o.ty.toNat < 5) ∨ (fmt = 2 ∧ o.ty = 7) ∨ w / ws ≤ part) → XIllegal s (.vunpk o))) ∧
      (∀ cw blk wr clamp pushes, (o.ty, cw, blk, wr, clamp, pushes) ∈
          [((7 : BitVec 3), 4, 8, 8, false, 2), (6, 8, 32, 16, false, 2), (5, 8, 32, 8, true, 1)] →
        XParts s (.vzp o) o
          { reads := [(o.va.toNat, o.pa == 1, cw), (o.vb.toNat, o.pb == 1, cw)], masked := true, merge := true, vd := o.vd.toNat
            w := wr, pushes := pushes, latMin := 1 } fun en base es =>
          ((List.range pushes).map fun k => entryOfLanes wr ((List.range (1024 / wr)).map fun i =>
            if en.getLsbD (1024 / wr * k + i) then
              (let d : Int := (opLane es 0 cw (1024 / wr * k + i) : Int) - opLane es 1 cw ((1024 / wr * k + i) / blk)
               (BitVec.ofInt wr (if clamp then max (-128) (min 127 d) else d)).toNat)
            else lane base wr i), 0))) ∧
  (∀ (s : State) (o : XOp),
      let w := tyWidth o.ty
      let n := 1024 / w
      let vs : Entry → List Entry → List Int := fun en es => ((List.range n).filter fun i => en.getLsbD i).map fun i => opInt es 0 w i
      let fill : Nat → Entry := fun v => entryOfLanes w (List.replicate n v)
      (o.ma = 1 → XIllegal s (.vredadd o) ∧ XIllegal s (.vredmax o) ∧ XIllegal s (.vredmin o)) ∧
      (5 ≤ o.ty.toNat → o.ma = 0 →
        XWhole s (.vredadd o) o { plan1 o 2 with merge := false } (fun en es => fill (BitVec.ofInt w (vs en es).sum).toNat) ∧
        XWhole s (.vredmax o) o { plan1 o 2 with merge := false } (fun en es => fill (BitVec.ofInt w ((vs en es).foldl max (-(2 ^ (w - 1))))).toNat) ∧
        XWhole s (.vredmin o) o { plan1 o 2 with merge := false } (fun en es => fill (BitVec.ofInt w ((vs en es).foldl min (2 ^ (w - 1) - 1))).toNat)) ∧
      (o.ty.toNat < 5 → o.ma = 0 → ∀ p ∈ [(0, Instr.vredadd o), (1, Instr.vredmax o), (2, Instr.vredmin o)],
        XParts s p.2 o { plan1 o 2 with merge := false } fun en _ es =>
          let r := (tyFmt o.ty).reduce p.1 s.core.rm s.core.sat ((List.range n).map fun i => if en.getLsbD i then some (opLane es 0 w i) else none)
          ([fill r.1], r.2)))

/-- R261, R359, R360, R363: moves and permutes read lane zero outside the entry, `VCLR` empties its register, `VXTR` sends one lane to `XQ`. R256, R422:
an empty v register raises `QUNF` and a full one `QOVF`, each with the register as its value; an empty or full queue waits. R258: the results that
are due land before a word of X, or a bundle, issues. -/
def Obligations.VectorMoves : Prop :=
  (∀ (s : State) (o : XOp),
      let w := tyWidth o.ty
      let n := 1024 / w
      XInts s (.vperm o) o (plan2 o 1) (fun es i => if opLane es 1 w i < n then opLane es 0 w (opLane es 1 w i) else 0) ∧
      XInts s (.vslide o) o (plan2 o 0) (fun es i =>
        let j : Int := i + opInt es 1 w 0
        if 0 ≤ j ∧ j < n then opLane es 0 w j.toNat else 0) ∧
      XInts s (.vbcast o) o (plan2 o 0) (fun es _ => if opLane es 1 w 0 < n then opLane es 0 w (opLane es 1 w 0) else 0) ∧
      XInts s (.vmov o) o (plan1 o 0) (fun es i => opLane es 0 w i) ∧
      XWhole s (.vxtr o) o { planXq (plan2 o 1) with masked := false } (fun _ es =>
        let v := if opLane es 1 w 0 < n then opLane es 0 w (opLane es 1 w 0) else 0
        if 5 ≤ o.ty.toNat then ((BitVec.ofNat w v).signExtend 64).setWidth 1024 else BitVec.ofNat 1024 v) ∧
      ((Instr.vclr o).fieldsOk = true → ∀ t, t = s.landForIssue → Fresh t → t.cur = .x →
        (o.ty = 0 → o.vd.toNat < 12 → ∀ v sig, t.syncTake o.sync = .ok (v, sig) →
          ((sig ≠ none → Quiet v) → exec (.vclr o) s = .next (({ v with core := v.core.setQueue o.vd.toNat [] } : State).flightPush o.vd.toNat
            (v.core.xIssue + 2) [] 0 sig.isSome).retired) ∧
          (sig ≠ none → ¬Quiet v → exec (.vclr o) s = t.waits outside)) ∧
        ((o.ty ≠ 0 ∨ 12 ≤ o.vd.toNat) → exec (.vclr o) s = State.raisesIllegal t (.vclr o)))) ∧
  (∀ (s : State) (o : XOp), Fresh s → s.cur = .x → o.sync = 0 → o.m = 0 → o.ma = 0 → o.vb = 0 → o.pb = 0 → usesBad (plan1 o 0) = false →
      (o.va.toNat < 12 → (s.core.fifo.map List.length).getD o.va.toNat 0 = 0 →
        exec (.vmov o) s = .next (s.trapStop s.cur 5 0 (BitVec.ofNat 64 o.va.toNat))) ∧
      (o.va ≠ o.vd → o.vd.toNat < 12 → 0 < (s.core.fifo.map List.length).getD o.va.toNat 0 →
        2 ≤ (s.core.fifo.map List.length).getD o.vd.toNat 0 → exec (.vmov o) s = .next (s.trapStop s.cur 4 0 (BitVec.ofNat 64 o.vd.toNat))) ∧
      (o.vd = 14 → 12 ≤ o.va.toNat → (s.core.fifo.map List.length).getD o.va.toNat 0 = 0 →
        exec (.vmov o) s = .next (s.modMe fun t => { t with wait := 3 })) ∧
      (o.vd = 14 → 0 < (s.core.fifo.map List.length).getD o.va.toNat 0 → 8 ≤ (s.core.fifo.map List.length).getD 14 0 →
        exec (.vmov o) s = .next (s.modMe fun t => { t with wait := 4 }))) ∧
  (∀ (s : State) (i : Instr) (sem : Sem), s.me.stage ≠ tested → issue i sem s = issue i sem s.landForIssue ∧ Landed s.landForIssue)

/-! ### Traps and system words -/

/-- R416-R420: taking a trap on a core at `TL` 0 or 1 whose `TVEC` is not null and that has nothing left to land. R263, R416: a trap waits until what L,
X and S have issued has landed; what is performed meanwhile ends the context where it fails. R419: a trap at `TL` 2 or with a null `TVEC` ends the
context instead. -/
def Obligations.TrapEntry : Prop :=
  (∀ (s : State) (σ : StrandId) (cause detail : Nat) (val : Word), Still s → s.core.tl < 2 → s.core.tvec.toNat / 2 ^ 52 ≠ 0 → s.core.task.isSome →
      TrapEntered s.core (s.trapStop σ cause detail val).core σ cause detail val ∧
      (s.trapStop σ cause detail val).core.split = s.core.split ∧ (s.trapStop σ cause detail val).core.l.g = s.core.l.g ∧
      (s.trapStop σ cause detail val).core.k.g = s.core.k.g ∧ (s.trapStop σ cause detail val).core.k.win = s.core.k.win ∧
      (s.trapStop σ cause detail val).core.fifo = s.core.fifo) ∧
  (∀ (s t : State) (σ : StrandId) (cause detail : Nat) (val : Word),
      ((s.landCore s.core.idx Core.landAll).drainCore s.core.idx = (t, none) →
        (t.core.landed = false → s.trapStop σ cause detail val = t.modStrand σ fun u => { u with wait := landing }) ∧
        (t.core.landed = true →
          s.trapStop σ cause detail val = (t.modStrand σ fun u => { u with wait := 0 }).takeTrap σ cause detail val)) ∧
      (∀ code v, (s.landCore s.core.idx Core.landAll).drainCore s.core.idx = (t, some (code, v)) →
        s.trapStop σ cause detail val = t.fatalError t.core.view.ctx (.strand t.core.idx σ) code v 0)) ∧
  (∀ (s : State) (σ : StrandId) (cause detail : Nat) (val : Word), Still s → (2 ≤ s.core.tl ∨ s.core.tvec.toNat / 2 ^ 52 = 0) →
      ∃ t : State, t = (s.modStrand σ fun u => { u with wait := 0 }) ∧ s.trapStop σ cause detail val =
        t.fatalError s.core.view.ctx (.strand s.core.idx σ) 0x86 val (cause % 256 + detail % 1024 * 2 ^ 8 + σ.num * 2 ^ 18))

/-- R396, R397, R415: `TRAP` and `DBG` complete and then trap past themselves with causes 0x0C and 0x0F; a break under a debug module halts. R31, R397,
R421: `TRET` goes back to the addresses and the modes that the level's registers hold; after a probe fault the translation array is loaded again
first, and an invalid one ends the context. -/
def Obligations.TrapWords : Prop :=
  (∀ (s : State) (ra : BitVec 5) (n : BitVec 10), Fresh s → Still s → s.cur = .k →
      (Written s [ra] → exec (.trap ra n) s = .next (s.retired.takeTrap s.cur 0x0C n.toNat (s.g ra))) ∧
      ((s.debugged s.core = false ∨ (s.reg (debugBase s.core.cluster)).getLsbD (35 + s.core.idx % 8) = false) →
        exec (.dbg n) s = .next (s.retired.takeTrap s.cur 0x0F n.toNat 0)) ∧
      (s.debugged s.core = true → (s.reg (debugBase s.core.cluster)).getLsbD (35 + s.core.idx % 8) = true →
        exec (.dbg n) s = .next (s.haltCluster s.core.cluster 2).retired)) ∧
  (∀ (s : State), Fresh s → s.cur = .k → ∀ b, b = s.core.bank s.core.tl →
      (s.core.tl = 0 → exec .tret s = State.raisesIllegal s .tret) ∧
      (s.core.tl ≠ 0 → b.ok = false → exec .tret s = State.raisesIllegal s .tret) ∧
      (∀ v, s.core.tl ≠ 0 → b.ok = true → (b.cause.toNat % 256 ≠ 7 ∧ v = s ∨ b.cause.toNat % 256 = 7 ∧ s.arrayAgain = .ok v) →
        ∃ t : State, exec .tret s = .next t ∧ t.core.tl = s.core.tl - 1 ∧ t.core.split = b.pck.getLsbD 0 ∧
          t.core.l.pc = b.pcl &&& ~~~3 ∧ t.core.x.pc = b.pcx &&& ~~~3 ∧ t.core.s.pc = b.pcs &&& ~~~3 ∧ t.core.k.pc = b.pck &&& ~~~3 ∧
          t.core.l.parked = b.pcl.getLsbD 0 ∧ t.core.x.parked = b.pcx.getLsbD 0 ∧ t.core.s.parked = b.pcs.getLsbD 0 ∧
          t.core.k.g = v.core.k.g ∧ t.core.l.g = v.core.l.g ∧ t.core.fifo = v.core.fifo ∧ t.core.trapen = v.core.trapen ∧
          t.core.view = v.core.view ∧ t.core.lttCrc = v.core.lttCrc) ∧
      (∀ w, s.core.tl ≠ 0 → b.ok = true → b.cause.toNat % 256 = 7 → s.arrayAgain = .error w → exec .tret s = s.raisesFatal 0x80 w))

/-- R398, R399, R40-R42: reads of context registers; pager requests, takes and replies. -/
def Obligations.SupervisorCalls : Prop :=
  ∀ (s : State) (rd ra : BitVec 5), Fresh s → s.cur = .k → Written s [rd, ra] →
    let b := ctxBase s.core.view.ctx
    let seq := if s.core.pagerSeq = 0xFFFF then 1 else s.core.pagerSeq + 1
    (s.g ra = 0 → exec (.syscReadContext rd ra) s = .next (s.setG rd (s.reg (b + 0x30))).retired) ∧
    (s.g ra = 1 → exec (.syscReadContext rd ra) s = .next (s.setG rd (s.reg (b + 0x38))).retired) ∧
    (∀ n < 32, s.g ra = BitVec.ofNat 64 (0x100 + n) →
      exec (.syscReadContext rd ra) s = .next (s.setG rd (s.reg (b + 0x200 + 8 * n))).retired) ∧
    (∀ n < 32, s.g ra = BitVec.ofNat 64 (0x200 + n) →
      exec (.syscReadContext rd ra) s = .next ((s.setFld (b + 0x200 + 8 * n) 63 1 0).setG rd (s.reg (b + 0x200 + 8 * n))).retired) ∧
    (2 ≤ (s.g ra).toNat → (s.g ra).toNat / 32 ≠ 8 → (s.g ra).toNat / 32 ≠ 16 →
      exec (.syscReadContext rd ra) s = State.raisesIllegal s (.syscReadContext rd ra)) ∧
    ((s.core.tl = 0 ∨ (s.core.bank s.core.tl).cause.toNat % 256 ≠ 7) →
      exec (.syscPagerRequest rd) s = State.raisesIllegal s (.syscPagerRequest rd)) ∧
    (s.core.tl ≠ 0 → (s.core.bank s.core.tl).cause.toNat % 256 = 7 →
      (∀ out, s.core.pagerOut = some out →
        exec (.syscPagerRequest rd) s = .next ((s.onCore (s.core.selfReply 4 out.2 0)).setG rd 0).retired) ∧
      (s.core.pagerOut = none → 1024 ≤ (if s.pagerToHost then s.lm.hostq else s.lm.pagerq).length →
        exec (.syscPagerRequest rd) s = .next ((s.onCore (s.core.selfReply 3 s.core.pagerSeq 1024)).setG rd 0).retired) ∧
      (s.core.pagerOut = none → s.pagerToHost = false → s.lm.pagerq.length < 1024 →
        exec (.syscPagerRequest rd) s = .next (((s.onCore (s.core.asked seq)).withPagerq (s.lm.pagerq ++ [s.pagerMessage seq])).setG rd
          (BitVec.ofNat 64 seq)).retired) ∧
      (s.core.pagerOut = none → s.pagerToHost = true → s.lm.hostq.length < 1024 →
        exec (.syscPagerRequest rd) s = .next ((((s.onCore (s.core.asked seq)).withHostq (s.lm.hostq ++ [s.pagerMessage seq])).interrupt 2).setG rd
          (BitVec.ofNat 64 seq)).retired)) ∧
    (s.isPager = false → exec (.syscPagerTake rd ra) s = State.raisesIllegal s (.syscPagerTake rd ra) ∧
      exec (.syscPagerReply rd ra) s = State.raisesIllegal s (.syscPagerReply rd ra)) ∧
    (s.isPager = true → (s.g ra).toNat % 32 ≠ 0 → exec (.syscPagerTake rd ra) s = State.raisesIllegal s (.syscPagerTake rd ra)) ∧
    (s.isPager = true → (s.g ra).toNat % 32 = 0 → ∀ r, r = s.access .store (s.g ra) 32 → StopRule s (.syscPagerTake rd ra) r ∧
      ∀ ss, r = .ok ss →
        (s.lm.pagerq = [] → exec (.syscPagerTake rd ra) s = s.waits outside) ∧
        (∀ m ms, s.lm.pagerq = m :: ms → ∀ w, w = s.issueStore (s.g ra) ss (wordsBytes m) none 0 0 → StopRule s (.syscPagerTake rd ra) w ∧
          ∀ v, w = .ok v → exec (.syscPagerTake rd ra) s = .next (((v.onCore { v.core with
            pagerHeld := v.core.pagerHeld ++ [(bitsAt (m.getD 0 0) 31 11, bitsAt (m.getD 0 0) 48 16)] }).withPagerq ms).setG rd 1).retired)) ∧
    (s.isPager = true →
      let st := bitsAt (s.g ra) 28 3
      let ok := (st = 1 ∨ st = 2) ∧ bitsAt (s.g ra) 0 28 = 0 ∨ st = 3
      (¬ok → exec (.syscPagerReply rd ra) s = State.raisesIllegal s (.syscPagerReply rd ra)) ∧
      (ok → ¬Quiet s → exec (.syscPagerReply rd ra) s = s.waits outside) ∧
      (ok → Quiet s → s.drainedNow s.core.idx 5 = false → exec (.syscPagerReply rd ra) s = s.waits outside) ∧
      (ok → Quiet s → s.drainedNow s.core.idx 5 = true → ∀ v, v = (s.widenPins s.core.idx 5).deliverReply (some s.core.idx) (s.g ra) →
        exec (.syscPagerReply rd ra) s = .next ((v.onCore { v.core with
          pagerHeld := v.core.pagerHeld.filter (· ≠ (bitsAt (s.g ra) 31 11, bitsAt (s.g ra) 48 16)) }).setG rd 0).retired))

/-- R24, R400, R401: `MFS` and `MTS` act on device registers in supervisor mode and raise `PRIV` otherwise; `LDD` and `STD` act on the registers that
a region 0x8 page maps. A write that ends the writer's own task leaves what the end left. -/
def Obligations.DeviceRegisters : Prop :=
  ∀ (s : State) (rd ra rb : BitVec 5) (off : BitVec 10), Fresh s →
    let a := s.g ra + BitVec.ofNat 64 (8 * off.toNat)
    (s.cur = .k → s.sup = false → exec (.mfs rd ra off) s = State.raisesPriv s (.mfs rd ra off) ∧
      exec (.mts ra rb off) s = State.raisesPriv s (.mts ra rb off)) ∧
    (s.cur = .k → s.sup = true → Written s [rd, ra, rb] → (s.g ra).toNat / 2 ^ 52 = 0 → a.toNat / 2 ^ 48 % 16 = 8 → a.toNat % 8 = 0 →
      exec (.mfs rd ra off) s = .next (s.setG rd (s.devRead (a.toNat % 2 ^ 48))).retired ∧
      WritesDevice s (.mts ra rb off) (s.devWrite (a.toNat % 2 ^ 48) (s.g rb)) none) ∧
    (s.cur = .k → s.sup = true → Written s [rd, ra, rb] → ((s.g ra).toNat / 2 ^ 52 ≠ 0 ∨ a.toNat / 2 ^ 48 % 16 ≠ 8 ∨ a.toNat % 8 ≠ 0) →
      exec (.mfs rd ra off) s = State.raisesIllegal s (.mfs rd ra off) ∧ exec (.mts ra rb off) s = State.raisesIllegal s (.mts ra rb off)) ∧
    (∀ (v : State) (y : BitVec 2) (sig : Option Nat) (o : BitVec 13) (ss : List Span) (d : Nat), Written s [ra, rd] →
      s.syncTake y = .ok (v, sig) → devSpan ss = some d → v.core.task.isSome →
      (v.access .loadD (baseOff s ra o 8) 8 = .ok ss → exec (.ldd rd ra y o) s = .next ((v.setG rd (v.devRead d)).signalAfter sig).retired) ∧
      (v.access .storeD (baseOff s ra o 8) 8 = .ok ss → WritesDevice s (.std rd ra y o) (v.devWrite d (s.g rd)) sig))

/-- R395, R402-R404, R412-R414: a yield asks for the core, an end ends the task once its core is drained, a launch appends a descriptor, `QTZR`
reads or awaits the time, `LTTLD` binds a translation array. -/
def Obligations.TaskWords : Prop :=
  ∀ (s : State) (rd ra rb q : BitVec 5), Fresh s → s.cur = .k →
    (s.core.specst.getLsbD 0 = true → ∀ i ∈ [Instr.tend, .lnch rd ra q], exec i s = .next (s.trapStop s.cur 8 0 s.core.specst)) ∧
    (s.isPager = true → exec .yield s = State.raisesIllegal s .yield) ∧
    (s.isPager = false → s.core.specst.getLsbD 0 = true → exec .yield s = .next (s.trapStop s.cur 8 0 s.core.specst)) ∧
    (s.core.specst.getLsbD 0 = false →
      (s.isPager = false → exec .yield s =
        .next ({ s with core := { s.core with preempt := if s.core.preempt = 0 then 5 else s.core.preempt } } : State).retired) ∧
      let parked := s.core.split = true → s.core.tl = 0 → s.core.l.parked = true ∧ s.core.x.parked = true ∧ s.core.s.parked = true
      (¬parked → exec .tend s = s.waits 7) ∧
      (parked → s.endDrained s.core.idx = true → exec .tend s = .next (s.endTask s.core.idx)) ∧
      (parked → s.endDrained s.core.idx = false → exec .tend s = .next (s.modMe fun t => { t with stage := 1, wait := outside })) ∧
      (Written s [rd, ra] → (s.g ra).toNat % 256 ≠ 0 → exec (.lnch rd ra q) s = State.raisesIllegal s (.lnch rd ra q)) ∧
      (Written s [rd, ra] → (s.g ra).toNat % 256 = 0 → ∀ r, r = s.access .load (s.g ra) 256 → StopRule s (.lnch rd ra q) r ∧
        ∀ ss, r = .ok ss →
          (s.sup = false → (s.reg (lqReg s.core.view.ctx q.toNat)).getLsbD 61 = true → exec (.lnch rd ra q) s = .next (s.setG rd 0x32).retired) ∧
          ((s.sup = true ∨ (s.reg (lqReg s.core.view.ctx q.toNat)).getLsbD 61 = false) →
            (¬(Quiet s ∧ s.drainedNow s.core.idx 3 = true) → exec (.lnch rd ra q) s = s.waits outside) ∧
            (Quiet s → s.drainedNow s.core.idx 3 = true → ∀ r, r = (s.widenPins s.core.idx 3).readNow (s.g ra) ss →
              StopRule s (.lnch rd ra q) r ∧
              ∀ v d, r = .ok (v, d) → ∀ r, r = v.appendLaunch q.toNat d → StopRule s (.lnch rd ra q) r ∧
                ∀ u w, r = .ok (u, w) → exec (.lnch rd ra q) s = .next (u.setG rd w).retired)))) ∧
    (Written s [rd] → exec (.qtzr rd) s = .next (s.setG rd s.quartz).retired) ∧
    (Written s [rd, ra] → (s.g ra).toNat ≤ s.quartz.toNat → exec (.qtzrUntil rd ra) s = .next (s.setG rd s.quartz).retired) ∧
    (Written s [rd, ra] → s.quartz.toNat < (s.g ra).toNat → exec (.qtzrUntil rd ra) s = s.waits outside) ∧
    (s.sup = false → exec (.lttld rd ra rb) s = State.raisesPriv s (.lttld rd ra rb)) ∧
    (∀ base n ok, base = (s.g ra).toNat → n = bitsAt (s.g rb) 0 13 →
      ok = (base % 16 = 0 ∧ base < 4 * 2 ^ 48 ∧ bitsAt (s.g rb) 13 33 = 0 ∧ 1 ≤ n ∧ n ≤ 4096) → s.sup = true → Written s [rd, ra, rb] →
      (¬ok → exec (.lttld rd ra rb) s = State.raisesIllegal s (.lttld rd ra rb)) ∧
      (ok → ¬Quiet s → exec (.lttld rd ra rb) s = s.waits outside) ∧
      (ok → Quiet s → s.poisoned base (16 * n) = true → exec (.lttld rd ra rb) s = s.raisesFatal 0x84 (s.g ra)) ∧
      (ok → Quiet s → s.poisoned base (16 * n) = false →
        (∀ es, s.loadImage base n = .ok es → ∀ r, r = s.bindImage (bitsAt (s.g rb) 58 6) (bitsAt (s.g rb) 46 12) base n →
          exec (.lttld rd ra rb) s = .next (r.1.setG rd r.2).retired) ∧
        (∀ i, s.loadImage base n = .error i →
          exec (.lttld rd ra rb) s = .next (s.setG rd (BitVec.ofNat 64 (0x50 + 2 ^ 16 * i))).retired)))

/-- R365-R374, R220: `JCMD` opens a job and appends its words, `JEND` accepts it, and the words that wait, poll and pop retire completions; a completion
that is a schedule miss traps, or runs the task anew. R385-R387: rings. A definition sets the configuration and empties the ring; an advance moves
the tail; a ring of another context reads zero. -/
def Obligations.JobAndRingWords : Prop :=
  (∀ (s : State) (rd ra rb : BitVec 5) (eng tok : BitVec 2) (two stat : BitVec 1), s.me.stage = 0 → Landed s → s.cur = .k →
      let ws := s.g ra :: (if two = 1 then [s.g rb] else [])
      (eng.toNat < 2 → (two = 0 → rb = 0) → (Written s [ra] ∧ (two = 1 → Written s [rb])) →
        (s.core.openJob = none → s.unretired eng.toNat < 16 →
          (s.entriesTaken s.core.cluster eng.toNat < 32 → exec (.jcmd ra rb eng two) s = .next (s.withOpenJob
            { eng := eng.toNat, words := ws, level := s.core.tl, issued := 0 }).retired) ∧
          (32 ≤ s.entriesTaken s.core.cluster eng.toNat → exec (.jcmd ra rb eng two) s = s.waits outside)) ∧
        (s.core.openJob = none → 16 ≤ s.unretired eng.toNat → exec (.jcmd ra rb eng two) s = State.raisesIllegal s (.jcmd ra rb eng two)) ∧
        (∀ o, s.core.openJob = some o →
          (o.eng = eng.toNat → s.core.tl ≤ o.level → o.words.length + ws.length ≤ 256 →
            exec (.jcmd ra rb eng two) s = .next (s.withOpenJob { o with words := o.words ++ ws }).retired) ∧
          ((o.eng ≠ eng.toNat ∨ o.level < s.core.tl ∨ 256 < o.words.length + ws.length) →
            exec (.jcmd ra rb eng two) s = State.raisesIllegal s (.jcmd ra rb eng two)))) ∧
      ((2 ≤ eng.toNat ∨ (two = 0 ∧ rb ≠ 0)) → exec (.jcmd ra rb eng two) s = State.raisesIllegal s (.jcmd ra rb eng two)) ∧
      (∀ o, s.core.openJob = some o → s.core.tl ≤ o.level → Written s [rd] → ∀ sc,
        sc = s.effScope (s.jobScope o.eng (s.parseJob s.core.cluster s.core.view.ctx o.eng 64 0 o.words).1) →
        (¬(Quiet s ∧ s.drainedNow s.core.idx sc = true) → exec (.jend rd tok) s = s.waits outside) ∧
        (Quiet s → s.drainedNow s.core.idx sc = true → ∀ r, r = (s.widenPins s.core.idx sc).acceptJob o tok.toNat →
          exec (.jend rd tok) s = .next (r.1.setG rd (BitVec.ofNat 64 r.2)).retired)) ∧
      ((s.core.openJob = none ∨ ∃ o, s.core.openJob = some o ∧ o.level < s.core.tl) → exec (.jend rd tok) s = State.raisesIllegal s (.jend rd tok)) ∧
      (Fresh s → Written s [rd, ra] → ∀ e id, e < 2 → id < 4096 → s.g ra = BitVec.ofNat 64 (4096 * e + id) →
        (∀ w, (s.heldOn e).find? (fun v => wordId v == id) = some w →
          Retires s (.jwait rd ra stat) rd stat w (State.retireHeld e w) ∧ exec (.jpoll rd ra) s = .next (s.setG rd w).retired) ∧
        ((s.heldOn e).find? (fun v => wordId v == id) = none →
          (∀ j, (s.liveJobs e).find? (fun k => k.id == id) = some j →
            (j.completed = true → ∀ w, j.word = some w → Retires s (.jwait rd ra stat) rd stat w (fun t => t.dropJob j) ∧
              exec (.jpoll rd ra) s = .next (s.setG rd w).retired) ∧
            (j.completed = false → exec (.jwait rd ra stat) s = s.waits outside ∧ exec (.jpoll rd ra) s = .next (s.setG rd 0).retired)) ∧
          ((s.liveJobs e).find? (fun k => k.id == id) = none →
            exec (.jwait rd ra stat) s = State.raisesIllegal s (.jwait rd ra stat) ∧ exec (.jpoll rd ra) s = State.raisesIllegal s (.jpoll rd ra)))) ∧
      (Fresh s → Written s [rd, ra] → 8192 ≤ (s.g ra).toNat →
        exec (.jwait rd ra stat) s = State.raisesIllegal s (.jwait rd ra stat) ∧ exec (.jpoll rd ra) s = State.raisesIllegal s (.jpoll rd ra)) ∧
      (Fresh s → Written s [rd] → eng.toNat < 2 →
        (∀ w ws, s.heldOn eng.toNat = w :: ws → Retires s (.jpop rd eng stat) rd stat w (State.retireHeld eng.toNat w)) ∧
        (s.heldOn eng.toNat = [] → s.liveJobs eng.toNat = [] → exec (.jpop rd eng stat) s = State.raisesIllegal s (.jpop rd eng stat)) ∧
        (s.heldOn eng.toNat = [] → s.liveJobs eng.toNat ≠ [] →
          (∀ j w, j ∈ s.liveJobs eng.toNat → j.completed = true → j.word = some w →
            (∀ k ∈ s.liveJobs eng.toNat, k.completed = true → k ≠ j → j.doneSeq < k.doneSeq) →
            Retires s (.jpop rd eng stat) rd stat w (fun t => t.dropJob j)) ∧
          ((∀ k ∈ s.liveJobs eng.toNat, k.completed = false) → exec (.jpop rd eng stat) s = s.waits outside))) ∧
      (2 ≤ eng.toNat → exec (.jpop rd eng stat) s = State.raisesIllegal s (.jpop rd eng stat)) ∧
      (∀ o i, s.core.openJob = some o → o.level = s.core.tl → s.cur = .k → jobWord i = false → i.issuedBy .k = true →
        (64 ≤ o.issued → exec i s = State.raisesIllegal s i) ∧
        (Written s [rd, ra] → ∀ q, i ∈ [Instr.yield, .tend, .lnch rd ra q, .fawait rd ra] → exec i s = State.raisesIllegal s i) ∧
        (i = .nop → o.issued < 64 → exec .nop s = .next (s.withOpenJob { o with issued := o.issued + 1 }).retired))) ∧
  (∀ (s : State) (rd ra : BitVec 5) (n : BitVec 5) (m : BitVec 4) (cnt : BitVec 7) (sel : BitVec 1), Fresh s → s.cur = .k → Written s [rd, ra] →
      let v := s.g ra
      let r := ringReg s.core.cluster n.toNat
      let fits := n.toNat < 16 ∧ v.toNat < 2 ^ 32 ∧ (bitsAt v 25 7 = 0 ∨ (1 ≤ bitsAt v 14 11 ∧ bitsAt v 14 11 ≤ 1024)) ∧ bitsAt v 25 7 ≤ 64 ∧
        s.extentBad s.core.cluster (bitsAt v 0 14) (bitsAt v 14 11) (bitsAt v 25 7) = false
      let free := bitsAt (s.reg r) 32 11 = 0 ∧ s.rfld (r + 8) 0 16 = s.rfld (r + 8) 16 16 ∧
        (bitsAt (s.reg r) 25 7 = 0 ∨ bitsAt (s.reg r) 43 6 = s.core.view.ctx ∨ s.sup = true)
      (¬fits → exec (.ringdef n ra) s = State.raisesIllegal s (.ringdef n ra)) ∧
      (fits → free → exec (.ringdef n ra) s = .next ((s.setReg r (mkWord [(s.core.view.ctx, 43), (bitsAt v 25 7, 25), (bitsAt v 14 11, 14),
        (bitsAt v 0 14, 0)])).setReg (r + 8) 0).retired) ∧
      (fits → ¬free → exec (.ringdef n ra) s = .next (s.trapStop s.cur 0x0D 0 (BitVec.ofNat 64 n.toNat))) ∧
      (∀ may, may = (n.toNat < 16 ∧ 1 ≤ cnt.toNat ∧ cnt.toNat ≤ 64 ∧ ∃ base size depth,
          s.ringOf s.core.cluster n.toNat s.core.view.ctx = some (base, size, depth) ∧ s.occupancy s.core.cluster n.toNat + cnt.toNat ≤ depth) →
        (may → Quiet s → exec (.ringadv n cnt) s = .next ((s.widenPins s.core.idx 1).ringTail s.core.cluster n.toNat cnt.toNat).retired) ∧
        (may → ¬Quiet s → exec (.ringadv n cnt) s = s.waits outside) ∧
        (¬may → exec (.ringadv n cnt) s = State.raisesIllegal s (.ringadv n cnt))) ∧
      exec (.ringst rd m sel) s = .next (s.setG rd
        (if bitsAt (s.reg (ringReg s.core.cluster m.toNat)) 43 6 ≠ s.core.view.ctx then 0
         else s.reg (ringReg s.core.cluster m.toNat + if sel = 0 then 0 else 8))).retired)

/-- R407-R411: futures. A call reads its block and its ranges are checked; errors in the block come back in rd, and otherwise the entry is made, and
a remote call's request is sent. -/
def Obligations.FutureWords : Prop :=
  ∀ (s u : State) (rd ra : BitVec 5), Fresh s → s.cur = .k → Written s [rd, ra] →
    (s.core.specst.getLsbD 0 = true → exec (.fcall rd ra) s = .next (s.trapStop s.cur 8 0 s.core.specst) ∧
      exec (.fawait rd ra) s = .next (s.trapStop s.cur 8 0 s.core.specst)) ∧
    (s.core.specst.getLsbD 0 = false → (s.g ra).toNat % 32 ≠ 0 → exec (.fcall rd ra) s = State.raisesIllegal s (.fcall rd ra)) ∧
    (s.core.specst.getLsbD 0 = false → (s.g ra).toNat % 32 = 0 → ∀ rb, rb = s.access .load (s.g ra) 32 → StopRule s (.fcall rd ra) rb ∧
      ∀ blk, rb = .ok blk →
        (¬Quiet s → exec (.fcall rd ra) s = s.waits outside) ∧
        (Quiet s → ∀ rr, rr = s.readNow (s.g ra) blk → StopRule s (.fcall rd ra) rr ∧
          ∀ v bs w, rr = .ok (v, bs) → w = bytesWords 4 bs →
            ∀ rq rp, rq = v.rangeOf .load (w.getD 0 0) (bitsAt (w.getD 1 0) 0 32) → rp = v.rangeOf .nreq (w.getD 2 0) (bitsAt (w.getD 3 0) 40 24) →
            StopRule s (.fcall rd ra) rq ∧
            ∀ req, rq = .ok req → StopRule s (.fcall rd ra) rp ∧
            ∀ rpl, rp = .ok rpl → FutureCall s v (.fcall rd ra) rd w req rpl)) ∧
    (∀ f, u = s.futTick (bitsAt (s.g ra) 0 16) → (s.g ra).toNat < 65536 → u.futAt (s.g ra).toNat = some f → MyFuture u f →
      (3 ≤ f.st →
        (s.core.specst.getLsbD 0 = false → s.isPager = false → exec (.fawait rd ra) s = .next ((u.freeFut f.id).setG rd f.result).retired) ∧
        exec (.fpoll rd ra) s = .next ((u.freeFut f.id).setG rd f.result).retired ∧
        exec (.fcancel rd ra) s = .next ((u.freeFut f.id).setG rd f.result).retired) ∧
      (f.st < 3 →
        (s.core.specst.getLsbD 0 = false → s.isPager = false → ∀ v : State, v = (u.putFut { f with wait := true }).modTask s.myTaskId
            (fun t => { t with future := some f.id }) →
          exec (.fawait rd ra) s = .next ((v.onCore { v.core with preempt := if v.core.preempt = 0 then 4 else v.core.preempt }).modMe
            fun t => { t with wait := outside })) ∧
        exec (.fpoll rd ra) s = .next (u.setG rd 0).retired ∧
        ((f.cpy && u.recRoom f) = false → exec (.fcancel rd ra) s = .next ((u.freeFut f.id).setG rd { f with st := 5 }.result).retired) ∧
        ((f.cpy && u.recRoom f) = true → exec (.fcancel rd ra) s = s.waits outside))) ∧
    (s.isPager = true → s.core.specst.getLsbD 0 = false → exec (.fawait rd ra) s = State.raisesIllegal s (.fawait rd ra)) ∧
    (u = s.futTick (bitsAt (s.g ra) 0 16) → (65536 ≤ (s.g ra).toNat ∨ u.futAt (s.g ra).toNat = none ∨
        ∃ f, u.futAt (s.g ra).toNat = some f ∧ ¬MyFuture u f) →
      exec (.fpoll rd ra) s = State.raisesIllegal s (.fpoll rd ra) ∧ exec (.fcancel rd ra) s = State.raisesIllegal s (.fcancel rd ra) ∧
      (s.core.specst.getLsbD 0 = false → exec (.fawait rd ra) s = State.raisesIllegal s (.fawait rd ra)))

/-- R299-R301: `ABORT` discards what is held and closes the buffer, `COMMIT` sends it first, and neither is legal while the buffer is closed. R320-R322,
R331-R333: requests for named tiles, their waits and cancels; publishes and broadcast stores. A word that an open hold buffer takes sends nothing.
`v` is the state once the sync field has acted. -/
def Obligations.HoldBufferAndTiles : Prop :=
  (∀ (s : State), Fresh s → s.cur = .k →
      (s.core.holding = true → exec .abort s =
        .next ({ s with core := (s.core.hold.foldl Core.dropHeld s.core).closeHold } : State).retired) ∧
      (s.core.holding = true → s.core.hold = [] → s.core.task.isSome → exec .commit s =
        .next ({ s with core := s.core.closeHold } : State).retired) ∧
      (∀ v, s.core.holding = true → State.sendAll (s.core.hold.length + 1) s = (v, true) → v.core.task.isSome →
        exec .commit s = .next ({ v with core := v.core.closeHold } : State).retired) ∧
      (∀ v, s.core.holding = true → State.sendAll (s.core.hold.length + 1) s = (v, false) →
        exec .commit s = .next (v.modMe fun t => { t with stage := max 1 t.stage, wait := outside })) ∧
      (s.core.holding = false → ∀ i ∈ [Instr.commit, .abort], exec i s = .next (s.trapStop s.cur 8 0 s.core.specst))) ∧
  (∀ (s v : State) (gl gd : BitVec 3) (ga gn gs : BitVec 5) (slot : BitVec 6) (rlx : BitVec 1) (off : BitVec 8) (bsz : BitVec 3) (y : BitVec 2)
      (sig : Option Nat), Fresh s → s.syncTake y = .ok (v, sig) →
      (s.cur = .l → Written s [ga, gn, gn + 1, g3 gl] →
        (v.agEnabled = false → exec (.nreq gl ga gn slot rlx y) s = s.waits outside) ∧
        (v.agEnabled = true → (v.namePair gn = none ∨ bitsAt (s.g (g3 gl)) 26 38 ≠ 0 ∨ 512 < bitsAt (s.g (g3 gl)) 16 10 ∨ (v.slot slot).st ≠ .free) →
          exec (.nreq gl ga gn slot rlx y) s = State.raisesIllegal s (.nreq gl ga gn slot rlx y)) ∧
        (∀ name, v.agEnabled = true → v.namePair gn = some name → bitsAt (s.g (g3 gl)) 26 38 = 0 → bitsAt (s.g (g3 gl)) 16 10 ≤ 512 →
          (v.slot slot).st = .free →
          (v.nsAdmits (nameNs name) s.core.view.ctx 61 = false →
            exec (.nreq gl ga gn slot rlx y) s = s.raisesFatal 0x82 (BitVec.ofNat 64 name)) ∧
          (v.nsAdmits (nameNs name) s.core.view.ctx 61 = true → ∀ r, r = v.access .nreq (s.g ga) (destBytes (s.g (g3 gl))) →
            StopRule s (.nreq gl ga gn slot rlx y) r ∧
            ∀ dst life, r = .ok dst → life = (if bitsAt (s.g (g3 gl)) 0 16 = 0 then v.defLife (nameNs name) else bitsAt (s.g (g3 gl)) 0 16) →
              (s.core.holding = false → v.nreqRoom s.core.die name (rlx == 1) = true →
                exec (.nreq gl ga gn slot rlx y) s =
                  .next ((v.sendInterest s.core.idx slot.toNat name (rlx == 1) life dst).signalAfter sig).retired) ∧
              (s.core.holding = false → v.nreqRoom s.core.die name (rlx == 1) = false → exec (.nreq gl ga gn slot rlx y) s = s.waits outside) ∧
              (s.core.holding = true → s.core.hold.length < 32 → ∀ c,
                c = v.core.setHold (s.core.hold ++ [.nreq slot.toNat name (rlx == 1) life dst]) →
                exec (.nreq gl ga gn slot rlx y) s = .next ((v.onCore (c.setSlot slot.toNat .held 0)).signalAfter sig).retired) ∧
              (s.core.holding = true → 32 ≤ s.core.hold.length → exec (.nreq gl ga gn slot rlx y) s = s.waits outside)))) ∧
      (s.cur = .l → Written s [g3 gd] →
        ((v.slot slot).st = .arrived →
          exec (.nwait gd slot y) s = .next (((v.takeSlot slot).setG (g3 gd) (v.slot slot).word).signalAfter sig).retired) ∧
        ((v.slot slot).st = .expired → Still s →
          exec (.nwait gd slot y) s = .next (((s.takeSlot slot).modMe fun t => { t with wait := 0 }).takeTrap s.cur 9 0 (s.slot slot).word)) ∧
        ((v.slot slot).st = .pending ∨ (v.slot slot).st = .held → exec (.nwait gd slot y) s = s.waits outside) ∧
        ((v.slot slot).st = .free → exec (.nwait gd slot y) s = State.raisesIllegal s (.nwait gd slot y))) ∧
      (s.cur = .l →
        ((v.slot slot).st = .free → exec (.ncancel slot y) s = State.raisesIllegal s (.ncancel slot y)) ∧
        ((v.slot slot).st = .held → ∀ c, c = v.core.setHold (v.core.hold.filter fun h => !h.isReq slot.toNat) →
          exec (.ncancel slot y) s = .next ((v.onCore (c.setSlot slot.toNat .free 0)).signalAfter sig).retired) ∧
        ((v.slot slot).st ≠ .free → (v.slot slot).st ≠ .held →
          exec (.ncancel slot y) s = .next ((v.cancelSlot s.core.idx slot.toNat).signalAfter sig).retired)) ∧
      (s.cur = .s → Written s [ga, gn, gn + 1, g3 gl] →
        (v.agEnabled = false → exec (.npub gl ga gn y) s = s.waits outside) ∧
        (∀ n ok, n = (s.g (g3 gl)).toNat → ok = (gl ≠ 0 ∧ 1 ≤ n ∧ n ≤ 512) → v.agEnabled = true →
          (¬ok ∨ v.namePair gn = none → exec (.npub gl ga gn y) s = State.raisesIllegal s (.npub gl ga gn y)) ∧
          (∀ name, ok → v.namePair gn = some name →
            (v.nsAdmits (nameNs name) s.core.view.ctx 62 = false → exec (.npub gl ga gn y) s = s.raisesFatal 0x82 (BitVec.ofNat 64 name)) ∧
            (v.nsAdmits (nameNs name) s.core.view.ctx 62 = true → ∀ r, r = v.access .npub (s.g ga) (128 * n) → StopRule s (.npub gl ga gn y) r ∧
              ∀ src, r = .ok src →
                (s.core.holding = true → s.core.hold.length < 32 → exec (.npub gl ga gn y) s =
                  .next ((v.onCore (v.core.setHold (s.core.hold ++ [.npub name src]))).signalAfter sig).retired) ∧
                (s.core.holding = true → 32 ≤ s.core.hold.length → exec (.npub gl ga gn y) s = s.waits outside) ∧
                (s.core.holding = false → ∀ free, free = (Quiet v ∧ v.drainedNow s.core.idx (v.effScope 4) = true ∧
                    v.npubRoom s.core.die name n = true) →
                  (¬free → exec (.npub gl ga gn y) s = s.waits outside) ∧
                  (free → ∀ r, r = (v.widenPins s.core.idx (v.effScope 4)).readNow (s.g ga) src → StopRule s (.npub gl ga gn y) r ∧
                    ∀ u bs, r = .ok (u, bs) → exec (.npub gl ga gn y) s = .next ((u.publish s.core.idx name bs).signalAfter sig).retired)))))) ∧
      (s.cur = .s → Written s [ga, gs, gs + 1] → ∀ n, n = bszBytes bsz →
        (6 ≤ bsz.toNat ∨ (bsz = 5 ∧ gs ≠ 0) ∨ (bsz = 4 ∧ (gs = 0 ∨ gs.toNat % 2 = 1)) →
          exec (.bst bsz ga gs off y) s = State.raisesIllegal s (.bst bsz ga gs off y)) ∧
        (bsz.toNat < 6 → (bsz = 5 → gs = 0) → (bsz = 4 → gs ≠ 0 ∧ gs.toNat % 2 = 0) → ∀ r, r = v.groupAddr (baseOff s ga off n) n →
          StopRule s (.bst bsz ga gs off y) r ∧
          ∀ a data w, r = .ok a → BroadcastData v bsz gs data w →
            ∀ u, u = w.onCore { w.core with nextUid := w.core.nextUid + 1 } →
            (s.core.holding = true → s.core.hold.length < 32 → exec (.bst bsz ga gs off y) s =
              .next ((u.onCore (u.core.setHold (u.core.hold ++ [.bst a data s.core.nextUid]))).signalAfter sig).retired) ∧
            (s.core.holding = true → 32 ≤ s.core.hold.length → exec (.bst bsz ga gs off y) s = s.waits outside) ∧
            (s.core.holding = false → ∀ free, free = (s.core.bsts.length < 16 ∧ (sig ≠ none → Quiet u)) →
              (¬free → exec (.bst bsz ga gs off y) s = s.waits outside) ∧
              (free → (u.sendBst s.core.idx a data s.core.nextUid sig = none → exec (.bst bsz ga gs off y) s = s.waits outside) ∧
                ∀ t, u.sendBst s.core.idx a data s.core.nextUid sig = some t → exec (.bst bsz ga gs off y) s = .next t.retired))) ∧
        (bsz = 5 → gs = 0 → ∀ a, v.groupAddr (baseOff s ga off n) n = .ok a → QueueShort v 14 1 → exec (.bst bsz ga gs off y) s = s.waits 3)))

/-! ### Engines, tasks and contexts -/

/-- R377-R383: the matrix commands. `MZERO` clears the accumulators it names; products, loads and stores run for the cycles of their form. `u` is the
machine whose commands that are over have retired. A refused row ends the job, one that must wait holds the engine. R382: the candidates that
`MTOPK` writes are the best ones, in rank order, and rank compares values with both zeros equal and every NaN last, then columns, and puts elements
of the destination first. A row is ranked over its 128 columns and, where the command merges, the elements at its destination. R388-R392: the copy
commands perform their transfers in order, at most four of 128 bytes a cycle; one that finishes runs out and one that has more to move or waits goes
on later, with its engine. A gather or scatter reads each index as it reaches the row. A `CRING` tile lies at `TAIL` of its ring, which advances as
the tile's command is over. R26, R369, R388, R392: one transfer between space 1 and space 1 moves the bytes: the destination then holds what the
source held, every other byte of the cluster stores and all of memory are as they were, and the job has counted the bytes. -/
def Obligations.EngineCommands : Prop :=
  (∀ (s u : State) (g h : Nat) (j : Job) (r : List Word), u = s.settle g →
      let a := bitsAt (r.getD 0 0) 48 2
      (∀ p ∈ engineSteps g h, u.engTurn g h p.1 = none → exec p.2 s = .next u) ∧
      (TakesTurn u g h 0x04 j r → (u.jobNow j).accs.length = 4 →
        exec (.mzero g h) s = .next (u.putJob (((u.jobNow j).issued u.now 8).zeroed (r.getD 0 0)))) ∧
      (∀ tp k ta tb v t op, op = 1 ∨ op = 2 → TakesTurn u g h op j r → typePair (bitsAt (r.getD 0 0) 50 4) = some tp →
        k = 32 * bitsAt (r.getD 1 0) 48 8 →
        ta = cutTile tp.a (bitsAt (r.getD 0 0) 47 1 == 1) k (u.headTile j.clu (bitsAt (r.getD 1 0) 60 4) (tileBytes tp.a (bitsAt (r.getD 0 0) 47 1 == 1) k)) →
        tb = cutTile tp.b (bitsAt (r.getD 0 0) 47 1 == 1) k (u.headTile j.clu (bitsAt (r.getD 1 0) 56 4) (tileBytes tp.b (bitsAt (r.getD 0 0) 47 1 == 1) k)) →
        AccumulatorIs u j a v t → ∀ i ∈ [(1, Instr.mma g h), (2, Instr.mdist g h)], i.1 = op →
        exec i.2 s = .next (t.putJob (((t.jobNow j).issued t.now (16 + tp.f * (4 * bitsAt (r.getD 1 0) 48 8))).withAcc a
          (product (op == 2) ta tb v).1 (product (op == 2) ta tb v).2))) ∧
      (TakesTurn u g h 0x05 j r →
        (∀ t rs, u.loadRows j r 128 0 [] = .ok t rs →
          exec (.mload g h) s = .next (t.putJob (((t.jobNow j).issued t.now (16 + 16384 * accBytes (bitsAt (r.getD 0 0) 45 3) / 512)).withAcc a
            (rs.map fun x => BitVec.ofNat 32 x.1) (rs.foldl (fun f x => f ||| x.2) 0)))) ∧
        CommandEnds u j (u.loadRows j r 128 0 []) (exec (.mload g h) s)) ∧
      (∀ n i acc t bs e, e = accBytes (bitsAt (r.getD 0 0) 45 3) →
        u.engLoad j (r.getD 1 0 + BitVec.ofNat 64 (i * bitsAt (r.getD 2 0) 0 32)) (128 * e) = .ok t bs →
        u.loadRows j r (n + 1) i acc = t.loadRows j r n (i + 1) (acc ++ (List.range 128).map fun c =>
          quieted (bytesNat ((bs.drop (e * c)).take e) * (if e = 4 then 1 else 65536)))) ∧
      (∀ f, TakesTurn u g h 0x06 j r → accFmt (bitsAt (r.getD 0 0) 45 3) = some f →
        (∀ rows x, j.held = some rows → x = u.jobFlags j 0 →
          Transfers (x.putJob { x.jobNow j with held := some rows }) j (rowStores (rowAt r) rows) (rowStores (rowAt r) rows).length (cmdCycles r) (exec (.mout g h) s)) ∧
        (∀ v t out rows x, j.held = none → AccumulatorIs u j a v t →
          out = v.map (fun c => Fmt.convert .f32 f 0 (bitsAt (r.getD 0 0) 44 1 == 1) c.toNat) →
          rows = (List.range 128).map (fun i => ((out.drop (128 * i)).take 128).flatMap fun x => natBytes (accBytes (bitsAt (r.getD 0 0) 45 3)) x.1) →
          x = t.jobFlags j (out.foldl (fun fl x => fl ||| x.2) 0) →
          Transfers (x.putJob { x.jobNow j with held := some rows }) j (rowStores (rowAt r) rows) (rowStores (rowAt r) rows).length (cmdCycles r) (exec (.mout g h) s))) ∧
      (∀ v t w, TakesTurn u g h 0x03 j r → AccumulatorIs u j a v t → w = t.putJob ((t.jobNow j).withAcc a v 0) →
        exec (.mtopk g h) s = w.topRun j r v 129 (j.held.getD []) ∧ ∃ x, exec (.mtopk g h) s = .next x)) ∧
  ((∀ (large : Bool) (k : Nat) (cs : List Cand), (bestCands large k cs).length = min k cs.length ∧
      ∃ rest, cs.Perm (bestCands large k cs ++ rest) ∧ (bestCands large k cs).Pairwise (fun x y => y.before large x = false) ∧
        ∀ x ∈ bestCands large k cs, ∀ y ∈ rest, y.before large x = false) ∧
    (∀ (large : Bool) (x y : Cand) (p q : FVal), p = Fmt.f32.val x.code → q = Fmt.f32.val y.code →
      (p.isNan = false → q.isNan = true → x.before large y = true ∧ y.before large x = false) ∧
      (p.isNan = false → q.isNan = false → (if large then q.lt false p else p.lt false q) = true →
        x.before large y = true ∧ y.before large x = false) ∧
      (p.isNan = q.isNan → (p.isNan = false → p.lt false q = false ∧ q.lt false p = false) →
        x.before large y = (decide (x.col < y.col) || (x.col == y.col && x.old && !y.old)))) ∧
    (∀ (s t : State) (j : Job) (r : List Word) (acc : List (BitVec 32)) (i k : Nat) (new old : List Cand) (out : List Byte),
      k = bitsAt (r.getD 0 0) 40 6 + 1 →
      new = (((acc.drop (128 * i)).take 128).zipIdx).map
        (fun p => { code := p.1.toNat, col := (bitsAt (r.getD 2 0) 32 32 + p.2) % 2 ^ 32, old := false }) →
      out = (bestCands (bitsAt (r.getD 0 0) 47 1 == 1) k (old ++ new)).flatMap (fun c => natBytes 8 (c.code * 2 ^ 32 + c.col)) →
      (bitsAt (r.getD 0 0) 46 1 = 0 → old = [] → s.topRow j r acc i = .ok s out) ∧
      (∀ bs, bitsAt (r.getD 0 0) 46 1 = 1 → s.engLoad j (r.getD 1 0 + BitVec.ofNat 64 (8 * k * i)) (8 * k) = .ok t bs →
        old = (List.range k).map (fun n => { code := bytesNat ((bs.drop (8 * n + 4)).take 4), col := bytesNat ((bs.drop (8 * n)).take 4), old := true }) →
        s.topRow j r acc i = .ok (t.jobUsed j) out))) ∧
  (∀ (s u : State) (g h : Nat) (j : Job) (r : List Word), u = s.settle g →
      (∀ p ∈ [(0x10, Instr.cpy g h, cpyMoves r), (0x11, .cfill g h, fillMoves r)], TakesTurn u g h p.1 j r →
        Transfers u j p.2.2 4 1 (exec p.2.1 s)) ∧
      (∀ p ∈ [(0x12, Instr.cgath g h, true), (0x13, .cscat g h, false)], TakesTurn u g h p.1 j r →
        ∀ n x, n = j.sub / 2 ^ 18 →
        x = u.indexRows j r p.2.2 (bitsAt (r.getD 4 0) 40 24 - n) n (j.sub % 2 ^ 18) 4 (j.held.bind (·.head?)) →
        (∀ t, x = .ok t true → exec p.2.1 s = .next (t.putJob ((t.jobNow j).issued t.now 1))) ∧
        (∀ t, x = .ok t false → exec p.2.1 s = .next (t.putJob ((t.jobNow j).waiting (t.jobNow j).sub
            (if (t.jobNow j).sub = j.sub then (t.jobNow j).pace else t.now + 1)))) ∧
        CommandEnds u j x (exec p.2.1 s)) ∧
      (∀ gather f n v t bs ms, v = (if bitsAt (r.getD 4 0) 0 1 = 1 then 8 else 4) →
        s.engLoad j (r.getD 3 0 + BitVec.ofNat 64 (v * n)) v = .ok t bs →
        ms = rowMoves gather r n (bytesNat bs) (bytesNat bs == 2 ^ (8 * v) - 1) →
        ∀ w b, b ≠ 0 → (t.jobUsed j).engMoves j [] 0 (ms.take b) = .ok w ms.length →
        s.indexRows j r gather (f + 1) n 0 b none = w.indexRows j r gather f (n + 1) 0 (b - ms.length) none) ∧
      (TakesTurn u g h 0x14 j r → ∀ n, n = bitsAt (r.getD 0 0) 50 4 →
        (u.ringOf g n j.view.ctx = none → exec (.cring g h) s = .next (u.endJob j 0x21)) ∧
        (∀ base size depth x, u.ringOf g n j.view.ctx = some (base, size, depth) →
          x = u.ringRun j (128 * base + 128 * size * (u.rfld (ringReg g n + 8) 16 16 % depth))
            (r.getD 1 0 + BitVec.ofNat 64 (j.sub % 64 * bitsAt (r.getD 2 0) 0 40)) size 4 (j.sub / 64) →
          (∀ t, x = .ok t size → exec (.cring g h) s = .next (t.putJob ((t.jobNow j).issued t.now 1))) ∧
          (∀ t m, x = .ok t m → m ≠ size → exec (.cring g h) s = .next (t.putJob ((t.jobNow j).waiting (64 * m + j.sub % 64)
            (if 64 * m + j.sub % 64 = j.sub then (t.jobNow j).pace else t.now + 1)))) ∧
          CommandEnds u j x (exec (.cring g h) s))) ∧
      (∀ start a size f m t, m < size → u.ringFill j (start + 128 * m) (a + BitVec.ofNat 64 (128 * m)) 128 = .ok t () →
        u.ringRun j start a size (f + 1) m = t.ringRun j start a size f (m + 1))) ∧
  (∀ (s : State) (j : Job) (src dst : Word) (n : Nat) (p q : Span), (s.jobs.find? fun k => k.seq == j.seq) = some j →
      s.engSpans j .engRead src n = ([p], n, none) → s.engSpans j .engWrite dst n = ([q], n, none) →
      p.place = .store → q.place = .store → p.len = n → q.len = n → Memory.wf s.store = true →
      ∃ t, s.engMove j [] { src := .at_ src, dst := dst, len := n } = .ok t () ∧ t.mem = s.mem ∧
        cellRead t.store q.addr n = cellRead s.store p.addr n ∧
        (∀ a, a < q.addr ∨ q.addr + n ≤ a → cellGet t.store a = cellGet s.store a) ∧
        (t.jobNow j).bytes = min (2 ^ 33 - 1) (j.bytes + n))

/-- R225, R370, R372, R376, R384: the engine takes a stamped step in the cycle of its stamp and else the earliest unstamped one that fits, a command
retires when its cycles have passed, a stamp that passes unserved ends its job with `MISS`, a job completes when nothing is left of it, and its
token follows when the counter has room. R223, R240, R258: the results of an X word land; the arbiter binds the heads of the queues, at most two of
a core in a cycle, until lane groups or heads run out. -/
def Obligations.JobProgress : Prop :=
  (∀ (s : State) (g h : Nat) (j : Job), s.jobAt g h = some j →
      (∀ k, s.engHeld g j.eng = none → s.engChoice g j.eng = some k → j.word = none → s.mayIssue j = true →
        k ∈ s.jobs ∧ k.clu = g ∧ k.eng = j.eng ∧ k.word = none ∧ s.mayIssue k = true ∧ k.ahead j) ∧
      (∀ c, j.busy = some c → s.now < c → exec (.commandRetire g h) s = .next s) ∧
      (j.busy = none → exec (.commandRetire g h) s = .next s) ∧
      (∀ c r, j.busy = some c → j.cmd = some r → c ≤ s.now → recOp r ≠ 0x14 →
        exec (.commandRetire g h) s =
          .next ((((poppedRings r).foldl (fun t n => t.popRing g n) s).putJob (j.over (j.next + 1) 0)).syncRings g)) ∧
      (∀ c r n, j.busy = some c → j.cmd = some r → c ≤ s.now → recOp r = 0x14 → n = bitsAt (r.getD 0 0) 50 4 →
        exec (.commandRetire g h) s = .next (((s.setFld (ringReg g n + 8) 16 16 ((s.rfld (ringReg g n + 8) 16 16 + 1) % 2 ^ 16)).putJob
          (if j.sub % 64 = bitsAt (r.getD 0 0) 44 6 then j.over (j.next + 1) 0 else j.over j.next (j.sub % 64 + 1))).syncRings g)) ∧
      (∀ u k, u = s.settle g → u.jobAt g h = some k → k.busy = none → k.begun = false → k.word = none →
        (k.stampAt = none → exec (.stampMiss g h) s = .next u) ∧
        (k.stampAt = some none → exec (.stampMiss g h) s = .next (u.endJob k 0x01)) ∧
        (∀ t, k.stampAt = some (some t) →
          (t < u.now → u.atStamp t = false → exec (.stampMiss g h) s = .next (u.endJob k 0x01)) ∧
          (u.now = t → (∀ m, u.engChoice g k.eng = some m → m.seq ≠ k.seq) → exec (.stampMiss g h) s = .next (u.endJob k 0x01)) ∧
          (u.now < t → exec (.stampMiss g h) s = .next u) ∧
          (u.now = t → (∃ m, u.engChoice g k.eng = some m ∧ m.seq = k.seq) → exec (.stampMiss g h) s = .next u))) ∧
      (j.word = none → j.busy = none → (j.ended ≠ none ∨ j.recs.length ≤ j.next) → j.wins = 0 →
        exec (.jobComplete g h) s = .next (if j.tok = 0 ∨ j.drop = true then s.jobFinish { j with word := some j.completion }
          else s.putJob { j with word := some j.completion })) ∧
      (j.word ≠ none → j.tokDone = false → j.tok ≠ 0 →
        (j.drop = true → exec (.jobTokenPush g h) s = .next (s.jobFinish j)) ∧
        (∀ p, p = 12 + (strandOf (j.tok - 1)).num → j.drop = false →
          ((s.coreAt j.core).token p + (s.coreAt j.core).reserved p < 63 →
            exec (.jobTokenPush g h) s = .next ((s.modCore j.core fun c => c.setToken p (c.token p + 1)).jobFinish j)) ∧
          (63 ≤ (s.coreAt j.core).token p + (s.coreAt j.core).reserved p → exec (.jobTokenPush g h) s = .next s)))) ∧
  (∀ (s : State) (n g free : Nat),
      exec (.xResultLand n) s = .next (s.landCore s.core.idx fun c => c.landX n) ∧
      (∀ x : XFlight, x.n = n → s.core.flight = [x] → x.sig = false →
        ∃ t : State, exec (.xResultLand n) s = .next t ∧ t.core.flight = [] ∧
          t.core.xfctl = s.core.xfctl ||| x.flags.setWidth 64 ∧
          (∀ q, (t.core.queue q).map (·.data) = (s.core.queue q).map (·.data))) ∧
      (∀ cl : Cluster, cl = aget Cluster.reset g s.clusters → cl.vq.length = 8 → ∃ c n, exec (.vectorBind g free) s =
          .next { s with clusters := aput Cluster.reset g c s.clusters } ∧
        (∀ k < 8, c.vq.getD k [] = (cl.vq.getD k []).drop (n k) ∧ n k ≤ min 2 (cl.vq.getD k []).length) ∧
        ((List.range 8).map n).sum = min free ((List.range 8).map fun k => min 2 (cl.vq.getD k []).length).sum) ∧
      (∀ cl : Cluster, cl = aget Cluster.reset g s.clusters → (∀ k < 8, cl.vq.getD k [] = []) → exec (.vectorBind g free) s =
        .next { s with clusters := aput Cluster.reset g { cl with d := List.replicate 8 0 } s.clusters }))

/-- R213, R215-R221: the launch manager's decisions: a preloaded task goes to its core once it has a number, else the chosen tasks are placed, else the
core is offered in vain; a latency task vacates the lowest borrowed core; a budget that is used up pre-empts. R31, R196, R427, R458: a placed task
whose cluster is awake starts, or resumes from its save area and slice image, on its core, with the translation array loaded from its binding; where
that load fails the context ends with a fatal error. R195, R196: a started task finds its arguments in g registers and its strands at the addresses
of its descriptor, with everything else zero. -/
def Obligations.Placement : Prop :=
  (∀ (s u : State) (k : Nat) (t : Task), u = s.recheckPreloads →
      (u.coreIdle k = true → u.preloadOf k = some t → u.numbered t = true →
        exec (.placementDecision k) s = .next ((u.unpreloaded k).assign (t.id, k))) ∧
      (u.coreIdle k = true → u.preloadOf k = some t → u.numbered t = false → k ∉ u.lm.offered →
        exec (.placementDecision k) s = .next ((u.count (ctxBase t.ctx + 0x40)).noteOffered k)) ∧
      (∀ v cls c p, u.coreIdle k = true → u.preloadOf k = none → u.choose u.coreFree k = some (v, cls, c, p) →
        exec (.placementDecision k) s = .next (p.foldl State.assign (v.countNortn k cls))) ∧
      (u.coreIdle k = true → u.preloadOf k = none → u.choose u.coreFree k = none → k ∉ u.lm.offered →
        exec (.placementDecision k) s = .next ((u.countNortn k 1).noteOffered k)) ∧
      (u.coreIdle k = false → exec (.placementDecision k) s = .next u) ∧
      (∀ p v cls c, s.taskOn k = some p → p.pager = false → s.isPagerCore k = false → (∀ q ∈ s.lm.preload, q.1 ≠ k) →
        s.choose (fun i => i == k || s.coreFree i) k = some (v, cls, c, [(t.id, k)]) → TaskIs v t → (∀ q ∈ s.lm.vacates, q.2.2 ≠ t.id) →
        exec (.preload k) s = .next { v with lm := { v.lm.leaveReady t.key t.id with preload := (k, t.id) :: v.lm.preload } }) ∧
      (s.isPagerCore k = true → exec (.preload k) s = .next s) ∧
      (TaskIs s t → t.cls = 0 → t.st = .queued → (∀ q ∈ s.lm.vacates, q.2.2 ≠ t.id) → (∀ i < 2048, (s.coreFree i && s.wouldTake t i) = false) →
        (List.range 2048).find? (fun i => s.borrowed i && s.wouldTake t i) = some k →
        ∀ v, v = (if (s.preloadOf k).any (fun p => p.cls != 0) then s.discardPreload k else s) →
        exec (.vacate t.id) s =
          .next (({ v with lm := { v.lm with vacates := (k, v.now, t.id) :: v.lm.vacates } } : State).modCore k fun c => { c with preempt := 1 })) ∧
      (s.taskOn k = some t → t.pager = false → (s.coreAt k).preempt = 0 → (s.coreAt k).saving = 0 → s.budgetOf t ≠ 0 →
        s.budgetOf t ≤ (s.coreAt k).budget →
        exec (.budgetOverrun k) s = .next ((s.modCore k fun c => { c with preempt := 2 }).count (ctxBase t.ctx + 0x48)))) ∧
  (∀ (s u : State) (k : Nat) (t : Task), TaskIs s t → t.core = some k → t.st = .running → (s.coreAt k).task = none → s.awake (k / 8) = true →
      (t.saved = false → u = s.started t k →
        (∀ a n es, u.bindingOf t = some (a, n) → u.loadImage a n = .ok es →
          exec (.taskStart t.id) s = .next (u.modCore k fun c => c.withArray a n es)) ∧
        (∀ v, u.loadArray k t = .error v → exec (.taskStart t.id) s = .next (u.fatalError t.ctx (.strand k .k) 0x80 v 0))) ∧
      (∀ r, t.saved = true → t.rtn = some r → u = s.resumed t k r →
        (∀ a n es v, u.bindingOf t = some (a, n) → u.loadImage a n = .ok es →
          v = ((u.modCore k fun c => c.withArray a n es).modCore k fun c => c.applyHeld t).modTask t.id
            (fun x => { x with saved := false, heldSlots := [], heldReply := none, future := none }) →
          exec (.taskResume t.id) s = .next (v.trace (v.coreAt k) 11 0 0 (BitVec.ofNat 64 r) 0)) ∧
        (∀ v, u.loadArray k t = .error v → exec (.taskResume t.id) s = .next (u.fatalError t.ctx (.strand k .k) 0x80 v 0))) ∧
      (u.bindingOf t = none → u.loadArray k t = .error (BitVec.allOnes 64)) ∧
      (∀ a n i, u.bindingOf t = some (a, n) → u.loadImage a n = .error i → u.loadArray k t = .error (BitVec.ofNat 64 i))) ∧
  (∀ (c : Core) (d : List Word) (index count lid dmem : Word), d.length = 32 →
      let e := c.startState d index count lid dmem
      (∀ t ∈ [e.l, e.x, e.s, e.k], t.g = [index, count, lid, d.getD 8 0, d.getD 9 0, d.getD 10 0, d.getD 11 0] ∧ t.depth = 0 ∧ t.wb = 0 ∧ t.sb = 0 ∧
        t.spillb = 0 ∧ t.pend = 0 ∧ t.win.length = 96) ∧
      e.dmem = dmem ∧ e.split = (d.getD 0 0).getLsbD 51 ∧ e.k.parked = false ∧
      (e.split = true → e.l.pc = BitVec.ofNat 64 (bitsAt (d.getD 0 0) 52 12 * 2 ^ 52 + bitsAt (d.getD 1 0) 0 48) ∧
        e.k.pc = BitVec.ofNat 64 (bitsAt (d.getD 0 0) 52 12 * 2 ^ 52 + bitsAt (d.getD 4 0) 0 48) ∧
        e.l.parked = !(d.getD 1 0).getLsbD 63) ∧
      (e.split = false → e.l.pc = BitVec.ofNat 64 (bitsAt (d.getD 0 0) 52 12 * 2 ^ 52 + bitsAt (d.getD 4 0) 0 48) ∧
        e.k.pc = BitVec.ofNat 64 (bitsAt (d.getD 0 0) 52 12 * 2 ^ 52 + bitsAt (d.getD 4 0) 0 48 + 12)))

/-- R113, R426: a save stops its core, and once everything is drained writes the task's area and slice image and frees the core; a deadlocked core
traps. R197, R210-R212: launch queues. An inconsistent `TAIL` disables its queue; a descriptor is taken at `HEAD`, and accepted or refused with its
status. -/
def Obligations.SavesAndLaunches : Prop :=
  (∀ (s : State) (k : Nat) (t : Task) (r : Nat),
      (∀ ref, (s.coreAt k).mayStop = true → (s.coreAt k).task = some ref →
        exec (.contextSave k (s.coreAt k).preempt) s =
          .next ((stopsForSave s k (s.coreAt k).preempt).modTask ref.id fun u => { u with st := .saving })) ∧
      ((s.coreAt k).mayStop = false → ∀ why, exec (.contextSave k why) s = .next s) ∧
      (s.taskOn k = some t → (s.coreAt k).saving ≠ 0 → s.saveDrained k t = false → exec (.saveComplete k) s = .next s) ∧
      (s.taskOn k = some t → t.rtn = some r → (s.coreAt k).saving ≠ 0 → s.saveDrained k t = true →
        ∀ u, u = (((s.endPins k).writeMem (s.areaAt t.ctx r) (s.coreAt k).area).saveSlice k (s.imageAt t.ctx r)) →
        ∀ held, held = (sortJobs (u.jobsOf t.id)).filterMap (fun j => j.word.map fun w => (j.eng, w)) →
        ∀ v : State, v = ({ u with jobs := u.jobs.filter fun j => j.task != t.id || j.drop } : State) →
        ∀ w, w = (v.modTask t.id fun x => { x with
          core := none, saved := true, heldJobs := x.heldJobs ++ held, stages := (s.coreAt k).stages, bdone := (s.coreAt k).bdone
          rels := (s.coreAt k).strands.map (·.rel), pagerOut := (s.coreAt k).pagerOut }) →
        exec (.saveComplete k) s =
          .next (((w.trace (s.coreAt k) 10 0 0 (BitVec.ofNat 64 r) 0).modCore k Core.idle).requeue t (s.coreAt k).saving k).superDeliver) ∧
      (∀ u codes, u = s.focus k → codes = u.waitCodes → u.core.task.isSome → u.core.halted = false → u.core.saving = 0 →
        u.outstanding u.core = false → (∀ c ∈ codes, 1 ≤ c ∧ c ≤ 12) →
        exec (.deadlockDetect k) s = .next ((u.trapStop .k 0x0B 0 (BitVec.ofNat 64 ((codes.zipIdx.map fun p => p.1 * 16 ^ p.2).sum))).focus s.core.idx))) ∧
  (∀ (s : State) (c q : Nat),
      ((s.reg (lqReg c q)).getLsbD 63 = false → exec (.lqTailUpdate c q) s = .next s ∧ exec (.launchTake c q) s = .next s) ∧
      ((s.reg (lqReg c q)).getLsbD 63 = true → (s.queueTail c q + 2 ^ 32 - s.queuePos c q) % 2 ^ 32 ≤ s.queueSize c q →
        exec (.lqTailUpdate c q) s = .next { s with lm := { s.lm with tails := aput 0 (32 * c + q) (s.queueTail c q) s.lm.tails } }) ∧
      ((s.reg (lqReg c q)).getLsbD 63 = true → s.queueSize c q < (s.queueTail c q + 2 ^ 32 - s.queuePos c q) % 2 ^ 32 →
        ∀ t, t = ((s.setFld (lqReg c q) 63 1 0).setFld (lqReg c q) 62 1 1) →
        exec (.lqTailUpdate c q) s = .next { t with lm := { t.lm with tails := adel (32 * c + q) t.lm.tails } }) ∧
      (∀ head d t, head = s.queuePos c q → (s.reg (lqReg c q)).getLsbD 63 = true → aget 0 (32 * c + q) s.lm.tails ≠ head →
        (∀ l ∈ s.lm.launches, l.ctx = c → l.open_ = true → l.q ≠ q) → (s.lm.launches.filter fun l => l.ctx == c && l.open_).length < 256 →
        d = s.wordsAt (s.queueSlot c q head) 32 →
        t = s.writeWordAt (s.queueHead c q + 8) (BitVec.ofNat 64 ((head + 1) % 2 ^ 32)) →
        (s.descStatus c q d = none → exec (.launchTake c q) s = .next (t.acceptLaunch c q (2 ^ 32 * q + head) d)) ∧
        (∀ st, s.descStatus c q d = some st →
          exec (.launchTake c q) s = .next (t.setReg (ctxBase c + 0x200 + 8 * q) (mkWord [(1, 63), (st, 48), (2 ^ 32 * q + head, 0)])))))

/-- R205, R206, R424: the context states. A disabled context keeps its state; a reset stops it, ends its tasks and jobs and drops its cached lines and
pins, and completes once its requests to other modules have their outcome; a kill is a fatal error of the context. R37-R44, R399, R487: pager tasks
and replies. A reply goes to the core that waits for it, to the saved task that does, or is counted as stale. -/
def Obligations.ContextsAndPager : Prop :=
  (∀ (s : State) (c : Nat), c < 64 →
      let ctl := ctxBase c + 0x10
      exec (.ctxDisable c) s = .next (s.setFld ctl 62 1 0) ∧
      (∀ t, t = s.setFld ctl 62 1 1 → bitsAt (t.reg ctl) 60 2 = 0 → exec (.ctxEnable c) s = .next (t.setFld ctl 60 2 1)) ∧
      (∀ t, t = s.setFld ctl 62 1 1 → bitsAt (t.reg ctl) 60 2 ≠ 0 → exec (.ctxEnable c) s = .next t) ∧
      ((bitsAt (s.reg ctl) 60 2 = 0 ∨ bitsAt (s.reg ctl) 60 2 = 3) → exec (.ctxReset c) s = .next s) ∧
      ((bitsAt (s.reg ctl) 60 2 = 1 ∨ bitsAt (s.reg ctl) 60 2 = 2) →
        ∃ t, exec (.ctxReset c) s = .next t ∧ t = ((s.stopContext c).resetFutures c).setFld ctl 60 2 3 ∧ bitsAt (t.reg ctl) 60 2 = 3 ∧
          (∀ x ∈ t.lm.tasks, x.ctx ≠ c) ∧ (∀ x ∈ t.lm.launches, x.ctx ≠ c) ∧ (∀ x ∈ t.lm.domains, x.ctx ≠ c) ∧ (∀ j ∈ t.jobs, j.view.ctx ≠ c) ∧
          (∀ x ∈ t.coh.tags, x.ctx ≠ c) ∧ (∀ p ∈ t.coh.pins, p.ctx ≠ c)) ∧
      (bitsAt (s.reg ctl) 60 2 = 3 → (∃ e ∈ s.fab.e2e, e.ctx = c ∧ e.uid ≠ 2 ^ 40) → exec (.ctxResetComplete c) s = .next s) ∧
      (bitsAt (s.reg ctl) 60 2 = 3 → (∀ e ∈ s.fab.e2e, e.ctx = c → e.uid = 2 ^ 40) →
        exec (.ctxResetComplete c) s = .next (s.finishReset c) ∧ bitsAt ((s.finishReset c).reg ctl) 60 2 = 0 ∧
          (∀ f ∈ (s.finishReset c).futures, f.ctx ≠ c)) ∧
      exec (.ctxkillWrite c) s = .next (s.fatalError c (.agent 3329) 0x87 0 0) ∧
      (bitsAt (s.reg ctl) 60 2 ≠ 1 → exec (.ctxkillWrite c) s = .next s)) ∧
  (∀ (s : State) (k clu : Nat) (v : Word) (src : Option Nat),
      exec (.pagerdescWrite v) s = .next { s.writeReg 0x070 v with lm := { (s.writeReg 0x070 v).lm with pagerIdle := [] } } ∧
      ((s.reg 0x070).getLsbD 0 = false → exec (.pagerTaskPlace k) s = .next s) ∧
      (∀ d c, d = s.wordsAt (bitsAt (s.reg 0x070) 8 44 * 256) 32 → c = bitsAt (s.reg 0x070) 58 6 → (s.reg 0x070).getLsbD 0 = true →
        k < 2048 → s.isPagerCore k = true → (s.coreAt k).task = none → s.ctxState c = 1 → k ∉ s.lm.pagerIdle → s.awake (k / 8) = true →
        (0, k / 8) ∉ s.ras.fenced →
        (∀ h es, descZero d true = true → s.programHandle c d = some h → es = descEntries d h.len → es = true →
          (s.reg (ctxBase c + 0x10)).getLsbD 62 = true → (d.getD 0 0).getLsbD 49 = true →
          ∃ t : Task, t.launch = none ∧ t.ctx = c ∧ t.sup = true ∧ t.core = some k ∧ t.st = .running ∧ t.sched = s.reg (ctxBase c + 0x20) ∧
            ∀ u, u = State.startOn { s with lm := { s.lm with nextTask := s.lm.nextTask + 1, tasks := s.lm.tasks ++ [t] } } k t d k 1 0 →
            exec (.pagerTaskPlace k) s =
              .next (u.modCore k fun x => { x with k := { x.k with pend := x.k.pend ||| ((s.coreAt k).k.pend &&& 4) } }).superDeliver) ∧
        ((descZero d true = false ∨ s.programHandle c d = none ∨ (∃ h, s.programHandle c d = some h ∧ descEntries d h.len = false) ∨
            (s.reg (ctxBase c + 0x10)).getLsbD 62 = false ∨ (d.getD 0 0).getLsbD 49 = false) →
          exec (.pagerTaskPlace k) s = .next { s with lm := { s.lm with pagerIdle := k :: s.lm.pagerIdle } })) ∧
      (clu < 256 → ∀ u, u = (s.writeReg (clusterBase clu) v).superDeliver →
        ((∀ i < 8, ¬PagerEnds u (8 * clu + i)) → exec (.pagercfgWrite clu v) s = .next u) ∧
        (∀ i < 8, (∀ j < 8, j ≠ i → ((u.coreAt (8 * clu + j)).task.map (·.pager)).getD false = false) → PagerEnds u (8 * clu + i) →
          (∀ j < 8, (((u.endTask (8 * clu + i)).coreAt (8 * clu + j)).task.map (·.pager)).getD false = false) →
          exec (.pagercfgWrite clu v) s = .next (u.endTask (8 * clu + i)))) ∧
      (∀ u, u = s.answered src v →
        (∀ d : Core, u.allCores.find? (fun c => c.task.isSome && c.view.ctx == bitsAt v 42 6 && c.pagerOut == some (bitsAt v 31 11, bitsAt v 48 16)) = some d →
          exec (.pagerReplyArrival src v) s = .next (u.modCore d.idx fun c => c.takeReply (replyValue v))) ∧
        ((∀ d ∈ u.allCores, d.task.isSome → d.view.ctx = bitsAt v 42 6 → d.pagerOut ≠ some (bitsAt v 31 11, bitsAt v 48 16)) →
          (∀ t : Task, u.lm.tasks.find? (fun t => t.saved && t.ctx == bitsAt v 42 6 && t.pagerOut == some (bitsAt v 31 11, bitsAt v 48 16)) = some t →
            exec (.pagerReplyArrival src v) s =
              .next (u.modTask t.id fun x => { x with heldReply := some (replyValue v), pagerOut := none })) ∧
          ((∀ t ∈ u.lm.tasks, t.saved = true → t.ctx = bitsAt v 42 6 → t.pagerOut ≠ some (bitsAt v 31 11, bitsAt v 48 16)) →
            exec (.pagerReplyArrival src v) s = .next (u.count (staleReg src))))))

/-! ### Coherence and fabrics -/

/-- R45-R48, R57-R62: the split of a cluster store and the windows of the memory-side cache. -/
def Obligations.StoresAndMscWindows : Prop :=
  ∀ (s : State) (g st n : Nat) (v : Word),
    let a := mscBase st n + 8
    exec (.cssplitWrite g v) s = .next ((s.writeReg (splitReg g) v).setFld (splitReg g) 9 1 1) ∧
    (((s.reg (splitReg g)).getLsbD 9 = false ∨ s.clusterHolds g = true) → exec (.cssplitChange g) s = .next s) ∧
    ((s.reg (splitReg g)).getLsbD 9 = true → s.clusterHolds g = false → ∀ size top cl u, size = bitsAt (s.reg (splitReg g)) 0 2 →
      cl = aget Cluster.reset g s.clusters → top = max (l1Bytes cl.split) (l1Bytes size) → u = s.dropL1 g →
      exec (.cssplitChange g) s = .next ((({ u with
        store := u.store.filter fun c => !(c.1 / 2 ^ 21 == g && decide (2 ^ 18 - top ≤ c.1 % 2 ^ 18))
        clusters := aput Cluster.reset g (cl.withSplit size) u.clusters } : State).dropRings g).setFld (splitReg g) 8 2 0)) ∧
    (s.mscEnabled st n = false → exec (.mscWindowDisable st n v) s = .next (((s.writeReg a v).setFld a 61 1 0).mscRepin st)) ∧
    (s.mscEnabled st n = true → exec (.mscWindowDisable st n v) s =
      .next ((((s.setFld a 63 1 0).setFld a 60 1 (if v.getLsbD 60 then 0 else s.rfld a 60 1)).setFld a 61 1 0).mscRepin st)) ∧
    (s.mscEnabled st n = true → exec (.mscWindowEnable st n v) s = .next (s.setFld a 60 1 (if v.getLsbD 60 then 0 else s.rfld a 60 1))) ∧
    (s.mscEnabled st n = false → (s.writeReg a v).mscAdmits st n = true → exec (.mscWindowEnable st n v) s =
      .next ((((s.writeReg a v).setFld a 61 1 1).setFld a 59 1 0).setFld a 40 8 (bitsAt v 48 8))) ∧
    (s.mscEnabled st n = false → (s.writeReg a v).mscAdmits st n = false → exec (.mscWindowEnable st n v) s =
      .next ((s.setFld a 60 1 (if v.getLsbD 60 then 0 else s.rfld a 60 1)).setFld a 59 1 1)) ∧
    (((s.reg a).getLsbD 62 = false ∨ (s.reg a).getLsbD 61 = false) → exec (.mscWindowFill st n) s = .next s) ∧
    ((s.reg a).getLsbD 61 = true → (s.reg a).getLsbD 62 = true → exec (.mscWindowFill st n) s =
      .next ((List.range ((s.mscRange st n).2 / 2048)).foldl (fun s i => s.mscFetch st ((s.mscRange st n).1 / 2048 + i)) s)) ∧
    (s.now % 2 ^ (max 16 (min 24 (s.rfld (stackBase st) 0 5))) ≠ 0 → exec (.mscFadeBoundary st) s = .next s) ∧
    (s.now % 2 ^ (max 16 (min 24 (s.rfld (stackBase st) 0 5))) = 0 → ∀ u, u = (List.range 64).foldl (fun s i => s.fadeWindow st i) s →
      exec (.mscFadeBoundary st) s = .next (u.withCoh { u.coh with touched := u.coh.touched.filter fun x => x / 64 != st })) ∧
    (((s.reg a).getLsbD 61 = false ∨ s.rfld a 48 8 = 0) → s.fadeWindow st n = s) ∧
    ((s.reg a).getLsbD 61 = true → s.rfld a 48 8 ≠ 0 →
      (64 * st + n ∈ s.coh.touched → s.fadeWindow st n = s.setFld a 40 8 (s.rfld a 48 8)) ∧
      (64 * st + n ∉ s.coh.touched → 1 < s.rfld a 40 8 → s.fadeWindow st n = s.setFld a 40 8 (s.rfld a 40 8 - 1)) ∧
      (64 * st + n ∉ s.coh.touched → s.rfld a 40 8 ≤ 1 → s.fadeWindow st n =
        (((((s.setFld a 40 8 0).setFld a 61 1 0).setFld a 63 1 0).setFld a 60 1 1).mscRepin st).superEvent))

/-- R70, R73-R75: a probe that no pin refuses is acted on and answered, and a unit that its agent does not hold is answered after 40 cycles; a refused
one is answered `RETRY` and tried again after 64. A downgrade leaves its agent no unit that it could write or evict silently, an invalidation or a
recall none at all. R65, R69, R81: a request of an outside agent that its home agent performs leaves the queue; one that must wait is queued, or,
where the queue is full, tried again. A cacheable access that is granted leaves the unit in its agent's cache, in M after a write. R76-R84: the
trackers' epochs, and the migration of a frame from its submission to the end of its redirect. -/
def Obligations.ProbesAndMigrations : Prop :=
  (∀ (s : State) (p : Probe) (a : Answer) (q : HomeReq),
      (∀ i ∈ [(0, Instr.prbs p), (1, .prbx p), (2, .prbsys p)], ∀ r : Probe, r = { p with kind := i.1 } →
        (s.probeRefused r = true →
          exec i.2 s = .next (s.withCoh { s.coh with answers := s.coh.answers ++ [(r, .retry, s.now)] })) ∧
        (∀ b u, s.probeRefused r = false → (s.dirtyOut p i.1).probeAgent p.agent (probeCtx p) p.sline p.unit i.1 = (b, u) →
          ((∀ other, b ≠ .notheld other) ∨ i.1 = 2 →
            exec i.2 s = .next (u.withCoh { u.coh with answers := u.coh.answers ++ [(r, b, (s.dirtyOut p i.1).now)] })) ∧
          (∀ other, b = .notheld other → i.1 ≠ 2 →
            exec i.2 s = .next (u.withCoh { u.coh with answers := u.coh.answers ++ [(r, b, (s.dirtyOut p i.1).now + 40)] })) ∧
          (∀ t ∈ u.coh.tagsOf p.sline, t.agent = p.agent → p.unit < 16 → ctxHits (probeCtx p) t.ctx = true →
            t.unit p.unit ≠ .m ∧ t.unit p.unit ≠ .e ∧ (i.1 ≠ 0 → t.unit p.unit = .i)))) ∧
      (∀ t, t ≤ s.now → s.coh.answers = [(p, a, t)] → a ≠ .retry →
        exec (.probeResponse p a) s = .next ((s.withCoh { s.coh with answers := [] }).dirAnswer p.agent p.sline p.unit p.kind a)) ∧
      (∀ t, t ≤ s.now → s.coh.answers = [(p, .retry, t)] → exec (.probeResponse p .retry) s =
        .next (s.withCoh { s.coh with answers := [], refused := s.coh.refused ++ [(p, s.now + 64)] })) ∧
      (∀ other t, t ≤ s.now → s.coh.answers = [(p, .notheld other, t)] → exec (.notheld p) s =
        .next ((s.withCoh { s.coh with answers := [] }).dirAnswer p.agent p.sline p.unit p.kind (.notheld other))) ∧
      (¬AnswerDue s p a → exec (.probeResponse p a) s = .next s) ∧
      ((∀ x ∈ s.coh.answers, x.1 ≠ p) → exec (.notheld p) s = .next s) ∧
      (∀ t, s.coh.refused = [(p, t)] → t ≤ s.now → exec (.pinRetry p) s = .next ((s.withCoh { s.coh with refused := [] }).probeArrives p)) ∧
      (∀ t, s.coh.refused = [(p, t)] → s.now < t → exec (.pinRetry p) s = .next s) ∧
      (rangeOk q.addr (max 1 q.data.length) = true → q.agent < 17 → (1, s.homeAgent q.addr) ∉ s.ras.fenced →
        (∀ w ∈ s.coh.queue, w.asker = .req q → w.due ≤ s.now) → exec (.homeAgentRequest q) s = .next (s.homeTake q))) ∧
  (∀ (s t : State) (q : HomeReq) (pa : Nat),
      (s.homePerform q = .ok t → ∀ u, u = t.dequeue (some (.req q)) →
        s.homeTake q = u.withCoh { u.coh with retries := u.coh.retries.filter (· != q) }) ∧
      (s.homePerform q = .error pa → ∀ u, u = s.enqueue (reqWho q) pa →
        ((∃ e ∈ u.coh.queue, e.asker = .req q) → s.homeTake q = u.withCoh { u.coh with retries := u.coh.retries.filter (· != q) }) ∧
        ((∀ e ∈ u.coh.queue, e.asker ≠ .req q) → s.homeTake q =
          if q ∈ s.coh.retries then s else s.withCoh { s.coh with retries := s.coh.retries ++ [q] })) ∧
      (s.homeOf q.addr = .own →
        (q.kind = .readShared → s.homePerform q = s.cached (reqWho q) q.addr q.grain q.pol false false) ∧
        (q.kind = .readExclusive → s.homePerform q = s.cached (reqWho q) q.addr q.grain q.pol false true) ∧
        (q.kind = .uncachedRead → s.homePerform q = s.uncached (reqWho q) q.addr 1 q.pol false) ∧
        (q.kind = .writeback → s.queuedBefore (reqWho q) q.addr = false → s.homePerform q = .ok (s.takeWriteback q))) ∧
      (s.homeOf q.addr = .queued → s.homePerform q = .error q.addr) ∧
      (∀ (w : Who) (grain pol : Nat) (l1 write : Bool) (x : Moesi), (∀ t ∈ s.coh.tags, t.st.length = 16) → w.agent < 17 →
        s.cached w pa grain pol l1 write = .ok t → x = t.coh.unitAt w.agent w.ctx (slineOf pa) (unitIn pa (s.grainAt pa grain)) →
        x ≠ .i ∧ (write = true → x = .m))) ∧
  (∀ (s : State) (v : Word) (old line : Nat) (m : Mig),
      (s.now % 2 ^ (max 16 (min 30 (s.rfld 0x030 48 5))) ≠ 0 → exec .hptEpochEnd s = .next s) ∧
      (s.now % 2 ^ (max 16 (min 30 (s.rfld 0x030 48 5))) = 0 → (s.reg 0x030).getLsbD 63 = false →
        exec .hptEpochEnd s = .next (s.withCoh { s.coh with tracks := [] })) ∧
      (s.now % 2 ^ (max 16 (min 30 (s.rfld 0x030 48 5))) = 0 → (s.reg 0x030).getLsbD 63 = true →
        exec .hptEpochEnd s = .next ((mergeTracks (s.coh.tracks.filter fun t => decide (s.rfld 0x030 0 16 ≤ t.count))).foldl State.propose
          (s.withCoh { s.coh with tracks := [] }))) ∧
      (v.getLsbD 63 = false → exec (.migSubmit v) s = .next (s.writeReg 0x048 v) ∧ exec (.migRelease v) s = .next (s.writeReg 0x050 v)) ∧
      (∀ t, v.getLsbD 63 = true → t = s.writeReg 0x048 v → t.migStatus ≠ 1 → exec (.migSubmit v) s = .next (t.setFld 0x048 48 8 t.migStatus)) ∧
      (∀ t u, v.getLsbD 63 = true → t = s.writeReg 0x048 v → t.migStatus = 1 → u = t.setFld 0x048 48 8 1 →
        ∀ x : Mig, x = { old := u.rfld 0x038 16 36 * 2 ^ 16, new := u.rfld 0x040 16 36 * 2 ^ 16, size := u.rfld 0x038 0 5
                         nocopy := v.getLsbD 62, host := u.fmode 4, recalled := false, due := 0, copied := [] } →
        exec (.migSubmit v) s = .next ((u.withCoh { u.coh with migs := u.coh.migs ++ [x] }).recallNew x)) ∧
      (∀ t, s.coh.migs.find? (fun x => x.old == old) = some m → s.migNext m = some line →
        t = s.recallRange (m.old + 2048 * line) 2048 false →
        ∀ u, u = (if m.nocopy then t else (((t.recallRange (m.new + 2048 * line) 2048 false).moveLine (m.old + 2048 * line) (m.new + 2048 * line)).mscTouch
            (m.old + 2048 * line) 2048 2 false).mscTouch (m.new + 2048 * line) 2048 2 true) →
        exec (.migLineCopy old line) s = .next (u.withCoh { u.coh with
          migs := u.coh.migs.map fun x => if x.old = old then { x with copied := line :: x.copied } else x })) ∧
      (∀ a b, Memory.wf s.mem = true → cellRead (s.moveLine a b).mem b 2048 = cellRead s.mem a 2048) ∧
      (s.coh.migs.find? (fun x => x.old == old) = some m → 2 ^ m.size / 2048 ≤ m.copied.length →
        exec (.migComplete old) s = .next (s.withCoh { s.coh with
          migs := s.coh.migs.filter fun x => x.old != old, redirects := s.coh.redirects ++ [(m.old, m.new, m.size)]
          migDone := s.coh.migDone ++ [(mkWord [(2, 60), (0x02, 52), (m.old, 0)], mkWord [(m.new, 0), (m.size, 0)], m.host)] })) ∧
      (s.coh.migs.find? (fun x => x.old == old) = some m → m.copied.length < 2 ^ m.size / 2048 → exec (.migComplete old) s = .next s) ∧
      (∀ r rs t, s.coh.migDone = r :: rs → migRing.full s = false → t = migRing.put s [r.1, r.2.1] →
        exec .migCompletionRecord s = .next ((t.withCoh { t.coh with migDone := rs }).migEvent r.2.2)) ∧
      ((s.coh.migDone = [] ∨ migRing.full s = true) → exec .migCompletionRecord s = .next s) ∧
      (v.getLsbD 63 = true → ∀ t, t = s.writeReg 0x050 v → exec (.migRelease v) s =
        .next (t.withCoh { t.coh with redirects := t.coh.redirects.filter fun r => r.1 != bitsAt v 16 36 * 2 ^ 16 })))

/-- R119-R126: flits of the two rings. A flit that is taken leaves its slot; a message whose buffer has no room goes on once, then reserves a place and
goes back to its source, is removed there and is inserted again after a backoff. A flit of the rack ring for another module goes on 12 cycles later,
one for this module into the package ring. R127-R129: peer accesses and their end-to-end protection. A request with a new number is performed and
answered, or kept while it waits at a home agent; a duplicate is counted and answered again without effect; an answer is taken by the operation or
job that asked, and a refusal is counted and recorded here too. -/
def Obligations.RingsAndPeers : Prop :=
  (∀ (s : State) (f : Flit) (src tag : Nat) (cw : Bool),
      (f.idx = 0 → (f.rsv = false ∨ flitKey f ∉ s.fab.resv) → exec (.ringFirstFlit f true) s = .next (State.takeFlit (s.withFab { s.fab with
        returned := s.fab.returned.filter fun r => !sameMsg r.flit f }) f)) ∧
      (∀ room, f.idx = 0 → f.rsv = true → flitKey f ∈ s.fab.resv → exec (.ringFirstFlit f room) s = .next (State.takeFlit (s.withFab { s.fab with
        resv := s.fab.resv.erase (flitKey f), returned := s.fab.returned.filter fun r => !sameMsg r.flit f }) f)) ∧
      (f.idx = 0 → (f.rsv = false ∨ flitKey f ∉ s.fab.resv) →
        (f.rfs = false → exec (.ringFirstFlit f false) s = .next (s.goesOn { f with rfs := true } false)) ∧
        (f.rfs = true → ∀ few, few = (s.fab.resv.filter fun r => r.1 == flitTo f && r.2.1 == flitFrom f && r.2.2.2 == f.rack).length →
          (few < 4 → flitKey f ∉ s.fab.resv → exec (.ringFirstFlit f false) s =
            .next (State.goesOn (s.withFab { s.fab with resv := s.fab.resv ++ [flitKey f] }) f true)) ∧
          ((4 ≤ few ∨ flitKey f ∈ s.fab.resv) → exec (.ringFirstFlit f false) s = .next (s.goesOn f true)))) ∧
      (∀ room, f.idx ≠ 0 →
        ((∃ g ∈ s.fab.incoming, sameMsg f g = true ∧ g.idx = 0) → exec (.ringFirstFlit f room) s = .next (s.takeFlit f)) ∧
        ((∀ g ∈ s.fab.incoming, sameMsg f g = true → g.idx ≠ 0) → exec (.ringFirstFlit f room) s = .next (s.goesOn f false))) ∧
      (f.rack = false → ∃ t, s.takeFlit f = t ∧ t.fab.ring = s.fab.ring.filter (fun r => !sameFlit r.flit f) ∧
        t.fab.incoming = assemble s.fab.incoming f ∧ t.mem = s.mem ∧ t.coh = s.coh) ∧
      (∀ k r, k = ((s.fab.returned.find? fun r => sameMsg r.flit f).map (·.returns)).getD 0 + 1 →
        r = { flit := { f with rsv := true, rfs := false }, returns := k, due := s.now + (if f.rack then 1024 else 64) * 2 ^ min (k - 1) 4 } →
        exec (.ringFlitReturn f) s = .next ((s.withFab { s.fab with
          ring := s.fab.ring.filter (fun x => !sameFlit x.flit f)
          returned := s.fab.returned.filter (fun x => !sameMsg x.flit f) ++ [r] }).count (s.ringRef f))) ∧
      (∀ r, s.fab.returned = [r] → r.flit.rack = false → r.flit.src = src → r.flit.tag = tag → r.due ≤ s.now →
        (∀ t, s.insertFlit r.flit = some t →
          exec (.ringReinsert src tag) s = .next (t.withFab { t.fab with returned := t.fab.returned.map (fun x =>
            if sameMsg x.flit r.flit = true then { x with due := 2 ^ 64 } else x) })) ∧
        (s.insertFlit r.flit = none → exec (.ringReinsert src tag) s = .next s)) ∧
      (∀ r d t, s.fab.returned = [r] → r.flit.rack = true → r.flit.smod = src → r.flit.tag = tag → r.due ≤ s.now →
        d = s.goesCw s.modid r.flit.dmod → t = s.rackSend d 0 [{ r.flit with cw := d }] →
        exec (.rackReinsert src tag) s = .next (t.withFab { t.fab with returned := t.fab.returned.map (fun x =>
          if sameMsg x.flit r.flit = true then { x with due := 2 ^ 64 } else x) })) ∧
      ((∀ r ∈ s.fab.returned, s.now < r.due) → exec (.ringReinsert src tag) s = .next s ∧ exec (.rackReinsert src tag) s = .next s) ∧
      (∀ t, s.insertFlit f = some t → ∃ r : RingSlot, t = s.withFab { s.fab with ring := s.fab.ring ++ [r] } ∧ r.flit = { f with cw := r.cw } ∧
        r.cw = decide ((stationPos f.dst + 10 - stationPos f.src) % 10 ≤ 5) ∧ r.back = false ∧
        (∀ q ∈ s.fab.ring, q.cw = r.cw → q.lane = r.lane → q.slot ≠ r.slot)) ∧
      (f.dmod = s.modid → exec (.rackForward f cw) s = .next (s.takeFlit { f with cw := cw, rack := true })) ∧
      (f.dmod ≠ s.modid → ∀ out : Bool, out = (if s.bundleCut (if cw then 0 else 2) then !cw else cw) →
        exec (.rackForward f cw) s = .next (s.withFab { s.fab with
          waiting := s.fab.waiting ++ [(if out then 0 else 2, s.now + 12, { f with cw := cw, rack := true })] }))) ∧
  (∀ (s t : State) (src dst sq st : Nat) (p : PeerReq) (x : PeerAnswer) (bs : List Byte) (e : E2eReq),
      (s.peerPerform src p = some (t, x) → (∀ y ∈ s.fab.peers, y.1 = src → y.2.2 ≠ p) →
        exec (.peerAccess src p) s = .next (t.answerPeer src (answerCode p.kind) 0 x)) ∧
      (∀ y, s.peerPerform src p = some (t, x) → s.fab.peers.find? (fun y => y.1 == src && y.2.2 == p) = some y →
        exec (.peerAccess src p) s = .next (((t.withFab { t.fab with peers := t.fab.peers.erase y }).keepResult src y.2.1 p x).answerPeer src
          (answerCode p.kind) y.2.1 x)) ∧
      (s.peerPerform src p = none → exec (.peerAccess src p) s = .next s) ∧
      (PeerKind.access p.kind = true → (∀ c, s.peerAdmits src (peerPhys p.addr) (peerLen p.kind) (peerWrites p.kind) ≠ some c) →
        ∃ d, s.peerPerform src p = some ((s.count 0x090).ras0 0x10 (src * 2 ^ 46) (BitVec.ofNat 64 p.addr) 0, { status := 1, data := d })) ∧
      (NewNumber (s.e2eSrcOf src) sq →
        exec (.e2eRequest src sq false p) s = .next s ∧
        ∀ u, u = s.numberTaken src sq →
          (PeerKind.access p.kind = true → u.peerPerform src p = some (t, x) →
            exec (.e2eRequest src sq true p) s = .next ((t.keepResult src sq p x).answerPeer src (answerCode p.kind) sq x)) ∧
          (PeerKind.access p.kind = true → u.peerPerform src p = none →
            exec (.e2eRequest src sq true p) s = .next (u.withFab { u.fab with peers := u.fab.peers ++ [(src, sq, p)] })) ∧
          (∀ w, p.kind = .window w → exec (.e2eRequest src sq true p) s =
            .next (State.answerPeer (u.withFab { u.fab with winFly := u.fab.winFly ++ [w] }) src 11 sq { status := 0, data := [] })) ∧
          (∀ k m, (p.kind = .interest k m ∨ p.kind = .publish k m) → exec (.e2eRequest src sq true p) s =
            .next ((u.agFrom src k m).answerPeer src 11 sq { status := 0, data := [] }))) ∧
      ((1024 < (sq + 2 ^ 24 - (s.e2eSrcOf src).high) % 2 ^ 24 ∧ (sq + 2 ^ 24 - (s.e2eSrcOf src).high) % 2 ^ 24 < 2 ^ 23 ∧ sq ∉ (s.e2eSrcOf src).got) →
        ∀ room, exec (.e2eRequest src sq room p) s = .next s) ∧
      (∀ room u, OldNumber (s.e2eSrcOf src) sq → u = s.count (bridgeBase (s.bridgeFrom src) + 0x008) →
        (∀ y ∈ u.fab.peers, y.1 = src → y.2.1 ≠ sq) →
        (∀ n, p.kind = .read n → u.peerPerform src p = some (t, x) → exec (.e2eRequest src sq room p) s = .next (t.answerPeer src 3 sq x)) ∧
        (∀ o z v w, p.kind = .atomic o z v w → exec (.e2eRequest src sq room p) s =
          .next (u.answerPeer src 3 sq { status := 0, data := aget [] sq (s.e2eSrcOf src).results })) ∧
        ((∀ n, p.kind ≠ .read n) → (∀ o z v w, p.kind ≠ .atomic o z v w) → exec (.e2eRequest src sq room p) s =
          .next (u.answerPeer src 11 sq { status := 0, data := [] }))) ∧
      (s.e2eOf dst sq = none → exec (.e2eAck dst sq ⟨st, bs⟩) s = .next s ∧ exec (.e2eTimeout dst sq) s = .next s) ∧
      (s.e2eOf dst sq = some e → ∀ u, u = (if st = 1 then ((s.dropE2e dst sq).count 0x090).ras0 0x10 (dst * 2 ^ 46) (BitVec.ofNat 64 e.req.addr) 0
          else s.dropE2e dst sq) →
        (st = 2 → exec (.e2eAck dst sq ⟨st, bs⟩) s = .next (u.fatalError e.ctx (s.originOf e).1 0x84 (s.originOf e).2 0)) ∧
        (st ≠ 2 → e.core = none → exec (.e2eAck dst sq ⟨st, bs⟩) s = .next (u.jobAnswered e bs)) ∧
        (∀ k o v, st ≠ 2 → e.core = some k → (s.coreAt k).ops.find? (fun o => o.uid == e.uid) = some o → o.slot = none →
          v = u.modCore k (fun c => { c with ops := c.ops.map (MemOp.take e bs) }) →
          ∀ w, (v.perform k e.uid = .done w ∨ v.perform k e.uid = .wait w) → exec (.e2eAck dst sq ⟨st, bs⟩) s = .next w)) ∧
      (s.e2eOf dst sq = some e → dst ∉ s.rack → exec (.e2eTimeout dst sq) s = .next (s.e2eGiveUp (s.bridgeTo dst) e)) ∧
      (s.e2eOf dst sq = some e → dst ∈ s.rack →
        (s.now < e.sentAt + s.e2eTimer (s.bridgeTo dst) → exec (.e2eTimeout dst sq) s = .next s) ∧
        (e.sentAt + s.e2eTimer (s.bridgeTo dst) ≤ s.now → s.e2eTries (s.bridgeTo dst) ≤ e.sends →
          exec (.e2eTimeout dst sq) s = .next (s.e2eGiveUp (s.bridgeTo dst) e)) ∧
        (e.sentAt + s.e2eTimer (s.bridgeTo dst) ≤ s.now → e.sends < s.e2eTries (s.bridgeTo dst) → ∀ f : E2eReq,
          f = { e with sends := e.sends + 1, sentAt := s.now } → ∀ u, u = s.withFab { s.fab with e2e := s.fab.e2e.map fun x => if x = e then f else x } →
          exec (.e2eTimeout dst sq) s = .next (u.rackSend (s.goesCw s.modid dst) 0 (u.peerFlits f)))))

/-- R130-R134: a lane group numbers its flits, keeps copies until they are acknowledged, delivers in sequence and refuses the rest once. What a flit's
bytes say decides what its receiver does: a data flit acknowledges for the paired sender, a control flit is about that sender, and one whose CRC or
kind is bad counts as a data flit with an error. R120, R130, R131: the layout of a flit. The 160 bytes of a link flit say what they were made from,
with a good CRC; the slot header says what the flit was; a flit goes out as ten beats of 16 bytes, each on the next active wavelength. R135-R138:
loss of light, notices, training and retraining. Below four wavelengths a lane group goes down, and its flits wait for the others of its bundle. -/
def Obligations.Links : Prop :=
  (∀ (s : State) (lg n : Nat) (f : Flit) (l : Lane) (room : Bool) (bs : List Byte) (cr : Word), s.laneOf lg = l → l.lg = lg →
      (∀ u p, l.tx = .send → l.copies.length < 4096 → p = s.laneOf (pairLane lg) → u = (s.takeWaiting (lg / 28) f).putLane { p with since := 0 } →
        exec (.linkSend lg f) s =
          .next (u.laneOut { l with copies := l.copies ++ [(l.m, f)], m := (l.m + 1) % 2 ^ 24 } (s.dataBytes lg l.m f))) ∧
      (l.tx = .send → 4096 ≤ l.copies.length → exec (.linkSend lg f) s = .next s) ∧
      (∀ r c p, l.tx = .replay → l.resend = some r → l.copies.find? (fun c => c.1 == r) = some (r, c) → p = s.laneOf (pairLane lg) →
        exec (.linkSend lg f) s = .next ((s.putLane { p with since := 0 }).laneOut
          (if (r + 1) % 2 ^ 24 = l.m then { l with tx := .send, resend := none } else { l with resend := some ((r + 1) % 2 ^ 24) }) (s.dataBytes lg r c))) ∧
      ((linkFlit (bs ++ wordBytes cr)).good = true → (linkFlit (bs ++ wordBytes cr)).kind = 1 → exec (.linkDataFlit lg bs cr room) s =
        .next ((s.laneAcked (pairLane lg) (linkFlit (bs ++ wordBytes cr)).ack).receiveData lg (linkFlit (bs ++ wordBytes cr)) room)) ∧
      ((linkFlit (bs ++ wordBytes cr)).good = true → (linkFlit (bs ++ wordBytes cr)).kind = 2 → exec (.linkDataFlit lg bs cr room) s = exec (.linkAck (pairLane lg) (linkFlit (bs ++ wordBytes cr)).ack) s) ∧
      ((linkFlit (bs ++ wordBytes cr)).good = true → (linkFlit (bs ++ wordBytes cr)).kind = 3 → exec (.linkDataFlit lg bs cr room) s = exec (.linkNak (pairLane lg) (linkFlit (bs ++ wordBytes cr)).ack) s) ∧
      ((linkFlit (bs ++ wordBytes cr)).good = true → (linkFlit (bs ++ wordBytes cr)).kind = 4 →
        exec (.linkDataFlit lg bs cr room) s = exec (.linkNotice (pairLane lg) (linkFlit (bs ++ wordBytes cr)).ack (linkFlit (bs ++ wordBytes cr)).mask) s) ∧
      ((linkFlit (bs ++ wordBytes cr)).good = true → (linkFlit (bs ++ wordBytes cr)).kind = 0 ∨ (linkFlit (bs ++ wordBytes cr)).kind = 5 → exec (.linkDataFlit lg bs cr room) s = .next s) ∧
      ((linkFlit (bs ++ wordBytes cr)).good = false → exec (.linkDataFlit lg bs cr room) s = .next (s.receiveData lg (linkFlit (bs ++ wordBytes cr)) room)) ∧
      (∀ x : LinkFlit,
        (l.rx = .accept ∨ l.rx = .nakwait → x.good = true → x.sq = l.n → s.receiveData lg x true = laneDelivers s l x.flit) ∧
        (l.rx = .accept → x.good = true → seqBefore x.sq l.n = true → s.receiveData lg x room = laneAcks s l) ∧
        (l.rx = .accept → (x.good = false ∨ (seqBefore x.sq l.n = false ∧ (x.sq ≠ l.n ∨ room = false))) → s.receiveData lg x room = laneNaks s l) ∧
        (l.rx = .nakwait → (x.good = false ∨ x.sq ≠ l.n ∨ room = false) → s.receiveData lg x room = s) ∧
        (l.rx = .realign ∨ l.rx = .retrain ∨ l.rx = .down → s.receiveData lg x room = s)) ∧
      (l.tx = .send → exec (.linkAck lg n) s = .next (s.putLane { l with copies := l.copies.filter fun c => !seqBefore c.1 n })) ∧
      (∀ r, l.tx = .replay → l.resend = some r → seqBefore r n = true → exec (.linkAck lg n) s = .next (s.putLane (l.replayFrom n))) ∧
      (l.tx = .send ∨ l.tx = .replay → (∃ c ∈ l.copies, seqBefore c.1 n = false) → exec (.linkNak lg n) s = .next (s.putLane { l with
        copies := l.copies.filter (fun c => !seqBefore c.1 n), tx := .replay, resend := some n })) ∧
      (l.tx = .send ∨ l.tx = .replay → (∀ c ∈ l.copies, seqBefore c.1 n = true) → exec (.linkNak lg n) s =
        .next (s.putLane { l with copies := [], tx := .send, resend := none })) ∧
      (l.rx = .accept → l.since ≠ 0 → l.ackDue ≤ s.now → exec (.linkAckTimer lg) s = .next (laneAcks s l)) ∧
      ((l.since = 0 ∨ s.now < l.ackDue) → exec (.linkAckTimer lg) s = .next s) ∧
      (l.rx = .nakwait → l.nakDue ≤ s.now → l.naks + 1 ≠ 16 → exec (.linkNakTimer lg) s =
        .next (((s.count (linknak lg)).control lg 3 l.n 0).putLane { l with naks := l.naks + 1, nakDue := s.now + 256 })) ∧
      (l.rx = .nakwait → l.nakDue ≤ s.now → l.naks + 1 = 16 → exec (.linkNakTimer lg) s =
        .next (((s.count (linknak lg)).control lg 3 l.n 0).retrainLane { l with naks := 0 })) ∧
      (s.now < l.nakDue → exec (.linkNakTimer lg) s = .next s)) ∧
  ((∀ (kind sq ack dmod smod : Nat) (slot data : List Byte), kind < 6 → sq < 2 ^ 24 → ack < 2 ^ 24 → dmod < 32 → smod < 32 →
      slot.length = 16 → data.length = 128 → ∀ x, x = linkFlit (linkBytes kind sq ack dmod smod slot data) →
      x.kind = kind ∧ x.sq = sq ∧ x.ack = ack ∧ x.mask = BitVec.ofNat 16 (bytesNat (slot.take 2)) ∧ x.good = true ∧ x.flit = flitOf (bytesNat slot) data dmod smod ∧
        (linkBytes kind sq ack dmod smod slot data).length = 160) ∧
    (∀ (f : Flit), f.kind < 16 → f.dst < 16 → f.src < 16 → f.idx < 64 → f.ctx < 64 → f.agent < 4096 → f.tag < 4096 → f.e2e < 2 ^ 24 →
      f.addr < 2 ^ 52 → f.rack = true → flitOf (flitHeader f).toNat f.data f.dmod f.smod = f) ∧
    (∀ (l : Lane) (bs : List Byte) (j : Nat), j < 10 → l.mask ≠ 0 → (l.beats bs).length = 30 ∧
      (l.beats bs).getD (3 * j) 0 = BitVec.ofNat 64 ((actives l.mask).getD ((l.beat + j) % (actives l.mask).length) 0) ∧
      l.mask.getLsbD ((l.beats bs).getD (3 * j) 0).toNat = true ∧
      (l.beats bs).getD (3 * j + 1) 0 = BitVec.ofNat 64 (bytesNat ((bs.drop (16 * j)).take 8)) ∧
      (l.beats bs).getD (3 * j + 2) 0 = BitVec.ofNat 64 (bytesNat ((bs.drop (16 * j + 8)).take 8)))) ∧
  (∀ (s : State) (lg n e : Nat) (mask : BitVec 16) (l : Lane), s.laneOf lg = l → l.lg = lg →
      (l.rx ≠ .down → l.mask &&& mask ≠ l.mask → ∀ m : Lane, m = { l with
          mask := l.mask &&& mask, oldMask := l.mask, rx := .realign, naks := 0, seen := s.now } →
        exec (.lossOfLight lg mask) s = .next (if lit (l.mask &&& mask) < 4 then (s.control lg 4 l.n (l.mask &&& mask)).laneDown m
          else (s.control lg 4 l.n (l.mask &&& mask)).putLane m)) ∧
      ((l.rx = .down ∨ l.mask &&& mask = l.mask) → exec (.lossOfLight lg mask) s = .next s) ∧
      (l.tx = .down → exec (.linkNotice lg n mask) s = .next s) ∧
      (l.tx ≠ .down → ∀ m : Lane, m = { l with
          oldMask := if l.tx = .realign then l.oldMask else l.mask, seen := if l.tx = .realign then l.seen else s.now
          mask := l.mask &&& mask, notice := some n } →
        (lit m.mask < 4 → exec (.linkNotice lg n mask) s = .next (s.laneDown m)) ∧
        (4 ≤ lit m.mask → (l.tx ≠ .realign ∨ m.mask ≠ l.mask) → exec (.linkNotice lg n mask) s = .next (s.train m)) ∧
        (4 ≤ lit m.mask → l.tx = .realign → m.mask = l.mask → exec (.linkNotice lg n mask) s = .next (s.tryReplay m))) ∧
      (l.tx = .realign → l.trainDue ≤ s.now →
        (l.notice = none → exec (.linkTrainingDone lg) s = .next (s.putLane { l with trained := true })) ∧
        (∀ m, l.notice = some n → m = Lane.replayFrom { l with trained := false, notice := none, own := 0 } n →
          exec (.linkTrainingDone lg) s = .next ((s.putLane m).linkRecord 0x21 lg l.own l.oldMask l.mask l.seen n m.copies.length))) ∧
      ((l.tx ≠ .realign ∨ s.now < l.trainDue) → exec (.linkTrainingDone lg) s = .next s) ∧
      (l.rx = .realign → exec (.linkTrainingLocked ⟨lg, e⟩) s =
        .next ((s.putLane { l with rx := .accept }).linkRecord 0x21 lg 0 l.oldMask l.mask l.seen l.n e)) ∧
      (l.rx ≠ .realign → exec (.linkTrainingLocked ⟨lg, e⟩) s = .next s) ∧
      (l.rx = .retrain ∨ l.tx = .retrain → ∀ new, new = mask &&& s.sound lg →
        (∀ m : Lane, m = { l with rx := if l.rx = .retrain then .accept else l.rx, tx := if l.tx = .retrain then .send else l.tx
                                  mask := new, oldMask := new, naks := 0, beat := 0, own := 0 } →
          exec (.linkRetrainResult lg ⟨mask, true⟩) s = .next ((s.putLane m).linkRecord 0x22 lg 0 l.mask new s.now l.n 0)) ∧
        exec (.linkRetrainResult lg ⟨mask, false⟩) s = .next ((s.linkRecord 0x22 lg 0 l.mask l.mask s.now l.n 0).laneDown l)) ∧
      (l.rx ≠ .retrain → l.tx ≠ .retrain → ∀ good, exec (.linkRetrainResult lg ⟨mask, good⟩) s = .next s) ∧
      (112 ≤ lg → lg < 128 → exec (.elsuFault lg e) s = .next (s.planeFault (lg - 112) e)) ∧
      (lg < 112 → l.tx = .down → exec (.elsuFault lg e) s = .next s) ∧
      (lg < 112 → l.tx ≠ .down → ∀ t u, t = s.setFld (lgstat lg) 20 4 (s.rfld (lgstat lg) 20 4 ||| 2 ^ (e % 4)) →
        u = t.svcreq 1 (lg / 28 / 2 * 2 ^ 46 + lg / 28 % 4 * 2 ^ 44 + lg % 28 * 2 ^ 39 + 2 ^ (e % 4) * 2 ^ 35) →
        ∀ m : Lane, m = { l with
          oldMask := if l.tx = .realign then l.oldMask else l.mask, seen := if l.tx = .realign then l.seen else t.now
          mask := l.mask &&& ~~~(elsuMask e), own := l.own ||| 2 ^ (e % 4) } →
        exec (.elsuFault lg e) s = .next (if lit m.mask < 4 then u.laneDown m else u.train m)) ∧
      (∀ m, m = { l with tx := .realign, trained := false, trainDue := s.now + 128, beat := 0 } →
        s.train l = s.laneOut m (linkBytes 5 0 (s.laneOf (pairLane lg)).n (s.hopEnd lg) s.modid (zeroBytes 16) (zeroBytes 128))))

/-- R139-R141: a window write that is next in its sequence and that a window admits writes its bytes and is acknowledged; one that no window
admits is counted and acknowledged as refused; one that comes early waits, while its station's 64 entries last. An acknowledgement returns the
units of its write, and the operation is over with its last. -/
def Obligations.WindowWrites : Prop :=
  ∀ (s : State) (w : WinWrite) (clu slot seq k i : Nat) (o : MemOp) (ref : Bool),
    (s.fab.winFly = [w] → s.fab.winBuf = [] → w.seq = s.winNextOf (winKey w) →
      ∀ next, next = (winKey w, (w.seq + 1) % 2 ^ 16) :: s.fab.winNext.filter (fun p => p.1 != winKey w) →
      (s.windowAdmits w = true → ∃ t : State, exec (.windowWriteArrival w) s = .next t ∧
        t.store = cellWrite s.store (2 ^ 21 * w.clu + w.off) w.data ∧ t.fab.winNext = next ∧ t.fab.winFly = [] ∧ t.fab.winBuf = [] ∧
        t.mem = s.mem ∧ t.core = s.core ∧
        (w.smod = s.modid → t.fab.winAcks = s.fab.winAcks ++ [(w.sclu, w.slot, w.seq, false)])) ∧
      (s.windowAdmits w = false → ∃ t : State, exec (.windowWriteArrival w) s = .next t ∧ t.store = s.store ∧ t.fab.winNext = next ∧
        t.mem = s.mem ∧ t.core = s.core ∧ (∀ a, a ≠ clusterBase w.clu + 0x020 → t.reg a = s.reg a) ∧
        (w.smod = s.modid → t.fab.winAcks = s.fab.winAcks ++ [(w.sclu, w.slot, w.seq, true)]))) ∧
    (s.fab.winFly = [w] → w.seq ≠ s.winNextOf (winKey w) → (∀ x ∈ s.fab.winBuf, x.seq ≠ s.winNextOf (winKey x)) →
      ((s.fab.winBuf.filter fun x => x.clu / 32 == w.clu / 32).length < 64 →
        exec (.windowWriteArrival w) s = .next (s.withFab { s.fab with winFly := [], winBuf := s.fab.winBuf ++ [w] })) ∧
      (64 ≤ (s.fab.winBuf.filter fun x => x.clu / 32 == w.clu / 32).length → exec (.windowWriteArrival w) s = .next s)) ∧
    (w ∉ s.fab.winFly → exec (.windowWriteArrival w) s = .next s) ∧
    ((s.windowOps clu).findSome? (fun p => (p.2.winAt slot seq).map fun i => (p.1, p.2, i)) = some (k, o, i) →
      (∀ own, (o.spans[i]?.map fun p => p.addr / 2 ^ 29) = some s.modid → s.fab.winAcks = [(clu, slot, seq, own)] →
        ∀ t, t = s.withFab { s.fab with winAcks := [] } →
        exec (.windowAck clu slot seq ref) s = .next ((if own then t.count (clusterBase clu + 0x020) else t).windowDone k o i)) ∧
      ((o.spans[i]?.map fun p => p.addr / 2 ^ 29) ≠ some s.modid →
        ∀ t, t = s.withFab { s.fab with e2e := s.fab.e2e.filter fun e => !e.isWindow clu slot seq } →
        exec (.windowAck clu slot seq ref) s = .next ((if ref then t.count (clusterBase clu + 0x020) else t).windowDone k o i))) ∧
    ((s.windowOps clu).findSome? (fun p => (p.2.winAt slot seq).map fun i => (p.1, p.2, i)) = none →
      exec (.windowAck clu slot seq ref) s = .next s) ∧
    (∀ (v : State) (q : Span), o.spans[i]? = some q → o.slot = some slot → k < 2048 →
      v = s.windowCount (s.coreAt k).cluster slot (s.windowOut (s.coreAt k).cluster slot - windowUnits q) →
      ((aset i [] o.got).length < o.spans.length → s.windowDone k o i =
        v.modCore k fun c => { c with ops := c.ops.map fun x => if x.uid = o.uid then { o with got := aset i [] o.got } else x }) ∧
      (o.spans.length ≤ (aset i [] o.got).length → o.job = none → s.windowDone k o i =
        v.modCore k fun c => { c with ops := c.ops.filter fun x => x.uid != o.uid }))

/-- R145, R147, R148, R151, R152: what a pass frame, a sync message and a data burst do on arrival. What is not whole, or from no member, has no effect.
A pass frame ends a loss procedure and commits, and its `NEXT` holds a tenure; messages and bursts are kept for their commit. A burst that is not
good, or finds its sender's four places taken, is discarded, and the fourth failed resend fences the member. R100, R106, R147-R149, R151: a pass or
regenerate frame commits the numbers below its `SEQ`, and committed messages are performed strictly in that order. One that must wait holds every
later one, a marker asks for its burst, and a missing message is asked for once. What a message does goes by its kind, a history copy's by what it
copies (log 30); when a member can obtain no copy is the model's choice (log 50). R153: Quartz holds or skips one count, at most once in 1,024
cycles, or in 64 while it is out of bound. -/
def Obligations.PlaneArrivals : Prop :=
  (∀ (s u v : State) (f : List Word) (b : Burst) (rest : List Burst) (key : Nat),
      (s.frameOk f 1 = false → exec (.zgPassFrame f) s = .next s) ∧
      (s.frameOk f 1 = true → u = (s.passed f).zgCommit f →
        (frameNext f ≠ u.modid ∨ u.zgOn = false → exec (.zgPassFrame f) s = .next u) ∧
        (frameNext f = u.modid → u.zgOn = true →
          exec (.zgPassFrame f) s = .next (if framePlane f = 0 then u.syncTenure else u.dataTenure (framePlane f)))) ∧
      (s.syncOk f = false → exec (.zgSyncMessage f) s = .next s) ∧
      (s.syncOk f = true → u = (if syncKind f = 0 ∨ 6 < syncKind f then s.count 0x0A0 else s) →
        v = (if syncKind f = 6 then u.withZg { u.zg with copies := adel (syncSeq f) u.zg.copies } else u) →
        (syncSeq f < v.zg.performed ∨ (∃ m ∈ v.zg.pending, syncSeq m = syncSeq f) → exec (.zgSyncMessage f) s = .next v) ∧
        (v.zg.performed ≤ syncSeq f → (∀ m ∈ v.zg.pending, syncSeq m ≠ syncSeq f) →
          exec (.zgSyncMessage f) s = .next (v.withZg { v.zg with pending := v.zg.pending ++ [f] }).zgKeep.zgWork)) ∧
      (s.zgOn = false ∨ b.src = s.modid ∨ b.src ∉ s.members → exec (.zgDataBurst b) s = .next s) ∧
      (s.zgOn = true → b.src ∈ s.members → b.src ≠ s.modid → u = s.heard b.plane → key = burstKey b.src b.plane b.burst →
        rest = (u.zg.bursts.filter fun x => !sameBurst x b.src b.plane b.burst) →
        (b.crcGood = true → (rest.filter fun x => x.src == b.src && x.plane == b.plane).length < 4 →
          exec (.zgDataBurst b) s = .next (u.withZg { u.zg with
            bursts := rest ++ [b], resends := adel key u.zg.resends, fresh := key :: u.zg.fresh.filter (· != key) }).zgWork) ∧
        (b.crcGood = false ∨ 4 ≤ (rest.filter fun x => x.src == b.src && x.plane == b.plane).length →
          (ahas key u.zg.resends = false → exec (.zgDataBurst b) s = .next u) ∧
          (ahas key u.zg.resends = true → aget 0 key u.zg.resends < 3 → exec (.zgDataBurst b) s =
            .next ((u.withZg { u.zg with resends := aset key (aget 0 key u.zg.resends + 1) u.zg.resends }).syncQueue
              (u.resendReq b.plane b.burst b.src 0))) ∧
          (ahas key u.zg.resends = true → 3 ≤ aget 0 key u.zg.resends → exec (.zgDataBurst b) s = .next u.zgFence)))) ∧
  (∀ (s u : State) (f m : List Word) (n : Nat) (done : Bool),
      (framePlane f = 0 → s.zg.rejoin = false → s.zg.committed < frameSeq f →
        u = (({ s with moduleFloor := max s.moduleFloor (frameTlast f) } : State).withZg { s.zg with committed := frameSeq f }).zgKeep →
        s.zgCommit f = (u.withZg { u.zg with seq := frameSeq f, tlast := frameTlast f }).zgWork) ∧
      (framePlane f = 0 → s.zg.rejoin = false → frameSeq f ≤ s.zg.committed →
        s.zgCommit f = (s.withZg { s.zg with seq := frameSeq f, tlast := frameTlast f }).zgWork) ∧
      (s.zgOn = false → s.zgWork = s) ∧ (s.zgOn = true → s.zgWork = s.zgDrain (s.zg.committed - s.zg.performed + 1)) ∧
      (s.zg.committed ≤ s.zg.performed → s.zgDrain (n + 1) = s) ∧
      (s.zg.performed < s.zg.committed → s.zg.pending.find? (fun x => syncSeq x == s.zg.performed) = none → s.zg.skip ≤ s.zg.performed →
        (s.zg.performed + 256 < s.zg.committed → s.zgDrain (n + 1) = s.zgFence) ∧
        (s.zg.committed ≤ s.zg.performed + 256 →
          s.zgDrain (n + 1) = s.askOnce (2 ^ 40 + s.zg.performed) (s.resendReq 0 0 0 s.zg.performed))) ∧
      (s.zg.performed < s.zg.committed → s.zg.pending.find? (fun x => syncSeq x == s.zg.performed) = some m → s.syncPerform m = (u, done) →
        (done = true → s.zgDrain (n + 1) = (u.withZg { u.zg with
          performed := u.zg.performed + 1, pending := u.zg.pending.filter fun x => syncSeq x != syncSeq m }).zgDrain n) ∧
        (done = false → s.zg.skip ≤ s.zg.performed → s.zgDrain (n + 1) = u.askBurst m)) ∧
      (∀ k, k = (if syncKind m = 6 then copiedKind m else syncKind m) →
        (k = 1 → s.groupWrite (syncSrc m) (syncGa m) ((syncPay m).take (syncLen m)) = none → s.syncPerform m = (s, false)) ∧
        (k = 1 → syncSrc m ≠ s.modid → s.groupWrite (syncSrc m) (syncGa m) ((syncPay m).take (syncLen m)) = some u →
          u.modid = s.modid → s.syncPerform m = (u, true)) ∧
        (k = 2 → (∀ b ∈ s.zg.bursts, b.crcGood = true → sameBurst b (syncSrc m) (syncPlane m) (syncBurst m) = false) →
          s.syncPerform m = (s, false) ∧ s.askBurst m =
            s.askOnce (burstKey (syncSrc m) (syncPlane m) (syncBurst m)) (s.resendReq (syncPlane m) (syncBurst m) (syncSrc m) 0)) ∧
        (k = 3 → syncOpc m < 0x10 ∨ 0x13 < syncOpc m → s.syncPerform m = (s.count 0x0A0, true)) ∧
        (k = 3 → 0x10 ≤ syncOpc m → syncOpc m ≤ 0x13 → syncSrc m ≠ s.modid → s.syncPerform m = (s, true)) ∧
        (k = 3 → 0x10 ≤ syncOpc m → syncOpc m ≤ 0x13 → syncSrc m = s.modid →
          s.syncPerform m = s.grpCommit (syncCore m) (syncDetail m / 2 ^ 39 % 4096) (syncTime m)) ∧
        (k = 4 → s.groupArrival (syncSrc m) (syncDetail m) (syncTime m) = (true, u) → s.syncPerform m = (u, true)) ∧
        (k = 4 → s.groupArrival (syncSrc m) (syncDetail m) (syncTime m) = (false, u) → s.syncPerform m = (u.count 0x0A0, true)))) ∧
  (∀ (s : State),
      ((s.zg.delta = 0 ∨ s.now < s.zg.lastCorr + (if s.zg.fast then 64 else 1024)) → exec .qtzCorrection s = .next s) ∧
      (s.zg.lastCorr + (if s.zg.fast then 64 else 1024) ≤ s.now →
        (0 < s.zg.delta → exec .qtzCorrection s = .next (s.withZg { s.zg with
          delta := s.zg.delta - 1, lastCorr := s.now, skipped := false, fast := s.zg.fast && decide (9 < s.zg.delta) })) ∧
        (s.zg.delta < 0 → exec .qtzCorrection s = .next (({ s with quartz := s.quartz + 2 } : State).withZg { s.zg with
          delta := s.zg.delta + 1, lastCorr := s.now + 2, skipped := true, fast := s.zg.fast && decide (s.zg.delta < -9) }))))

/-- R150: the procedure for a lost token. It starts after four silent rotations, reports in slots, and ends with a regenerate frame of the lowest
member that reported; the counter of the plane counts that frame, and the lowest member with the highest report sends history copies. -/
def Obligations.TokenLoss : Prop :=
  ∀ (s u v : State) (p : Nat) (f : List Word) (cs : List Nat),
    (s.planeSilent p = false → exec (.zgTokenLossTimeout p) s = .next s) ∧
    (s.planeSilent p = true → p < 16 → (if p = 0 then u = (s.setFld 0x020 16 1 1).dropUncommitted else u = (s.setFld 0x020 (16 + p) 1 1).resendBursts p) →
      exec (.zgTokenLossTimeout p) s = .next (u.putLoss { plane := p, base := lossBase s.now, reports := [], reported := false })) ∧
    (s.frameOk f 3 = false → exec (.zgLossReport f) s = .next s) ∧
    (s.frameOk f 3 = true → s.lossOf (framePlane f) = none → exec (.zgLossReport f) s = .next ((s.returned f).heard (framePlane f))) ∧
    (∀ l, s.frameOk f 3 = true → s.lossOf (framePlane f) = some l →
      exec (.zgLossReport f) s = .next (((s.returned f).heard (framePlane f)).putLoss { l with
        base := if s.now < l.base then frameTlast f else l.base, reports := aset (frameFrom f) (frameSeq f) l.reports })) ∧
    (s.lossOf p = none → exec (.zgLossReportSlot p) s = .next s ∧ exec (.zgRegenerate p) s = .next s) ∧
    (∀ l, s.lossOf p = some l → (l.reported = true ∨ s.now < l.base + s.modid * (s.pmax + 80) → exec (.zgLossReportSlot p) s = .next s) ∧
      (s.now < l.base + 32 * (s.pmax + 80) ∨ (l.reports.map (·.1)).head? ≠ some s.modid → exec (.zgRegenerate p) s = .next s)) ∧
    (∀ l n, s.lossOf p = some l → l.reported = false → s.zgOn = true → l.base + s.modid * (s.pmax + 80) ≤ s.now →
      n = (if p = 0 then s.lastCommitted else 0) → u = s.putLoss { l with reported := true, reports := aset s.modid n l.reports } →
      exec (.zgLossReportSlot p) s = .next (u.sendFrame (u.mkFrame 3 u.nextMember p n l.base))) ∧
    (∀ l n rs, s.lossOf p = some l → s.zgOn = true → l.base + 32 * (s.pmax + 80) ≤ s.now → l.reports = (s.modid, n) :: rs →
      (p ≠ 0 → exec (.zgRegenerate p) s = .next (s.sendFrame (s.mkFrame 2 s.modid p 0 0))) ∧
      (p = 0 → exec (.zgRegenerate p) s =
        .next (s.sendFrame (s.mkFrame 2 s.modid 0 (maxReport l.reports) (s.timeOf (maxReport l.reports - 1)))))) ∧
    (s.frameOk f 2 = false → exec (.zgRegenerateFrame f) s = .next s) ∧
    (s.frameOk f 2 = true → u = (s.returned f).heard (framePlane f) → v = (u.endLoss (framePlane f)).count (0x600 + 8 * framePlane f) →
      (framePlane f ≠ 0 → frameNext f ≠ v.modid ∨ v.zgOn = false → exec (.zgRegenerateFrame f) s = .next v) ∧
      (framePlane f ≠ 0 → frameNext f = v.modid → v.zgOn = true → exec (.zgRegenerateFrame f) s = .next (v.dataTenure (framePlane f))) ∧
      (framePlane f = 0 →
        (∀ l, u.lossOf 0 = some l → ((l.reports.filter fun r => seqUp r.2 == maxReport l.reports).map (·.1)).head? = some u.modid →
          cs = (List.range (maxReport l.reports - minReport l.reports)).map (· + minReport l.reports)) →
        ((u.lossOf 0 = none ∨ ∃ l, u.lossOf 0 = some l ∧
          ((l.reports.filter fun r => seqUp r.2 == maxReport l.reports).map (·.1)).head? ≠ some u.modid) → cs = []) →
        ∀ t, t = (v.withZg { v.zg with copies := cs.map (·, []) ++ v.zg.copies.filter fun c => !cs.contains c.1 }).zgCommit f →
          (frameNext f ≠ t.modid ∨ t.zgOn = false → exec (.zgRegenerateFrame f) s = .next t) ∧
          (frameNext f = t.modid → t.zgOn = true → exec (.zgRegenerateFrame f) s = .next t.syncTenure)))

/-- R163, R172: the winning entry has the most mask bits, and among those the lowest index; it names the producer. Toward it an interest goes to the
station itself, by the bridge router, or along the rack. Entries of a table stand in ascending index. R158, R163, R166, R168, R172-R176: a router's
interests, refreshes, cancels and refusals, row by row. One that was held back by a full table and is past its `EXP` when it is taken is discarded.
With `EN` = 0 the messages other than interests come round again (log 51). R158, R164, R165, R169, R173, R179: the segments of a tile are put
together at a router; a whole tile goes to every entry it satisfies. An announcement goes to the cache and the learned routes, and from the bridge
router on. A consumer record whose `EXP` is reached leaves its slot EXPIRED. R174, R177-R179, R206: a tile for a record of the station. It is
delivered once, to a task whose save is not in progress and whose context is not halted, before the record's `EXP`; the bytes go to the destination
as it lies now, and the slot is ARRIVED with the arrival word. -/
def Obligations.TileRouting : Prop :=
  (∀ (s : State) (rt name pm ps kind : Nat) (m : AgMsg) (r : Nat × Word × Word),
      ((∀ q ∈ s.routes rt, routeMatch name q = false) → s.route rt name = none) ∧
      ((s.routes rt).Pairwise (fun a b => a.1 < b.1) → r ∈ s.routes rt → routeMatch name r = true →
        (∀ q ∈ s.routes rt, routeMatch name q = true → popCount 24 (bitsAt q.2.2 40 24) < popCount 24 (bitsAt r.2.2 40 24) ∨
          (popCount 24 (bitsAt q.2.2 40 24) = popCount 24 (bitsAt r.2.2 40 24) ∧ r.1 ≤ q.1)) →
        s.route rt name = some (bitsAt r.2.2 35 5, bitsAt r.2.2 31 4)) ∧
      (s.route rt m.name = none → s.agUp rt kind m = (s, .noroute)) ∧
      (s.route rt m.name = some (pm, ps) →
        (pm = s.modid → ps = rt → s.agUp rt kind m = (s, .producer)) ∧
        (pm = s.modid → ps ≠ rt → ps < 8 → s.agUp rt kind m = (s.agMsg ps kind m (s.markOf rt m.omod), .forwarded)) ∧
        (pm ≠ s.modid → rt = 8 → s.agUp rt kind m = (s.agRack (s.goesCw s.modid pm) kind m, .forwarded)) ∧
        (pm ≠ s.modid → rt ≠ 8 → s.agUp rt kind m = (s.agMsg 8 kind m (s.markOf rt m.omod), .forwarded)))) ∧
  (∀ (s u : State) (rt down : Nat) (m : AgMsg) (w0 w1 : Word) (n : Nat),
      (s.agExpired rt 0 m down = true →
        (s.agEnabled = false ∨ s.agAdmits (nameNs m.name) m.omod = false ∨ (m.omod ≠ s.modid ∧ m.omod ∉ s.rack) ∨
          s.tileFor rt m.name m.relaxed ≠ none ∨ s.pendFor rt m.name m.relaxed ≠ none ∨ (s.pendsAt rt).length < pendCap rt) →
        exec (.agateInterest rt m down) s = .next (s.agTake rt 0 m down)) ∧
      (s.agExpired rt 0 m down = false → (s.agEnabled = false ∨ s.agAdmits (nameNs m.name) m.omod = false) →
        exec (.agateInterest rt m down) s = .next (((s.count (agRef rt)).agRefuse rt m).agTake rt 0 m down)) ∧
      (s.agExpired rt 0 m down = false → s.agEnabled = true → s.agAdmits (nameNs m.name) m.omod = true → m.omod ≠ s.modid → m.omod ∉ s.rack →
        exec (.agateInterest rt m down) s = .next ((s.count (agRef rt)).agTake rt 0 m down)) ∧
      (s.agEnabled = true → s.agAdmits (nameNs m.name) m.omod = true → (m.omod = s.modid ∨ m.omod ∈ s.rack) →
        (∀ t, s.agExpired rt 0 m down = false → s.tileFor rt m.name m.relaxed = some t →
          u = s.withAg { s.agate with tiles := s.agate.tiles.map fun x => if x = t then { x with qtz := s.now } else x } →
          exec (.agateInterest rt m down) s = .next (((u.count (agHit rt)).sendTile rt { m with
            name := t.name, relaxed := false, hit := !t.prod, ostn := min rt 8, omod := u.modid, size := t.size, exp := 0, segoff := 0
            data := t.data } down).agTake rt 0 m down)) ∧
        (s.tileFor rt m.name m.relaxed = none →
          (∀ p, s.agExpired rt 0 m down = false → s.pendFor rt m.name m.relaxed = some p → u = s.count (agMerge rt) →
            (expAfter m.exp p.exp = false → exec (.agateInterest rt m down) s = .next ((u.putPend (p.join down m.omod)).agTake rt 0 m down)) ∧
            (expAfter m.exp p.exp = true → exec (.agateInterest rt m down) s =
              .next (((u.putPend { p.join down m.omod with exp := m.exp }).agUp rt 4 { m with name := p.name, relaxed := p.relaxed }).1.agTake
                rt 0 m down))) ∧
          (s.pendFor rt m.name m.relaxed = none → pendCap rt ≤ (s.pendsAt rt).length →
            exec (.agateInterest rt m down) s = .next ((s.count (agFull rt)).agLater rt 0 m down)) ∧
          (s.agExpired rt 0 m down = false → s.pendFor rt m.name m.relaxed = none → (s.pendsAt rt).length < pendCap rt →
            u = (s.agUp rt 0 m).1 →
            ∃ p : Pend, p.rt = rt ∧ p.name = m.name ∧ p.relaxed = m.relaxed ∧ p.exp = m.exp ∧ p.st = (s.agUp rt 0 m).2 ∧ p.omod = m.omod ∧
              p.ostn = m.ostn ∧ p.modmask = 0 ∧ p.stns = 0 ∧ p.cw = false ∧ p.ccw = false ∧ p.cons = [] ∧ (∀ q ∈ s.pendsAt rt, q.idx ≠ p.idx) ∧
              ∀ v, v = u.withAg { u.agate with pends := u.agate.pends ++ [p.join down m.omod] } →
                ((s.agUp rt 0 m).2 ≠ .noroute ∨ v.fmode 2 = false → exec (.agateInterest rt m down) s = .next (v.agTake rt 0 m down)) ∧
                ((s.agUp rt 0 m).2 = .noroute → v.fmode 2 = true → exec (.agateInterest rt m down) s =
                  .next (((v.interrupt 3).emit 0 [BitVec.ofNat 64 m.name, BitVec.ofNat 64 (m.name / 2 ^ 64)]).agTake rt 0 m down))))) ∧
      (∀ p, s.pendFor rt m.name m.relaxed = some p →
        (s.agEnabled = false → exec (.agateRefresh rt m down) s = .next (s.agLater rt 4 m down)) ∧
        (s.agEnabled = true → u = s.agTake rt 4 m down →
          (expAfter m.exp p.exp = false ∨ s.agExpired rt 4 m down = true → exec (.agateRefresh rt m down) s = .next u) ∧
          (expAfter m.exp p.exp = true → s.agExpired rt 4 m down = false → exec (.agateRefresh rt m down) s =
            .next ((u.putPend { p with exp := m.exp }).agUp rt 4 { m with name := p.name, relaxed := p.relaxed }).1))) ∧
      (s.pendFor rt m.name m.relaxed = none →
        (∀ v, s.agInterest rt m down = some v → exec (.agateRefresh rt m down) s =
          .next ((if s.agExpired rt 4 m down = true then s else v).agTake rt 4 m down)) ∧
        (s.agInterest rt m down = none → exec (.agateRefresh rt m down) s = .next ((s.count (agFull rt)).agLater rt 4 m down))) ∧
      (s.agEnabled = false → exec (.agateCancel rt m down) s = .next (s.agLater rt 3 m down) ∧
        exec (.agateRefusal rt m) s = .next (s.agLater rt 5 m noMark)) ∧
      (∀ p, s.agEnabled = true → s.pendFor rt m.name m.relaxed = some p → u = s.agTake rt 3 m down →
        ((p.leave down).empty = false → exec (.agateCancel rt m down) s = .next (u.putPend (p.leave down))) ∧
        ((p.leave down).empty = true → p.st ≠ .forwarded → exec (.agateCancel rt m down) s = .next (u.dropPend (p.leave down))) ∧
        ((p.leave down).empty = true → p.st = .forwarded →
          exec (.agateCancel rt m down) s = .next ((u.dropPend (p.leave down)).agUp rt 3 p.msg).1)) ∧
      (s.agEnabled = true → s.pendFor rt m.name m.relaxed = none → exec (.agateCancel rt m down) s = .next (s.agTake rt 3 m down)) ∧
      (s.agEnabled = true → m.omod = s.modid → m.ostn = rt → exec (.agateRefusal rt m) s = .next (s.agTake rt 5 m noMark)) ∧
      (s.agEnabled = true → ¬(m.omod = s.modid ∧ m.ostn = rt) →
        exec (.agateRefusal rt m) s = .next ((s.agTake rt 5 m noMark).agRefuse rt m)) ∧
      (∀ p, (s.pendsAt rt).find? (fun p => p.idx == n) = some p →
        (s.agPast p.exp = true → exec (.agateEntryExpiry rt n) s = .next (s.dropPend p)) ∧
        (s.agPast p.exp = false → exec (.agateEntryExpiry rt n) s = .next s)) ∧
      (rt < 9 → n < 1024 → exec (.routingEntryWrite rt n w0 w1) s =
        .next (((s.writeReg (routeReg rt n) w0).writeReg (routeReg rt n + 8) w1).reroute rt))) ∧
  (∀ (s u : State) (rt n : Nat) (m : AgMsg),
      (s.agEnabled = false → exec (.agateTileSegment rt m) s = .next (s.agLater rt 1 m noMark) ∧
        exec (.agateAnnouncement rt m) s = .next (s.agLater rt 2 m noMark)) ∧
      (s.agEnabled = true → (∀ x ∈ s.agate.msgs, x.1 = rt → x.2.1 = 1 → x.2.2.1 = m → x.2.2.2 < 16) → u = s.agTake rt 1 m noMark →
        (s.agAdmits (nameNs m.name) m.omod = false ∨ m.size = 0 → exec (.agateTileSegment rt m) s = .next u) ∧
        (s.agAdmits (nameNs m.name) m.omod = true → m.size ≠ 0 → ∀ (v w : State) (t t' : Tile),
          (u.agate.tiles.find? (sameFill rt m) = some t ∧ v = u ∨ u.agate.tiles.find? (sameFill rt m) = none ∧ u.fillOf rt m = (v, t)) →
          t' = { t with
            segs := if t.segs.contains m.segoff then t.segs else m.segoff :: t.segs
            data := splice t.data (128 * m.segoff) (m.data.take (128 * (m.size - m.segoff))) } →
          w = v.withAg { v.agate with tiles := v.agate.tiles.filter fun x => !sameFill rt m x } →
          ((m.size + 62) / 63 ≤ t'.segs.length →
            exec (.agateTileSegment rt m) s = .next (w.tileHere rt { m with segoff := 0, data := t'.data })) ∧
          (t'.segs.length < (m.size + 62) / 63 →
            exec (.agateTileSegment rt m) s = .next (w.withAg { w.agate with tiles := t' :: w.agate.tiles })))) ∧
      (s.agEnabled = true → u = s.agTake rt 2 m noMark →
        (s.agAdmits (nameNs m.name) m.omod = false → exec (.agateAnnouncement rt m) s = .next u) ∧
        (s.agAdmits (nameNs m.name) m.omod = true → ∀ v, v = (u.announce rt m.name).learn rt m →
          (rt ≠ 8 → exec (.agateAnnouncement rt m) s = .next v) ∧
          (rt = 8 → m.omod = v.modid → exec (.agateAnnouncement rt m) s =
            .next ((v.annModules (nameNs m.name)).foldl (fun s d => s.agSend d 2 m) v)) ∧
          (rt = 8 → m.omod ≠ v.modid → exec (.agateAnnouncement rt m) s =
            .next ((List.range 8).foldl (fun s d => s.agMsg d 2 m noMark) v)))) ∧
      (∀ c, (s.consAt (n / 8192)).find? (fun c => c.idx == n % 8192) = some c →
        (s.now < c.exp ∨ c.arrived = true ∨ s.consHome c = .saving → exec (.agateRecordExpiry n) s = .next s) ∧
        (c.exp ≤ s.now → c.arrived = false → s.consHome c ≠ .saving → u = (s.setSlot c .expired (neverVal c.name c.slot)).dropCons c →
          exec (.agateRecordExpiry n) s =
            .next ((u.withAg { u.agate with gone := c :: u.agate.gone.filter fun d => !c.same d }).count (routerBase c.stn + 0x028))))) ∧
  (∀ (s u : State) (rt k n mark : Nat) (m : AgMsg), s.agEnabled = true →
      s.agate.msgs.find? (fun x => x.1 == rt && x.2.1 == 1 && x.2.2.1 == m && decide (16 ≤ x.2.2.2)) = some (k, n, m, mark) →
      ((s.consAt rt).find? (fun c => c.idx == mark % 2 ^ 16 - 16) = none → exec (.agateTileSegment rt m) s = .next (s.agTake rt 1 m mark)) ∧
      (∀ c, (s.consAt rt).find? (fun c => c.idx == mark % 2 ^ 16 - 16) = some c →
        (c.arrived = true → c.name = m.name → exec (.agateTileSegment rt m) s = .next ((s.count (agDup rt)).agTake rt 1 m mark)) ∧
        (c.arrived = true → c.name ≠ m.name → exec (.agateTileSegment rt m) s = .next (s.agTake rt 1 m mark)) ∧
        (c.arrived = false → satisfies m.name c.name c.relaxed = false → exec (.agateTileSegment rt m) s = .next (s.agTake rt 1 m mark)) ∧
        (c.arrived = false → satisfies m.name c.name c.relaxed = true →
          (s.landSpans c = none → exec (.agateTileSegment rt m) s = .next s) ∧
          (∀ ss, s.landSpans c = some ss →
            (s.ctxState c.ctx = 2 → exec (.agateTileSegment rt m) s = .next (s.agTake rt 1 m mark)) ∧
            (s.ctxState c.ctx ≠ 2 → mark < 2 ^ 16 → c.exp ≤ s.now →
              exec (.agateTileSegment rt m) s = .next ((s.expireCons c).agTake rt 1 m mark)) ∧
            (s.ctxState c.ctx ≠ 2 → mark < 2 ^ 16 → s.now < c.exp →
              (∀ e, s.writeSpans (hubWho c.ctx) ((cutSpans ss 0 (128 * m.size)).filter fun p => p.place != .peer)
                (localParts (cutSpans ss 0 (128 * m.size)) m.data) = .error e → exec (.agateTileSegment rt m) s = .next s) ∧
              (s.writeSpans (hubWho c.ctx) ((cutSpans ss 0 (128 * m.size)).filter fun p => p.place != .peer)
                (localParts (cutSpans ss 0 (128 * m.size)) m.data) = .ok u →
                ((∀ p ∈ cutSpans ss 0 (128 * m.size), p.place ≠ .peer) →
                  exec (.agateTileSegment rt m) s = .next ((u.arrive c m).agTake rt 1 m mark)) ∧
                ((∃ p ∈ cutSpans ss 0 (128 * m.size), p.place = .peer) → exec (.agateTileSegment rt m) s =
                  .next ((((peerParts (cutSpans ss 0 (128 * m.size)) m.data).foldl (fun v p =>
                    v.e2eSend (p.1.addr / 2 ^ 43 % 32) { kind := .write p.2, addr := p.1.addr % 2 ^ 43 } (3340 + c.stn) none (agUid c) c.ctx)
                      u).agTake rt 1 m mark).agMsg rt 1 m (mark + 2 ^ 16))))) ∧
            (s.ctxState c.ctx ≠ 2 → 2 ^ 16 ≤ mark →
              ((∃ e ∈ s.fab.e2e, e.uid = agUid c) → exec (.agateTileSegment rt m) s = .next s) ∧
              ((∀ e ∈ s.fab.e2e, e.uid ≠ agUid c) → exec (.agateTileSegment rt m) s = .next ((s.arrive c m).agTake rt 1 m mark)))))) ∧
      (∀ c w st, s.arrivalWord c m = (w, st) → u = (if st = true then s.count64 (ctxBase c.ctx + 0x038) else s) →
        s.arrive c m = (u.setSlot c .arrived w).putCons { c with arrived := true, name := m.name, relaxed := false }))

/-- R437, R439-R441: deadlines, remote sends and replies, records and wakes. A deadline reached in the cycle comes before every other event of an entry
in hardware mode, and a reply whose bytes must wait still resolves its entry. R412, R464: the wait of `QTZR` and a sleeping core are over; a core
whose strands have all waited for its delay sleeps, and at the deepest level the lines of its slice leave the cluster's L1. -/
def Obligations.FutureEvents : Prop :=
  (∀ (s u : State) (id gen : Nat) (data : List Byte),
      (s.futAt id = none → exec (.futureDeadline id) s = .next s ∧ exec (.remoteSendComplete id) s = .next s ∧
        exec (.prefillRecordWrite id) s = .next s ∧ (s.slicesOf id = [] → exec (.remoteReply gen id data) s = .next s) ∧
        (∀ c cs, s.slicesOf id = c :: cs → exec (.remoteReply gen id data) s = .next (s.stale c))) ∧
      (∀ e, s.futAt id = some e →
        (e.cpy = true ∨ e.open_ = false ∨ s.now < e.deadline → exec (.futureDeadline id) s = .next s) ∧
        (e.open_ = true → e.cpy = false → e.deadline ≤ s.now → u = ({ s with futSeq := s.futSeq + 1 } : State).putFut { e with
            cpy := true, record := some 2, seq := s.futSeq, counted := false } →
          exec (.futureDeadline id) s = .next u ∧
          (e.hw = true → exec (.remoteReply gen id data) s = .next (u.stale e.ctx) ∧ exec (.remoteSendComplete id) s = .next u)) ∧
        (s.now < e.deadline → e.st = 1 → e.rem = true → e.cpy = false → e.hw = true →
          exec (.remoteSendComplete id) s = .next (s.putFut { e with st := 2 })) ∧
        ((e.open_ = false ∨ e.cpy = true ∨ e.hw = false ∨ s.now < e.deadline ∧ (e.st ≠ 1 ∨ e.rem = false)) →
          exec (.remoteSendComplete id) s = .next s) ∧
        ((e.open_ = false ∨ e.cpy = true ∨ e.hw = false ∨ s.now < e.deadline ∧ (e.rem = false ∨ e.gen ≠ gen)) →
          exec (.remoteReply gen id data) s = .next (s.stale e.ctx)) ∧
        (∀ n st, s.now < e.deadline → e.open_ = true → e.cpy = false → e.rem = true → e.gen = gen → e.hw = true →
          n = min data.length e.rplcap → st = (if n < data.length then 3 else 1) →
          (s.writeReply e (data.take n) = some u → exec (.remoteReply gen id data) s = .next (u.futEnds { e with rlen := n } st)) ∧
          (s.writeReply e (data.take n) = none →
            exec (.remoteReply gen id data) s = .next (s.futEnds { e with rlen := n, reply := some (data.take n) } st))) ∧
        (∀ bs, e.reply = some bs →
          (s.writeReply e bs = some u → exec (.prefillRecordWrite id) s = .next (u.putFut { e with reply := none })) ∧
          (s.writeReply e bs = none → exec (.prefillRecordWrite id) s = .next s)) ∧
        (e.reply = none → e.record = none → exec (.prefillRecordWrite id) s = .next s) ∧
        (e.reply = none → e.record ≠ none → s.pqDesc e.ctx e.pq = none →
          exec (.prefillRecordWrite id) s = .next { s with pqSeq := s.pqSeq.filter fun p => p.1 != 4096 * e.ctx + e.pq }) ∧
        (∀ st h size, e.reply = none → e.record = some st → s.pqDesc e.ctx e.pq = some (h, size) →
          ((∃ x ∈ s.fab.e2e, x.uid = futUid id) → exec (.prefillRecordWrite id) s = .next s) ∧
          ((∀ x ∈ s.fab.e2e, x.uid ≠ futUid id) →
            (s.recRoom e = false → e.counted = true → exec (.prefillRecordWrite id) s = .next s) ∧
            (s.recRoom e = false → e.counted = false → exec (.prefillRecordWrite id) s =
              .next ((s.setFld (ctxBase e.ctx + 0x420) 0 32 (min (2 ^ 32 - 1) (s.rfld (ctxBase e.ctx + 0x420) 0 32 + 1))).putFut { e with
                counted := true })) ∧
            (s.recRoom e = true → st = 2 → exec (.prefillRecordWrite id) s =
              .next (s.putRecord e 2 h size (natBytes 4 (s.rfld (ctxBase e.ctx + 0x408) 40 24)))) ∧
            (∀ ss bs bad, s.recRoom e = true → st ≠ 2 → s.futSpans e (cutSpans e.rplAt 0 e.rlen) = some ss →
              s.gather (hubWho e.ctx) (ss.map fun p => { p with pol := 2 }) = some (u, bs, bad) →
              exec (.prefillRecordWrite id) s = .next (u.putRecord e st h size bs))))) ∧
      (∀ t e, s.lm.tasks.find? (fun t => t.future == some id && t.st == .futwait) = some t → s.futAt id = some e →
        (s.futureOver t = false → exec (.futureWake id) s = .next s) ∧
        (s.futureOver t = true → u = (s.putFut { e with wait := false }).modTask t.id (fun v => { v with st := .queued, future := none }) →
          exec (.futureWake id) s = .next { u with lm := u.lm.enterWoken t.key t.id }))) ∧
  (∀ (s u : State) (k d : Nat),
      exec (.coreWake k) s = .next (s.modCore k fun c => { c with asleep := 0, waited := 0 }) ∧
      exec (.qtzrWake k) s =
        .next (s.modCore k fun c => if c.k.wait = outside then { c with k := { c.k with wait := 0 }, asleep := 0, waited := 0 } else c) ∧
      ((s.coreAt k).asleep = 0 → (s.coreAt k).allWait = true → bitsAt (s.coreAt k).slpcfg 2 16 ≤ (s.coreAt k).waited →
        d = s.sleepDepth (s.coreAt k) → u = (if d = 3 then s.dropL1Where (s.coreAt k).cluster fun sl => sl % 8 == k % 8 else s) →
        exec (.coreSleep k) s = .next (u.modCore k fun c => { c with asleep := d })) ∧
      ((s.coreAt k).asleep ≠ 0 ∨ (s.coreAt k).allWait = false ∨ (s.coreAt k).waited < bitsAt (s.coreAt k).slpcfg 2 16 →
        exec (.coreSleep k) s = .next s) ∧
      (k < 256 → exec (.clusterWake k) s = .next (s.setPower k 0) ∧ exec (.clusterSleep k) s = .next (s.setPower k (s.deepest k))))

/-! ### Debug, hosting and harts -/

/-- R442-R445, R450, R452-R455: halts, resumptions, samples and the modes of a log point. -/
def Obligations.DebugAndReplay : Prop :=
  ∀ (s u v w : State) (g ch p k : Nat),
    (g < 256 → (s.reg (debugBase g)).getLsbD 55 = false → exec (.debugHalt g) s = .next s) ∧
    (g < 256 → exec (.debugHalt g) s = .next (s.haltCluster g 0)) ∧
    (g < 256 → exec (.debugResume g) s = .next (((s.allCores.filter fun c => c.cluster == g && c.halted).map (·.idx)).foldl (fun t k => t.resumeCore k)
      ((s.setFld (debugBase g + 8) 63 1 0).setFld (debugBase g + 8) 55 8 0))) ∧
    (u = s.modCore k (fun c => { c with halted := false }) → v = u.trace (u.coreAt k) 2 0 0 0 0 → (v.coreAt k).pcsOk = true → s.resumeCore k = v) ∧
    (g < 256 → ch < 4 → (s.reg (debugBase g)).getLsbD (43 + ch) = true → exec (.crossTrigger g ch) s = .next (s.haltCluster g 1)) ∧
    ((s.reg (debugBase g)).getLsbD (43 + ch) = false → exec (.crossTrigger g ch) s = .next s) ∧
    (s.sampleDue g = false → exec (.debugSample g) s = .next s) ∧
    (s.sampleDue g = true → g < 256 → exec (.debugSample g) s = .next ((s.allCores.filter fun c => c.cluster == g && s.debugged c).foldl
      (fun t c => t.trace c 8 0 0 c.k.pc (mkWord ((allStrands.map fun σ => (c.sampleCode σ, 4 * σ.num))))) s)) ∧
    (p < 208 → w = s.logFlush p → v = (if s.logMode p = 1 then w.setFld (berylBase p + 0x10) 32 32 (w.logPos p) else s) →
      (u = ((v.setFld (berylBase p) 62 2 1).setFld (berylBase p + 0x10) 0 32 0).setFld (berylBase p + 0x18) 63 1 0 →
        exec (.berylModeRecord p) s = .next ((u.setBeryl (Beryl.new p)).releaseHeld (v.berylOf p).held)) ∧
      (u = (v.setFld (berylBase p) 62 2 2).setFld (berylBase p + 0x10) 0 32 0 →
        exec (.berylModeReplay p) s = .next (u.setBeryl (Beryl.new p))) ∧
      (u = (v.setFld (berylBase p) 62 2 0).setFld (berylBase p + 0x10) 0 32 0 →
        exec (.berylModeOff p) s = .next ((u.setBeryl (Beryl.new p)).releaseHeld (v.berylOf p).held))) ∧
    (s.logMode p ≠ 2 ∨ (s.berylOf p).diverged = true → exec (.berylReplayLimit p) s = .next s) ∧
    (∀ h, p < 208 → s.logMode p = 2 → (s.berylOf p).diverged = false → (s.berylOf p).held.find? (s.overLimit p (s.berylOf p)) = some h →
      exec (.berylReplayLimit p) s = .next (s.diverge p h.2.2.1 h.2.2.2.1 1))

/-- R9, R461, R462: reset, boot and attestation. A boot that fails is locked with the number of its first failing check. That a module reset keeps
memory, as the latest writes left it, and the cluster stores is the model's choice (log 31). -/
def Obligations.ResetAndBoot : Prop :=
  ∀ (s : State) (v : Word),
    (∃ t, exec .moduleReset s = .next t ∧ t.core = State.reset.core ∧ t.cores = State.reset.cores ∧ t.dev = State.reset.dev ∧
      t.quartz = State.reset.quartz ∧ t.lm = State.reset.lm ∧ t.jobs = State.reset.jobs ∧ t.futures = [] ∧ t.mem = s.coherentMem ∧ t.store = s.store) ∧
    (s.rfld 0x800 61 2 = 0 → exec .bootGo s = .next (s.setFld 0x800 61 2 1)) ∧
    (s.rfld 0x800 61 2 ≠ 0 → exec .bootGo s = .next s) ∧
    (s.rfld 0x800 61 2 ≠ 1 → exec .bootVerify s = .next s) ∧
    (s.rfld 0x800 61 2 = 1 → ∃ u : State, u.dev = [] ∧ u.mem = s.mem ∧ u.core = s.core ∧ exec .bootVerify s =
      .next (if s.bootError = 0 then u.setFld 0x800 61 2 2 else (s.setFld 0x800 61 2 3).setFld 0x800 0 8 s.bootError)) ∧
    ((s.writeReg 0x848 v).rfld 0x800 61 2 ≠ 2 → exec (.attestRequest v) s = .next (s.writeReg 0x848 v)) ∧
    ((s.writeReg 0x848 v).rfld 0x800 61 2 = 2 → exec (.attestRequest v) s =
      .next ((s.writeReg 0x848 v).withRas { (s.writeReg 0x848 v).ras with
        attest := some (v.toNat, wordsBytes (attestRegs.map (s.writeReg 0x848 v).reg)) })) ∧
    (s.ras.attest = none → exec .attestReport s = .next s) ∧
    (∀ a regs, s.ras.attest = some (a, regs) → ∃ rep, rep.take 32 = wordsBytes ([0x850, 0x858, 0x860, 0x868].map s.reg) ∧ exec .attestReport s =
      .next (((s.writeMem (3 * 2 ^ 48 + a % 2 ^ 48) rep).withRas { s.ras with attest := none }).interrupt 5))

/-- R465, R467, R468: errors, the fencing of a unit that has 16 uncorrectable errors in 2^30 cycles, eye margins and lost lanes. R401, R469: a
checkpoint, and a register the host writes. -/
def Obligations.ErrorsAndCheckpoints : Prop :=
  (∀ (s u : State) (kind id pa lane : Nat),
      exec (.correctedError id pa) s = .next ((s.count 0x878).ras0 0x01 (id % 2 ^ 11 * 2 ^ 40) (BitVec.ofNat 64 pa) 0) ∧
      (∀ es, u = (if region pa ≤ 3 then s.markPoison pa else s).ras0 0x02 (id % 2 ^ 11 * 2 ^ 40) (BitVec.ofNat 64 pa) 0 →
        es = ((min kind 2, id, s.now) :: u.ras.errors).filter (fun e => decide (s.now < e.2.2 + 2 ^ 30)) →
        ((es.filter fun e => e.1 == min kind 2 && e.2.1 == id).length < 16 →
          exec (.uncorrectableError kind id pa) s = .next (u.withRas { u.ras with errors := es })) ∧
        (16 ≤ (es.filter fun e => e.1 == min kind 2 && e.2.1 == id).length → kind ≠ 2 →
          exec (.uncorrectableError kind id pa) s = .next ((u.withRas { u.ras with errors := es }).fence (min kind 2) id)) ∧
        (16 ≤ (es.filter fun e => e.1 == 2 && e.2.1 == id).length → kind = 2 → exec (.uncorrectableError kind id pa) s = .next (u.withRas { u.ras with
          errors := es, retrain := if id ∈ u.ras.retrain then u.ras.retrain else id :: u.ras.retrain }))) ∧
      (channelOf pa = none → laneMon pa = none → exec (.eyeMarginLow pa kind id) s = .next s) ∧
      ((channelOf pa ≠ none ∨ laneMon pa ≠ none) → u = (s.setFld pa 40 8 kind).setFld pa 32 8 id →
        (u.rfld pa 24 8 ≤ kind % 256 → u.rfld pa 16 8 ≤ id % 256 → exec (.eyeMarginLow pa kind id) s = .next u) ∧
        ((kind % 256 < u.rfld pa 24 8 ∨ id % 256 < u.rfld pa 16 8) →
          exec (.eyeMarginLow pa kind id) s = .next (((u.setFld pa 63 1 1).ras0 0x24 (pa % 2 ^ 16 * 2 ^ 35) 0 0).askRetrain pa))) ∧
      exec (.cranyLinkLaneLost lane) s = .next (s.svcreq 5 lane) ∧
      exec (.memoryChannelRetrainDone lane) s = .next (s.withRas { s.ras with retrain := s.ras.retrain.filter (· != lane) })) ∧
  (∀ (s : State) (v : Word) (pa dir scope n : Nat),
      (s.ras.check ≠ none → exec (.checkpointSave v) s = .next (s.writeReg 0x830 v) ∧
        exec (.checkpointRestore v) s = .next (s.writeReg 0x830 v)) ∧
      (s.ras.check = none → ∃ t u : State, exec (.checkpointSave v) s = .next t ∧
        exec (.checkpointRestore v) s = .next u ∧ t.ras.check = some (0, bitsAt v 60 2, 0) ∧ u.ras.check = some (1, bitsAt v 60 2, 0) ∧
        t.rfld 0x830 52 8 = 1 ∧ u.rfld 0x830 52 8 = 1 ∧ t.mem = s.mem ∧ u.mem = s.mem) ∧
      (s.ras.check = none ∨ s.checkReady = false → exec .checkpointEnd s = .next s) ∧
      (s.ras.check = some (dir, scope, n) → s.checkReady = true →
        ((s.safeRuns.map (·.2.2)).sum < ((checkRuns scope).map (·.2)).sum → exec .checkpointEnd s =
          .next ((((s.setFld 0x830 52 8 0x10).withRas { s.ras with check := none }).ras0 0x30 (0x10 * 2 ^ 43) 0 0).interrupt 5)) ∧
        (((checkRuns scope).map (·.2)).sum ≤ (s.safeRuns.map (·.2.2)).sum → (∃ d ∈ s.safeRuns, (1, 576 + d.1) ∈ s.ras.fenced) →
          exec .checkpointEnd s =
            .next ((((s.setFld 0x830 52 8 0x11).withRas { s.ras with check := none }).ras0 0x30 (0x11 * 2 ^ 43) 0 0).interrupt 5)) ∧
        (((checkRuns scope).map (·.2)).sum ≤ (s.safeRuns.map (·.2.2)).sum → (∀ d ∈ s.safeRuns, (1, 576 + d.1) ∉ s.ras.fenced) →
          ∀ u : State, u = (checkPieces 64 (checkRuns scope) s.safeRuns).foldl (fun t q =>
            if dir = 0 then t.copyMarked q.1 q.2.2 q.2.1 else t.copyMarked q.2.1 q.2.2 q.1) s →
          exec .checkpointEnd s = .next ((((u.setFld 0x830 52 8 2).withRas { u.ras with check := none }).ras0 0x30 (2 * 2 ^ 43)
            (BitVec.ofNat 64 ((checkRuns scope).map (·.2)).sum) 0).interrupt 5))) ∧
      (pa % 8 ≠ 0 → exec (.registerWrite pa v) s = .next s) ∧
      (∀ c, c < 64 → pa = ctxBase c + 0x078 → exec (.registerWrite pa v) s = .next (s.writeReg pa v)))

/-- R429-R432, R438: what a hart's words do. The meanings of the RISC-V words are PRESUMED (log 13). A word that computes writes its destination and
goes on; one that is no instruction, or a floating-point word with the unit off, takes the illegal-instruction exception. R438: `FGET`, `FRES` and
`FEXT`. Outside a sandbox they are illegal instructions. -/
def Obligations.HartWords : Prop :=
  (∀ (s t : State) (h n : Nat) (w : IWord) (x : Hart) (rd : Nat) (a b pc : Word), h < 64 → t = s.atHart h → x = s.hartAt h →
      rd = (w.extractLsb' 7 5).toNat → a = x.get (w.extractLsb' 15 5).toNat → b = x.get (w.extractLsb' 20 5).toNat → pc = x.pc + 4 →
      (w.extractLsb' 0 7 = 0x37#7 → exec (.ferleHartInstruction h w) s = .next (hartSteps t h rd ((w &&& 0xFFFFF000).signExtend 64))) ∧
      (w.extractLsb' 0 7 = 0x17#7 → exec (.ferleHartInstruction h w) s = .next (hartSteps t h rd (x.pc + (w &&& 0xFFFFF000).signExtend 64))) ∧
      (w.extractLsb' 0 7 = 0x67#7 → w.extractLsb' 12 3 = 0#3 → exec (.ferleHartInstruction h w) s =
        .next (hartRetires (t.hartDone h rd pc ((a + (w.extractLsb' 20 12).signExtend 64) &&& ~~~(1 : Word))) h)) ∧
      (w.extractLsb' 0 7 = 0x63#7 → w.extractLsb' 12 3 = 0#3 → a ≠ b → exec (.ferleHartInstruction h w) s = .next (hartSteps t h 0 0)) ∧
      (w.extractLsb' 0 7 = 0x13#7 → w.extractLsb' 12 3 = 0#3 → exec (.ferleHartInstruction h w) s =
        .next (hartSteps t h rd (a + (w.extractLsb' 20 12).signExtend 64))) ∧
      (w.extractLsb' 0 7 = 0x33#7 → w.extractLsb' 12 3 = 0#3 → w.extractLsb' 25 7 = 0#7 →
        exec (.ferleHartInstruction h w) s = .next (hartSteps t h rd (a + b))) ∧
      (w.extractLsb' 0 7 = 0x33#7 → w.extractLsb' 12 3 = 0#3 → w.extractLsb' 25 7 = 0x20#7 →
        exec (.ferleHartInstruction h w) s = .next (hartSteps t h rd (a - b))) ∧
      (∀ (r : State) (bs : List Byte), w.extractLsb' 0 7 = 0x03#7 → (w.extractLsb' 12 3).toNat = n → n < 7 →
        t.hartRead h x.dataPriv .load (x.dataAddr (a + (w.extractLsb' 20 12).signExtend 64)) (2 ^ (n % 4)) = .ok (r, bs) →
        exec (.ferleHartInstruction h w) s = .next (hartRetires (r.hartDone h rd
          (if n < 4 then sextNat (8 * 2 ^ n) (bytesNat bs) else BitVec.ofNat 64 (bytesNat bs)) pc) h)) ∧
      (∀ r : State, w.extractLsb' 0 7 = 0x23#7 → (w.extractLsb' 12 3).toNat = n → n < 4 →
        t.hartWrite h x.dataPriv .store (x.dataAddr (a + (w.extractLsb' 25 7 ++ w.extractLsb' 7 5).signExtend 64)) (natBytes (2 ^ n) b.toNat) = .ok r →
        exec (.ferleHartInstruction h w) s = .next (hartRetires (r.hartDone h 0 0 pc) h)) ∧
      (w = 0x00000073 → exec (.ferleHartInstruction h w) s = .next (hartTraps t h (8 + x.priv.num) 0)) ∧
      (w = 0x00100073 → exec (.ferleHartInstruction h w) s = .next (hartTraps t h 3 x.pc)) ∧
      (w = 0x30200073 → x.priv = .m → exec (.ferleHartInstruction h w) s = .next (hartRetires (t.putHart h x.mret) h)) ∧
      (w = 0x30200073 → x.priv ≠ .m → exec (.ferleHartInstruction h w) s = .next (hartTraps t h 2 0x30200073)) ∧
      (w = 0x10500073 → x.priv = .m → exec (.ferleHartInstruction h w) s =
        .next (hartRetires (t.putHart h { x with pc := pc, wfi := true }) h)) ∧
      (w.extractLsb' 0 7 = 0x53#7 → bitsAt x.mstatus 13 2 = 0 → exec (.ferleHartInstruction h w) s = .next (hartTraps t h 2 (w.setWidth 64))) ∧
      (∀ v fl, w.extractLsb' 0 7 = 0x53#7 → bitsAt x.mstatus 13 2 ≠ 0 → fl ≠ 0 →
        rvFloat w.toNat (x.fcsr.toNat / 32) (x.f.getD (w.extractLsb' 15 5).toNat 0) (x.f.getD (w.extractLsb' 20 5).toNat 0) a = some (.f v fl) →
        exec (.ferleHartInstruction h w) s = .next (hartRetires (t.putHart h
          { ((({ x with f := x.f.set rd v } : Hart).setFcsr (x.fcsr.toNat ||| fl))).dirtyF with pc := pc }) h)) ∧
      (w.extractLsb' 0 7 = 0x6B#7 → exec (.ferleHartInstruction h w) s = .next (hartTraps t h 2 (w.setWidth 64))) ∧
      (w.extractLsb' 0 16 = 0#16 → exec (.ferleHartInstruction h w) s = .next (hartTraps t h 2 0))) ∧
  (∀ (s u : State) (rs2 rs1 rd : BitVec 5) (x : Hart) (h : Nat), h = s.hart → x = s.hartAt h →
      (x.sandboxed = false →
        exec (.fget rs2 rs1 rd) s = .next (hartTraps s h 2 (0x0B#64 + rd.setWidth 64 * 0x80 + rs1.setWidth 64 * 0x8000 + rs2.setWidth 64 * 0x100000)) ∧
        exec (.fres rs2 rs1 rd) s =
          .next (hartTraps s h 2 (0x100B#64 + rd.setWidth 64 * 0x80 + rs1.setWidth 64 * 0x8000 + rs2.setWidth 64 * 0x100000)) ∧
        exec (.fext rs2 rs1 rd) s =
          .next (hartTraps s h 2 (0x200B#64 + rd.setWidth 64 * 0x80 + rs1.setWidth 64 * 0x8000 + rs2.setWidth 64 * 0x100000))) ∧
      (x.sandboxed = true → u = (s.futures.map (·.id)).foldl (fun s i => s.futTick i) s → u.futures.filter (u.claimable x) = [] →
        exec (.fget rs2 rs1 rd) s = .next (hartRetires (u.hartDone h rd.toNat 0 (x.pc + 4)) h)) ∧
      (∀ f n ss ss' bs v, x.sandboxed = true → u = (s.futures.map (·.id)).foldl (fun s i => s.futTick i) s →
        f ∈ u.futures.filter (u.claimable x) → (∀ g ∈ u.futures.filter (u.claimable x), g = f ∨ f.seq < g.seq) →
        n = min f.reqlen (x.get rs2.toNat).toNat → u.hartAccess x .u .store (x.get rs1.toNat).toNat n = .ok ss →
        u.futSpans f (cutSpans f.reqAt 0 n) = some ss' → u.gather (hubWho f.ctx) (ss'.map fun p => { p with pol := 2 }) = some (v, bs, false) →
        ∀ t, v.hartWrite h .u .store (x.get rs1.toNat).toNat (bs.take n) = .ok t →
        exec (.fget rs2 rs1 rd) s = .next (hartRetires ((t.putFut { f with st := 2, claimer := some h }).hartDone h rd.toNat
          (mkWord [(1, 63), (f.id, 32), (f.reqlen, 0)]) (x.pc + 4)) h)) ∧
      (x.sandboxed = true → bitsAt (x.get rs1.toNat) 16 16 = 0 → u = s.futTick (bitsAt (x.get rs1.toNat) 0 16) →
        ((u.futAt (bitsAt (x.get rs1.toNat) 0 16) = none ∨ ∃ f, u.futAt (bitsAt (x.get rs1.toNat) 0 16) = some f ∧ u.resolver h x f = false) →
          exec (.fres rs2 rs1 rd) s = .next (hartRetires ((u.stale x.ctx).hartDone h rd.toNat 1 (x.pc + 4)) h)) ∧
        (∀ f r ss v n, u.futAt (bitsAt (x.get rs1.toNat) 0 16) = some f → u.resolver h x f = true →
          n = min (bitsAt (x.get rs1.toNat) 32 32) f.rplcap → u.hartRead h .u .load (x.get rs2.toNat).toNat n = .ok r →
          r.1.futSpans f (cutSpans f.rplAt 0 n) = some ss →
          r.1.scatter (hubWho f.ctx) (futUid f.id) (ss.map fun p => { p with pol := 2 }) r.2 = some v →
          exec (.fres rs2 rs1 rd) s = .next (hartRetires ((v.futEnds { f with rlen := n }
            (if n < bitsAt (x.get rs1.toNat) 32 32 then 3 else 1)).hartDone h rd.toNat 0 (x.pc + 4)) h))) ∧
      (x.sandboxed = true → bitsAt (x.get rs1.toNat) 16 48 = 0 → u = s.futTick (bitsAt (x.get rs1.toNat) 0 16) →
        ((u.futAt (bitsAt (x.get rs1.toNat) 0 16) = none ∨ ∃ f, u.futAt (bitsAt (x.get rs1.toNat) 0 16) = some f ∧ u.resolver h x f = false) →
          exec (.fext rs2 rs1 rd) s = .next (hartRetires ((u.stale x.ctx).hartDone h rd.toNat 1 (x.pc + 4)) h)) ∧
        (∀ f, u.futAt (bitsAt (x.get rs1.toNat) 0 16) = some f → u.resolver h x f = true →
          exec (.fext rs2 rs1 rd) s = .next (hartRetires ((u.putFut { f with
            deadline := min (f.deadline + (x.get rs2.toNat).toNat) (u.now + 2 ^ 40 - 1) }).hartDone h rd.toNat 0 (x.pc + 4)) h))) ∧
      (x.sandboxed = true → bitsAt (x.get rs1.toNat) 16 16 ≠ 0 → exec (.fres rs2 rs1 rd) s =
        .next (hartTraps s h 2 (0x100B#64 + rd.setWidth 64 * 0x80 + rs1.setWidth 64 * 0x8000 + rs2.setWidth 64 * 0x100000))) ∧
      (x.sandboxed = true → bitsAt (x.get rs1.toNat) 16 48 ≠ 0 → exec (.fext rs2 rs1 rd) s =
        .next (hartTraps s h 2 (0x200B#64 + rd.setWidth 64 * 0x80 + rs1.setWidth 64 * 0x8000 + rs2.setWidth 64 * 0x100000))))

/-! ### The machine -/

/-- R187, R248, R271: a strand's turn fetches the word at its address, decodes it and performs it; a word that is no instruction raises `ILLEGAL`.
In bundle mode K's turn fetches four words. The agenda, and the order without one, are the model's own (log 3). -/
def Obligations.StepRunsDecodedWord : Prop :=
  ∀ (s u : State) (σ : StrandId) (ts : List Turn) (w : IWord),
    (s.agenda = .issue σ :: ts → s.wordMode = true → u = { s with agenda := ts, cur := σ } → u.canIssue = true → u.skips = false →
      u.fetchCode u.here = .ok w →
      (∀ i, decodeWord σ w = .ok i → step s = exec i u) ∧
      (∀ e, decodeWord σ w = .error e → step s = .next (u.trapStop σ 1 0 (w.setWidth 64)))) ∧
    (s.agenda = .issue σ :: ts → s.wordMode = false → u = { s with agenda := ts, cur := .k } → u.canIssue = true → u.skips = false →
      ∀ wl wx ws wk, u.fetchCode u.here = .ok wl → u.fetchCode (u.here + 4) = .ok wx → u.fetchCode (u.here + 8) = .ok ws →
        u.fetchCode (u.here + 12) = .ok wk → step s = exec (.bundleIssue wl wx ws wk) u) ∧
    (∀ n, s.agenda = [] → s.turn ≠ 0 → nextTurn (s.turn - 1) s.turns = some n → n < 8192 →
      u = ({ s with turn := n + 2 } : State).focus (n / 4) → u.wordMode = true →
      ∀ v, v = { u with cur := strandOf (n % 4) } → v.canIssue = true → v.skips = false → v.fetchCode v.here = .ok w →
        ∀ i, decodeWord (strandOf (n % 4)) w = .ok i → step s = exec i v) ∧
    (∀ h n, s.agenda = .hart h :: ts → h < 64 → u = { s with agenda := ts, hart := h } → u.hartNext h = .word n →
      ∀ v, v = u.putHart h { u.hartAt h with wfi := false } →
        (∀ a b c, decodeFerle n = some (.fget a b c) → step s = exec (.fget a b c) v) ∧
        (decodeFerle n = none → step s = exec (.ferleHartInstruction h (BitVec.ofNat 32 n)) v)) ∧
    (s.agenda = .issue σ :: ts → u = { s with agenda := ts, cur := if s.wordMode then σ else .k } →
      (u.canIssue = false → step s = .next u) ∧ (u.canIssue = true → u.skips = true → step s = .next u.skip)) ∧
    (∀ i, s.agenda = .event i :: ts → step s = exec i { s with agenda := ts })

/-- R248, R253, R265-R270, R438: words written out from the encodings, the manual's worked ones among them. -/
def Obligations.DecodedWords : Prop :=
  decodeWord .k 0x00000000 = .ok .nop ∧
  decodeWord .l 0x02952C00 = .ok (.add 9 10 11) ∧
  decodeWord .l 0x3854A000 = .ok (.ldd 5 9 1 0) ∧
  decodeWord .s 0x4064C000 = .ok (.std 6 9 2 0) ∧
  decodeWord .k 0x44000003 = .ok (.dsync 3) ∧
  decodeWord .x 0x8099A119 = .ok (.vadd { vd := 4, va := 12, vb := 13, ty := 0, m := 2, ma := 0, lat := 1, sync := 2, pa := 0, pb := 1 }) ∧
  (∀ σ, decodeWord σ 0xFFFFFFFF = .error .reservedMajor) ∧
  decodeFerle 0x00C5850B = some (.fget 12 11 10) ∧ decodeFerle 0x00C5950B = some (.fres 12 11 10) ∧
  decodeFerle 0x00C5A50B = some (.fext 12 11 10)

/-- R47, R214, R222, R264, R401, R457: what reset leaves, where the manual gives the value: no task runs, no job, future or operation is outstanding, every
context is FREE, the firmware has not started, and the fields that reset to something other than zero hold it. Memory lists nothing (log 1). -/
def Obligations.ResetState : Prop :=
  Canonical State.reset ∧ State.reset.mem = [] ∧ State.reset.jobs = [] ∧ State.reset.futures = [] ∧ State.reset.lm.tasks = [] ∧
  (∀ k, (State.reset.coreAt k).task = none ∧ (State.reset.coreAt k).ops = [] ∧ (State.reset.coreAt k).vshare = 1 ∧
    (State.reset.coreAt k).tl = 0 ∧ (State.reset.coreAt k).xfctl = 0) ∧
  (∀ c, c < 64 → State.reset.reg (ctxBase c + 0x010) = 0 ∧ State.reset.reg (ctxBase c + 0x020) = 0x1110000000000000 ∧
    State.reset.reg (ctxBase c + 0x408) = 0x1000000) ∧
  (∀ g, g < 256 → State.reset.reg (clusterBase g + 0x008) = 1) ∧
  State.reset.reg 0x0F8 = 7 ∧ State.reset.rfld 0x800 61 2 = 0

/-- R188: the uses of a bundle that raise `ILLEGAL`, before any slot of the bundle issues. Where a slot waits or ends its context, that comes before
the test of K's target (log 41). -/
def Obligations.BundleUses : Prop :=
  ∀ (s u : State) (wl wx ws wk : IWord) (σ : StrandId) (i : Instr) (a : Word), BundleFresh s →
    (Forbidden wl wx ws wk σ → (∀ τ, τ.num < σ.num → ¬Forbidden wl wx ws wk τ) → exec (.bundleIssue wl wx ws wk) s =
      .next (({ s with cur := σ } : State).trapStop σ 1 0 (BitVec.ofNat 64 ((slotWord wl wx ws wk σ).toNat + σ.num * 2 ^ 32)))) ∧
    ((∀ τ, ¬Forbidden wl wx ws wk τ) → decodeWord .k wk = .ok i → slotSem i { s with cur := .k } = .ok (.jump u a) → a.toNat % 16 ≠ 0 →
      (∀ t ∈ slotsOf wl wx ws wk, isWait (t.run { s with cur := .k }) = false ∧ isFatal (t.run { s with cur := .k }) = false) →
      exec (.bundleIssue wl wx ws wk) s = .next (({ s with cur := .k } : State).trapStop .k 1 0 (BitVec.ofNat 64 (wk.toNat + 3 * 2 ^ 32))))

/-- R187, R189, R190: a bundle issues as a whole. With words that compute in registers it completes every slot and goes to the next bundle; a slot that
holds no instruction stops it, and a slot that waits holds every other one back. -/
def Obligations.BundleIssues : Prop :=
  ∀ (s t : State) (wl wx ws wk : IWord) (rd ra rb : BitVec 5), BundleFresh s → t = s.allReady →
    decodeWord .l wl = .ok .nop → decodeWord .x wx = .ok .nop → decodeWord .s ws = .ok .nop →
    (decodeWord .k wk = .ok .nop → exec (.bundleIssue wl wx ws wk) s = .next (t.complete t.pcNext)) ∧
    (decodeWord .k wk = .ok (.add rd ra rb) → Written t [rd, ra, rb] →
      exec (.bundleIssue wl wx ws wk) s = .next ((t.setG rd (t.g ra + t.g rb)).complete t.pcNext)) ∧
    (∀ e, decodeWord .k wk = .error e → exec (.bundleIssue wl wx ws wk) s =
      .next (({ s with cur := .k } : State).trapStop .k 1 0 (BitVec.ofNat 64 (wk.toNat + 3 * 2 ^ 32)))) ∧
    (∀ p : BitVec 4, decodeWord .k wk = .ok (.twait p) → TakesFrom t p → s.core.token p.toNat = 0 →
      ∃ u : State, exec (.bundleIssue wl wx ws wk) s = .next u ∧ u.core.k.wait = 1 ∧
        ∀ τ, (u.core.strand τ).pc = (s.core.strand τ).pc ∧ (u.core.strand τ).g = (s.core.strand τ).g ∧
          (u.core.strand τ).win = (s.core.strand τ).win)

/-- R186, R271: a word that the strand's half does not hold, or with a reserved field that is not zero, raises `ILLEGAL` and has no other effect. -/
def Obligations.IllegalWords : Prop :=
  ∀ (s : State) (i : Instr), Fresh s → i.half ≠ .step → i.half ≠ .ferle → (i.issuedBy s.cur = false ∨ i.fieldsOk = false) →
    exec i s = State.raisesIllegal s i

/-- R248-R253, R265-R270, R438: every word decodes to the instruction it encodes. -/
def Obligations.DecodeOfEncode : Prop :=
  ∀ (i : Instr) (w : IWord), i.fieldsOk = true → encode i = some w →
    (∀ σ, i.issuedBy σ = true → decodeWord σ w = .ok i) ∧ (i.half = .ferle → decodeFerle w.toNat = some i)

/-- R248-R253, R265-R270: an instruction that is decoded has its word as its encoding, stands in the half that was read, and leaves no reserved
field set: no two words decode to one instruction in a strand. -/
def Obligations.EncodeOfDecode : Prop :=
  ∀ (σ : StrandId) (w : IWord) (i : Instr), decodeWord σ w = .ok i → encode i = some w ∧ i.issuedBy σ = true

/-- R254, R277-R281: a word that computes in registers changes its destination, the registers that a loop end steps, and nothing else but the loop
levels and the address: no flag, no special register, no byte of memory, nothing outside the core. R254, R277: g0 reads zero, a write to it is
discarded, and a word whose destination it is still completes. -/
def Obligations.RegisterWordsFrame : Prop :=
  (∀ (s t : State) (rd ra rb : BitVec 5) (i : Instr), RegisterWord rd ra rb i → Fresh s → Written s [rd, ra, rb] → exec i s = .next t →
      s.sameOutside t ∧ s.core.sameBut t.core ∧ (∀ a, cellGet t.mem a = cellGet s.mem a ∧ cellGet t.store a = cellGet s.store a) ∧
      (∀ τ, (s.core.strand τ).sameBut (t.core.strand τ)) ∧
      (∀ τ r, (τ = s.cur → r ≠ rd) → ¬StepsReg s τ r → (t.core.strand τ).get r = (s.core.strand τ).get r)) ∧
  (∀ (s : State) (v : Word), s.g 0 = 0 ∧ s.setG 0 v = s ∧
      (∀ ra rb, Fresh s → Written s [ra, rb] → exec (.add 0 ra rb) s = .next s.retired ∧ exec (.addi 0 ra 1) s = .next s.retired))

/-- R297: a load and a store change no byte when they issue, and a store that is performed changes the bytes at the physical address of its handle
address and no other, as the agents of the hub then read them: here from a state in which no cache holds a line and no frame moves. A store to a
register of a unit is its own rule. -/
def Obligations.MemoryFrame : Prop :=
  ∀ (s t v : State) (rd ra : BitVec 5) (y : BitVec 2) (off : BitVec 13) (sig : Option Nat) (n : Nat),
    (Fresh s → Written s [ra, rd] → s.syncTake y = .ok (v, sig) →
      (∀ ss, n ≤ 3 → v.access (if n = 3 then .storeD else .store) (baseOff s ra off (2 ^ n)) (2 ^ n) = .ok ss → (∀ p ∈ ss, p.place ≠ .dev) →
        exec (storeWord n rd ra y off) s = .next t →
        (∀ a, t.readMem a 1 = s.readMem a 1) ∧ ∀ a, cellGet t.store a = cellGet s.store a) ∧
      (∀ ss, n ≤ 6 → v.access (if n = 6 then .loadD else .load) (baseOff s ra off (2 ^ (n / 2))) (2 ^ (n / 2)) = .ok ss → (∀ p ∈ ss, p.place ≠ .dev) →
        exec (loadWord n rd ra y off) s = .next t →
        (∀ a, t.readMem a 1 = s.readMem a 1) ∧ ∀ a, cellGet t.store a = cellGet s.store a)) ∧
    (∀ (o : MemOp) (p : Span) (bs : List Byte), PlainOp s o → o.act = .store [p] bs → o.rel = 0 → s.spansFenced [p] = false → bs.length = p.len →
      p.addr % 32 + p.len ≤ 32 → s.coh.tags = [] → s.coh.migs = [] → s.coh.redirects = [] → Memory.wf s.mem = true →
      s.writeSpans (s.core.whoOf o) [p] bs = .ok v → exec (.writeCompletion o.uid) s = .next t →
      (p.place = .mem →
        (∀ a, physOk a = true → t.readMem a 1 = if p.addr ≤ a ∧ a < p.addr + p.len then [bs.getD (a - p.addr) 0] else s.readMem a 1) ∧
        (∀ a, cellGet t.store a = cellGet s.store a)) ∧
      (p.place = .store → Memory.wf s.store = true →
        (∀ a, t.readMem a 1 = s.readMem a 1) ∧
        (∀ a, cellGet t.store a = if p.addr ≤ a ∧ a < p.addr + p.len then bs.getD (a - p.addr) 0 else cellGet s.store a)) ∧
      (∀ τ, (t.core.strand τ).g = (s.core.strand τ).g ∧ (t.core.strand τ).win = (s.core.strand τ).win))

/-- R14, R28, R45: memory and the cluster stores stay in canonical form over every step: addresses rise and no entry is what an unlisted byte reads as. -/
def Obligations.StepKeepsCanonical : Prop :=
  ∀ s t : State, Canonical s → step s = .next t → Canonical t

/-- R410: the layout of the result word. -/
def Obligations.FutureResult : Prop :=
  ∀ f : Future, f.st = 3 ∨ f.st = 4 ∨ f.st = 5 → f.pq < 4096 → f.pqpos < 2 ^ 32 → f.id < 65536 →
    f.result.getLsbD 63 = true ∧ bitsAt f.result 60 3 = f.st ∧ bitsAt f.result 48 12 = f.pq ∧
    bitsAt f.result 16 32 = (if f.st = 5 then 0 else f.pqpos) ∧ bitsAt f.result 0 16 = f.id

/-- R281: `MOVHI` reads its immediate as an unsigned field and inserts it below the register shifted left by 15. -/
def Obligations.MovhiResult : Prop :=
  ∀ (s : State) (σ : StrandId) (rd ra : BitVec 5) (imm : BitVec 15),
    decodeWord σ (BitVec.ofNat 32 (0x08 * 2 ^ 25 + rd.toNat * 2 ^ 20 + ra.toNat * 2 ^ 15 + imm.toNat)) = .ok (.movhi rd ra imm) ∧
    (Fresh s → Written s [rd, ra] →
      exec (.movhi rd ra imm) s = .next (s.setG rd (BitVec.ofNat 64 ((s.g ra).toNat * 2 ^ 15 + imm.toNat))).retired)
end

