-- ==== Sys2Proof/Laws/State.lean ====
section
/-! SUPPORT. What the updates of a strand, of a core and of the machine leave of each field. -/

namespace Sys2Proof.Machine

/-! ### Strands -/

@[simp] theorem Strand.set_pc (t : Strand) (r : BitVec 5) (v : Word) : (t.set r v).pc = t.pc := by
  unfold Strand.set Strand.setKey; split <;> (try split) <;> rfl
@[simp] theorem Strand.set_parked (t : Strand) (r : BitVec 5) (v : Word) : (t.set r v).parked = t.parked := by
  unfold Strand.set Strand.setKey; split <;> (try split) <;> rfl
@[simp] theorem Strand.set_wb (t : Strand) (r : BitVec 5) (v : Word) : (t.set r v).wb = t.wb := by
  unfold Strand.set Strand.setKey; split <;> (try split) <;> rfl
@[simp] theorem Strand.set_sb (t : Strand) (r : BitVec 5) (v : Word) : (t.set r v).sb = t.sb := by
  unfold Strand.set Strand.setKey; split <;> (try split) <;> rfl
@[simp] theorem Strand.set_depth (t : Strand) (r : BitVec 5) (v : Word) : (t.set r v).depth = t.depth := by
  unfold Strand.set Strand.setKey; split <;> (try split) <;> rfl
@[simp] theorem Strand.set_spillb (t : Strand) (r : BitVec 5) (v : Word) : (t.set r v).spillb = t.spillb := by
  unfold Strand.set Strand.setKey; split <;> (try split) <;> rfl
@[simp] theorem Strand.set_loops (t : Strand) (r : BitVec 5) (v : Word) : (t.set r v).loops = t.loops := by
  unfold Strand.set Strand.setKey; split <;> (try split) <;> rfl
@[simp] theorem Strand.set_pend (t : Strand) (r : BitVec 5) (v : Word) : (t.set r v).pend = t.pend := by
  unfold Strand.set Strand.setKey; split <;> (try split) <;> rfl
@[simp] theorem Strand.set_stage (t : Strand) (r : BitVec 5) (v : Word) : (t.set r v).stage = t.stage := by
  unfold Strand.set Strand.setKey; split <;> (try split) <;> rfl
@[simp] theorem Strand.set_rel (t : Strand) (r : BitVec 5) (v : Word) : (t.set r v).rel = t.rel := by
  unfold Strand.set Strand.setKey; split <;> (try split) <;> rfl
@[simp] theorem Strand.set_fence (t : Strand) (r : BitVec 5) (v : Word) : (t.set r v).fence = t.fence := by
  unfold Strand.set Strand.setKey; split <;> (try split) <;> rfl
@[simp] theorem Strand.set_wait (t : Strand) (r : BitVec 5) (v : Word) : (t.set r v).wait = t.wait := by
  unfold Strand.set Strand.setKey; split <;> (try split) <;> rfl

/-! ### The current core -/

@[simp] theorem Core.setStrand_idx (c : Core) (σ : StrandId) (t : Strand) : (c.setStrand σ t).idx = c.idx := by cases σ <;> rfl
@[simp] theorem Core.setStrand_task (c : Core) (σ : StrandId) (t : Strand) : (c.setStrand σ t).task = c.task := by cases σ <;> rfl
@[simp] theorem Core.setStrand_view (c : Core) (σ : StrandId) (t : Strand) : (c.setStrand σ t).view = c.view := by cases σ <;> rfl
@[simp] theorem Core.setStrand_split (c : Core) (σ : StrandId) (t : Strand) : (c.setStrand σ t).split = c.split := by cases σ <;> rfl
@[simp] theorem Core.setStrand_bdone (c : Core) (σ : StrandId) (t : Strand) : (c.setStrand σ t).bdone = c.bdone := by cases σ <;> rfl
@[simp] theorem Core.setStrand_fifo (c : Core) (σ : StrandId) (t : Strand) : (c.setStrand σ t).fifo = c.fifo := by cases σ <;> rfl
@[simp] theorem Core.setStrand_xIssue (c : Core) (σ : StrandId) (t : Strand) : (c.setStrand σ t).xIssue = c.xIssue := by cases σ <;> rfl
@[simp] theorem Core.setStrand_flight (c : Core) (σ : StrandId) (t : Strand) : (c.setStrand σ t).flight = c.flight := by cases σ <;> rfl
@[simp] theorem Core.setStrand_tokens (c : Core) (σ : StrandId) (t : Strand) : (c.setStrand σ t).tokens = c.tokens := by cases σ <;> rfl
@[simp] theorem Core.setStrand_resv (c : Core) (σ : StrandId) (t : Strand) : (c.setStrand σ t).resv = c.resv := by cases σ <;> rfl
@[simp] theorem Core.setStrand_cc (c : Core) (σ : StrandId) (t : Strand) : (c.setStrand σ t).cc = c.cc := by cases σ <;> rfl
@[simp] theorem Core.setStrand_bars (c : Core) (σ : StrandId) (t : Strand) : (c.setStrand σ t).bars = c.bars := by cases σ <;> rfl
@[simp] theorem Core.setStrand_slots (c : Core) (σ : StrandId) (t : Strand) : (c.setStrand σ t).slots = c.slots := by cases σ <;> rfl
@[simp] theorem Core.setStrand_scLast (c : Core) (σ : StrandId) (t : Strand) : (c.setStrand σ t).scLast = c.scLast := by cases σ <;> rfl
@[simp] theorem Core.setStrand_specst (c : Core) (σ : StrandId) (t : Strand) : (c.setStrand σ t).specst = c.specst := by cases σ <;> rfl
@[simp] theorem Core.setStrand_hold (c : Core) (σ : StrandId) (t : Strand) : (c.setStrand σ t).hold = c.hold := by cases σ <;> rfl
@[simp] theorem Core.setStrand_bsts (c : Core) (σ : StrandId) (t : Strand) : (c.setStrand σ t).bsts = c.bsts := by cases σ <;> rfl
@[simp] theorem Core.setStrand_xfctl (c : Core) (σ : StrandId) (t : Strand) : (c.setStrand σ t).xfctl = c.xfctl := by cases σ <;> rfl
@[simp] theorem Core.setStrand_dmem (c : Core) (σ : StrandId) (t : Strand) : (c.setStrand σ t).dmem = c.dmem := by cases σ <;> rfl
@[simp] theorem Core.setStrand_dphase (c : Core) (σ : StrandId) (t : Strand) : (c.setStrand σ t).dphase = c.dphase := by cases σ <;> rfl
@[simp] theorem Core.setStrand_vshare (c : Core) (σ : StrandId) (t : Strand) : (c.setStrand σ t).vshare = c.vshare := by cases σ <;> rfl
@[simp] theorem Core.setStrand_slpcfg (c : Core) (σ : StrandId) (t : Strand) : (c.setStrand σ t).slpcfg = c.slpcfg := by cases σ <;> rfl
@[simp] theorem Core.setStrand_pgreply (c : Core) (σ : StrandId) (t : Strand) : (c.setStrand σ t).pgreply = c.pgreply := by cases σ <;> rfl
@[simp] theorem Core.setStrand_tl (c : Core) (σ : StrandId) (t : Strand) : (c.setStrand σ t).tl = c.tl := by cases σ <;> rfl
@[simp] theorem Core.setStrand_tvec (c : Core) (σ : StrandId) (t : Strand) : (c.setStrand σ t).tvec = c.tvec := by cases σ <;> rfl
@[simp] theorem Core.setStrand_trapen (c : Core) (σ : StrandId) (t : Strand) : (c.setStrand σ t).trapen = c.trapen := by cases σ <;> rfl
@[simp] theorem Core.setStrand_bank1 (c : Core) (σ : StrandId) (t : Strand) : (c.setStrand σ t).bank1 = c.bank1 := by cases σ <;> rfl
@[simp] theorem Core.setStrand_bank2 (c : Core) (σ : StrandId) (t : Strand) : (c.setStrand σ t).bank2 = c.bank2 := by cases σ <;> rfl
@[simp] theorem Core.setStrand_lttBase (c : Core) (σ : StrandId) (t : Strand) : (c.setStrand σ t).lttBase = c.lttBase := by cases σ <;> rfl
@[simp] theorem Core.setStrand_lttCount (c : Core) (σ : StrandId) (t : Strand) : (c.setStrand σ t).lttCount = c.lttCount := by cases σ <;> rfl
@[simp] theorem Core.setStrand_lttCrc (c : Core) (σ : StrandId) (t : Strand) : (c.setStrand σ t).lttCrc = c.lttCrc := by cases σ <;> rfl
@[simp] theorem Core.setStrand_openJob (c : Core) (σ : StrandId) (t : Strand) : (c.setStrand σ t).openJob = c.openJob := by cases σ <;> rfl
@[simp] theorem Core.setStrand_ops (c : Core) (σ : StrandId) (t : Strand) : (c.setStrand σ t).ops = c.ops := by cases σ <;> rfl
@[simp] theorem Core.setStrand_nextUid (c : Core) (σ : StrandId) (t : Strand) : (c.setStrand σ t).nextUid = c.nextUid := by cases σ <;> rfl
@[simp] theorem Core.setStrand_pagerSeq (c : Core) (σ : StrandId) (t : Strand) : (c.setStrand σ t).pagerSeq = c.pagerSeq := by cases σ <;> rfl
@[simp] theorem Core.setStrand_pagerOut (c : Core) (σ : StrandId) (t : Strand) : (c.setStrand σ t).pagerOut = c.pagerOut := by cases σ <;> rfl
@[simp] theorem Core.setStrand_pagerHeld (c : Core) (σ : StrandId) (t : Strand) : (c.setStrand σ t).pagerHeld = c.pagerHeld := by cases σ <;> rfl
@[simp] theorem Core.setStrand_budget (c : Core) (σ : StrandId) (t : Strand) : (c.setStrand σ t).budget = c.budget := by cases σ <;> rfl
@[simp] theorem Core.setStrand_preempt (c : Core) (σ : StrandId) (t : Strand) : (c.setStrand σ t).preempt = c.preempt := by cases σ <;> rfl
@[simp] theorem Core.setStrand_saving (c : Core) (σ : StrandId) (t : Strand) : (c.setStrand σ t).saving = c.saving := by cases σ <;> rfl
@[simp] theorem Core.setStrand_halted (c : Core) (σ : StrandId) (t : Strand) : (c.setStrand σ t).halted = c.halted := by cases σ <;> rfl
@[simp] theorem Core.setStrand_watchSkip (c : Core) (σ : StrandId) (t : Strand) : (c.setStrand σ t).watchSkip = c.watchSkip := by cases σ <;> rfl
@[simp] theorem Core.setStrand_asleep (c : Core) (σ : StrandId) (t : Strand) : (c.setStrand σ t).asleep = c.asleep := by cases σ <;> rfl
@[simp] theorem Core.setStrand_waited (c : Core) (σ : StrandId) (t : Strand) : (c.setStrand σ t).waited = c.waited := by cases σ <;> rfl
@[simp] theorem Core.setStrand_strand (c : Core) (σ : StrandId) (t : Strand) : (c.setStrand σ t).strand σ = t := by cases σ <;> rfl
theorem Core.setStrand_strand_of_ne (c : Core) (σ τ : StrandId) (t : Strand) (h : τ ≠ σ) : (c.setStrand σ t).strand τ = c.strand τ := by
  cases σ <;> cases τ <;> first | rfl | exact absurd rfl h
@[simp] theorem Core.setStrand_self (c : Core) (σ : StrandId) : c.setStrand σ (c.strand σ) = c := by cases σ <;> rfl
@[simp] theorem Core.setStrand_setStrand (c : Core) (σ : StrandId) (t u : Strand) : (c.setStrand σ t).setStrand σ u = c.setStrand σ u := by cases σ <;> rfl

/-! ### The machine -/

@[simp] theorem State.setStrand_quartz (s : State) (σ : StrandId) (t : Strand) : (s.setStrand σ t).quartz = s.quartz := rfl
@[simp] theorem State.setStrand_free (s : State) (σ : StrandId) (t : Strand) : (s.setStrand σ t).free = s.free := rfl
@[simp] theorem State.setStrand_agenda (s : State) (σ : StrandId) (t : Strand) : (s.setStrand σ t).agenda = s.agenda := rfl
@[simp] theorem State.setStrand_turn (s : State) (σ : StrandId) (t : Strand) : (s.setStrand σ t).turn = s.turn := rfl
@[simp] theorem State.setStrand_cur (s : State) (σ : StrandId) (t : Strand) : (s.setStrand σ t).cur = s.cur := rfl
@[simp] theorem State.setStrand_hart (s : State) (σ : StrandId) (t : Strand) : (s.setStrand σ t).hart = s.hart := rfl
@[simp] theorem State.setStrand_cores (s : State) (σ : StrandId) (t : Strand) : (s.setStrand σ t).cores = s.cores := rfl
@[simp] theorem State.setStrand_clusters (s : State) (σ : StrandId) (t : Strand) : (s.setStrand σ t).clusters = s.clusters := rfl
@[simp] theorem State.setStrand_jobs (s : State) (σ : StrandId) (t : Strand) : (s.setStrand σ t).jobs = s.jobs := rfl
@[simp] theorem State.setStrand_jobSeq (s : State) (σ : StrandId) (t : Strand) : (s.setStrand σ t).jobSeq = s.jobSeq := rfl
@[simp] theorem State.setStrand_jobDone (s : State) (σ : StrandId) (t : Strand) : (s.setStrand σ t).jobDone = s.jobDone := rfl
@[simp] theorem State.setStrand_mem (s : State) (σ : StrandId) (t : Strand) : (s.setStrand σ t).mem = s.mem := rfl
@[simp] theorem State.setStrand_store (s : State) (σ : StrandId) (t : Strand) : (s.setStrand σ t).store = s.store := rfl
@[simp] theorem State.setStrand_dev (s : State) (σ : StrandId) (t : Strand) : (s.setStrand σ t).dev = s.dev := rfl
@[simp] theorem State.setStrand_lm (s : State) (σ : StrandId) (t : Strand) : (s.setStrand σ t).lm = s.lm := rfl
@[simp] theorem State.setStrand_coh (s : State) (σ : StrandId) (t : Strand) : (s.setStrand σ t).coh = s.coh := rfl
@[simp] theorem State.setStrand_futures (s : State) (σ : StrandId) (t : Strand) : (s.setStrand σ t).futures = s.futures := rfl
@[simp] theorem State.setStrand_futSeq (s : State) (σ : StrandId) (t : Strand) : (s.setStrand σ t).futSeq = s.futSeq := rfl
@[simp] theorem State.setStrand_futGen (s : State) (σ : StrandId) (t : Strand) : (s.setStrand σ t).futGen = s.futGen := rfl
@[simp] theorem State.setStrand_pqSeq (s : State) (σ : StrandId) (t : Strand) : (s.setStrand σ t).pqSeq = s.pqSeq := rfl
@[simp] theorem State.setStrand_harts (s : State) (σ : StrandId) (t : Strand) : (s.setStrand σ t).harts = s.harts := rfl
@[simp] theorem State.setStrand_fab (s : State) (σ : StrandId) (t : Strand) : (s.setStrand σ t).fab = s.fab := rfl
@[simp] theorem State.setStrand_zg (s : State) (σ : StrandId) (t : Strand) : (s.setStrand σ t).zg = s.zg := rfl
@[simp] theorem State.setStrand_agate (s : State) (σ : StrandId) (t : Strand) : (s.setStrand σ t).agate = s.agate := rfl
@[simp] theorem State.setStrand_beryl (s : State) (σ : StrandId) (t : Strand) : (s.setStrand σ t).beryl = s.beryl := rfl
@[simp] theorem State.setStrand_ras (s : State) (σ : StrandId) (t : Strand) : (s.setStrand σ t).ras = s.ras := rfl
@[simp] theorem State.setStrand_moduleFloor (s : State) (σ : StrandId) (t : Strand) : (s.setStrand σ t).moduleFloor = s.moduleFloor := rfl
@[simp] theorem State.setStrand_out (s : State) (σ : StrandId) (t : Strand) : (s.setStrand σ t).out = s.out := rfl
@[simp] theorem State.setStrand_core (s : State) (σ : StrandId) (t : Strand) : (s.setStrand σ t).core = s.core.setStrand σ t := rfl
@[simp] theorem State.modStrand_eq (s : State) (σ : StrandId) (f : Strand → Strand) : s.modStrand σ f = s.setStrand σ (f (s.strand σ)) := rfl
theorem State.modMe_eq (s : State) (f : Strand → Strand) : s.modMe f = s.setStrand s.cur (f s.me) := rfl
@[simp] theorem State.modMe_quartz (s : State) (f : Strand → Strand) : (s.modMe f).quartz = s.quartz := rfl
@[simp] theorem State.modMe_free (s : State) (f : Strand → Strand) : (s.modMe f).free = s.free := rfl
@[simp] theorem State.modMe_agenda (s : State) (f : Strand → Strand) : (s.modMe f).agenda = s.agenda := rfl
@[simp] theorem State.modMe_turn (s : State) (f : Strand → Strand) : (s.modMe f).turn = s.turn := rfl
@[simp] theorem State.modMe_cur (s : State) (f : Strand → Strand) : (s.modMe f).cur = s.cur := rfl
@[simp] theorem State.modMe_hart (s : State) (f : Strand → Strand) : (s.modMe f).hart = s.hart := rfl
@[simp] theorem State.modMe_cores (s : State) (f : Strand → Strand) : (s.modMe f).cores = s.cores := rfl
@[simp] theorem State.modMe_clusters (s : State) (f : Strand → Strand) : (s.modMe f).clusters = s.clusters := rfl
@[simp] theorem State.modMe_jobs (s : State) (f : Strand → Strand) : (s.modMe f).jobs = s.jobs := rfl
@[simp] theorem State.modMe_jobSeq (s : State) (f : Strand → Strand) : (s.modMe f).jobSeq = s.jobSeq := rfl
@[simp] theorem State.modMe_jobDone (s : State) (f : Strand → Strand) : (s.modMe f).jobDone = s.jobDone := rfl
@[simp] theorem State.modMe_mem (s : State) (f : Strand → Strand) : (s.modMe f).mem = s.mem := rfl
@[simp] theorem State.modMe_store (s : State) (f : Strand → Strand) : (s.modMe f).store = s.store := rfl
@[simp] theorem State.modMe_dev (s : State) (f : Strand → Strand) : (s.modMe f).dev = s.dev := rfl
@[simp] theorem State.modMe_lm (s : State) (f : Strand → Strand) : (s.modMe f).lm = s.lm := rfl
@[simp] theorem State.modMe_coh (s : State) (f : Strand → Strand) : (s.modMe f).coh = s.coh := rfl
@[simp] theorem State.modMe_futures (s : State) (f : Strand → Strand) : (s.modMe f).futures = s.futures := rfl
@[simp] theorem State.modMe_futSeq (s : State) (f : Strand → Strand) : (s.modMe f).futSeq = s.futSeq := rfl
@[simp] theorem State.modMe_futGen (s : State) (f : Strand → Strand) : (s.modMe f).futGen = s.futGen := rfl
@[simp] theorem State.modMe_pqSeq (s : State) (f : Strand → Strand) : (s.modMe f).pqSeq = s.pqSeq := rfl
@[simp] theorem State.modMe_harts (s : State) (f : Strand → Strand) : (s.modMe f).harts = s.harts := rfl
@[simp] theorem State.modMe_fab (s : State) (f : Strand → Strand) : (s.modMe f).fab = s.fab := rfl
@[simp] theorem State.modMe_zg (s : State) (f : Strand → Strand) : (s.modMe f).zg = s.zg := rfl
@[simp] theorem State.modMe_agate (s : State) (f : Strand → Strand) : (s.modMe f).agate = s.agate := rfl
@[simp] theorem State.modMe_beryl (s : State) (f : Strand → Strand) : (s.modMe f).beryl = s.beryl := rfl
@[simp] theorem State.modMe_ras (s : State) (f : Strand → Strand) : (s.modMe f).ras = s.ras := rfl
@[simp] theorem State.modMe_moduleFloor (s : State) (f : Strand → Strand) : (s.modMe f).moduleFloor = s.moduleFloor := rfl
@[simp] theorem State.modMe_out (s : State) (f : Strand → Strand) : (s.modMe f).out = s.out := rfl
@[simp] theorem State.modMe_core (s : State) (f : Strand → Strand) : (s.modMe f).core = s.core.setStrand s.cur (f s.me) := rfl
@[simp] theorem State.modMe_me (s : State) (f : Strand → Strand) : (s.modMe f).me = f s.me := by
  simp [State.me, State.strand]
@[simp] theorem State.setG_quartz (s : State) (r : BitVec 5) (v : Word) : (s.setG r v).quartz = s.quartz := rfl
@[simp] theorem State.setG_free (s : State) (r : BitVec 5) (v : Word) : (s.setG r v).free = s.free := rfl
@[simp] theorem State.setG_agenda (s : State) (r : BitVec 5) (v : Word) : (s.setG r v).agenda = s.agenda := rfl
@[simp] theorem State.setG_turn (s : State) (r : BitVec 5) (v : Word) : (s.setG r v).turn = s.turn := rfl
@[simp] theorem State.setG_cur (s : State) (r : BitVec 5) (v : Word) : (s.setG r v).cur = s.cur := rfl
@[simp] theorem State.setG_hart (s : State) (r : BitVec 5) (v : Word) : (s.setG r v).hart = s.hart := rfl
@[simp] theorem State.setG_cores (s : State) (r : BitVec 5) (v : Word) : (s.setG r v).cores = s.cores := rfl
@[simp] theorem State.setG_clusters (s : State) (r : BitVec 5) (v : Word) : (s.setG r v).clusters = s.clusters := rfl
@[simp] theorem State.setG_jobs (s : State) (r : BitVec 5) (v : Word) : (s.setG r v).jobs = s.jobs := rfl
@[simp] theorem State.setG_jobSeq (s : State) (r : BitVec 5) (v : Word) : (s.setG r v).jobSeq = s.jobSeq := rfl
@[simp] theorem State.setG_jobDone (s : State) (r : BitVec 5) (v : Word) : (s.setG r v).jobDone = s.jobDone := rfl
@[simp] theorem State.setG_mem (s : State) (r : BitVec 5) (v : Word) : (s.setG r v).mem = s.mem := rfl
@[simp] theorem State.setG_store (s : State) (r : BitVec 5) (v : Word) : (s.setG r v).store = s.store := rfl
@[simp] theorem State.setG_dev (s : State) (r : BitVec 5) (v : Word) : (s.setG r v).dev = s.dev := rfl
@[simp] theorem State.setG_lm (s : State) (r : BitVec 5) (v : Word) : (s.setG r v).lm = s.lm := rfl
@[simp] theorem State.setG_coh (s : State) (r : BitVec 5) (v : Word) : (s.setG r v).coh = s.coh := rfl
@[simp] theorem State.setG_futures (s : State) (r : BitVec 5) (v : Word) : (s.setG r v).futures = s.futures := rfl
@[simp] theorem State.setG_futSeq (s : State) (r : BitVec 5) (v : Word) : (s.setG r v).futSeq = s.futSeq := rfl
@[simp] theorem State.setG_futGen (s : State) (r : BitVec 5) (v : Word) : (s.setG r v).futGen = s.futGen := rfl
@[simp] theorem State.setG_pqSeq (s : State) (r : BitVec 5) (v : Word) : (s.setG r v).pqSeq = s.pqSeq := rfl
@[simp] theorem State.setG_harts (s : State) (r : BitVec 5) (v : Word) : (s.setG r v).harts = s.harts := rfl
@[simp] theorem State.setG_fab (s : State) (r : BitVec 5) (v : Word) : (s.setG r v).fab = s.fab := rfl
@[simp] theorem State.setG_zg (s : State) (r : BitVec 5) (v : Word) : (s.setG r v).zg = s.zg := rfl
@[simp] theorem State.setG_agate (s : State) (r : BitVec 5) (v : Word) : (s.setG r v).agate = s.agate := rfl
@[simp] theorem State.setG_beryl (s : State) (r : BitVec 5) (v : Word) : (s.setG r v).beryl = s.beryl := rfl
@[simp] theorem State.setG_ras (s : State) (r : BitVec 5) (v : Word) : (s.setG r v).ras = s.ras := rfl
@[simp] theorem State.setG_moduleFloor (s : State) (r : BitVec 5) (v : Word) : (s.setG r v).moduleFloor = s.moduleFloor := rfl
@[simp] theorem State.setG_out (s : State) (r : BitVec 5) (v : Word) : (s.setG r v).out = s.out := rfl
@[simp] theorem State.setG_core (s : State) (r : BitVec 5) (v : Word) : (s.setG r v).core = s.core.setStrand s.cur (s.me.set r v) := rfl
@[simp] theorem State.setG_me (s : State) (r : BitVec 5) (v : Word) : (s.setG r v).me = s.me.set r v := by
  simp [State.me, State.strand]
@[simp] theorem State.goto_quartz (s : State) (a : Word) : (s.goto a).quartz = s.quartz := by unfold State.goto; split <;> rfl
@[simp] theorem State.countIssue_quartz (s : State) : s.countIssue.quartz = s.quartz := by unfold State.countIssue; split <;> rfl
@[simp] theorem State.modLevel_quartz (s : State) (σ : StrandId) (i : Nat) (f : Loop → Loop) : (s.modLevel σ i f).quartz = s.quartz := rfl
@[simp] theorem State.goto_free (s : State) (a : Word) : (s.goto a).free = s.free := by unfold State.goto; split <;> rfl
@[simp] theorem State.countIssue_free (s : State) : s.countIssue.free = s.free := by unfold State.countIssue; split <;> rfl
@[simp] theorem State.modLevel_free (s : State) (σ : StrandId) (i : Nat) (f : Loop → Loop) : (s.modLevel σ i f).free = s.free := rfl
@[simp] theorem State.goto_agenda (s : State) (a : Word) : (s.goto a).agenda = s.agenda := by unfold State.goto; split <;> rfl
@[simp] theorem State.countIssue_agenda (s : State) : s.countIssue.agenda = s.agenda := by unfold State.countIssue; split <;> rfl
@[simp] theorem State.modLevel_agenda (s : State) (σ : StrandId) (i : Nat) (f : Loop → Loop) : (s.modLevel σ i f).agenda = s.agenda := rfl
@[simp] theorem State.goto_turn (s : State) (a : Word) : (s.goto a).turn = s.turn := by unfold State.goto; split <;> rfl
@[simp] theorem State.countIssue_turn (s : State) : s.countIssue.turn = s.turn := by unfold State.countIssue; split <;> rfl
@[simp] theorem State.modLevel_turn (s : State) (σ : StrandId) (i : Nat) (f : Loop → Loop) : (s.modLevel σ i f).turn = s.turn := rfl
@[simp] theorem State.goto_cur (s : State) (a : Word) : (s.goto a).cur = s.cur := by unfold State.goto; split <;> rfl
@[simp] theorem State.countIssue_cur (s : State) : s.countIssue.cur = s.cur := by unfold State.countIssue; split <;> rfl
@[simp] theorem State.modLevel_cur (s : State) (σ : StrandId) (i : Nat) (f : Loop → Loop) : (s.modLevel σ i f).cur = s.cur := rfl
@[simp] theorem State.goto_hart (s : State) (a : Word) : (s.goto a).hart = s.hart := by unfold State.goto; split <;> rfl
@[simp] theorem State.countIssue_hart (s : State) : s.countIssue.hart = s.hart := by unfold State.countIssue; split <;> rfl
@[simp] theorem State.modLevel_hart (s : State) (σ : StrandId) (i : Nat) (f : Loop → Loop) : (s.modLevel σ i f).hart = s.hart := rfl
@[simp] theorem State.goto_cores (s : State) (a : Word) : (s.goto a).cores = s.cores := by unfold State.goto; split <;> rfl
@[simp] theorem State.countIssue_cores (s : State) : s.countIssue.cores = s.cores := by unfold State.countIssue; split <;> rfl
@[simp] theorem State.modLevel_cores (s : State) (σ : StrandId) (i : Nat) (f : Loop → Loop) : (s.modLevel σ i f).cores = s.cores := rfl
@[simp] theorem State.goto_clusters (s : State) (a : Word) : (s.goto a).clusters = s.clusters := by unfold State.goto; split <;> rfl
@[simp] theorem State.countIssue_clusters (s : State) : s.countIssue.clusters = s.clusters := by unfold State.countIssue; split <;> rfl
@[simp] theorem State.modLevel_clusters (s : State) (σ : StrandId) (i : Nat) (f : Loop → Loop) : (s.modLevel σ i f).clusters = s.clusters := rfl
@[simp] theorem State.goto_jobs (s : State) (a : Word) : (s.goto a).jobs = s.jobs := by unfold State.goto; split <;> rfl
@[simp] theorem State.countIssue_jobs (s : State) : s.countIssue.jobs = s.jobs := by unfold State.countIssue; split <;> rfl
@[simp] theorem State.modLevel_jobs (s : State) (σ : StrandId) (i : Nat) (f : Loop → Loop) : (s.modLevel σ i f).jobs = s.jobs := rfl
@[simp] theorem State.goto_jobSeq (s : State) (a : Word) : (s.goto a).jobSeq = s.jobSeq := by unfold State.goto; split <;> rfl
@[simp] theorem State.countIssue_jobSeq (s : State) : s.countIssue.jobSeq = s.jobSeq := by unfold State.countIssue; split <;> rfl
@[simp] theorem State.modLevel_jobSeq (s : State) (σ : StrandId) (i : Nat) (f : Loop → Loop) : (s.modLevel σ i f).jobSeq = s.jobSeq := rfl
@[simp] theorem State.goto_jobDone (s : State) (a : Word) : (s.goto a).jobDone = s.jobDone := by unfold State.goto; split <;> rfl
@[simp] theorem State.countIssue_jobDone (s : State) : s.countIssue.jobDone = s.jobDone := by unfold State.countIssue; split <;> rfl
@[simp] theorem State.modLevel_jobDone (s : State) (σ : StrandId) (i : Nat) (f : Loop → Loop) : (s.modLevel σ i f).jobDone = s.jobDone := rfl
@[simp] theorem State.goto_mem (s : State) (a : Word) : (s.goto a).mem = s.mem := by unfold State.goto; split <;> rfl
@[simp] theorem State.countIssue_mem (s : State) : s.countIssue.mem = s.mem := by unfold State.countIssue; split <;> rfl
@[simp] theorem State.modLevel_mem (s : State) (σ : StrandId) (i : Nat) (f : Loop → Loop) : (s.modLevel σ i f).mem = s.mem := rfl
@[simp] theorem State.goto_store (s : State) (a : Word) : (s.goto a).store = s.store := by unfold State.goto; split <;> rfl
@[simp] theorem State.countIssue_store (s : State) : s.countIssue.store = s.store := by unfold State.countIssue; split <;> rfl
@[simp] theorem State.modLevel_store (s : State) (σ : StrandId) (i : Nat) (f : Loop → Loop) : (s.modLevel σ i f).store = s.store := rfl
@[simp] theorem State.goto_dev (s : State) (a : Word) : (s.goto a).dev = s.dev := by unfold State.goto; split <;> rfl
@[simp] theorem State.countIssue_dev (s : State) : s.countIssue.dev = s.dev := by unfold State.countIssue; split <;> rfl
@[simp] theorem State.modLevel_dev (s : State) (σ : StrandId) (i : Nat) (f : Loop → Loop) : (s.modLevel σ i f).dev = s.dev := rfl
@[simp] theorem State.goto_lm (s : State) (a : Word) : (s.goto a).lm = s.lm := by unfold State.goto; split <;> rfl
@[simp] theorem State.countIssue_lm (s : State) : s.countIssue.lm = s.lm := by unfold State.countIssue; split <;> rfl
@[simp] theorem State.modLevel_lm (s : State) (σ : StrandId) (i : Nat) (f : Loop → Loop) : (s.modLevel σ i f).lm = s.lm := rfl
@[simp] theorem State.goto_coh (s : State) (a : Word) : (s.goto a).coh = s.coh := by unfold State.goto; split <;> rfl
@[simp] theorem State.countIssue_coh (s : State) : s.countIssue.coh = s.coh := by unfold State.countIssue; split <;> rfl
@[simp] theorem State.modLevel_coh (s : State) (σ : StrandId) (i : Nat) (f : Loop → Loop) : (s.modLevel σ i f).coh = s.coh := rfl
@[simp] theorem State.goto_futures (s : State) (a : Word) : (s.goto a).futures = s.futures := by unfold State.goto; split <;> rfl
@[simp] theorem State.countIssue_futures (s : State) : s.countIssue.futures = s.futures := by unfold State.countIssue; split <;> rfl
@[simp] theorem State.modLevel_futures (s : State) (σ : StrandId) (i : Nat) (f : Loop → Loop) : (s.modLevel σ i f).futures = s.futures := rfl
@[simp] theorem State.goto_futSeq (s : State) (a : Word) : (s.goto a).futSeq = s.futSeq := by unfold State.goto; split <;> rfl
@[simp] theorem State.countIssue_futSeq (s : State) : s.countIssue.futSeq = s.futSeq := by unfold State.countIssue; split <;> rfl
@[simp] theorem State.modLevel_futSeq (s : State) (σ : StrandId) (i : Nat) (f : Loop → Loop) : (s.modLevel σ i f).futSeq = s.futSeq := rfl
@[simp] theorem State.goto_futGen (s : State) (a : Word) : (s.goto a).futGen = s.futGen := by unfold State.goto; split <;> rfl
@[simp] theorem State.countIssue_futGen (s : State) : s.countIssue.futGen = s.futGen := by unfold State.countIssue; split <;> rfl
@[simp] theorem State.modLevel_futGen (s : State) (σ : StrandId) (i : Nat) (f : Loop → Loop) : (s.modLevel σ i f).futGen = s.futGen := rfl
@[simp] theorem State.goto_pqSeq (s : State) (a : Word) : (s.goto a).pqSeq = s.pqSeq := by unfold State.goto; split <;> rfl
@[simp] theorem State.countIssue_pqSeq (s : State) : s.countIssue.pqSeq = s.pqSeq := by unfold State.countIssue; split <;> rfl
@[simp] theorem State.modLevel_pqSeq (s : State) (σ : StrandId) (i : Nat) (f : Loop → Loop) : (s.modLevel σ i f).pqSeq = s.pqSeq := rfl
@[simp] theorem State.goto_harts (s : State) (a : Word) : (s.goto a).harts = s.harts := by unfold State.goto; split <;> rfl
@[simp] theorem State.countIssue_harts (s : State) : s.countIssue.harts = s.harts := by unfold State.countIssue; split <;> rfl
@[simp] theorem State.modLevel_harts (s : State) (σ : StrandId) (i : Nat) (f : Loop → Loop) : (s.modLevel σ i f).harts = s.harts := rfl
@[simp] theorem State.goto_fab (s : State) (a : Word) : (s.goto a).fab = s.fab := by unfold State.goto; split <;> rfl
@[simp] theorem State.countIssue_fab (s : State) : s.countIssue.fab = s.fab := by unfold State.countIssue; split <;> rfl
@[simp] theorem State.modLevel_fab (s : State) (σ : StrandId) (i : Nat) (f : Loop → Loop) : (s.modLevel σ i f).fab = s.fab := rfl
@[simp] theorem State.goto_zg (s : State) (a : Word) : (s.goto a).zg = s.zg := by unfold State.goto; split <;> rfl
@[simp] theorem State.countIssue_zg (s : State) : s.countIssue.zg = s.zg := by unfold State.countIssue; split <;> rfl
@[simp] theorem State.modLevel_zg (s : State) (σ : StrandId) (i : Nat) (f : Loop → Loop) : (s.modLevel σ i f).zg = s.zg := rfl
@[simp] theorem State.goto_agate (s : State) (a : Word) : (s.goto a).agate = s.agate := by unfold State.goto; split <;> rfl
@[simp] theorem State.countIssue_agate (s : State) : s.countIssue.agate = s.agate := by unfold State.countIssue; split <;> rfl
@[simp] theorem State.modLevel_agate (s : State) (σ : StrandId) (i : Nat) (f : Loop → Loop) : (s.modLevel σ i f).agate = s.agate := rfl
@[simp] theorem State.goto_beryl (s : State) (a : Word) : (s.goto a).beryl = s.beryl := by unfold State.goto; split <;> rfl
@[simp] theorem State.countIssue_beryl (s : State) : s.countIssue.beryl = s.beryl := by unfold State.countIssue; split <;> rfl
@[simp] theorem State.modLevel_beryl (s : State) (σ : StrandId) (i : Nat) (f : Loop → Loop) : (s.modLevel σ i f).beryl = s.beryl := rfl
@[simp] theorem State.goto_ras (s : State) (a : Word) : (s.goto a).ras = s.ras := by unfold State.goto; split <;> rfl
@[simp] theorem State.countIssue_ras (s : State) : s.countIssue.ras = s.ras := by unfold State.countIssue; split <;> rfl
@[simp] theorem State.modLevel_ras (s : State) (σ : StrandId) (i : Nat) (f : Loop → Loop) : (s.modLevel σ i f).ras = s.ras := rfl
@[simp] theorem State.goto_moduleFloor (s : State) (a : Word) : (s.goto a).moduleFloor = s.moduleFloor := by unfold State.goto; split <;> rfl
@[simp] theorem State.countIssue_moduleFloor (s : State) : s.countIssue.moduleFloor = s.moduleFloor := by unfold State.countIssue; split <;> rfl
@[simp] theorem State.modLevel_moduleFloor (s : State) (σ : StrandId) (i : Nat) (f : Loop → Loop) : (s.modLevel σ i f).moduleFloor = s.moduleFloor := rfl
@[simp] theorem State.goto_out (s : State) (a : Word) : (s.goto a).out = s.out := by unfold State.goto; split <;> rfl
@[simp] theorem State.countIssue_out (s : State) : s.countIssue.out = s.out := by unfold State.countIssue; split <;> rfl
@[simp] theorem State.modLevel_out (s : State) (σ : StrandId) (i : Nat) (f : Loop → Loop) : (s.modLevel σ i f).out = s.out := rfl

end Sys2Proof.Machine
end

