-- ==== Sys2Proof/Laws/Issue.lean ====
section
/-! SUPPORT. Issuing a word: what a fresh strand does with a word that completes, waits or traps, and what completion leaves. -/

namespace Sys2Proof.Machine

/-! ### Conditions -/

@[simp] theorem illegalIf_false : illegalIf false = .ok () := rfl
@[simp] theorem illegalIf_true : illegalIf true = .error (.trap 1 0 0) := rfl
@[simp] theorem waitIf_false (c : Nat) : waitIf false c = .ok () := rfl
@[simp] theorem waitIf_true (c : Nat) : waitIf true c = .error (.wait c) := rfl
@[simp] theorem privIf_false : privIf false = .ok () := rfl
@[simp] theorem privIf_true : privIf true = .error (.trap 2 0 0) := rfl
@[simp] theorem ok_bind {α β : Type} (a : α) (f : α → Except Stop β) : (Except.ok a >>= f) = f a := rfl
@[simp] theorem error_bind {α β : Type} (e : Stop) (f : α → Except Stop β) : ((Except.error e : Except Stop α) >>= f) = .error e := rfl

theorem ready_of_written {s : State} {rs : List (BitVec 5)} (h : Written s rs) : ready s rs = .ok () := by
  unfold ready
  rw [h]
  rfl

theorem quiet_of_quiet {s : State} (h : Quiet s) : quiet s = .ok () := by
  unfold quiet
  rw [h]
  rfl

/-! ### Landing with nothing in flight -/

theorem findCore_idx (k : Nat) (l : List Core) : (findCore k l).idx = k := by
  unfold findCore
  cases h : l.find? (fun c => c.idx == k) with
  | none => rfl
  | some c => simpa using List.find?_some h

@[simp] theorem State.coreAt_self (s : State) : s.coreAt s.core.idx = s.core := if_pos rfl

theorem State.setCore_self (s : State) (c : Core) (h : s.core.idx = c.idx) : s.setCore c = { s with core := c } := if_pos h

/-- With no result due, the core's landing changes nothing. -/
theorem landDue_of_later {c : Core} {n : Nat} (h : ∀ f ∈ c.flight, n < f.due) : c.landDue n = c := by
  unfold Core.landDue
  rw [List.filter_eq_nil_iff.2 fun f hf => by simpa using h f hf]
  rfl

/-- A landing that changes nothing of the core changes nothing. -/
theorem landCore_of_same {s : State} {f : Core → Core} (hf : f s.core = s.core) : s.landCore s.core.idx f = s := by
  have e : (s.core.flight.filter fun x => !(s.core.flight.any fun y => y.n == x.n)) = [] :=
    List.filter_eq_nil_iff.2 fun x hx => by simpa using ⟨x, hx, rfl⟩
  unfold State.landCore
  simp only [State.coreAt_self, hf, e, List.foldl_nil, if_true]
  exact State.setCore_self s s.core rfl

theorem landForIssue_of_landed {s : State} (h : Landed s) : s.landForIssue = s := by
  unfold State.landForIssue
  split
  · rename_i hc
    refine landCore_of_same (landDue_of_later ?_)
    rcases h with h | h
    · simp [h.1, h.2] at hc
    · exact h
  · rfl

/-- No open job counts the word of a fresh strand (R368). -/
theorem countOpen_of_fresh {s : State} (hf : Fresh s) (i : Instr) : s.countOpen i = .ok s := by
  unfold State.countOpen
  cases h : s.core.openJob with
  | none => rfl
  | some j =>
    by_cases hk : s.cur = .k
    · simp [hf.2.2 hk j h]
    · simp [hk]

/-! ### A fresh strand -/

/-- The checks that precede a meaning (R188, R271, R368). -/
theorem slotChecked_of_fresh {i : Instr} {sem : Sem} {s : State} (hf : Fresh s) (hi : i.issuedBy s.cur = true) (hw : i.fieldsOk = true)
    (hb : bundleForbids i s.cur = true → s.wordMode = true) : slotChecked i sem s = sem s := by
  have e : (!s.wordMode && bundleForbids i s.cur) = false := by
    cases h : bundleForbids i s.cur
    · simp
    · simp [hb h]
  simp [slotChecked, hi, hw, e, countOpen_of_fresh hf]

/-- The addresses that bundle mode admits. -/
theorem odd_iff (s u : State) (a : Word) : (Done.jump u a).odd s = false ↔ Admits s a := by
  simp only [Done.odd, Admits, bitsAt]
  cases s.wordMode <;> simp

/-- A word that issues leaves what its meaning says. -/
theorem issue_ok {i : Instr} {sem : Sem} {s : State} {d : Done} (hf : Fresh s) (hi : i.issuedBy s.cur = true) (hw : i.fieldsOk = true)
    (hb : bundleForbids i s.cur = true → s.wordMode = true) (h : sem s = .ok d) (ho : d.odd s = false) :
    issue i sem s = .next (State.done d) := by
  unfold issue
  rw [if_neg (by simp [hf.1, tested]), landForIssue_of_landed hf.2.1]
  simp [checked, slotChecked_of_fresh hf hi hw hb, h, ho]

/-- A word that completes in place. -/
theorem issue_next {i : Instr} {sem : Sem} {s t : State} (hf : Fresh s) (hi : i.issuedBy s.cur = true) (hw : i.fieldsOk = true)
    (hb : bundleForbids i s.cur = true → s.wordMode = true) (h : sem s = .ok (.next t)) :
    issue i sem s = .next t.retired := issue_ok hf hi hw hb h rfl

/-- A word that transfers control. -/
theorem issue_jump {i : Instr} {sem : Sem} {s u : State} {a : Word} (hf : Fresh s) (hi : i.issuedBy s.cur = true) (hw : i.fieldsOk = true)
    (hb : bundleForbids i s.cur = true → s.wordMode = true) (h : sem s = .ok (.jump u a)) (ho : Admits s a) :
    issue i sem s = .next (u.complete a) := issue_ok hf hi hw hb h ((odd_iff _ _ _).2 ho)

/-- A word that issues and waits for its completion. -/
theorem issue_hold {i : Instr} {sem : Sem} {s u : State} {c : Nat} (hf : Fresh s) (hi : i.issuedBy s.cur = true) (hw : i.fieldsOk = true)
    (hb : bundleForbids i s.cur = true → s.wordMode = true) (h : sem s = .ok (.hold u c)) :
    issue i sem s = .next (u.modMe fun t => { t with stage := max 1 t.stage, wait := c }) := issue_ok hf hi hw hb h rfl

/-- A word that sets every program counter itself. -/
theorem issue_at {i : Instr} {sem : Sem} {s u : State} (hf : Fresh s) (hi : i.issuedBy s.cur = true) (hw : i.fieldsOk = true)
    (hb : bundleForbids i s.cur = true → s.wordMode = true) (h : sem s = .ok (.at_ u)) : issue i sem s = .next u :=
  issue_ok hf hi hw hb h rfl

/-- A word that does not issue. -/
theorem issue_stop {i : Instr} {sem : Sem} {s : State} {e : Stop} (hf : Fresh s) (hi : i.issuedBy s.cur = true) (hw : i.fieldsOk = true)
    (hb : bundleForbids i s.cur = true → s.wordMode = true) (h : sem s = .error e) : issue i sem s = s.stop i e := by
  unfold issue
  rw [if_neg (by simp [hf.1, tested]), landForIssue_of_landed hf.2.1]
  simp [checked, slotChecked_of_fresh hf hi hw hb, h]

/-- A word that waits. -/
theorem issue_wait {i : Instr} {sem : Sem} {s : State} {c : Nat} (hf : Fresh s) (hi : i.issuedBy s.cur = true) (hw : i.fieldsOk = true)
    (hb : bundleForbids i s.cur = true → s.wordMode = true) (h : sem s = .error (.wait c)) :
    issue i sem s = .next (s.modMe fun t => { t with wait := c }) := issue_stop hf hi hw hb h

/-- A word that is illegal. -/
theorem issue_ill {i : Instr} {sem : Sem} {s : State} (hf : Fresh s) (hi : i.issuedBy s.cur = true) (hw : i.fieldsOk = true)
    (hb : bundleForbids i s.cur = true → s.wordMode = true) (h : sem s = .error (.trap 1 0 0)) :
    issue i sem s = State.raisesIllegal s i := issue_stop hf hi hw hb h

/-- A word that `PRIV` turns away. -/
theorem issue_priv {i : Instr} {sem : Sem} {s : State} (hf : Fresh s) (hi : i.issuedBy s.cur = true) (hw : i.fieldsOk = true)
    (hb : bundleForbids i s.cur = true → s.wordMode = true) (h : sem s = .error (.trap 2 0 0)) :
    issue i sem s = State.raisesPriv s i := issue_stop hf hi hw hb h

/-- Words of every slot. -/
theorem bundles_any {i : Instr} {s : State} (e : ∀ σ, bundleForbids i σ = false) : bundleForbids i s.cur = true → s.wordMode = true := by simp [e]

/-- Words of the K slot of a bundle. -/
theorem bundles_k {i : Instr} {s : State} (h : MayTransfer s) (e : bundleForbids i .k = false) :
    bundleForbids i s.cur = true → s.wordMode = true := by
  rcases h with h | h
  · exact fun _ => h
  · rw [h, e]; simp

/-! ### What completion changes -/

/-- A state that differs from another in its current core alone. -/
theorem outside_of_core {s t : State} (c : Core) (h : t = { s with core := c }) : s.sameOutside t := by subst h; rfl

theorem State.sameOutside_refl (s : State) : s.sameOutside s := rfl

theorem State.sameOutside_trans {s t u : State} (h : s.sameOutside t) (k : t.sameOutside u) : s.sameOutside u := by
  unfold State.sameOutside at *
  rw [← h, ← k]

theorem applySteps_outside (s : State) (l : List StepSlot) : s.sameOutside (s.applySteps l) := by
  induction l generalizing s with
  | nil => rfl
  | cons p ps ih =>
    exact State.sameOutside_trans (t := s.modStrand p.strand fun t => t.set p.reg (t.get p.reg + p.stride)) rfl (ih _)

theorem loopTests_outside (s : State) (σ : StrandId) (u : Nat) (ls : List Nat) (next : Word) :
    s.sameOutside (s.loopTests σ u ls next).1 := by
  induction ls generalizing s next with
  | nil => rfl
  | cons i is ih =>
    simp only [State.loopTests]
    split
    · exact State.sameOutside_trans (t := s.modLevel σ i fun l => { l with done := l.done + 1 }) rfl (applySteps_outside _ _)
    · refine State.sameOutside_trans ?_ (ih _ _)
      exact State.sameOutside_trans (t := s.modLevel σ i fun l => { l with done := l.done + 1 }) rfl
        (State.sameOutside_trans (applySteps_outside _ _) rfl)

theorem goto_outside (s : State) (a : Word) : s.sameOutside (s.goto a) := by
  unfold State.goto
  split <;> rfl

theorem countIssue_outside (s : State) : s.sameOutside s.countIssue := by
  unfold State.countIssue
  split <;> rfl

theorem advance_outside (s : State) (a : Word) : s.sameOutside (s.advance a) :=
  State.sameOutside_trans (loopTests_outside s s.seqStrand s.unit s.endLevels a)
    (State.sameOutside_trans (t := (s.loopTests s.seqStrand s.unit s.endLevels a).1.modMe fun t => { t with stage := 0, wait := 0 }) rfl
      (goto_outside _ _))

/-- Completion changes the current core alone. -/
theorem complete_outside (s : State) (a : Word) : s.sameOutside (s.complete a) := by
  unfold State.complete
  have h : s.sameOutside (s.watchDone.countIssue) :=
    State.sameOutside_trans (t := s.watchDone) rfl (countIssue_outside _)
  simp only
  split
  · exact State.sameOutside_trans h rfl
  · exact State.sameOutside_trans h (advance_outside _ _)

theorem retired_outside (s : State) : s.sameOutside s.retired := complete_outside _ _

/-- The steps of an ended iteration, with none to take. -/
theorem advance_of_no_ends {s : State} (a : Word) (h : s.endLevels = []) :
    s.advance a = (s.modMe fun t => { t with stage := 0, wait := 0 }).goto a := by
  simp [State.advance, h, State.loopTests]

end Sys2Proof.Machine
end

