-- ==== Sys2Proof/Laws/Memory.lean ====
section
/-! SUPPORT. The laws of a byte memory: a read after a write, other addresses, and the canonical form. -/

namespace Sys2Proof.Machine

/-! ### The canonical form -/

theorem wfFrom_mono {m : List Host.Cell} {lo hi : Nat} (h : lo ≤ hi) (w : wfFrom hi m = true) : wfFrom lo m = true := by
  cases m with
  | nil => rfl
  | cons c m =>
    obtain ⟨a, b⟩ := c
    simp only [wfFrom, Bool.and_eq_true, decide_eq_true_eq] at w ⊢
    exact ⟨⟨by omega, w.1.2⟩, w.2⟩

theorem wfFrom_cellSet {m : List Host.Cell} {lo x : Nat} (v : Byte) (hx : lo ≤ x) (w : wfFrom lo m = true) :
    wfFrom lo (cellSet m x v) = true := by
  induction m generalizing lo with
  | nil =>
    unfold cellSet
    split
    · rfl
    · simp_all [wfFrom]
  | cons c m ih =>
    obtain ⟨a, b⟩ := c
    simp only [wfFrom, Bool.and_eq_true, decide_eq_true_eq] at w
    obtain ⟨⟨h1, h2⟩, h3⟩ := w
    unfold cellSet
    split_ifs with c1 c2 c3 c4
    · exact wfFrom_mono (by omega) h3
    · simp_all [wfFrom]
    · simp_all [wfFrom]
    · simp only [wfFrom, Bool.and_eq_true, decide_eq_true_eq]
      exact ⟨⟨hx, c4⟩, ⟨⟨by omega, h2⟩, h3⟩⟩
    · simp only [wfFrom, Bool.and_eq_true, decide_eq_true_eq]
      exact ⟨⟨h1, h2⟩, ih (by omega) h3⟩

/-- Writing a byte keeps the canonical form. -/
theorem wf_cellSet {m : List Host.Cell} (x : Nat) (v : Byte) (w : Memory.wf m = true) : Memory.wf (cellSet m x v) = true :=
  wfFrom_cellSet v (Nat.zero_le x) w

/-- Writing bytes keeps the canonical form. -/
theorem wf_cellWrite {m : List Host.Cell} (x : Nat) (bs : List Byte) (w : Memory.wf m = true) : Memory.wf (cellWrite m x bs) = true := by
  induction bs generalizing m x with
  | nil => exact w
  | cons b bs ih => exact ih (x + 1) (wf_cellSet x b w)

theorem wf_nil : Memory.wf [] = true := rfl

/-! ### Reads after writes -/

theorem cellGet_below {m : List Host.Cell} {lo x : Nat} (h : x < lo) (w : wfFrom lo m = true) : cellGet m x = emptyByte := by
  cases m with
  | nil => rfl
  | cons c m =>
    obtain ⟨a, b⟩ := c
    simp only [wfFrom, Bool.and_eq_true, decide_eq_true_eq] at w
    unfold cellGet
    split_ifs <;> first | rfl | omega

theorem cellGet_cellSet_from {m : List Host.Cell} {lo : Nat} (w : wfFrom lo m = true) (x y : Nat) (v : Byte) :
    cellGet (cellSet m x v) y = if y = x then v else cellGet m y := by
  induction m generalizing lo with
  | nil =>
    unfold cellSet
    split_ifs with h1 h2 h3 <;> simp_all [cellGet] <;> omega
  | cons c m ih =>
    obtain ⟨a, b⟩ := c
    simp only [wfFrom, Bool.and_eq_true, decide_eq_true_eq] at w
    obtain ⟨⟨h1, h2⟩, h3⟩ := w
    have lowA : y ≤ a → cellGet m y = emptyByte := fun h => cellGet_below (Nat.lt_succ_of_le h) h3
    rcases Nat.lt_trichotomy a x with hx | rfl | hx
    · have e : cellSet ((a, b) :: m) x v = (a, b) :: cellSet m x v := by simp [cellSet, Nat.ne_of_lt hx, Nat.not_lt_of_gt hx]
      rw [e]
      simp only [cellGet, ih h3]
      split_ifs <;> first | rfl | omega
    · by_cases hv : v = emptyByte
      · have e : cellSet ((a, b) :: m) a v = m := by simp [cellSet, hv]
        rw [e]
        simp only [cellGet]
        by_cases h : y = a
        · subst h; simp [hv, lowA (Nat.le_refl _)]
        · by_cases g : y < a
          · rw [if_neg h, if_neg (Ne.symm h), if_pos g, lowA (Nat.le_of_lt g)]
          · rw [if_neg h, if_neg (Ne.symm h), if_neg g]
      · have e : cellSet ((a, b) :: m) a v = (a, v) :: m := by simp [cellSet, hv]
        rw [e]
        simp only [cellGet]
        split_ifs <;> first | rfl | omega
    · by_cases hv : v = emptyByte
      · have e : cellSet ((a, b) :: m) x v = (a, b) :: m := by simp [cellSet, Nat.ne_of_gt hx, hx, hv]
        rw [e]
        by_cases h : y = x
        · subst h; simp [cellGet, hv, Nat.ne_of_gt hx, hx]
        · rw [if_neg h]
      · have e : cellSet ((a, b) :: m) x v = (x, v) :: (a, b) :: m := by simp [cellSet, Nat.ne_of_gt hx, hx, hv]
        rw [e]
        simp only [cellGet]
        split_ifs <;> first | rfl | omega

/-- A byte read after a byte is written. -/
theorem cellGet_cellSet {m : List Host.Cell} (w : Memory.wf m = true) (x y : Nat) (v : Byte) :
    cellGet (cellSet m x v) y = if y = x then v else cellGet m y := cellGet_cellSet_from w x y v

/-- Addresses outside a written run read as before. -/
theorem cellGet_cellWrite_of_outside {m : List Host.Cell} (w : Memory.wf m = true) (x : Nat) (bs : List Byte) (y : Nat)
    (h : y < x ∨ x + bs.length ≤ y) : cellGet (cellWrite m x bs) y = cellGet m y := by
  induction bs generalizing m x with
  | nil => rfl
  | cons b bs ih =>
    simp only [List.length_cons] at h
    show cellGet (cellWrite (cellSet m x b) (x + 1) bs) y = _
    rw [ih (wf_cellSet x b w) (x + 1) (by omega), cellGet_cellSet w]
    exact if_neg (by omega)

/-- A byte of a written run reads as written. -/
theorem cellGet_cellWrite {m : List Host.Cell} (w : Memory.wf m = true) (x : Nat) (bs : List Byte) (i : Nat) (h : i < bs.length) :
    cellGet (cellWrite m x bs) (x + i) = bs[i] := by
  induction bs generalizing m x i with
  | nil => simp at h
  | cons b bs ih =>
    show cellGet (cellWrite (cellSet m x b) (x + 1) bs) (x + i) = _
    cases i with
    | zero =>
      rw [cellGet_cellWrite_of_outside (wf_cellSet x b w) (x + 1) bs _ (by omega), cellGet_cellSet w]
      simp
    | succ i =>
      have e : x + (i + 1) = x + 1 + i := by omega
      rw [e, ih (wf_cellSet x b w) (x + 1) i (by simpa using h)]
      rfl

/-- Reading back a written run gives it. -/
theorem cellRead_cellWrite {m : List Host.Cell} (w : Memory.wf m = true) (x : Nat) (bs : List Byte) :
    cellRead (cellWrite m x bs) x bs.length = bs := by
  have key : ∀ (k j : Nat) (m' : List Host.Cell), j + k = bs.length → (∀ i (h : i < bs.length), cellGet m' (x + i) = bs[i]) →
      cellRead m' (x + j) k = bs.drop j := by
    intro k
    induction k with
    | zero => intro j m' h _; simp [cellRead, List.drop_of_length_le (by omega : bs.length ≤ j)]
    | succ k ih =>
      intro j m' h hm
      have hj : j < bs.length := by omega
      rw [cellRead, hm j hj, show x + j + 1 = x + (j + 1) by omega, ih (j + 1) m' (by omega) hm]
      exact (List.drop_eq_getElem_cons hj).symm
  have := key bs.length 0 (cellWrite m x bs) (by omega) (fun i h => cellGet_cellWrite w x bs i h)
  simpa using this

end Sys2Proof.Machine
end

