-- ==== Sys2Proof/Laws/PerInstr.lean ====
section
/-! SUPPORT. For every constructor: an instruction that stands in a half of the encoding has a word, and a step has none (R248). -/

namespace Sys2Proof.Laws

/-- The instruction has a word exactly if some half of the encoding holds it. -/
def Coded.Statement (i : Instr) : Prop := (encode i).isSome = (i.half != .step)

theorem Coded.nop : Coded.Statement .nop := rfl
theorem Coded.fence : ∀ x0 x1, Coded.Statement (.fence x0 x1) := fun _ _ => rfl
theorem Coded.commit : Coded.Statement .commit := rfl
theorem Coded.abort : Coded.Statement .abort := rfl
theorem Coded.wfe : ∀ x0, Coded.Statement (.wfe x0) := fun _ => rfl
theorem Coded.tsig : ∀ x0, Coded.Statement (.tsig x0) := fun _ => rfl
theorem Coded.twait : ∀ x0, Coded.Statement (.twait x0) := fun _ => rfl
theorem Coded.ttry : ∀ x0 x1, Coded.Statement (.ttry x0 x1) := fun _ _ => rfl
theorem Coded.ccset : ∀ x0, Coded.Statement (.ccset x0) := fun _ => rfl
theorem Coded.ccclr : ∀ x0, Coded.Statement (.ccclr x0) := fun _ => rfl
theorem Coded.ccwait : ∀ x0, Coded.Statement (.ccwait x0) := fun _ => rfl
theorem Coded.join : ∀ x0, Coded.Statement (.join x0) := fun _ => rfl
theorem Coded.add : ∀ x0 x1 x2, Coded.Statement (.add x0 x1 x2) := fun _ _ _ => rfl
theorem Coded.sub : ∀ x0 x1 x2, Coded.Statement (.sub x0 x1 x2) := fun _ _ _ => rfl
theorem Coded.and : ∀ x0 x1 x2, Coded.Statement (.and x0 x1 x2) := fun _ _ _ => rfl
theorem Coded.or : ∀ x0 x1 x2, Coded.Statement (.or x0 x1 x2) := fun _ _ _ => rfl
theorem Coded.xor : ∀ x0 x1 x2, Coded.Statement (.xor x0 x1 x2) := fun _ _ _ => rfl
theorem Coded.andn : ∀ x0 x1 x2, Coded.Statement (.andn x0 x1 x2) := fun _ _ _ => rfl
theorem Coded.sll : ∀ x0 x1 x2, Coded.Statement (.sll x0 x1 x2) := fun _ _ _ => rfl
theorem Coded.srl : ∀ x0 x1 x2, Coded.Statement (.srl x0 x1 x2) := fun _ _ _ => rfl
theorem Coded.sra : ∀ x0 x1 x2, Coded.Statement (.sra x0 x1 x2) := fun _ _ _ => rfl
theorem Coded.rol : ∀ x0 x1 x2, Coded.Statement (.rol x0 x1 x2) := fun _ _ _ => rfl
theorem Coded.mul : ∀ x0 x1 x2, Coded.Statement (.mul x0 x1 x2) := fun _ _ _ => rfl
theorem Coded.mulh : ∀ x0 x1 x2, Coded.Statement (.mulh x0 x1 x2) := fun _ _ _ => rfl
theorem Coded.mulhu : ∀ x0 x1 x2, Coded.Statement (.mulhu x0 x1 x2) := fun _ _ _ => rfl
theorem Coded.div : ∀ x0 x1 x2, Coded.Statement (.div x0 x1 x2) := fun _ _ _ => rfl
theorem Coded.divu : ∀ x0 x1 x2, Coded.Statement (.divu x0 x1 x2) := fun _ _ _ => rfl
theorem Coded.rem : ∀ x0 x1 x2, Coded.Statement (.rem x0 x1 x2) := fun _ _ _ => rfl
theorem Coded.remu : ∀ x0 x1 x2, Coded.Statement (.remu x0 x1 x2) := fun _ _ _ => rfl
theorem Coded.divw : ∀ x0 x1 x2, Coded.Statement (.divw x0 x1 x2) := fun _ _ _ => rfl
theorem Coded.remw : ∀ x0 x1 x2, Coded.Statement (.remw x0 x1 x2) := fun _ _ _ => rfl
theorem Coded.min : ∀ x0 x1 x2, Coded.Statement (.min x0 x1 x2) := fun _ _ _ => rfl
theorem Coded.max : ∀ x0 x1 x2, Coded.Statement (.max x0 x1 x2) := fun _ _ _ => rfl
theorem Coded.minu : ∀ x0 x1 x2, Coded.Statement (.minu x0 x1 x2) := fun _ _ _ => rfl
theorem Coded.maxu : ∀ x0 x1 x2, Coded.Statement (.maxu x0 x1 x2) := fun _ _ _ => rfl
theorem Coded.slt : ∀ x0 x1 x2, Coded.Statement (.slt x0 x1 x2) := fun _ _ _ => rfl
theorem Coded.sltu : ∀ x0 x1 x2, Coded.Statement (.sltu x0 x1 x2) := fun _ _ _ => rfl
theorem Coded.seq : ∀ x0 x1 x2, Coded.Statement (.seq x0 x1 x2) := fun _ _ _ => rfl
theorem Coded.clz : ∀ x0 x1, Coded.Statement (.clz x0 x1) := fun _ _ => rfl
theorem Coded.ctz : ∀ x0 x1, Coded.Statement (.ctz x0 x1) := fun _ _ => rfl
theorem Coded.popc : ∀ x0 x1, Coded.Statement (.popc x0 x1) := fun _ _ => rfl
theorem Coded.addi : ∀ x0 x1 x2, Coded.Statement (.addi x0 x1 x2) := fun _ _ _ => rfl
theorem Coded.andi : ∀ x0 x1 x2, Coded.Statement (.andi x0 x1 x2) := fun _ _ _ => rfl
theorem Coded.ori : ∀ x0 x1 x2, Coded.Statement (.ori x0 x1 x2) := fun _ _ _ => rfl
theorem Coded.xori : ∀ x0 x1 x2, Coded.Statement (.xori x0 x1 x2) := fun _ _ _ => rfl
theorem Coded.slli : ∀ x0 x1 x2, Coded.Statement (.slli x0 x1 x2) := fun _ _ _ => rfl
theorem Coded.srli : ∀ x0 x1 x2, Coded.Statement (.srli x0 x1 x2) := fun _ _ _ => rfl
theorem Coded.srai : ∀ x0 x1 x2, Coded.Statement (.srai x0 x1 x2) := fun _ _ _ => rfl
theorem Coded.slti : ∀ x0 x1 x2, Coded.Statement (.slti x0 x1 x2) := fun _ _ _ => rfl
theorem Coded.sltiu : ∀ x0 x1 x2, Coded.Statement (.sltiu x0 x1 x2) := fun _ _ _ => rfl
theorem Coded.movhi : ∀ x0 x1 x2, Coded.Statement (.movhi x0 x1 x2) := fun _ _ _ => rfl
theorem Coded.beq : ∀ x0 x1 x2, Coded.Statement (.beq x0 x1 x2) := fun _ _ _ => rfl
theorem Coded.bne : ∀ x0 x1 x2, Coded.Statement (.bne x0 x1 x2) := fun _ _ _ => rfl
theorem Coded.blt : ∀ x0 x1 x2, Coded.Statement (.blt x0 x1 x2) := fun _ _ _ => rfl
theorem Coded.bge : ∀ x0 x1 x2, Coded.Statement (.bge x0 x1 x2) := fun _ _ _ => rfl
theorem Coded.bltu : ∀ x0 x1 x2, Coded.Statement (.bltu x0 x1 x2) := fun _ _ _ => rfl
theorem Coded.bgeu : ∀ x0 x1 x2, Coded.Statement (.bgeu x0 x1 x2) := fun _ _ _ => rfl
theorem Coded.j : ∀ x0, Coded.Statement (.j x0) := fun _ => rfl
theorem Coded.jal : ∀ x0, Coded.Statement (.jal x0) := fun _ => rfl
theorem Coded.call : ∀ x0 x1, Coded.Statement (.call x0 x1) := fun _ _ => rfl
theorem Coded.jr : ∀ x0, Coded.Statement (.jr x0) := fun _ => rfl
theorem Coded.callr : ∀ x0 x1, Coded.Statement (.callr x0 x1) := fun _ _ => rfl
theorem Coded.ret : Coded.Statement .ret := rfl
theorem Coded.loop : ∀ x0 x1 x2, Coded.Statement (.loop x0 x1 x2) := fun _ _ _ => rfl
theorem Coded.loopi : ∀ x0 x1 x2, Coded.Statement (.loopi x0 x1 x2) := fun _ _ _ => rfl
theorem Coded.lstep : ∀ x0 x1 x2 x3, Coded.Statement (.lstep x0 x1 x2 x3) := fun _ _ _ _ => rfl
theorem Coded.lfirst : ∀ x0 x1, Coded.Statement (.lfirst x0 x1) := fun _ _ => rfl
theorem Coded.llast : ∀ x0 x1, Coded.Statement (.llast x0 x1) := fun _ _ => rfl
theorem Coded.lbreak : ∀ x0, Coded.Statement (.lbreak x0) := fun _ => rfl
theorem Coded.ldb : ∀ x0 x1 x2 x3, Coded.Statement (.ldb x0 x1 x2 x3) := fun _ _ _ _ => rfl
theorem Coded.ldbu : ∀ x0 x1 x2 x3, Coded.Statement (.ldbu x0 x1 x2 x3) := fun _ _ _ _ => rfl
theorem Coded.ldh : ∀ x0 x1 x2 x3, Coded.Statement (.ldh x0 x1 x2 x3) := fun _ _ _ _ => rfl
theorem Coded.ldhu : ∀ x0 x1 x2 x3, Coded.Statement (.ldhu x0 x1 x2 x3) := fun _ _ _ _ => rfl
theorem Coded.ldw : ∀ x0 x1 x2 x3, Coded.Statement (.ldw x0 x1 x2 x3) := fun _ _ _ _ => rfl
theorem Coded.ldwu : ∀ x0 x1 x2 x3, Coded.Statement (.ldwu x0 x1 x2 x3) := fun _ _ _ _ => rfl
theorem Coded.ldd : ∀ x0 x1 x2 x3, Coded.Statement (.ldd x0 x1 x2 x3) := fun _ _ _ _ => rfl
theorem Coded.stb : ∀ x0 x1 x2 x3, Coded.Statement (.stb x0 x1 x2 x3) := fun _ _ _ _ => rfl
theorem Coded.sth : ∀ x0 x1 x2 x3, Coded.Statement (.sth x0 x1 x2 x3) := fun _ _ _ _ => rfl
theorem Coded.stw : ∀ x0 x1 x2 x3, Coded.Statement (.stw x0 x1 x2 x3) := fun _ _ _ _ => rfl
theorem Coded.std : ∀ x0 x1 x2 x3, Coded.Statement (.std x0 x1 x2 x3) := fun _ _ _ _ => rfl
theorem Coded.bararr : ∀ x0 x1, Coded.Statement (.bararr x0 x1) := fun _ _ => rfl
theorem Coded.barwait : ∀ x0, Coded.Statement (.barwait x0) := fun _ => rfl
theorem Coded.barsync : ∀ x0 x1, Coded.Statement (.barsync x0 x1) := fun _ _ => rfl
theorem Coded.dsync : ∀ x0, Coded.Statement (.dsync x0) := fun _ => rfl
theorem Coded.fork : ∀ x0 x1 x2, Coded.Statement (.fork x0 x1 x2) := fun _ _ _ => rfl
theorem Coded.mfc : ∀ x0 x1, Coded.Statement (.mfc x0 x1) := fun _ _ => rfl
theorem Coded.mtc : ∀ x0 x1, Coded.Statement (.mtc x0 x1) := fun _ _ => rfl
theorem Coded.mfcXq : ∀ x0, Coded.Statement (.mfcXq x0) := fun _ => rfl
theorem Coded.mtcQ3 : ∀ x0, Coded.Statement (.mtcQ3 x0) := fun _ => rfl
theorem Coded.vld : ∀ x0 x1 x2 x3 x4 x5, Coded.Statement (.vld x0 x1 x2 x3 x4 x5) := fun _ _ _ _ _ _ => rfl
theorem Coded.vlds : ∀ x0 x1 x2 x3 x4 x5, Coded.Statement (.vlds x0 x1 x2 x3 x4 x5) := fun _ _ _ _ _ _ => rfl
theorem Coded.vldb : ∀ x0 x1 x2 x3 x4, Coded.Statement (.vldb x0 x1 x2 x3 x4) := fun _ _ _ _ _ => rfl
theorem Coded.probe : ∀ x0 x1 x2 x3 x4, Coded.Statement (.probe x0 x1 x2 x3 x4) := fun _ _ _ _ _ => rfl
theorem Coded.pref : ∀ x0 x1 x2 x3 x4, Coded.Statement (.pref x0 x1 x2 x3 x4) := fun _ _ _ _ _ => rfl
theorem Coded.lda : ∀ x0 x1 x2 x3 x4 x5 x6, Coded.Statement (.lda x0 x1 x2 x3 x4 x5 x6) := fun _ _ _ _ _ _ _ => rfl
theorem Coded.nreq : ∀ x0 x1 x2 x3 x4 x5, Coded.Statement (.nreq x0 x1 x2 x3 x4 x5) := fun _ _ _ _ _ _ => rfl
theorem Coded.nwait : ∀ x0 x1 x2, Coded.Statement (.nwait x0 x1 x2) := fun _ _ _ => rfl
theorem Coded.ncancel : ∀ x0 x1, Coded.Statement (.ncancel x0 x1) := fun _ _ => rfl
theorem Coded.vst : ∀ x0 x1 x2 x3, Coded.Statement (.vst x0 x1 x2 x3) := fun _ _ _ _ => rfl
theorem Coded.vsts : ∀ x0 x1 x2 x3 x4, Coded.Statement (.vsts x0 x1 x2 x3 x4) := fun _ _ _ _ _ => rfl
theorem Coded.stl : ∀ x0 x1 x2 x3 x4 x5 x6, Coded.Statement (.stl x0 x1 x2 x3 x4 x5 x6) := fun _ _ _ _ _ _ _ => rfl
theorem Coded.amoadd : ∀ x0 x1 x2 x3 x4 x5 x6, Coded.Statement (.amoadd x0 x1 x2 x3 x4 x5 x6) := fun _ _ _ _ _ _ _ => rfl
theorem Coded.amomin : ∀ x0 x1 x2 x3 x4 x5 x6 x7, Coded.Statement (.amomin x0 x1 x2 x3 x4 x5 x6 x7) := fun _ _ _ _ _ _ _ _ => rfl
theorem Coded.amomax : ∀ x0 x1 x2 x3 x4 x5 x6 x7, Coded.Statement (.amomax x0 x1 x2 x3 x4 x5 x6 x7) := fun _ _ _ _ _ _ _ _ => rfl
theorem Coded.amoand : ∀ x0 x1 x2 x3 x4 x5 x6, Coded.Statement (.amoand x0 x1 x2 x3 x4 x5 x6) := fun _ _ _ _ _ _ _ => rfl
theorem Coded.amoor : ∀ x0 x1 x2 x3 x4 x5 x6, Coded.Statement (.amoor x0 x1 x2 x3 x4 x5 x6) := fun _ _ _ _ _ _ _ => rfl
theorem Coded.amoxor : ∀ x0 x1 x2 x3 x4 x5 x6, Coded.Statement (.amoxor x0 x1 x2 x3 x4 x5 x6) := fun _ _ _ _ _ _ _ => rfl
theorem Coded.amoswp : ∀ x0 x1 x2 x3 x4 x5 x6, Coded.Statement (.amoswp x0 x1 x2 x3 x4 x5 x6) := fun _ _ _ _ _ _ _ => rfl
theorem Coded.amocas : ∀ x0 x1 x2 x3 x4 x5 x6, Coded.Statement (.amocas x0 x1 x2 x3 x4 x5 x6) := fun _ _ _ _ _ _ _ => rfl
theorem Coded.vradd : ∀ x0 x1 x2 x3 x4 x5 x6 x7, Coded.Statement (.vradd x0 x1 x2 x3 x4 x5 x6 x7) := fun _ _ _ _ _ _ _ _ => rfl
theorem Coded.npub : ∀ x0 x1 x2 x3, Coded.Statement (.npub x0 x1 x2 x3) := fun _ _ _ _ => rfl
theorem Coded.bst : ∀ x0 x1 x2 x3 x4, Coded.Statement (.bst x0 x1 x2 x3 x4) := fun _ _ _ _ _ => rfl
theorem Coded.vadd : ∀ x0, Coded.Statement (.vadd x0) := fun _ => rfl
theorem Coded.vsub : ∀ x0, Coded.Statement (.vsub x0) := fun _ => rfl
theorem Coded.vmul : ∀ x0, Coded.Statement (.vmul x0) := fun _ => rfl
theorem Coded.vfma : ∀ x0, Coded.Statement (.vfma x0) := fun _ => rfl
theorem Coded.vfms : ∀ x0, Coded.Statement (.vfms x0) := fun _ => rfl
theorem Coded.vfnma : ∀ x0, Coded.Statement (.vfnma x0) := fun _ => rfl
theorem Coded.vmin : ∀ x0, Coded.Statement (.vmin x0) := fun _ => rfl
theorem Coded.vmax : ∀ x0, Coded.Statement (.vmax x0) := fun _ => rfl
theorem Coded.vabs : ∀ x0, Coded.Statement (.vabs x0) := fun _ => rfl
theorem Coded.vneg : ∀ x0, Coded.Statement (.vneg x0) := fun _ => rfl
theorem Coded.vrcp : ∀ x0, Coded.Statement (.vrcp x0) := fun _ => rfl
theorem Coded.vrsq : ∀ x0, Coded.Statement (.vrsq x0) := fun _ => rfl
theorem Coded.vexp2 : ∀ x0, Coded.Statement (.vexp2 x0) := fun _ => rfl
theorem Coded.vlog2 : ∀ x0, Coded.Statement (.vlog2 x0) := fun _ => rfl
theorem Coded.vcmp : ∀ x0, Coded.Statement (.vcmp x0) := fun _ => rfl
theorem Coded.vsel : ∀ x0, Coded.Statement (.vsel x0) := fun _ => rfl
theorem Coded.vcvt : ∀ x0, Coded.Statement (.vcvt x0) := fun _ => rfl
theorem Coded.vpack : ∀ x0, Coded.Statement (.vpack x0) := fun _ => rfl
theorem Coded.vunpk : ∀ x0, Coded.Statement (.vunpk x0) := fun _ => rfl
theorem Coded.vzp : ∀ x0, Coded.Statement (.vzp x0) := fun _ => rfl
theorem Coded.vscacc : ∀ x0, Coded.Statement (.vscacc x0) := fun _ => rfl
theorem Coded.vscalex : ∀ x0, Coded.Statement (.vscalex x0) := fun _ => rfl
theorem Coded.vredadd : ∀ x0, Coded.Statement (.vredadd x0) := fun _ => rfl
theorem Coded.vredmax : ∀ x0, Coded.Statement (.vredmax x0) := fun _ => rfl
theorem Coded.vredmin : ∀ x0, Coded.Statement (.vredmin x0) := fun _ => rfl
theorem Coded.vperm : ∀ x0, Coded.Statement (.vperm x0) := fun _ => rfl
theorem Coded.vslide : ∀ x0, Coded.Statement (.vslide x0) := fun _ => rfl
theorem Coded.vbcast : ∀ x0, Coded.Statement (.vbcast x0) := fun _ => rfl
theorem Coded.vmov : ∀ x0, Coded.Statement (.vmov x0) := fun _ => rfl
theorem Coded.vclr : ∀ x0, Coded.Statement (.vclr x0) := fun _ => rfl
theorem Coded.viadd : ∀ x0, Coded.Statement (.viadd x0) := fun _ => rfl
theorem Coded.visub : ∀ x0, Coded.Statement (.visub x0) := fun _ => rfl
theorem Coded.vimul : ∀ x0, Coded.Statement (.vimul x0) := fun _ => rfl
theorem Coded.vimulh : ∀ x0, Coded.Statement (.vimulh x0) := fun _ => rfl
theorem Coded.vimin : ∀ x0, Coded.Statement (.vimin x0) := fun _ => rfl
theorem Coded.vimax : ∀ x0, Coded.Statement (.vimax x0) := fun _ => rfl
theorem Coded.viabs : ∀ x0, Coded.Statement (.viabs x0) := fun _ => rfl
theorem Coded.vand : ∀ x0, Coded.Statement (.vand x0) := fun _ => rfl
theorem Coded.vor : ∀ x0, Coded.Statement (.vor x0) := fun _ => rfl
theorem Coded.vxor : ∀ x0, Coded.Statement (.vxor x0) := fun _ => rfl
theorem Coded.vsll : ∀ x0, Coded.Statement (.vsll x0) := fun _ => rfl
theorem Coded.vsrl : ∀ x0, Coded.Statement (.vsrl x0) := fun _ => rfl
theorem Coded.vsra : ∀ x0, Coded.Statement (.vsra x0) := fun _ => rfl
theorem Coded.vmand : ∀ x0, Coded.Statement (.vmand x0) := fun _ => rfl
theorem Coded.vmor : ∀ x0, Coded.Statement (.vmor x0) := fun _ => rfl
theorem Coded.vmxor : ∀ x0, Coded.Statement (.vmxor x0) := fun _ => rfl
theorem Coded.vmnot : ∀ x0, Coded.Statement (.vmnot x0) := fun _ => rfl
theorem Coded.vmpop : ∀ x0, Coded.Statement (.vmpop x0) := fun _ => rfl
theorem Coded.vmfirst : ∀ x0, Coded.Statement (.vmfirst x0) := fun _ => rfl
theorem Coded.viota : ∀ x0, Coded.Statement (.viota x0) := fun _ => rfl
theorem Coded.vxtr : ∀ x0, Coded.Statement (.vxtr x0) := fun _ => rfl
theorem Coded.jcmd : ∀ x0 x1 x2 x3, Coded.Statement (.jcmd x0 x1 x2 x3) := fun _ _ _ _ => rfl
theorem Coded.jend : ∀ x0 x1, Coded.Statement (.jend x0 x1) := fun _ _ => rfl
theorem Coded.jwait : ∀ x0 x1 x2, Coded.Statement (.jwait x0 x1 x2) := fun _ _ _ => rfl
theorem Coded.jpoll : ∀ x0 x1, Coded.Statement (.jpoll x0 x1) := fun _ _ => rfl
theorem Coded.jpop : ∀ x0 x1 x2, Coded.Statement (.jpop x0 x1 x2) := fun _ _ _ => rfl
theorem Coded.ringdef : ∀ x0 x1, Coded.Statement (.ringdef x0 x1) := fun _ _ => rfl
theorem Coded.ringadv : ∀ x0 x1, Coded.Statement (.ringadv x0 x1) := fun _ _ => rfl
theorem Coded.ringst : ∀ x0 x1 x2, Coded.Statement (.ringst x0 x1 x2) := fun _ _ _ => rfl
theorem Coded.trap : ∀ x0 x1, Coded.Statement (.trap x0 x1) := fun _ _ => rfl
theorem Coded.tret : Coded.Statement .tret := rfl
theorem Coded.syscReadContext : ∀ x0 x1, Coded.Statement (.syscReadContext x0 x1) := fun _ _ => rfl
theorem Coded.syscPagerRequest : ∀ x0, Coded.Statement (.syscPagerRequest x0) := fun _ => rfl
theorem Coded.syscPagerTake : ∀ x0 x1, Coded.Statement (.syscPagerTake x0 x1) := fun _ _ => rfl
theorem Coded.syscPagerReply : ∀ x0 x1, Coded.Statement (.syscPagerReply x0 x1) := fun _ _ => rfl
theorem Coded.mfs : ∀ x0 x1 x2, Coded.Statement (.mfs x0 x1 x2) := fun _ _ _ => rfl
theorem Coded.mts : ∀ x0 x1 x2, Coded.Statement (.mts x0 x1 x2) := fun _ _ _ => rfl
theorem Coded.yield : Coded.Statement .yield := rfl
theorem Coded.tend : Coded.Statement .tend := rfl
theorem Coded.lnch : ∀ x0 x1 x2, Coded.Statement (.lnch x0 x1 x2) := fun _ _ _ => rfl
theorem Coded.fcall : ∀ x0 x1, Coded.Statement (.fcall x0 x1) := fun _ _ => rfl
theorem Coded.fawait : ∀ x0 x1, Coded.Statement (.fawait x0 x1) := fun _ _ => rfl
theorem Coded.fpoll : ∀ x0 x1, Coded.Statement (.fpoll x0 x1) := fun _ _ => rfl
theorem Coded.fcancel : ∀ x0 x1, Coded.Statement (.fcancel x0 x1) := fun _ _ => rfl
theorem Coded.qtzr : ∀ x0, Coded.Statement (.qtzr x0) := fun _ => rfl
theorem Coded.qtzrUntil : ∀ x0 x1, Coded.Statement (.qtzrUntil x0 x1) := fun _ _ => rfl
theorem Coded.lttld : ∀ x0 x1 x2, Coded.Statement (.lttld x0 x1 x2) := fun _ _ _ => rfl
theorem Coded.dbg : ∀ x0, Coded.Statement (.dbg x0) := fun _ => rfl
theorem Coded.fget : ∀ x0 x1 x2, Coded.Statement (.fget x0 x1 x2) := fun _ _ _ => rfl
theorem Coded.fres : ∀ x0 x1 x2, Coded.Statement (.fres x0 x1 x2) := fun _ _ _ => rfl
theorem Coded.fext : ∀ x0 x1 x2, Coded.Statement (.fext x0 x1 x2) := fun _ _ _ => rfl
theorem Coded.bundleIssue : ∀ x0 x1 x2 x3, Coded.Statement (.bundleIssue x0 x1 x2 x3) := fun _ _ _ _ => rfl
theorem Coded.mma : ∀ x0 x1, Coded.Statement (.mma x0 x1) := fun _ _ => rfl
theorem Coded.mdist : ∀ x0 x1, Coded.Statement (.mdist x0 x1) := fun _ _ => rfl
theorem Coded.mtopk : ∀ x0 x1, Coded.Statement (.mtopk x0 x1) := fun _ _ => rfl
theorem Coded.mzero : ∀ x0 x1, Coded.Statement (.mzero x0 x1) := fun _ _ => rfl
theorem Coded.mload : ∀ x0 x1, Coded.Statement (.mload x0 x1) := fun _ _ => rfl
theorem Coded.mout : ∀ x0 x1, Coded.Statement (.mout x0 x1) := fun _ _ => rfl
theorem Coded.cpy : ∀ x0 x1, Coded.Statement (.cpy x0 x1) := fun _ _ => rfl
theorem Coded.cfill : ∀ x0 x1, Coded.Statement (.cfill x0 x1) := fun _ _ => rfl
theorem Coded.cgath : ∀ x0 x1, Coded.Statement (.cgath x0 x1) := fun _ _ => rfl
theorem Coded.cscat : ∀ x0 x1, Coded.Statement (.cscat x0 x1) := fun _ _ => rfl
theorem Coded.cring : ∀ x0 x1, Coded.Statement (.cring x0 x1) := fun _ _ => rfl
theorem Coded.commandRetire : ∀ x0 x1, Coded.Statement (.commandRetire x0 x1) := fun _ _ => rfl
theorem Coded.stampMiss : ∀ x0 x1, Coded.Statement (.stampMiss x0 x1) := fun _ _ => rfl
theorem Coded.jobComplete : ∀ x0 x1, Coded.Statement (.jobComplete x0 x1) := fun _ _ => rfl
theorem Coded.jobTokenPush : ∀ x0 x1, Coded.Statement (.jobTokenPush x0 x1) := fun _ _ => rfl
theorem Coded.vectorBind : ∀ x0 x1, Coded.Statement (.vectorBind x0 x1) := fun _ _ => rfl
theorem Coded.xResultLand : ∀ x0, Coded.Statement (.xResultLand x0) := fun _ => rfl
theorem Coded.readResponse : ∀ x0 x1, Coded.Statement (.readResponse x0 x1) := fun _ _ => rfl
theorem Coded.writeCompletion : ∀ x0, Coded.Statement (.writeCompletion x0) := fun _ => rfl
theorem Coded.taskStart : ∀ x0, Coded.Statement (.taskStart x0) := fun _ => rfl
theorem Coded.taskResume : ∀ x0, Coded.Statement (.taskResume x0) := fun _ => rfl
theorem Coded.placementDecision : ∀ x0, Coded.Statement (.placementDecision x0) := fun _ => rfl
theorem Coded.preload : ∀ x0, Coded.Statement (.preload x0) := fun _ => rfl
theorem Coded.vacate : ∀ x0, Coded.Statement (.vacate x0) := fun _ => rfl
theorem Coded.budgetOverrun : ∀ x0, Coded.Statement (.budgetOverrun x0) := fun _ => rfl
theorem Coded.contextSave : ∀ x0 x1, Coded.Statement (.contextSave x0 x1) := fun _ _ => rfl
theorem Coded.saveComplete : ∀ x0, Coded.Statement (.saveComplete x0) := fun _ => rfl
theorem Coded.deadlockDetect : ∀ x0, Coded.Statement (.deadlockDetect x0) := fun _ => rfl
theorem Coded.ctxkillWrite : ∀ x0, Coded.Statement (.ctxkillWrite x0) := fun _ => rfl
theorem Coded.ctxReset : ∀ x0, Coded.Statement (.ctxReset x0) := fun _ => rfl
theorem Coded.ctxResetComplete : ∀ x0, Coded.Statement (.ctxResetComplete x0) := fun _ => rfl
theorem Coded.ctxEnable : ∀ x0, Coded.Statement (.ctxEnable x0) := fun _ => rfl
theorem Coded.ctxDisable : ∀ x0, Coded.Statement (.ctxDisable x0) := fun _ => rfl
theorem Coded.lqTailUpdate : ∀ x0 x1, Coded.Statement (.lqTailUpdate x0 x1) := fun _ _ => rfl
theorem Coded.launchTake : ∀ x0 x1, Coded.Statement (.launchTake x0 x1) := fun _ _ => rfl
theorem Coded.pagerTaskPlace : ∀ x0, Coded.Statement (.pagerTaskPlace x0) := fun _ => rfl
theorem Coded.pagerdescWrite : ∀ x0, Coded.Statement (.pagerdescWrite x0) := fun _ => rfl
theorem Coded.pagercfgWrite : ∀ x0 x1, Coded.Statement (.pagercfgWrite x0 x1) := fun _ _ => rfl
theorem Coded.pagerReplyArrival : ∀ x0 x1, Coded.Statement (.pagerReplyArrival x0 x1) := fun _ _ => rfl
theorem Coded.cssplitWrite : ∀ x0 x1, Coded.Statement (.cssplitWrite x0 x1) := fun _ _ => rfl
theorem Coded.cssplitChange : ∀ x0, Coded.Statement (.cssplitChange x0) := fun _ => rfl
theorem Coded.mscWindowEnable : ∀ x0 x1 x2, Coded.Statement (.mscWindowEnable x0 x1 x2) := fun _ _ _ => rfl
theorem Coded.mscWindowDisable : ∀ x0 x1 x2, Coded.Statement (.mscWindowDisable x0 x1 x2) := fun _ _ _ => rfl
theorem Coded.mscWindowFill : ∀ x0 x1, Coded.Statement (.mscWindowFill x0 x1) := fun _ _ => rfl
theorem Coded.mscFadeBoundary : ∀ x0, Coded.Statement (.mscFadeBoundary x0) := fun _ => rfl
theorem Coded.homeAgentRequest : ∀ x0, Coded.Statement (.homeAgentRequest x0) := fun _ => rfl
theorem Coded.prbs : ∀ x0, Coded.Statement (.prbs x0) := fun _ => rfl
theorem Coded.prbx : ∀ x0, Coded.Statement (.prbx x0) := fun _ => rfl
theorem Coded.prbsys : ∀ x0, Coded.Statement (.prbsys x0) := fun _ => rfl
theorem Coded.probeResponse : ∀ x0 x1, Coded.Statement (.probeResponse x0 x1) := fun _ _ => rfl
theorem Coded.notheld : ∀ x0, Coded.Statement (.notheld x0) := fun _ => rfl
theorem Coded.pinRetry : ∀ x0, Coded.Statement (.pinRetry x0) := fun _ => rfl
theorem Coded.hptEpochEnd : Coded.Statement .hptEpochEnd := rfl
theorem Coded.migSubmit : ∀ x0, Coded.Statement (.migSubmit x0) := fun _ => rfl
theorem Coded.migLineCopy : ∀ x0 x1, Coded.Statement (.migLineCopy x0 x1) := fun _ _ => rfl
theorem Coded.migComplete : ∀ x0, Coded.Statement (.migComplete x0) := fun _ => rfl
theorem Coded.migCompletionRecord : Coded.Statement .migCompletionRecord := rfl
theorem Coded.migRelease : ∀ x0, Coded.Statement (.migRelease x0) := fun _ => rfl
theorem Coded.ringFirstFlit : ∀ x0 x1, Coded.Statement (.ringFirstFlit x0 x1) := fun _ _ => rfl
theorem Coded.ringFlitReturn : ∀ x0, Coded.Statement (.ringFlitReturn x0) := fun _ => rfl
theorem Coded.ringReinsert : ∀ x0 x1, Coded.Statement (.ringReinsert x0 x1) := fun _ _ => rfl
theorem Coded.rackForward : ∀ x0 x1, Coded.Statement (.rackForward x0 x1) := fun _ _ => rfl
theorem Coded.rackReinsert : ∀ x0 x1, Coded.Statement (.rackReinsert x0 x1) := fun _ _ => rfl
theorem Coded.peerAccess : ∀ x0 x1, Coded.Statement (.peerAccess x0 x1) := fun _ _ => rfl
theorem Coded.e2eRequest : ∀ x0 x1 x2 x3, Coded.Statement (.e2eRequest x0 x1 x2 x3) := fun _ _ _ _ => rfl
theorem Coded.e2eAck : ∀ x0 x1 x2, Coded.Statement (.e2eAck x0 x1 x2) := fun _ _ _ => rfl
theorem Coded.e2eTimeout : ∀ x0 x1, Coded.Statement (.e2eTimeout x0 x1) := fun _ _ => rfl
theorem Coded.linkSend : ∀ x0 x1, Coded.Statement (.linkSend x0 x1) := fun _ _ => rfl
theorem Coded.linkDataFlit : ∀ x0 x1 x2 x3, Coded.Statement (.linkDataFlit x0 x1 x2 x3) := fun _ _ _ _ => rfl
theorem Coded.linkAck : ∀ x0 x1, Coded.Statement (.linkAck x0 x1) := fun _ _ => rfl
theorem Coded.linkNak : ∀ x0 x1, Coded.Statement (.linkNak x0 x1) := fun _ _ => rfl
theorem Coded.linkAckTimer : ∀ x0, Coded.Statement (.linkAckTimer x0) := fun _ => rfl
theorem Coded.linkNakTimer : ∀ x0, Coded.Statement (.linkNakTimer x0) := fun _ => rfl
theorem Coded.lossOfLight : ∀ x0 x1, Coded.Statement (.lossOfLight x0 x1) := fun _ _ => rfl
theorem Coded.elsuFault : ∀ x0 x1, Coded.Statement (.elsuFault x0 x1) := fun _ _ => rfl
theorem Coded.linkNotice : ∀ x0 x1 x2, Coded.Statement (.linkNotice x0 x1 x2) := fun _ _ _ => rfl
theorem Coded.linkTrainingDone : ∀ x0, Coded.Statement (.linkTrainingDone x0) := fun _ => rfl
theorem Coded.linkTrainingLocked : ∀ x0, Coded.Statement (.linkTrainingLocked x0) := fun _ => rfl
theorem Coded.linkRetrainResult : ∀ x0 x1, Coded.Statement (.linkRetrainResult x0 x1) := fun _ _ => rfl
theorem Coded.windowWriteArrival : ∀ x0, Coded.Statement (.windowWriteArrival x0) := fun _ => rfl
theorem Coded.windowAck : ∀ x0 x1 x2 x3, Coded.Statement (.windowAck x0 x1 x2 x3) := fun _ _ _ _ => rfl
theorem Coded.zgPassFrame : ∀ x0, Coded.Statement (.zgPassFrame x0) := fun _ => rfl
theorem Coded.zgRegenerateFrame : ∀ x0, Coded.Statement (.zgRegenerateFrame x0) := fun _ => rfl
theorem Coded.zgLossReport : ∀ x0, Coded.Statement (.zgLossReport x0) := fun _ => rfl
theorem Coded.zgSyncMessage : ∀ x0, Coded.Statement (.zgSyncMessage x0) := fun _ => rfl
theorem Coded.zgDataBurst : ∀ x0, Coded.Statement (.zgDataBurst x0) := fun _ => rfl
theorem Coded.qtzCorrection : Coded.Statement .qtzCorrection := rfl
theorem Coded.zgTokenLossTimeout : ∀ x0, Coded.Statement (.zgTokenLossTimeout x0) := fun _ => rfl
theorem Coded.zgLossReportSlot : ∀ x0, Coded.Statement (.zgLossReportSlot x0) := fun _ => rfl
theorem Coded.zgRegenerate : ∀ x0, Coded.Statement (.zgRegenerate x0) := fun _ => rfl
theorem Coded.agateInterest : ∀ x0 x1 x2, Coded.Statement (.agateInterest x0 x1 x2) := fun _ _ _ => rfl
theorem Coded.agateTileSegment : ∀ x0 x1, Coded.Statement (.agateTileSegment x0 x1) := fun _ _ => rfl
theorem Coded.agateAnnouncement : ∀ x0 x1, Coded.Statement (.agateAnnouncement x0 x1) := fun _ _ => rfl
theorem Coded.agateCancel : ∀ x0 x1 x2, Coded.Statement (.agateCancel x0 x1 x2) := fun _ _ _ => rfl
theorem Coded.agateRefresh : ∀ x0 x1 x2, Coded.Statement (.agateRefresh x0 x1 x2) := fun _ _ _ => rfl
theorem Coded.agateRefusal : ∀ x0 x1, Coded.Statement (.agateRefusal x0 x1) := fun _ _ => rfl
theorem Coded.agateEntryExpiry : ∀ x0 x1, Coded.Statement (.agateEntryExpiry x0 x1) := fun _ _ => rfl
theorem Coded.agateRecordExpiry : ∀ x0, Coded.Statement (.agateRecordExpiry x0) := fun _ => rfl
theorem Coded.routingEntryWrite : ∀ x0 x1 x2 x3, Coded.Statement (.routingEntryWrite x0 x1 x2 x3) := fun _ _ _ _ => rfl
theorem Coded.futureDeadline : ∀ x0, Coded.Statement (.futureDeadline x0) := fun _ => rfl
theorem Coded.remoteSendComplete : ∀ x0, Coded.Statement (.remoteSendComplete x0) := fun _ => rfl
theorem Coded.remoteReply : ∀ x0 x1 x2, Coded.Statement (.remoteReply x0 x1 x2) := fun _ _ _ => rfl
theorem Coded.prefillRecordWrite : ∀ x0, Coded.Statement (.prefillRecordWrite x0) := fun _ => rfl
theorem Coded.futureWake : ∀ x0, Coded.Statement (.futureWake x0) := fun _ => rfl
theorem Coded.qtzrWake : ∀ x0, Coded.Statement (.qtzrWake x0) := fun _ => rfl
theorem Coded.debugHalt : ∀ x0, Coded.Statement (.debugHalt x0) := fun _ => rfl
theorem Coded.debugResume : ∀ x0, Coded.Statement (.debugResume x0) := fun _ => rfl
theorem Coded.crossTrigger : ∀ x0 x1, Coded.Statement (.crossTrigger x0 x1) := fun _ _ => rfl
theorem Coded.debugSample : ∀ x0, Coded.Statement (.debugSample x0) := fun _ => rfl
theorem Coded.berylReplayLimit : ∀ x0, Coded.Statement (.berylReplayLimit x0) := fun _ => rfl
theorem Coded.berylModeOff : ∀ x0, Coded.Statement (.berylModeOff x0) := fun _ => rfl
theorem Coded.berylModeRecord : ∀ x0, Coded.Statement (.berylModeRecord x0) := fun _ => rfl
theorem Coded.berylModeReplay : ∀ x0, Coded.Statement (.berylModeReplay x0) := fun _ => rfl
theorem Coded.moduleReset : Coded.Statement .moduleReset := rfl
theorem Coded.bootGo : Coded.Statement .bootGo := rfl
theorem Coded.bootVerify : Coded.Statement .bootVerify := rfl
theorem Coded.attestRequest : ∀ x0, Coded.Statement (.attestRequest x0) := fun _ => rfl
theorem Coded.attestReport : Coded.Statement .attestReport := rfl
theorem Coded.clusterSleep : ∀ x0, Coded.Statement (.clusterSleep x0) := fun _ => rfl
theorem Coded.clusterWake : ∀ x0, Coded.Statement (.clusterWake x0) := fun _ => rfl
theorem Coded.coreSleep : ∀ x0, Coded.Statement (.coreSleep x0) := fun _ => rfl
theorem Coded.coreWake : ∀ x0, Coded.Statement (.coreWake x0) := fun _ => rfl
theorem Coded.correctedError : ∀ x0 x1, Coded.Statement (.correctedError x0 x1) := fun _ _ => rfl
theorem Coded.uncorrectableError : ∀ x0 x1 x2, Coded.Statement (.uncorrectableError x0 x1 x2) := fun _ _ _ => rfl
theorem Coded.eyeMarginLow : ∀ x0 x1 x2, Coded.Statement (.eyeMarginLow x0 x1 x2) := fun _ _ _ => rfl
theorem Coded.checkpointSave : ∀ x0, Coded.Statement (.checkpointSave x0) := fun _ => rfl
theorem Coded.checkpointRestore : ∀ x0, Coded.Statement (.checkpointRestore x0) := fun _ => rfl
theorem Coded.checkpointEnd : Coded.Statement .checkpointEnd := rfl
theorem Coded.registerWrite : ∀ x0 x1, Coded.Statement (.registerWrite x0 x1) := fun _ _ => rfl
theorem Coded.ferleHartInstruction : ∀ x0 x1, Coded.Statement (.ferleHartInstruction x0 x1) := fun _ _ => rfl
theorem Coded.cranyLinkLaneLost : ∀ x0, Coded.Statement (.cranyLinkLaneLost x0) := fun _ => rfl
theorem Coded.memoryChannelRetrainDone : ∀ x0, Coded.Statement (.memoryChannelRetrainDone x0) := fun _ => rfl

end Sys2Proof.Laws
end

