-- ==== Sys2Proof/Laws/Updates.lean ====
section
/-! SUPPORT. What each named update of one field leaves of the others: of the machine, and of a core. -/

namespace Sys2Proof.Machine

/-! ### `State.modLm` -/

@[simp] theorem State.modLm_quartz (s : State) (f : Lm → Lm) : (s.modLm f).quartz = s.quartz := rfl
@[simp] theorem State.modLm_free (s : State) (f : Lm → Lm) : (s.modLm f).free = s.free := rfl
@[simp] theorem State.modLm_agenda (s : State) (f : Lm → Lm) : (s.modLm f).agenda = s.agenda := rfl
@[simp] theorem State.modLm_turn (s : State) (f : Lm → Lm) : (s.modLm f).turn = s.turn := rfl
@[simp] theorem State.modLm_cur (s : State) (f : Lm → Lm) : (s.modLm f).cur = s.cur := rfl
@[simp] theorem State.modLm_hart (s : State) (f : Lm → Lm) : (s.modLm f).hart = s.hart := rfl
@[simp] theorem State.modLm_core (s : State) (f : Lm → Lm) : (s.modLm f).core = s.core := rfl
@[simp] theorem State.modLm_cores (s : State) (f : Lm → Lm) : (s.modLm f).cores = s.cores := rfl
@[simp] theorem State.modLm_clusters (s : State) (f : Lm → Lm) : (s.modLm f).clusters = s.clusters := rfl
@[simp] theorem State.modLm_jobs (s : State) (f : Lm → Lm) : (s.modLm f).jobs = s.jobs := rfl
@[simp] theorem State.modLm_jobSeq (s : State) (f : Lm → Lm) : (s.modLm f).jobSeq = s.jobSeq := rfl
@[simp] theorem State.modLm_jobDone (s : State) (f : Lm → Lm) : (s.modLm f).jobDone = s.jobDone := rfl
@[simp] theorem State.modLm_mem (s : State) (f : Lm → Lm) : (s.modLm f).mem = s.mem := rfl
@[simp] theorem State.modLm_store (s : State) (f : Lm → Lm) : (s.modLm f).store = s.store := rfl
@[simp] theorem State.modLm_dev (s : State) (f : Lm → Lm) : (s.modLm f).dev = s.dev := rfl
@[simp] theorem State.modLm_lm (s : State) (f : Lm → Lm) : (s.modLm f).lm = f s.lm := rfl
@[simp] theorem State.modLm_coh (s : State) (f : Lm → Lm) : (s.modLm f).coh = s.coh := rfl
@[simp] theorem State.modLm_futures (s : State) (f : Lm → Lm) : (s.modLm f).futures = s.futures := rfl
@[simp] theorem State.modLm_futSeq (s : State) (f : Lm → Lm) : (s.modLm f).futSeq = s.futSeq := rfl
@[simp] theorem State.modLm_futGen (s : State) (f : Lm → Lm) : (s.modLm f).futGen = s.futGen := rfl
@[simp] theorem State.modLm_pqSeq (s : State) (f : Lm → Lm) : (s.modLm f).pqSeq = s.pqSeq := rfl
@[simp] theorem State.modLm_harts (s : State) (f : Lm → Lm) : (s.modLm f).harts = s.harts := rfl
@[simp] theorem State.modLm_fab (s : State) (f : Lm → Lm) : (s.modLm f).fab = s.fab := rfl
@[simp] theorem State.modLm_zg (s : State) (f : Lm → Lm) : (s.modLm f).zg = s.zg := rfl
@[simp] theorem State.modLm_agate (s : State) (f : Lm → Lm) : (s.modLm f).agate = s.agate := rfl
@[simp] theorem State.modLm_beryl (s : State) (f : Lm → Lm) : (s.modLm f).beryl = s.beryl := rfl
@[simp] theorem State.modLm_ras (s : State) (f : Lm → Lm) : (s.modLm f).ras = s.ras := rfl
@[simp] theorem State.modLm_moduleFloor (s : State) (f : Lm → Lm) : (s.modLm f).moduleFloor = s.moduleFloor := rfl
@[simp] theorem State.modLm_out (s : State) (f : Lm → Lm) : (s.modLm f).out = s.out := rfl

/-! ### `State.modCoh` -/

@[simp] theorem State.modCoh_quartz (s : State) (f : Coh → Coh) : (s.modCoh f).quartz = s.quartz := rfl
@[simp] theorem State.modCoh_free (s : State) (f : Coh → Coh) : (s.modCoh f).free = s.free := rfl
@[simp] theorem State.modCoh_agenda (s : State) (f : Coh → Coh) : (s.modCoh f).agenda = s.agenda := rfl
@[simp] theorem State.modCoh_turn (s : State) (f : Coh → Coh) : (s.modCoh f).turn = s.turn := rfl
@[simp] theorem State.modCoh_cur (s : State) (f : Coh → Coh) : (s.modCoh f).cur = s.cur := rfl
@[simp] theorem State.modCoh_hart (s : State) (f : Coh → Coh) : (s.modCoh f).hart = s.hart := rfl
@[simp] theorem State.modCoh_core (s : State) (f : Coh → Coh) : (s.modCoh f).core = s.core := rfl
@[simp] theorem State.modCoh_cores (s : State) (f : Coh → Coh) : (s.modCoh f).cores = s.cores := rfl
@[simp] theorem State.modCoh_clusters (s : State) (f : Coh → Coh) : (s.modCoh f).clusters = s.clusters := rfl
@[simp] theorem State.modCoh_jobs (s : State) (f : Coh → Coh) : (s.modCoh f).jobs = s.jobs := rfl
@[simp] theorem State.modCoh_jobSeq (s : State) (f : Coh → Coh) : (s.modCoh f).jobSeq = s.jobSeq := rfl
@[simp] theorem State.modCoh_jobDone (s : State) (f : Coh → Coh) : (s.modCoh f).jobDone = s.jobDone := rfl
@[simp] theorem State.modCoh_mem (s : State) (f : Coh → Coh) : (s.modCoh f).mem = s.mem := rfl
@[simp] theorem State.modCoh_store (s : State) (f : Coh → Coh) : (s.modCoh f).store = s.store := rfl
@[simp] theorem State.modCoh_dev (s : State) (f : Coh → Coh) : (s.modCoh f).dev = s.dev := rfl
@[simp] theorem State.modCoh_lm (s : State) (f : Coh → Coh) : (s.modCoh f).lm = s.lm := rfl
@[simp] theorem State.modCoh_coh (s : State) (f : Coh → Coh) : (s.modCoh f).coh = f s.coh := rfl
@[simp] theorem State.modCoh_futures (s : State) (f : Coh → Coh) : (s.modCoh f).futures = s.futures := rfl
@[simp] theorem State.modCoh_futSeq (s : State) (f : Coh → Coh) : (s.modCoh f).futSeq = s.futSeq := rfl
@[simp] theorem State.modCoh_futGen (s : State) (f : Coh → Coh) : (s.modCoh f).futGen = s.futGen := rfl
@[simp] theorem State.modCoh_pqSeq (s : State) (f : Coh → Coh) : (s.modCoh f).pqSeq = s.pqSeq := rfl
@[simp] theorem State.modCoh_harts (s : State) (f : Coh → Coh) : (s.modCoh f).harts = s.harts := rfl
@[simp] theorem State.modCoh_fab (s : State) (f : Coh → Coh) : (s.modCoh f).fab = s.fab := rfl
@[simp] theorem State.modCoh_zg (s : State) (f : Coh → Coh) : (s.modCoh f).zg = s.zg := rfl
@[simp] theorem State.modCoh_agate (s : State) (f : Coh → Coh) : (s.modCoh f).agate = s.agate := rfl
@[simp] theorem State.modCoh_beryl (s : State) (f : Coh → Coh) : (s.modCoh f).beryl = s.beryl := rfl
@[simp] theorem State.modCoh_ras (s : State) (f : Coh → Coh) : (s.modCoh f).ras = s.ras := rfl
@[simp] theorem State.modCoh_moduleFloor (s : State) (f : Coh → Coh) : (s.modCoh f).moduleFloor = s.moduleFloor := rfl
@[simp] theorem State.modCoh_out (s : State) (f : Coh → Coh) : (s.modCoh f).out = s.out := rfl

/-! ### `State.modFab` -/

@[simp] theorem State.modFab_quartz (s : State) (f : Fabric → Fabric) : (s.modFab f).quartz = s.quartz := rfl
@[simp] theorem State.modFab_free (s : State) (f : Fabric → Fabric) : (s.modFab f).free = s.free := rfl
@[simp] theorem State.modFab_agenda (s : State) (f : Fabric → Fabric) : (s.modFab f).agenda = s.agenda := rfl
@[simp] theorem State.modFab_turn (s : State) (f : Fabric → Fabric) : (s.modFab f).turn = s.turn := rfl
@[simp] theorem State.modFab_cur (s : State) (f : Fabric → Fabric) : (s.modFab f).cur = s.cur := rfl
@[simp] theorem State.modFab_hart (s : State) (f : Fabric → Fabric) : (s.modFab f).hart = s.hart := rfl
@[simp] theorem State.modFab_core (s : State) (f : Fabric → Fabric) : (s.modFab f).core = s.core := rfl
@[simp] theorem State.modFab_cores (s : State) (f : Fabric → Fabric) : (s.modFab f).cores = s.cores := rfl
@[simp] theorem State.modFab_clusters (s : State) (f : Fabric → Fabric) : (s.modFab f).clusters = s.clusters := rfl
@[simp] theorem State.modFab_jobs (s : State) (f : Fabric → Fabric) : (s.modFab f).jobs = s.jobs := rfl
@[simp] theorem State.modFab_jobSeq (s : State) (f : Fabric → Fabric) : (s.modFab f).jobSeq = s.jobSeq := rfl
@[simp] theorem State.modFab_jobDone (s : State) (f : Fabric → Fabric) : (s.modFab f).jobDone = s.jobDone := rfl
@[simp] theorem State.modFab_mem (s : State) (f : Fabric → Fabric) : (s.modFab f).mem = s.mem := rfl
@[simp] theorem State.modFab_store (s : State) (f : Fabric → Fabric) : (s.modFab f).store = s.store := rfl
@[simp] theorem State.modFab_dev (s : State) (f : Fabric → Fabric) : (s.modFab f).dev = s.dev := rfl
@[simp] theorem State.modFab_lm (s : State) (f : Fabric → Fabric) : (s.modFab f).lm = s.lm := rfl
@[simp] theorem State.modFab_coh (s : State) (f : Fabric → Fabric) : (s.modFab f).coh = s.coh := rfl
@[simp] theorem State.modFab_futures (s : State) (f : Fabric → Fabric) : (s.modFab f).futures = s.futures := rfl
@[simp] theorem State.modFab_futSeq (s : State) (f : Fabric → Fabric) : (s.modFab f).futSeq = s.futSeq := rfl
@[simp] theorem State.modFab_futGen (s : State) (f : Fabric → Fabric) : (s.modFab f).futGen = s.futGen := rfl
@[simp] theorem State.modFab_pqSeq (s : State) (f : Fabric → Fabric) : (s.modFab f).pqSeq = s.pqSeq := rfl
@[simp] theorem State.modFab_harts (s : State) (f : Fabric → Fabric) : (s.modFab f).harts = s.harts := rfl
@[simp] theorem State.modFab_fab (s : State) (f : Fabric → Fabric) : (s.modFab f).fab = f s.fab := rfl
@[simp] theorem State.modFab_zg (s : State) (f : Fabric → Fabric) : (s.modFab f).zg = s.zg := rfl
@[simp] theorem State.modFab_agate (s : State) (f : Fabric → Fabric) : (s.modFab f).agate = s.agate := rfl
@[simp] theorem State.modFab_beryl (s : State) (f : Fabric → Fabric) : (s.modFab f).beryl = s.beryl := rfl
@[simp] theorem State.modFab_ras (s : State) (f : Fabric → Fabric) : (s.modFab f).ras = s.ras := rfl
@[simp] theorem State.modFab_moduleFloor (s : State) (f : Fabric → Fabric) : (s.modFab f).moduleFloor = s.moduleFloor := rfl
@[simp] theorem State.modFab_out (s : State) (f : Fabric → Fabric) : (s.modFab f).out = s.out := rfl

/-! ### `State.modZg` -/

@[simp] theorem State.modZg_quartz (s : State) (f : Zheuc → Zheuc) : (s.modZg f).quartz = s.quartz := rfl
@[simp] theorem State.modZg_free (s : State) (f : Zheuc → Zheuc) : (s.modZg f).free = s.free := rfl
@[simp] theorem State.modZg_agenda (s : State) (f : Zheuc → Zheuc) : (s.modZg f).agenda = s.agenda := rfl
@[simp] theorem State.modZg_turn (s : State) (f : Zheuc → Zheuc) : (s.modZg f).turn = s.turn := rfl
@[simp] theorem State.modZg_cur (s : State) (f : Zheuc → Zheuc) : (s.modZg f).cur = s.cur := rfl
@[simp] theorem State.modZg_hart (s : State) (f : Zheuc → Zheuc) : (s.modZg f).hart = s.hart := rfl
@[simp] theorem State.modZg_core (s : State) (f : Zheuc → Zheuc) : (s.modZg f).core = s.core := rfl
@[simp] theorem State.modZg_cores (s : State) (f : Zheuc → Zheuc) : (s.modZg f).cores = s.cores := rfl
@[simp] theorem State.modZg_clusters (s : State) (f : Zheuc → Zheuc) : (s.modZg f).clusters = s.clusters := rfl
@[simp] theorem State.modZg_jobs (s : State) (f : Zheuc → Zheuc) : (s.modZg f).jobs = s.jobs := rfl
@[simp] theorem State.modZg_jobSeq (s : State) (f : Zheuc → Zheuc) : (s.modZg f).jobSeq = s.jobSeq := rfl
@[simp] theorem State.modZg_jobDone (s : State) (f : Zheuc → Zheuc) : (s.modZg f).jobDone = s.jobDone := rfl
@[simp] theorem State.modZg_mem (s : State) (f : Zheuc → Zheuc) : (s.modZg f).mem = s.mem := rfl
@[simp] theorem State.modZg_store (s : State) (f : Zheuc → Zheuc) : (s.modZg f).store = s.store := rfl
@[simp] theorem State.modZg_dev (s : State) (f : Zheuc → Zheuc) : (s.modZg f).dev = s.dev := rfl
@[simp] theorem State.modZg_lm (s : State) (f : Zheuc → Zheuc) : (s.modZg f).lm = s.lm := rfl
@[simp] theorem State.modZg_coh (s : State) (f : Zheuc → Zheuc) : (s.modZg f).coh = s.coh := rfl
@[simp] theorem State.modZg_futures (s : State) (f : Zheuc → Zheuc) : (s.modZg f).futures = s.futures := rfl
@[simp] theorem State.modZg_futSeq (s : State) (f : Zheuc → Zheuc) : (s.modZg f).futSeq = s.futSeq := rfl
@[simp] theorem State.modZg_futGen (s : State) (f : Zheuc → Zheuc) : (s.modZg f).futGen = s.futGen := rfl
@[simp] theorem State.modZg_pqSeq (s : State) (f : Zheuc → Zheuc) : (s.modZg f).pqSeq = s.pqSeq := rfl
@[simp] theorem State.modZg_harts (s : State) (f : Zheuc → Zheuc) : (s.modZg f).harts = s.harts := rfl
@[simp] theorem State.modZg_fab (s : State) (f : Zheuc → Zheuc) : (s.modZg f).fab = s.fab := rfl
@[simp] theorem State.modZg_zg (s : State) (f : Zheuc → Zheuc) : (s.modZg f).zg = f s.zg := rfl
@[simp] theorem State.modZg_agate (s : State) (f : Zheuc → Zheuc) : (s.modZg f).agate = s.agate := rfl
@[simp] theorem State.modZg_beryl (s : State) (f : Zheuc → Zheuc) : (s.modZg f).beryl = s.beryl := rfl
@[simp] theorem State.modZg_ras (s : State) (f : Zheuc → Zheuc) : (s.modZg f).ras = s.ras := rfl
@[simp] theorem State.modZg_moduleFloor (s : State) (f : Zheuc → Zheuc) : (s.modZg f).moduleFloor = s.moduleFloor := rfl
@[simp] theorem State.modZg_out (s : State) (f : Zheuc → Zheuc) : (s.modZg f).out = s.out := rfl

/-! ### `State.modAg` -/

@[simp] theorem State.modAg_quartz (s : State) (f : Agate → Agate) : (s.modAg f).quartz = s.quartz := rfl
@[simp] theorem State.modAg_free (s : State) (f : Agate → Agate) : (s.modAg f).free = s.free := rfl
@[simp] theorem State.modAg_agenda (s : State) (f : Agate → Agate) : (s.modAg f).agenda = s.agenda := rfl
@[simp] theorem State.modAg_turn (s : State) (f : Agate → Agate) : (s.modAg f).turn = s.turn := rfl
@[simp] theorem State.modAg_cur (s : State) (f : Agate → Agate) : (s.modAg f).cur = s.cur := rfl
@[simp] theorem State.modAg_hart (s : State) (f : Agate → Agate) : (s.modAg f).hart = s.hart := rfl
@[simp] theorem State.modAg_core (s : State) (f : Agate → Agate) : (s.modAg f).core = s.core := rfl
@[simp] theorem State.modAg_cores (s : State) (f : Agate → Agate) : (s.modAg f).cores = s.cores := rfl
@[simp] theorem State.modAg_clusters (s : State) (f : Agate → Agate) : (s.modAg f).clusters = s.clusters := rfl
@[simp] theorem State.modAg_jobs (s : State) (f : Agate → Agate) : (s.modAg f).jobs = s.jobs := rfl
@[simp] theorem State.modAg_jobSeq (s : State) (f : Agate → Agate) : (s.modAg f).jobSeq = s.jobSeq := rfl
@[simp] theorem State.modAg_jobDone (s : State) (f : Agate → Agate) : (s.modAg f).jobDone = s.jobDone := rfl
@[simp] theorem State.modAg_mem (s : State) (f : Agate → Agate) : (s.modAg f).mem = s.mem := rfl
@[simp] theorem State.modAg_store (s : State) (f : Agate → Agate) : (s.modAg f).store = s.store := rfl
@[simp] theorem State.modAg_dev (s : State) (f : Agate → Agate) : (s.modAg f).dev = s.dev := rfl
@[simp] theorem State.modAg_lm (s : State) (f : Agate → Agate) : (s.modAg f).lm = s.lm := rfl
@[simp] theorem State.modAg_coh (s : State) (f : Agate → Agate) : (s.modAg f).coh = s.coh := rfl
@[simp] theorem State.modAg_futures (s : State) (f : Agate → Agate) : (s.modAg f).futures = s.futures := rfl
@[simp] theorem State.modAg_futSeq (s : State) (f : Agate → Agate) : (s.modAg f).futSeq = s.futSeq := rfl
@[simp] theorem State.modAg_futGen (s : State) (f : Agate → Agate) : (s.modAg f).futGen = s.futGen := rfl
@[simp] theorem State.modAg_pqSeq (s : State) (f : Agate → Agate) : (s.modAg f).pqSeq = s.pqSeq := rfl
@[simp] theorem State.modAg_harts (s : State) (f : Agate → Agate) : (s.modAg f).harts = s.harts := rfl
@[simp] theorem State.modAg_fab (s : State) (f : Agate → Agate) : (s.modAg f).fab = s.fab := rfl
@[simp] theorem State.modAg_zg (s : State) (f : Agate → Agate) : (s.modAg f).zg = s.zg := rfl
@[simp] theorem State.modAg_agate (s : State) (f : Agate → Agate) : (s.modAg f).agate = f s.agate := rfl
@[simp] theorem State.modAg_beryl (s : State) (f : Agate → Agate) : (s.modAg f).beryl = s.beryl := rfl
@[simp] theorem State.modAg_ras (s : State) (f : Agate → Agate) : (s.modAg f).ras = s.ras := rfl
@[simp] theorem State.modAg_moduleFloor (s : State) (f : Agate → Agate) : (s.modAg f).moduleFloor = s.moduleFloor := rfl
@[simp] theorem State.modAg_out (s : State) (f : Agate → Agate) : (s.modAg f).out = s.out := rfl

/-! ### `State.setReg` -/

@[simp] theorem State.setReg_quartz (s : State) (a : Nat) (v : Word) : (s.setReg a v).quartz = s.quartz := rfl
@[simp] theorem State.setReg_free (s : State) (a : Nat) (v : Word) : (s.setReg a v).free = s.free := rfl
@[simp] theorem State.setReg_agenda (s : State) (a : Nat) (v : Word) : (s.setReg a v).agenda = s.agenda := rfl
@[simp] theorem State.setReg_turn (s : State) (a : Nat) (v : Word) : (s.setReg a v).turn = s.turn := rfl
@[simp] theorem State.setReg_cur (s : State) (a : Nat) (v : Word) : (s.setReg a v).cur = s.cur := rfl
@[simp] theorem State.setReg_hart (s : State) (a : Nat) (v : Word) : (s.setReg a v).hart = s.hart := rfl
@[simp] theorem State.setReg_core (s : State) (a : Nat) (v : Word) : (s.setReg a v).core = s.core := rfl
@[simp] theorem State.setReg_cores (s : State) (a : Nat) (v : Word) : (s.setReg a v).cores = s.cores := rfl
@[simp] theorem State.setReg_clusters (s : State) (a : Nat) (v : Word) : (s.setReg a v).clusters = s.clusters := rfl
@[simp] theorem State.setReg_jobs (s : State) (a : Nat) (v : Word) : (s.setReg a v).jobs = s.jobs := rfl
@[simp] theorem State.setReg_jobSeq (s : State) (a : Nat) (v : Word) : (s.setReg a v).jobSeq = s.jobSeq := rfl
@[simp] theorem State.setReg_jobDone (s : State) (a : Nat) (v : Word) : (s.setReg a v).jobDone = s.jobDone := rfl
@[simp] theorem State.setReg_mem (s : State) (a : Nat) (v : Word) : (s.setReg a v).mem = s.mem := rfl
@[simp] theorem State.setReg_store (s : State) (a : Nat) (v : Word) : (s.setReg a v).store = s.store := rfl
@[simp] theorem State.setReg_lm (s : State) (a : Nat) (v : Word) : (s.setReg a v).lm = s.lm := rfl
@[simp] theorem State.setReg_coh (s : State) (a : Nat) (v : Word) : (s.setReg a v).coh = s.coh := rfl
@[simp] theorem State.setReg_futures (s : State) (a : Nat) (v : Word) : (s.setReg a v).futures = s.futures := rfl
@[simp] theorem State.setReg_futSeq (s : State) (a : Nat) (v : Word) : (s.setReg a v).futSeq = s.futSeq := rfl
@[simp] theorem State.setReg_futGen (s : State) (a : Nat) (v : Word) : (s.setReg a v).futGen = s.futGen := rfl
@[simp] theorem State.setReg_pqSeq (s : State) (a : Nat) (v : Word) : (s.setReg a v).pqSeq = s.pqSeq := rfl
@[simp] theorem State.setReg_harts (s : State) (a : Nat) (v : Word) : (s.setReg a v).harts = s.harts := rfl
@[simp] theorem State.setReg_fab (s : State) (a : Nat) (v : Word) : (s.setReg a v).fab = s.fab := rfl
@[simp] theorem State.setReg_zg (s : State) (a : Nat) (v : Word) : (s.setReg a v).zg = s.zg := rfl
@[simp] theorem State.setReg_agate (s : State) (a : Nat) (v : Word) : (s.setReg a v).agate = s.agate := rfl
@[simp] theorem State.setReg_beryl (s : State) (a : Nat) (v : Word) : (s.setReg a v).beryl = s.beryl := rfl
@[simp] theorem State.setReg_ras (s : State) (a : Nat) (v : Word) : (s.setReg a v).ras = s.ras := rfl
@[simp] theorem State.setReg_moduleFloor (s : State) (a : Nat) (v : Word) : (s.setReg a v).moduleFloor = s.moduleFloor := rfl
@[simp] theorem State.setReg_out (s : State) (a : Nat) (v : Word) : (s.setReg a v).out = s.out := rfl

/-! ### `State.writeReg` -/

@[simp] theorem State.writeReg_quartz (s : State) (a : Nat) (v : Word) : (s.writeReg a v).quartz = s.quartz := rfl
@[simp] theorem State.writeReg_free (s : State) (a : Nat) (v : Word) : (s.writeReg a v).free = s.free := rfl
@[simp] theorem State.writeReg_agenda (s : State) (a : Nat) (v : Word) : (s.writeReg a v).agenda = s.agenda := rfl
@[simp] theorem State.writeReg_turn (s : State) (a : Nat) (v : Word) : (s.writeReg a v).turn = s.turn := rfl
@[simp] theorem State.writeReg_cur (s : State) (a : Nat) (v : Word) : (s.writeReg a v).cur = s.cur := rfl
@[simp] theorem State.writeReg_hart (s : State) (a : Nat) (v : Word) : (s.writeReg a v).hart = s.hart := rfl
@[simp] theorem State.writeReg_core (s : State) (a : Nat) (v : Word) : (s.writeReg a v).core = s.core := rfl
@[simp] theorem State.writeReg_cores (s : State) (a : Nat) (v : Word) : (s.writeReg a v).cores = s.cores := rfl
@[simp] theorem State.writeReg_clusters (s : State) (a : Nat) (v : Word) : (s.writeReg a v).clusters = s.clusters := rfl
@[simp] theorem State.writeReg_jobs (s : State) (a : Nat) (v : Word) : (s.writeReg a v).jobs = s.jobs := rfl
@[simp] theorem State.writeReg_jobSeq (s : State) (a : Nat) (v : Word) : (s.writeReg a v).jobSeq = s.jobSeq := rfl
@[simp] theorem State.writeReg_jobDone (s : State) (a : Nat) (v : Word) : (s.writeReg a v).jobDone = s.jobDone := rfl
@[simp] theorem State.writeReg_mem (s : State) (a : Nat) (v : Word) : (s.writeReg a v).mem = s.mem := rfl
@[simp] theorem State.writeReg_store (s : State) (a : Nat) (v : Word) : (s.writeReg a v).store = s.store := rfl
@[simp] theorem State.writeReg_lm (s : State) (a : Nat) (v : Word) : (s.writeReg a v).lm = s.lm := rfl
@[simp] theorem State.writeReg_coh (s : State) (a : Nat) (v : Word) : (s.writeReg a v).coh = s.coh := rfl
@[simp] theorem State.writeReg_futures (s : State) (a : Nat) (v : Word) : (s.writeReg a v).futures = s.futures := rfl
@[simp] theorem State.writeReg_futSeq (s : State) (a : Nat) (v : Word) : (s.writeReg a v).futSeq = s.futSeq := rfl
@[simp] theorem State.writeReg_futGen (s : State) (a : Nat) (v : Word) : (s.writeReg a v).futGen = s.futGen := rfl
@[simp] theorem State.writeReg_pqSeq (s : State) (a : Nat) (v : Word) : (s.writeReg a v).pqSeq = s.pqSeq := rfl
@[simp] theorem State.writeReg_harts (s : State) (a : Nat) (v : Word) : (s.writeReg a v).harts = s.harts := rfl
@[simp] theorem State.writeReg_fab (s : State) (a : Nat) (v : Word) : (s.writeReg a v).fab = s.fab := rfl
@[simp] theorem State.writeReg_zg (s : State) (a : Nat) (v : Word) : (s.writeReg a v).zg = s.zg := rfl
@[simp] theorem State.writeReg_agate (s : State) (a : Nat) (v : Word) : (s.writeReg a v).agate = s.agate := rfl
@[simp] theorem State.writeReg_beryl (s : State) (a : Nat) (v : Word) : (s.writeReg a v).beryl = s.beryl := rfl
@[simp] theorem State.writeReg_ras (s : State) (a : Nat) (v : Word) : (s.writeReg a v).ras = s.ras := rfl
@[simp] theorem State.writeReg_moduleFloor (s : State) (a : Nat) (v : Word) : (s.writeReg a v).moduleFloor = s.moduleFloor := rfl
@[simp] theorem State.writeReg_out (s : State) (a : Nat) (v : Word) : (s.writeReg a v).out = s.out := rfl

/-! ### `State.count` -/

@[simp] theorem State.count_quartz (s : State) (a n : Nat) : (s.count a n).quartz = s.quartz := rfl
@[simp] theorem State.count_free (s : State) (a n : Nat) : (s.count a n).free = s.free := rfl
@[simp] theorem State.count_agenda (s : State) (a n : Nat) : (s.count a n).agenda = s.agenda := rfl
@[simp] theorem State.count_turn (s : State) (a n : Nat) : (s.count a n).turn = s.turn := rfl
@[simp] theorem State.count_cur (s : State) (a n : Nat) : (s.count a n).cur = s.cur := rfl
@[simp] theorem State.count_hart (s : State) (a n : Nat) : (s.count a n).hart = s.hart := rfl
@[simp] theorem State.count_core (s : State) (a n : Nat) : (s.count a n).core = s.core := rfl
@[simp] theorem State.count_cores (s : State) (a n : Nat) : (s.count a n).cores = s.cores := rfl
@[simp] theorem State.count_clusters (s : State) (a n : Nat) : (s.count a n).clusters = s.clusters := rfl
@[simp] theorem State.count_jobs (s : State) (a n : Nat) : (s.count a n).jobs = s.jobs := rfl
@[simp] theorem State.count_jobSeq (s : State) (a n : Nat) : (s.count a n).jobSeq = s.jobSeq := rfl
@[simp] theorem State.count_jobDone (s : State) (a n : Nat) : (s.count a n).jobDone = s.jobDone := rfl
@[simp] theorem State.count_mem (s : State) (a n : Nat) : (s.count a n).mem = s.mem := rfl
@[simp] theorem State.count_store (s : State) (a n : Nat) : (s.count a n).store = s.store := rfl
@[simp] theorem State.count_lm (s : State) (a n : Nat) : (s.count a n).lm = s.lm := rfl
@[simp] theorem State.count_coh (s : State) (a n : Nat) : (s.count a n).coh = s.coh := rfl
@[simp] theorem State.count_futures (s : State) (a n : Nat) : (s.count a n).futures = s.futures := rfl
@[simp] theorem State.count_futSeq (s : State) (a n : Nat) : (s.count a n).futSeq = s.futSeq := rfl
@[simp] theorem State.count_futGen (s : State) (a n : Nat) : (s.count a n).futGen = s.futGen := rfl
@[simp] theorem State.count_pqSeq (s : State) (a n : Nat) : (s.count a n).pqSeq = s.pqSeq := rfl
@[simp] theorem State.count_harts (s : State) (a n : Nat) : (s.count a n).harts = s.harts := rfl
@[simp] theorem State.count_fab (s : State) (a n : Nat) : (s.count a n).fab = s.fab := rfl
@[simp] theorem State.count_zg (s : State) (a n : Nat) : (s.count a n).zg = s.zg := rfl
@[simp] theorem State.count_agate (s : State) (a n : Nat) : (s.count a n).agate = s.agate := rfl
@[simp] theorem State.count_beryl (s : State) (a n : Nat) : (s.count a n).beryl = s.beryl := rfl
@[simp] theorem State.count_ras (s : State) (a n : Nat) : (s.count a n).ras = s.ras := rfl
@[simp] theorem State.count_moduleFloor (s : State) (a n : Nat) : (s.count a n).moduleFloor = s.moduleFloor := rfl
@[simp] theorem State.count_out (s : State) (a n : Nat) : (s.count a n).out = s.out := rfl

/-! ### `State.emit` -/

@[simp] theorem State.emit_quartz (s : State) (kind : Nat) (ws : List Word) : (s.emit kind ws).quartz = s.quartz := rfl
@[simp] theorem State.emit_free (s : State) (kind : Nat) (ws : List Word) : (s.emit kind ws).free = s.free := rfl
@[simp] theorem State.emit_agenda (s : State) (kind : Nat) (ws : List Word) : (s.emit kind ws).agenda = s.agenda := rfl
@[simp] theorem State.emit_turn (s : State) (kind : Nat) (ws : List Word) : (s.emit kind ws).turn = s.turn := rfl
@[simp] theorem State.emit_cur (s : State) (kind : Nat) (ws : List Word) : (s.emit kind ws).cur = s.cur := rfl
@[simp] theorem State.emit_hart (s : State) (kind : Nat) (ws : List Word) : (s.emit kind ws).hart = s.hart := rfl
@[simp] theorem State.emit_core (s : State) (kind : Nat) (ws : List Word) : (s.emit kind ws).core = s.core := rfl
@[simp] theorem State.emit_cores (s : State) (kind : Nat) (ws : List Word) : (s.emit kind ws).cores = s.cores := rfl
@[simp] theorem State.emit_clusters (s : State) (kind : Nat) (ws : List Word) : (s.emit kind ws).clusters = s.clusters := rfl
@[simp] theorem State.emit_jobs (s : State) (kind : Nat) (ws : List Word) : (s.emit kind ws).jobs = s.jobs := rfl
@[simp] theorem State.emit_jobSeq (s : State) (kind : Nat) (ws : List Word) : (s.emit kind ws).jobSeq = s.jobSeq := rfl
@[simp] theorem State.emit_jobDone (s : State) (kind : Nat) (ws : List Word) : (s.emit kind ws).jobDone = s.jobDone := rfl
@[simp] theorem State.emit_mem (s : State) (kind : Nat) (ws : List Word) : (s.emit kind ws).mem = s.mem := rfl
@[simp] theorem State.emit_store (s : State) (kind : Nat) (ws : List Word) : (s.emit kind ws).store = s.store := rfl
@[simp] theorem State.emit_dev (s : State) (kind : Nat) (ws : List Word) : (s.emit kind ws).dev = s.dev := rfl
@[simp] theorem State.emit_lm (s : State) (kind : Nat) (ws : List Word) : (s.emit kind ws).lm = s.lm := rfl
@[simp] theorem State.emit_coh (s : State) (kind : Nat) (ws : List Word) : (s.emit kind ws).coh = s.coh := rfl
@[simp] theorem State.emit_futures (s : State) (kind : Nat) (ws : List Word) : (s.emit kind ws).futures = s.futures := rfl
@[simp] theorem State.emit_futSeq (s : State) (kind : Nat) (ws : List Word) : (s.emit kind ws).futSeq = s.futSeq := rfl
@[simp] theorem State.emit_futGen (s : State) (kind : Nat) (ws : List Word) : (s.emit kind ws).futGen = s.futGen := rfl
@[simp] theorem State.emit_pqSeq (s : State) (kind : Nat) (ws : List Word) : (s.emit kind ws).pqSeq = s.pqSeq := rfl
@[simp] theorem State.emit_harts (s : State) (kind : Nat) (ws : List Word) : (s.emit kind ws).harts = s.harts := rfl
@[simp] theorem State.emit_fab (s : State) (kind : Nat) (ws : List Word) : (s.emit kind ws).fab = s.fab := rfl
@[simp] theorem State.emit_zg (s : State) (kind : Nat) (ws : List Word) : (s.emit kind ws).zg = s.zg := rfl
@[simp] theorem State.emit_agate (s : State) (kind : Nat) (ws : List Word) : (s.emit kind ws).agate = s.agate := rfl
@[simp] theorem State.emit_beryl (s : State) (kind : Nat) (ws : List Word) : (s.emit kind ws).beryl = s.beryl := rfl
@[simp] theorem State.emit_ras (s : State) (kind : Nat) (ws : List Word) : (s.emit kind ws).ras = s.ras := rfl
@[simp] theorem State.emit_moduleFloor (s : State) (kind : Nat) (ws : List Word) : (s.emit kind ws).moduleFloor = s.moduleFloor := rfl
@[simp] theorem State.emit_out (s : State) (kind : Nat) (ws : List Word) : (s.emit kind ws).out = (kind, ws) :: s.out := rfl

/-! ### `State.putJob` -/

@[simp] theorem State.putJob_quartz (s : State) (j : Job) : (s.putJob j).quartz = s.quartz := rfl
@[simp] theorem State.putJob_free (s : State) (j : Job) : (s.putJob j).free = s.free := rfl
@[simp] theorem State.putJob_agenda (s : State) (j : Job) : (s.putJob j).agenda = s.agenda := rfl
@[simp] theorem State.putJob_turn (s : State) (j : Job) : (s.putJob j).turn = s.turn := rfl
@[simp] theorem State.putJob_cur (s : State) (j : Job) : (s.putJob j).cur = s.cur := rfl
@[simp] theorem State.putJob_hart (s : State) (j : Job) : (s.putJob j).hart = s.hart := rfl
@[simp] theorem State.putJob_core (s : State) (j : Job) : (s.putJob j).core = s.core := rfl
@[simp] theorem State.putJob_cores (s : State) (j : Job) : (s.putJob j).cores = s.cores := rfl
@[simp] theorem State.putJob_clusters (s : State) (j : Job) : (s.putJob j).clusters = s.clusters := rfl
@[simp] theorem State.putJob_jobSeq (s : State) (j : Job) : (s.putJob j).jobSeq = s.jobSeq := rfl
@[simp] theorem State.putJob_jobDone (s : State) (j : Job) : (s.putJob j).jobDone = s.jobDone := rfl
@[simp] theorem State.putJob_mem (s : State) (j : Job) : (s.putJob j).mem = s.mem := rfl
@[simp] theorem State.putJob_store (s : State) (j : Job) : (s.putJob j).store = s.store := rfl
@[simp] theorem State.putJob_dev (s : State) (j : Job) : (s.putJob j).dev = s.dev := rfl
@[simp] theorem State.putJob_lm (s : State) (j : Job) : (s.putJob j).lm = s.lm := rfl
@[simp] theorem State.putJob_coh (s : State) (j : Job) : (s.putJob j).coh = s.coh := rfl
@[simp] theorem State.putJob_futures (s : State) (j : Job) : (s.putJob j).futures = s.futures := rfl
@[simp] theorem State.putJob_futSeq (s : State) (j : Job) : (s.putJob j).futSeq = s.futSeq := rfl
@[simp] theorem State.putJob_futGen (s : State) (j : Job) : (s.putJob j).futGen = s.futGen := rfl
@[simp] theorem State.putJob_pqSeq (s : State) (j : Job) : (s.putJob j).pqSeq = s.pqSeq := rfl
@[simp] theorem State.putJob_harts (s : State) (j : Job) : (s.putJob j).harts = s.harts := rfl
@[simp] theorem State.putJob_fab (s : State) (j : Job) : (s.putJob j).fab = s.fab := rfl
@[simp] theorem State.putJob_zg (s : State) (j : Job) : (s.putJob j).zg = s.zg := rfl
@[simp] theorem State.putJob_agate (s : State) (j : Job) : (s.putJob j).agate = s.agate := rfl
@[simp] theorem State.putJob_beryl (s : State) (j : Job) : (s.putJob j).beryl = s.beryl := rfl
@[simp] theorem State.putJob_ras (s : State) (j : Job) : (s.putJob j).ras = s.ras := rfl
@[simp] theorem State.putJob_moduleFloor (s : State) (j : Job) : (s.putJob j).moduleFloor = s.moduleFloor := rfl
@[simp] theorem State.putJob_out (s : State) (j : Job) : (s.putJob j).out = s.out := rfl

/-! ### `State.dropJob` -/

@[simp] theorem State.dropJob_quartz (s : State) (j : Job) : (s.dropJob j).quartz = s.quartz := rfl
@[simp] theorem State.dropJob_free (s : State) (j : Job) : (s.dropJob j).free = s.free := rfl
@[simp] theorem State.dropJob_agenda (s : State) (j : Job) : (s.dropJob j).agenda = s.agenda := rfl
@[simp] theorem State.dropJob_turn (s : State) (j : Job) : (s.dropJob j).turn = s.turn := rfl
@[simp] theorem State.dropJob_cur (s : State) (j : Job) : (s.dropJob j).cur = s.cur := rfl
@[simp] theorem State.dropJob_hart (s : State) (j : Job) : (s.dropJob j).hart = s.hart := rfl
@[simp] theorem State.dropJob_core (s : State) (j : Job) : (s.dropJob j).core = s.core := rfl
@[simp] theorem State.dropJob_cores (s : State) (j : Job) : (s.dropJob j).cores = s.cores := rfl
@[simp] theorem State.dropJob_clusters (s : State) (j : Job) : (s.dropJob j).clusters = s.clusters := rfl
@[simp] theorem State.dropJob_jobSeq (s : State) (j : Job) : (s.dropJob j).jobSeq = s.jobSeq := rfl
@[simp] theorem State.dropJob_jobDone (s : State) (j : Job) : (s.dropJob j).jobDone = s.jobDone := rfl
@[simp] theorem State.dropJob_mem (s : State) (j : Job) : (s.dropJob j).mem = s.mem := rfl
@[simp] theorem State.dropJob_store (s : State) (j : Job) : (s.dropJob j).store = s.store := rfl
@[simp] theorem State.dropJob_dev (s : State) (j : Job) : (s.dropJob j).dev = s.dev := rfl
@[simp] theorem State.dropJob_lm (s : State) (j : Job) : (s.dropJob j).lm = s.lm := rfl
@[simp] theorem State.dropJob_coh (s : State) (j : Job) : (s.dropJob j).coh = s.coh := rfl
@[simp] theorem State.dropJob_futures (s : State) (j : Job) : (s.dropJob j).futures = s.futures := rfl
@[simp] theorem State.dropJob_futSeq (s : State) (j : Job) : (s.dropJob j).futSeq = s.futSeq := rfl
@[simp] theorem State.dropJob_futGen (s : State) (j : Job) : (s.dropJob j).futGen = s.futGen := rfl
@[simp] theorem State.dropJob_pqSeq (s : State) (j : Job) : (s.dropJob j).pqSeq = s.pqSeq := rfl
@[simp] theorem State.dropJob_harts (s : State) (j : Job) : (s.dropJob j).harts = s.harts := rfl
@[simp] theorem State.dropJob_fab (s : State) (j : Job) : (s.dropJob j).fab = s.fab := rfl
@[simp] theorem State.dropJob_zg (s : State) (j : Job) : (s.dropJob j).zg = s.zg := rfl
@[simp] theorem State.dropJob_agate (s : State) (j : Job) : (s.dropJob j).agate = s.agate := rfl
@[simp] theorem State.dropJob_beryl (s : State) (j : Job) : (s.dropJob j).beryl = s.beryl := rfl
@[simp] theorem State.dropJob_ras (s : State) (j : Job) : (s.dropJob j).ras = s.ras := rfl
@[simp] theorem State.dropJob_moduleFloor (s : State) (j : Job) : (s.dropJob j).moduleFloor = s.moduleFloor := rfl
@[simp] theorem State.dropJob_out (s : State) (j : Job) : (s.dropJob j).out = s.out := rfl

/-! ### `State.putFut` -/

@[simp] theorem State.putFut_quartz (s : State) (x : Future) : (s.putFut x).quartz = s.quartz := rfl
@[simp] theorem State.putFut_free (s : State) (x : Future) : (s.putFut x).free = s.free := rfl
@[simp] theorem State.putFut_agenda (s : State) (x : Future) : (s.putFut x).agenda = s.agenda := rfl
@[simp] theorem State.putFut_turn (s : State) (x : Future) : (s.putFut x).turn = s.turn := rfl
@[simp] theorem State.putFut_cur (s : State) (x : Future) : (s.putFut x).cur = s.cur := rfl
@[simp] theorem State.putFut_hart (s : State) (x : Future) : (s.putFut x).hart = s.hart := rfl
@[simp] theorem State.putFut_core (s : State) (x : Future) : (s.putFut x).core = s.core := rfl
@[simp] theorem State.putFut_cores (s : State) (x : Future) : (s.putFut x).cores = s.cores := rfl
@[simp] theorem State.putFut_clusters (s : State) (x : Future) : (s.putFut x).clusters = s.clusters := rfl
@[simp] theorem State.putFut_jobs (s : State) (x : Future) : (s.putFut x).jobs = s.jobs := rfl
@[simp] theorem State.putFut_jobSeq (s : State) (x : Future) : (s.putFut x).jobSeq = s.jobSeq := rfl
@[simp] theorem State.putFut_jobDone (s : State) (x : Future) : (s.putFut x).jobDone = s.jobDone := rfl
@[simp] theorem State.putFut_mem (s : State) (x : Future) : (s.putFut x).mem = s.mem := rfl
@[simp] theorem State.putFut_store (s : State) (x : Future) : (s.putFut x).store = s.store := rfl
@[simp] theorem State.putFut_dev (s : State) (x : Future) : (s.putFut x).dev = s.dev := rfl
@[simp] theorem State.putFut_lm (s : State) (x : Future) : (s.putFut x).lm = s.lm := rfl
@[simp] theorem State.putFut_coh (s : State) (x : Future) : (s.putFut x).coh = s.coh := rfl
@[simp] theorem State.putFut_futSeq (s : State) (x : Future) : (s.putFut x).futSeq = s.futSeq := rfl
@[simp] theorem State.putFut_futGen (s : State) (x : Future) : (s.putFut x).futGen = s.futGen := rfl
@[simp] theorem State.putFut_pqSeq (s : State) (x : Future) : (s.putFut x).pqSeq = s.pqSeq := rfl
@[simp] theorem State.putFut_harts (s : State) (x : Future) : (s.putFut x).harts = s.harts := rfl
@[simp] theorem State.putFut_fab (s : State) (x : Future) : (s.putFut x).fab = s.fab := rfl
@[simp] theorem State.putFut_zg (s : State) (x : Future) : (s.putFut x).zg = s.zg := rfl
@[simp] theorem State.putFut_agate (s : State) (x : Future) : (s.putFut x).agate = s.agate := rfl
@[simp] theorem State.putFut_beryl (s : State) (x : Future) : (s.putFut x).beryl = s.beryl := rfl
@[simp] theorem State.putFut_ras (s : State) (x : Future) : (s.putFut x).ras = s.ras := rfl
@[simp] theorem State.putFut_moduleFloor (s : State) (x : Future) : (s.putFut x).moduleFloor = s.moduleFloor := rfl
@[simp] theorem State.putFut_out (s : State) (x : Future) : (s.putFut x).out = s.out := rfl

/-! ### `State.freeFut` -/

@[simp] theorem State.freeFut_quartz (s : State) (n : Nat) : (s.freeFut n).quartz = s.quartz := rfl
@[simp] theorem State.freeFut_free (s : State) (n : Nat) : (s.freeFut n).free = s.free := rfl
@[simp] theorem State.freeFut_agenda (s : State) (n : Nat) : (s.freeFut n).agenda = s.agenda := rfl
@[simp] theorem State.freeFut_turn (s : State) (n : Nat) : (s.freeFut n).turn = s.turn := rfl
@[simp] theorem State.freeFut_cur (s : State) (n : Nat) : (s.freeFut n).cur = s.cur := rfl
@[simp] theorem State.freeFut_hart (s : State) (n : Nat) : (s.freeFut n).hart = s.hart := rfl
@[simp] theorem State.freeFut_core (s : State) (n : Nat) : (s.freeFut n).core = s.core := rfl
@[simp] theorem State.freeFut_cores (s : State) (n : Nat) : (s.freeFut n).cores = s.cores := rfl
@[simp] theorem State.freeFut_clusters (s : State) (n : Nat) : (s.freeFut n).clusters = s.clusters := rfl
@[simp] theorem State.freeFut_jobs (s : State) (n : Nat) : (s.freeFut n).jobs = s.jobs := rfl
@[simp] theorem State.freeFut_jobSeq (s : State) (n : Nat) : (s.freeFut n).jobSeq = s.jobSeq := rfl
@[simp] theorem State.freeFut_jobDone (s : State) (n : Nat) : (s.freeFut n).jobDone = s.jobDone := rfl
@[simp] theorem State.freeFut_mem (s : State) (n : Nat) : (s.freeFut n).mem = s.mem := rfl
@[simp] theorem State.freeFut_store (s : State) (n : Nat) : (s.freeFut n).store = s.store := rfl
@[simp] theorem State.freeFut_dev (s : State) (n : Nat) : (s.freeFut n).dev = s.dev := rfl
@[simp] theorem State.freeFut_lm (s : State) (n : Nat) : (s.freeFut n).lm = s.lm := rfl
@[simp] theorem State.freeFut_coh (s : State) (n : Nat) : (s.freeFut n).coh = s.coh := rfl
@[simp] theorem State.freeFut_futSeq (s : State) (n : Nat) : (s.freeFut n).futSeq = s.futSeq := rfl
@[simp] theorem State.freeFut_futGen (s : State) (n : Nat) : (s.freeFut n).futGen = s.futGen := rfl
@[simp] theorem State.freeFut_pqSeq (s : State) (n : Nat) : (s.freeFut n).pqSeq = s.pqSeq := rfl
@[simp] theorem State.freeFut_harts (s : State) (n : Nat) : (s.freeFut n).harts = s.harts := rfl
@[simp] theorem State.freeFut_fab (s : State) (n : Nat) : (s.freeFut n).fab = s.fab := rfl
@[simp] theorem State.freeFut_zg (s : State) (n : Nat) : (s.freeFut n).zg = s.zg := rfl
@[simp] theorem State.freeFut_agate (s : State) (n : Nat) : (s.freeFut n).agate = s.agate := rfl
@[simp] theorem State.freeFut_beryl (s : State) (n : Nat) : (s.freeFut n).beryl = s.beryl := rfl
@[simp] theorem State.freeFut_ras (s : State) (n : Nat) : (s.freeFut n).ras = s.ras := rfl
@[simp] theorem State.freeFut_moduleFloor (s : State) (n : Nat) : (s.freeFut n).moduleFloor = s.moduleFloor := rfl
@[simp] theorem State.freeFut_out (s : State) (n : Nat) : (s.freeFut n).out = s.out := rfl

/-! ### `State.putHart` -/

@[simp] theorem State.putHart_quartz (s : State) (h : Nat) (x : Hart) : (s.putHart h x).quartz = s.quartz := rfl
@[simp] theorem State.putHart_free (s : State) (h : Nat) (x : Hart) : (s.putHart h x).free = s.free := rfl
@[simp] theorem State.putHart_agenda (s : State) (h : Nat) (x : Hart) : (s.putHart h x).agenda = s.agenda := rfl
@[simp] theorem State.putHart_turn (s : State) (h : Nat) (x : Hart) : (s.putHart h x).turn = s.turn := rfl
@[simp] theorem State.putHart_cur (s : State) (h : Nat) (x : Hart) : (s.putHart h x).cur = s.cur := rfl
@[simp] theorem State.putHart_hart (s : State) (h : Nat) (x : Hart) : (s.putHart h x).hart = s.hart := rfl
@[simp] theorem State.putHart_core (s : State) (h : Nat) (x : Hart) : (s.putHart h x).core = s.core := rfl
@[simp] theorem State.putHart_cores (s : State) (h : Nat) (x : Hart) : (s.putHart h x).cores = s.cores := rfl
@[simp] theorem State.putHart_clusters (s : State) (h : Nat) (x : Hart) : (s.putHart h x).clusters = s.clusters := rfl
@[simp] theorem State.putHart_jobs (s : State) (h : Nat) (x : Hart) : (s.putHart h x).jobs = s.jobs := rfl
@[simp] theorem State.putHart_jobSeq (s : State) (h : Nat) (x : Hart) : (s.putHart h x).jobSeq = s.jobSeq := rfl
@[simp] theorem State.putHart_jobDone (s : State) (h : Nat) (x : Hart) : (s.putHart h x).jobDone = s.jobDone := rfl
@[simp] theorem State.putHart_mem (s : State) (h : Nat) (x : Hart) : (s.putHart h x).mem = s.mem := rfl
@[simp] theorem State.putHart_store (s : State) (h : Nat) (x : Hart) : (s.putHart h x).store = s.store := rfl
@[simp] theorem State.putHart_dev (s : State) (h : Nat) (x : Hart) : (s.putHart h x).dev = s.dev := rfl
@[simp] theorem State.putHart_lm (s : State) (h : Nat) (x : Hart) : (s.putHart h x).lm = s.lm := rfl
@[simp] theorem State.putHart_coh (s : State) (h : Nat) (x : Hart) : (s.putHart h x).coh = s.coh := rfl
@[simp] theorem State.putHart_futures (s : State) (h : Nat) (x : Hart) : (s.putHart h x).futures = s.futures := rfl
@[simp] theorem State.putHart_futSeq (s : State) (h : Nat) (x : Hart) : (s.putHart h x).futSeq = s.futSeq := rfl
@[simp] theorem State.putHart_futGen (s : State) (h : Nat) (x : Hart) : (s.putHart h x).futGen = s.futGen := rfl
@[simp] theorem State.putHart_pqSeq (s : State) (h : Nat) (x : Hart) : (s.putHart h x).pqSeq = s.pqSeq := rfl
@[simp] theorem State.putHart_harts (s : State) (h : Nat) (x : Hart) : (s.putHart h x).harts = aput Hart.reset h x s.harts := rfl
@[simp] theorem State.putHart_fab (s : State) (h : Nat) (x : Hart) : (s.putHart h x).fab = s.fab := rfl
@[simp] theorem State.putHart_zg (s : State) (h : Nat) (x : Hart) : (s.putHart h x).zg = s.zg := rfl
@[simp] theorem State.putHart_agate (s : State) (h : Nat) (x : Hart) : (s.putHart h x).agate = s.agate := rfl
@[simp] theorem State.putHart_beryl (s : State) (h : Nat) (x : Hart) : (s.putHart h x).beryl = s.beryl := rfl
@[simp] theorem State.putHart_ras (s : State) (h : Nat) (x : Hart) : (s.putHart h x).ras = s.ras := rfl
@[simp] theorem State.putHart_moduleFloor (s : State) (h : Nat) (x : Hart) : (s.putHart h x).moduleFloor = s.moduleFloor := rfl
@[simp] theorem State.putHart_out (s : State) (h : Nat) (x : Hart) : (s.putHart h x).out = s.out := rfl

/-! ### `State.setBeryl` -/

@[simp] theorem State.setBeryl_quartz (s : State) (b : Beryl) : (s.setBeryl b).quartz = s.quartz := rfl
@[simp] theorem State.setBeryl_free (s : State) (b : Beryl) : (s.setBeryl b).free = s.free := rfl
@[simp] theorem State.setBeryl_agenda (s : State) (b : Beryl) : (s.setBeryl b).agenda = s.agenda := rfl
@[simp] theorem State.setBeryl_turn (s : State) (b : Beryl) : (s.setBeryl b).turn = s.turn := rfl
@[simp] theorem State.setBeryl_cur (s : State) (b : Beryl) : (s.setBeryl b).cur = s.cur := rfl
@[simp] theorem State.setBeryl_hart (s : State) (b : Beryl) : (s.setBeryl b).hart = s.hart := rfl
@[simp] theorem State.setBeryl_core (s : State) (b : Beryl) : (s.setBeryl b).core = s.core := rfl
@[simp] theorem State.setBeryl_cores (s : State) (b : Beryl) : (s.setBeryl b).cores = s.cores := rfl
@[simp] theorem State.setBeryl_clusters (s : State) (b : Beryl) : (s.setBeryl b).clusters = s.clusters := rfl
@[simp] theorem State.setBeryl_jobs (s : State) (b : Beryl) : (s.setBeryl b).jobs = s.jobs := rfl
@[simp] theorem State.setBeryl_jobSeq (s : State) (b : Beryl) : (s.setBeryl b).jobSeq = s.jobSeq := rfl
@[simp] theorem State.setBeryl_jobDone (s : State) (b : Beryl) : (s.setBeryl b).jobDone = s.jobDone := rfl
@[simp] theorem State.setBeryl_mem (s : State) (b : Beryl) : (s.setBeryl b).mem = s.mem := rfl
@[simp] theorem State.setBeryl_store (s : State) (b : Beryl) : (s.setBeryl b).store = s.store := rfl
@[simp] theorem State.setBeryl_dev (s : State) (b : Beryl) : (s.setBeryl b).dev = s.dev := rfl
@[simp] theorem State.setBeryl_lm (s : State) (b : Beryl) : (s.setBeryl b).lm = s.lm := rfl
@[simp] theorem State.setBeryl_coh (s : State) (b : Beryl) : (s.setBeryl b).coh = s.coh := rfl
@[simp] theorem State.setBeryl_futures (s : State) (b : Beryl) : (s.setBeryl b).futures = s.futures := rfl
@[simp] theorem State.setBeryl_futSeq (s : State) (b : Beryl) : (s.setBeryl b).futSeq = s.futSeq := rfl
@[simp] theorem State.setBeryl_futGen (s : State) (b : Beryl) : (s.setBeryl b).futGen = s.futGen := rfl
@[simp] theorem State.setBeryl_pqSeq (s : State) (b : Beryl) : (s.setBeryl b).pqSeq = s.pqSeq := rfl
@[simp] theorem State.setBeryl_harts (s : State) (b : Beryl) : (s.setBeryl b).harts = s.harts := rfl
@[simp] theorem State.setBeryl_fab (s : State) (b : Beryl) : (s.setBeryl b).fab = s.fab := rfl
@[simp] theorem State.setBeryl_zg (s : State) (b : Beryl) : (s.setBeryl b).zg = s.zg := rfl
@[simp] theorem State.setBeryl_agate (s : State) (b : Beryl) : (s.setBeryl b).agate = s.agate := rfl
@[simp] theorem State.setBeryl_ras (s : State) (b : Beryl) : (s.setBeryl b).ras = s.ras := rfl
@[simp] theorem State.setBeryl_moduleFloor (s : State) (b : Beryl) : (s.setBeryl b).moduleFloor = s.moduleFloor := rfl
@[simp] theorem State.setBeryl_out (s : State) (b : Beryl) : (s.setBeryl b).out = s.out := rfl

/-! ### `State.mapTasks` -/

@[simp] theorem State.mapTasks_quartz (s : State) (f : Task → Task) : (s.mapTasks f).quartz = s.quartz := rfl
@[simp] theorem State.mapTasks_free (s : State) (f : Task → Task) : (s.mapTasks f).free = s.free := rfl
@[simp] theorem State.mapTasks_agenda (s : State) (f : Task → Task) : (s.mapTasks f).agenda = s.agenda := rfl
@[simp] theorem State.mapTasks_turn (s : State) (f : Task → Task) : (s.mapTasks f).turn = s.turn := rfl
@[simp] theorem State.mapTasks_cur (s : State) (f : Task → Task) : (s.mapTasks f).cur = s.cur := rfl
@[simp] theorem State.mapTasks_hart (s : State) (f : Task → Task) : (s.mapTasks f).hart = s.hart := rfl
@[simp] theorem State.mapTasks_core (s : State) (f : Task → Task) : (s.mapTasks f).core = s.core := rfl
@[simp] theorem State.mapTasks_cores (s : State) (f : Task → Task) : (s.mapTasks f).cores = s.cores := rfl
@[simp] theorem State.mapTasks_clusters (s : State) (f : Task → Task) : (s.mapTasks f).clusters = s.clusters := rfl
@[simp] theorem State.mapTasks_jobs (s : State) (f : Task → Task) : (s.mapTasks f).jobs = s.jobs := rfl
@[simp] theorem State.mapTasks_jobSeq (s : State) (f : Task → Task) : (s.mapTasks f).jobSeq = s.jobSeq := rfl
@[simp] theorem State.mapTasks_jobDone (s : State) (f : Task → Task) : (s.mapTasks f).jobDone = s.jobDone := rfl
@[simp] theorem State.mapTasks_mem (s : State) (f : Task → Task) : (s.mapTasks f).mem = s.mem := rfl
@[simp] theorem State.mapTasks_store (s : State) (f : Task → Task) : (s.mapTasks f).store = s.store := rfl
@[simp] theorem State.mapTasks_dev (s : State) (f : Task → Task) : (s.mapTasks f).dev = s.dev := rfl
@[simp] theorem State.mapTasks_coh (s : State) (f : Task → Task) : (s.mapTasks f).coh = s.coh := rfl
@[simp] theorem State.mapTasks_futures (s : State) (f : Task → Task) : (s.mapTasks f).futures = s.futures := rfl
@[simp] theorem State.mapTasks_futSeq (s : State) (f : Task → Task) : (s.mapTasks f).futSeq = s.futSeq := rfl
@[simp] theorem State.mapTasks_futGen (s : State) (f : Task → Task) : (s.mapTasks f).futGen = s.futGen := rfl
@[simp] theorem State.mapTasks_pqSeq (s : State) (f : Task → Task) : (s.mapTasks f).pqSeq = s.pqSeq := rfl
@[simp] theorem State.mapTasks_harts (s : State) (f : Task → Task) : (s.mapTasks f).harts = s.harts := rfl
@[simp] theorem State.mapTasks_fab (s : State) (f : Task → Task) : (s.mapTasks f).fab = s.fab := rfl
@[simp] theorem State.mapTasks_zg (s : State) (f : Task → Task) : (s.mapTasks f).zg = s.zg := rfl
@[simp] theorem State.mapTasks_agate (s : State) (f : Task → Task) : (s.mapTasks f).agate = s.agate := rfl
@[simp] theorem State.mapTasks_beryl (s : State) (f : Task → Task) : (s.mapTasks f).beryl = s.beryl := rfl
@[simp] theorem State.mapTasks_ras (s : State) (f : Task → Task) : (s.mapTasks f).ras = s.ras := rfl
@[simp] theorem State.mapTasks_moduleFloor (s : State) (f : Task → Task) : (s.mapTasks f).moduleFloor = s.moduleFloor := rfl
@[simp] theorem State.mapTasks_out (s : State) (f : Task → Task) : (s.mapTasks f).out = s.out := rfl

/-! ### `Core.setToken` -/

@[simp] theorem Core.setToken_idx (c : Core) (p n : Nat) : (c.setToken p n).idx = c.idx := rfl
@[simp] theorem Core.setToken_task (c : Core) (p n : Nat) : (c.setToken p n).task = c.task := rfl
@[simp] theorem Core.setToken_view (c : Core) (p n : Nat) : (c.setToken p n).view = c.view := rfl
@[simp] theorem Core.setToken_split (c : Core) (p n : Nat) : (c.setToken p n).split = c.split := rfl
@[simp] theorem Core.setToken_l (c : Core) (p n : Nat) : (c.setToken p n).l = c.l := rfl
@[simp] theorem Core.setToken_x (c : Core) (p n : Nat) : (c.setToken p n).x = c.x := rfl
@[simp] theorem Core.setToken_s (c : Core) (p n : Nat) : (c.setToken p n).s = c.s := rfl
@[simp] theorem Core.setToken_k (c : Core) (p n : Nat) : (c.setToken p n).k = c.k := rfl
@[simp] theorem Core.setToken_bdone (c : Core) (p n : Nat) : (c.setToken p n).bdone = c.bdone := rfl
@[simp] theorem Core.setToken_fifo (c : Core) (p n : Nat) : (c.setToken p n).fifo = c.fifo := rfl
@[simp] theorem Core.setToken_xIssue (c : Core) (p n : Nat) : (c.setToken p n).xIssue = c.xIssue := rfl
@[simp] theorem Core.setToken_flight (c : Core) (p n : Nat) : (c.setToken p n).flight = c.flight := rfl
@[simp] theorem Core.setToken_tokens (c : Core) (p n : Nat) : (c.setToken p n).tokens = c.tokens.set p n := rfl
@[simp] theorem Core.setToken_resv (c : Core) (p n : Nat) : (c.setToken p n).resv = c.resv := rfl
@[simp] theorem Core.setToken_cc (c : Core) (p n : Nat) : (c.setToken p n).cc = c.cc := rfl
@[simp] theorem Core.setToken_bars (c : Core) (p n : Nat) : (c.setToken p n).bars = c.bars := rfl
@[simp] theorem Core.setToken_slots (c : Core) (p n : Nat) : (c.setToken p n).slots = c.slots := rfl
@[simp] theorem Core.setToken_scLast (c : Core) (p n : Nat) : (c.setToken p n).scLast = c.scLast := rfl
@[simp] theorem Core.setToken_specst (c : Core) (p n : Nat) : (c.setToken p n).specst = c.specst := rfl
@[simp] theorem Core.setToken_hold (c : Core) (p n : Nat) : (c.setToken p n).hold = c.hold := rfl
@[simp] theorem Core.setToken_bsts (c : Core) (p n : Nat) : (c.setToken p n).bsts = c.bsts := rfl
@[simp] theorem Core.setToken_xfctl (c : Core) (p n : Nat) : (c.setToken p n).xfctl = c.xfctl := rfl
@[simp] theorem Core.setToken_dmem (c : Core) (p n : Nat) : (c.setToken p n).dmem = c.dmem := rfl
@[simp] theorem Core.setToken_dphase (c : Core) (p n : Nat) : (c.setToken p n).dphase = c.dphase := rfl
@[simp] theorem Core.setToken_vshare (c : Core) (p n : Nat) : (c.setToken p n).vshare = c.vshare := rfl
@[simp] theorem Core.setToken_slpcfg (c : Core) (p n : Nat) : (c.setToken p n).slpcfg = c.slpcfg := rfl
@[simp] theorem Core.setToken_pgreply (c : Core) (p n : Nat) : (c.setToken p n).pgreply = c.pgreply := rfl
@[simp] theorem Core.setToken_tl (c : Core) (p n : Nat) : (c.setToken p n).tl = c.tl := rfl
@[simp] theorem Core.setToken_tvec (c : Core) (p n : Nat) : (c.setToken p n).tvec = c.tvec := rfl
@[simp] theorem Core.setToken_trapen (c : Core) (p n : Nat) : (c.setToken p n).trapen = c.trapen := rfl
@[simp] theorem Core.setToken_bank1 (c : Core) (p n : Nat) : (c.setToken p n).bank1 = c.bank1 := rfl
@[simp] theorem Core.setToken_bank2 (c : Core) (p n : Nat) : (c.setToken p n).bank2 = c.bank2 := rfl
@[simp] theorem Core.setToken_lttBase (c : Core) (p n : Nat) : (c.setToken p n).lttBase = c.lttBase := rfl
@[simp] theorem Core.setToken_lttCount (c : Core) (p n : Nat) : (c.setToken p n).lttCount = c.lttCount := rfl
@[simp] theorem Core.setToken_lttCrc (c : Core) (p n : Nat) : (c.setToken p n).lttCrc = c.lttCrc := rfl
@[simp] theorem Core.setToken_openJob (c : Core) (p n : Nat) : (c.setToken p n).openJob = c.openJob := rfl
@[simp] theorem Core.setToken_ops (c : Core) (p n : Nat) : (c.setToken p n).ops = c.ops := rfl
@[simp] theorem Core.setToken_nextUid (c : Core) (p n : Nat) : (c.setToken p n).nextUid = c.nextUid := rfl
@[simp] theorem Core.setToken_pagerSeq (c : Core) (p n : Nat) : (c.setToken p n).pagerSeq = c.pagerSeq := rfl
@[simp] theorem Core.setToken_pagerOut (c : Core) (p n : Nat) : (c.setToken p n).pagerOut = c.pagerOut := rfl
@[simp] theorem Core.setToken_pagerHeld (c : Core) (p n : Nat) : (c.setToken p n).pagerHeld = c.pagerHeld := rfl
@[simp] theorem Core.setToken_budget (c : Core) (p n : Nat) : (c.setToken p n).budget = c.budget := rfl
@[simp] theorem Core.setToken_preempt (c : Core) (p n : Nat) : (c.setToken p n).preempt = c.preempt := rfl
@[simp] theorem Core.setToken_saving (c : Core) (p n : Nat) : (c.setToken p n).saving = c.saving := rfl
@[simp] theorem Core.setToken_halted (c : Core) (p n : Nat) : (c.setToken p n).halted = c.halted := rfl
@[simp] theorem Core.setToken_watchSkip (c : Core) (p n : Nat) : (c.setToken p n).watchSkip = c.watchSkip := rfl
@[simp] theorem Core.setToken_asleep (c : Core) (p n : Nat) : (c.setToken p n).asleep = c.asleep := rfl
@[simp] theorem Core.setToken_waited (c : Core) (p n : Nat) : (c.setToken p n).waited = c.waited := rfl

/-! ### `Core.setResv` -/

@[simp] theorem Core.setResv_idx (c : Core) (p n : Nat) : (c.setResv p n).idx = c.idx := rfl
@[simp] theorem Core.setResv_task (c : Core) (p n : Nat) : (c.setResv p n).task = c.task := rfl
@[simp] theorem Core.setResv_view (c : Core) (p n : Nat) : (c.setResv p n).view = c.view := rfl
@[simp] theorem Core.setResv_split (c : Core) (p n : Nat) : (c.setResv p n).split = c.split := rfl
@[simp] theorem Core.setResv_l (c : Core) (p n : Nat) : (c.setResv p n).l = c.l := rfl
@[simp] theorem Core.setResv_x (c : Core) (p n : Nat) : (c.setResv p n).x = c.x := rfl
@[simp] theorem Core.setResv_s (c : Core) (p n : Nat) : (c.setResv p n).s = c.s := rfl
@[simp] theorem Core.setResv_k (c : Core) (p n : Nat) : (c.setResv p n).k = c.k := rfl
@[simp] theorem Core.setResv_bdone (c : Core) (p n : Nat) : (c.setResv p n).bdone = c.bdone := rfl
@[simp] theorem Core.setResv_fifo (c : Core) (p n : Nat) : (c.setResv p n).fifo = c.fifo := rfl
@[simp] theorem Core.setResv_xIssue (c : Core) (p n : Nat) : (c.setResv p n).xIssue = c.xIssue := rfl
@[simp] theorem Core.setResv_flight (c : Core) (p n : Nat) : (c.setResv p n).flight = c.flight := rfl
@[simp] theorem Core.setResv_tokens (c : Core) (p n : Nat) : (c.setResv p n).tokens = c.tokens := rfl
@[simp] theorem Core.setResv_resv (c : Core) (p n : Nat) : (c.setResv p n).resv = c.resv.set p n := rfl
@[simp] theorem Core.setResv_cc (c : Core) (p n : Nat) : (c.setResv p n).cc = c.cc := rfl
@[simp] theorem Core.setResv_bars (c : Core) (p n : Nat) : (c.setResv p n).bars = c.bars := rfl
@[simp] theorem Core.setResv_slots (c : Core) (p n : Nat) : (c.setResv p n).slots = c.slots := rfl
@[simp] theorem Core.setResv_scLast (c : Core) (p n : Nat) : (c.setResv p n).scLast = c.scLast := rfl
@[simp] theorem Core.setResv_specst (c : Core) (p n : Nat) : (c.setResv p n).specst = c.specst := rfl
@[simp] theorem Core.setResv_hold (c : Core) (p n : Nat) : (c.setResv p n).hold = c.hold := rfl
@[simp] theorem Core.setResv_bsts (c : Core) (p n : Nat) : (c.setResv p n).bsts = c.bsts := rfl
@[simp] theorem Core.setResv_xfctl (c : Core) (p n : Nat) : (c.setResv p n).xfctl = c.xfctl := rfl
@[simp] theorem Core.setResv_dmem (c : Core) (p n : Nat) : (c.setResv p n).dmem = c.dmem := rfl
@[simp] theorem Core.setResv_dphase (c : Core) (p n : Nat) : (c.setResv p n).dphase = c.dphase := rfl
@[simp] theorem Core.setResv_vshare (c : Core) (p n : Nat) : (c.setResv p n).vshare = c.vshare := rfl
@[simp] theorem Core.setResv_slpcfg (c : Core) (p n : Nat) : (c.setResv p n).slpcfg = c.slpcfg := rfl
@[simp] theorem Core.setResv_pgreply (c : Core) (p n : Nat) : (c.setResv p n).pgreply = c.pgreply := rfl
@[simp] theorem Core.setResv_tl (c : Core) (p n : Nat) : (c.setResv p n).tl = c.tl := rfl
@[simp] theorem Core.setResv_tvec (c : Core) (p n : Nat) : (c.setResv p n).tvec = c.tvec := rfl
@[simp] theorem Core.setResv_trapen (c : Core) (p n : Nat) : (c.setResv p n).trapen = c.trapen := rfl
@[simp] theorem Core.setResv_bank1 (c : Core) (p n : Nat) : (c.setResv p n).bank1 = c.bank1 := rfl
@[simp] theorem Core.setResv_bank2 (c : Core) (p n : Nat) : (c.setResv p n).bank2 = c.bank2 := rfl
@[simp] theorem Core.setResv_lttBase (c : Core) (p n : Nat) : (c.setResv p n).lttBase = c.lttBase := rfl
@[simp] theorem Core.setResv_lttCount (c : Core) (p n : Nat) : (c.setResv p n).lttCount = c.lttCount := rfl
@[simp] theorem Core.setResv_lttCrc (c : Core) (p n : Nat) : (c.setResv p n).lttCrc = c.lttCrc := rfl
@[simp] theorem Core.setResv_openJob (c : Core) (p n : Nat) : (c.setResv p n).openJob = c.openJob := rfl
@[simp] theorem Core.setResv_ops (c : Core) (p n : Nat) : (c.setResv p n).ops = c.ops := rfl
@[simp] theorem Core.setResv_nextUid (c : Core) (p n : Nat) : (c.setResv p n).nextUid = c.nextUid := rfl
@[simp] theorem Core.setResv_pagerSeq (c : Core) (p n : Nat) : (c.setResv p n).pagerSeq = c.pagerSeq := rfl
@[simp] theorem Core.setResv_pagerOut (c : Core) (p n : Nat) : (c.setResv p n).pagerOut = c.pagerOut := rfl
@[simp] theorem Core.setResv_pagerHeld (c : Core) (p n : Nat) : (c.setResv p n).pagerHeld = c.pagerHeld := rfl
@[simp] theorem Core.setResv_budget (c : Core) (p n : Nat) : (c.setResv p n).budget = c.budget := rfl
@[simp] theorem Core.setResv_preempt (c : Core) (p n : Nat) : (c.setResv p n).preempt = c.preempt := rfl
@[simp] theorem Core.setResv_saving (c : Core) (p n : Nat) : (c.setResv p n).saving = c.saving := rfl
@[simp] theorem Core.setResv_halted (c : Core) (p n : Nat) : (c.setResv p n).halted = c.halted := rfl
@[simp] theorem Core.setResv_watchSkip (c : Core) (p n : Nat) : (c.setResv p n).watchSkip = c.watchSkip := rfl
@[simp] theorem Core.setResv_asleep (c : Core) (p n : Nat) : (c.setResv p n).asleep = c.asleep := rfl
@[simp] theorem Core.setResv_waited (c : Core) (p n : Nat) : (c.setResv p n).waited = c.waited := rfl

/-! ### `Core.setQueue` -/

@[simp] theorem Core.setQueue_idx (c : Core) (q : Nat) (l : List FEntry) : (c.setQueue q l).idx = c.idx := rfl
@[simp] theorem Core.setQueue_task (c : Core) (q : Nat) (l : List FEntry) : (c.setQueue q l).task = c.task := rfl
@[simp] theorem Core.setQueue_view (c : Core) (q : Nat) (l : List FEntry) : (c.setQueue q l).view = c.view := rfl
@[simp] theorem Core.setQueue_split (c : Core) (q : Nat) (l : List FEntry) : (c.setQueue q l).split = c.split := rfl
@[simp] theorem Core.setQueue_l (c : Core) (q : Nat) (l : List FEntry) : (c.setQueue q l).l = c.l := rfl
@[simp] theorem Core.setQueue_x (c : Core) (q : Nat) (l : List FEntry) : (c.setQueue q l).x = c.x := rfl
@[simp] theorem Core.setQueue_s (c : Core) (q : Nat) (l : List FEntry) : (c.setQueue q l).s = c.s := rfl
@[simp] theorem Core.setQueue_k (c : Core) (q : Nat) (l : List FEntry) : (c.setQueue q l).k = c.k := rfl
@[simp] theorem Core.setQueue_bdone (c : Core) (q : Nat) (l : List FEntry) : (c.setQueue q l).bdone = c.bdone := rfl
@[simp] theorem Core.setQueue_fifo (c : Core) (q : Nat) (l : List FEntry) : (c.setQueue q l).fifo = c.fifo.set q l := rfl
@[simp] theorem Core.setQueue_xIssue (c : Core) (q : Nat) (l : List FEntry) : (c.setQueue q l).xIssue = c.xIssue := rfl
@[simp] theorem Core.setQueue_flight (c : Core) (q : Nat) (l : List FEntry) : (c.setQueue q l).flight = c.flight := rfl
@[simp] theorem Core.setQueue_tokens (c : Core) (q : Nat) (l : List FEntry) : (c.setQueue q l).tokens = c.tokens := rfl
@[simp] theorem Core.setQueue_resv (c : Core) (q : Nat) (l : List FEntry) : (c.setQueue q l).resv = c.resv := rfl
@[simp] theorem Core.setQueue_cc (c : Core) (q : Nat) (l : List FEntry) : (c.setQueue q l).cc = c.cc := rfl
@[simp] theorem Core.setQueue_bars (c : Core) (q : Nat) (l : List FEntry) : (c.setQueue q l).bars = c.bars := rfl
@[simp] theorem Core.setQueue_slots (c : Core) (q : Nat) (l : List FEntry) : (c.setQueue q l).slots = c.slots := rfl
@[simp] theorem Core.setQueue_scLast (c : Core) (q : Nat) (l : List FEntry) : (c.setQueue q l).scLast = c.scLast := rfl
@[simp] theorem Core.setQueue_specst (c : Core) (q : Nat) (l : List FEntry) : (c.setQueue q l).specst = c.specst := rfl
@[simp] theorem Core.setQueue_hold (c : Core) (q : Nat) (l : List FEntry) : (c.setQueue q l).hold = c.hold := rfl
@[simp] theorem Core.setQueue_bsts (c : Core) (q : Nat) (l : List FEntry) : (c.setQueue q l).bsts = c.bsts := rfl
@[simp] theorem Core.setQueue_xfctl (c : Core) (q : Nat) (l : List FEntry) : (c.setQueue q l).xfctl = c.xfctl := rfl
@[simp] theorem Core.setQueue_dmem (c : Core) (q : Nat) (l : List FEntry) : (c.setQueue q l).dmem = c.dmem := rfl
@[simp] theorem Core.setQueue_dphase (c : Core) (q : Nat) (l : List FEntry) : (c.setQueue q l).dphase = c.dphase := rfl
@[simp] theorem Core.setQueue_vshare (c : Core) (q : Nat) (l : List FEntry) : (c.setQueue q l).vshare = c.vshare := rfl
@[simp] theorem Core.setQueue_slpcfg (c : Core) (q : Nat) (l : List FEntry) : (c.setQueue q l).slpcfg = c.slpcfg := rfl
@[simp] theorem Core.setQueue_pgreply (c : Core) (q : Nat) (l : List FEntry) : (c.setQueue q l).pgreply = c.pgreply := rfl
@[simp] theorem Core.setQueue_tl (c : Core) (q : Nat) (l : List FEntry) : (c.setQueue q l).tl = c.tl := rfl
@[simp] theorem Core.setQueue_tvec (c : Core) (q : Nat) (l : List FEntry) : (c.setQueue q l).tvec = c.tvec := rfl
@[simp] theorem Core.setQueue_trapen (c : Core) (q : Nat) (l : List FEntry) : (c.setQueue q l).trapen = c.trapen := rfl
@[simp] theorem Core.setQueue_bank1 (c : Core) (q : Nat) (l : List FEntry) : (c.setQueue q l).bank1 = c.bank1 := rfl
@[simp] theorem Core.setQueue_bank2 (c : Core) (q : Nat) (l : List FEntry) : (c.setQueue q l).bank2 = c.bank2 := rfl
@[simp] theorem Core.setQueue_lttBase (c : Core) (q : Nat) (l : List FEntry) : (c.setQueue q l).lttBase = c.lttBase := rfl
@[simp] theorem Core.setQueue_lttCount (c : Core) (q : Nat) (l : List FEntry) : (c.setQueue q l).lttCount = c.lttCount := rfl
@[simp] theorem Core.setQueue_lttCrc (c : Core) (q : Nat) (l : List FEntry) : (c.setQueue q l).lttCrc = c.lttCrc := rfl
@[simp] theorem Core.setQueue_openJob (c : Core) (q : Nat) (l : List FEntry) : (c.setQueue q l).openJob = c.openJob := rfl
@[simp] theorem Core.setQueue_ops (c : Core) (q : Nat) (l : List FEntry) : (c.setQueue q l).ops = c.ops := rfl
@[simp] theorem Core.setQueue_nextUid (c : Core) (q : Nat) (l : List FEntry) : (c.setQueue q l).nextUid = c.nextUid := rfl
@[simp] theorem Core.setQueue_pagerSeq (c : Core) (q : Nat) (l : List FEntry) : (c.setQueue q l).pagerSeq = c.pagerSeq := rfl
@[simp] theorem Core.setQueue_pagerOut (c : Core) (q : Nat) (l : List FEntry) : (c.setQueue q l).pagerOut = c.pagerOut := rfl
@[simp] theorem Core.setQueue_pagerHeld (c : Core) (q : Nat) (l : List FEntry) : (c.setQueue q l).pagerHeld = c.pagerHeld := rfl
@[simp] theorem Core.setQueue_budget (c : Core) (q : Nat) (l : List FEntry) : (c.setQueue q l).budget = c.budget := rfl
@[simp] theorem Core.setQueue_preempt (c : Core) (q : Nat) (l : List FEntry) : (c.setQueue q l).preempt = c.preempt := rfl
@[simp] theorem Core.setQueue_saving (c : Core) (q : Nat) (l : List FEntry) : (c.setQueue q l).saving = c.saving := rfl
@[simp] theorem Core.setQueue_halted (c : Core) (q : Nat) (l : List FEntry) : (c.setQueue q l).halted = c.halted := rfl
@[simp] theorem Core.setQueue_watchSkip (c : Core) (q : Nat) (l : List FEntry) : (c.setQueue q l).watchSkip = c.watchSkip := rfl
@[simp] theorem Core.setQueue_asleep (c : Core) (q : Nat) (l : List FEntry) : (c.setQueue q l).asleep = c.asleep := rfl
@[simp] theorem Core.setQueue_waited (c : Core) (q : Nat) (l : List FEntry) : (c.setQueue q l).waited = c.waited := rfl

/-! ### `Core.setHold` -/

@[simp] theorem Core.setHold_idx (c : Core) (h : List Held) : (c.setHold h).idx = c.idx := by rw [Core.setHold]
@[simp] theorem Core.setHold_task (c : Core) (h : List Held) : (c.setHold h).task = c.task := by rw [Core.setHold]
@[simp] theorem Core.setHold_view (c : Core) (h : List Held) : (c.setHold h).view = c.view := by rw [Core.setHold]
@[simp] theorem Core.setHold_split (c : Core) (h : List Held) : (c.setHold h).split = c.split := by rw [Core.setHold]
@[simp] theorem Core.setHold_l (c : Core) (h : List Held) : (c.setHold h).l = c.l := by rw [Core.setHold]
@[simp] theorem Core.setHold_x (c : Core) (h : List Held) : (c.setHold h).x = c.x := by rw [Core.setHold]
@[simp] theorem Core.setHold_s (c : Core) (h : List Held) : (c.setHold h).s = c.s := by rw [Core.setHold]
@[simp] theorem Core.setHold_k (c : Core) (h : List Held) : (c.setHold h).k = c.k := by rw [Core.setHold]
@[simp] theorem Core.setHold_bdone (c : Core) (h : List Held) : (c.setHold h).bdone = c.bdone := by rw [Core.setHold]
@[simp] theorem Core.setHold_fifo (c : Core) (h : List Held) : (c.setHold h).fifo = c.fifo := by rw [Core.setHold]
@[simp] theorem Core.setHold_xIssue (c : Core) (h : List Held) : (c.setHold h).xIssue = c.xIssue := by rw [Core.setHold]
@[simp] theorem Core.setHold_flight (c : Core) (h : List Held) : (c.setHold h).flight = c.flight := by rw [Core.setHold]
@[simp] theorem Core.setHold_tokens (c : Core) (h : List Held) : (c.setHold h).tokens = c.tokens := by rw [Core.setHold]
@[simp] theorem Core.setHold_resv (c : Core) (h : List Held) : (c.setHold h).resv = c.resv := by rw [Core.setHold]
@[simp] theorem Core.setHold_cc (c : Core) (h : List Held) : (c.setHold h).cc = c.cc := by rw [Core.setHold]
@[simp] theorem Core.setHold_bars (c : Core) (h : List Held) : (c.setHold h).bars = c.bars := by rw [Core.setHold]
@[simp] theorem Core.setHold_slots (c : Core) (h : List Held) : (c.setHold h).slots = c.slots := by rw [Core.setHold]
@[simp] theorem Core.setHold_scLast (c : Core) (h : List Held) : (c.setHold h).scLast = c.scLast := by rw [Core.setHold]
@[simp] theorem Core.setHold_hold (c : Core) (h : List Held) : (c.setHold h).hold = h := by rw [Core.setHold]
@[simp] theorem Core.setHold_bsts (c : Core) (h : List Held) : (c.setHold h).bsts = c.bsts := by rw [Core.setHold]
@[simp] theorem Core.setHold_xfctl (c : Core) (h : List Held) : (c.setHold h).xfctl = c.xfctl := by rw [Core.setHold]
@[simp] theorem Core.setHold_dmem (c : Core) (h : List Held) : (c.setHold h).dmem = c.dmem := by rw [Core.setHold]
@[simp] theorem Core.setHold_dphase (c : Core) (h : List Held) : (c.setHold h).dphase = c.dphase := by rw [Core.setHold]
@[simp] theorem Core.setHold_vshare (c : Core) (h : List Held) : (c.setHold h).vshare = c.vshare := by rw [Core.setHold]
@[simp] theorem Core.setHold_slpcfg (c : Core) (h : List Held) : (c.setHold h).slpcfg = c.slpcfg := by rw [Core.setHold]
@[simp] theorem Core.setHold_pgreply (c : Core) (h : List Held) : (c.setHold h).pgreply = c.pgreply := by rw [Core.setHold]
@[simp] theorem Core.setHold_tl (c : Core) (h : List Held) : (c.setHold h).tl = c.tl := by rw [Core.setHold]
@[simp] theorem Core.setHold_tvec (c : Core) (h : List Held) : (c.setHold h).tvec = c.tvec := by rw [Core.setHold]
@[simp] theorem Core.setHold_trapen (c : Core) (h : List Held) : (c.setHold h).trapen = c.trapen := by rw [Core.setHold]
@[simp] theorem Core.setHold_bank1 (c : Core) (h : List Held) : (c.setHold h).bank1 = c.bank1 := by rw [Core.setHold]
@[simp] theorem Core.setHold_bank2 (c : Core) (h : List Held) : (c.setHold h).bank2 = c.bank2 := by rw [Core.setHold]
@[simp] theorem Core.setHold_lttBase (c : Core) (h : List Held) : (c.setHold h).lttBase = c.lttBase := by rw [Core.setHold]
@[simp] theorem Core.setHold_lttCount (c : Core) (h : List Held) : (c.setHold h).lttCount = c.lttCount := by rw [Core.setHold]
@[simp] theorem Core.setHold_lttCrc (c : Core) (h : List Held) : (c.setHold h).lttCrc = c.lttCrc := by rw [Core.setHold]
@[simp] theorem Core.setHold_openJob (c : Core) (h : List Held) : (c.setHold h).openJob = c.openJob := by rw [Core.setHold]
@[simp] theorem Core.setHold_ops (c : Core) (h : List Held) : (c.setHold h).ops = c.ops := by rw [Core.setHold]
@[simp] theorem Core.setHold_nextUid (c : Core) (h : List Held) : (c.setHold h).nextUid = c.nextUid := by rw [Core.setHold]
@[simp] theorem Core.setHold_pagerSeq (c : Core) (h : List Held) : (c.setHold h).pagerSeq = c.pagerSeq := by rw [Core.setHold]
@[simp] theorem Core.setHold_pagerOut (c : Core) (h : List Held) : (c.setHold h).pagerOut = c.pagerOut := by rw [Core.setHold]
@[simp] theorem Core.setHold_pagerHeld (c : Core) (h : List Held) : (c.setHold h).pagerHeld = c.pagerHeld := by rw [Core.setHold]
@[simp] theorem Core.setHold_budget (c : Core) (h : List Held) : (c.setHold h).budget = c.budget := by rw [Core.setHold]
@[simp] theorem Core.setHold_preempt (c : Core) (h : List Held) : (c.setHold h).preempt = c.preempt := by rw [Core.setHold]
@[simp] theorem Core.setHold_saving (c : Core) (h : List Held) : (c.setHold h).saving = c.saving := by rw [Core.setHold]
@[simp] theorem Core.setHold_halted (c : Core) (h : List Held) : (c.setHold h).halted = c.halted := by rw [Core.setHold]
@[simp] theorem Core.setHold_watchSkip (c : Core) (h : List Held) : (c.setHold h).watchSkip = c.watchSkip := by rw [Core.setHold]
@[simp] theorem Core.setHold_asleep (c : Core) (h : List Held) : (c.setHold h).asleep = c.asleep := by rw [Core.setHold]
@[simp] theorem Core.setHold_waited (c : Core) (h : List Held) : (c.setHold h).waited = c.waited := by rw [Core.setHold]

/-! ### `Core.setSlot` -/

@[simp] theorem Core.setSlot_idx (c : Core) (i : Nat) (st : SlotState) (w : Word) : (c.setSlot i st w).idx = c.idx := rfl
@[simp] theorem Core.setSlot_task (c : Core) (i : Nat) (st : SlotState) (w : Word) : (c.setSlot i st w).task = c.task := rfl
@[simp] theorem Core.setSlot_view (c : Core) (i : Nat) (st : SlotState) (w : Word) : (c.setSlot i st w).view = c.view := rfl
@[simp] theorem Core.setSlot_split (c : Core) (i : Nat) (st : SlotState) (w : Word) : (c.setSlot i st w).split = c.split := rfl
@[simp] theorem Core.setSlot_l (c : Core) (i : Nat) (st : SlotState) (w : Word) : (c.setSlot i st w).l = c.l := rfl
@[simp] theorem Core.setSlot_x (c : Core) (i : Nat) (st : SlotState) (w : Word) : (c.setSlot i st w).x = c.x := rfl
@[simp] theorem Core.setSlot_s (c : Core) (i : Nat) (st : SlotState) (w : Word) : (c.setSlot i st w).s = c.s := rfl
@[simp] theorem Core.setSlot_k (c : Core) (i : Nat) (st : SlotState) (w : Word) : (c.setSlot i st w).k = c.k := rfl
@[simp] theorem Core.setSlot_bdone (c : Core) (i : Nat) (st : SlotState) (w : Word) : (c.setSlot i st w).bdone = c.bdone := rfl
@[simp] theorem Core.setSlot_fifo (c : Core) (i : Nat) (st : SlotState) (w : Word) : (c.setSlot i st w).fifo = c.fifo := rfl
@[simp] theorem Core.setSlot_xIssue (c : Core) (i : Nat) (st : SlotState) (w : Word) : (c.setSlot i st w).xIssue = c.xIssue := rfl
@[simp] theorem Core.setSlot_flight (c : Core) (i : Nat) (st : SlotState) (w : Word) : (c.setSlot i st w).flight = c.flight := rfl
@[simp] theorem Core.setSlot_tokens (c : Core) (i : Nat) (st : SlotState) (w : Word) : (c.setSlot i st w).tokens = c.tokens := rfl
@[simp] theorem Core.setSlot_resv (c : Core) (i : Nat) (st : SlotState) (w : Word) : (c.setSlot i st w).resv = c.resv := rfl
@[simp] theorem Core.setSlot_cc (c : Core) (i : Nat) (st : SlotState) (w : Word) : (c.setSlot i st w).cc = c.cc := rfl
@[simp] theorem Core.setSlot_bars (c : Core) (i : Nat) (st : SlotState) (w : Word) : (c.setSlot i st w).bars = c.bars := rfl
@[simp] theorem Core.setSlot_scLast (c : Core) (i : Nat) (st : SlotState) (w : Word) : (c.setSlot i st w).scLast = c.scLast := rfl
@[simp] theorem Core.setSlot_specst (c : Core) (i : Nat) (st : SlotState) (w : Word) : (c.setSlot i st w).specst = c.specst := rfl
@[simp] theorem Core.setSlot_hold (c : Core) (i : Nat) (st : SlotState) (w : Word) : (c.setSlot i st w).hold = c.hold := rfl
@[simp] theorem Core.setSlot_bsts (c : Core) (i : Nat) (st : SlotState) (w : Word) : (c.setSlot i st w).bsts = c.bsts := rfl
@[simp] theorem Core.setSlot_xfctl (c : Core) (i : Nat) (st : SlotState) (w : Word) : (c.setSlot i st w).xfctl = c.xfctl := rfl
@[simp] theorem Core.setSlot_dmem (c : Core) (i : Nat) (st : SlotState) (w : Word) : (c.setSlot i st w).dmem = c.dmem := rfl
@[simp] theorem Core.setSlot_dphase (c : Core) (i : Nat) (st : SlotState) (w : Word) : (c.setSlot i st w).dphase = c.dphase := rfl
@[simp] theorem Core.setSlot_vshare (c : Core) (i : Nat) (st : SlotState) (w : Word) : (c.setSlot i st w).vshare = c.vshare := rfl
@[simp] theorem Core.setSlot_slpcfg (c : Core) (i : Nat) (st : SlotState) (w : Word) : (c.setSlot i st w).slpcfg = c.slpcfg := rfl
@[simp] theorem Core.setSlot_pgreply (c : Core) (i : Nat) (st : SlotState) (w : Word) : (c.setSlot i st w).pgreply = c.pgreply := rfl
@[simp] theorem Core.setSlot_tl (c : Core) (i : Nat) (st : SlotState) (w : Word) : (c.setSlot i st w).tl = c.tl := rfl
@[simp] theorem Core.setSlot_tvec (c : Core) (i : Nat) (st : SlotState) (w : Word) : (c.setSlot i st w).tvec = c.tvec := rfl
@[simp] theorem Core.setSlot_trapen (c : Core) (i : Nat) (st : SlotState) (w : Word) : (c.setSlot i st w).trapen = c.trapen := rfl
@[simp] theorem Core.setSlot_bank1 (c : Core) (i : Nat) (st : SlotState) (w : Word) : (c.setSlot i st w).bank1 = c.bank1 := rfl
@[simp] theorem Core.setSlot_bank2 (c : Core) (i : Nat) (st : SlotState) (w : Word) : (c.setSlot i st w).bank2 = c.bank2 := rfl
@[simp] theorem Core.setSlot_lttBase (c : Core) (i : Nat) (st : SlotState) (w : Word) : (c.setSlot i st w).lttBase = c.lttBase := rfl
@[simp] theorem Core.setSlot_lttCount (c : Core) (i : Nat) (st : SlotState) (w : Word) : (c.setSlot i st w).lttCount = c.lttCount := rfl
@[simp] theorem Core.setSlot_lttCrc (c : Core) (i : Nat) (st : SlotState) (w : Word) : (c.setSlot i st w).lttCrc = c.lttCrc := rfl
@[simp] theorem Core.setSlot_openJob (c : Core) (i : Nat) (st : SlotState) (w : Word) : (c.setSlot i st w).openJob = c.openJob := rfl
@[simp] theorem Core.setSlot_ops (c : Core) (i : Nat) (st : SlotState) (w : Word) : (c.setSlot i st w).ops = c.ops := rfl
@[simp] theorem Core.setSlot_nextUid (c : Core) (i : Nat) (st : SlotState) (w : Word) : (c.setSlot i st w).nextUid = c.nextUid := rfl
@[simp] theorem Core.setSlot_pagerSeq (c : Core) (i : Nat) (st : SlotState) (w : Word) : (c.setSlot i st w).pagerSeq = c.pagerSeq := rfl
@[simp] theorem Core.setSlot_pagerOut (c : Core) (i : Nat) (st : SlotState) (w : Word) : (c.setSlot i st w).pagerOut = c.pagerOut := rfl
@[simp] theorem Core.setSlot_pagerHeld (c : Core) (i : Nat) (st : SlotState) (w : Word) : (c.setSlot i st w).pagerHeld = c.pagerHeld := rfl
@[simp] theorem Core.setSlot_budget (c : Core) (i : Nat) (st : SlotState) (w : Word) : (c.setSlot i st w).budget = c.budget := rfl
@[simp] theorem Core.setSlot_preempt (c : Core) (i : Nat) (st : SlotState) (w : Word) : (c.setSlot i st w).preempt = c.preempt := rfl
@[simp] theorem Core.setSlot_saving (c : Core) (i : Nat) (st : SlotState) (w : Word) : (c.setSlot i st w).saving = c.saving := rfl
@[simp] theorem Core.setSlot_halted (c : Core) (i : Nat) (st : SlotState) (w : Word) : (c.setSlot i st w).halted = c.halted := rfl
@[simp] theorem Core.setSlot_watchSkip (c : Core) (i : Nat) (st : SlotState) (w : Word) : (c.setSlot i st w).watchSkip = c.watchSkip := rfl
@[simp] theorem Core.setSlot_asleep (c : Core) (i : Nat) (st : SlotState) (w : Word) : (c.setSlot i st w).asleep = c.asleep := rfl
@[simp] theorem Core.setSlot_waited (c : Core) (i : Nat) (st : SlotState) (w : Word) : (c.setSlot i st w).waited = c.waited := rfl

/-! ### `Core.writeXfctl` -/

@[simp] theorem Core.writeXfctl_idx (c : Core) (v : Word) : (c.writeXfctl v).idx = c.idx := rfl
@[simp] theorem Core.writeXfctl_task (c : Core) (v : Word) : (c.writeXfctl v).task = c.task := rfl
@[simp] theorem Core.writeXfctl_view (c : Core) (v : Word) : (c.writeXfctl v).view = c.view := rfl
@[simp] theorem Core.writeXfctl_split (c : Core) (v : Word) : (c.writeXfctl v).split = c.split := rfl
@[simp] theorem Core.writeXfctl_l (c : Core) (v : Word) : (c.writeXfctl v).l = c.l := rfl
@[simp] theorem Core.writeXfctl_x (c : Core) (v : Word) : (c.writeXfctl v).x = c.x := rfl
@[simp] theorem Core.writeXfctl_s (c : Core) (v : Word) : (c.writeXfctl v).s = c.s := rfl
@[simp] theorem Core.writeXfctl_k (c : Core) (v : Word) : (c.writeXfctl v).k = c.k := rfl
@[simp] theorem Core.writeXfctl_bdone (c : Core) (v : Word) : (c.writeXfctl v).bdone = c.bdone := rfl
@[simp] theorem Core.writeXfctl_fifo (c : Core) (v : Word) : (c.writeXfctl v).fifo = c.fifo := rfl
@[simp] theorem Core.writeXfctl_xIssue (c : Core) (v : Word) : (c.writeXfctl v).xIssue = c.xIssue := rfl
@[simp] theorem Core.writeXfctl_flight (c : Core) (v : Word) : (c.writeXfctl v).flight = c.flight := rfl
@[simp] theorem Core.writeXfctl_tokens (c : Core) (v : Word) : (c.writeXfctl v).tokens = c.tokens := rfl
@[simp] theorem Core.writeXfctl_resv (c : Core) (v : Word) : (c.writeXfctl v).resv = c.resv := rfl
@[simp] theorem Core.writeXfctl_cc (c : Core) (v : Word) : (c.writeXfctl v).cc = c.cc := rfl
@[simp] theorem Core.writeXfctl_bars (c : Core) (v : Word) : (c.writeXfctl v).bars = c.bars := rfl
@[simp] theorem Core.writeXfctl_slots (c : Core) (v : Word) : (c.writeXfctl v).slots = c.slots := rfl
@[simp] theorem Core.writeXfctl_scLast (c : Core) (v : Word) : (c.writeXfctl v).scLast = c.scLast := rfl
@[simp] theorem Core.writeXfctl_specst (c : Core) (v : Word) : (c.writeXfctl v).specst = c.specst := rfl
@[simp] theorem Core.writeXfctl_hold (c : Core) (v : Word) : (c.writeXfctl v).hold = c.hold := rfl
@[simp] theorem Core.writeXfctl_bsts (c : Core) (v : Word) : (c.writeXfctl v).bsts = c.bsts := rfl
@[simp] theorem Core.writeXfctl_dmem (c : Core) (v : Word) : (c.writeXfctl v).dmem = c.dmem := rfl
@[simp] theorem Core.writeXfctl_dphase (c : Core) (v : Word) : (c.writeXfctl v).dphase = c.dphase := rfl
@[simp] theorem Core.writeXfctl_vshare (c : Core) (v : Word) : (c.writeXfctl v).vshare = c.vshare := rfl
@[simp] theorem Core.writeXfctl_slpcfg (c : Core) (v : Word) : (c.writeXfctl v).slpcfg = c.slpcfg := rfl
@[simp] theorem Core.writeXfctl_pgreply (c : Core) (v : Word) : (c.writeXfctl v).pgreply = c.pgreply := rfl
@[simp] theorem Core.writeXfctl_tl (c : Core) (v : Word) : (c.writeXfctl v).tl = c.tl := rfl
@[simp] theorem Core.writeXfctl_tvec (c : Core) (v : Word) : (c.writeXfctl v).tvec = c.tvec := rfl
@[simp] theorem Core.writeXfctl_trapen (c : Core) (v : Word) : (c.writeXfctl v).trapen = c.trapen := rfl
@[simp] theorem Core.writeXfctl_bank1 (c : Core) (v : Word) : (c.writeXfctl v).bank1 = c.bank1 := rfl
@[simp] theorem Core.writeXfctl_bank2 (c : Core) (v : Word) : (c.writeXfctl v).bank2 = c.bank2 := rfl
@[simp] theorem Core.writeXfctl_lttBase (c : Core) (v : Word) : (c.writeXfctl v).lttBase = c.lttBase := rfl
@[simp] theorem Core.writeXfctl_lttCount (c : Core) (v : Word) : (c.writeXfctl v).lttCount = c.lttCount := rfl
@[simp] theorem Core.writeXfctl_lttCrc (c : Core) (v : Word) : (c.writeXfctl v).lttCrc = c.lttCrc := rfl
@[simp] theorem Core.writeXfctl_openJob (c : Core) (v : Word) : (c.writeXfctl v).openJob = c.openJob := rfl
@[simp] theorem Core.writeXfctl_ops (c : Core) (v : Word) : (c.writeXfctl v).ops = c.ops := rfl
@[simp] theorem Core.writeXfctl_nextUid (c : Core) (v : Word) : (c.writeXfctl v).nextUid = c.nextUid := rfl
@[simp] theorem Core.writeXfctl_pagerSeq (c : Core) (v : Word) : (c.writeXfctl v).pagerSeq = c.pagerSeq := rfl
@[simp] theorem Core.writeXfctl_pagerOut (c : Core) (v : Word) : (c.writeXfctl v).pagerOut = c.pagerOut := rfl
@[simp] theorem Core.writeXfctl_pagerHeld (c : Core) (v : Word) : (c.writeXfctl v).pagerHeld = c.pagerHeld := rfl
@[simp] theorem Core.writeXfctl_budget (c : Core) (v : Word) : (c.writeXfctl v).budget = c.budget := rfl
@[simp] theorem Core.writeXfctl_preempt (c : Core) (v : Word) : (c.writeXfctl v).preempt = c.preempt := rfl
@[simp] theorem Core.writeXfctl_saving (c : Core) (v : Word) : (c.writeXfctl v).saving = c.saving := rfl
@[simp] theorem Core.writeXfctl_halted (c : Core) (v : Word) : (c.writeXfctl v).halted = c.halted := rfl
@[simp] theorem Core.writeXfctl_watchSkip (c : Core) (v : Word) : (c.writeXfctl v).watchSkip = c.watchSkip := rfl
@[simp] theorem Core.writeXfctl_asleep (c : Core) (v : Word) : (c.writeXfctl v).asleep = c.asleep := rfl
@[simp] theorem Core.writeXfctl_waited (c : Core) (v : Word) : (c.writeXfctl v).waited = c.waited := rfl

/-! ### `Core.setBar` -/

@[simp] theorem Core.setBar_idx (c : Core) (b : BitVec 8) (v : Barrier) : (c.setBar b v).idx = c.idx := rfl
@[simp] theorem Core.setBar_task (c : Core) (b : BitVec 8) (v : Barrier) : (c.setBar b v).task = c.task := rfl
@[simp] theorem Core.setBar_view (c : Core) (b : BitVec 8) (v : Barrier) : (c.setBar b v).view = c.view := rfl
@[simp] theorem Core.setBar_split (c : Core) (b : BitVec 8) (v : Barrier) : (c.setBar b v).split = c.split := rfl
@[simp] theorem Core.setBar_l (c : Core) (b : BitVec 8) (v : Barrier) : (c.setBar b v).l = c.l := rfl
@[simp] theorem Core.setBar_x (c : Core) (b : BitVec 8) (v : Barrier) : (c.setBar b v).x = c.x := rfl
@[simp] theorem Core.setBar_s (c : Core) (b : BitVec 8) (v : Barrier) : (c.setBar b v).s = c.s := rfl
@[simp] theorem Core.setBar_k (c : Core) (b : BitVec 8) (v : Barrier) : (c.setBar b v).k = c.k := rfl
@[simp] theorem Core.setBar_bdone (c : Core) (b : BitVec 8) (v : Barrier) : (c.setBar b v).bdone = c.bdone := rfl
@[simp] theorem Core.setBar_fifo (c : Core) (b : BitVec 8) (v : Barrier) : (c.setBar b v).fifo = c.fifo := rfl
@[simp] theorem Core.setBar_xIssue (c : Core) (b : BitVec 8) (v : Barrier) : (c.setBar b v).xIssue = c.xIssue := rfl
@[simp] theorem Core.setBar_flight (c : Core) (b : BitVec 8) (v : Barrier) : (c.setBar b v).flight = c.flight := rfl
@[simp] theorem Core.setBar_tokens (c : Core) (b : BitVec 8) (v : Barrier) : (c.setBar b v).tokens = c.tokens := rfl
@[simp] theorem Core.setBar_resv (c : Core) (b : BitVec 8) (v : Barrier) : (c.setBar b v).resv = c.resv := rfl
@[simp] theorem Core.setBar_cc (c : Core) (b : BitVec 8) (v : Barrier) : (c.setBar b v).cc = c.cc := rfl
@[simp] theorem Core.setBar_slots (c : Core) (b : BitVec 8) (v : Barrier) : (c.setBar b v).slots = c.slots := rfl
@[simp] theorem Core.setBar_scLast (c : Core) (b : BitVec 8) (v : Barrier) : (c.setBar b v).scLast = c.scLast := rfl
@[simp] theorem Core.setBar_specst (c : Core) (b : BitVec 8) (v : Barrier) : (c.setBar b v).specst = c.specst := rfl
@[simp] theorem Core.setBar_hold (c : Core) (b : BitVec 8) (v : Barrier) : (c.setBar b v).hold = c.hold := rfl
@[simp] theorem Core.setBar_bsts (c : Core) (b : BitVec 8) (v : Barrier) : (c.setBar b v).bsts = c.bsts := rfl
@[simp] theorem Core.setBar_xfctl (c : Core) (b : BitVec 8) (v : Barrier) : (c.setBar b v).xfctl = c.xfctl := rfl
@[simp] theorem Core.setBar_dmem (c : Core) (b : BitVec 8) (v : Barrier) : (c.setBar b v).dmem = c.dmem := rfl
@[simp] theorem Core.setBar_dphase (c : Core) (b : BitVec 8) (v : Barrier) : (c.setBar b v).dphase = c.dphase := rfl
@[simp] theorem Core.setBar_vshare (c : Core) (b : BitVec 8) (v : Barrier) : (c.setBar b v).vshare = c.vshare := rfl
@[simp] theorem Core.setBar_slpcfg (c : Core) (b : BitVec 8) (v : Barrier) : (c.setBar b v).slpcfg = c.slpcfg := rfl
@[simp] theorem Core.setBar_pgreply (c : Core) (b : BitVec 8) (v : Barrier) : (c.setBar b v).pgreply = c.pgreply := rfl
@[simp] theorem Core.setBar_tl (c : Core) (b : BitVec 8) (v : Barrier) : (c.setBar b v).tl = c.tl := rfl
@[simp] theorem Core.setBar_tvec (c : Core) (b : BitVec 8) (v : Barrier) : (c.setBar b v).tvec = c.tvec := rfl
@[simp] theorem Core.setBar_trapen (c : Core) (b : BitVec 8) (v : Barrier) : (c.setBar b v).trapen = c.trapen := rfl
@[simp] theorem Core.setBar_bank1 (c : Core) (b : BitVec 8) (v : Barrier) : (c.setBar b v).bank1 = c.bank1 := rfl
@[simp] theorem Core.setBar_bank2 (c : Core) (b : BitVec 8) (v : Barrier) : (c.setBar b v).bank2 = c.bank2 := rfl
@[simp] theorem Core.setBar_lttBase (c : Core) (b : BitVec 8) (v : Barrier) : (c.setBar b v).lttBase = c.lttBase := rfl
@[simp] theorem Core.setBar_lttCount (c : Core) (b : BitVec 8) (v : Barrier) : (c.setBar b v).lttCount = c.lttCount := rfl
@[simp] theorem Core.setBar_lttCrc (c : Core) (b : BitVec 8) (v : Barrier) : (c.setBar b v).lttCrc = c.lttCrc := rfl
@[simp] theorem Core.setBar_openJob (c : Core) (b : BitVec 8) (v : Barrier) : (c.setBar b v).openJob = c.openJob := rfl
@[simp] theorem Core.setBar_ops (c : Core) (b : BitVec 8) (v : Barrier) : (c.setBar b v).ops = c.ops := rfl
@[simp] theorem Core.setBar_nextUid (c : Core) (b : BitVec 8) (v : Barrier) : (c.setBar b v).nextUid = c.nextUid := rfl
@[simp] theorem Core.setBar_pagerSeq (c : Core) (b : BitVec 8) (v : Barrier) : (c.setBar b v).pagerSeq = c.pagerSeq := rfl
@[simp] theorem Core.setBar_pagerOut (c : Core) (b : BitVec 8) (v : Barrier) : (c.setBar b v).pagerOut = c.pagerOut := rfl
@[simp] theorem Core.setBar_pagerHeld (c : Core) (b : BitVec 8) (v : Barrier) : (c.setBar b v).pagerHeld = c.pagerHeld := rfl
@[simp] theorem Core.setBar_budget (c : Core) (b : BitVec 8) (v : Barrier) : (c.setBar b v).budget = c.budget := rfl
@[simp] theorem Core.setBar_preempt (c : Core) (b : BitVec 8) (v : Barrier) : (c.setBar b v).preempt = c.preempt := rfl
@[simp] theorem Core.setBar_saving (c : Core) (b : BitVec 8) (v : Barrier) : (c.setBar b v).saving = c.saving := rfl
@[simp] theorem Core.setBar_halted (c : Core) (b : BitVec 8) (v : Barrier) : (c.setBar b v).halted = c.halted := rfl
@[simp] theorem Core.setBar_watchSkip (c : Core) (b : BitVec 8) (v : Barrier) : (c.setBar b v).watchSkip = c.watchSkip := rfl
@[simp] theorem Core.setBar_asleep (c : Core) (b : BitVec 8) (v : Barrier) : (c.setBar b v).asleep = c.asleep := rfl
@[simp] theorem Core.setBar_waited (c : Core) (b : BitVec 8) (v : Barrier) : (c.setBar b v).waited = c.waited := rfl

end Sys2Proof.Machine
end

