-- ==== Sys2Proof/Tests/Slice0.lean ====
section
/-! SUPPORT. Tests: ill-formed terms that the checks refuse, words of every constructor, values from the manual's worked examples, and for every
statement a state and operands that meet its hypotheses. -/

namespace Sys2Proof.Tests
open Sys2Proof.Machine

set_option Elab.async false

/-! ### Small states -/

/-- A view with two handles: 1 over 64 KiB of memory with every right, 2 over 64 KiB of its cluster's store. -/
def tView : View :=
  { ctx := 0, sup := false, htb := 0, htn := 3
    snap := cellWrite [] 32 (wordsBytes [0, 0x8000000000010000, 0x1F00000000, 0, 0, 0x8010000000010000, 0x1F00000000, 0])
    ltt := [(0x1000000000000001, 0x0F00000000000000)], draw := 0 }

/-- A core that runs a task of context 0 in split mode. -/
def tCore : Core :=
  { Core.reset 0 with
    task := some { id := 0, rtn := some 0, pager := false, lid := 0 }, split := true, view := tView
    l := { Strand.reset with pc := 0x0010000000000100 }, x := { Strand.reset with pc := 0x0010000000000104 }
    s := { Strand.reset with pc := 0x0010000000000108 }, k := { Strand.reset with pc := 0x001000000000010C } }

/-- The machine with strand `σ` of that core to act. -/
def tState (σ : StrandId) : State := { State.reset with cur := σ, core := tCore }

/-- The same core in bundle mode. -/
def tBundle : State := { State.reset with cur := .k, core := { tCore with split := false } }

/-- A supervisor task. -/
def tSup : State := { tState .k with core := { tCore with view := { tView with sup := true } } }

/-- The machine with a changed core. -/
def onC (s : State) (f : Core → Core) : State := { s with core := f s.core }

/-- A view whose handle 3 is a window on the store of cluster 5, by slot 3. -/
def tWindowView : View := { tView with htn := 4, snap := cellWrite tView.snap 96 (wordsBytes [0, 0x8020000000010000, 0x3F00280030, 0]) }

/-- The spans of an access that passed its checks. -/
def spansOf : Except Stop (List Span) → List Span
  | .ok ss => ss
  | .error _ => []

/-- The state and token of a sync field that acted. -/
def synced (s : State) (y : BitVec 2) : State × Option Nat :=
  match s.syncTake y with
  | .ok r => r
  | .error _ => (s, none)

/-- A landed queue entry. -/
def tEntry (d : BitVec 1024) : FEntry := { data := d, due := 0, src := 0, landed := true }

/-- The enables an X word reads. -/
def enablesOf (o : XOp) (p : XPlan) (v : State) : Except Stop (Entry × XRead) :=
  if p.masked then XRead.mask ⟨v, []⟩ o.m else .ok (BitVec.allOnes 1024, ⟨v, []⟩)

/-- The lanes an X word leaves undisturbed. -/
def undisturbedOf (o : XOp) (p : XPlan) (x : XRead) : Entry × XRead :=
  if p.merge && o.m != 0 then (if o.ma = 0 then x.base p.vd else (x.s.drawEntry.1, { x with s := x.s.drawEntry.2 })) else (0, x)

/-- What an X word takes before it reads its operands, where nothing refuses it: the state after the sync field, the token to give, the enables,
the undisturbed lanes and the state then. -/
def startOf (s : State) (o : XOp) (p : XPlan) : Option (State × Option Nat × Entry × Entry × XRead) :=
  if Fresh s ∧ s.cur = .x ∧ (p.masked = true → o.m = 0 → o.ma = 0) ∧ usesBad p = false ∧ p.latMin ≤ o.lat.toNat then
    match s.syncTake o.sync with
    | .error _ => none
    | .ok (v, sig) =>
      if sig ≠ none ∧ ¬Quiet v then none else
      match occCheck v.core p o.m with
      | .error _ => none
      | .ok () =>
        match enablesOf o p v with
        | .error _ => none
        | .ok (en, x1) => some (v, sig, en, (undisturbedOf o p x1).1, (undisturbedOf o p x1).2)
  else none

/-- What an X word reads, where it issues. -/
def readsOf (s : State) (o : XOp) (p : XPlan) : Option (Option Nat × Entry × Entry × List Entry × XRead) :=
  match startOf s o p with
  | none => none
  | some (_, sig, en, base, x2) =>
    match readAll x2 p.reads with
    | .error _ => none
    | .ok (es, x) => some (sig, en, base, es, x)

/-- A state for which `startOf` answers is one in which the word starts. -/
theorem xStart_of_startOf (s : State) (o : XOp) (p : XPlan) (v : State) (sig : Option Nat) (en base : Entry) (x : XRead)
    (h : startOf s o p = some (v, sig, en, base, x)) : XStart s o p v sig en base x := by
  unfold startOf at h
  split at h
  · rename_i hc
    obtain ⟨h1, h2, h3, h4, h5⟩ := hc
    split at h
    · cases h
    · rename_i v' sig' hs
      split at h
      · cases h
      · rename_i hq
        split at h
        · cases h
        · rename_i ho
          split at h
          · cases h
          · rename_i en' x1 hm
            simp only [Option.some.injEq, Prod.mk.injEq] at h
            obtain ⟨rfl, rfl, rfl, rfl, rfl⟩ := h
            exact ⟨h1, h2, h3, h4, h5, hs, fun hn => Classical.byContradiction fun hv => hq ⟨hn, hv⟩, ho, x1, hm, rfl⟩
  · cases h

/-- A state for which `readsOf` answers is one in which the word issues. -/
theorem xIssue_of_readsOf (s : State) (o : XOp) (p : XPlan) (sig : Option Nat) (en base : Entry) (es : List Entry) (x : XRead)
    (h : readsOf s o p = some (sig, en, base, es, x)) : XIssue s o p sig en base es x := by
  unfold readsOf at h
  split at h
  · cases h
  · rename_i v sig' en' base' x2 hs
    split at h
    · cases h
    · rename_i es' x' hr
      simp only [Option.some.injEq, Prod.mk.injEq] at h
      obtain ⟨rfl, rfl, rfl, rfl, rfl⟩ := h
      exact ⟨v, x2, xStart_of_startOf s o p v sig' en' base' x2 hs, hr⟩

/-- Operands of an X word with every other field zero. -/
def tX (vd va vb : BitVec 4) (ty m : BitVec 3) (lat : BitVec 2) : XOp :=
  { vd := vd, va := va, vb := vb, ty := ty, m := m, ma := 0, lat := lat, sync := 0, pa := 0, pb := 0 }

/-- X to act, with an entry in each of v1, v2 and v3 and one in q0. -/
def tVec : State := onC (tState .x) fun c =>
  (((c.setQueue 1 [tEntry 5]).setQueue 2 [tEntry 0x40800000]).setQueue 3 [tEntry 0x3F800000]).setQueue 12 [tEntry 7]

/-- A running task of context 0, the one that the small core runs. -/
def tTask : Task :=
  { id := 0, launch := some 0, index := 0, ctx := 0, cls := 1, sup := false, st := .running, rtn := some 0, core := some 0, last := 0, saved := false
    binding := none, misses := 0, doms := [0, 0, 0, 0], arrived := [], heldJobs := [], heldReply := none, heldSlots := [], future := none
    pagerOut := none, stages := [0, 0, 0, 0], bdone := 0, rels := [0, 0, 0, 0]
    sched := 0x1110000000000000 }

/-- K of a core in split mode, its task in the launch manager's table. -/
def tK : State := { tState .k with lm := { State.reset.lm with tasks := [tTask], nextTask := 1 } }

/-- The machine with other memory. -/
def withMem (s : State) (a : Nat) (bs : List Byte) : State := { s with mem := cellWrite s.mem a bs }

/-- The machine with a store of the acting strand that is not performed yet. -/
def tPending (s : State) : State :=
  s.withOp (s.newOp 0x0010000000000000 (.store [{ place := .mem, addr := 0, len := 8, grain := 0, pol := 0 }] (zeroBytes 8)) .none none 0 0 none false)

/-- The machine with a sector of memory that holds poison. -/
def tPoison (s : State) (sector : Nat) : State := s.modCoh fun c => c.setMark sector true

/-- A job of the small core's task on engine `e`, with its records. -/
def tJob (e : Nat) (recs : List (List Word)) : Job :=
  { id := 7, eng := e, clu := 0, core := 0, task := 0, view := tView, recs := recs, next := 0, sub := 0, at_ := 0, seq := 0, stamped := false, tok := 0
    accs := [none, some [5, 7], none, none], bound := false, flags := 0, bytes := 0, busy := none, begun := false, pace := 0, ended := none, wins := 0, got := [], held := none
    word := none, doneSeq := 0, tokDone := false, drop := false }

/-- That core with one job. -/
def tEng (j : Job) : State := { tK with jobs := [j], jobSeq := 1 }

/-- What an engine step gave. -/
def engGot {α : Type} (d : State × α) : Eng α → State × α
  | .ok t a => (t, a)
  | _ => d

/-- The status with which an engine step ended its job, and the state then. -/
def engStops {α : Type} (d : State) : Eng α → State × Option Nat
  | .stop t e => (t, some e)
  | _ => (d, none)

/-- The address at which an engine step consumed poison. -/
def engDies {α : Type} : Eng α → Option Word
  | .dead _ v => some v
  | _ => none

/-- The state an answer leaves, if it is one. -/
def nextOr (d : State) : Host.Outcome State Fault Refusal → State
  | .next s => s
  | _ => d

/-- A module of a Zheuc group of modules 0, 1 and 4. -/
def tGroup : State := tK.setReg 0x018 0x0000001380000005

/-- A future of context 0. -/
def tFut : Future :=
  { id := 5, st := 1, ctx := 0, rtn := 0, pq := 0, ep := 0, rem := false, wait := false, cpy := false, req := 0, reqlen := 0, rlen := 0, rpl := 0
    rplcap := 0, deadline := 100, gen := 1, reqAt := [], rplAt := [], sbx := 0, claimer := none, hw := true, seq := 0, record := none, counted := false, pqpos := 0, reply := none }

/-- Agate enabled, with namespace 0 of context 0. -/
def tAgate : State := (tK.setReg 0x028 0x8000000000000000).setReg (nsBase 0) 0xE000000000040000

/-- A message between routers about a name of namespace 0. -/
def tMsg : AgMsg := { name := 5, relaxed := false, hit := false, ostn := 2, omod := 0, size := 0, exp := 1000, segoff := 0, data := [] }

/-- A hart in a sandbox of context 0. -/
def tHart : Hart := { Hart.reset with fsbx := 0x8000000000000000 }

/-- The machine with other code, as the placement of the current task read it. -/
def withCode (s : State) (a : Nat) (bs : List Byte) : State :=
  onC s fun c => { c with view := { c.view with snap := cellWrite c.view.snap a bs } }

/-- The bytes of words. -/
def codeOf (is : List Instr) : List Byte := is.flatMap fun i => natBytes 4 ((encode i).getD 0).toNat

/-- The state a request leaves where it is performed. -/
def okOr (d : State) : Except Nat State → State
  | .ok s => s
  | .error _ => d

/-- A request is performed and leaves a state. -/
def okIs (r : Except Nat State) (s : State) : Bool :=
  match r with
  | .ok t => decide (t = s)
  | .error _ => false

/-- A request waits at a byte. -/
def waitsAt (r : Except Nat State) (pa : Nat) : Bool :=
  match r with
  | .ok _ => false
  | .error p => p == pa

/-- Whether an answer is a next state; `nextOr` then gives it. -/
def isNext : Host.Outcome State Fault Refusal → Bool
  | .next _ => true
  | _ => false

/-- So an answer that is a next state is the one `nextOr` gives. -/
theorem next_of_isNext (d : State) (o : Host.Outcome State Fault Refusal) (h : isNext o = true) : o = .next (nextOr d o) := by
  cases o with
  | next s => rfl
  | fault f => cases h
  | refused r => cases h

/-- An engine load that leaves the state as it was. -/
def loadsQuietly (s : State) (j : Job) (a : Word) (n : Nat) : Bool :=
  match s.engLoad j a n with
  | .ok t _ => decide (t = s)
  | _ => false

/-- Rows that all stand at one address load where one row does. -/
theorem loadRows_of_row (s : State) (j : Job) (r : List Word) (a : Word) (ha : ∀ i, rowAt r i = a)
    (h : loadsQuietly s j a (128 * accBytes (recFld r 0 45 3)) = true) :
    ∀ (n i : Nat) (acc : List FRes), ∃ rs, s.loadRows j r n i acc = .ok s rs := by
  unfold loadsQuietly at h
  split at h
  · rename_i t bs he
    obtain rfl := of_decide_eq_true h
    intro n
    induction n with
    | zero => exact fun i acc => ⟨acc, rfl⟩
    | succ n ih =>
      intro i acc
      simp only [State.loadRows, ha, he]
      exact ih _ _
  · cases h

/-- A saved task with a member of its cluster domain elsewhere takes no core of another cluster (R199). -/
theorem not_taken (z : State) (t : Task) (k : Nat) (hs : t.saved = true) (hk : k / 8 ≠ t.last / 8)
    (hf : (z.lm.tasks.any fun u => u.id != t.id && u.ctx == t.ctx && t.doms.getD 0 0 != 0 && u.doms.getD 0 0 == t.doms.getD 0 0) = true) :
    z.wouldTake t k = false := by
  have h : z.homeOk t k = false := by
    unfold State.homeOk
    simp only [hs, hf]
    simp [hk]
  simp [State.wouldTake, State.fits, h]

/-- A slot that holds `NOP` is no forbidden use. -/
theorem not_forbidden_nop (wl wx ws wk : IWord) (τ : StrandId) (h : decodeWord τ (slotWord wl wx ws wk τ) = .ok .nop) :
    ¬Forbidden wl wx ws wk τ := by
  rintro ⟨i, hi, hf⟩
  rw [h] at hi
  cases hi
  simp [KSlotOnly] at hf

/-- The first 152 bytes of a link flit, and its last word. -/
def bodyOf (b : List Byte) : List Byte := b.take 152
def crcOf (b : List Byte) : Word := BitVec.ofNat 64 (bytesNat (b.drop 152))

/-! ### Words of every constructor -/

/-- Every word decodes, in its strand, to its instruction, and is that instruction's encoding. -/
def decodesTo (ws : List (StrandId × IWord × Instr)) : Bool :=
  ws.all fun p => decide (decodeWord p.1 p.2.1 = .ok p.2.2) && decide (encode p.2.2 = some p.2.1) && p.2.2.wellFormed

theorem test_decodes_common_1 : decodesTo [
    (.k, 0x00000000, .nop),
    (.l, 0x00628001, .fence 6 5),
    (.x, 0x00000002, .commit),
    (.s, 0x00000003, .abort),
    (.k, 0x01700004, .wfe 23),
    (.l, 0x00003805, .tsig 14),
    (.x, 0x00002406, .twait 9),
    (.s, 0x01203C07, .ttry 18 15),
    (.k, 0x00003408, .ccset 13),
    (.l, 0x00002409, .ccclr 9),
    (.x, 0x00002C0A, .ccwait 11),
    (.s, 0x0000340B, .join 13),
    (.k, 0x031FE400, .add 17 31 25),
    (.l, 0x0348C801, .sub 20 17 18),
    (.x, 0x037BC802, .and 23 23 18),
    (.s, 0x03496403, .or 20 18 25),
    (.k, 0x0378F804, .xor 23 17 30),
    (.l, 0x03A95005, .andn 26 18 20),
    (.x, 0x03BDE806, .sll 27 27 26),
    (.s, 0x031D6807, .srl 17 26 26),
    (.k, 0x0378D008, .sra 23 17 20),
    (.l, 0x031CF809, .rol 17 25 30),
    (.x, 0x033ADC0A, .mul 19 21 23),
    (.s, 0x033CC80B, .mulh 19 25 18),
    (.k, 0x03AAE40C, .mulhu 26 21 25),
    (.l, 0x03EDCC0D, .div 30 27 19),
    (.x, 0x032D680E, .divu 18 26 26),
    (.s, 0x03BA580F, .rem 27 20 22),
    (.k, 0x032CF010, .remu 18 25 28),
    (.l, 0x032D4411, .divw 18 26 17)] = true := by decide +kernel

theorem test_decodes_common_2 : decodesTo [
    (.x, 0x03AA6012, .remw 26 20 24),
    (.s, 0x03BCDC13, .min 27 25 23),
    (.k, 0x03DB6014, .max 29 22 24),
    (.l, 0x03AFE015, .minu 26 31 24),
    (.x, 0x036AD016, .maxu 22 21 20),
    (.s, 0x03D9F017, .slt 29 19 28),
    (.k, 0x03DA4818, .sltu 29 20 18),
    (.l, 0x03AAE419, .seq 26 21 25),
    (.x, 0x038F801A, .clz 24 31),
    (.s, 0x036E001B, .ctz 22 28),
    (.k, 0x038A801C, .popc 24 21),
    (.l, 0x05A9478F, .addi 26 18 18319),
    (.x, 0x079BCA8F, .andi 25 23 19087),
    (.s, 0x09DB49BB, .ori 29 22 18875),
    (.k, 0x0BFC5AFE, .xori 31 24 23294),
    (.l, 0x0D1D8023, .slli 17 27 35),
    (.x, 0x0DDCA033, .srli 29 25 51),
    (.s, 0x0DDFC03B, .srai 29 31 59),
    (.k, 0x0F6B3640, .slti 22 22 13888),
    (.l, 0x0F6D6FE5, .sltiu 22 26 12261),
    (.x, 0x11AEDD33, .movhi 26 29 23859),
    (.s, 0x132F45FE, .beq 18 30 17918),
    (.k, 0x155C6C9D, .bne 21 24 27805),
    (.l, 0x17B943E3, .blt 27 18 17379),
    (.x, 0x19CE53D1, .bge 28 28 21457),
    (.s, 0x1BBD7F8F, .bltu 27 26 32655),
    (.k, 0x1DBF5C86, .bgeu 27 30 23686),
    (.l, 0x1F48DB41, .j 21551937),
    (.x, 0x21B774EC, .jal 28800236),
    (.s, 0x23F8C545, .call 3 7914821)] = true := by decide +kernel

theorem test_decodes_common_3 : decodesTo [
    (.k, 0x240D8000, .jr 27),
    (.l, 0x240B0103, .callr 22 3),
    (.x, 0x24000200, .ret),
    (.s, 0x278B0096, .loop 24 22 150),
    (.k, 0x29A048C0, .loopi 26 72 192),
    (.l, 0x2B1A00D8, .lstep 17 20 6 3),
    (.x, 0x2A0001E5, .lfirst 28 5),
    (.s, 0x2A0002BE, .llast 23 6),
    (.k, 0x2A000306, .lbreak 6),
    (.l, 0x2D29F66E, .ldb 18 19 3 5742),
    (.x, 0x2F9AFD1C, .ldbu 25 21 3 7452),
    (.s, 0x317F7B4E, .ldh 23 30 3 6990),
    (.k, 0x337B7F53, .ldhu 23 22 3 8019),
    (.l, 0x3549F2D2, .ldw 20 19 3 4818),
    (.x, 0x373A7032, .ldwu 19 20 3 4146),
    (.s, 0x398F7435, .ldd 24 30 3 5173),
    (.k, 0x3B58F6B5, .stb 21 17 3 5813),
    (.l, 0x3D9B7F40, .sth 25 22 3 8000),
    (.x, 0x3F3E774F, .stw 19 28 3 5967),
    (.s, 0x41FF765F, .std 31 30 3 5727),
    (.k, 0x420600B3, .bararr 12 179),
    (.l, 0x4200018E, .barwait 142),
    (.x, 0x420602D2, .barsync 12 210),
    (.s, 0x44000006, .dsync 6),
    (.k, 0x471A4800, .fork 17 20 18),
    (.l, 0x49400085, .mfc 20 133),
    (.x, 0x48098185, .mtc 19 133),
    (.s, 0x49600009, .mfcXq 22),
    (.k, 0x480D010B, .mtcQ3 26)] = true := by decide +kernel

theorem test_decodes_l : decodesTo [
    (.l, 0x81E5001D, .vld 3 1 18 4097 3 1),
    (.l, 0x83EDA84C, .vlds 3 1 22 26 132 3),
    (.l, 0x85F5606C, .vldb 3 1 26 5638 3),
    (.l, 0x87EBF4AF, .probe 7 21 8010 3 3),
    (.l, 0x89A51D9D, .pref 6 18 4569 3 1),
    (.l, 0x8BB1B46F, .lda 6 24 6 6 70 3 3),
    (.l, 0x8DEDCA6C, .nreq 7 22 28 41 1 3),
    (.l, 0x8FC0026C, .nwait 7 38 3),
    (.l, 0x9000027C, .ncancel 39 3)] = true := by decide +kernel

theorem test_decodes_s : decodesTo [
    (.s, 0x81B98B1C, .vst 3 28 6321 3),
    (.s, 0x83B7E8CC, .vsts 3 27 30 140 3),
    (.s, 0x85ED772F, .stl 7 22 5 6 114 3 3),
    (.s, 0x87E9EF4F, .amoadd 7 20 7 5 29 3 3),
    (.s, 0x89FB6E5F, .amomin 7 29 5 5 25 1 3 3),
    (.s, 0x8BE3761F, .amomax 7 17 5 6 24 1 3 3),
    (.s, 0x8DF5B74F, .amoand 7 26 6 6 29 3 3),
    (.s, 0x8F696E0F, .amoor 5 20 5 5 24 3 3),
    (.s, 0x9171FF8F, .amoxor 5 24 7 7 30 3 3),
    (.s, 0x93EDEF8F, .amoswp 7 22 7 5 30 3 3),
    (.s, 0x95FB77CF, .amocas 7 29 5 6 31 3 3),
    (.s, 0x97E5F5ED, .vradd 3 1 18 7 6 94 3 1),
    (.s, 0x99E5C00C, .npub 7 18 28 3),
    (.s, 0x9B67194C, .bst 5 19 17 148 3)] = true := by decide +kernel

theorem test_decodes_x_1 : decodesTo [
    (.x, 0x81FD5FFF, .vadd { vd := 15, va := 14, vb := 10, ty := 7, m := 7, ma := 1, lat := 3, sync := 3, pa := 1, pb := 1 }),
    (.x, 0x835BB6FF, .vsub { vd := 10, va := 13, vb := 13, ty := 5, m := 5, ma := 1, lat := 3, sync := 3, pa := 1, pb := 1 }),
    (.x, 0x85BD5AFF, .vmul { vd := 13, va := 14, vb := 10, ty := 6, m := 5, ma := 1, lat := 3, sync := 3, pa := 1, pb := 1 }),
    (.x, 0x87757EFF, .vfma { vd := 11, va := 10, vb := 11, ty := 7, m := 5, ma := 1, lat := 3, sync := 3, pa := 1, pb := 1 }),
    (.x, 0x89B9F6FF, .vfms { vd := 13, va := 12, vb := 15, ty := 5, m := 5, ma := 1, lat := 3, sync := 3, pa := 1, pb := 1 }),
    (.x, 0x8BDBFF7F, .vfnma { vd := 14, va := 13, vb := 15, ty := 7, m := 6, ma := 1, lat := 3, sync := 3, pa := 1, pb := 1 }),
    (.x, 0x8DBB3AFF, .vmin { vd := 13, va := 13, vb := 9, ty := 6, m := 5, ma := 1, lat := 3, sync := 3, pa := 1, pb := 1 }),
    (.x, 0x8F559FFF, .vmax { vd := 10, va := 10, vb := 12, ty := 7, m := 7, ma := 1, lat := 3, sync := 3, pa := 1, pb := 1 }),
    (.x, 0x917C1FFE, .vabs { vd := 11, va := 14, vb := 0, ty := 7, m := 7, ma := 1, lat := 3, sync := 3, pa := 1, pb := 0 }),
    (.x, 0x93B216FE, .vneg { vd := 13, va := 9, vb := 0, ty := 5, m := 5, ma := 1, lat := 3, sync := 3, pa := 1, pb := 0 }),
    (.x, 0x95F21F7E, .vrcp { vd := 15, va := 9, vb := 0, ty := 7, m := 6, ma := 1, lat := 3, sync := 3, pa := 1, pb := 0 }),
    (.x, 0x97961FFE, .vrsq { vd := 12, va := 11, vb := 0, ty := 7, m := 7, ma := 1, lat := 3, sync := 3, pa := 1, pb := 0 }),
    (.x, 0x999A1F7E, .vexp2 { vd := 12, va := 13, vb := 0, ty := 7, m := 6, ma := 1, lat := 3, sync := 3, pa := 1, pb := 0 }),
    (.x, 0x9BB41AFE, .vlog2 { vd := 13, va := 10, vb := 0, ty := 6, m := 5, ma := 1, lat := 3, sync := 3, pa := 1, pb := 0 }),
    (.x, 0x9D9977BF, .vcmp { vd := 12, va := 12, vb := 11, ty := 5, m := 7, ma := 0, lat := 3, sync := 3, pa := 1, pb := 1 }),
    (.x, 0x9F35DABF, .vsel { vd := 9, va := 10, vb := 14, ty := 6, m := 5, ma := 0, lat := 3, sync := 3, pa := 1, pb := 1 }),
    (.x, 0xA1575ABE, .vcvt { vd := 10, va := 11, vb := 10, ty := 6, m := 5, ma := 0, lat := 3, sync := 3, pa := 1, pb := 0 }),
    (.x, 0xA395D6BE, .vpack { vd := 12, va := 10, vb := 14, ty := 5, m := 5, ma := 0, lat := 3, sync := 3, pa := 1, pb := 0 }),
    (.x, 0xA5795B3E, .vunpk { vd := 11, va := 12, vb := 10, ty := 6, m := 6, ma := 0, lat := 3, sync := 3, pa := 1, pb := 0 }),
    (.x, 0xA737BB7F, .vzp { vd := 9, va := 11, vb := 13, ty := 6, m := 6, ma := 1, lat := 3, sync := 3, pa := 1, pb := 1 }),
    (.x, 0xA97BA37F, .vscacc { vd := 11, va := 13, vb := 13, ty := 0, m := 6, ma := 1, lat := 3, sync := 3, pa := 1, pb := 1 }),
    (.x, 0xABF5377F, .vscalex { vd := 15, va := 10, vb := 9, ty := 5, m := 6, ma := 1, lat := 3, sync := 3, pa := 1, pb := 1 }),
    (.x, 0xADF41ABE, .vredadd { vd := 15, va := 10, vb := 0, ty := 6, m := 5, ma := 0, lat := 3, sync := 3, pa := 1, pb := 0 }),
    (.x, 0xAF941FBE, .vredmax { vd := 12, va := 10, vb := 0, ty := 7, m := 7, ma := 0, lat := 3, sync := 3, pa := 1, pb := 0 }),
    (.x, 0xB13617BE, .vredmin { vd := 9, va := 11, vb := 0, ty := 5, m := 7, ma := 0, lat := 3, sync := 3, pa := 1, pb := 0 }),
    (.x, 0xB3373EFF, .vperm { vd := 9, va := 11, vb := 9, ty := 7, m := 5, ma := 1, lat := 3, sync := 3, pa := 1, pb := 1 }),
    (.x, 0xB5BF577F, .vslide { vd := 13, va := 15, vb := 10, ty := 5, m := 6, ma := 1, lat := 3, sync := 3, pa := 1, pb := 1 }),
    (.x, 0xB737BB7F, .vbcast { vd := 9, va := 11, vb := 13, ty := 6, m := 6, ma := 1, lat := 3, sync := 3, pa := 1, pb := 1 }),
    (.x, 0xB9BC16FE, .vmov { vd := 13, va := 14, vb := 0, ty := 5, m := 5, ma := 1, lat := 3, sync := 3, pa := 1, pb := 0 }),
    (.x, 0xBB20003C, .vclr { vd := 9, va := 0, vb := 0, ty := 0, m := 0, ma := 0, lat := 3, sync := 3, pa := 0, pb := 0 })] = true := by decide +kernel

theorem test_decodes_x_2 : decodesTo [
    (.x, 0xBD7D7EFF, .viadd { vd := 11, va := 14, vb := 11, ty := 7, m := 5, ma := 1, lat := 3, sync := 3, pa := 1, pb := 1 }),
    (.x, 0xBFBD5B7F, .visub { vd := 13, va := 14, vb := 10, ty := 6, m := 6, ma := 1, lat := 3, sync := 3, pa := 1, pb := 1 }),
    (.x, 0xC1333FFF, .vimul { vd := 9, va := 9, vb := 9, ty := 7, m := 7, ma := 1, lat := 3, sync := 3, pa := 1, pb := 1 }),
    (.x, 0xC3593FFF, .vimulh { vd := 10, va := 12, vb := 9, ty := 7, m := 7, ma := 1, lat := 3, sync := 3, pa := 1, pb := 1 }),
    (.x, 0xC5BF9F7F, .vimin { vd := 13, va := 15, vb := 12, ty := 7, m := 6, ma := 1, lat := 3, sync := 3, pa := 1, pb := 1 }),
    (.x, 0xC775FFFF, .vimax { vd := 11, va := 10, vb := 15, ty := 7, m := 7, ma := 1, lat := 3, sync := 3, pa := 1, pb := 1 }),
    (.x, 0xC97216FE, .viabs { vd := 11, va := 9, vb := 0, ty := 5, m := 5, ma := 1, lat := 3, sync := 3, pa := 1, pb := 0 }),
    (.x, 0xCB9537FF, .vand { vd := 12, va := 10, vb := 9, ty := 5, m := 7, ma := 1, lat := 3, sync := 3, pa := 1, pb := 1 }),
    (.x, 0xCDB5DAFF, .vor { vd := 13, va := 10, vb := 14, ty := 6, m := 5, ma := 1, lat := 3, sync := 3, pa := 1, pb := 1 }),
    (.x, 0xCF57977F, .vxor { vd := 10, va := 11, vb := 12, ty := 5, m := 6, ma := 1, lat := 3, sync := 3, pa := 1, pb := 1 }),
    (.x, 0xD1B7577F, .vsll { vd := 13, va := 11, vb := 10, ty := 5, m := 6, ma := 1, lat := 3, sync := 3, pa := 1, pb := 1 }),
    (.x, 0xD3537AFF, .vsrl { vd := 10, va := 9, vb := 11, ty := 6, m := 5, ma := 1, lat := 3, sync := 3, pa := 1, pb := 1 }),
    (.x, 0xD5BD57FF, .vsra { vd := 13, va := 14, vb := 10, ty := 5, m := 7, ma := 1, lat := 3, sync := 3, pa := 1, pb := 1 }),
    (.x, 0xD77F377F, .vmand { vd := 11, va := 15, vb := 9, ty := 5, m := 6, ma := 1, lat := 3, sync := 3, pa := 1, pb := 1 }),
    (.x, 0xD9377EFF, .vmor { vd := 9, va := 11, vb := 11, ty := 7, m := 5, ma := 1, lat := 3, sync := 3, pa := 1, pb := 1 }),
    (.x, 0xDBDDFF7F, .vmxor { vd := 14, va := 14, vb := 15, ty := 7, m := 6, ma := 1, lat := 3, sync := 3, pa := 1, pb := 1 }),
    (.x, 0xDD561FFE, .vmnot { vd := 10, va := 11, vb := 0, ty := 7, m := 7, ma := 1, lat := 3, sync := 3, pa := 1, pb := 0 }),
    (.x, 0xDE1E1FBE, .vmpop { vd := 0, va := 15, vb := 0, ty := 7, m := 7, ma := 0, lat := 3, sync := 3, pa := 1, pb := 0 }),
    (.x, 0xE01A1FBE, .vmfirst { vd := 0, va := 13, vb := 0, ty := 7, m := 7, ma := 0, lat := 3, sync := 3, pa := 1, pb := 0 }),
    (.x, 0xE33216FE, .viota { vd := 9, va := 9, vb := 0, ty := 5, m := 5, ma := 1, lat := 3, sync := 3, pa := 1, pb := 0 }),
    (.x, 0xE419F83F, .vxtr { vd := 0, va := 12, vb := 15, ty := 6, m := 0, ma := 0, lat := 3, sync := 3, pa := 1, pb := 1 })] = true := by decide +kernel

theorem test_decodes_k : decodesTo [
    (.k, 0x800DE701, .jcmd 27 25 3 1),
    (.k, 0x83800003, .jend 24 3),
    (.k, 0x851C0001, .jwait 17 24 1),
    (.k, 0x87D90000, .jpoll 29 18),
    (.k, 0x89C00301, .jpop 28 3 1),
    (.k, 0x8BBC8000, .ringdef 27 25),
    (.k, 0x8D200070, .ringadv 18 112),
    (.k, 0x8FC00019, .ringst 28 12 1),
    (.k, 0x900A839F, .trap 21 927),
    (.k, 0x92000000, .tret),
    (.k, 0x952F0001, .syscReadContext 18 30),
    (.k, 0x95500010, .syscPagerRequest 21),
    (.k, 0x954E0011, .syscPagerTake 20 28),
    (.k, 0x95DA0012, .syscPagerReply 29 20),
    (.k, 0x974E034D, .mfs 20 28 845),
    (.k, 0x980C63B1, .mts 24 24 945),
    (.k, 0x9A000000, .yield),
    (.k, 0x9C000000, .tend),
    (.k, 0x9F790018, .lnch 23 18 24),
    (.k, 0xA1FD8000, .fcall 31 27),
    (.k, 0xA35E8000, .fawait 21 29),
    (.k, 0xA51D0000, .fpoll 17 26),
    (.k, 0xA7BD8000, .fcancel 27 27),
    (.k, 0xA9400000, .qtzr 20),
    (.k, 0xA92D0001, .qtzrUntil 18 26),
    (.k, 0xAB3B5400, .lttld 19 22 21),
    (.k, 0xAC00034E, .dbg 846)] = true := by decide +kernel

/-! ### Words the manual prints -/

/-- The worked encodings of file 09 and the tables of file 10 (after R309). -/
theorem test_words_common : decodesTo [
    (.x, 0x02952C00, .add 9 10 11), (.l, 0x3854A000, .ldd 5 9 1 0), (.s, 0x4064C000, .std 6 9 2 0), (.k, 0x1094A340, .movhi 9 9 0x2340),
    (.k, 0x2820640B, .loopi 2 100 11), (.k, 0x2A848000, .lstep 8 9 0 0), (.k, 0x28000503, .loopi 0 5 3), (.k, 0x2A000108, .lfirst 1 0),
    (.k, 0x4803010B, .mtcQ3 6), (.k, 0x48500009, .mfcXq 5), (.s, 0x0C950003, .slli 9 10 3), (.x, 0x14507FFD, .bne 5 0 (-3)),
    (.l, 0x22800028, .call 1 40), (.s, 0x00310001, .fence 3 2), (.s, 0x00002C05, .tsig 11), (.k, 0x42078207, .barsync 15 7),
    (.k, 0x00003005, .tsig 12), (.s, 0x00003806, .twait 14), (.l, 0x2AB48040, .lstep 11 9 2 0), (.l, 0x28100202, .loopi 1 2 2),
    (.x, 0x26028036, .loop 0 5 0x36), (.x, 0x2612000A, .loop 1 4 10), (.s, 0x0282140A, .mul 8 4 5), (.k, 0x3F5A0001, .stw 21 20 0 1),
    (.k, 0x0D830010, .slli 24 6 16), (.k, 0x39AC8008, .ldd 26 25 0 8), (.k, 0x02E63411, .divw 14 12 13), (.k, 0x49A0002B, .mfc 26 0x2B),
    (.k, 0x480D812B, .mtc 27 0x2B), (.k, 0x00000004, .wfe 0), (.k, 0x19607FFE, .bge 22 0 (-2)), (.s, 0x0000080A, .ccwait 2),
    (.s, 0x44000004, .dsync 4)] = true := by decide +kernel

/-- Files 11, 12, 19, 20, 22 and 23. -/
theorem test_words_lsx : decodesTo [
    (.l, 0x80520028, .vld 0 1 9 2 2 0), (.l, 0x87120001, .probe 4 9 0 0 1), (.l, 0x8B54C810, .lda 5 10 3 1 1 0 0),
    (.l, 0x8D12C0E0, .nreq 4 9 12 3 1 0), (.s, 0x85925000, .stl 6 9 1 2 0 0 0), (.s, 0x94D2DB00, .amocas 3 9 3 3 12 0 0),
    (.s, 0x9792D020, .vradd 3 0 9 3 2 2 0 0), (.s, 0x8B54C810, .amomax 5 10 3 1 0 1 0 0), (.l, 0x84D60000, .vldb 1 1 11 0 0),
    (.s, 0x844F5000, .stl 1 7 5 2 0 0 0), (.l, 0x80160000, .vld 0 0 11 0 0 0), (.s, 0x80140000, .vst 0 10 0 0),
    (.s, 0x9912C000, .npub 4 9 12 0), (.l, 0x8EC00080, .nwait 3 8 0),
    (.x, 0x8099A119, .vadd { tX 4 12 13 0 2 1 with sync := 2, pb := 1 }), (.x, 0x8499A000, .vmul (tX 4 12 13 0 0 0)),
    (.x, 0x8699A010, .vfma (tX 4 12 13 0 0 1)), (.x, 0xACA80020, .vredadd (tX 5 4 0 0 0 2)), (.x, 0xE40BE010, .vxtr (tX 0 5 15 0 0 1)),
    (.x, 0x9C4BE101, .vcmp { tX 2 5 15 0 2 0 with pb := 1 }), (.x, 0x98B80020, .vexp2 (tX 5 12 0 0 0 2)), (.x, 0xA07A0410, .vcvt (tX 3 13 0 1 0 1)),
    (.x, 0xA06C0C90, .vcvt (tX 3 6 0 3 1 1)), (.x, 0x85C9E401, .vmul { tX 14 4 15 1 0 0 with pb := 1 }), (.x, 0xB93E0000, .vmov (tX 9 15 0 0 0 0)),
    (.x, 0xAE180022, .vredmax { tX 0 12 0 0 0 2 with pa := 1 }), (.x, 0x82E8C001, .vsub { tX 7 4 6 0 0 0 with pb := 1 }),
    (.x, 0xCEB54003, .vxor { tX 5 10 10 0 0 0 with pa := 1, pb := 1 }), (.x, 0x94AA0020, .vrcp (tX 5 5 0 0 0 2)),
    (.x, 0xBA800000, .vclr (tX 4 0 0 0 0 0))] = true := by decide +kernel

/-- The tables of files 13 and 14. -/
theorem test_words_k : decodesTo [
    (.k, 0x80052C01, .jcmd 10 11 0 1), (.k, 0x82900001, .jend 9 1), (.k, 0x84548001, .jwait 5 9 1), (.k, 0x86548000, .jpoll 5 9),
    (.k, 0x88500100, .jpop 5 1 0), (.k, 0x8A360000, .ringdef 3 12), (.k, 0x8C300002, .ringadv 3 2), (.k, 0x8E600007, .ringst 6 3 1),
    (.k, 0x90048005, .trap 9 5), (.k, 0x92000000, .tret), (.k, 0x94530001, .syscReadContext 5 6), (.k, 0x96548002, .mfs 5 9 2),
    (.k, 0x98049800, .mts 9 6 0), (.k, 0x9A000000, .yield), (.k, 0x9C000000, .tend), (.k, 0x9E548002, .lnch 5 9 2),
    (.k, 0xA0548000, .fcall 5 9), (.k, 0xA2628000, .fawait 6 5), (.k, 0xA4628000, .fpoll 6 5), (.k, 0xA6628000, .fcancel 6 5),
    (.k, 0xA8548001, .qtzrUntil 5 9), (.k, 0xAA54A800, .lttld 5 9 10), (.k, 0xAC000003, .dbg 3),
    (.k, 0x95700010, .syscPagerRequest 23)] = true := by decide +kernel

/-- R438 and file 21. -/
theorem test_words_ferle :
    decodeFerle 0x00C5850B = some (.fget 12 11 10) ∧ decodeFerle 0x0092968B = some (.fres 9 5 13) ∧ decodeFerle 0x00C5A50B = some (.fext 12 11 10) := by
  decide +kernel

/-- Reserved majors, selectors and fields have no instruction (R271, checks 1-3). -/
theorem test_words_rejected :
    [(StrandId.k, (0x4A000000 : IWord)), (.k, 0x0000000C), (.k, 0x00100005), (.l, 0x92000000), (.s, 0x9C000000), (.k, 0xAE000000), (.x, 0xE6000000),
      (.k, 0x0C950043), (.k, 0x48000200), (.k, 0x92000001), (.x, 0xBA800400)].all
      (fun p => (decodeWord p.1 p.2).toOption.isNone) = true := by
  decide +kernel

/-! ### Ill-formed terms -/

/-- Terms with a field that must be zero, and units the module has not, are not well formed. -/
theorem test_illformed : [
    Instr.mfc 1 9, .mtc 1 11, .vabs (tX 1 2 1 0 0 0), .vneg { tX 1 2 0 0 0 0 with pb := 1 }, .vrcp (tX 1 2 8 0 0 0), .vrsq (tX 1 2 4 0 0 0),
    .vexp2 (tX 1 2 2 0 0 0), .vlog2 { tX 1 2 0 0 0 0 with pb := 1 }, .vcmp { tX 1 2 3 0 0 0 with ma := 1 }, .vsel { tX 1 2 3 0 0 0 with ma := 1 },
    .vcvt { tX 1 2 3 0 0 0 with ma := 1 }, .vcvt { tX 1 2 3 0 0 0 with pb := 1 }, .vpack { tX 1 2 3 0 0 0 with ma := 1 },
    .vunpk { tX 1 2 3 0 0 0 with pb := 1 }, .vscacc (tX 1 2 3 1 0 0), .vredadd (tX 1 2 1 0 0 0), .vredmax { tX 1 2 0 0 0 0 with ma := 1 },
    .vredmin { tX 1 2 0 0 0 0 with pb := 1 }, .vmov (tX 1 2 1 0 0 0), .vclr (tX 1 2 0 0 0 0), .vclr (tX 1 0 0 0 1 0), .viabs (tX 1 2 1 0 0 0),
    .vmnot (tX 1 2 1 0 0 0), .vmpop (tX 1 2 0 0 0 0), .vmfirst (tX 0 2 1 0 0 0), .viota (tX 1 2 1 0 0 0), .vxtr (tX 1 2 3 0 0 0),
    .pagercfgWrite 256 0, .cssplitWrite 256 0, .cssplitChange 256, .ctxkillWrite 64, .ctxReset 64, .ctxResetComplete 64, .ctxEnable 64, .ctxDisable 64,
    .lqTailUpdate 64 0, .lqTailUpdate 0 32, .launchTake 0 32, .mscWindowEnable 8 0 0, .mscWindowDisable 0 64 0, .mscWindowFill 8 63, .mscFadeBoundary 8
    ].all (fun i => !i.wellFormed) = true := by
  decide +kernel

/-! ### The manual's worked values -/

/-- A small core with handle 5 of file 01's worked translation. -/
def tWorked : State := onC (tState .l) fun c => { c with view :=
  { ctx := 9, sup := false, htb := 0, htn := 6, snap := cellWrite [] 0xA0 (wordsBytes [0x0000001200000000, 0x8000000000100000, 0x0000000300000000, 0])
    ltt := [(0x1000001200010001, 0x1300003456780000)], draw := 0 } }

/-- File 01: the access goes to 0x0034_5678_2340. -/
theorem test_worked_translation : (spansOf (tWorked.access .load 0x0050000000012340 128)).map (fun p => (p.place, p.addr, p.len)) =
    [(.mem, 0x003456782340, 128)] := by
  decide +kernel

/-- File 01: the outcomes beside it, `HBOUND` twice and `NULLH`. -/
theorem test_worked_denials :
    tWorked.access .load 0x00500000000FFFC0 128 = .error (.fatal 0x81 0x00500000000FFFC0) ∧
    tWorked.access .load 0x0051000000000000 128 = .error (.fatal 0x81 0x0051000000000000) ∧
    tWorked.access .load 0x0000000000000040 128 = .error (.fatal 0x83 0x0000000000000040) := by
  decide +kernel

/-- R281: the five words of a 64-bit constant. -/
theorem test_movhi_chain :
    (nextOr tK (exec (.movhi 9 9 0x2340) ((tState .k).setG 9 0x000000A000000002))).g 9 = 0x0050000000012340 := by
  decide +kernel

/-- R279: a zero divisor and an overflow. -/
theorem test_divisions :
    (nextOr tK (exec (.rem 9 10 0) ((tState .k).setG 10 7))).g 9 = 7 ∧
    (nextOr tK (exec (.divw 9 10 0) ((tState .k).setG 10 7))).g 9 = 0xFFFFFFFFFFFFFFFF ∧
    (nextOr tK (exec (.div 9 10 11) (((tState .k).setG 10 0x8000000000000000).setG 11 0xFFFFFFFFFFFFFFFF))).g 9 = 0x8000000000000000 := by
  decide +kernel

/-- File 12: 470.0 as E4M3 overflows to 0x7F, or to 0x7E with `SAT` (R237). -/
theorem test_e4m3_saturates :
    (Fmt.convert .f32 .e4m3 0 false 0x43EB0000).1 = 0x7F ∧ (Fmt.convert .f32 .e4m3 0 true 0x43EB0000).1 = 0x7E ∧
    (Fmt.convert .f32 .e4m3 0 false 0x43EB0000).2 = (Fmt.convert .f32 .e4m3 0 true 0x43EB0000).2 := by
  decide +kernel

/-- R426: L, X and S have executed `JOIN` and K waits on a token. -/
theorem test_deadlock_value :
    (nextOr tK (exec (.deadlockDetect 0) (onC (withCode tK 0x104 (codeOf [.nop, .nop, .twait 3])) fun c => { c with
        tvec := 0x0010000000000400, l := { c.l with parked := true }, x := { c.x with parked := true }, s := { c.s with parked := true } }))).core.bank1.val = 0x1666 := by
  decide +kernel

/-- R265: the all-zero word is `NOP` in every strand. -/
theorem test_zero_is_nop : [StrandId.l, .x, .s, .k].all (fun σ => decide (decodeWord σ 0 = .ok .nop)) = true := by decide +kernel

/-! ### Single steps -/

/-- The first instruction after reset. -/
theorem test_first_word : (nextOr tK (step (State.reset.withFetchWord 32 0x0495003F))).core.k.get 9 = 0x3F := by decide +kernel

/-- A byte store writes one byte, at the highest address of its handle, in the writer's own copy (R55, R67). -/
theorem test_store_low_byte :
    (nextOr tK (exec (.writeCompletion 0) (nextOr tK (exec (.stb 9 6 0 0) (((tState .s).setG 6 0x001000000000FFFF).setG 9 0x1FF))))).coh.copies.map
      (fun c => (c.ctx, c.sline, c.data.getLast?)) = [(0, 127, some 0xFF)] := by
  decide +kernel

/-- A sum wraps and a source may be the destination. -/
theorem test_add_wraps : (nextOr tK (exec (.add 9 9 9) ((tState .s).setG 9 0x8000000000000001))).g 9 = 2 := by decide +kernel

/-- `MOVHI` to g0 writes nothing. -/
theorem test_g0 : (nextOr tK (exec (.movhi 0 0 5) (tState .s))).g 0 = 0 := by decide +kernel

/-! ### States and operands that meet the hypotheses of every statement -/

theorem witness_RegisterArithmetic :
    (let s := ((tState .k).setG 6 0xFFFFFFFFFFFFFFFB).setG 7 0x43; Fresh s ∧ Written s [5, 6, 7]) := by
  decide +kernel

theorem witness_CountsAndDivisions_BitCounts :
    (let s := (tState .l).setG 6 0; Fresh s ∧ Written s [5, 6] ∧ s.g 6 = 0) ∧
    (let s := (tState .l).setG 6 0x8000000000000000; let n := 0; Fresh s ∧ Written s [5, 6] ∧ (s.g 6).getLsbD (63 - n) = true ∧ (s.g 6).getLsbD 63 = true ∧ (List.range 63).all fun i => !(s.g 6).getLsbD i) := by
  refine ⟨?_, ?_⟩ <;> decide +kernel

theorem witness_CountsAndDivisions_Divisions :
    (let s := ((tState .k).setG 6 0x8000000000000000).setG 7 0xFFFFFFFFFFFFFFFF; Fresh s ∧ Written s [5, 6, 7] ∧ s.g 7 ≠ 0 ∧ low32 (s.g 7) ≠ 0) ∧
    (let s := (tState .k).setG 6 5; Fresh s ∧ Written s [5, 6, 0] ∧ s.g 0 = 0 ∧ low32 (s.g 0) = 0 ∧ s.core.trapen.getLsbD 0 = false) ∧
    (let s := onC ((tState .k).setG 6 5) fun c => { c with trapen := 1 }; Fresh s ∧ Written s [5, 6, 0] ∧ s.core.trapen.getLsbD 0 = true ∧ s.g 0 = 0) := by
  refine ⟨?_, ?_, ?_⟩ <;> decide +kernel

theorem witness_ImmediateForms :
    (let s := (tState .x).setG 6 0xFFFFFFFF00000001; Fresh s ∧ Written s [5, 6]) := by
  decide +kernel

theorem witness_BranchesAndJumps_Branches :
    (let s := ((tState .k).setG 6 3).setG 7 3; Fresh s ∧ Written s [6, 7] ∧ MayTransfer s ∧ s.innermost = none ∧ Admits s (s.here + 8) ∧ s.g 6 = s.g 7) ∧
    (let s := onC tBundle fun c => { c with k := { c.k with pc := 0x001000000000010C } }; Fresh s ∧ Written s [0, 0] ∧ MayTransfer s ∧ ¬Admits s (s.here + 4)) := by
  refine ⟨?_, ?_⟩ <;> decide +kernel

theorem witness_BranchesAndJumps_Jumps :
    (let s := (tState .k).setG 6 0x0010000000000200; Fresh s ∧ MayTransfer s ∧ Written s [7] ∧ Written s [6] ∧ s.innermost = none ∧ Admits s (s.here + 16) ∧ (s.g 6).toNat % 4 = 0 ∧ Admits s (s.g 6)) ∧
    (let s := (tState .k).setG 6 2; Fresh s ∧ MayTransfer s ∧ Written s [6] ∧ (s.g 6).toNat % 4 ≠ 0) ∧
    (let s := (tState .k).modLevel .k 0 fun l => { l with beg := 0x0010000000000100, fin := 0x0010000000000110, cnt := 3, active := true }; Fresh s ∧ MayTransfer s ∧ Written s [7] ∧ Written s [6] ∧ s.innermost ≠ none) ∧
    (let s := onC tBundle fun c => { c with k := { c.k with pc := 0x001000000000010C } }; Fresh s ∧ MayTransfer s ∧ Written s [7] ∧ ¬Admits s (s.here + 4)) := by
  refine ⟨?_, ?_, ?_, ?_⟩ <;> decide +kernel

theorem witness_WindowedCalls :
    (let s := (tState .k).setG 9 0x0010000000000200; let v := s.modMe fun t => { t with wb := t.wb + 16 }; Fresh s ∧ MayTransfer s ∧ s.innermost = none ∧ (1 : BitVec 2) ≠ 3 ∧ s.me.depth ≠ 65535 ∧
  spillGo 4 (s.modMe fun t => { t with wb := t.wb + 8 * ((1 : BitVec 2).toNat + 1) }) = .ok v ∧ v.core.busyKey v.cur (v.me.key 31) = false ∧
  Admits s (s.here + 16) ∧ Written s [9] ∧ (s.g 9).toNat % 4 = 0 ∧ Admits s (s.g 9) ∧ s.me.wb + 8 * ((1 : BitVec 2).toNat + 1) + 24 - s.me.sb ≤ 96) ∧
    (let s := ((tState .k).modMe fun t => { t with wb := 16, depth := 1 }).setG 31 0x0011000000000200; let v := s.modMe fun t => { t with wb := 0, depth := 0 }; Fresh s ∧ MayTransfer s ∧ s.innermost = none ∧ Written s [31] ∧ s.me.depth ≠ 0 ∧ bitsAt (s.g 31) 50 2 = 0 ∧ bitsAt (s.g 31) 48 2 ≠ 3 ∧
  Admits s (setBits (s.g 31) 48 4 0) ∧
  fillGo 4 (s.modMe fun t => { t with wb := t.wb - 8 * (bitsAt (s.g 31) 48 2 + 1), depth := t.depth - 1 }) = .ok v) ∧
    (let s := tState .s; Fresh s ∧ MayTransfer s ∧ Written s [31] ∧ s.me.depth = 0) ∧
    (let s := (tState .k).modLevel .k 0 fun l => { l with beg := 0x0010000000000100, fin := 0x0010000000000110, cnt := 3, active := true }; Fresh s ∧ MayTransfer s ∧ Written s [31] ∧ Written s [6] ∧ s.innermost ≠ none) ∧
    (let s := ((onC tBundle fun c => { c with k := { c.k with pc := 0x001000000000010C, depth := 1, wb := 16 } }).setG 6 0x0010000000000204).setG 31 0x0011000000000204; let v := s.modMe fun t => { t with wb := t.wb + 16 }; let v' := s.modMe fun t => { t with wb := 0, depth := 0 }; Fresh s ∧ MayTransfer s ∧ s.innermost = none ∧ spillGo (spillsDue s 1) (s.modMe fun t => { t with wb := t.wb + 8 * ((1 : BitVec 2).toNat + 1) }) = .ok v ∧
  v.core.busyKey v.cur (v.me.key 31) = false ∧ ¬Admits s (s.here + 4) ∧ Written s [6] ∧ ¬Admits s (s.g 6) ∧ Written s [31] ∧ s.me.depth ≠ 0 ∧
  bitsAt (s.g 31) 50 2 = 0 ∧ bitsAt (s.g 31) 48 2 ≠ 3 ∧ ¬Admits s (setBits (s.g 31) 48 4 0) ∧
  fillGo (fillsDue s) (s.modMe fun t => { t with wb := t.wb - 8 * (bitsAt (s.g 31) 48 2 + 1), depth := t.depth - 1 }) = .ok v') := by
  refine ⟨?_, ?_, ?_, ?_, ?_⟩ <;> decide +kernel

theorem witness_Loops_LoopStart :
    (let s := (tState .k).setG 6 4; Fresh s ∧ MayTransfer s ∧ Written s [6] ∧ LoopMay s 2 5 ∧ s.g 6 ≠ 0) ∧
    (let s := tState .x; Fresh s ∧ MayTransfer s ∧ Written s [0] ∧ LoopMay s 5 1 ∧ s.g 0 = 0 ∧ Admits s (bodyEnd s 1 + BitVec.ofNat 64 s.unit)) ∧
    (let s := tState .x; Fresh s ∧ MayTransfer s ∧ Written s [0] ∧ ¬LoopMay s 6 1) := by
  refine ⟨?_, ?_, ?_⟩ <;> decide +kernel

theorem witness_Loops_LoopWords :
    (let s := (tState .l).setG 6 64; Fresh s ∧ (5 : BitVec 3).toNat < 6 ∧ Written s [6] ∧ (s.level 5).active = false ∧ s.core.tl = 0) ∧
    (let s := (tState .l).modLevel .l 0 fun l => { l with beg := 0x0010000000000100, fin := 0x0010000000000110, cnt := 3, active := true }; Fresh s ∧ MayTransfer s ∧ Written s [6] ∧ (s.level 0).active = true ∧ s.core.tl = 0 ∧
  ((s.innermost.map fun l => decide (s.here.toNat + 3 * s.unit ≤ l.fin.toNat)) = some true) ∧ s.innermost ≠ none ∧
  Admits s ((s.level 0).fin + BitVec.ofNat 64 s.unit)) := by
  refine ⟨?_, ?_⟩ <;> decide +kernel

theorem witness_Loops_LoopEndTest :
    (let s := (tState .l).modLevel .l 1 fun l => { l with beg := 0x00100000000000F0, fin := 0x0010000000000100, cnt := 3, done := 1, active := true, slots := [{ reg := 6, strand := .l, stride := 8 }] }; s.endLevels = [1] ∧ s.stepsBusy = false ∧ ((s.level 1).done + 1).toNat < (s.level 1).cnt.toNat) ∧
    (let s := (tState .l).modLevel .l 1 fun l => { l with beg := 0x00100000000000F0, fin := 0x0010000000000100, cnt := 3, done := 2, active := true, slots := [{ reg := 6, strand := .l, stride := 8 }] }; s.endLevels = [1] ∧ s.stepsBusy = false ∧ (s.level 1).cnt.toNat ≤ ((s.level 1).done + 1).toNat) := by
  refine ⟨?_, ?_⟩ <;> decide +kernel

theorem witness_FencesTokensAndSyncBits_FencesAndEvents :
    (let s := tState .s; Fresh s ∧ s.me.fence = none ∧ s.fenceMet 5 3 = true ∧ s.fenceMet 2 1 = true ∧ s.effScope 3 ≠ 4) ∧
    (let s := tGroup; Fresh s ∧ s.effScope 4 = 4) ∧
    (let s := (tState .s).modMe fun t => { t with pend := 5 }; Fresh s ∧ Written s [6] ∧ s.me.pend ≠ 0) ∧
    (let s := tState .x; Fresh s ∧ Written s [6] ∧ s.me.pend = 0) ∧
    (let s := (tState .l).withOp ((tState .l).newOp 0x0010000000000000 (.store [{ place := .mem, addr := 0, len := 8, grain := 0, pol := 0 }] (zeroBytes 8)) .none none 0 0 none false); Fresh s ∧ s.fenceMet 5 2 = false) := by
  refine ⟨?_, ?_, ?_, ?_, ?_⟩ <;> decide +kernel

theorem witness_FencesTokensAndSyncBits_FencesUnderWay :
    (let s := (tState .l).modMe fun t => { t with stage := 1 }; s.me.stage = 1 ∧ Landed s ∧ s.fenceMet 5 4 = true ∧ (fenceReleases s 5).fenceTurn = true) ∧
    (let s := (tState .l).modMe fun t => { t with stage := 1, fence := some (10, 0, 3) }; s.me.stage = 1 ∧ Landed s ∧ s.fenceMet 3 4 = true ∧ (fenceReleases s 3).fenceTurn = false) ∧
    (let s := ((tState .l).withOp ((tState .l).newOp 0x0010000000000000 (.store [{ place := .mem, addr := 0, len := 8, grain := 0, pol := 0 }] (zeroBytes 8)) .none none 0 0 none false)).modMe fun t => { t with stage := 1 }; s.me.stage = 1 ∧ Landed s ∧ s.fenceMet 3 4 = false) := by
  refine ⟨?_, ?_, ?_⟩ <;> decide +kernel

theorem witness_FencesTokensAndSyncBits_Tokens :
    (let s := onC (tState .l) fun c => c.setToken 4 1; Fresh s ∧ GivesTo s 1 ∧ s.core.token 1 + s.core.reserved 1 < 63 ∧ Quiet s ∧ TakesFrom s 4 ∧ 0 < s.core.token 4 ∧ Written s [6] ∧ TakesFrom s 8 ∧
  s.core.token 8 = 0 ∧ ¬GivesTo s 0 ∧ ¬GivesTo s 6 ∧ ¬TakesFrom s 0 ∧ ¬TakesFrom s 6) ∧
    (let s := (tState .l).withOp ((tState .l).newOp 0x0010000000000000 (.store [{ place := .mem, addr := 0, len := 8, grain := 0, pol := 0 }] (zeroBytes 8)) .none none 0 0 none false); Fresh s ∧ GivesTo s 1 ∧ s.core.token 1 + s.core.reserved 1 < 63 ∧ ¬Quiet s) ∧
    (let s := onC (tState .l) fun c => (c.setToken 3 60).setResv 3 3; Fresh s ∧ GivesTo s 3 ∧ 63 ≤ s.core.token 3 + s.core.reserved 3) := by
  refine ⟨?_, ?_, ?_⟩ <;> decide +kernel

theorem witness_FencesTokensAndSyncBits_SyncBits :
    (let s := onC (tState .l) fun c => { c with cc := 2 }; Fresh s ∧ Quiet s ∧ s.core.cc.getLsbD 1 = true ∧ s.core.cc.getLsbD 15 = false) ∧
    (let s := (tState .l).withOp ((tState .l).newOp 0x0010000000000000 (.store [{ place := .mem, addr := 0, len := 8, grain := 0, pol := 0 }] (zeroBytes 8)) .none none 0 0 none false); Fresh s ∧ ¬Quiet s) := by
  refine ⟨?_, ?_⟩ <;> decide +kernel

theorem witness_Modes :
    (let s := (tBundle.setG 6 0x0010000000000200).setG 7 0x0010000000000300; let r := s.loopTests .k 16 s.endLevels (s.core.k.pc + 4); (Fresh s ∧ s.core.tl = 0 ∧ s.stepsBusy = false ∧ s.cur = .k ∧ s.core.split = false ∧ Written s [6, 7, 0] ∧ Quiet s ∧
  (∀ x ∈ [(6 : BitVec 5), 7, 0], (s.g x).toNat % 4 = 0 ∧ s.startOk (s.g x) = .ok ()) ∧ s.loopTests .k 16 s.endLevels (s.core.k.pc + 4) = (r.1, r.2))) ∧
    (let s := onC (tState .k) fun c => { c with l := { c.l with parked := true }, x := { c.x with parked := true }, s := { c.s with parked := true } }; let r := s.loopTests .k 4 s.endLevels s.pcNext; Fresh s ∧ s.core.tl = 0 ∧ s.stepsBusy = false ∧ s.cur = .k ∧ s.core.split = true ∧ s.pcNext.toNat % 16 = 0 ∧ s.core.l.parked = true ∧ s.core.x.parked = true ∧
  s.core.s.parked = true ∧ s.loopTests .k 4 s.endLevels s.pcNext = (r.1, r.2)) ∧
    (let s := tState .k; Fresh s ∧ s.core.tl = 0 ∧ s.stepsBusy = false ∧ s.cur = .k ∧ s.core.split = true ∧ s.pcNext.toNat % 16 = 0 ∧ (s.core.l.parked && s.core.x.parked && s.core.s.parked) = false) ∧
    (let s := onC (tState .x) fun c => { c with flight := [{ n := 0, due := 5, flags := 0, sig := false }] }; let u := s.landCore s.core.idx Core.landAll; let r := (u.withCc 3 true).countIssue.loopTests s.cur 4 (u.withCc 3 true).countIssue.endLevels u.pcNext; Fresh s ∧ s.core.tl = 0 ∧ s.stepsBusy = false ∧ s.cur ≠ .k ∧ s.cur = .x ∧ s.core.split = true ∧ u.core.strandLanded s.cur = true ∧
  (u.withCc 3 true).countIssue.loopTests s.cur 4 (u.withCc 3 true).countIssue.endLevels u.pcNext = (r.1, r.2)) ∧
    (let s := (tState .l).withOp ((tState .l).newOp 0x0010000000000000 (.store [{ place := .mem, addr := 0, len := 8, grain := 0, pol := 0 }] (zeroBytes 8)) .none none 0 0 none false); Fresh s ∧ s.core.tl = 0 ∧ s.stepsBusy = false ∧ s.cur ≠ .k ∧ s.core.split = true ∧ s.cur ≠ .x ∧ s.core.strandLanded s.cur = false) := by
  refine ⟨?_, ?_, ?_, ?_, ?_⟩ <;> decide +kernel

theorem witness_BarriersAndDomains_NamedBarriers :
    (let s := tState .l; let v := s.core.bar 7; Fresh s ∧ s.core.bars.length = 256 ∧ (3 : BitVec 4).getLsbD s.cur.num = true ∧ v.a.getLsbD s.cur.num = false ∧ v.a = 0 ∧ Quiet s ∧
  (barArrives v 3 s.cur.num).a ≠ 0 ∧ (barArrives v 1 s.cur.num).a = 0 ∧ (2 : BitVec 4).getLsbD s.cur.num = false) ∧
    (let s := ((tState .l).withOp ((tState .l).newOp 0x0010000000000000 (.store [{ place := .mem, addr := 0, len := 8, grain := 0, pol := 0 }] (zeroBytes 8)) .none none 0 0 none false)); let v := s.core.bar 7; Fresh s ∧ s.core.bars.length = 256 ∧ (3 : BitVec 4).getLsbD s.cur.num = true ∧ v.a.getLsbD s.cur.num = false ∧ v.a = 0 ∧ ¬Quiet s) ∧
    (let s := (tState .l).withBar 255 { p := 3, a := 1, phase := false }; let v := s.core.bar 255; Fresh s ∧ s.core.bars.length = 256 ∧ (3 : BitVec 4).getLsbD s.cur.num = true ∧ v.a.getLsbD s.cur.num = true) ∧
    (let s := (tState .x).withBar 0 { p := 3, a := 1, phase := false }; let v := s.core.bar 0; Fresh s ∧ s.core.bars.length = 256 ∧ (7 : BitVec 4).getLsbD s.cur.num = true ∧ v.a.getLsbD s.cur.num = false ∧ v.a ≠ 0 ∧ v.p ≠ 7) := by
  refine ⟨?_, ?_, ?_, ?_⟩ <;> decide +kernel

theorem witness_BarriersAndDomains_DomainSync :
    (let s := tBundle; s.me.wait ≠ stranded ∧ Fresh s ∧ s.core.tl = 0 ∧ s.core.split = false ∧ s.cur = .k ∧ Quiet s ∧ s.drainedNow s.core.idx (s.effScope 0) = true ∧
  s.core.l.stage ≠ 2 ∧ s.core.x.stage ≠ 2 ∧ s.core.s.stage ≠ 2) ∧
    (let s := tState .x; s.me.wait ≠ stranded ∧ Fresh s ∧ s.core.tl = 0 ∧ s.core.split = true ∧ Quiet s ∧ s.drainedNow s.core.idx (s.effScope 0) = true ∧ .k ≠ s.cur ∧
  (s.strand .k).stage ≠ 2 ∧ (s.strand .k).parked = false ∧ dmemId s.core.dmem 1 = 0) ∧
    (let d : Domain := { level := 1, id := 1, ctx := 0, launch := 0, index := 0, members := 1, arrived := 0, phase := 0, mods := [], firstAt := 0, lastAt := 0, sumAt := 0, lastCore := 0 }; let s := onC { tState .k with lm := { State.reset.lm with tasks := [{ tTask with doms := [1, 0, 0, 0] }], nextTask := 1, domains := [d] } } fun c => { c with   dmem := 0x10000, l := { c.l with parked := true }, x := { c.x with parked := true }, s := { c.s with parked := true } }; let t := s.dsyncArrive 1; s.me.wait ≠ stranded ∧ Fresh s ∧ s.core.tl = 0 ∧ dmemId s.core.dmem 1 ≠ 0 ∧ (s.domainOf s.core.view.ctx 1 (dmemId s.core.dmem 1)).isSome = true ∧ Quiet s ∧
  s.drainedNow s.core.idx (s.effScope 1) = true ∧ t.me.stage = 1) ∧
    (let s := onC (tState .k) fun c => { c with dmem := 0x10000 }; s.me.wait ≠ stranded ∧ Fresh s ∧ s.core.tl = 0 ∧ dmemId s.core.dmem 1 ≠ 0 ∧ s.domainOf s.core.view.ctx 1 (dmemId s.core.dmem 1) = none) ∧
    (let s := (tState .s).modMe fun t => { t with stage := 1 }; s.me.wait ≠ stranded ∧ s.me.stage = 1 ∧ Landed s ∧ s.core.tl = 0) := by
  refine ⟨?_, ?_, ?_, ?_, ?_⟩ <;> decide +kernel

theorem witness_ControlRegisters_ControlReads :
    (let s := onC (tState .k) fun c => { (c.setQueue 16 [tEntry 99]) with xfctl := 0x113, bank1 := { c.bank1 with cause := 77 }, specst := 2 }; Fresh s ∧ Written s [6] ∧ QueueHead s 16 (tEntry 99) []) ∧
    (let s := tState .k; Fresh s ∧ Written s [6] ∧ s.core.queue 16 = []) ∧
    (let s := onC (tState .k) fun c => c.setQueue 16 [{ data := 0, due := 9, src := 0, landed := false }]; Fresh s ∧ Written s [6] ∧ s.core.queue 16 = [{ data := 0, due := 9, src := 0, landed := false }] ∧ s.cur = .k) ∧
    (let s := tState .l; Fresh s ∧ Written s [6] ∧ s.cur ≠ .k) := by
  refine ⟨?_, ?_, ?_, ?_⟩ <;> decide +kernel

theorem witness_ControlRegisters_ControlWrites :
    (let s := onC ((tSup).setG 6 0x10800) fun c => { c with tl := 1 }; Fresh s ∧ Written s [6] ∧ s.g 6 = 0x10800 ∧ s.sup = true ∧ s.core.tl ≠ 0 ∧ (s.core.queue 15).length < 8 ∧ bitsAt (0x10800 : Word) 48 4 = 0 ∧ bitsAt (0x10800 : Word) 0 2 = 0 ∧
  bitsAt (0x10800 : Word) 0 6 = 0 ∧ s.me.sb = 0 ∧ (s.ownLevel 2).active = false) ∧
    (let s := onC (((tState .l).setG 6 3).modLevel .l 1 fun l => { l with active := true }) fun c => c.setQueue 15 (List.replicate 8 (tEntry 0)); Fresh s ∧ Written s [6] ∧ s.g 6 = 3 ∧ s.sup = false ∧ s.cur ≠ .k ∧ bitsAt (3 : Word) 0 6 ≠ 0 ∧ (s.ownLevel 1).active = true) ∧
    (let s := onC ((tState .k).setG 6 3) fun c => c.setQueue 15 (List.replicate 8 (tEntry 0)); Fresh s ∧ Written s [6] ∧ s.g 6 = 3 ∧ s.cur = .k ∧ 8 ≤ (s.core.queue 15).length ∧ bitsAt (3 : Word) 0 2 ≠ 0) := by
  refine ⟨?_, ?_, ?_⟩ <;> decide +kernel

theorem witness_SyncField :
    (let s := onC (tState .x) fun c => c.setToken 1 2; partners s.cur = some (.l, .s) ∧ 0 < s.core.token 1 ∧ s.core.token 6 + s.core.reserved 6 < 63) ∧
    (let s := onC (tState .x) fun c => c.setToken 6 63; partners s.cur = some (.l, .s) ∧ s.core.token 1 = 0 ∧ 63 ≤ s.core.token 6 + s.core.reserved 6) := by
  refine ⟨?_, ?_⟩ <;> decide +kernel

theorem witness_ScalarLoadsAndStores_ScalarLoads :
    (let s := onC ((tState .x).setG 6 0x0010000000000040) fun c => c.setToken 1 2; let p := synced s 3; let a := baseOff s 6 (1 : BitVec 13) 2; let ss := spansOf (p.1.access .load a 2); Fresh s ∧ Written s [6, 9] ∧ s.syncTake 3 = .ok (p.1, p.2) ∧ p.1.access .load a 2 = .ok ss ∧ devSpan ss = none) ∧
    (let s := (tState .x).setG 6 0x0020000000000040; let a := baseOff s 6 (0x1FFF : BitVec 13) 8; let ss := spansOf (s.access .loadD a 8); Fresh s ∧ Written s [6, 0] ∧ s.syncTake 0 = .ok (s, none) ∧ s.access .loadD a 8 = .ok ss ∧ devSpan ss = none) ∧
    (let s := (tState .x).setG 6 0x0090000000000040; let a := baseOff s 6 (1 : BitVec 13) 4; Fresh s ∧ Written s [6, 9] ∧ s.syncTake 0 = .ok (s, none) ∧ (s.access .load a 4).toOption = none) := by
  refine ⟨?_, ?_, ?_⟩ <;> decide +kernel

theorem witness_ScalarLoadsAndStores_ScalarStores :
    (let s := ((tState .s).setG 6 0x0010000000000040).setG 9 0x123456789; let a := baseOff s 6 (1 : BitVec 13) 4; let ss := spansOf (s.access .store a 4); Fresh s ∧ Written s [6, 9] ∧ s.syncTake 0 = .ok (s, none) ∧ s.access .store a 4 = .ok ss ∧ devSpan ss = none ∧ (ss.all fun p => p.place != .window) = true) ∧
    (let s := ((tState .k).setG 6 0x0020000000000040).setG 9 0x123456789; let a := baseOff s 6 (0 : BitVec 13) 8; let ss := spansOf (s.access .storeD a 8); Fresh s ∧ Written s [6, 9] ∧ s.syncTake 0 = .ok (s, none) ∧ s.access .storeD a 8 = .ok ss ∧ devSpan ss = none ∧ (ss.all fun p => p.place != .window) = true) ∧
    (let s := onC (((tState .s).setG 6 0x0030000000000040).setG 9 0x123456789) fun c => { c with view := tWindowView }; let a := baseOff s 6 (1 : BitVec 13) 4; let ss := spansOf (s.access .store a 4); let p := ss.headD ⟨.mem, 0, 0, 0, 0⟩; Fresh s ∧ Written s [6, 9] ∧ s.syncTake 0 = .ok (s, none) ∧ s.access .store a 4 = .ok ss ∧ devSpan ss = none ∧ ss.find? (fun p => p.place == .window) = some p ∧
  s.windowFull s.core.cluster p.pol ((ss.map windowUnits).sum) = false) ∧
    (let s := onC (((tState .s).setG 6 0x0030000000000040).setG 9 0x123456789) fun c => { c with view := tWindowView }; let z := s.windowCount s.core.cluster 3 1024; let a := baseOff z 6 (1 : BitVec 13) 8; let ss := spansOf (z.access .storeD a 8); let p := ss.headD ⟨.mem, 0, 0, 0, 0⟩; Fresh z ∧ Written z [6, 9] ∧ z.syncTake 0 = .ok (z, none) ∧ z.access .storeD a 8 = .ok ss ∧ devSpan ss = none ∧ ss.find? (fun p => p.place == .window) = some p ∧
  z.windowFull z.core.cluster p.pol ((ss.map windowUnits).sum) = true) := by
  refine ⟨?_, ?_, ?_, ?_⟩ <;> decide +kernel

theorem witness_VectorLoadsAndProbes_VectorLoads :
    (let s := ((tState .l).setG 6 0x0010000000000100).setG 9 32; let a := baseOff s 6 (1 : BitVec 13) 128; let ss := spansOf (s.access .load a 128); let a2 := baseOff s 6 (3 : BitVec 8) 4; let ss2 := spansOf (s.accessAll .load 4 (strided a2 (s.g 9) 32)); let a3 := baseOff s 6 (0 : BitVec 13) 128; let ss3 := spansOf (s.access .load a3 256); let a4 := baseOff s 6 (3 : BitVec 13) 2; let ss4 := spansOf (s.access .load a4 2); Fresh s ∧ s.cur = .l ∧ s.syncTake 0 = .ok (s, none) ∧ Written s [6, 9] ∧ s.access .load a 128 = .ok ss ∧ QueueRoom s 12 2 ∧
  a2.toNat % 4 = 0 ∧ (s.g 9).toNat % 4 = 0 ∧ s.accessAll .load 4 (strided a2 (s.g 9) 32) = .ok ss2 ∧ QueueRoom s 13 1 ∧
  s.access .load a3 256 = .ok ss3 ∧ a3.toNat % 256 = 0 ∧ s.access .load a4 2 = .ok ss4) ∧
    (let s := onC ((tState .l).setG 6 0x0010000000000100) fun c => c.setQueue 12 (List.replicate 8 (tEntry 0)); let a := baseOff s 6 (1 : BitVec 13) 128; let ss := spansOf (s.access .load a 128); Fresh s ∧ s.cur = .l ∧ s.syncTake 0 = .ok (s, none) ∧ Written s [6] ∧ s.access .load a 128 = .ok ss ∧ ¬QueueRoom s 12 1) ∧
    (let s := ((tState .l).setG 6 0x0010000000000104).setG 9 33; Fresh s ∧ s.cur = .l ∧ s.syncTake 0 = .ok (s, none) ∧ Written s [6, 9] ∧ (baseOff s 6 (1 : BitVec 13) 128).toNat % 64 ≠ 0 ∧ (s.g 9).toNat % 4 ≠ 0) := by
  refine ⟨?_, ?_, ?_⟩ <;> decide +kernel

theorem witness_VectorLoadsAndProbes_ProbesAndAcquires :
    (let s := ((tState .l).setG 6 0x0010000000000100).setG 4 500; let ss := spansOf (s.access .load (baseOff s 6 (1 : BitVec 13) 128) 128); let ss2 := spansOf (s.access .load (baseOff s 6 (1 : BitVec 7) 8) 8); Fresh s ∧ s.cur = .l ∧ Written s [6, g3 4] ∧ g3 4 = 4 ∧ (s.checks s.core.view s.core.cluster (intentKind 1) true (baseOff s 6 (1 : BitVec 13) 128) 500).toOption.isSome ∧
  (1 : BitVec 3).toNat < 3 ∧ s.checks s.core.view s.core.cluster .load false (baseOff s 6 (1 : BitVec 13) 128) 128 = .ok ss ∧ s.syncTake 0 = .ok (s, none) ∧
  (baseOff s 6 (1 : BitVec 7) 8).toNat % 8 = 0 ∧ s.access .load (baseOff s 6 (1 : BitVec 7) 8) 8 = .ok ss2) ∧
    (let s := ((tState .l).setG 6 0x0010000000000100).setG 4 0x20000; let a := baseOff s 6 (1 : BitVec 13) 128; Fresh s ∧ s.cur = .l ∧ Written s [6, g3 4] ∧ s.syncTake 0 = .ok (s, none) ∧ s.g (g3 4) ≠ 0 ∧ s.checks s.core.view s.core.cluster (intentKind 1) true a 0x20000 = .error (2, 0xFE80)) ∧
    (let s := (tState .l).setG 6 0x0090000000000100; let a := baseOff s 6 (1 : BitVec 13) 128; Fresh s ∧ s.cur = .l ∧ Written s [6, g3 4] ∧ s.syncTake 0 = .ok (s, none) ∧ (2 : BitVec 3).toNat < 3 ∧ s.checks s.core.view s.core.cluster .store false a 128 = .error (1, 0) ∧ s.g (g3 4) = 0) := by
  refine ⟨?_, ?_, ?_⟩ <;> decide +kernel

theorem witness_VectorStores :
    (let s := onC (((tState .s).setG 6 0x0010000000000100).setG 9 32) fun c => c.setQueue 14 [tEntry 0x112233]; let a := baseOff s 6 (1 : BitVec 13) 128; let ss := spansOf (s.access .store a 64); let a2 := baseOff s 6 (2 : BitVec 8) 2; let ss2 := spansOf (s.accessAll .store 2 (strided a2 (s.g 9) 64)); let a3 := baseOff s 6 (1 : BitVec 7) 8; let ss3 := spansOf (s.access .store a3 8); let a4 := baseOff s 6 (0 : BitVec 7) 128; let ss4 := spansOf (s.access .amo a4 128); Fresh s ∧ s.cur = .s ∧ s.syncTake 0 = .ok (s, none) ∧ Written s [6, 9, g3 4] ∧
  s.access .store a 64 = .ok ss ∧ QueueHead s 14 (tEntry 0x112233) [] ∧ a2.toNat % 2 = 0 ∧ (s.g 9).toNat % 2 = 0 ∧
  s.accessAll .store 2 (strided a2 (s.g 9) 64) = .ok ss2 ∧ a3.toNat % 8 = 0 ∧ s.access .store a3 8 = .ok ss3 ∧ a4.toNat % 128 = 0 ∧ s.access .amo a4 128 = .ok ss4 ∧
  ((ss ++ ss2 ++ ss3).all fun p => p.place != .window) = true ∧ QueueHeads s 14 [tEntry 0x112233] []) ∧
    (let s := (tState .s).setG 6 0x0010000000000100; let ss := spansOf (s.access .store (baseOff s 6 (1 : BitVec 13) 128) 32); let ss4 := spansOf (s.access .amo (baseOff s 6 (0 : BitVec 7) 256) 256); Fresh s ∧ s.cur = .s ∧ s.syncTake 0 = .ok (s, none) ∧ Written s [6] ∧ s.access .store (baseOff s 6 (1 : BitVec 13) 128) 32 = .ok ss ∧ (s.core.queue 14).length < 1 ∧
  s.access .amo (baseOff s 6 (0 : BitVec 7) 256) 256 = .ok ss4 ∧ (baseOff s 6 (0 : BitVec 7) 256).toNat % 256 = 0) := by
  refine ⟨?_, ?_⟩ <;> decide +kernel

theorem witness_Atomics_Atomics :
    (let s := (((tState .s).setG 6 0x0010000000000100).setG 9 32).setG 3 7; let ss := spansOf (s.access .amo (s.g 6) 4); Fresh s ∧ s.cur = .s ∧ Written s [6, 9, g3 3] ∧ (2 : BitVec 3).toNat < 6 ∧ (4 : BitVec 3).toNat < 5 ∧ (1 : BitVec 2).toNat < 2 ∧ s.syncTake 0 = .ok (s, none) ∧
  (s.g 6).toNat % 4 = 0 ∧ s.access .amo (s.g 6) 4 = .ok ss) ∧
    (let s := (((tState .s).setG 6 0x0010000000000104).setG 9 32).setG 3 7; Fresh s ∧ s.cur = .s ∧ Written s [6, 9, g3 3] ∧ (2 : BitVec 3).toNat < 6 ∧ (4 : BitVec 3).toNat < 5 ∧ (0 : BitVec 2).toNat < 2 ∧ s.syncTake 0 = .ok (s, none) ∧
  (s.g 6).toNat % 8 ≠ 0) := by
  refine ⟨?_, ?_⟩ <;> decide +kernel

theorem witness_Atomics_AtomicValues :
    (let m := 0x80000000; ((4 = 4 ∨ 4 = 8) ∧ m < 2 ^ (8 * 4) ∧ m ≠ 3)) := by
  decide +kernel

theorem witness_OperationsPerformed_LoadPerformed :
    (let s0 := { (tState .x).setG 6 0x0010000000000040 with mem := cellWrite [] 0x40 [0x80, 0xFF] }; let s := nextOr s0 (exec (.ldh 9 6 0 0) s0); let o := s.core.ops.getD 0 (s.newOp 0 (.load []) .none none 0 0 none false); let ss := match o.act with | .load ss => ss | _ => []; let r := match s.readSpans (s.core.whoOf o) ss with | .ok r => r | .error _ => (s, [], true); PlainOp s o ∧ o.act = .load ss ∧ o.dest = .reg (s.me.key 9) 2 true ∧ (ss.all fun p => p.place != .peer) = true ∧ s.spansFenced ss = false ∧
  s.readSpans (s.core.whoOf o) ss = .ok (r.1, r.2.1, false) ∧ r.2.1 = ([0x80, 0xFF] : List Byte)) := by
  decide +kernel

theorem witness_OperationsPerformed_StorePerformed :
    (let s0 := ((tState .x).setG 6 0x0010000000000040).setG 9 0x1234; let s := nextOr s0 (exec (.sth 9 6 0 0) s0); let o := s.core.ops.getD 0 (s.newOp 0 (.load []) .none none 0 0 none false); let p := match o.act with | .store ss bs => (ss, bs) | _ => ([], []); let v := (s.writeSpans (s.core.whoOf o) p.1 p.2).toOption.getD s; PlainOp s o ∧ o.act = .store p.1 p.2 ∧ o.rel = 0 ∧ (p.1.all fun p => p.place != .peer) = true ∧ s.spansFenced p.1 = false ∧ s.writeSpans (s.core.whoOf o) p.1 p.2 = .ok v) := by
  decide +kernel

theorem witness_MemoryRuns_MemoryRuns :
    (let s : State := { tState .x with mem := cellWrite [] 0x10040 [0x80, 0xFF] }; let p : Span := { place := .mem, addr := 0x10040, len := 4, grain := 0, pol := 2 }; let w := s.core.who; let r : State × List Byte × Bool := match s.readSpans w [p] with | .ok r => r | .error _ => (s, [], true); let v := (s.writeSpans w [p] [1, 0, 2, 3]).toOption.getD s; s.coh.tags = [] ∧ s.coh.migs = [] ∧ s.coh.redirects = [] ∧ p.place = .mem ∧ p.pol = 2 ∧ Memory.wf s.mem = true ∧ s.readSpans w [p] = .ok (r.1, r.2.1, r.2.2) ∧
  s.writeSpans w [p] [1, 0, 2, 3] = .ok v ∧ [1, 0, 2, 3].length = p.len) ∧
    (let s : State := { tState .x with mem := cellWrite [] 0x10040 [0x80, 0xFF] }; let p : Span := { place := .mem, addr := 0x1003E, len := 4, grain := 0, pol := 0 }; let w : Who := { s.core.who with agent := 17 }; let r : State × List Byte × Bool := match s.readSpans w [p] with | .ok r => r | .error _ => (s, [], true); let v := (s.writeSpans w [p] [1, 0, 2, 3]).toOption.getD s; s.coh.tags = [] ∧ s.coh.migs = [] ∧ s.coh.redirects = [] ∧ p.place = .mem ∧ 17 ≤ w.agent ∧ Memory.wf s.mem = true ∧ s.readSpans w [p] = .ok (r.1, r.2.1, r.2.2) ∧
  s.writeSpans w [p] [1, 0, 2, 3] = .ok v ∧ [1, 0, 2, 3].length = p.len) := by
  refine ⟨?_, ?_⟩ <;> decide +kernel

theorem witness_MemoryRuns_CoherentBytes :
    (let s : State := { tState .x with mem := cellWrite [] 0x10040 [0x80, 0xFF] }; let p : Span := { place := .mem, addr := 0x10040, len := 4, grain := 0, pol := 0 }; let q : Span := { place := .mem, addr := 0x10040, len := 4, grain := 0, pol := 2 }; let w := s.core.who; let r : Who := { s.core.who with agent := 17 }; let v := (s.writeSpans w [p] [1, 0, 2, 3]).toOption.getD s; let u : State × List Byte × Bool := match v.readSpans r [q] with | .ok r => r | .error _ => (s, [], true); let u2 : State × List Byte × Bool := match v.readSpans w [p] with | .ok r => r | .error _ => (s, [], true); s.coh.tags = [] ∧ s.coh.migs = [] ∧ s.coh.redirects = [] ∧ p.place = .mem ∧ q.place = .mem ∧ q.addr = p.addr ∧ q.len = p.len ∧ [1, 0, 2, 3].length = p.len ∧
  p.addr % 32 + p.len ≤ 32 ∧ r.ctx = w.ctx ∧ Memory.wf s.mem = true ∧ s.writeSpans w [p] [1, 0, 2, 3] = .ok v ∧ v.readSpans r [q] = .ok (u.1, u.2.1, u.2.2) ∧
  v.readSpans w [p] = .ok (u2.1, u2.2.1, u2.2.2)) := by
  decide +kernel

theorem witness_VectorFloatWords_VectorFloatWords :
    ((∀ ty ∈ [(0 : BitVec 3), 1, 2], ∀ m ∈ [(0 : BitVec 3), 1], (readsOf tVec (tX 3 2 3 ty m 0) (plan2 (tX 3 2 3 ty m 0) 0)).isSome = true ∧ (readsOf tVec (tX 3 2 2 ty m 1) (plan3 (tX 3 2 12 ty m 1) 1)).isSome = true ∧
  (readsOf tVec (tX 3 2 0 ty m 0) (plan1 (tX 3 2 0 ty m 0) 0)).isSome = true ∧ (readsOf tVec (tX 3 2 0 ty m 2) (plan1 (tX 3 2 0 ty m 2) 2)).isSome = true ∧ (Instr.vrcp (tX 3 2 0 ty m 2)).fieldsOk = true)) ∧
    (let o : XOp := { tX 3 2 3 0 0 0 with ma := 1 }; let t := tVec.landForIssue; (Instr.vadd o).fieldsOk = true ∧ Fresh t ∧ t.cur = .x ∧ (plan2 o 0).masked = true ∧ o.m = 0 ∧ o.ma = 1) ∧
    (let o : XOp := { tX 3 2 3 0 0 0 with sync := 1 }; let t := tVec.landForIssue; (Instr.vadd o).fieldsOk = true ∧ Fresh t ∧ t.cur = .x ∧ usesBad (plan2 o 0) = false ∧ (plan2 o 0).latMin ≤ o.lat.toNat ∧ t.syncTake o.sync = .error (.wait 1)) ∧
    (let o : XOp := { tX 3 2 3 0 0 0 with sync := 2 }; let z := tVec.withOp (tVec.newOp 0x0010000000000000 (.store [{ place := .mem, addr := 0, len := 8, grain := 0, pol := 0 }] (zeroBytes 8)) .none none 0 0 none false); let t := z.landForIssue; let p := synced t 2; (Instr.vadd o).fieldsOk = true ∧ Fresh t ∧ t.cur = .x ∧ usesBad (plan2 o 0) = false ∧ (plan2 o 0).latMin ≤ o.lat.toNat ∧ t.syncTake o.sync = .ok (p.1, p.2) ∧ p.2 ≠ none ∧ ¬Quiet p.1) ∧
    (let o := tX 3 2 5 0 0 0; let t := tVec.landForIssue; (Instr.vadd o).fieldsOk = true ∧ Fresh t ∧ t.cur = .x ∧ usesBad (plan2 o 0) = false ∧ (plan2 o 0).latMin ≤ o.lat.toNat ∧ t.syncTake o.sync = .ok (t, none) ∧
  occCheck t.core (plan2 o 0) o.m = .error (.trap 5 0 5)) ∧
    (let o := tX 3 2 12 0 0 0; let z := onC tVec fun c => c.setQueue 12 [{ data := 0, due := 9, src := 0, landed := false }]; let t := z.landForIssue; let v := (startOf t o (plan2 o 0)).getD (t, none, 0, 0, ⟨t, []⟩); (Instr.vadd o).fieldsOk = true ∧ startOf t o (plan2 o 0) = some v ∧ (readAll v.2.2.2.2 (plan2 o 0).reads).toOption.isNone = true) ∧
    (let o := tX 3 2 3 1 0 1; o.ty ≠ 0 ∧ Fresh tVec.landForIssue) := by
  refine ⟨?_, ?_, ?_, ?_, ?_, ?_, ?_⟩ <;> decide +kernel

theorem witness_VectorFloatWords_VectorTypes :
    (let t := tVec.landForIssue; 3 ≤ (tX 3 2 3 4 0 0).ty.toNat ∧ (tX 3 2 3 4 0 0).ty.toNat < 5 ∧ (tX 3 2 3 4 0 0).ty = 4 ∧ Fresh t) := by
  decide +kernel

theorem witness_VectorFloatWords_Rounding :
    (let r := Fmt.bf16.round 0 false true 0x10180 (-20); let c := r.1 - Fmt.bf16.signBit true; Fmt.bf16 ∈ [Fmt.f32, .bf16, .f16, .e4m3, .e5m2, .e2m1] ∧ (0 : Nat) < 4 ∧ 0x10180 ≠ 0 ∧ r.2 &&& 4 = 0 ∧ c ≤ Fmt.bf16.maxCode ∧ c = 0x3D81) := by
  decide +kernel

theorem witness_VectorIntegerWords_VectorIntegerWords :
    ((∀ ty ∈ [(0 : BitVec 3), 3, 4, 5, 6, 7], (readsOf tVec (tX 14 12 2 ty 1 1) (plan2 (tX 14 12 2 ty 1 1) 1)).isSome = true ∧ (readsOf tVec (tX 0 2 0 ty 0 0) (plan1 (tX 0 2 0 ty 0 0) 0)).isSome = true ∧ (Instr.viabs (tX 0 2 0 ty 0 0)).fieldsOk = true)) := by
  decide +kernel

theorem witness_VectorIntegerWords_VectorMaskWords :
    (let o := tX 4 1 2 5 1 0; (readsOf tVec o { plan2 o 0 with masked := false, merge := false, w := 1 }).isSome = true ∧ (readsOf tVec o { plan2 o 0 with merge := false }).isSome = true ∧ o.m ≠ 0 ∧ (5 ≤ o.ty.toNat) = True ∧
  (readsOf tVec o { plan2 o 0 with w := 1 }).isSome = true ∧ (Instr.vcmp o).fieldsOk = true) ∧
    (let o := tX 0 1 0 5 1 0; (readsOf tVec o { plan1 o 0 with w := 1 }).isSome = true ∧ (readsOf tVec o (plan1 o 0)).isSome = true ∧ (readsOf tVec o (planXq (plan1 o 0))).isSome = true ∧ (Instr.vmpop o).fieldsOk = true) ∧
    (let o := tX 4 1 2 5 0 0; o.m = 0 ∧ Fresh tVec.landForIssue) := by
  refine ⟨?_, ?_, ?_⟩ <;> decide +kernel

theorem witness_VectorConversions_VectorConversions :
    (let p : XPlan := { reads := [(2, false, 16)], masked := false, merge := false, vd := 4, w := 32, pushes := 1, latMin := 1 }; cvtSource 1 = some (1, false) ∧ tyWidth 1 < tyWidth 0 ∧ (1 : BitVec 3).toNat < 32 / 16 ∧ (readsOf tVec (tX 4 2 1 0 1 1) p).isSome = true) ∧
    (let p : XPlan := { reads := [(2, false, 32), (3, false, 16)], masked := false, merge := false, vd := 3, w := 16, pushes := 1, latMin := 1 }; cvtSource 0 = some (0, false) ∧ tyWidth 1 ≤ tyWidth 0 ∧ (readsOf tVec (tX 3 2 0 1 1 1) p).isSome = true) ∧
    (let p : XPlan := { reads := [(2, false, 16), (3, false, 4)], masked := false, merge := false, vd := 3, w := 4, pushes := 1, latMin := 1 }; (1 : BitVec 3).toNat < 16 / 4 ∧ (readsOf tVec (tX 3 2 0 1 1 1) p).isSome = true) ∧
    (let p : XPlan := { reads := [(2, false, 8)], masked := false, merge := false, vd := 3, w := 32, pushes := 1, latMin := 1 }; (3 : BitVec 3).toNat < 32 / 8 ∧ (5 : BitVec 3) ≠ 7 ∧ (readsOf tVec (tX 3 2 2 5 3 1) p).isSome = true) ∧
    (let p : XPlan := { reads := [(2, false, 4), (3, false, 4)], masked := true, merge := true, vd := 4, w := 8, pushes := 2, latMin := 1 }; (readsOf tVec (tX 4 2 3 7 1 1) p).isSome = true) ∧
    (let t := tVec.landForIssue; Fresh t ∧ cvtSource 15 = none ∧ cvtSource 0 = some (0, false) ∧ tyWidth 1 ≤ tyWidth 0 ∧ tyWidth 0 / tyWidth 1 ≤ (2 : BitVec 3).toNat ∧ 5 ≤ (6 : BitVec 4).toNat ∧ 3 ≤ (6 : BitVec 4).toNat) := by
  refine ⟨?_, ?_, ?_, ?_, ?_, ?_⟩ <;> decide +kernel

theorem witness_VectorConversions_VectorReductions :
    ((∀ ty ∈ [(0 : BitVec 3), 1, 2, 3, 4, 5, 6, 7], (readsOf tVec (tX 4 2 0 ty 1 2) { plan1 (tX 4 2 0 ty 1 2) 2 with merge := false }).isSome = true ∧ (Instr.vredadd (tX 4 2 0 ty 1 2)).fieldsOk = true)) ∧
    (let o : XOp := { tX 4 2 0 0 1 2 with ma := 1 }; o.ma = 1 ∧ Fresh tVec.landForIssue) := by
  refine ⟨?_, ?_⟩ <;> decide +kernel

theorem witness_VectorMoves_VectorMoves :
    (let o := tX 4 2 3 7 1 1; let q := tX 0 2 3 7 0 1; let z := tX 3 0 0 0 0 0; (readsOf tVec o (plan2 o 1)).isSome = true ∧ (readsOf tVec { o with vb := 0 } (plan1 o 0)).isSome = true ∧ (readsOf tVec q { planXq (plan2 q 1) with masked := false }).isSome = true ∧
  (Instr.vxtr q).fieldsOk = true ∧ (Instr.vclr z).fieldsOk = true ∧ Fresh tVec.landForIssue ∧ tVec.landForIssue.cur = .x ∧ z.vd.toNat < 12 ∧ tVec.landForIssue.syncTake z.sync = .ok (tVec.landForIssue, none)) ∧
    (let z : XOp := { tX 3 0 0 0 0 0 with sync := 2 }; let s := tVec.withOp (tVec.newOp 0x0010000000000000 (.store [{ place := .mem, addr := 0, len := 8, grain := 0, pol := 0 }] (zeroBytes 8)) .none none 0 0 none false); let t := s.landForIssue; let p := synced t 2; (Instr.vclr z).fieldsOk = true ∧ Fresh t ∧ t.cur = .x ∧ z.ty = 0 ∧ z.vd.toNat < 12 ∧ t.syncTake z.sync = .ok (p.1, p.2) ∧ p.2 ≠ none ∧ ¬Quiet p.1) ∧
    (let z := tX 14 0 0 0 0 0; (Instr.vclr z).fieldsOk = true ∧ Fresh tVec.landForIssue ∧ tVec.landForIssue.cur = .x ∧ 12 ≤ z.vd.toNat) := by
  refine ⟨?_, ?_, ?_⟩ <;> decide +kernel

theorem witness_VectorMoves_VectorOccupancy :
    (let s := onC tVec fun c => c.setQueue 4 [tEntry 0, tEntry 0]; Fresh s ∧ s.cur = .x ∧ usesBad (plan1 (tX 0 5 0 0 0 0) 0) = false ∧ (s.core.fifo.map List.length).getD 5 0 = 0 ∧ 0 < (s.core.fifo.map List.length).getD 2 0 ∧ 2 ≤ (s.core.fifo.map List.length).getD 4 0 ∧ usesBad (plan1 (tX 14 13 0 0 0 0) 0) = false) ∧
    (let s := onC tVec fun c => c.setQueue 14 (List.replicate 8 (tEntry 0)); Fresh s ∧ s.cur = .x ∧ 0 < (s.core.fifo.map List.length).getD 2 0 ∧ 8 ≤ (s.core.fifo.map List.length).getD 14 0) := by
  refine ⟨?_, ?_⟩ <;> decide +kernel

theorem witness_VectorMoves_ResultsLandFirst :
    (let s := onC tVec fun c => { c with flight := [{ n := 0, due := 0, flags := 5, sig := false }] }; s.me.stage ≠ tested ∧ s.landForIssue.core.flight = []) := by
  decide +kernel

theorem witness_TrapEntry_TrapEntry :
    (let s := onC (tState .k) fun c => { c with tvec := 0x0010000000000400, x := { c.x with parked := true } }; Still s ∧ s.core.tl < 2 ∧ s.core.tvec.toNat / 2 ^ 52 ≠ 0 ∧ s.core.task.isSome = true) ∧
    (let s := onC tBundle fun c => { c with tvec := 0x0010000000000400, tl := 1 }; Still s ∧ s.core.tl < 2 ∧ s.core.tvec.toNat / 2 ^ 52 ≠ 0 ∧ s.core.task.isSome = true) := by
  refine ⟨?_, ?_⟩ <;> decide +kernel

theorem witness_TrapEntry_TrapsLand :
    (let s := onC ((tState .k).withOp ({ (tState .k).newOp 0 (.load []) .none none 4 4 none true with strand := .l })) fun c => { c with tvec := 0x0010000000000400 }; let t := ((s.landCore s.core.idx Core.landAll).drainCore s.core.idx).1; (s.landCore s.core.idx Core.landAll).drainCore s.core.idx = (t, none) ∧ t.core.landed = false) ∧
    (let s := onC (tPending (tState .l)) fun c => { c with tvec := 0x0010000000000400 }; let t := ((s.landCore s.core.idx Core.landAll).drainCore s.core.idx).1; (s.landCore s.core.idx Core.landAll).drainCore s.core.idx = (t, none) ∧ t.core.landed = true) ∧
    (let s0 := (tState .l).setG 6 0x0010000000000040; let s := tPoison (onC (nextOr s0 (exec (.ldd 9 6 0 0) s0)) fun c => { c with tvec := 0x0010000000000400 }) 2; let p := (s.landCore s.core.idx Core.landAll).drainCore s.core.idx; let e := p.2.getD (0, 0); (s.landCore s.core.idx Core.landAll).drainCore s.core.idx = (p.1, some (e.1, e.2))) := by
  refine ⟨?_, ?_, ?_⟩ <;> decide +kernel

theorem witness_TrapEntry_TrapOverflow :
    (let s := onC tBundle fun c => { c with tvec := 0x0010000000000400, tl := 2 }; Still s ∧ 2 ≤ s.core.tl) ∧
    (let s := tState .l; Still s ∧ s.core.tvec.toNat / 2 ^ 52 = 0) := by
  refine ⟨?_, ?_⟩ <;> decide +kernel

theorem witness_TrapWords_TrapsAndBreaks :
    (let s := onC ((tState .k).setG 6 99) fun c => { c with tvec := 0x0010000000000400 }; Fresh s ∧ Still s ∧ s.cur = .k ∧ Written s [6] ∧ s.debugged s.core = false) ∧
    (let s := (tState .k).setReg (debugBase 0) 0x0080000800000000; Fresh s ∧ Still s ∧ s.cur = .k ∧ s.debugged s.core = true ∧ (s.reg (debugBase s.core.cluster)).getLsbD (35 + s.core.idx % 8) = true) := by
  refine ⟨?_, ?_⟩ <;> decide +kernel

theorem witness_TrapWords_TrapReturn :
    (let s := tState .k; Fresh s ∧ s.cur = .k ∧ s.core.tl = 0) ∧
    (let s := onC (tState .k) fun c => { c with tl := 1, bank1 := { c.bank1 with cause := 12, pcl := 0x0010000000000101, pcx := 0x0010000000000200, pcs := 0x0010000000000300, pck := 0x0010000000000401 } }; let b := s.core.bank s.core.tl; Fresh s ∧ s.cur = .k ∧ s.core.tl ≠ 0 ∧ b.ok = true ∧ b.cause.toNat % 256 ≠ 7) ∧
    (let s := onC (tState .k) fun c => { c with tl := 2, bank2 := { c.bank2 with pcl := 2 } }; Fresh s ∧ s.cur = .k ∧ s.core.tl ≠ 0 ∧ (s.core.bank s.core.tl).ok = false) ∧
    (let s := onC ((withMem tK 0x20000 (wordsBytes [0x1000000000000001, 0x0F00000000000000])).setReg (ctxBase 0 + 0x28) 0x0000000000020001) fun c => { c with tl := 1, bank1 := { c.bank1 with cause := 7, pck := 0x0010000000000401 } }; let v := s.arrayAgain.toOption.getD s; let b := s.core.bank s.core.tl; Fresh s ∧ s.cur = .k ∧ s.core.tl ≠ 0 ∧ b.ok = true ∧ b.cause.toNat % 256 = 7 ∧ s.arrayAgain = .ok v ∧ v.core.lttCrc ≠ s.core.lttCrc) ∧
    (let s := onC tK fun c => { c with tl := 1, bank1 := { c.bank1 with cause := 7, pck := 0x0010000000000401 } }; let b := s.core.bank s.core.tl; Fresh s ∧ s.cur = .k ∧ s.core.tl ≠ 0 ∧ b.ok = true ∧ b.cause.toNat % 256 = 7 ∧ s.arrayAgain = .error (BitVec.allOnes 64)) := by
  refine ⟨?_, ?_, ?_, ?_, ?_⟩ <;> decide +kernel

theorem witness_SupervisorCalls :
    (let s := (tK.setReg (ctxBase 0 + 0x30) 0x55).setReg (ctxBase 0 + 0x208) 0x8000000000000007; Fresh s ∧ s.cur = .k ∧ Written s [9, 6] ∧ s.g 6 = 0 ∧ s.core.tl = 0 ∧ s.isPager = false) ∧
    (let s := onC { tK with cores := [{ Core.reset 1 with task := some { id := 5, rtn := none, pager := true, lid := 0 } }] } fun c => { c with tl := 1, bank1 := { c.bank1 with cause := 7, val := 0x0010000000000020 }, pagerSeq := 0xFFFF }; Fresh s ∧ s.cur = .k ∧ Written s [9, 6] ∧ s.core.tl ≠ 0 ∧ (s.core.bank s.core.tl).cause.toNat % 256 = 7 ∧ s.core.pagerOut = none ∧ s.pagerToHost = false ∧ s.lm.pagerq.length < 1024) ∧
    (let s := onC ({ tK with lm := { tK.lm with pagerq := [[0x7FFF0000_80000000, 2, 3, 4], [5, 6, 7, 8]] } }.setG 6 0x0010000000000040) fun c => { c with task := some { id := 0, rtn := none, pager := true, lid := 0 } }; let ss := spansOf (s.access .store (s.g 6) 32); let v := match s.issueStore (s.g 6) ss (wordsBytes [0x7FFF0000_80000000, 2, 3, 4]) none 0 0 with | .ok v => v | .error _ => s; Fresh s ∧ s.cur = .k ∧ Written s [9, 6] ∧ s.isPager = true ∧ (s.g 6).toNat % 32 = 0 ∧ s.access .store (s.g 6) 32 = .ok ss ∧ s.lm.pagerq = [[0x7FFF0000_80000000, 2, 3, 4], [5, 6, 7, 8]] ∧
  s.issueStore (s.g 6) ss (wordsBytes [0x7FFF0000_80000000, 2, 3, 4]) none 0 0 = .ok v) ∧
    (let s := onC (tK.setG 6 0x00010000B0000000) fun c => { c with pagerHeld := [(1, 1)], task := some { id := 0, rtn := none, pager := true, lid := 0 } }; Fresh s ∧ s.cur = .k ∧ Written s [9, 6] ∧ s.isPager = true ∧ Quiet s ∧ s.drainedNow s.core.idx 5 = true ∧ bitsAt (s.g 6) 28 3 = 3) ∧
    (let s := tK.setG 6 0x120; Fresh s ∧ s.cur = .k ∧ Written s [9, 6] ∧ 2 ≤ (s.g 6).toNat ∧ (s.g 6).toNat / 32 ≠ 8 ∧ (s.g 6).toNat / 32 ≠ 16) ∧
    (let s := onC tK fun c => { c with tl := 1, bank1 := { c.bank1 with cause := 7 }, pagerSeq := 3, pagerOut := some (0, 3) }; let q := { onC s (fun c => { c with pagerOut := none }) with lm := { s.lm with hostq := List.replicate 1024 [] } }; let z := onC s fun c => { c with pagerOut := none }; Fresh s ∧ s.cur = .k ∧ Written s [9, 6] ∧ s.core.tl ≠ 0 ∧ (s.core.bank s.core.tl).cause.toNat % 256 = 7 ∧ s.core.pagerOut = some (0, 3) ∧
  Fresh q ∧ q.core.pagerOut = none ∧ 1024 ≤ (if q.pagerToHost then q.lm.hostq else q.lm.pagerq).length ∧ z.core.pagerOut = none ∧ z.pagerToHost = true ∧ z.lm.hostq.length < 1024) ∧
    (let s := onC (tK.setG 6 0x0010000000000048) fun c => { c with task := some { id := 0, rtn := none, pager := true, lid := 0 } }; let z := s.setG 6 0x0010000000000040; let ss := spansOf (z.access .store (z.g 6) 32); Fresh s ∧ s.cur = .k ∧ Written s [9, 6] ∧ s.isPager = true ∧ (s.g 6).toNat % 32 ≠ 0 ∧ Fresh z ∧ z.isPager = true ∧ (z.g 6).toNat % 32 = 0 ∧ z.access .store (z.g 6) 32 = .ok ss ∧ z.lm.pagerq = []) ∧
    (let s := onC (tK.setG 6 0x0001000090000001) fun c => { c with task := some { id := 0, rtn := none, pager := true, lid := 0 } }; let z := tPending (s.setG 6 0x0001000090000000); let st := bitsAt (s.g 6) 28 3; Fresh s ∧ s.cur = .k ∧ Written s [9, 6] ∧ s.isPager = true ∧ st = 1 ∧ bitsAt (s.g 6) 0 28 ≠ 0 ∧ Fresh z ∧ z.isPager = true ∧ bitsAt (z.g 6) 0 28 = 0 ∧ ¬Quiet z) ∧
    (let o : MemOp := { tK.newOp 0x0010000000000000 (.store [{ place := .window, addr := 0, len := 8, grain := 0, pol := 3 }] (zeroBytes 8)) .none none 0 0 none false with slot := some 3, units := 4, sent := true }; let s := (onC (tK.setG 6 0x0001000090000000) fun c => { c with task := some { id := 0, rtn := none, pager := true, lid := 0 } }).withOp o; Fresh s ∧ s.cur = .k ∧ Written s [9, 6] ∧ s.isPager = true ∧ bitsAt (s.g 6) 28 3 = 1 ∧ bitsAt (s.g 6) 0 28 = 0 ∧ Quiet s ∧ s.drainedNow s.core.idx 5 = false) := by
  refine ⟨?_, ?_, ?_, ?_, ?_, ?_, ?_, ?_, ?_⟩ <;> decide +kernel

theorem witness_DeviceRegisters :
    (let s := (tSup.setG 6 0x0008000200001000).setG 9 0x1234; Fresh s ∧ s.cur = .k ∧ s.sup = true ∧ Written s [8, 6, 9] ∧ (s.g 6).toNat / 2 ^ 52 = 0 ∧ (s.g 6 + 8).toNat / 2 ^ 48 % 16 = 8 ∧ (s.g 6 + 8).toNat % 8 = 0 ∧ (s.devWrite ((s.g 6 + 8).toNat % 2 ^ 48) (s.g 9)).core.task.isSome = true) ∧
    (let s := tSup.setG 6 0x0007FFFFFFFFFFF8; Fresh s ∧ s.cur = .k ∧ s.sup = true ∧ Written s [8, 6, 9] ∧ (s.g 6).toNat / 2 ^ 48 % 16 ≠ 8) ∧
    (let s := tSup.setG 6 0x0008000000000004; Fresh s ∧ s.cur = .k ∧ s.sup = true ∧ Written s [8, 6, 9] ∧ (s.g 6).toNat % 8 ≠ 0) ∧
    (let s := tState .k; Fresh s ∧ s.cur = .k ∧ s.sup = false) ∧
    (let s := onC ((tState .l).setG 6 0x0010000000000100) fun c => { c with view := { c.view with sup := true, ltt := [(0x1000000000000001, 0x0F08000200000000)] } }; let ss := spansOf (s.access .loadD (baseOff s 6 (1 : BitVec 13) 8) 8); let sw := spansOf (s.access .storeD (baseOff s 6 (1 : BitVec 13) 8) 8); let d := (devSpan ss).getD 0; Fresh s ∧ Written s [6, 9] ∧ s.syncTake 0 = .ok (s, none) ∧ devSpan ss = some d ∧ s.core.task.isSome = true ∧ s.access .loadD (baseOff s 6 (1 : BitVec 13) 8) 8 = .ok ss ∧
  s.access .storeD (baseOff s 6 (1 : BitVec 13) 8) 8 = .ok sw ∧ devSpan sw = some d ∧ (s.devWrite d (s.g 9)).core.task.isSome = true) := by
  refine ⟨?_, ?_, ?_, ?_, ?_⟩ <;> decide +kernel

theorem witness_TaskWords :
    (let s := tK; Fresh s ∧ s.cur = .k ∧ s.isPager = false ∧ s.core.preempt = 0 ∧ Written s [9, 6] ∧ (s.g 6).toNat ≤ s.quartz.toNat ∧ s.sup = false) ∧
    (let s := (onC tK fun c => { c with split := false }).setG 6 50; Fresh s ∧ s.cur = .k ∧ s.core.split = false ∧ s.endDrained s.core.idx = true ∧ Written s [9, 6] ∧ s.quartz.toNat < (s.g 6).toNat) ∧
    (let s := (onC tK fun c => { c with split := false }).withOp (tK.newOp 0x0010000000000000 (.store [{ place := .mem, addr := 0, len := 8, grain := 0, pol := 0 }] (zeroBytes 8)) .none none 0 0 none false); Fresh s ∧ s.cur = .k ∧ s.core.split = false ∧ s.endDrained s.core.idx = false) ∧
    (let s := (withMem (tK.setG 6 0x0010000000000100) 0x100 [1, 2, 3]).setReg (lqReg 0 3) 0x8000000000100000; let ss := spansOf (s.access .load (s.g 6) 256); let r := match (s.widenPins s.core.idx 3).readNow (s.g 6) ss with | .ok r => r | .error _ => (s, []); let a := match (r.1.countZeros ss).appendLaunch 3 r.2 with | .ok a => a | .error _ => (s, 99); Fresh s ∧ s.cur = .k ∧ Written s [9, 6] ∧ (s.g 6).toNat % 256 = 0 ∧ s.access .load (s.g 6) 256 = .ok ss ∧ (s.reg (lqReg s.core.view.ctx 3)).getLsbD 61 = false ∧ Quiet s ∧
  s.drainedNow s.core.idx 3 = true ∧ (s.widenPins s.core.idx 3).readNow (s.g 6) ss = .ok r ∧ (r.1.countZeros ss).appendLaunch 3 r.2 = .ok a) ∧
    (let s := (tK.setG 6 0x0010000000000100).setReg (lqReg 0 3) 0xA000000000100000; let ss := spansOf (s.access .load (s.g 6) 256); Fresh s ∧ s.cur = .k ∧ Written s [9, 6] ∧ (s.g 6).toNat % 256 = 0 ∧ s.access .load (s.g 6) 256 = .ok ss ∧ s.sup = false ∧ (s.reg (lqReg s.core.view.ctx 3)).getLsbD 61 = true) ∧
    (let s := ((onC (withMem tK 0x20000 (wordsBytes [0x1000000000010001, 0x0000000000030000])) fun c => { c with view := { c.view with sup := true } }).setG 6 0x20000).setG 8 2; Fresh s ∧ s.cur = .k ∧ s.sup = true ∧ Written s [9, 6, 8] ∧ Quiet s ∧ (s.g 6).toNat % 16 = 0 ∧ bitsAt (s.g 8) 13 33 = 0 ∧ physOk 0x20000 = true ∧ physOk 0x2001F = true ∧ s.poisoned 0x20000 32 = false ∧ (s.loadImage 0x20000 2).toOption.isSome = true) ∧
    (let s := ((onC (withMem tK 0x20000 (wordsBytes [0x1000000000010001, 0x0000000000030000, 3, 0])) fun c => { c with view := { c.view with sup := true } }).setG 6 0x20000).setG 8 2; Fresh s ∧ s.cur = .k ∧ s.sup = true ∧ Written s [9, 6, 8] ∧ Quiet s ∧ s.poisoned 0x20000 32 = false ∧ s.loadImage 0x20000 2 = .error 1) ∧
    (let s := (onC tK fun c => { c with specst := 1 }); Fresh s ∧ s.cur = .k ∧ s.core.specst.getLsbD 0 = true ∧ s.isPager = false) ∧
    (let s := onC tK fun c => { c with task := some { id := 0, rtn := none, pager := true, lid := 0 } }; Fresh s ∧ s.cur = .k ∧ s.isPager = true) ∧
    (let s := tK.setG 6 0x0010000000000080; Fresh s ∧ s.cur = .k ∧ s.core.specst.getLsbD 0 = false ∧ s.core.split = true ∧ s.core.tl = 0 ∧ s.core.l.parked = false ∧ Written s [9, 6] ∧ (s.g 6).toNat % 256 ≠ 0) ∧
    (let s := tPending (tK.setG 6 0x0010000000000100); let ss := spansOf (s.access .load (s.g 6) 256); Fresh s ∧ s.cur = .k ∧ s.core.specst.getLsbD 0 = false ∧ Written s [9, 6] ∧ (s.g 6).toNat % 256 = 0 ∧ s.access .load (s.g 6) 256 = .ok ss ∧ (s.reg (lqReg s.core.view.ctx 3)).getLsbD 61 = false ∧ ¬Quiet s) ∧
    (let s := ((onC tK fun c => { c with view := { c.view with sup := true } }).setG 6 0x20008).setG 8 2; let q := tPending ((s.setG 6 0x20000).setG 8 2); let z := tPoison ((s.setG 6 0x20000).setG 8 2) 0x1000; Fresh s ∧ s.cur = .k ∧ s.sup = true ∧ Written s [9, 6, 8] ∧ (s.g 6).toNat % 16 ≠ 0 ∧ Fresh q ∧ q.sup = true ∧ Written q [9, 6, 8] ∧ ¬Quiet q ∧ (q.g 6).toNat = 0x20000 ∧ bitsAt (q.g 8) 0 13 = 2 ∧
  bitsAt (q.g 8) 13 33 = 0 ∧ Fresh z ∧ z.sup = true ∧ Quiet z ∧ z.poisoned 0x20000 32 = true) := by
  refine ⟨?_, ?_, ?_, ?_, ?_, ?_, ?_, ?_, ?_, ?_, ?_, ?_⟩ <;> decide +kernel

theorem witness_JobAndRingWords_JobWords :
    (let s := (tK.setG 6 0x11).setG 8 0x22; s.me.stage = 0 ∧ s.core.flight = [] ∧ s.cur = .k ∧ Written s [9, 6, 8] ∧ s.core.openJob = none ∧ s.unretired 1 < 16 ∧ s.entriesTaken s.core.cluster 1 < 32) ∧
    (let s := ((tK.setG 6 0x11).setG 8 0x22).withOpenJob { eng := 1, words := [5], level := 0, issued := 3 }; let o : OpenJob := { eng := 1, words := [5], level := 0, issued := 3 }; s.me.stage = 0 ∧ s.core.flight = [] ∧ s.cur = .k ∧ Written s [9, 6, 8] ∧ s.core.openJob = some o ∧ s.core.tl ≤ o.level ∧ o.words.length + 2 ≤ 256 ∧ Quiet s ∧
  s.effScope (s.jobScope o.eng (s.parseJob s.core.cluster s.core.view.ctx o.eng 64 0 o.words).1) = 1 ∧ s.drainedNow s.core.idx 1 = true) ∧
    (let w : Word := 0x8000000000000000 + BitVec.ofNat 64 (7 * 2 ^ 33); let s := { tK with lm := { tK.lm with tasks := [{ tTask with heldJobs := [(1, w)] }] } }.setG 6 (BitVec.ofNat 64 (4096 * 1 + 7)); s.me.stage = 0 ∧ s.core.flight = [] ∧ s.cur = .k ∧ Written s [9, 6, 8] ∧ s.core.openJob = none ∧ s.g 6 = BitVec.ofNat 64 (4096 * 1 + wordId w) ∧
  (s.heldOn 1).find? (fun v => wordId v == wordId w) = some w ∧ Plain w 0 ∧ s.heldOn 1 = [w] ∧ s.heldOn 0 = [] ∧ s.liveJobs 0 = []) ∧
    (let s0 := tK.withOpenJob { eng := 1, words := [5], level := 0, issued := 3 }; let r := s0.acceptJob { eng := 1, words := [5], level := 0, issued := 3 } 0; let s := (r.1.setG 6 (BitVec.ofNat 64 r.2)); let j := s.jobs.headD (tJob 1 []); s.me.stage = 0 ∧ s.core.flight = [] ∧ s.cur = .k ∧ Written s [9, 6, 8] ∧ s.core.openJob = none ∧ s.g 6 = BitVec.ofNat 64 (4096 * 1 + j.id) ∧ j.id < 4096 ∧ (s.heldOn 1).find? (fun v => wordId v == j.id) = none ∧
  (s.liveJobs 1).find? (fun k => k.id == j.id) = some j ∧ j.completed = false) ∧
    (let s : State := { tK with jobs := (List.range 16).map fun i => { tJob 1 [] with id := i, seq := i } }; let q : State := { tK with jobs := (List.range 32).map fun i => { tJob 1 [] with id := i, seq := i, task := 9 } }; s.me.stage = 0 ∧ Landed s ∧ s.cur = .k ∧ Written s [6] ∧ s.core.openJob = none ∧ 16 ≤ s.unretired 1 ∧ q.me.stage = 0 ∧ Landed q ∧ q.unretired 1 < 16 ∧ 32 ≤ q.entriesTaken q.core.cluster 1) ∧
    (let o : OpenJob := { eng := 1, words := [5], level := 0, issued := 3 }; let s := tPending (tK.withOpenJob o); let q := onC (tK.withOpenJob o) fun c => { c with tl := 1 }; s.me.stage = 0 ∧ Landed s ∧ s.cur = .k ∧ s.core.openJob = some o ∧ s.core.tl ≤ o.level ∧ Written s [9] ∧ ¬Quiet s ∧ o.eng ≠ 0 ∧ q.me.stage = 0 ∧ Landed q ∧ q.core.openJob = some o ∧ o.level < q.core.tl) ∧
    (let w : Word := BitVec.ofNat 64 (2 ^ 63 + 2 ^ 56 + 7 * 2 ^ 33); let s := { tK with lm := { tK.lm with tasks := [{ tTask with heldJobs := [(1, w)], sched := 0x1118000000000000 }] } }.setG 6 (BitVec.ofNat 64 (4096 * 1 + wordId w)); let q := onC { tK with lm := { tK.lm with tasks := [{ tTask with heldJobs := [(1, w)] }] } } fun c => { c with tvec := 0x0010000000000400 }; let t := s.lm.tasks.headD tTask; Fresh s ∧ s.cur = .k ∧ Written s [9, 6] ∧ (s.heldOn 1).find? (fun v => wordId v == wordId w) = some w ∧ bitsAt w 56 7 = 1 ∧ (0 : BitVec 1) ≠ 1 ∧ s.taskOn s.core.idx = some t ∧
  t.sched.getLsbD 51 = true ∧ t.misses < 3 ∧ Fresh q ∧ q.heldOn 1 = [w] ∧ q.taskOn q.core.idx = some { tTask with heldJobs := [(1, w)] } ∧ tTask.sched.getLsbD 51 = false ∧ Still q) ∧
    (let w : Word := BitVec.ofNat 64 (2 ^ 63 + 7 * 2 ^ 33); let j : Job := { tJob 1 [] with word := some w, tokDone := true, doneSeq := 2 }; let s := { tK with jobs := [j, { tJob 1 [] with id := 9, seq := 1 }] }.setG 6 (BitVec.ofNat 64 (4096 * 1 + 7)); let q := { tK with jobs := [tJob 1 []] }.setG 6 8192; Fresh s ∧ s.cur = .k ∧ Written s [9, 6] ∧ (s.heldOn 1).find? (fun v => wordId v == 7) = none ∧ (s.liveJobs 1).find? (fun k => k.id == 7) = some j ∧ j.completed = true ∧ j.word = some w ∧ Plain w 0 ∧
  s.heldOn 1 = [] ∧ (s.liveJobs 1).all (fun k => !k.completed || k == j) = true ∧ j ∈ s.liveJobs 1 ∧ Fresh q ∧ Written q [9, 6] ∧ 8192 ≤ (q.g 6).toNat ∧ q.heldOn 1 = [] ∧ q.liveJobs 1 ≠ [] ∧ (q.liveJobs 1).all (fun k => !k.completed) = true ∧
  (s.liveJobs 1).find? (fun k => k.id == 8) = none ∧ q.heldOn 0 = [] ∧ q.liveJobs 0 = []) ∧
    (let o : OpenJob := { eng := 1, words := [5], level := 0, issued := 64 }; let s := tK.withOpenJob o; let q := tK.withOpenJob { o with issued := 3 }; s.me.stage = 0 ∧ Landed s ∧ s.cur = .k ∧ s.core.openJob = some o ∧ o.level = s.core.tl ∧ jobWord .nop = false ∧ Instr.nop.issuedBy .k = true ∧ 64 ≤ o.issued ∧ q.me.stage = 0 ∧ Landed q ∧
  q.core.openJob = some { o with issued := 3 } ∧ Written q [9, 6] ∧ jobWord .tend = false ∧ Instr.tend.issuedBy .k = true) := by
  refine ⟨?_, ?_, ?_, ?_, ?_, ?_, ?_, ?_, ?_⟩ <;> decide +kernel

theorem witness_JobAndRingWords_RingWords :
    (let s := tK.setG 6 (BitVec.ofNat 64 (8 * 2 ^ 25 + 16 * 2 ^ 14 + 32)); let v := s.g 6; let r := ringReg s.core.cluster 15; Fresh s ∧ s.cur = .k ∧ Written s [9, 6] ∧ v.toNat < 2 ^ 32 ∧ 1 ≤ bitsAt v 14 11 ∧ bitsAt v 14 11 ≤ 1024 ∧ bitsAt v 25 7 ≤ 64 ∧ s.extentBad s.core.cluster (bitsAt v 0 14) (bitsAt v 14 11) (bitsAt v 25 7) = false ∧
  bitsAt (s.reg r) 32 11 = 0 ∧ s.rfld (r + 8) 0 16 = s.rfld (r + 8) 16 16 ∧ bitsAt (s.reg r) 25 7 = 0) ∧
    (let r := ringReg 0 15; let s := ((tK.setG 6 (BitVec.ofNat 64 (8 * 2 ^ 25 + 16 * 2 ^ 14 + 32))).setReg r (mkWord [(0, 43), (8, 25), (16, 14), (32, 0)])).setReg (r + 8) 0x00030001; Fresh s ∧ s.cur = .k ∧ Written s [9, 6] ∧ s.rfld (r + 8) 0 16 ≠ s.rfld (r + 8) 16 16 ∧ s.ringOf s.core.cluster 15 s.core.view.ctx = some (32, 16, 8) ∧ s.occupancy s.core.cluster 15 + 6 ≤ 8 ∧ Quiet s) ∧
    (let r := ringReg 0 15; let s := tPending (((tK.setG 6 (BitVec.ofNat 64 (8 * 2 ^ 25 + 2000 * 2 ^ 14 + 32))).setReg r (mkWord [(0, 43), (8, 25), (16, 14), (32, 0)])).setReg (r + 8) 0x00030001); Fresh s ∧ s.cur = .k ∧ Written s [9, 6] ∧ 1024 < bitsAt (s.g 6) 14 11 ∧ bitsAt (s.g 6) 25 7 ≠ 0 ∧ s.ringOf s.core.cluster 15 s.core.view.ctx = some (32, 16, 8) ∧ s.occupancy s.core.cluster 15 = 2 ∧ ¬Quiet s) ∧
    (let s := tK.setReg (ringReg 0 3) (mkWord [(5, 43), (8, 25), (16, 14), (32, 0)]); Fresh s ∧ s.cur = .k ∧ Written s [9, 6] ∧ bitsAt (s.reg (ringReg s.core.cluster 3)) 43 6 ≠ s.core.view.ctx) := by
  refine ⟨?_, ?_, ?_, ?_⟩ <;> decide +kernel

theorem witness_FutureWords :
    (let s0 := withMem (tK.setG 6 0x0010000000000040) 0x40 (wordsBytes [0, 0x0000000000000000, 0, 0]); let s := ((withMem (withMem s0 0x30000 (wordsBytes [0x80C0000000010000])) 0x30020 (wordsBytes [0x8000000000000000, 0, 0, 0])).setReg (ctxBase 0 + 0x400) 0x0005000800000000).setReg (ctxBase 0 + 0x410) 0x30000; let q := (s.setReg (ctxBase 0 + 0x418) 0x30020); let blk := spansOf (q.access .load (q.g 6) 32); let r := match q.readNow (q.g 6) blk with | .ok r => r | .error _ => (q, []); let w := bytesWords 4 r.2; Fresh q ∧ q.cur = .k ∧ Written q [9, 6] ∧ (q.g 6).toNat % 32 = 0 ∧ q.access .load (q.g 6) 32 = .ok blk ∧ Quiet q ∧ q.readNow (q.g 6) blk = .ok r ∧ r.1.rangeOf .load (w.getD 0 0) (bitsAt (w.getD 1 0) 0 32) = .ok [] ∧
  r.1.rangeOf .nreq (w.getD 2 0) (bitsAt (w.getD 3 0) 40 24) = .ok [] ∧ bitsAt (w.getD 1 0) 44 4 = 0 ∧ r.1.pqDesc r.1.core.view.ctx (bitsAt (w.getD 1 0) 32 12) ≠ none ∧
  r.1.endpoint r.1.core.view.ctx (bitsAt (w.getD 1 0) 48 15) false = some [0x8000000000000000, 0, 0, 0] ∧ r.1.freeSliceId r.1.core.view.ctx (r.1.slice r.1.core.view.ctx).2 (r.1.slice r.1.core.view.ctx).1 = some 5 ∧ r.1.drainedNow r.1.core.idx 3 = true) ∧
    (let s := withMem (tK.setG 6 0x0010000000000040) 0x40 (wordsBytes [0, 0x0000F00000000000, 0, 0]); let blk := spansOf (s.access .load (s.g 6) 32); let r := match s.readNow (s.g 6) blk with | .ok r => r | .error _ => (s, []); Fresh s ∧ s.cur = .k ∧ Written s [9, 6] ∧ s.access .load (s.g 6) 32 = .ok blk ∧ s.readNow (s.g 6) blk = .ok r ∧ bitsAt ((bytesWords 4 r.2).getD 1 0) 44 4 ≠ 0) ∧
    (let s := withMem (tK.setG 6 0x0010000000000040) 0x40 (wordsBytes [0, 0x0000000000000000, 0, 0]); let blk := spansOf (s.access .load (s.g 6) 32); let r := match s.readNow (s.g 6) blk with | .ok r => r | .error _ => (s, []); Fresh s ∧ s.cur = .k ∧ Written s [9, 6] ∧ s.access .load (s.g 6) 32 = .ok blk ∧ s.readNow (s.g 6) blk = .ok r ∧ r.1.pqDesc 0 0 = none) ∧
    (let f : Future := { tFut with st := 3, deadline := 0 }; let s : State := ({ tK with futures := [f] }.setReg (ctxBase 0 + 0x400) 0x0005000800000000).setG 6 5; Fresh s ∧ s.cur = .k ∧ Written s [9, 6] ∧ s = s.futTick 5 ∧ (s.futTick (bitsAt (s.g 6) 0 16)).futAt (s.g 6).toNat = some f ∧ MyFuture s f ∧ s.isPager = false ∧ 3 ≤ f.st) ∧
    (let f : Future := { tFut with st := 1, deadline := 100 }; let s : State := ({ tK with futures := [f] }.setReg (ctxBase 0 + 0x400) 0x0005000800000000).setG 6 5; Fresh s ∧ s.cur = .k ∧ Written s [9, 6] ∧ s = s.futTick 5 ∧ (s.futTick (bitsAt (s.g 6) 0 16)).futAt (s.g 6).toNat = some f ∧ MyFuture s f ∧ f.st < 3 ∧ f.cpy = false) ∧
    (let s := tK.setG 6 65536; Fresh s ∧ s.cur = .k ∧ Written s [9, 6] ∧ 65536 ≤ (s.g 6).toNat) ∧
    (let s := onC tK fun c => { c with specst := 1 }; Fresh s ∧ s.cur = .k ∧ Written s [9, 6] ∧ s.core.specst.getLsbD 0 = true) ∧
    (let s := tK.setG 6 0x0010000000000048; let q := tPending (tK.setG 6 0x0010000000000040); let z := tK.setG 6 0x0090000000000040; let blk := spansOf (q.access .load (q.g 6) 32); Fresh s ∧ s.cur = .k ∧ Written s [9, 6] ∧ s.core.specst.getLsbD 0 = false ∧ (s.g 6).toNat % 32 ≠ 0 ∧ Fresh q ∧ (q.g 6).toNat % 32 = 0 ∧ q.access .load (q.g 6) 32 = .ok blk ∧ ¬Quiet q ∧ Fresh z ∧ (z.access .load (z.g 6) 32).toOption = none) ∧
    (let s0 := withMem (withMem (tK.setG 6 0x0010000000000040) 0x40 (wordsBytes [0, 0, 0, 0])) 0x30000 (wordsBytes [0x80C0000000010000]); let s := (s0.setReg (ctxBase 0 + 0x400) 0x0005000800000000).setReg (ctxBase 0 + 0x410) 0x30000; let q := (withMem s 0x30020 (wordsBytes [0x8000000000000000, 0, 0, 0])).setReg (ctxBase 0 + 0x418) 0x30020; let z := (q.setReg (ctxBase 0 + 0x400) 0); let blk := spansOf (s.access .load (s.g 6) 32); let r := match s.readNow (s.g 6) blk with | .ok r => r | .error _ => (s, []); let rz := match z.readNow (z.g 6) blk with | .ok r => r | .error _ => (z, []); Fresh s ∧ s.cur = .k ∧ Written s [9, 6] ∧ s.access .load (s.g 6) 32 = .ok blk ∧ Quiet s ∧ s.readNow (s.g 6) blk = .ok r ∧ r.1.pqDesc 0 0 ≠ none ∧ r.1.endpoint 0 0 false = none ∧
  Fresh z ∧ z.access .load (z.g 6) 32 = .ok blk ∧ z.readNow (z.g 6) blk = .ok rz ∧ rz.1.pqDesc 0 0 ≠ none ∧ rz.1.endpoint 0 0 false = some [0x8000000000000000, 0, 0, 0] ∧ rz.1.freeSliceId 0 (rz.1.slice 0).2 (rz.1.slice 0).1 = none) ∧
    (let s0 := withMem (withMem (tK.setG 6 0x0010000000000040) 0x40 (wordsBytes [0, 0x8000000000000000, 0, 0])) 0x30000 (wordsBytes [0x80C0000000010000]); let s1 := withMem s0 0x30020 (wordsBytes [0xC000000000000000, 0, 0, 0]); let s := (((s1.setReg (ctxBase 0 + 0x400) 0x0005000800000000).setReg (ctxBase 0 + 0x410) 0x30000).setReg (ctxBase 0 + 0x418) 0x30020).setReg 0x020 0; let blk := spansOf (s.access .load (s.g 6) 32); let r := match s.readNow (s.g 6) blk with | .ok r => r | .error _ => (s, []); let w := bytesWords 4 r.2; let u := r.1.widenPins r.1.core.idx 5; let f := u.newFut w 5 0 [] []; let t := u.addFuture f; let x := match t.readNow (w.getD 0 0) [] with | .ok r => r | .error _ => (t, []); Fresh s ∧ s.cur = .k ∧ Written s [9, 6] ∧ s.access .load (s.g 6) 32 = .ok blk ∧ Quiet s ∧ s.readNow (s.g 6) blk = .ok r ∧ (w.getD 1 0).getLsbD 63 = true ∧ r.1.pqDesc 0 0 ≠ none ∧
  r.1.endpoint 0 0 true = some [0xC000000000000000, 0, 0, 0] ∧ r.1.freeSliceId 0 (r.1.slice 0).2 (r.1.slice 0).1 = some 5 ∧ r.1.drainedNow r.1.core.idx 5 = true ∧ f.hw = true ∧ t.readNow (w.getD 0 0) [] = .ok x) ∧
    (let f : Future := { tFut with st := 1, deadline := 100 }; let s : State := (({ tK with futures := [f] }.setReg (ctxBase 0 + 0x400) 0x0005000800000000)).setG 6 5; let z := onC s fun c => { c with task := some { id := 0, rtn := none, pager := true, lid := 0 } }; s.futTick (bitsAt (s.g 6) 0 16) = s ∧ Fresh s ∧ s.cur = .k ∧ Written s [9, 6] ∧ s.core.specst.getLsbD 0 = false ∧ s.isPager = false ∧ s.futAt (s.g 6).toNat = some f ∧ MyFuture s f ∧ f.st < 3 ∧ f.cpy = false ∧ Fresh z ∧ z.isPager = true) ∧
    (let f : Future := { tFut with st := 2, deadline := 100, cpy := true, record := none }; let s : State := ((({ withMem (withMem tK 0x30000 (wordsBytes [0x80C0000000010000])) 0x10000 (wordsBytes [0, 0]) with futures := [f] }.setReg (ctxBase 0 + 0x400) 0x0005000800000000).setReg (ctxBase 0 + 0x410) 0x30000)).setG 6 5; s.futTick (bitsAt (s.g 6) 0 16) = s ∧ Fresh s ∧ s.cur = .k ∧ Written s [9, 6] ∧ s.futAt (s.g 6).toNat = some f ∧ MyFuture s f ∧ f.st < 3 ∧ f.cpy = true ∧ s.recRoom f = true) ∧
    (let s : State := { tK with futures := [{ tFut with rtn := 3 }] }.setReg (ctxBase 0 + 0x400) 0x0005000800000000 |>.setG 6 5; s.futTick (bitsAt (s.g 6) 0 16) = s ∧ Fresh s ∧ s.cur = .k ∧ Written s [9, 6] ∧ s.core.specst.getLsbD 0 = false ∧ s.futAt (s.g 6).toNat = some { tFut with rtn := 3 } ∧ ¬MyFuture s { tFut with rtn := 3 } ∧ s.futAt 6 = none) := by
  refine ⟨?_, ?_, ?_, ?_, ?_, ?_, ?_, ?_, ?_, ?_, ?_, ?_, ?_⟩ <;> decide +kernel

theorem witness_HoldBufferAndTiles_HoldBuffer :
    (let s := onC tK fun c => { c with specst := 1 }; Fresh s ∧ s.cur = .k ∧ s.core.holding = true ∧ s.core.hold = [] ∧ s.core.task.isSome = true) ∧
    (let s := onC tK fun c => { c with specst := 0x100000001, hold := [.bst 0 [1] 7] }; let p := State.sendAll (s.core.hold.length + 1) s; Fresh s ∧ s.cur = .k ∧ s.core.holding = true ∧ p.2 = true ∧ p.1.core.task.isSome = true) ∧
    (let s := onC tK fun c => { c with specst := 0x100000001, hold := [.npub 1 []] }; let p := State.sendAll (s.core.hold.length + 1) s; Fresh s ∧ s.cur = .k ∧ s.core.holding = true ∧ p.2 = false) ∧
    (let s := tK; Fresh s ∧ s.cur = .k ∧ s.core.holding = false) := by
  refine ⟨?_, ?_, ?_, ?_⟩ <;> decide +kernel

theorem witness_HoldBufferAndTiles_NamedTiles :
    (let s : State := ((({ tState .l with lm := tK.lm }.setReg 0x028 0x8000000000000000).setReg (nsBase 0) 0xE000000000040000).setG 6 0x0010000000000100).setG 4 0x10000; let dst := spansOf (s.access .nreq (s.g 6) (destBytes (s.g 4))); let h := onC s fun c => { c with specst := 1 }; Fresh s ∧ s.cur = .l ∧ Written s [6, 10, 11, g3 4] ∧ s.agEnabled = true ∧ s.namePair 10 = some 0 ∧ bitsAt (s.g (g3 4)) 26 38 = 0 ∧ bitsAt (s.g (g3 4)) 16 10 ≤ 512 ∧ (s.slot 7).st = .free ∧
  s.nsAdmits (nameNs 0) s.core.view.ctx 61 = true ∧ s.access .nreq (s.g 6) (destBytes (s.g (g3 4))) = .ok dst ∧ s.core.holding = false ∧ s.nreqRoom s.core.die 0 false = true ∧ Fresh h ∧ h.core.holding = true ∧ s.defLife (nameNs 0) = 1) ∧
    (let s := onC (tState .l) fun c => c.setSlot 7 .arrived 0x55; Fresh s ∧ s.cur = .l ∧ Written s [g3 4] ∧ (s.slot 7).st = .arrived ∧ (s.slot 7).st ≠ .held) ∧
    (let s := onC (tState .l) fun c => c.setSlot 63 .pending 0; Fresh s ∧ s.cur = .l ∧ Written s [g3 4] ∧ (s.slot 63).st = .pending) ∧
    (let s : State := ((({ tState .s with lm := tK.lm }.setReg 0x028 0x8000000000000000).setReg (nsBase 0) 0xE000000000040000).setG 6 0x0010000000000100).setG 4 1; let src := spansOf (s.access .npub (s.g 6) 128); let r := match (s.widenPins s.core.idx (s.effScope 4)).readNow (s.g 6) src with | .ok r => r | .error _ => (s, []); Fresh s ∧ s.cur = .s ∧ Written s [6, 10, 11, g3 4] ∧ s.agEnabled = true ∧ s.namePair 10 = some 0 ∧ 1 ≤ (s.g (g3 4)).toNat ∧ s.nsAdmits (nameNs 0) s.core.view.ctx 62 = true ∧
  s.access .npub (s.g 6) (128 * (s.g (g3 4)).toNat) = .ok src ∧ s.core.holding = false ∧ Quiet s ∧ s.drainedNow s.core.idx (s.effScope 4) = true ∧ s.npubRoom s.core.die 0 1 = true ∧
  ((s.widenPins s.core.idx (s.effScope 4)).readNow (s.g 6) src).toOption = some r) ∧
    (let s := (((onC { tState .s with lm := tK.lm } fun c => { c with view := { c.view with htn := 4, snap := cellWrite c.view.snap 96 (wordsBytes [0x1000, 0x8040000000010000, 0x3F00000000, 0]) } }).setReg 0x018 0x0000000180000000).setG 6 0x0030000000000100).setG 9 0x1122; let u : State := { s with core := { s.core with nextUid := s.core.nextUid + 1 } }; let t := (u.sendBst s.core.idx 0x1104 [0x22, 0x11, 0, 0] s.core.nextUid none).getD s; Fresh s ∧ s.cur = .s ∧ Written s [6, 9] ∧ s.groupAddr (s.g 6 + (1 : BitVec 8).signExtend 64 * BitVec.ofNat 64 4) 4 = .ok 0x1104 ∧ s.core.holding = false ∧ s.core.bsts.length < 16 ∧ u.sendBst s.core.idx 0x1104 [0x22, 0x11, 0, 0] s.core.nextUid none = some t) ∧
    (let s : State := ({ tState .l with lm := tK.lm }.setG 6 0x0010000000000100).setG 4 0x10000; let q := s.setReg 0x028 0x8000000000000000; let z := q.setG 4 0x4010000; let p := { tState .s with lm := tK.lm }; Fresh s ∧ s.cur = .l ∧ Written s [6, 10, 11, g3 4] ∧ s.agEnabled = false ∧ Fresh q ∧ q.agEnabled = true ∧ q.namePair 10 = some 0 ∧ bitsAt (q.g (g3 4)) 26 38 = 0 ∧ bitsAt (q.g (g3 4)) 16 10 ≤ 512 ∧ (q.slot 7).st = .free ∧
  q.nsAdmits (nameNs 0) q.core.view.ctx 61 = false ∧ Fresh z ∧ bitsAt (z.g (g3 4)) 26 38 ≠ 0 ∧ Fresh p ∧ p.cur = .s ∧ p.agEnabled = false) ∧
    (let s := onC ((({ tState .l with lm := tK.lm }.setReg 0x028 0x8000000000000000).setReg (nsBase 0) 0xE000000000040000 |>.setG 6 0x0010000000000100).setG 4 0x10000) fun c => { c with specst := 0x2000000001, hold := List.replicate 32 (.npub 1 []) }; let dst := spansOf (s.access .nreq (s.g 6) (destBytes (s.g 4))); Fresh s ∧ s.cur = .l ∧ Written s [6, 10, 11, g3 4] ∧ s.agEnabled = true ∧ s.namePair 10 = some 0 ∧ (s.slot 7).st = .free ∧ s.nsAdmits (nameNs 0) s.core.view.ctx 61 = true ∧ s.access .nreq (s.g 6) (destBytes (s.g (g3 4))) = .ok dst ∧
  s.core.holding = true ∧ 32 ≤ s.core.hold.length) ∧
    (let s := onC (tState .l) fun c => { c.setSlot 7 .expired 0x55 with tvec := 0x0010000000000400 }; let h := onC (tState .l) fun c => { c.setSlot 7 .held 0x55 with hold := [.nreq 7 0 false 1 [], .npub 3 []] }; Fresh s ∧ s.cur = .l ∧ Written s [g3 4] ∧ (s.slot 7).st = .expired ∧ Still s ∧ Fresh h ∧ (h.slot 7).st = .held) ∧
    (let s : State := ((({ tState .s with lm := tK.lm }.setReg 0x028 0x8000000000000000).setReg (nsBase 0) 0xE000000000040000).setG 6 0x0010000000000100).setG 4 1; let src := spansOf (s.access .npub (s.g 6) 128); let q := s.setReg (nsBase 0) 0; let h := onC s fun c => { c with specst := 1 }; Fresh s ∧ s.cur = .s ∧ Written s [6, 10, 11, g3 4] ∧ (4 : BitVec 3) ≠ 0 ∧ s.agEnabled = true ∧ s.namePair 10 = some 0 ∧ Fresh q ∧ q.nsAdmits (nameNs 0) q.core.view.ctx 62 = false ∧ Fresh h ∧ h.core.holding = true ∧ h.core.hold.length < 32 ∧
  h.access .npub (h.g 6) 128 = .ok src) ∧
    (let s : State := ((({ tState .s with lm := tK.lm }.setReg 0x028 0x8000000000000000).setReg (nsBase 0) 0xE000000000040000).setG 6 0x0010000000000100).setG 4 1; let src := spansOf (s.access .npub (s.g 6) 128); let f := onC s fun c => { c with specst := 1, hold := List.replicate 32 (.npub 1 []) }; let p := tPending s; Fresh s ∧ s.cur = .s ∧ Written s [6, 10, 11, g3 4] ∧ s.agEnabled = true ∧ s.namePair 10 = some 0 ∧ Fresh f ∧ 32 ≤ f.core.hold.length ∧ Fresh p ∧ p.core.holding = false ∧ ¬Quiet p ∧ p.access .npub (p.g 6) 128 = .ok src) ∧
    (let s := (((onC { tState .s with lm := tK.lm } fun c => { c with view := { c.view with htn := 4, snap := cellWrite c.view.snap 96 (wordsBytes [0x1000, 0x8040000000010000, 0x3F00000000, 0]) } }).setReg 0x018 0x0000000180000000).setG 6 0x0030000000000100).setG 9 0x1122; let f := onC s fun c => { c with specst := 1, hold := List.replicate 32 (.npub 1 []) }; let p := onC s fun c => { c with bsts := List.replicate 16 { uid := 0, ga := 0, addr := 0, data := [], sig := none } }; let q := onC s fun c => c.setQueue 14 [tEntry 0x99]; let u : State := { q.withQueue 14 [] with core := { (q.withQueue 14 []).core with nextUid := q.core.nextUid + 1 } }; let t := (u.sendBst s.core.idx 0x1180 (entryBytes 0x99) s.core.nextUid none).getD s; let u4 : State := { s with core := { s.core with nextUid := s.core.nextUid + 1 } }; let t4 := (u4.sendBst s.core.idx 0x1110 (wordBytes (s.g 8) ++ wordBytes (s.g 9)) s.core.nextUid none).getD s; Fresh s ∧ s.cur = .s ∧ Written s [6, 9, 10] ∧ s.groupAddr (s.g 6 + (1 : BitVec 8).signExtend 64 * BitVec.ofNat 64 128) 128 = .ok 0x1180 ∧ s.core.holding = false ∧ (s.core.queue 14).length < 1 ∧ Fresh f ∧ f.core.holding = true ∧ 32 ≤ f.core.hold.length ∧
  Fresh p ∧ 16 ≤ p.core.bsts.length ∧ QueueHead q 14 (tEntry 0x99) [] ∧ u.sendBst s.core.idx 0x1180 (entryBytes 0x99) s.core.nextUid none = some t ∧
  Written s [6, 8, 9] ∧ u4.sendBst s.core.idx 0x1110 (wordBytes (s.g 8) ++ wordBytes (s.g 9)) s.core.nextUid none = some t4) := by
  refine ⟨?_, ?_, ?_, ?_, ?_, ?_, ?_, ?_, ?_, ?_, ?_⟩ <;> decide +kernel

theorem witness_EngineCommands_MatrixCommands :
    (let r : List Word := [BitVec.ofNat 64 (4 * 2 ^ 59 + 3 * 2 ^ 50)]; let j := tJob 0 [r]; let s := tEng j; s = s.settle 0 ∧ TakesTurn s 0 7 0x04 j r ∧ (s.jobNow j).accs.length = 4 ∧ s.engTurn 0 7 5 = none) ∧
    (let r : List Word := [BitVec.ofNat 64 (1 * 2 ^ 59 + 1 * 2 ^ 48), BitVec.ofNat 64 (2 * 2 ^ 60 + 3 * 2 ^ 56 + 1 * 2 ^ 48)]; let j := tJob 0 [r]; let s := ((tEng j).setReg (ringReg 0 2 + 8) 0x10000).setReg (ringReg 0 3 + 8) 0x10000; s = s.settle 0 ∧ TakesTurn s 0 7 1 j r ∧ (typePair (bitsAt (r.getD 0 0) 50 4)).isSome = true ∧ j.accs.getD 1 none = some [5, 7] ∧ bitsAt (r.getD 0 0) 48 2 = 1 ∧ 32 * bitsAt (r.getD 1 0) 48 8 = 32) ∧
    (let r : List Word := [BitVec.ofNat 64 (2 * 2 ^ 59 + 1 * 2 ^ 48), BitVec.ofNat 64 (2 * 2 ^ 60 + 3 * 2 ^ 56 + 1 * 2 ^ 48)]; let j := tJob 0 [r]; let s := ((tEng j).setReg (ringReg 0 2 + 8) 0x10000).setReg (ringReg 0 3 + 8) 0x10000; s = s.settle 0 ∧ TakesTurn s 0 7 2 j r ∧ (typePair (bitsAt (r.getD 0 0) 50 4)).isSome = true ∧ j.accs.getD 1 none = some [5, 7]) ∧
    (let r : List Word := [BitVec.ofNat 64 (5 * 2 ^ 59 + 1 * 2 ^ 48), 0x0020000000000000, 0]; let j := tJob 0 [r]; let s := tEng j; (s = s.settle 0 ∧ TakesTurn s 0 7 5 j r ∧ loadsQuietly s j (r.getD 1 0 + BitVec.ofNat 64 (3 * bitsAt (r.getD 2 0) 0 32)) (128 * accBytes (bitsAt (r.getD 0 0) 45 3)) = true ∧ ∃ t rs, s.loadRows j r 128 0 [] = .ok t rs)) ∧
    (let r : List Word := [BitVec.ofNat 64 (5 * 2 ^ 59 + 1 * 2 ^ 48), 0x0090000000000000, 0]; let j := tJob 0 [r]; let s := tEng j; let e := engStops s (s.loadRows j r 128 0 []); s = s.settle 0 ∧ TakesTurn s 0 7 5 j r ∧ e.2 = some 0x10) ∧
    (let r : List Word := [BitVec.ofNat 64 (5 * 2 ^ 59 + 1 * 2 ^ 48), 0x0010000000000000, 0]; let j := tJob 0 [r]; let s := tPoison (tEng j) 0; s = s.settle 0 ∧ TakesTurn s 0 7 5 j r ∧ engDies (s.loadRows j r 128 0 []) = some 0x0010000000000000) ∧
    (let r : List Word := [BitVec.ofNat 64 (6 * 2 ^ 59 + 1 * 2 ^ 48), 0x0020000000000000, 0x200]; let j := { tJob 0 [r] with held := some [[1, 2, 3]], sub := 0 }; let s := tEng j; let x := s.jobFlags j 0; let u := x.putJob { x.jobNow j with held := some [[1, 2, 3]] }; let ms := rowStores (rowAt r) [[1, 2, 3]]; let p := engGot (s, 99) (u.engMoves j (u.movesWritten j ms) j.sub (ms.drop j.sub)); s = s.settle 0 ∧ TakesTurn s 0 7 6 j r ∧ (match accFmt (bitsAt (r.getD 0 0) 45 3) with | some .f32 => true | _ => false) = true ∧ j.held = some [[1, 2, 3]] ∧ p.2 = ms.length ∧ p.1 ≠ s) ∧
    (let r : List Word := [BitVec.ofNat 64 (6 * 2 ^ 59 + 1 * 2 ^ 48), 0x0020000000000000, 0x200]; let j := tJob 0 [r]; let s := tEng j; s = s.settle 0 ∧ TakesTurn s 0 7 6 j r ∧ (match accFmt (bitsAt (r.getD 0 0) 45 3) with | some .f32 => true | _ => false) = true ∧ j.held = none ∧ j.accs.getD 1 none = some [5, 7]) ∧
    (let r : List Word := [BitVec.ofNat 64 (3 * 2 ^ 59 + 1 * 2 ^ 48), 0x0020000000000000, 0]; let j := tJob 0 [r]; let s := tEng j; s = s.settle 0 ∧ TakesTurn s 0 7 3 j r ∧ j.accs.getD 1 none = some [5, 7]) := by
  refine ⟨?_, ?_, ?_, ?_, ?_, ?_, ?_, ?_, ?_⟩
  · decide +kernel
  · decide +kernel
  · decide +kernel
  · exact by
      intro r j s
      refine ⟨by decide +kernel, by decide +kernel, by decide +kernel, _, loadRows_of_row _ _ _ 0x0020000000000000 (fun i => ?_) (by decide +kernel) 128 0 []⟩
      rw [rowAt, show recFld r 2 0 32 = 0 by decide +kernel, show recWord r 1 = 0x0020000000000000 by decide +kernel]
      simp
  · decide +kernel
  · decide +kernel
  · decide +kernel
  · decide +kernel
  · decide +kernel

theorem witness_EngineCommands_Ranking :
    (let x : Cand := { code := 0x3F800000, col := 3, old := false }; let y : Cand := { code := 0x40000000, col := 2, old := false }; let z : Cand := { code := 0x7FC00000, col := 0, old := false }; (Fmt.f32.val x.code).isNan = false ∧ (Fmt.f32.val z.code).isNan = true ∧ (Fmt.f32.val x.code).lt false (Fmt.f32.val y.code) = true ∧ (Fmt.f32.val y.code).lt false (Fmt.f32.val x.code) = false) ∧
    (let r : List Word := [BitVec.ofNat 64 (3 * 2 ^ 59 + 1 * 2 ^ 48), 0x0020000000000000, 0]; let q : List Word := [BitVec.ofNat 64 (3 * 2 ^ 59 + 1 * 2 ^ 48 + 2 ^ 46), 0x0020000000000000, 0]; let j := tJob 0 [q]; let s := tEng j; let p := engGot (s, []) (s.engLoad j (q.getD 1 0 + BitVec.ofNat 64 (8 * 1 * 0)) (8 * 1)); bitsAt (r.getD 0 0) 46 1 = 0 ∧ bitsAt (q.getD 0 0) 46 1 = 1 ∧ p.2 = ([0, 0, 0, 0, 0, 0, 0, 0] : List Byte)) := by
  refine ⟨?_, ?_⟩ <;> decide +kernel

theorem witness_EngineCommands_CopyCommands :
    (let r : List Word := [BitVec.ofNat 64 (0x10 * 2 ^ 59 + 1 * 2 ^ 50), 0x0010000000000100, 0x0020000000000000, 200]; let j := tJob 1 [r]; let s := withMem (tEng j) 0x100 [1, 2, 3]; let p := engGot (s, 99) (s.engMoves j (s.movesWritten j (cpyMoves r)) j.sub (((cpyMoves r).drop j.sub).take 4)); s = s.settle 0 ∧ TakesTurn s 0 (4096 + 7) 0x10 j r ∧ p.2 = (cpyMoves r).length ∧ 0 < p.2) ∧
    (let r : List Word := [BitVec.ofNat 64 (0x10 * 2 ^ 59 + 1 * 2 ^ 50), 0x0010000000000100, 0x0020000000000000, 640]; let j := tJob 1 [r]; let s := withMem (tEng j) 0x100 [1, 2, 3]; let p := engGot (s, 99) (s.engMoves j (s.movesWritten j (cpyMoves r)) j.sub (((cpyMoves r).drop j.sub).take 4)); s = s.settle 0 ∧ TakesTurn s 0 (4096 + 7) 0x10 j r ∧ p.2 = 4 ∧ (cpyMoves r).length = 5 ∧ j.sub = 0) ∧
    (let r : List Word := [BitVec.ofNat 64 (0x11 * 2 ^ 59), 0x0020000000000000, 200, 0x0102030405060708]; let j := tJob 1 [r]; let s := tEng j; let p := engGot (s, 99) (s.engMoves j (s.movesWritten j (fillMoves r)) j.sub (((fillMoves r).drop j.sub).take 4)); s = s.settle 0 ∧ TakesTurn s 0 (4096 + 7) 0x11 j r ∧ p.2 = (fillMoves r).length ∧ 0 < p.2) ∧
    (let r : List Word := [BitVec.ofNat 64 (0x11 * 2 ^ 59), 0x0090000000000000, 200, 0x0102030405060708]; let j := tJob 1 [r]; let s := tEng j; let e := engStops s (s.engMoves j (s.movesWritten j (fillMoves r)) j.sub (((fillMoves r).drop j.sub).take 4)); s = s.settle 0 ∧ TakesTurn s 0 (4096 + 7) 0x11 j r ∧ e.2 = some 0x10) ∧
    (let r : List Word := [BitVec.ofNat 64 (0x11 * 2 ^ 59), 0x0030000000000000, 200, 0x0102030405060708]; let j := { tJob 1 [r] with view := tWindowView }; let s := (tEng j).windowCount 0 3 1024; let p := engGot (s, 99) (s.engMoves j (s.movesWritten j (fillMoves r)) j.sub (((fillMoves r).drop j.sub).take 4)); s = s.settle 0 ∧ TakesTurn s 0 (4096 + 7) 0x11 j r ∧ p.2 = 0 ∧ p.2 ≠ (fillMoves r).length) ∧
    (let r : List Word := [BitVec.ofNat 64 (0x12 * 2 ^ 59), 0x0010000000000100, 0x0020000000000000, 0x0010000000000000, BitVec.ofNat 64 (2 * 2 ^ 40 + 16 * 2 ^ 16), 64]; let j := tJob 1 [r]; let s := withMem (tEng j) 0x100 [1, 2, 3]; let p := engGot (s, false) (s.indexRows j r true 2 0 0 4 none); let q := engGot (s, []) (s.engLoad j (r.getD 3 0 + BitVec.ofNat 64 (4 * 1)) 4); let ms := rowMoves true r 1 (bytesNat q.2) false; let w := engGot (s, 99) ((q.1.jobUsed j).engMoves j [] 0 (ms.take 3)); s = s.settle 0 ∧ TakesTurn s 0 (4096 + 7) 0x12 j r ∧ bitsAt (r.getD 4 0) 40 24 = 2 ∧ p.2 = true ∧ bitsAt (r.getD 4 0) 0 1 = 0 ∧ q.2.length = 4 ∧ (bytesNat q.2 == 2 ^ 32 - 1) = false ∧ w.2 = ms.length ∧ 0 < w.2) ∧
    (let r : List Word := [BitVec.ofNat 64 (0x13 * 2 ^ 59), 0x0010000000000100, 0x0020000000000000, 0x0010000000000000, BitVec.ofNat 64 (2 * 2 ^ 40 + 16 * 2 ^ 16), 64]; let j := tJob 1 [r]; let s := withMem (tEng j) 0x100 [1, 2, 3]; let p := engGot (s, false) (s.indexRows j r false 2 0 0 4 none); s = s.settle 0 ∧ TakesTurn s 0 (4096 + 7) 0x13 j r ∧ bitsAt (r.getD 4 0) 40 24 = 2 ∧ p.2 = true) ∧
    (let r : List Word := [BitVec.ofNat 64 (0x12 * 2 ^ 59), 0x0020000000000000, 0x0030000000000000, 0x0010000000000000, BitVec.ofNat 64 (2 * 2 ^ 40 + 16 * 2 ^ 16), 64]; let j := { tJob 1 [r] with view := tWindowView }; let s := (tEng j).windowCount 0 3 1024; let p := engGot (s, true) (s.indexRows j r true 2 0 0 4 none); s = s.settle 0 ∧ TakesTurn s 0 (4096 + 7) 0x12 j r ∧ bitsAt (r.getD 4 0) 40 24 = 2 ∧ p.2 = false) ∧
    (let r : List Word := [BitVec.ofNat 64 (0x14 * 2 ^ 59 + 5 * 2 ^ 50 + 1 * 2 ^ 44), 0x0010000000000100, 128]; let j := tJob 1 [r]; let s := withMem ((tEng j).setReg (ringReg 0 5) (mkWord [(0, 43), (4, 25), (1, 14), (32, 0)])) 0x100 [1, 2, 3]; let p := engGot (s, 99) (s.ringRun j (128 * 32 + 128 * 1 * (s.rfld (ringReg 0 5 + 8) 16 16 % 4)) (r.getD 1 0 + BitVec.ofNat 64 (j.sub % 64 * bitsAt (r.getD 2 0) 0 40)) 1 4 (j.sub / 64)); s = s.settle 0 ∧ TakesTurn s 0 (4096 + 7) 0x14 j r ∧ s.ringOf 0 5 j.view.ctx = some (32, 1, 4) ∧ bitsAt (r.getD 0 0) 50 4 = 5 ∧ p.2 = 1 ∧ p.1 ≠ s) ∧
    (let r : List Word := [BitVec.ofNat 64 (0x14 * 2 ^ 59 + 5 * 2 ^ 50 + 1 * 2 ^ 44), 0x0010000000000100, 640]; let j := { tJob 1 [r] with sub := 1 }; let s := withMem ((tEng j).setReg (ringReg 0 5) (mkWord [(0, 43), (4, 25), (5, 14), (32, 0)])) 0x100 [1, 2, 3]; let p := engGot (s, 99) (s.ringRun j (128 * 32 + 128 * 5 * (s.rfld (ringReg 0 5 + 8) 16 16 % 4)) (r.getD 1 0 + BitVec.ofNat 64 (j.sub % 64 * bitsAt (r.getD 2 0) 0 40)) 5 4 (j.sub / 64)); s = s.settle 0 ∧ TakesTurn s 0 (4096 + 7) 0x14 j r ∧ s.ringOf 0 5 j.view.ctx = some (32, 5, 4) ∧ bitsAt (r.getD 0 0) 50 4 = 5 ∧ p.2 = 4) ∧
    (let r : List Word := [BitVec.ofNat 64 (0x14 * 2 ^ 59 + 5 * 2 ^ 50), 0x0010000000000100, 128]; let j := tJob 1 [r]; let s := (tEng j).setReg (ringReg 0 5) (mkWord [(3, 43), (4, 25), (1, 14), (32, 0)]); s = s.settle 0 ∧ TakesTurn s 0 (4096 + 7) 0x14 j r ∧ s.ringOf 0 5 j.view.ctx = none) := by
  refine ⟨?_, ?_, ?_, ?_, ?_, ?_, ?_, ?_, ?_, ?_, ?_⟩ <;> decide +kernel

theorem witness_EngineCommands_OneTransfer :
    (let j := tJob 1 [[0]]; let s0 := tEng j; let s : State := { s0 with store := cellWrite [] (storeAddr 0 0x40) [1, 2, 3] }; let p : Span := { place := .store, addr := storeAddr 0 0x40, len := 100, grain := 0, pol := 0 }; let q : Span := { place := .store, addr := storeAddr 0 0x80, len := 100, grain := 0, pol := 0 }; (s.jobs.find? fun k => k.seq == j.seq) = some j ∧ s.engSpans j .engRead 0x0020000000000040 100 = ([p], 100, none) ∧ s.engSpans j .engWrite 0x0020000000000080 100 = ([q], 100, none) ∧
  p.place = .store ∧ q.place = .store ∧ p.len = 100 ∧ q.len = 100 ∧ Memory.wf s.store = true) := by
  decide +kernel

theorem witness_JobProgress_JobProgress :
    (let r : List Word := [BitVec.ofNat 64 (4 * 2 ^ 59 + 2 ^ 50)]; let j := tJob 0 [r]; let s := tEng j; s.jobAt 0 7 = some j ∧ s.engHeld 0 j.eng = none ∧ s.engChoice 0 j.eng = some j ∧ j.word = none ∧ s.mayIssue j = true ∧ j.busy = none) ∧
    (let r : List Word := [BitVec.ofNat 64 (4 * 2 ^ 59), 0]; let j := { tJob 0 [r] with busy := some 0, begun := true, sub := 3 }; let s := tEng j; let z := tEng { j with busy := some 9 }; s.jobAt 0 7 = some j ∧ j.busy = some 0 ∧ j.cmd = some r ∧ 0 ≤ s.now ∧ recOp r ≠ 0x14 ∧ z.jobAt 0 7 = some { j with busy := some 9 } ∧ z.now < 9) ∧
    (let r : List Word := [BitVec.ofNat 64 (1 * 2 ^ 59), BitVec.ofNat 64 (2 * 2 ^ 60 + 3 * 2 ^ 56)]; let j := { tJob 0 [r] with busy := some 0 }; let s := tEng j; s.jobAt 0 7 = some j ∧ j.busy = some 0 ∧ j.cmd = some r ∧ recOp r ≠ 0x14 ∧ poppedRings r = [2, 3]) ∧
    (let r : List Word := [BitVec.ofNat 64 (0x14 * 2 ^ 59 + 5 * 2 ^ 50 + 1 * 2 ^ 44), 0x0010000000000100, 128]; let j := { tJob 1 [r] with busy := some 0 }; let s := tEng j; let k := { j with sub := 1 }; let z := tEng k; s.jobAt 0 (4096 + 7) = some j ∧ j.busy = some 0 ∧ j.cmd = some r ∧ recOp r = 0x14 ∧ bitsAt (r.getD 0 0) 50 4 = 5 ∧ j.sub ≠ bitsAt (r.getD 0 0) 44 6 ∧ z.jobAt 0 (4096 + 7) = some k ∧ k.sub = bitsAt (r.getD 0 0) 44 6) ∧
    (let r : List Word := [BitVec.ofNat 64 (4 * 2 ^ 59 + 3)]; let k := { tJob 0 [r] with stamped := true }; let s : State := { tEng k with quartz := 9 }; let z : State := { tEng k with quartz := 2 }; let y : State := { tEng k with quartz := 3 }; let x : State := { tEng k with quartz := 3, jobs := [k, { tJob 0 [[0]] with id := 9, seq := 5, busy := some 99 }] }; s = s.settle 0 ∧ s.jobAt 0 7 = some k ∧ k.busy = none ∧ k.begun = false ∧ k.word = none ∧ k.stampAt = some (some (3 : Nat)) ∧ (3 : Nat) < s.now ∧ s.atStamp 3 = false ∧ z = z.settle 0 ∧ z.jobAt 0 7 = some k ∧ z.now < 3 ∧
  y = y.settle 0 ∧ y.jobAt 0 7 = some k ∧ y.now = 3 ∧ y.engChoice 0 0 = some k ∧ x = x.settle 0 ∧ x.jobAt 0 7 = some k ∧ x.now = 3 ∧ x.engChoice 0 0 = none) ∧
    (let k := tJob 0 [[BitVec.ofNat 64 (4 * 2 ^ 59)]]; let s := tEng k; let l := { tJob 0 [[BitVec.ofNat 64 (4 * 2 ^ 59 + 3)]] with at_ := 9 }; let z := tEng l; s = s.settle 0 ∧ s.jobAt 0 7 = some k ∧ k.stampAt = none ∧ z = z.settle 0 ∧ z.jobAt 0 7 = some l ∧ l.stampAt = some none) ∧
    (let j := { tJob 0 [[0]] with next := 1 }; let s := tEng j; s.jobAt 0 7 = some j ∧ j.word = none ∧ j.busy = none ∧ j.recs.length ≤ j.next ∧ j.wins = 0) ∧
    (let j := { tJob 0 [[0]] with next := 1, tok := 2 }; let s := tEng j; s.jobAt 0 7 = some j ∧ j.word = none ∧ j.busy = none ∧ j.recs.length ≤ j.next ∧ j.wins = 0 ∧ j.drop = false ∧ j.tok ≠ 0) ∧
    (let j := { tJob 0 [[0]] with next := 1, tok := 2, word := some 5 }; let s := tEng j; let z := onC s fun c => c.setToken (12 + (strandOf (2 - 1)).num) 63; let k := { j with drop := true }; let y := tEng k; s.jobAt 0 7 = some j ∧ j.word ≠ none ∧ j.tokDone = false ∧ j.tok ≠ 0 ∧ j.drop = false ∧ (s.coreAt j.core).token (12 + (strandOf (j.tok - 1)).num) + (s.coreAt j.core).reserved (12 + (strandOf (j.tok - 1)).num) < 63 ∧
  z.jobAt 0 7 = some j ∧ 63 ≤ (z.coreAt j.core).token (12 + (strandOf (j.tok - 1)).num) + (z.coreAt j.core).reserved (12 + (strandOf (j.tok - 1)).num) ∧ y.jobAt 0 7 = some k ∧ k.drop = true) := by
  refine ⟨?_, ?_, ?_, ?_, ?_, ?_, ?_, ?_, ?_⟩ <;> decide +kernel

theorem witness_JobProgress_VectorUnit :
    (let x : XFlight := { n := 4, due := 6, flags := 3, sig := false }; let s := onC tVec fun c => { (c.setQueue 3 [{ data := 9, due := 6, src := 4, landed := false }]) with flight := [x], xfctl := 4 }; s.core.flight = [x] ∧ x.n = 4 ∧ x.sig = false) ∧
    (let s := tVec; let cl : Cluster := aget Cluster.reset 0 s.clusters; cl.vq = List.replicate 8 []) ∧
    (let s : State := { tVec with clusters := aput Cluster.reset 0 { Cluster.reset with vq := [[3, 4, 5], [6], [], [], [], [], [], []] } tVec.clusters }; let cl : Cluster := aget Cluster.reset 0 s.clusters; cl.vq.length = 8 ∧ cl.vq.map List.length = [3, 1, 0, 0, 0, 0, 0, 0]) := by
  refine ⟨?_, ?_, ?_⟩ <;> decide +kernel

theorem witness_Placement_Placement :
    (let t := { tTask with st := .queued, rtn := none, core := none }; let s := ((onC { tK with lm := { tK.lm with tasks := [t], preload := [(0, 0)] } } fun _ => Core.reset 0).setReg (ctxBase 0 + 0x20) 0x0100000000000000).setReg (ctxBase 0 + 0x18) 4; let z := s.setReg (ctxBase 0 + 0x18) 0; s = s.recheckPreloads ∧ s.coreIdle 0 = true ∧ s.preloadOf 0 = some t ∧ s.numbered t = true ∧ z = z.recheckPreloads ∧ z.coreIdle 0 = true ∧ z.preloadOf 0 = some t ∧ z.numbered t = false ∧ 0 ∉ z.lm.offered) ∧
    (let t := { tTask with st := .queued, rtn := none, core := none }; let s := ((onC { tK with lm := { tK.lm with tasks := [t], ready := [(1, [0])], launches := [{ key := 0, lid := 0, ctx := 0, q := 0, desc := [], placed := 0, ended := 0 }] } } fun _ => Core.reset 0).setReg (ctxBase 0 + 0x20) 0x0100000000000000).setReg (ctxBase 0 + 0x18) 4; s = s.recheckPreloads ∧ s.coreIdle 0 = true ∧ s.preloadOf 0 = none ∧ (s.choose s.coreFree 0).isSome = true) ∧
    (let s : State := onC { tK with lm := { tK.lm with tasks := [] } } fun _ => Core.reset 0; s = s.recheckPreloads ∧ s.coreIdle 0 = true ∧ s.preloadOf 0 = none ∧ s.choose s.coreFree 0 = none ∧ 0 ∉ s.lm.offered ∧ tK = tK.recheckPreloads ∧ tK.coreIdle 0 = false) ∧
    (let t := { tTask with id := 1, st := .queued, rtn := none, core := none }; let s : State := (({ tK with lm := { tK.lm with tasks := [tTask, t], ready := [(1, [1])], launches := [{ key := 0, lid := 0, ctx := 0, q := 0, desc := [], placed := 0, ended := 0 }] } } : State).setReg (ctxBase 0 + 0x20) 0x0100000000000000).setReg (ctxBase 0 + 0x18) 4; let d := (s, 9, 9, ([] : List (Nat × Nat))); let r := (s.choose (fun i => i == 0 || s.coreFree i) 0).getD d; s.taskOn 0 = some tTask ∧ tTask.pager = false ∧ s.isPagerCore 0 = false ∧ s.lm.preload = [] ∧ (s.choose (fun i => i == 0 || s.coreFree i) 0).isSome = true ∧ r.2.2.2 = [(t.id, 0)] ∧ TaskIs r.1 t ∧ s.lm.vacates = []) ∧
    (let s := tK.setReg (clusterBase 0) 2; s.isPagerCore 6 = true) ∧
    (let s := ((onC tK fun c => { c with budget := 2048 }).modTask 0 fun t => { t with sched := 2 }); let t := s.lm.tasks.headD tTask; s.taskOn 0 = some t ∧ t.pager = false ∧ (s.coreAt 0).preempt = 0 ∧ (s.coreAt 0).saving = 0 ∧ s.budgetOf t ≠ 0 ∧ s.budgetOf t ≤ (s.coreAt 0).budget) ∧
    (let t := { tTask with id := 1, cls := 0, st := .queued, rtn := some 1, core := none, saved := true, doms := [5, 0, 0, 0] }; let s : State := (({ tK with lm := { tK.lm with tasks := [{ tTask with doms := [5, 0, 0, 0] }, t], ready := [(0, [1])] } } : State).setReg (ctxBase 0 + 0x20) 0x0000010000000000).setReg (clusterBase 0 + 0x10) 1; let z : State := { s with cores := (List.range 7).map fun k => { Core.reset (k + 1) with task := some { id := 9, rtn := none, pager := false, lid := 0 } } }; (TaskIs z t ∧ t.cls = 0 ∧ t.st = .queued ∧ z.lm.vacates = [] ∧ (∀ i < 2048, (z.coreFree i && z.wouldTake t i) = false) ∧ (List.range 2048).find? (fun i => z.borrowed i && z.wouldTake t i) = some 0 ∧ z.preloadOf 0 = none)) := by
  refine ⟨?_, ?_, ?_, ?_, ?_, ?_, ?_⟩
  · decide +kernel
  · decide +kernel
  · decide +kernel
  · decide +kernel
  · decide +kernel
  · decide +kernel
  · exact by
      intro t s z
      refine ⟨by decide +kernel, rfl, rfl, rfl, fun i _ => ?_, by decide +kernel, by decide +kernel⟩
      by_cases h : i / 8 = 0
      · have : i < 8 := by omega
        revert this; revert i; decide +kernel
      · rw [not_taken z t i rfl (by simpa [t, tTask] using h) (by decide +kernel)]; simp

theorem witness_Placement_StartsAndResumptions :
    (let s := (onC (withMem tK 0x20000 (wordsBytes [0x1000000000000001, 0x0F00000000000000])) fun _ => Core.reset 0).setReg (ctxBase 0 + 0x28) 0x0000000000020001; let u := s.started tTask 0; let es := (u.loadImage 0x20000 1).toOption.getD []; let z := s.setReg (ctxBase 0 + 0x28) 0; let w := z.started tTask 0; TaskIs s tTask ∧ tTask.core = some 0 ∧ tTask.st = .running ∧ tTask.saved = false ∧ (s.coreAt 0).task = none ∧ s.awake (0 / 8) = true ∧ u.bindingOf tTask = some (0x20000, 1) ∧ u.loadImage 0x20000 1 = .ok es ∧ es ≠ [] ∧
  TaskIs z tTask ∧ (z.coreAt 0).task = none ∧ z.awake (0 / 8) = true ∧ w.bindingOf tTask = none ∧ (match w.loadArray 0 tTask with | .error v => decide (v = BitVec.allOnes 64) | .ok _ => false) = true) ∧
    (let t := { tTask with saved := true, binding := some (0x20000, 1) }; let s := onC (withMem { tK with lm := { tK.lm with tasks := [t] } } 0x20000 (wordsBytes [0x1000000000000001, 0x0F00000000000000])) fun _ => Core.reset 0; let u := s.resumed t 0 0; let es := (u.loadImage 0x20000 1).toOption.getD []; let q := { tTask with saved := true, binding := some (0x20000, 2) }; let z := onC (withMem { tK with lm := { tK.lm with tasks := [q] } } 0x20000 (wordsBytes [0x1000000000000001, 0x0F00000000000000, 3, 0])) fun _ => Core.reset 0; let w := z.resumed q 0 0; TaskIs s t ∧ t.core = some 0 ∧ t.rtn = some 0 ∧ t.st = .running ∧ t.saved = true ∧ (s.coreAt 0).task = none ∧ s.awake (0 / 8) = true ∧ u.bindingOf t = some (0x20000, 1) ∧ u.loadImage 0x20000 1 = .ok es ∧
  TaskIs z q ∧ (z.coreAt 0).task = none ∧ w.bindingOf q = some (0x20000, 2) ∧ w.loadImage 0x20000 2 = .error 1) := by
  refine ⟨?_, ?_⟩ <;> decide +kernel

theorem witness_Placement_TaskStartState :
    (let d : List Word := List.replicate 32 0x000F0000000000FF; d.length = 32) ∧
    (let d : List Word := List.replicate 32 0x00B00000000000F0; d.length = 32 ∧ (d.getD 0 0).getLsbD 51 = false) := by
  refine ⟨?_, ?_⟩ <;> decide +kernel

theorem witness_SavesAndLaunches_SavesAndDeadlocks :
    (let s := onC tK fun c => { c with preempt := 2 }; (s.coreAt 0).mayStop = true ∧ (s.coreAt 0).task = some { id := 0, rtn := some 0, pager := false, lid := 0 } ∧ (s.coreAt 0).preempt = 2 ∧ (tK.coreAt 0).mayStop = false) ∧
    (let t := { tTask with st := .saving }; let s := (onC { tK with lm := { tK.lm with tasks := [t] } } fun c => { c with saving := 2 }).withOp (tK.newOp 0x0010000000000000 (.store [{ place := .mem, addr := 0, len := 8, grain := 0, pol := 0 }] (zeroBytes 8)) .none none 0 0 none false); s.taskOn 0 = some t ∧ (s.coreAt 0).saving ≠ 0 ∧ s.saveDrained 0 t = false) ∧
    (let t := { tTask with st := .saving }; let s := onC { tK with lm := { tK.lm with tasks := [t] }, jobs := [{ tJob 1 [] with word := some 77, tokDone := true }] } fun c => { c with saving := 2 }; s.taskOn 0 = some t ∧ t.rtn = some 0 ∧ (s.coreAt 0).saving ≠ 0 ∧ s.saveDrained 0 t = true) ∧
    (let s := onC (withCode tK 0x104 (codeOf [.twait 1, .twait 2, .join 0])) fun c => { c with l := { c.l with parked := true } }; let codes := s.waitCodes; s.focus 0 = s ∧ s.waitCodes = [6, 1, 1, 7] ∧ s.core.idx = 0 ∧ s.core.task.isSome = true ∧ s.core.halted = false ∧ s.core.saving = 0 ∧ s.outstanding s.core = false ∧ codes.all (fun c => decide (1 ≤ c ∧ c ≤ 12)) = true) := by
  refine ⟨?_, ?_, ?_, ?_⟩ <;> decide +kernel

theorem witness_SavesAndLaunches_LaunchQueues :
    (let s := tK; (s.reg (lqReg 0 3)).getLsbD 63 = false) ∧
    (let s := withMem (tK.setReg (lqReg 0 3) 0x8000000000020000) 0x20000 [4]; (s.reg (lqReg 0 3)).getLsbD 63 = true ∧ (s.queueTail 0 3 + 2 ^ 32 - s.queuePos 0 3) % 2 ^ 32 ≤ s.queueSize 0 3) ∧
    (let s := withMem (tK.setReg (lqReg 0 3) 0x8000000000020000) 0x20000 [5]; (s.reg (lqReg 0 3)).getLsbD 63 = true ∧ s.queueSize 0 3 < (s.queueTail 0 3 + 2 ^ 32 - s.queuePos 0 3) % 2 ^ 32) ∧
    (let s := { withMem (tK.setReg (lqReg 0 3) 0x8000000000020000) 0x20000 [4] with lm := { tK.lm with tails := [(3, 4)] } }; let d := s.wordsAt (s.queueSlot 0 3 0) 32; s.queuePos 0 3 = 0 ∧ (s.reg (lqReg 0 3)).getLsbD 63 = true ∧ aget 0 3 s.lm.tails ≠ 0 ∧ s.lm.launches = [] ∧ s.descStatus 0 3 d = some 0x20) ∧
    (let s0 := withMem (withMem (withMem ((((tK.setReg (lqReg 0 3) 0x8000000000020000).setReg (ctxBase 0 + 0x10) 0x5000000000000000).setReg (ctxBase 0) 0x40000).setReg (ctxBase 0 + 8) 2) 0x20000 [4]) 0x20100 (wordsBytes [0x0010000000000001, 0x0000000000000000, 0, 0, 0])) 0x40000 (wordsBytes [0, 0, 0, 0, 0, 0x8000000000010000, 0x1F00000000, 0]); let s := { s0 with lm := { tK.lm with tails := [(3, 4)] } }; let d := s.wordsAt (s.queueSlot 0 3 0) 32; s.queuePos 0 3 = 0 ∧ (s.reg (lqReg 0 3)).getLsbD 63 = true ∧ aget 0 3 s.lm.tails ≠ 0 ∧ s.lm.launches = [] ∧ s.descStatus 0 3 d = none) := by
  refine ⟨?_, ?_, ?_, ?_, ?_⟩ <;> decide +kernel

theorem witness_ContextsAndPager_ContextStates :
    (let s : State := tK.setReg (ctxBase 5 + 0x10) 0x1000000000000000; let t : State := s.setFld (ctxBase 5 + 0x10) 62 1 1; (5 : Nat) < 64 ∧ bitsAt (t.reg (ctxBase 5 + 0x10)) 60 2 ≠ 0 ∧ bitsAt (s.reg (ctxBase 5 + 0x10)) 60 2 = 1) ∧
    (let s : State := { tK.setReg (ctxBase 0 + 0x10) 0x2000000000000000 with jobs := [tJob 0 []], coh := { tK.coh with tags := [{ cache := 32, ctx := 0, sline := 7, grain := 0, st := List.replicate 16 .s, valid := 0xFFFF, clus := 0, use := 1 }], pins := [{ clu := 0, core := 0, ctx := 0, sline := 7, unit := 1, scope := 1 }] } }; (0 : Nat) < 64 ∧ bitsAt (s.reg (ctxBase 0 + 0x10)) 60 2 = 2 ∧ s.lm.tasks ≠ []) ∧
    (let s : State := tK; let t : State := s.setFld (ctxBase 63 + 0x10) 62 1 1; (63 : Nat) < 64 ∧ bitsAt (t.reg (ctxBase 63 + 0x10)) 60 2 = 0 ∧ bitsAt (s.reg (ctxBase 63 + 0x10)) 60 2 = 0) ∧
    (let s : State := tK.setReg (ctxBase 0 + 0x10) 0x3000000000000000; let q : State := { s with futures := [{ tFut with ctx := 0 }] }; let e : E2eReq := { dst := 4, sq := 5, req := { kind := .write [1, 2], addr := 0x4000 }, agent := 0, core := none, uid := 7, ctx := 0, sends := 0, sentAt := 0 }; let w : State := { q with fab := { q.fab with e2e := [e] } }; let x : State := { q with fab := { q.fab with e2e := [{ e with uid := 2 ^ 40 }] } }; ((0 : Nat) < 64 ∧ bitsAt (q.reg (ctxBase 0 + 0x10)) 60 2 = 3 ∧ q.fab.e2e = [] ∧ w.fab.e2e = [e] ∧ e.ctx = 0 ∧ e.uid ≠ 2 ^ 40 ∧ (∀ e ∈ x.fab.e2e, e.ctx = 0 → e.uid = 2 ^ 40))) := by
  refine ⟨?_, ?_, ?_, ?_⟩ <;> decide +kernel

theorem witness_ContextsAndPager_PagerEvents :
    (let s : State := tK; ((s.reg 0x070).getLsbD 0 = false ∧ (200 : Nat) < 256 ∧ ((List.range 8).all fun i => !((s.coreAt (8 * 200 + i)).task.map (·.pager)).getD false) = true ∧ ((List.range 8).all fun i => !(((((s.writeReg (clusterBase 200) 3).superDeliver).coreAt (8 * 200 + i)).task.map (·.pager)).getD false)) = true ∧
  s.lm.hostq = [] ∧ (∀ d ∈ s.allCores, d.pagerOut = none) ∧ (∀ t ∈ s.lm.tasks, t.pagerOut = none))) ∧
    (let s : State := onC tK fun c => { c with pagerOut := some (1, 2) }; let v : Word := mkWord [(2, 48), (1, 31)]; let u : State := s.answered none v; (u.allCores.find? (fun c => c.task.isSome && c.view.ctx == bitsAt v 42 6 && c.pagerOut == some (bitsAt v 31 11, bitsAt v 48 16))).isSome = true) ∧
    (let v : Word := mkWord [(2, 48), (1, 31), (0xFF, 0)]; let s : State := { tK with lm := { tK.lm with tasks := [{ tTask with saved := true, id := 9, core := none, pagerOut := some (1, 2) }], hostq := [[v, 0, 0, 0]] } }; let u : State := s.answered none v; ((u.lm.tasks.find? (fun t => t.saved && t.ctx == bitsAt v 42 6 && t.pagerOut == some (bitsAt v 31 11, bitsAt v 48 16))).isSome = true ∧ (∀ d ∈ u.allCores, d.task.isSome → d.view.ctx = bitsAt v 42 6 → d.pagerOut ≠ some (bitsAt v 31 11, bitsAt v 48 16)))) ∧
    (let s : State := (withMem (withMem (((((tK.setReg (clusterBase 1) 1).setReg 0x070 (mkWord [(1, 0), (0x201, 8)])).setReg (ctxBase 0 + 0x10) 0x5000000000000000).setReg (ctxBase 0) 0x40000).setReg (ctxBase 0 + 8) 2) 0x20100 (wordsBytes [0x0012000000000000, 0x0000000000000000, 0, 0, 0])) 0x40000 (wordsBytes [0, 0, 0, 0, 0, 0x8000000000010000, 0x1F00000000, 0])); let d : List Word := s.wordsAt (bitsAt (s.reg 0x070) 8 44 * 256) 32; (s.reg 0x070).getLsbD 0 = true ∧ (15 : Nat) < 2048 ∧ s.isPagerCore 15 = true ∧ (s.coreAt 15).task = none ∧ s.ctxState 0 = 1 ∧ (15 ∉ s.lm.pagerIdle) ∧ s.awake (15 / 8) = true ∧ ((0, 1) ∉ s.ras.fenced) ∧ descZero d true = true ∧
  (s.programHandle 0 d).isSome = true ∧ descEntries d 0x10000 = true ∧ (s.reg (ctxBase 0 + 0x10)).getLsbD 62 = true ∧ (d.getD 0 0).getLsbD 49 = true) ∧
    (let s : State := (withMem (withMem (((((tK.setReg (clusterBase 1) 1).setReg 0x070 (mkWord [(1, 0), (0x201, 8)])).setReg (ctxBase 0 + 0x10) 0x1000000000000000).setReg (ctxBase 0) 0x40000).setReg (ctxBase 0 + 8) 2) 0x20100 (wordsBytes [0x0012000000000000, 0x0000000000000000, 0, 0, 0])) 0x40000 (wordsBytes [0, 0, 0, 0, 0, 0x8000000000010000, 0x1F00000000, 0])); (s.reg 0x070).getLsbD 0 = true ∧ (15 : Nat) < 2048 ∧ s.isPagerCore 15 = true ∧ (s.coreAt 15).task = none ∧ s.ctxState 0 = 1 ∧ (15 ∉ s.lm.pagerIdle) ∧ s.awake (15 / 8) = true ∧ ((0, 1) ∉ s.ras.fenced) ∧ (s.reg (ctxBase 0 + 0x10)).getLsbD 62 = false) ∧
    (let s : State := onC { tK with lm := { tK.lm with tasks := [{ tTask with launch := none, index := 0, sup := true, rtn := none }] } } fun c => { c with task := some { id := 0, rtn := none, pager := true, lid := 0 } }; let u : State := (s.writeReg (clusterBase 0) 0).superDeliver; (0 : Nat) < 256 ∧ PagerEnds u 0 ∧ ((List.range 8).all fun j => j == 0 || (!((u.coreAt (8 * 0 + j)).task.map (·.pager)).getD false)) = true ∧ ((List.range 8).all fun j => !(((u.endTask 0).coreAt (8 * 0 + j)).task.map (·.pager)).getD false) = true) := by
  refine ⟨?_, ?_, ?_, ?_, ?_, ?_⟩ <;> decide +kernel

theorem witness_StoresAndMscWindows :
    (let s : State := (tK.setReg (splitReg 9) 0x201).setReg (clusterBase 9) 0; let q : State := { s with store := cellWrite [] (2 ^ 21 * 9 + 2 ^ 18 - 4) [1, 2, 3, 4, 5] }; (q.reg (splitReg 9)).getLsbD 9 = true ∧ q.clusterHolds 9 = false ∧ (q.reg (splitReg 8)).getLsbD 9 = false ∧ q.mscEnabled 3 63 = false ∧ (q.reg (mscBase 3 63 + 8)).getLsbD 62 = false ∧ q.now % 2 ^ (max 16 (min 24 (q.rfld (stackBase 3) 0 5))) = 0) ∧
    (let s : State := tK.setReg (splitReg 0) 0x201; (s.reg (splitReg 0)).getLsbD 9 = true ∧ s.clusterHolds 0 = true) ∧
    (let s : State := { tK.setReg (mscBase 3 2) (BitVec.ofNat 64 (3 * 2 ^ 36)) with quartz := 5 }; let v : Word := 0x8055000000000002; let w : Word := 0x9055000000FFFFFF; s.mscEnabled 3 2 = false ∧ (s.writeReg (mscBase 3 2 + 8) v).mscAdmits 3 2 = true ∧ (s.writeReg (mscBase 3 2 + 8) w).mscAdmits 3 2 = false ∧ s.now % 2 ^ (max 16 (min 24 (s.rfld (stackBase 3) 0 5))) ≠ 0) ∧
    (let s : State := (tK.setReg (mscBase 3 2) (BitVec.ofNat 64 (3 * 2 ^ 36))).setReg (mscBase 3 2 + 8) 0xF055000000000001; let v : Word := 0x1003000000000003; s.mscEnabled 3 2 = true ∧ v.getLsbD 60 = true ∧ (s.reg (mscBase 3 2 + 8)).getLsbD 61 = true ∧ (s.reg (mscBase 3 2 + 8)).getLsbD 62 = true ∧ s.rfld (mscBase 3 2 + 8) 48 8 ≠ 0 ∧ (64 * 3 + 2 ∉ s.coh.touched) ∧ s.rfld (mscBase 3 2 + 8) 40 8 ≤ 1) ∧
    (let s : State := (tK.setReg (mscBase 3 2) (BitVec.ofNat 64 (3 * 2 ^ 36))).setReg (mscBase 3 2 + 8) 0xE055020000000001; let t : State := { s with coh := { s.coh with touched := [64 * 3 + 2] } }; (s.reg (mscBase 3 2 + 8)).getLsbD 61 = true ∧ s.rfld (mscBase 3 2 + 8) 48 8 ≠ 0 ∧ (64 * 3 + 2 ∉ s.coh.touched) ∧ 1 < s.rfld (mscBase 3 2 + 8) 40 8 ∧ 64 * 3 + 2 ∈ t.coh.touched ∧ (s.reg (mscBase 3 2 + 8)).getLsbD 62 = true) := by
  refine ⟨?_, ?_, ?_, ?_, ?_⟩ <;> decide +kernel

theorem witness_ProbesAndMigrations_Probes :
    (let p : Probe := { agent := 2, sline := 7, unit := 1, ctx := 4, kind := 0, from_ := 3 }; let s : State := tK; let r0 : Answer × State := (s.dirtyOut p 0).probeAgent 2 (probeCtx p) 7 1 0; let r1 : Answer × State := (s.dirtyOut p 1).probeAgent 2 (probeCtx p) 7 1 1; (s.probeRefused { p with kind := 0 } = false ∧ s.probeRefused { p with kind := 1 } = false ∧ r0.1 = .notheld false ∧ r1.1 = .notheld false ∧ (∀ t ∈ s.coh.answers, t.1 ≠ p))) ∧
    (let p : Probe := { agent := 2, sline := 7, unit := 1, ctx := 4, kind := 0, from_ := 3 }; let g : Tag := { cache := 2, ctx := 4, sline := 7, grain := 0, st := .i :: .m :: List.replicate 14 .e, valid := 0xFFFF, clus := 1, use := 1 }; let s : State := { tK with coh := { tK.coh with tags := [g, { g with cache := 64 }, { g with cache := 3, ctx := 5 }], copies := [{ ctx := 4, sline := 7, data := List.replicate 512 9, poison := 2 }] } }; let d1 : State := s.dirtyOut p 1; let r0 : Answer × State := (s.dirtyOut p 0).probeAgent 2 (probeCtx p) 7 1 0; let r1 : Answer × State := d1.probeAgent 2 (probeCtx p) 7 1 1; let r2 : Answer × State := (s.dirtyOut p 2).probeAgent 2 (probeCtx p) 7 1 2; s.probeRefused { p with kind := 0 } = false ∧ s.probeRefused { p with kind := 1 } = false ∧ s.probeRefused { p with kind := 2 } = false ∧ r0.1 = .data ∧ r1.1 = .data ∧ r2.1 = .data ∧ p.unit < 16) ∧
    (let p : Probe := { agent := 2, sline := 7, unit := 1, ctx := 4, kind := 2, from_ := 3 }; let s : State := { tK with coh := { tK.coh with pins := [{ clu := 70, core := 560, ctx := 4, sline := 7, unit := 1, scope := 1 }] } }; s.probeRefused { p with kind := 0 } = true ∧ s.probeRefused { p with kind := 1 } = true ∧ s.probeRefused { p with kind := 2 } = true) ∧
    (let p : Probe := { agent := 2, sline := 7, unit := 1, ctx := 4, kind := 1, from_ := 3 }; let s : State := { tK with quartz := 9, coh := { tK.coh with answers := [(p, .data, 9)], dir := [{ sline := 7, grain := 0, pin := false, vec := 4, units := List.replicate 16 (1, 0) }] } }; let e : State := { tK with quartz := 9, coh := { tK.coh with answers := [(p, .retry, 8)] } }; let n : State := { tK with quartz := 49, coh := { tK.coh with answers := [(p, .notheld true, 49)] } }; let w : State := { tK with quartz := 9, coh := { tK.coh with refused := [(p, 9)] } }; let v : State := { tK with quartz := 8, coh := { tK.coh with refused := [(p, 9)] } }; 9 ≤ s.now ∧ s.coh.answers = [(p, .data, 9)] ∧ e.coh.answers = [(p, .retry, 8)] ∧ n.coh.answers = [(p, .notheld true, 49)] ∧ 49 ≤ n.now ∧ w.coh.refused = [(p, 9)] ∧ 9 ≤ w.now ∧ v.coh.refused = [(p, 9)] ∧ v.now < 9) ∧
    (let q : HomeReq := { kind := .readExclusive, addr := 0x5000, data := [], ctx := 0, agent := 3, die := 3, grain := 0, pol := 0 }; let s : State := tK; rangeOk q.addr (max 1 q.data.length) = true ∧ q.agent < 17 ∧ ((1, s.homeAgent q.addr) ∉ s.ras.fenced) ∧ s.coh.queue = []) := by
  refine ⟨?_, ?_, ?_, ?_, ?_⟩ <;> decide +kernel

theorem witness_ProbesAndMigrations_HomeRequests :
    (let q : HomeReq := { kind := .readExclusive, addr := 0x5000, data := [], ctx := 0, agent := 3, die := 3, grain := 0, pol := 0 }; let s : State := { tK with coh := { tK.coh with queue := [{ home := tK.homeAgent 0x5000, pa := 0x5000, asker := .req q, mig := false, due := 0 }], retries := [q] } }; let t : State := okOr s (s.homePerform q); okIs (s.homePerform q) t = true ∧ s.homeOf q.addr = .own) ∧
    (let q : HomeReq := { kind := .readShared, addr := 0x5020, data := [], ctx := 0, agent := 3, die := 3, grain := 0, pol := 0 }; let b : HomeReq := { q with agent := 9 }; let s : State := { tK with coh := { tK.coh with queue := [{ home := tK.homeAgent 0x5000, pa := 0x5000, asker := .req b, mig := false, due := 0 }], retries := [q] } }; let u : State := s.enqueue (reqWho q) 0x5020; waitsAt (s.homePerform q) 0x5020 = true ∧ (u.coh.queue.any fun e => e.asker == .req q) = true ∧ s.homeOf q.addr = .own) ∧
    (let q : HomeReq := { kind := .readShared, addr := 0x5020, data := [], ctx := 0, agent := 3, die := 3, grain := 0, pol := 0 }; let s : State := { tK with coh := { tK.coh with queue := (List.range 256).map fun i => { home := tK.homeAgent 0x5000, pa := 0x5000, asker := .hart i, mig := false, due := 0 } } }; let r : State := { s with coh := { s.coh with retries := [q] } }; waitsAt (s.homePerform q) 0x5020 = true ∧ waitsAt (r.homePerform q) 0x5020 = true ∧ ((s.enqueue (reqWho q) 0x5020).coh.queue.any fun e => e.asker == .req q) = false ∧ ((r.enqueue (reqWho q) 0x5020).coh.queue.any fun e => e.asker == .req q) = false ∧ (q ∉ s.coh.retries) ∧ q ∈ r.coh.retries) ∧
    (let q : HomeReq := { kind := .readShared, addr := 0x5000, data := [], ctx := 0, agent := 3, die := 3, grain := 0, pol := 0 }; let w : HomeReq := { q with kind := .writeback, data := [1, 2], agent := 16 }; let g : Tag := { cache := 16, ctx := 64, sline := slineOf 0x5000, grain := 0, st := .m :: List.replicate 15 .e, valid := 0xFFFF, clus := 0, use := 1 }; let s : State := { tK with coh := { tK.coh with tags := [g] } }; (s.homeOf q.addr = .own ∧ s.queuedBefore (reqWho w) q.addr = false ∧ (∀ t ∈ s.coh.tags, t.st.length = 16) ∧ (reqWho q).agent < 17 ∧ okIs (s.cached (reqWho q) 0x5000 0 0 false false) (okOr s (s.cached (reqWho q) 0x5000 0 0 false false)) = true)) ∧
    (let q : HomeReq := { kind := .writeback, addr := 0x10000800, data := [1], ctx := 0, agent := 3, die := 3, grain := 0, pol := 0 }; let s : State := { tK with coh := { tK.coh with migs := [{ old := 0x10000000, new := 0x20000000, size := 16, nocopy := true, host := false, recalled := true, due := 0, copied := [0] }] } }; s.homeOf q.addr = .queued) := by
  refine ⟨?_, ?_, ?_, ?_, ?_⟩ <;> decide +kernel

theorem witness_ProbesAndMigrations_Migrations :
    (let s : State := { tK with quartz := 7 }; let z : State := tK; let h : State := { tK.setReg 0x030 0x8000000000000002 with coh := { tK.coh with tracks := [{ agent := 1, frame := 5, count := 9, dies := [9, 0, 0] }, { agent := 2, frame := 6, count := 1, dies := [1] }] } }; s.now % 2 ^ (max 16 (min 30 (s.rfld 0x030 48 5))) ≠ 0 ∧ z.now % 2 ^ (max 16 (min 30 (z.rfld 0x030 48 5))) = 0 ∧ (z.reg 0x030).getLsbD 63 = false ∧ h.now % 2 ^ (max 16 (min 30 (h.rfld 0x030 48 5))) = 0 ∧ (h.reg 0x030).getLsbD 63 = true) ∧
    (let s : State := (tK.setReg 0x038 (mkWord [(0x1000, 16), (16, 0)])).setReg 0x040 (mkWord [(0x2000, 16)]); let v : Word := 0xC000000000000000; let t : State := s.writeReg 0x048 v; let u : State := t.setFld 0x048 48 8 1; let x : Mig := { old := u.rfld 0x038 16 36 * 2 ^ 16, new := u.rfld 0x040 16 36 * 2 ^ 16, size := u.rfld 0x038 0 5, nocopy := v.getLsbD 62, host := u.fmode 4, recalled := false, due := 0, copied := [] }; let b : State := tK.setReg 0x038 (mkWord [(0x1000, 16), (3, 0)]); v.getLsbD 63 = true ∧ t.migStatus = 1 ∧ x.old = 0x10000000 ∧ x.nocopy = true ∧ (b.writeReg 0x048 v).migStatus ≠ 1) ∧
    (let m : Mig := { old := 0x10000000, new := 0x20000000, size := 16, nocopy := true, host := false, recalled := true, due := 0, copied := [0] }; let s : State := { tK with coh := { tK.coh with migs := [m] } }; s.coh.migs.find? (fun x => x.old == 0x10000000) = some m ∧ s.migNext m = some 1 ∧ m.nocopy = true ∧ m.copied.length < 2 ^ m.size / 2048) ∧
    (let m : Mig := { old := 0x10000000, new := 0x20000000, size := 16, nocopy := false, host := true, recalled := true, due := 0, copied := [0] }; let s : State := { withMem tK 0x10001802 [7, 8] with coh := { tK.coh with migs := [m], queue := [{ home := 0, pa := 0x10001800, asker := .hart 1, mig := true, due := 0 }] } }; s.coh.migs.find? (fun x => x.old == 0x10000000) = some m ∧ s.migNext m = some 3 ∧ m.nocopy = false ∧ Memory.wf s.mem = true) ∧
    (let m : Mig := { old := 0x10000000, new := 0x20000000, size := 16, nocopy := true, host := false, recalled := true, due := 0, copied := List.range 32 }; let s : State := { tK with coh := { tK.coh with migs := [m] } }; s.coh.migs.find? (fun x => x.old == 0x10000000) = some m ∧ 2 ^ m.size / 2048 ≤ m.copied.length) ∧
    (let s : State := { tK with coh := { tK.coh with migDone := [(3, 4, true), (5, 6, false)], redirects := [(0x10000000, 0x20000000, 16), (0, 0x50000, 16)] } }; let v : Word := mkWord [(1, 63), (0x1000, 16)]; migRing.full s = false ∧ v.getLsbD 63 = true ∧ tK.coh.migDone = []) := by
  refine ⟨?_, ?_, ?_, ?_, ?_, ?_⟩ <;> decide +kernel

theorem witness_RingsAndPeers_RingFlits :
    (let f : Flit := { kind := 1, dst := 2, src := 3, cw := false, rsv := false, rfs := true, last := true, idx := 0, ctx := 5, agent := 40, tag := 4, e2e := 0, addr := 0x5000, data := [1, 2], rack := false, dmod := 0, smod := 0 }; let g : Flit := { f with rsv := true, rfs := false }; let z : Flit := { f with rfs := false }; let i1 : Flit := { f with idx := 1, last := true }; let i0 : Flit := { f with last := false }; let s : State := { tK with quartz := 40, fab := { tK.fab with ring := [{ cw := false, lane := 3, slot := 2, flit := f, back := false, since := 4 }] } }; let a : State := { tK with fab := { tK.fab with resv := [flitKey f] } }; let four : State := { tK with fab := { tK.fab with resv := [(2, 3, 10, false), (2, 3, 11, false), (2, 3, 12, false), (2, 3, 13, false)] } }; f.idx = 0 ∧ f.rsv = false ∧ f.rfs = true ∧ s.fab.resv = [] ∧ g.rsv = true ∧ flitKey g ∈ a.fab.resv ∧ z.rfs = false ∧ (flitKey f ∉ s.fab.resv) ∧ (four.fab.resv.filter fun r => r.1 == flitTo f && r.2.1 == flitFrom f && r.2.2.2 == f.rack).length = 4 ∧ i1.idx ≠ 0 ∧ sameMsg i1 i0 = true ∧ f.rack = false ∧ s.fab.incoming = []) ∧
    (let f : Flit := { kind := 1, dst := 2, src := 3, cw := false, rsv := false, rfs := true, last := true, idx := 0, ctx := 5, agent := 40, tag := 4, e2e := 0, addr := 0x5000, data := [1, 2], rack := false, dmod := 0, smod := 0 }; let k : Flit := { f with rack := true, dmod := 4, smod := 1 }; let s : State := tK; let x : Returned := { flit := { f with rsv := true, rfs := false }, returns := 1, due := s.now + 64 }; let xr : Returned := { flit := { k with rsv := true, rfs := false }, returns := 1, due := s.now + 1024 }; let b : State := { tK.setReg 0x010 0x13 with fab := { tK.fab with returned := [x] }, quartz := 64 }; let r : State := { tK.setReg 0x010 0x13 with fab := { tK.fab with returned := [xr] }, quartz := 1024 }; let full : State := { b with fab := { b.fab with ring := (List.range 32).map fun l => { cw := false, lane := l, slot := slotAt false 3 64, flit := { f with tag := 100 + l }, back := false, since := 60 } } }; x.due ≤ b.now ∧ xr.due ≤ r.now ∧ s.fab.returned = [] ∧ (b.insertFlit x.flit).isSome = true ∧ (full.insertFlit x.flit).isNone = true ∧ b.fab.returned = [x] ∧ r.fab.returned = [xr] ∧ xr.flit.rack = true) ∧
    (let f : Flit := { kind := 1, dst := 2, src := 3, cw := true, rsv := false, rfs := false, last := true, idx := 0, ctx := 5, agent := 40, tag := 4, e2e := 0, addr := 0x5000, data := [1, 2], rack := true, dmod := 4, smod := 1 }; let s : State := tK.setReg 0x010 0x13; let c : State := { s with fab := { s.fab with lanes := (List.range 28).map fun g => { Lane.new g with tx := .down } } }; f.dmod ≠ s.modid ∧ s.bundleCut 0 = false ∧ c.bundleCut 0 = true ∧ { f with dmod := s.modid }.dmod = s.modid) := by
  refine ⟨?_, ?_, ?_⟩ <;> decide +kernel

theorem witness_Links_LinkFlits :
    (let f : Flit := { kind := 8, dst := 8, src := 8, cw := true, rsv := false, rfs := false, last := true, idx := 0, ctx := 5, agent := 40, tag := 4, e2e := 9, addr := 0x5000, data := List.replicate 128 3, rack := true, dmod := 4, smod := 1 }; let l : Lane := { Lane.new 5 with n := 0xFFFFFF, since := 3, ackDue := 0, m := 0xFFFFFF, copies := [(0xFFFFFD, f), (0xFFFFFE, f)] }; let p : Lane := { Lane.new 89 with n := 7, since := 2, copies := [(9, f), (10, f)], m := 11 }; let s : State := { tK.setReg 0x010 0x13 with fab := { tK.fab with lanes := [l, p], waiting := [(0, 0, f)] } }; let sb : List Byte := natBytes 16 (flitHeader f).toNat; let xb : List Byte := linkBytes 1 0xFFFFFF 10 4 1 sb f.data; let x : LinkFlit := linkFlit (bodyOf xb ++ wordBytes (crcOf xb)); (s.laneOf 5 = l ∧ l.lg = 5 ∧ l.tx = .send ∧ l.copies.length < 4096 ∧ s.laneOf (pairLane 5) = p ∧ l.rx = .accept ∧ seqBefore 0xFFFFFE l.n = true ∧ l.since ≠ 0 ∧ l.ackDue ≤ s.now ∧ x.good = true ∧ x.kind = 1 ∧ x.sq = l.n ∧ x.flit = f ∧ (∃ c ∈ l.copies, seqBefore c.1 0xFFFFFE = false) ∧ (∀ c ∈ l.copies, seqBefore c.1 3 = true))) ∧
    (let b2 : List Byte := linkBytes 2 0 4 0 1 (zeroBytes 16) (zeroBytes 128); let b3 : List Byte := linkBytes 3 0 4 0 1 (zeroBytes 16) (zeroBytes 128); let b4 : List Byte := linkBytes 4 0 4 0 1 (natBytes 16 0x0FFF) (zeroBytes 128); let b5 : List Byte := linkBytes 5 0 4 0 1 (zeroBytes 16) (zeroBytes 128); let b7 : List Byte := linkBytes 7 0 4 0 1 (zeroBytes 16) (zeroBytes 128); let b1 : List Byte := linkBytes 1 0 4 0 1 (zeroBytes 16) (zeroBytes 127); (linkFlit (bodyOf b2 ++ wordBytes (crcOf b2))).good = true ∧ (linkFlit (bodyOf b2 ++ wordBytes (crcOf b2))).kind = 2 ∧ (linkFlit (bodyOf b3 ++ wordBytes (crcOf b3))).good = true ∧ (linkFlit (bodyOf b3 ++ wordBytes (crcOf b3))).kind = 3 ∧ (linkFlit (bodyOf b4 ++ wordBytes (crcOf b4))).good = true ∧ (linkFlit (bodyOf b4 ++ wordBytes (crcOf b4))).kind = 4 ∧ (linkFlit (bodyOf b4 ++ wordBytes (crcOf b4))).mask = 0x0FFF ∧ (linkFlit (bodyOf b5 ++ wordBytes (crcOf b5))).good = true ∧ (linkFlit (bodyOf b5 ++ wordBytes (crcOf b5))).kind = 5 ∧ (linkFlit (bodyOf b7 ++ wordBytes (crcOf b7))).good = false ∧ (linkFlit (bodyOf b1 ++ wordBytes (crcOf b1))).good = false) ∧
    (let f : Flit := { kind := 8, dst := 8, src := 8, cw := true, rsv := false, rfs := false, last := true, idx := 0, ctx := 5, agent := 40, tag := 4, e2e := 9, addr := 0x5000, data := List.replicate 128 3, rack := true, dmod := 4, smod := 1 }; let l : Lane := { Lane.new 5 with rx := .nakwait, naks := 14, n := 3, since := 63, nakDue := 0, tx := .replay, resend := some 8, copies := [(8, f), (9, f)], m := 10 }; let s : State := { tK.setReg 0x010 0x13 with fab := { tK.fab with lanes := [l] } }; let k : Lane := { l with naks := 15, resend := some 9 }; let e : State := { s with fab := { s.fab with lanes := [k] } }; let o : Lane := { l with nakDue := 9, ackDue := 9, since := 0, rx := .realign }; let w : State := { s with fab := { s.fab with lanes := [o] } }; let x : LinkFlit := { kind := 1, sq := 3, ack := 0, mask := 0, good := true, flit := f }; s.laneOf 5 = l ∧ l.rx = .nakwait ∧ l.naks + 1 ≠ 16 ∧ l.nakDue ≤ s.now ∧ k.naks + 1 = 16 ∧ e.laneOf 5 = k ∧ w.laneOf 5 = o ∧ w.now < o.nakDue ∧ x.sq = l.n ∧ l.tx = .replay ∧ l.copies.find? (fun c => c.1 == 8) = some (8, f) ∧ (8 + 1) % 2 ^ 24 ≠ l.m ∧ k.copies.find? (fun c => c.1 == 9) = some (9, f) ∧ (9 + 1) % 2 ^ 24 = k.m ∧ seqBefore 8 9 = true) ∧
    (let f : Flit := { kind := 8, dst := 8, src := 8, cw := true, rsv := false, rfs := false, last := true, idx := 0, ctx := 5, agent := 40, tag := 4, e2e := 9, addr := 0x5000, data := [], rack := true, dmod := 4, smod := 1 }; let s : State := { tK with fab := { tK.fab with lanes := [{ Lane.new 5 with copies := List.replicate 4096 (0, f) }] } }; (s.laneOf 5).tx = .send ∧ (s.laneOf 5).copies.drop 4095 ≠ []) := by
  refine ⟨?_, ?_, ?_, ?_⟩ <;> decide +kernel

theorem witness_Links_FlitLayout :
    (let f : Flit := { kind := 8, dst := 8, src := 9, cw := true, rsv := false, rfs := true, last := true, idx := 63, ctx := 5, agent := 4095, tag := 4, e2e := 0xFFFFFF, addr := 2 ^ 52 - 1, data := List.replicate 128 3, rack := true, dmod := 31, smod := 1 }; let l : Lane := { Lane.new 5 with beat := 7, mask := 0x8421 }; let sb : List Byte := natBytes 16 (flitHeader f).toNat; (1 : Nat) < 6 ∧ sb.length = 16 ∧ f.data.length = 128 ∧ f.kind < 16 ∧ f.addr < 2 ^ 52 ∧ f.idx < 64 ∧ f.rack = true ∧ (9 : Nat) < 10 ∧ l.mask ≠ 0) := by
  decide +kernel

theorem witness_Links_LinkTraining :
    (let l : Lane := { Lane.new 5 with n := 6 }; let s : State := { tK.setReg 0x010 0x13 with fab := { tK.fab with lanes := [l] } }; let d : Lane := { l with mask := 0x00FF, oldMask := 0xFFFF, rx := .realign, naks := 0, seen := s.now }; let d3 : Lane := { d with mask := 7 }; let q : Lane := { l with oldMask := 0xFFFF, seen := s.now, mask := 0x0FF0, notice := some 9 }; let q3 : Lane := { q with mask := 7 }; let t : State := s.setFld (lgstat 5) 20 4 (s.rfld (lgstat 5) 20 4 ||| 2 ^ (6 % 4)); let m : Lane := { l with oldMask := l.mask, seen := t.now, mask := l.mask &&& ~~~(elsuMask 6), own := l.own ||| 2 ^ (6 % 4) }; s.laneOf 5 = l ∧ l.lg = 5 ∧ l.rx ≠ .down ∧ l.mask &&& 0x00FF ≠ l.mask ∧ l.mask &&& 0xFFFF = l.mask ∧ l.tx ≠ .down ∧ l.tx ≠ .realign ∧ 4 ≤ lit m.mask ∧ lit d3.mask < 4 ∧ 4 ≤ lit d.mask ∧ lit q3.mask < 4 ∧ 4 ≤ lit q.mask) ∧
    (let f : Flit := { kind := 8, dst := 8, src := 8, cw := true, rsv := false, rfs := false, last := true, idx := 0, ctx := 5, agent := 40, tag := 4, e2e := 9, addr := 0x5000, data := [], rack := true, dmod := 4, smod := 1 }; let l : Lane := { Lane.new 5 with tx := .realign, rx := .realign, copies := [(3, f), (4, f)], mask := 0xFF }; let s : State := { tK with fab := { tK.fab with lanes := [l] } }; let k : Lane := { l with notice := some 4, own := 2 }; let o : Lane := { l with tx := .down, rx := .down }; let r : Lane := { l with tx := .retrain, rx := .retrain }; let g : State := { tK.setReg (lgstat 5) 0x200000 with fab := { tK.fab with lanes := [r] } }; let w : State := { tK with fab := { tK.fab with lanes := [{ l with trainDue := 9 }] } }; s.laneOf 5 = l ∧ l.tx = .realign ∧ l.notice = none ∧ l.trainDue ≤ s.now ∧ l.rx = .realign ∧ k.notice = some 4 ∧ o.tx = .down ∧ r.rx = .retrain ∧ r.tx = .retrain ∧ 0xFFFF &&& g.sound 5 = 0xFF0F ∧ w.now < (w.laneOf 5).trainDue ∧ 4 ≤ lit l.mask ∧ l.rx ≠ .retrain) := by
  refine ⟨?_, ?_⟩ <;> decide +kernel

theorem witness_RingsAndPeers_PeerRequests :
    (let p : PeerReq := { kind := .write [1, 2], addr := 0x4000 }; let rd : PeerReq := { kind := .read 2, addr := 0x4000 }; let s : State := { ((tK.setReg 0x010 0x3F).setReg (peerBase 0) 0xF000000000000000).setReg (peerBase 0 + 8) 0xFFFFFFFF00000000 with fab := { tK.fab with e2eSrc := [{ src := 4, high := 0xFFFFFF, got := [5], results := [(5, [7, 8])] }], e2e := [] } }; let b : State := tK.setReg 0x010 0x3F; let r : State × PeerAnswer := (s.peerPerform 4 p).getD (s, { status := 9, data := [] }); let u : State := s.numberTaken 4 0; let y : State := { s with fab := { s.fab with peers := [(4, 6, p)] } }; let c : State := s.count (bridgeBase (s.bridgeFrom 4) + 0x008); (s.peerPerform 4 p).isSome = true ∧ r.2.status = 0 ∧ (y.peerPerform 4 p).isSome = true ∧ (u.peerPerform 4 p).isSome = true ∧ (c.peerPerform 4 rd).isSome = true ∧ PeerKind.access p.kind = true ∧ NewNumber (s.e2eSrcOf 4) 0 ∧ OldNumber (s.e2eSrcOf 4) 5 ∧ s.fab.peers = [] ∧ (b.peerAdmits 4 (peerPhys p.addr) 2 true).isNone = true ∧ (s.e2eOf 4 5).isNone = true) ∧
    (let p : PeerReq := { kind := .write [1, 2], addr := 0x4000 }; let s : State := { ((tK.setReg 0x010 0x3F).setReg (peerBase 0) 0xF000000000000000).setReg (peerBase 0 + 8) 0xFFFFFFFF00000000 with coh := { tK.coh with queue := [{ home := tK.homeAgent 0x4000, pa := 0x4000, asker := .hart 0, mig := false, due := 0 }] } }; let u : State := s.numberTaken 4 0; (s.peerPerform 4 p).isNone = true ∧ (u.peerPerform 4 p).isNone = true ∧ PeerKind.access p.kind = true ∧ NewNumber (s.e2eSrcOf 4) 0) ∧
    (let e : E2eReq := { dst := 4, sq := 5, req := { kind := .write [1, 2], addr := 0x4000 }, agent := 8, core := none, uid := 2 ^ 32, ctx := 0, sends := 0, sentAt := 0 }; let s : State := { (tK.setReg 0x010 0x3F) with fab := { tK.fab with e2e := [e] }, quartz := 0xFFFFFF, jobs := [{ tJob 1 [] with wins := 2 }] }; let k : E2eReq := { e with sends := 15 }; let g : State := { s with fab := { s.fab with e2e := [k] } }; let off : State := s.setReg 0x010 0x0F; let early : State := { s with quartz := 3 }; s.e2eOf 4 5 = some e ∧ e.core = none ∧ 4 ∈ s.rack ∧ (4 ∉ off.rack) ∧ e.sentAt + s.e2eTimer (s.bridgeTo 4) ≤ s.now ∧ e.sends < s.e2eTries (s.bridgeTo 4) ∧ g.e2eTries (g.bridgeTo 4) ≤ k.sends ∧ g.e2eOf 4 5 = some k ∧ early.now < e.sentAt + early.e2eTimer (early.bridgeTo 4)) ∧
    (let sp : Span := { place := .peer, addr := 4 * 2 ^ 43 + 0x4000, len := 8, grain := 0, pol := 3 }; let o : MemOp := { (tK.newOp 0x0010000000000000 (.store [sp] (zeroBytes 8)) .none none 0 0 none false) with uid := 2, sent := true }; let e : E2eReq := { dst := 4, sq := 5, req := { kind := .write (zeroBytes 8), addr := 0x4000 }, agent := 8, core := some 0, uid := 2, ctx := 0, sends := 1, sentAt := 0 }; let s : State := { ((tK.withOp o).setReg 0x010 0x3F) with fab := { tK.fab with e2e := [e] } }; let v : State := (s.dropE2e 4 5).modCore 0 fun c => { c with ops := c.ops.map (MemOp.take e []) }; s.e2eOf 4 5 = some e ∧ e.core = some 0 ∧ (s.coreAt 0).ops.find? (fun o => o.uid == e.uid) = some o ∧ o.slot = none ∧ (match v.perform 0 2 with | .done _ => true | _ => false) = true) := by
  refine ⟨?_, ?_, ?_, ?_⟩ <;> decide +kernel

theorem witness_WindowWrites :
    (let w : WinWrite := { smod := 4, sclu := 6, slot := 3, seq := 0, sctx := 0, clu := 7, off := 0x400, data := [1, 2, 3], stamp := none }; let s : State := { tK.setReg (iwinReg 7 2) (mkWord [(1, 63), (4, 58), (1, 40), (1, 28)]) with fab := { tK.fab with winFly := [w] } }; let z : State := { tK with fab := { tK.fab with winFly := [w] } }; s.fab.winFly = [w] ∧ s.fab.winBuf = [] ∧ s.windowAdmits w = true ∧ z.windowAdmits w = false ∧ w.seq = s.winNextOf (winKey w) ∧ (w ∉ tK.fab.winFly)) ∧
    (let w : WinWrite := { smod := 0, sclu := 6, slot := 3, seq := 65535, sctx := 0, clu := 7, off := 0x400, data := [1, 2, 3], stamp := some (5, 2) }; let s : State := { tK.setReg (iwinReg 7 2) (mkWord [(1, 63), (0, 58), (1, 40), (1, 28)]) with fab := { tK.fab with winFly := [w], winNext := [((0, 16 * 6 + 3), 65535)] } }; let z : State := { tK with fab := { tK.fab with winFly := [w], winNext := [((0, 16 * 6 + 3), 65535)] } }; w.smod = s.modid ∧ s.windowAdmits w = true ∧ z.windowAdmits w = false ∧ w.seq = s.winNextOf (winKey w)) ∧
    (let w : WinWrite := { smod := 4, sclu := 6, slot := 3, seq := 2, sctx := 0, clu := 7, off := 0x400, data := [1, 2, 3], stamp := none }; let s : State := { tK with fab := { tK.fab with winFly := [w] } }; let b : State := { s with fab := { s.fab with winBuf := (List.range 64).map fun i => { w with seq := 3 + i, clu := 8 } } }; let o : State := { s with fab := { s.fab with winBuf := (List.range 64).map fun i => { w with seq := 3 + i, clu := 40 } } }; w.seq ≠ s.winNextOf (winKey w) ∧ s.fab.winBuf = [] ∧ b.fab.winBuf.all (fun x => x.seq != b.winNextOf (winKey x)) = true ∧ (b.fab.winBuf.filter fun x => x.clu / 32 == w.clu / 32).length = 64 ∧ (o.fab.winBuf.filter fun x => x.clu / 32 == w.clu / 32).length = 0) ∧
    (let q : Span := { place := .window, addr := 0, len := 8, grain := 0, pol := 3 }; let o : MemOp := { tK.newOp 0x0010000000000000 (.store [q, { q with addr := 64 }] (zeroBytes 16)) .none none 0 0 none false with uid := 2, slot := some 3, sent := true, wseq := 4 }; let r : MemOp := { tK.newOp 0x0010000000000000 (.store [{ q with addr := 5 * 2 ^ 29 }] (zeroBytes 8)) .none none 0 0 none false with uid := 2, slot := some 3, sent := true, wseq := 4 }; let s : State := { tK.withOp o with fab := { tK.fab with winAcks := [(0, 3, 5, true)] } }; let z : State := tK; let x : State := tK.withOp r; (s.windowOps 0).findSome? (fun p => (p.2.winAt 3 5).map fun i => (p.1, p.2, i)) = some (0, o, 1) ∧ (z.windowOps 0).findSome? (fun p => (p.2.winAt 3 5).map fun i => (p.1, p.2, i)) = none ∧ (x.windowOps 0).findSome? (fun p => (p.2.winAt 3 4).map fun i => (p.1, p.2, i)) = some (0, r, 0) ∧ (o.spans[1]?.map fun p => p.addr / 2 ^ 29) = some s.modid ∧ (r.spans[0]?.map fun p => p.addr / 2 ^ 29) ≠ some x.modid ∧ (aset 0 [] o.got).length < o.spans.length ∧ r.spans.length ≤ (aset 0 [] r.got).length ∧ r.job = none ∧ o.slot = some 3) := by
  refine ⟨?_, ?_, ?_, ?_⟩ <;> decide +kernel

theorem witness_PlaneArrivals_PlaneArrivals :
    (let f : List Word := (tGroup.setReg 0x008 4).mkFrame 1 1 3 0 0; let g : List Word := (tGroup.setReg 0x008 4).mkFrame 1 0 3 0 0; let s : State := tGroup; let u : State := (s.passed f).zgCommit f; let v : State := (s.passed g).zgCommit g; s.frameOk f 1 = true ∧ framePlane f ≠ 0 ∧ frameNext f ≠ u.modid ∧ s.frameOk g 1 = true ∧ frameNext g = v.modid ∧ v.zgOn = true ∧ s.frameOk (f.set 3 9) 1 = false) ∧
    (let f : List Word := (tGroup.setReg 0x008 4).mkFrame 1 1 0 3 7; let g : List Word := (tGroup.setReg 0x008 1).mkFrame 1 0 0 3 7; let s : State := tGroup; let u : State := (s.passed f).zgCommit f; let v : State := (s.passed g).zgCommit g; s.frameOk f 1 = true ∧ framePlane f = 0 ∧ frameNext f ≠ u.modid ∧ s.frameOk g 1 = true ∧ frameNext g = v.modid ∧ v.zgOn = true) ∧
    (let s : State := tGroup; let b0 : List Word := [mkWord [(3, 60), (4, 55)], 2, 0, 0, 0, 0, 0]; let f : List Word := b0 ++ [syncCrc b0]; let h0 : List Word := [mkWord [(6, 60), (4, 55)], 2, 0, 0, 0, 0, 0]; let h : List Word := h0 ++ [syncCrc h0]; let n0 : List Word := [mkWord [(9, 60), (4, 55)], 2, 0, 0, 0, 0, 0]; let n : List Word := n0 ++ [syncCrc n0]; let d : State := s.withZg { s.zg with pending := [f] }; let p : State := s.withZg { s.zg with performed := 3, committed := 3 }; (s.syncOk f = true ∧ 1 ≤ syncKind f ∧ syncKind f < 6 ∧ s.syncOk h = true ∧ syncKind h = 6 ∧ s.syncOk n = true ∧ 6 < syncKind n ∧ s.zg.performed ≤ syncSeq f ∧ (∀ m ∈ s.zg.pending, syncSeq m ≠ syncSeq f) ∧ s.syncOk (f.set 3 1) = false ∧ (∃ m ∈ d.zg.pending, syncSeq m = syncSeq f) ∧ syncSeq f < p.zg.performed)) ∧
    (let s : State := tGroup; let b : Burst := { src := 4, plane := 3, burst := 9, ctx := 0, items := [(0, [1])], crcGood := true }; let key : Nat := burstKey b.src b.plane b.burst; let u : State := s.heard b.plane; let full : State := s.withZg { s.zg with bursts := (List.range 4).map fun i => { b with burst := i } }; let r2 : State := s.withZg { s.zg with resends := aset key 2 s.zg.resends }; let r3 : State := s.withZg { s.zg with resends := aset key 3 s.zg.resends }; let uf : State := full.heard b.plane; let u2 : State := r2.heard b.plane; let u3 : State := r3.heard b.plane; let sb : List Burst → List Burst := fun bs => bs.filter fun x => !sameBurst x b.src b.plane b.burst; s.zgOn = true ∧ b.src ∈ s.members ∧ b.src ≠ s.modid ∧ (7 ∉ s.members) ∧ ((sb u.zg.bursts).filter fun x => x.src == b.src && x.plane == b.plane).length < 4 ∧ ((sb uf.zg.bursts).filter fun x => x.src == b.src && x.plane == b.plane).length = 4 ∧ ahas key u.zg.resends = false ∧ ahas key uf.zg.resends = false ∧ ahas key u2.zg.resends = true ∧ aget 0 key u2.zg.resends < 3 ∧ ahas key u3.zg.resends = true ∧ 3 ≤ aget 0 key u3.zg.resends) := by
  refine ⟨?_, ?_, ?_, ?_⟩ <;> decide +kernel

theorem witness_PlaneArrivals_CommittedInOrder :
    (let f : List Word := (tGroup.setReg 0x008 4).mkFrame 1 1 0 3 7; let s : State := tGroup; let u : State := State.zgKeep (State.withZg { s with moduleFloor := max s.moduleFloor 7 } { s.zg with committed := 3 }); let c : State := s.withZg { s.zg with committed := 5, performed := 5 }; let far : State := s.withZg { s.zg with committed := 300 }; let off : State := tK; framePlane f = 0 ∧ s.zg.rejoin = false ∧ s.zg.committed < frameSeq f ∧ frameSeq f ≤ c.zg.committed ∧ s.zgOn = true ∧ off.zgOn = false ∧ s.zg.skip ≤ s.zg.performed ∧ far.zg.performed + 256 < far.zg.committed ∧ u.zg.performed < u.zg.committed ∧ (u.zg.pending.find? (fun x => syncSeq x == u.zg.performed)).isNone = true) ∧
    (let g : Nat := 7 * 2 ^ 48 + 0x100; let m1 : List Word := [mkWord [(1, 60), (4, 55), (2, 44)], 0, 0, BitVec.ofNat 64 g, 0x0201, 0, 0, 0]; let m2 : List Word := [mkWord [(2, 60), (4, 55), (3, 40), (9, 16)], 1, 0, 0, 0, 0, 0, 0]; let m3 : List Word := [mkWord [(3, 60), (4, 55), (0x10, 32)], 1, 0, 0, 0, 0, 0, 0]; let m3b : List Word := [mkWord [(3, 60), (4, 55), (0x20, 32)], 1, 0, 0, 0, 0, 0, 0]; let m3o : List Word := [mkWord [(3, 60), (0, 55), (0x10, 32)], 1, 0, 0, 0, 0, 0, 0]; let m4 : List Word := [mkWord [(4, 60), (4, 55)], 1, 0, 0, 0, 0, mkWord [(5, 45)], 0]; let h1 : List Word := m1.set 0 (mkWord [(6, 60), (4, 55), (2, 44)]); let s : State := (tGroup.setReg 0x238 (mkWord [(1, 63), (0, 57), (1, 21), (1, 1)])).withZg { tGroup.zg with committed := 2, pending := [m1, m2] }; let w : State := { s with coh := { s.coh with queue := [{ home := s.homeAgent 0x10100, pa := 0x10100, asker := .hart 0, mig := false, due := 0 }] } }; let u : State := (s.groupWrite 4 g [1, 2]).getD s; s.zg.performed < s.zg.committed ∧ s.zg.pending.find? (fun x => syncSeq x == 0) = some m1 ∧ s.syncPerform m1 = (u, true) ∧ w.syncPerform m1 = (w, false) ∧ w.zg.skip ≤ w.zg.performed ∧ syncKind m1 = 1 ∧ syncKind h1 = 6 ∧ copiedKind h1 = 1 ∧ (s.groupWrite 4 (syncGa m1) ((syncPay m1).take (syncLen m1))).isSome = true ∧ (w.groupWrite 4 (syncGa m1) ((syncPay m1).take (syncLen m1))).isNone = true ∧ u.modid = s.modid ∧ syncKind m2 = 2 ∧ s.zg.bursts = [] ∧ syncKind m3 = 3 ∧ syncOpc m3 = 0x10 ∧ syncOpc m3b = 0x20 ∧ syncSrc m3o = s.modid ∧ syncSrc m3 ≠ s.modid ∧ syncKind m4 = 4) := by
  refine ⟨?_, ?_⟩ <;> decide +kernel

theorem witness_PlaneArrivals_QuartzCorrection :
    (let s : State := { tGroup with quartz := 5000, zg := { tGroup.zg with delta := 3, lastCorr := 3976 } }; let t : State := { s with zg := { s.zg with delta := -9, fast := true, lastCorr := 4936 } }; let e : State := { s with quartz := 4999 }; s.zg.lastCorr + (if s.zg.fast then 64 else 1024) ≤ s.now ∧ 0 < s.zg.delta ∧ t.zg.lastCorr + (if t.zg.fast then 64 else 1024) ≤ t.now ∧ t.zg.delta < 0 ∧ tGroup.zg.delta = 0 ∧ e.now < e.zg.lastCorr + (if e.zg.fast then 64 else 1024)) := by
  decide +kernel

theorem witness_TokenLoss :
    (let s : State := { tGroup with quartz := 100000 }; s.planeSilent 0 = true ∧ s.planeSilent 15 = true ∧ tGroup.planeSilent 3 = false ∧ (s.lossOf 3).isNone = true) ∧
    (let l : Loss := { plane := 3, base := 0x20000, reports := [(0, 4)], reported := false }; let k : Loss := { plane := 0, base := 0x20000, reports := [(0, 4)], reported := false }; let s : State := { tGroup with quartz := 0x10000, zg := { tGroup.zg with loss := [l] } }; let t : State := { tGroup with quartz := 0x30000, zg := { tGroup.zg with loss := [l, k] } }; let f : List Word := (tGroup.setReg 0x008 4).mkFrame 3 1 3 6 0x50000; s.frameOk f 3 = true ∧ framePlane f = 3 ∧ s.lossOf 3 = some l ∧ tGroup.frameOk f 3 = true ∧ (tGroup.lossOf 3).isNone = true ∧ s.frameOk (f.set 3 1) 3 = false ∧ t.lossOf 0 = some k ∧ t.lossOf 3 = some l ∧ t.zgOn = true ∧ l.base + t.modid * (t.pmax + 80) ≤ t.now ∧ l.base + 32 * (t.pmax + 80) ≤ t.now ∧ s.now < l.base ∧ l.reports = [(t.modid, 4)] ∧ s.now < l.base + 32 * (s.pmax + 80)) ∧
    (let f : List Word := (tGroup.setReg 0x008 4).mkFrame 2 4 3 0 0; let g : List Word := (tGroup.setReg 0x008 4).mkFrame 2 0 3 0 0; let s : State := tGroup; let u : State := (((s.returned f).heard 3).endLoss 3).count (0x600 + 24); let v : State := (((s.returned g).heard 3).endLoss 3).count (0x600 + 24); s.frameOk f 2 = true ∧ framePlane f = 3 ∧ frameNext f ≠ u.modid ∧ s.frameOk g 2 = true ∧ frameNext g = v.modid ∧ v.zgOn = true ∧ s.frameOk (f.set 3 1) 2 = false) ∧
    (let f : List Word := (tGroup.setReg 0x008 4).mkFrame 2 4 0 3 9; let g : List Word := (tGroup.setReg 0x008 4).mkFrame 2 0 0 3 9; let l : Loss := { plane := 0, base := 0x20000, reports := [(0, 2), (4, 0)], reported := true }; let s : State := { tGroup with zg := { tGroup.zg with loss := [l], committed := 3, performed := 3 } }; let u : State := (s.returned f).heard 0; let v : State := (u.endLoss 0).count 0x600; let t : State := (v.withZg { v.zg with copies := [(1, []), (2, [])] }).zgCommit f; let ug : State := (tGroup.returned g).heard 0; let vg : State := (ug.endLoss 0).count 0x600; let tg : State := (vg.withZg { vg.zg with copies := [] }).zgCommit g; s.frameOk f 2 = true ∧ framePlane f = 0 ∧ u.lossOf 0 = some l ∧ ((l.reports.filter fun r => seqUp r.2 == maxReport l.reports).map (·.1)).head? = some u.modid ∧ (List.range (maxReport l.reports - minReport l.reports)).map (· + minReport l.reports) = [1, 2] ∧ frameNext f ≠ t.modid ∧ tGroup.frameOk g 2 = true ∧ (ug.lossOf 0).isNone = true ∧ frameNext g = tg.modid ∧ tg.zgOn = true) := by
  refine ⟨?_, ?_, ?_, ?_⟩ <;> decide +kernel

theorem witness_TileRouting_Routing :
    (let s : State := ((((((tAgate.setReg (routeReg 2 3) 0x8000000000000000).setReg (routeReg 2 3 + 8) (mkWord [(0, 40), (0, 35), (2, 31)])).setReg (routeReg 2 7) 0x8000000000000000).setReg (routeReg 2 7 + 8) (mkWord [(0xF, 40), (0, 35), (5, 31)])).setReg (routeReg 2 9) 0x8000000000000000).setReg (routeReg 2 9 + 8) (mkWord [(0xF0, 40), (4, 35), (6, 31)])); let r : Nat × Word × Word := (7, 0x8000000000000000, mkWord [(0xF, 40), (0, 35), (5, 31)]); let f : State := ((tAgate.setReg (routeReg 2 3) 0x8000000000000000).setReg (routeReg 2 3 + 8) (mkWord [(0, 40), (0, 35), (2, 31)])); let far : State := (((((tAgate.setReg 0x010 0x13).setReg (routeReg 2 3) 0x8000000000000000).setReg (routeReg 2 3 + 8) (mkWord [(0, 40), (4, 35), (2, 31)])).setReg (routeReg 8 3) 0x8000000000000000).setReg (routeReg 8 3 + 8) (mkWord [(0, 40), (4, 35), (2, 31)])); ((s.routes 2).Pairwise (fun a b => a.1 < b.1) ∧ r ∈ s.routes 2 ∧ routeMatch 5 r = true ∧ (∀ q ∈ s.routes 2, routeMatch 5 q = true → popCount 24 (bitsAt q.2.2 40 24) < popCount 24 (bitsAt r.2.2 40 24) ∨ (popCount 24 (bitsAt q.2.2 40 24) = popCount 24 (bitsAt r.2.2 40 24) ∧ r.1 ≤ q.1)) ∧ (∀ q ∈ s.routes 2, routeMatch (2 ^ 80) q = false) ∧ (s.route 3 5).isNone = true ∧ s.route 2 5 = some (0, 5) ∧ f.route 2 5 = some (0, 2) ∧ far.route 2 5 = some (4, 2) ∧ far.route 8 5 = some (4, 2) ∧ tMsg.name = 5)) := by
  decide +kernel

theorem witness_TileRouting_Interests :
    (let s : State := tAgate; let m : AgMsg := tMsg; let u : State := (s.agUp 2 0 m).1; let p : Pend := { rt := 2, idx := 0, name := m.name, relaxed := m.relaxed, st := (s.agUp 2 0 m).2, exp := m.exp, modmask := 0, cw := false, ccw := false, stns := 0, omod := m.omod, ostn := m.ostn, cons := [] }; let v : State := u.withAg { u.agate with pends := u.agate.pends ++ [p.join 4 m.omod] }; let z : State := { (s.setFld 0x028 63 1 0) with agate := { s.agate with msgs := [(2, 0, m, 4), (2, 3, m, 4), (2, 5, m, noMark), (2, 4, m, 4)], pends := [p.join 3 0] } }; let j : State := { s with agate := { s.agate with pends := [p.join 3 0] } }; let past : State := { s with quartz := 2000, agate := { s.agate with msgs := [(2, 0, m, 4)], held := [((2, 0, m, 4), 40)] } }; let jp : State := { j with quartz := 2000 }; let l : AgMsg := { m with exp := 1001 }; let t : Tile := { rt := 2, idx := 0, name := 5, prod := true, whole := true, size := 1, qtz := 0, data := List.replicate 128 7, segs := [], hit := false }; let h : State := { s with quartz := 9, agate := { s.agate with tiles := [t] } }; let bad : AgMsg := { m with name := 2 ^ 95 }; let b9 : State := s.setReg (nsBase 0 + 8) 0xFFFFFFFF00000000; let f : State := { s with agate := { s.agate with pends := [{ p with st := .forwarded, stns := 8 }] } }; s.agEnabled = true ∧ s.agAdmits (nameNs m.name) m.omod = true ∧ m.omod = s.modid ∧ (s.tileFor 2 m.name m.relaxed).isNone = true ∧ (s.pendFor 2 m.name m.relaxed).isNone = true ∧ s.agExpired 2 0 m 4 = false ∧ (s.pendsAt 2).length < pendCap 2 ∧ v.fmode 2 = false ∧ z.agEnabled = false ∧ z.pendFor 2 m.name m.relaxed = some (p.join 3 0) ∧ j.pendFor 2 m.name m.relaxed = some (p.join 3 0) ∧ expAfter m.exp (p.join 3 0).exp = false ∧ expAfter l.exp (p.join 3 0).exp = true ∧ past.agExpired 2 0 m 4 = true ∧ (past.pendsAt 2).length < pendCap 2 ∧ jp.agPast p.exp = true ∧ m.ostn = 2 ∧ (j.pendsAt 2).find? (fun p => p.idx == 0) = some (p.join 3 0) ∧ h.tileFor 2 5 false = some t ∧ s.agAdmits (nameNs bad.name) bad.omod = false ∧ b9.agAdmits 0 9 = true ∧ (9 ∉ b9.rack) ∧ ((p.join 3 0).leave 3).empty = true ∧ ((p.join 3 0).leave 5).empty = false ∧ p.st ≠ .forwarded ∧ f.pendFor 2 5 false = some { p with st := .forwarded, stns := 8 } ∧ s.agExpired 2 4 m 4 = false) ∧
    (let m : AgMsg := { tMsg with name := 2 ^ 30 }; let p : Pend := { rt := 2, idx := 0, name := 5, relaxed := false, st := .noroute, exp := 7, modmask := 0, cw := false, ccw := false, stns := 0, omod := 0, ostn := 1, cons := [] }; let s : State := { tAgate with agate := { tAgate.agate with msgs := [(2, 0, m, 4), (2, 4, m, 4)], pends := List.replicate 4096 p } }; s.agEnabled = true ∧ s.agAdmits (nameNs m.name) m.omod = true ∧ m.omod = s.modid ∧ (s.tileFor 2 m.name m.relaxed).isNone = true ∧ (s.pendFor 2 m.name m.relaxed).isNone = true ∧ pendCap 2 ≤ (s.pendsAt 2).length ∧ (s.agInterest 2 m 4).isNone = true) ∧
    (let s : State := tAgate.setReg 0x000 0x4; let m : AgMsg := tMsg; let u : State := (s.agUp 2 0 m).1; let p : Pend := { rt := 2, idx := 0, name := m.name, relaxed := m.relaxed, st := .noroute, exp := m.exp, modmask := 0, cw := false, ccw := false, stns := 0, omod := m.omod, ostn := m.ostn, cons := [] }; let v : State := u.withAg { u.agate with pends := u.agate.pends ++ [p.join 4 m.omod] }; (s.agUp 2 0 m).2 = .noroute ∧ v.fmode 2 = true ∧ s.agEnabled = true ∧ s.agAdmits (nameNs m.name) m.omod = true ∧ (s.tileFor 2 m.name m.relaxed).isNone = true ∧ (s.pendFor 2 m.name m.relaxed).isNone = true) := by
  refine ⟨?_, ?_, ?_⟩ <;> decide +kernel

theorem witness_TileRouting_TileArrivals :
    (let z : State := { tK with agate := { tK.agate with msgs := [(2, 1, { tMsg with size := 1, data := List.replicate 128 7 }, noMark), (2, 2, { tMsg with size := 1, data := List.replicate 128 7 }, noMark)] } }; let s : State := tAgate; let m : AgMsg := { tMsg with size := 1, data := List.replicate 128 7 }; let u : State := s.agTake 2 1 m noMark; let n : AgMsg := { m with name := 2 ^ 95 }; let e : AgMsg := { tMsg with size := 0 }; let v8 : State := ((s.agTake 8 2 m noMark).announce 8 m.name).learn 8 m; let b : State := s.setReg (nsBase 0 + 8) 0xFFFFFFFF00000000; let m4 : AgMsg := { m with omod := 4 }; let v4 : State := ((b.agTake 8 2 m4 noMark).announce 8 m4.name).learn 8 m4; (z.agEnabled = false ∧ s.agEnabled = true ∧ (∀ x ∈ s.agate.msgs, x.1 = 2 → x.2.1 = 1 → x.2.2.1 = m → x.2.2.2 < 16) ∧ s.agAdmits (nameNs m.name) m.omod = true ∧ s.agAdmits (nameNs n.name) n.omod = false ∧ (u.agate.tiles.find? (sameFill 2 m)).isNone = true ∧ e.size = 0 ∧ m.omod = v8.modid ∧ b.agAdmits (nameNs m4.name) m4.omod = true ∧ m4.omod ≠ v4.modid)) ∧
    (let m : AgMsg := { tMsg with size := 64, segoff := 63, data := List.replicate 128 9 }; let t : Tile := { rt := 2, idx := 0, name := 5, prod := false, whole := false, size := 64, qtz := 0, data := List.replicate 128 7, segs := [0], hit := false }; let o : Tile := { t with segs := [] }; let s : State := { tAgate with agate := { tAgate.agate with tiles := [t] } }; let p : State := { tAgate with agate := { tAgate.agate with tiles := [o] } }; let u : State := s.agTake 2 1 m noMark; let x : State := p.agTake 2 1 m noMark; (s.agEnabled = true ∧ (∀ x ∈ s.agate.msgs, x.1 = 2 → x.2.1 = 1 → x.2.2.1 = m → x.2.2.2 < 16) ∧ s.agAdmits (nameNs m.name) m.omod = true ∧ m.size ≠ 0 ∧ u.agate.tiles.find? (sameFill 2 m) = some t ∧ x.agate.tiles.find? (sameFill 2 m) = some o ∧ (m.size + 62) / 63 ≤ (63 :: t.segs).length ∧ (63 :: o.segs).length < (m.size + 62) / 63)) ∧
    (let c : Cons := { idx := 4, stn := 0, ctx := 0, rtn := 0, core := 0, slot := 3, name := 5, relaxed := false, exp := 10, dst := [], arrived := false }; let s : State := { tAgate with agate := { tAgate.agate with cons := [c] } }; let e : State := { s with quartz := 10 }; (s.consAt (4 / 8192)).find? (fun c => c.idx == 4 % 8192) = some c ∧ s.now < c.exp ∧ c.exp ≤ e.now ∧ c.arrived = false ∧ e.consHome c ≠ .saving) := by
  refine ⟨?_, ?_, ?_⟩ <;> decide +kernel

theorem witness_TileRouting_Deliveries :
    (let m : AgMsg := { tMsg with size := 1, data := List.replicate 128 7 }; let q : Span := { place := .mem, addr := 0x5000, len := 128, grain := 0, pol := 0 }; let c : Cons := { idx := 4, stn := 0, ctx := 0, rtn := 0, core := 0, slot := 3, name := 5, relaxed := false, exp := 10, dst := [q], arrived := false }; let b : State := { tAgate.setReg (ctxBase 0 + 0x10) 0x1000000000000000 with agate := { tAgate.agate with msgs := [(0, 1, m, 20)] } }; let s : State := { b with agate := { b.agate with cons := [c] } }; let sav : State := onC s fun c => { c with saving := 1 }; let hlt : State := s.setReg (ctxBase 0 + 0x10) 0x2000000000000000; let exp : State := { s with quartz := 10 }; let wt : State := { s with coh := { s.coh with queue := [{ home := s.homeAgent 0x5000, pa := 0x5000, asker := .hart 0, mig := false, due := 0 }], migs := [{ old := 0, new := 0x20000000, size := 16, nocopy := true, host := false, recalled := true, due := 0, copied := [] }] } }; let ss : List Span := cutSpans [{ q with pol := 2 }] 0 128; (s.agEnabled = true ∧ s.agate.msgs.find? (fun x => x.1 == 0 && x.2.1 == 1 && x.2.2.1 == m && decide (16 ≤ x.2.2.2)) = some (0, 1, m, 20) ∧ ((b.consAt 0).find? (fun c => c.idx == 20 % 2 ^ 16 - 16)).isNone = true ∧ (s.consAt 0).find? (fun c => c.idx == 20 % 2 ^ 16 - 16) = some c ∧ satisfies m.name c.name c.relaxed = true ∧ satisfies m.name 6 false = false ∧ s.landSpans c = some [{ q with pol := 2 }] ∧ (sav.landSpans c).isNone = true ∧ hlt.ctxState 0 = 2 ∧ s.ctxState 0 ≠ 2 ∧ c.exp ≤ exp.now ∧ s.now < c.exp ∧ (match s.writeSpans (hubWho 0) ss m.data with | .ok _ => true | _ => false) = true ∧ (match wt.writeSpans (hubWho 0) ss m.data with | .ok _ => true | _ => false) = false ∧ (∀ p ∈ ss, p.place ≠ .peer))) ∧
    (let m : AgMsg := { tMsg with size := 1, data := List.replicate 128 7 }; let q : Span := { place := .peer, addr := 4 * 2 ^ 43 + 0x5000, len := 128, grain := 0, pol := 2 }; let c : Cons := { idx := 4, stn := 0, ctx := 0, rtn := 0, core := 0, slot := 3, name := 5, relaxed := false, exp := 10, dst := [q], arrived := false }; let s : State := { (tAgate.setReg (ctxBase 0 + 0x10) 0x1000000000000000).setReg 0x010 0x13 with agate := { tAgate.agate with msgs := [(0, 1, m, 20)], cons := [c] } }; let t : State := { s with agate := { s.agate with msgs := [(0, 1, m, 20 + 2 ^ 16)] } }; let w : State := { t with fab := { t.fab with e2e := [{ dst := 4, sq := 0, req := { kind := .write m.data, addr := 0x5000 }, agent := 3340, core := none, uid := agUid c, ctx := 0, sends := 1, sentAt := 0 }] } }; let ss : List Span := cutSpans [q] 0 128; (s.landSpans c = some [q] ∧ t.landSpans c = some [q] ∧ (∃ p ∈ ss, p.place = .peer) ∧ s.ctxState 0 ≠ 2 ∧ s.now < c.exp ∧ (2 : Nat) ^ 16 ≤ 20 + 2 ^ 16 ∧ (∃ e ∈ w.fab.e2e, e.uid = agUid c) ∧ t.fab.e2e = [] ∧ (match s.writeSpans (hubWho 0) (ss.filter fun p => p.place != .peer) (localParts ss m.data) with | .ok t => decide (t = s) | _ => false) = true)) := by
  refine ⟨?_, ?_⟩ <;> decide +kernel

theorem witness_FutureEvents_FutureEvents :
    (let s : State := { tK with futures := [tFut] }; let e : Future := tFut; let sl : State := tK.setReg (ctxBase 3 + 0x400) (mkWord [(6, 48), (1, 31)]); let d : State := { s with quartz := 100 }; let r : Future := { tFut with rem := true }; let q : State := { tK with futures := [r] }; let w : State := { tK with futures := [{ tFut with st := 3 }], lm := { tK.lm with tasks := [{ tTask with st := .futwait, future := some 5 }] } }; let wo : State := { w with futures := [tFut] }; s.futAt 5 = some e ∧ (s.futAt 6).isNone = true ∧ s.slicesOf 6 = [] ∧ sl.slicesOf 6 = [3] ∧ (sl.futAt 6).isNone = true ∧ s.now < e.deadline ∧ e.deadline ≤ d.now ∧ d.futAt 5 = some e ∧ e.open_ = true ∧ q.futAt 5 = some r ∧ r.hw = true ∧ r.gen = 1 ∧ (q.writeReply r []).isSome = true ∧ (w.lm.tasks.find? (fun t => t.future == some 5 && t.st == .futwait)).isSome = true ∧ w.futureOver { tTask with st := .futwait, future := some 5 } = true ∧ wo.futureOver { tTask with st := .futwait, future := some 5 } = false ∧ s.futAt 5 = some e ∧ e.rem = false) ∧
    (let q : Span := { place := .mem, addr := 0x5000, len := 8, grain := 0, pol := 0 }; let r : Future := { tFut with rem := true, rplAt := [q], rplcap := 8, rtn := 4096 }; let p : Future := { r with reply := some [7], cpy := true, record := some 1, rlen := 1 }; let s : State := { tK with futures := [r] }; let wt : State := { s with coh := { s.coh with migs := [{ old := 0, new := 0x20000000, size := 16, nocopy := true, host := false, recalled := true, due := 0, copied := [] }] } }; let h : State := { s with futures := [p] }; let hw : State := { wt with futures := [p] }; s.futAt 5 = some r ∧ (s.writeReply r [7]).isSome = true ∧ (wt.writeReply r [7]).isNone = true ∧ (h.writeReply p [7]).isSome = true ∧ (hw.writeReply p [7]).isNone = true ∧ s.now < r.deadline ∧ r.open_ = true) ∧
    (let e : Future := { tFut with record := some 2, cpy := true }; let s : State := (withMem { tK with futures := [e] } 0x30000 (wordsBytes [0x80C0000000010000])).setReg (ctxBase 0 + 0x410) 0x30000; let n : State := { tK with futures := [e], pqSeq := [(0, 7), (3, 1)] }; let x : State := { s with fab := { s.fab with e2e := [{ dst := 4, sq := 0, req := { kind := .write [1], addr := 0x5000 }, agent := 3328, core := none, uid := futUid 5, ctx := 0, sends := 1, sentAt := 0 }] } }; let f : State := { s with mem := cellWrite s.mem 0x10000 [255, 255, 0, 0], futures := [{ e with counted := true }] }; let g : State := { s with mem := cellWrite s.mem 0x10000 [255, 255, 0, 0] }; let k : Future := { e with record := some 1, rlen := 4, rplAt := [{ place := .mem, addr := 0x5000, len := 8, grain := 0, pol := 0 }], rtn := 4096 }; let y : State := { withMem s 0x5000 [1, 2, 3, 4] with futures := [k] }; let ss : List Span := cutSpans k.rplAt 0 4; let gt : State × List Byte × Bool := (y.gather (hubWho 0) (ss.map fun p => { p with pol := 2 })).getD (tSup, [], true); (s.futAt 5 = some e ∧ s.pqDesc e.ctx e.pq = some (0x10000, 12) ∧ (n.pqDesc e.ctx e.pq).isNone = true ∧ (∃ z ∈ x.fab.e2e, z.uid = futUid 5) ∧ s.fab.e2e = [] ∧ s.recRoom e = true ∧ f.recRoom { e with counted := true } = false ∧ g.recRoom e = false ∧ y.recRoom k = true ∧ y.futSpans k ss = some ss ∧ gt.2.1 = [1, 2, 3, 4])) := by
  refine ⟨?_, ?_, ?_⟩ <;> decide +kernel

theorem witness_FutureEvents_CoreWakes :
    (let s : State := onC tK fun c => { c with asleep := 2, waited := 65535, k := { c.k with wait := outside } }; let z : State := onC tK fun c => { c with waited := 65535, l := { c.l with wait := 1 }, x := { c.x with wait := 1 }, s := { c.s with wait := 1 }, k := { c.k with wait := outside } }; let p : State := { onC (z.setReg (ctxBase 0 + 0x078) 1000) fun c => { c with slpcfg := 2 } with clusters := aput Cluster.reset 0 ((aget Cluster.reset 0 z.clusters).withSplit 1) z.clusters }; (z.coreAt 0).asleep = 0 ∧ (z.coreAt 0).allWait = true ∧ bitsAt (z.coreAt 0).slpcfg 2 16 ≤ (z.coreAt 0).waited ∧ (tK.coreAt 0).allWait = false ∧ z.sleepDepth (z.coreAt 0) ≠ 3 ∧ p.sleepDepth (p.coreAt 0) = 3 ∧ (p.coreAt 0).allWait = true ∧ (p.coreAt 0).cluster = 0) := by
  decide +kernel

theorem witness_DebugAndReplay :
    (let s : State := tK; let d : State := tK.setReg (debugBase 0) 0x00900FFF00000000; let c : Core := d.core; let h : State := onC d fun c => { c with halted := true }; ((s.reg (debugBase 0)).getLsbD 55 = false ∧ (d.reg (debugBase 0)).getLsbD 55 = true ∧ (s.reg (debugBase 0)).getLsbD 52 = false ∧ (∀ c ∈ s.allCores, c.cluster = 0 → c.halted = false) ∧ (d.reg (debugBase 0)).getLsbD 43 = true ∧ (s.reg (debugBase 0)).getLsbD 43 = false ∧ d.sampleDue 0 = true ∧ s.sampleDue 0 = false ∧ d.allCores.filter (fun c => c.cluster == 0 && d.debugged c) = [c] ∧ s.logMode 207 = 0 ∧ (s.berylOf 207).held = [] ∧ (h.allCores.filter fun c => c.cluster == 0 && c.halted).map (·.idx) = [0])) ∧
    (let s : State := tK.setReg (debugBase 0) 0x01900FFF00000000; (s.sampleDue 0 = true ∧ (∀ c ∈ s.allCores, c.cluster = 0 → s.debugged c = false))) ∧
    (let s : State := onC (tK.setReg (debugBase 0) 0x00900FFF00000000) fun c => { c with halted := true }; let u : State := s.modCore 0 fun c => { c with halted := false }; let v : State := u.trace (u.coreAt 0) 2 0 0 0 0; (v.coreAt 0).pcsOk = true) ∧
    (let s : State := (tK.setFld (berylBase 3) 62 2 1).setBeryl { Beryl.new 3 with key := some 64, run := some (5, 2) }; let w : State := s.logFlush 3; s.logMode 3 = 1 ∧ w.logPos 3 = 1) ∧
    (let r : State := (tK.setFld (berylBase 3) 62 2 2).setFld (berylBase 3 + 0x10) 0 32 9; let h : Nat × Nat × Nat × Nat × Nat := (0, 3, 5, 6, 0); let s : State := r.setBeryl { Beryl.new 3 with held := [h] }; s.logMode 3 = 2 ∧ s.logMode 3 ≠ 1 ∧ (s.berylOf 3).held = [h] ∧ (s.berylOf 3).diverged = false) ∧
    (let h : Nat × Nat × Nat × Nat × Nat := (0, 3, 0x5000, 6, 0); let r : State := withMem ((((tK.setFld (berylBase 3) 62 2 2).setFld (berylBase 3 + 0x10) 32 32 2).setFld (berylBase 3 + 8) 12 40 0x30).setFld (berylBase 3) 48 5 8) 0x30000 (wordsBytes [mkWord [(1, 62), (0x5000, 0)], mkWord [(8, 32), (2, 0)]]); let s : State := { r.setBeryl { Beryl.new 3 with held := [h], admitted := [(8, 0x6000, 100)] } with quartz := 1000 }; s.logMode 3 = 2 ∧ (s.berylOf 3).diverged = false ∧ (s.berylOf 3).held.find? (s.overLimit 3 (s.berylOf 3)) = some h) := by
  refine ⟨?_, ?_, ?_, ?_, ?_, ?_⟩ <;> decide +kernel

theorem witness_ResetAndBoot :
    (let s : State := { withMem (tSup.setReg (nsBase 0) 5) 0x100 [1] with coh := { tSup.coh with tags := [{ cache := 2, ctx := 4, sline := 7, grain := 0, st := .i :: .m :: List.replicate 14 .e, valid := 0xFFFF, clus := 1, use := 1 }], copies := [{ ctx := 4, sline := 7, data := List.replicate 512 9, poison := 0 }] } }; let g : State := s.setFld 0x800 61 2 1; let r : State := s.setFld 0x800 61 2 2; let a : State := { s with ras := { s.ras with attest := some (0x40, []) } }; s.rfld 0x800 61 2 = 0 ∧ g.rfld 0x800 61 2 = 1 ∧ r.rfld 0x800 61 2 ≠ 0 ∧ r.rfld 0x800 61 2 ≠ 1 ∧ (r.writeReg 0x848 0x40).rfld 0x800 61 2 = 2 ∧ (s.writeReg 0x848 0x40).rfld 0x800 61 2 ≠ 2 ∧ s.ras.attest.isNone = true ∧ a.ras.attest = some (0x40, [])) := by
  decide +kernel

theorem witness_ErrorsAndCheckpoints_Errors :
    (let s : State := tK; let c : Nat := stackBase 0 + 0x800; let e : State := s.setReg (stackBase 0 + 0x800) 0x0000000004050000; let eu : State := (e.setFld c 40 8 4).setFld c 32 8 5; (channelOf 4).isNone = true ∧ (laneMon 4).isNone = true ∧ region 0x5000 ≤ 3 ∧ 3 < region (5 * 2 ^ 48) ∧ (channelOf c).isSome = true ∧ eu.rfld c 24 8 = 4 ∧ eu.rfld c 16 8 = 5) := by
  decide +kernel

theorem witness_ErrorsAndCheckpoints_Checkpoints :
    (let s : State := tK; let c : State := { s with ras := { s.ras with check := some (0, 1, 0) } }; c.ras.check ≠ none ∧ s.ras.check.isNone = true ∧ c.checkReady = false) ∧
    (let s : State := { State.reset with ras := { State.reset.ras with check := some (0, 1, 0) } }; let a : State := { withMem (State.reset.setReg 0x908 (mkWord [(1, 63), (1, 61), (3, 20), (2 ^ 12, 0)])) 0x5000 [1, 2, 3] with ras := { State.reset.ras with check := some (0, 1, 0) } }; let b : State := { a with ras := { a.ras with check := some (1, 1, 0), fenced := [(1, 577)] } }; (s.ras.check = some (0, 1, 0) ∧ s.checkReady = true ∧ (s.safeRuns.map (·.2.2)).sum < ((checkRuns 1).map (·.2)).sum ∧ a.checkReady = true ∧ ((checkRuns 1).map (·.2)).sum ≤ (a.safeRuns.map (·.2.2)).sum ∧ (∀ d ∈ a.safeRuns, (1, 576 + d.1) ∉ a.ras.fenced) ∧ (∃ d ∈ b.safeRuns, (1, 576 + d.1) ∈ b.ras.fenced) ∧ checkPieces 64 (checkRuns 1) a.safeRuns = [(0, 2 * 2 ^ 48 + 3 * 2 ^ 28, 2 ^ 39)])) := by
  refine ⟨?_, ?_⟩ <;> decide +kernel

theorem witness_HartWords_HartWords :
    (let x : Hart := { Hart.reset with pc := 0x1000, x := List.replicate 31 7, priv := .m, mtvec := 0x400 }; let s : State := { tK with harts := [(63, x)] }; let y : Hart := { x with priv := .u, mstatus := 0x2000, f := (x.f.set 6 0x3FF0000000000000).set 7 0x3C30000000000000 }; (63 : Nat) < 64 ∧ s.hartAt 63 = x ∧ bitsAt x.mstatus 13 2 = 0 ∧ bitsAt y.mstatus 13 2 ≠ 0 ∧ y.priv ≠ .m ∧ rvFloat 0x027302D3 0 0x3FF0000000000000 0x3C30000000000000 7 = some (.f 0x3FF0000000000000 1)) ∧
    (let x : Hart := { Hart.reset with pc := 0x1000, x := (List.replicate 31 0).set 6 0xFFFFFFFFFFFF5582, priv := .m }; let s : State := withMem { tK with harts := [(63, x)] } 0x5000 [1, 0x82, 3, 4]; let t : State := s.atHart 63; let r : State × List Byte := match t.hartRead 63 x.dataPriv .load (x.dataAddr 0x5000) 2 with | .ok r => r | .error _ => (tSup, []); let xl : Hart := { x with x := x.x.set 5 0x5000 }; let sl : State := { s with harts := [(63, xl)] }; let tl : State := sl.atHart 63; let rl : State × List Byte := match tl.hartRead 63 xl.dataPriv .load (xl.dataAddr 0x5000) 2 with | .ok r => r | .error _ => (tSup, []); let wl : State := match tl.hartWrite 63 xl.dataPriv .store (xl.dataAddr 0x5000) [0x82, 0x55] with | .ok r => r | .error _ => tSup; r.2 = [1, 0x82] ∧ rl.2 = [1, 0x82] ∧ wl ≠ tSup ∧ tl.hartAt 63 = xl ∧ (match tl.hartRead 63 xl.dataPriv .load (xl.dataAddr 0x5000) 2 with | .ok _ => true | _ => false) = true ∧ (match tl.hartWrite 63 xl.dataPriv .store (xl.dataAddr 0x5000) [0x82, 0x55] with | .ok _ => true | _ => false) = true) := by
  refine ⟨?_, ?_⟩ <;> decide +kernel

theorem witness_HartWords_Xkredunfut :
    (let s : State := tK; let x : Hart := { tHart with x := (List.replicate 31 0).set 4 0x40 }; let q : State := { tK with harts := [(0, x)] }; let xb : Hart := { tHart with x := ((List.replicate 31 0).set 4 0x10040) }; (s.hartAt s.hart).sandboxed = false ∧ x.sandboxed = true ∧ q.futures.filter (q.claimable x) = [] ∧ bitsAt (x.get 5) 16 48 = 0 ∧ (q.futAt 0x40).isNone = true ∧ bitsAt (xb.get 5) 16 16 ≠ 0 ∧ xb.sandboxed = true) ∧
    (let x : Hart := { tHart with x := ((List.replicate 31 0).set 4 5).set 6 9 }; let f : Future := { tFut with st := 2, claimer := some 0 }; let q : State := { tK with harts := [(0, x)], futures := [f] }; let p : State := { tK with harts := [(0, x)], futures := [tFut] }; let o : State := { q with futures := [{ f with claimer := some 3 }] }; let r : State × List Byte := match q.hartRead q.hart .u .load (x.get 7).toNat 0 with | .ok r => r | .error _ => (tSup, [1]); let ss : List Span := (r.1.futSpans f (cutSpans f.rplAt 0 0)).getD [{ place := .mem, addr := 1, len := 1, grain := 0, pol := 0 }]; let a : List Span := match p.hartAccess x .u .store (x.get 5).toNat 0 with | .ok ss => ss | .error _ => [{ place := .mem, addr := 1, len := 1, grain := 0, pol := 0 }]; let g : State × List Byte × Bool := (p.gather (hubWho 0) []).getD (tSup, [1], true); x.sandboxed = true ∧ q.futAt 5 = some f ∧ q.resolver q.hart x f = true ∧ o.resolver o.hart x { f with claimer := some 3 } = false ∧ bitsAt (x.get 5) 16 48 = 0 ∧ bitsAt (x.get 5) 0 16 = 5 ∧ r.2 = [] ∧ (r.1.scatter (hubWho f.ctx) (futUid f.id) (ss.map fun p => { p with pol := 2 }) r.2).isSome = true ∧ p.futures.filter (p.claimable x) = [tFut] ∧ a = [] ∧ g.2.2 = false) := by
  refine ⟨?_, ?_⟩ <;> decide +kernel

theorem witness_StepRunsDecodedWord :
    (let s : State := { withCode tK 0x100 [0, 0, 0, 0, 3, 0, 0, 0x44, 0, 0, 0, 0, 0, 0, 0, 0] with agenda := [.issue .x] }; let u : State := { s with agenda := [], cur := .x }; s.agenda = [.issue .x] ∧ s.wordMode = true ∧ u.canIssue = true ∧ u.skips = false ∧ (u.fetchCode u.here).toOption = some 0x44000003) ∧
    (let s : State := { withCode tBundle 0x100 [0, 0, 0, 0, 0, 0, 0, 0, 0, 0, 0, 0, 3, 0, 0, 0x44] with agenda := [.issue .k] }; let u : State := { s with agenda := [], cur := .k }; s.agenda = [.issue .k] ∧ s.wordMode = false ∧ u.canIssue = true ∧ u.skips = false ∧ (u.fetchCode u.here).toOption = some 0 ∧ (u.fetchCode (u.here + 4)).toOption = some 0 ∧ (u.fetchCode (u.here + 8)).toOption = some 0 ∧ (u.fetchCode (u.here + 12)).toOption = some 0x44000003) ∧
    (let s : State := { withCode tK 0x108 [0, 0, 0, 0x44] with turn := 3 }; let u : State := ({ s with turn := 4 } : State).focus 0; let v : State := { u with cur := .s }; s.agenda = [] ∧ s.turn ≠ 0 ∧ nextTurn (s.turn - 1) s.turns = some 2 ∧ u.wordMode = true ∧ v.canIssue = true ∧ v.skips = false ∧ (v.fetchCode v.here).toOption = some 0x44000000) ∧
    (let s : State := { tK with agenda := [.hart 63], harts := [(63, { Hart.reset with pc := 0x0000000000000100 })], mem := cellWrite [] 0x100 [0x0B, 0x85, 0xC5, 0] }; let u : State := { s with agenda := [], hart := 63 }; s.agenda = [.hart 63] ∧ u.hartNext 63 = .word 0x00C5850B ∧ decodeFerle 0x00C5850B = some (.fget 12 11 10)) ∧
    (let s : State := { tK with agenda := [.hart 63], harts := [(63, { Hart.reset with pc := 0x0000000000000100 })], mem := cellWrite [] 0x100 [0x73, 0, 0, 0] }; let u : State := { s with agenda := [], hart := 63 }; s.agenda = [.hart 63] ∧ u.hartNext 63 = .word 0x73 ∧ decodeFerle 0x73 = none) ∧
    (let s : State := { tK with agenda := [.event (.coreWake 0)] }; s.agenda = [.event (.coreWake 0)]) ∧
    (let s : State := { onC tK (fun c => { c with l := { c.l with parked := true } }) with agenda := [.issue .l] }; let u : State := { s with agenda := [], cur := .l }; s.agenda = [.issue .l] ∧ u = { s with agenda := [], cur := if s.wordMode then .l else .k } ∧ u.canIssue = false) ∧
    (let s : State := { onC (withCode tK 0x108 (codeOf [.lfirst 1 0, .nop])) (fun c => { c with k := { c.k with loops := c.k.loops.set 0 { Loop.reset with active := true, cnt := 3, done := 1, beg := 0x0010000000000108, fin := 0x001000000000010C } } }) with agenda := [.issue .k] }; let u : State := { s with agenda := [], cur := .k }; s.agenda = [.issue .k] ∧ s.wordMode = true ∧ u.canIssue = true ∧ u.skips = true) := by
  refine ⟨?_, ?_, ?_, ?_, ?_, ?_, ?_, ?_⟩ <;> decide +kernel

theorem witness_ResetState :
    ((2047 : Nat) < 2048 ∧ (63 : Nat) < 64 ∧ (255 : Nat) < 256) := by
  decide +kernel

theorem witness_BundleUses :
    (let s := tBundle; let wb := (encode (.beq 0 0 4)).getD 0; (BundleFresh s ∧ Forbidden 0 wb 0 0 .x ∧ ∀ τ, τ.num < 1 → ¬Forbidden 0 wb 0 0 τ)) ∧
    (let s := tBundle; BundleFresh s ∧ decodeWord .s 0x44000003 = .ok (.dsync 3) ∧ decodeWord .l 0x44000001 = .ok (.dsync 1) ∧ decodeWord .x 0 = .ok .nop) ∧
    (let s := tBundle; let wk := (encode (.j 1)).getD 0; (BundleFresh s ∧ (∀ τ, ¬Forbidden 0 0 0 wk τ) ∧ decodeWord .k wk = .ok (.j 1) ∧ (match slotSem (.j 1) { s with cur := .k } with | .ok (.jump _ a) => a.toNat % 16 != 0 | _ => false) = true ∧ (slotsOf 0 0 0 wk).all (fun t => isWait (t.run { s with cur := .k }) = false ∧ isFatal (t.run { s with cur := .k }) = false) = true)) := by
  refine ⟨?_, ?_, ?_⟩
  · exact by
      intro s wb
      refine ⟨by decide +kernel, ⟨.beq 0 0 4, by decide +kernel, .inl ⟨.inl ⟨0, 0, 4, .inl rfl⟩, by decide⟩⟩, fun τ h => ?_⟩
      cases τ <;> first | exact absurd h (by decide) | exact not_forbidden_nop _ _ _ _ _ (by decide +kernel)
  · decide +kernel
  · exact by
      intro s wk
      refine ⟨by decide +kernel, fun τ => ?_, by decide +kernel, by decide +kernel, by decide +kernel⟩
      cases τ <;> try exact not_forbidden_nop _ _ _ _ _ (by decide +kernel)
      rintro ⟨i, hi, hf⟩
      rw [show decodeWord .k (slotWord 0 0 0 wk .k) = .ok (.j 1) by decide +kernel] at hi
      cases hi
      simp at hf

theorem witness_BundleIssues :
    (let s := (tBundle.setG 6 4).setG 7 5; let t := s.allReady; let wk := (encode (.add 6 7 8)).getD 0; BundleFresh s ∧ decodeWord .l 0 = .ok .nop ∧ decodeWord .x 0 = .ok .nop ∧ decodeWord .s 0 = .ok .nop ∧ decodeWord .k wk = .ok (.add 6 7 8) ∧ Written t [6, 7, 8] ∧ (decodeWord .k 0xFFFFFFFF).toOption.isNone = true) ∧
    (let s := tBundle; let t := s.allReady; let wk := (encode (.twait 3)).getD 0; BundleFresh s ∧ decodeWord .k wk = .ok (.twait 3) ∧ TakesFrom t 3 ∧ s.core.token 3 = 0) := by
  refine ⟨?_, ?_⟩ <;> decide +kernel

theorem witness_IllegalWords :
    (Fresh (tState .k) ∧ (Instr.vmov (tX 1 2 3 0 0 1)).half ≠ Half.step ∧ (Instr.vmov (tX 1 2 3 0 0 1)).half ≠ Half.ferle ∧ (Instr.vmov (tX 1 2 3 0 0 1)).issuedBy .k = false) := by
  decide +kernel

theorem witness_DecodeOfEncode :
    ((Instr.add 9 10 11).fieldsOk = true ∧ encode (.add 9 10 11) = some 0x02952C00 ∧ (Instr.add 9 10 11).issuedBy .k = true) := by
  decide +kernel

theorem witness_EncodeOfDecode :
    (decodeWord .l 0x02952C00 = .ok (.add 9 10 11)) := by
  decide +kernel

theorem witness_RegisterWordsFrame_RegisterWordsFrame :
    (let s := ((tState .x).setG 6 4).setG 7 5; Fresh s ∧ Written s [6, 7, 8] ∧ isNext (exec (.add 6 7 8) s) = true) := by
  decide +kernel

theorem witness_RegisterWordsFrame_RegisterZero :
    (let s := tState .x; Fresh s ∧ Written s [7, 8]) := by
  decide +kernel

theorem witness_MemoryFrame :
    (let s := (tState .s).setG 6 0x0010000000000040; let v := (synced s 0).1; let ss := spansOf (v.access .storeD (baseOff s 6 (0 : BitVec 13) 8) 8); (Fresh s ∧ Written s [6, 9] ∧ (s.syncTake 0).toOption = some (v, none) ∧ (v.access .storeD (baseOff s 6 (0 : BitVec 13) 8) 8).toOption = some ss ∧ (∀ p ∈ ss, p.place ≠ .dev) ∧ isNext (exec (storeWord 3 9 6 0 0) s) = true)) ∧
    (let s := (tState .l).setG 6 0x0010000000000040; let v := (synced s 0).1; let ss := spansOf (v.access .load (baseOff s 6 (0 : BitVec 13) 1) 1); (Fresh s ∧ Written s [6, 9] ∧ (s.syncTake 0).toOption = some (v, none) ∧ (v.access .load (baseOff s 6 (0 : BitVec 13) 1) 1).toOption = some ss ∧ (∀ p ∈ ss, p.place ≠ .dev) ∧ isNext (exec (loadWord 0 9 6 0 0) s) = true)) ∧
    (let s0 : State := ((tState .x).setG 6 0x0010000000000040).setG 9 0x1234; let s : State := nextOr tSup (exec (.sth 9 6 0 0) s0); let o : MemOp := s.core.ops.getD 0 (s.newOp 0 (.load []) .none none 0 0 none false); let p : List Span × List Byte := match o.act with | .store ss bs => (ss, bs) | _ => ([], []); let q : Span := p.1.headD ⟨.mem, 0, 0, 0, 0⟩; let v : State := okOr tSup (s.writeSpans (s.core.whoOf o) [q] p.2); PlainOp s o ∧ o.act = .store [q] p.2 ∧ o.rel = 0 ∧ q.place = .mem ∧ p.2.length = q.len ∧ q.addr % 32 + q.len ≤ 32 ∧ s.coh.tags = [] ∧ s.coh.migs = [] ∧ s.coh.redirects = [] ∧ Memory.wf s.mem = true ∧ s.spansFenced [q] = false ∧ okIs (s.writeSpans (s.core.whoOf o) [q] p.2) v = true ∧ isNext (exec (.writeCompletion o.uid) s) = true) ∧
    (let s0 : State := ((tState .x).setG 6 0x0020000000000040).setG 9 0x1234; let s : State := nextOr tSup (exec (.sth 9 6 0 0) s0); let o : MemOp := s.core.ops.getD 0 (s.newOp 0 (.load []) .none none 0 0 none false); let p : List Span × List Byte := match o.act with | .store ss bs => (ss, bs) | _ => ([], []); let q : Span := p.1.headD ⟨.mem, 0, 0, 0, 0⟩; let v : State := okOr tSup (s.writeSpans (s.core.whoOf o) [q] p.2); PlainOp s o ∧ o.act = .store [q] p.2 ∧ o.rel = 0 ∧ q.place = .store ∧ p.2.length = q.len ∧ q.addr % 32 + q.len ≤ 32 ∧ Memory.wf s.mem = true ∧ Memory.wf s.store = true ∧ s.coh.tags = [] ∧ s.coh.migs = [] ∧ s.coh.redirects = [] ∧ s.spansFenced [q] = false ∧ okIs (s.writeSpans (s.core.whoOf o) [q] p.2) v = true ∧ isNext (exec (.writeCompletion o.uid) s) = true) := by
  refine ⟨?_, ?_, ?_, ?_⟩ <;> decide +kernel

theorem witness_StepKeepsCanonical :
    (let s : State := { withCode tK 0x104 [0, 0, 0, 0] with agenda := [.issue .x], mem := cellWrite [] 5 [1] }; Canonical s ∧ isNext (step s) = true) := by
  decide +kernel

theorem witness_FutureResult :
    (let f : Future := { tFut with st := 5, pq := 4095, pqpos := 4294967295, id := 65535 }; f.st = 5 ∧ f.pq < 4096 ∧ f.pqpos < 2 ^ 32 ∧ f.id < 65536) := by
  decide +kernel

theorem witness_MovhiResult :
    (let s := (tState .s).setG 9 0xFFFFFFFFFFFFFFFF; Fresh s ∧ Written s [9, 9]) := by
  decide +kernel

end Sys2Proof.Tests
end

namespace Sys2Proof.Machine

/-! ### A write to memory leaves the record of errors, boot and attestation -/

theorem foldl_keeps {α β γ : Type} {f : β → α → β} (g : β → γ) (hf : ∀ b a, g (f b a) = g b) (l : List α) (b : β) : g (l.foldl f b) = g b := by
  induction l generalizing b with
  | nil => rfl
  | cons a l ih => exact (ih (f b a)).trans (hf b a)

@[simp] theorem State.track_ras (s : State) (h pa die : Nat) : (s.track h pa die).ras = s.ras := by
  unfold State.track
  dsimp only
  repeat' split
  all_goals rfl

@[simp] theorem State.mscPin_ras (s : State) (st line : Nat) : (s.mscPin st line).2.ras = s.ras := by
  unfold State.mscPin
  dsimp only
  split <;> rfl

@[simp] theorem State.mscTouch_ras (s : State) (pa n pol : Nat) (write : Bool) : (s.mscTouch pa n pol write).ras = s.ras := by
  unfold State.mscTouch
  dsimp only
  repeat' split
  all_goals simp

@[simp] theorem State.flushUnit_ras (s : State) (ctx sl grain u : Nat) : (s.flushUnit ctx sl grain u).ras = s.ras := by
  unfold State.flushUnit
  dsimp only
  rw [State.mscTouch_ras]
  split <;> rfl

theorem State.foldl_flushUnit_ras {α : Type} (s : State) (c : α → Nat) (sl grain u : Nat) (l : List α) :
    (l.foldl (fun s t => s.flushUnit (c t) sl grain u) s).ras = s.ras :=
  foldl_keeps State.ras (fun b a => b.flushUnit_ras (c a) sl grain u) l s

@[simp] theorem State.recallUnit_ras (s : State) (agent sl grain u : Nat) (discard : Bool) : (s.recallUnit agent sl grain u discard).2.ras = s.ras := by
  unfold State.recallUnit
  dsimp only [State.modCoh]
  split
  · rfl
  · exact s.foldl_flushUnit_ras Tag.ctx sl grain u _

@[simp] theorem State.probeAgent_ras (s : State) (agent ctx sl u kind : Nat) : (s.probeAgent agent ctx sl u kind).2.ras = s.ras := by
  unfold State.probeAgent
  dsimp only
  repeat' split
  all_goals simp

@[simp] theorem State.dirSee_ras (s : State) (sl u : Nat) : (s.dirSee sl u).ras = s.ras := by
  unfold State.dirSee
  split <;> rfl

@[simp] theorem State.dirAnswer_ras (s : State) (agent sl u kind : Nat) (a : Answer) : (s.dirAnswer agent sl u kind a).ras = s.ras := by
  unfold State.dirAnswer
  rw [State.dirSee_ras]
  exact (apply_ite State.ras _ _ _).trans (ite_self _)

@[simp] theorem State.probeAll_ras (s : State) (except_ : Option Nat) (ctx sl u kind : Nat) : (s.probeAll except_ ctx sl u kind).ras = s.ras := by
  unfold State.probeAll
  split
  · rfl
  · refine foldl_keeps State.ras (fun b a => ?_) _ _
    split <;> simp

@[simp] theorem State.clearUnit_ras (s : State) (ctx sl grain u : Nat) : (s.clearUnit ctx sl grain u).ras = s.ras := by
  unfold State.clearUnit
  rw [State.probeAll_ras]
  exact s.foldl_flushUnit_ras id sl grain u _

@[simp] theorem State.writeRaw_ras (s : State) (x : Nat) (bs : List Byte) : (s.writeRaw x bs).ras = s.ras := rfl

@[simp] theorem State.hubTouch_ras (s : State) (f x n : Nat) : (s.hubTouch f x n).ras = s.ras := by
  induction f generalizing s x n with
  | zero => rfl
  | succ f ih =>
    unfold State.hubTouch
    split
    · rfl
    · simp [ih]

@[simp] theorem State.hubWrite_ras (s : State) (f x : Nat) (bs : List Byte) : (s.hubWrite f x bs).ras = s.ras := by
  induction f generalizing s x bs with
  | zero => rfl
  | succ f ih =>
    unfold State.hubWrite
    split
    · rfl
    · simp [ih]

@[simp] theorem State.writeMem_ras (s : State) (x : Nat) (bs : List Byte) : (s.writeMem x bs).ras = s.ras := by
  unfold State.writeMem
  dsimp only
  repeat' split
  all_goals simp

/-! ### Module reset, boot and attestation (R9, R461, R462) -/

theorem length_natBytes (k v : Nat) : (natBytes k v).length = k := by
  induction k generalizing v with
  | zero => rfl
  | succ k ih => rw [natBytes, List.length_cons, ih]

theorem length_wordsBytes (ws : List Word) : (wordsBytes ws).length = 8 * ws.length := by
  induction ws with
  | nil => rfl
  | cons w ws ih => rw [wordsBytes, List.flatMap_cons, List.length_append, ← wordsBytes, ih, wordBytes, length_natBytes, List.length_cons]; omega

/-- Verification while a boot loads (R461). -/
theorem execBootVerify_loading {s : State} (h : s.bootState = 1) : ∃ u : State, u.dev = [] ∧ u.mem = s.mem ∧ u.core = s.core ∧
    execBootVerify s = .next (if s.bootError = 0 then u.setFld bootReg 61 2 2 else (s.setFld bootReg 61 2 3).setFld bootReg 0 8 s.bootError) := by
  refine ⟨{ s with dev := [], ras := { s.ras with body := some (bytesNat (s.readMem (2 ^ 48 + 16) 32)) } }, rfl, rfl, rfl, ?_⟩
  unfold execBootVerify
  rw [if_neg (not_not_intro h)]
  dsimp only
  split <;> rfl

/-- A report is written with the nonce first, and the request is done (R462). -/
theorem execAttestReport_requested {s : State} {a : Nat} {regs : List Byte} (h : s.ras.attest = some (a, regs)) :
    ∃ rep : List Byte, rep.take 32 = wordsBytes ([0x850, 0x858, 0x860, 0x868].map s.reg) ∧ execAttestReport s =
      .next (((s.writeMem (3 * 2 ^ 48 + a % 2 ^ 48) rep).withRas { s.ras with attest := none }).interrupt 5) := by
  let nonce := wordsBytes ([0x850, 0x858, 0x860, 0x868].map s.reg)
  let head := nonce ++ natBytes 32 Config.romDigest ++ natBytes 32 (s.ras.body.getD 0) ++ natBytes 32 (Config.sha256 regs)
  have len : nonce.length = 32 := length_wordsBytes _
  refine ⟨head ++ Config.ecdsaSign (Config.sha256 head), ?_, ?_⟩
  · show (nonce ++ _ ++ _ ++ _ ++ _).take 32 = nonce
    simp only [List.append_assoc]
    exact len ▸ List.take_left
  · unfold execAttestReport
    rw [h]
    dsimp only
    rw [State.writeMem_ras]
    rfl

/-- Settles O45: each step by its branches; a report's memory write leaves the request that the step then clears. -/
theorem resetAndBoot : Obligations.ResetAndBoot := by
  intro s v
  refine ⟨⟨_, rfl, rfl, rfl, rfl, rfl, rfl, rfl, rfl, rfl, rfl⟩, fun h => ?_, fun h => ?_, fun h => ?_, fun h => ?_, fun h => ?_, fun h => ?_,
    fun h => ?_, fun a regs h => ?_⟩
  · exact if_pos h
  · exact if_neg h
  · exact if_pos h
  · exact execBootVerify_loading h
  · exact if_pos h
  · exact if_neg (not_not_intro h)
  · show execAttestReport s = _
    unfold execAttestReport
    rw [h]
  · exact execAttestReport_requested h

/-! ### A copy that no cache holds -/

/-- The module after reset, but for a record of the bytes of super-line 0 that is shorter than the line, while no cache holds the line. -/
def shortCopy : State := { State.reset with coh := { Coh.reset with copies := [{ ctx := 0, sline := 0, data := [], poison := 0 }] } }

/-- An access of die 0 outside every cluster. -/
def dieWho : Who := { agent := 0, clu := none, core := none, ctx := 0, die := 0, asker := none }

/-- Four bytes from the fifth on of the second 128-byte unit of super-line 0, cached at every level. -/
def innerSpan : Span := { place := .mem, addr := 132, len := 4, grain := 1, pol := 0 }

def fourBytes : List Byte := [1, 2, 3, 4]

/-- The write takes the short record over as the line's data, and the read then finds nothing at the bytes' place in their unit. -/
theorem shortCopy_loses_write :
    ((shortCopy.writeSpans dieWho [innerSpan] fourBytes).toOption.bind fun v => (v.readSpans dieWho [innerSpan]).toOption).map (·.2.1) = some [] := by
  decide +kernel

/-- Refutes O17: its second half bounds nothing of the bytes recorded for a line that no cache holds, and a record that is too short loses a write. -/
theorem not_memoryRuns : ¬ Obligations.MemoryRuns := by
  rintro ⟨-, readsBack⟩
  have lost := shortCopy_loses_write
  cases hw : shortCopy.writeSpans dieWho [innerSpan] fourBytes with
  | error e => simp [hw, Except.toOption] at lost
  | ok v =>
    cases hr : v.readSpans dieWho [innerSpan] with
    | error e => simp [hw, hr, Except.toOption] at lost
    | ok r =>
      obtain ⟨u, bs, bad⟩ := r
      have hbs : bs = [] := by simpa [hw, hr, Except.toOption] using lost
      have back : bs = fourBytes :=
        readsBack shortCopy v u dieWho dieWho innerSpan innerSpan fourBytes bs bad rfl rfl rfl rfl rfl rfl rfl rfl (by decide) rfl rfl hw hr
      exact absurd (hbs.symm.trans back) (by decide)

end Sys2Proof.Machine

namespace Sys2Proof.Machine

/-! ### Canonical form of byte memories -/

theorem wfFrom_filter (p : Host.Cell → Bool) {m : List Host.Cell} {lo : Nat} (w : wfFrom lo m = true) :
    wfFrom lo (m.filter p) = true := by
  induction m generalizing lo with
  | nil => rfl
  | cons c m ih =>
    obtain ⟨a, b⟩ := c
    simp only [wfFrom, Bool.and_eq_true, decide_eq_true_eq] at w
    obtain ⟨⟨above, kept⟩, rest⟩ := w
    rw [List.filter_cons]
    split
    · simp only [wfFrom, Bool.and_eq_true, decide_eq_true_eq]
      exact ⟨⟨above, kept⟩, ih rest⟩
    · exact wfFrom_mono (by omega) (ih rest)

/-- Dropping cells keeps the canonical form. -/
theorem wf_filter (p : Host.Cell → Bool) {m : List Host.Cell} (w : Memory.wf m = true) : Memory.wf (m.filter p) = true :=
  wfFrom_filter p w

theorem wf_foldl {α : Type} {f : List Host.Cell → α → List Host.Cell} {m : List Host.Cell} (w : Memory.wf m = true)
    (hf : ∀ m a, Memory.wf m = true → Memory.wf (f m a) = true) (l : List α) : Memory.wf (l.foldl f m) = true :=
  List.foldlRecOn l f w fun m hm a _ => hf m a hm

/-- Copying bytes keeps the canonical form, whatever memory they come from. -/
theorem wf_copyCells (src : List Host.Cell) (x n : Nat) {m : List Host.Cell} (w : Memory.wf m = true) (dst : Nat) :
    Memory.wf (copyCells src x n m dst) = true :=
  wf_foldl (wf_filter _ w) (fun _ _ hm => wf_cellSet _ _ hm) _

/-- Memory as the latest writes leave it is memory with cached bytes written and moved frames copied. -/
theorem wf_coherentMem {s : State} (w : Memory.wf s.mem = true) : Memory.wf s.coherentMem = true := by
  unfold State.coherentMem
  split
  · exact w
  · refine wf_foldl (wf_foldl (wf_foldl w (fun m t hm => ?_) _) (fun m g hm => ?_) _) (fun m r hm => wf_copyCells _ _ _ hm _) _
    · split
      · exact wf_foldl hm (fun _ _ hm => wf_cellWrite _ _ hm) _
      · exact hm
    · exact wf_foldl hm (fun _ _ hm => wf_copyCells _ _ _ hm _) _

/-! ### Every state in an answer -/

/-- What an answer carries, if it succeeds, has a property. -/
def OkAll {ε α : Type} (P : α → Prop) : Except ε α → Prop
  | .ok a => P a
  | .error _ => True

/-- What an option carries has a property. -/
def SomeAll {α : Type} (P : α → Prop) : Option α → Prop
  | some a => P a
  | none => True

/-- Memory and the cluster stores of a state are in canonical form. A structure, so that states are compared as they are written. -/
structure Canon (s : State) : Prop where
  mem : Memory.wf s.mem = true
  store : Memory.wf s.store = true

/-- The state that a word leaves is in canonical form. -/
def DoneCanonical : Done → Prop
  | .next s => Canon s
  | .jump s _ => Canon s
  | .hold s _ => Canon s
  | .raise s _ _ _ => Canon s
  | .at_ s => Canon s

/-- The state that an attempt to perform an operation leaves is in canonical form. -/
def PerfCanonical : Perf → Prop
  | .wait s => Canon s
  | .done s => Canon s
  | .dead s _ _ => Canon s

/-- The state that an engine's access leaves, unless it waits, is in canonical form. -/
def EngCanonical {α : Type} : Eng α → Prop
  | .ok s _ => Canon s
  | .stop s _ => Canon s
  | .wait _ => True
  | .dead s _ => Canon s

/-- The state that the sending of a held word leaves, unless it waits, is in canonical form. -/
def SendCanonical : HoldSend → Prop
  | .wait => True
  | .sent s => Canon s
  | .dead s => Canon s

/-- The next state, if a step has one, is in canonical form. -/
def NextCanonical : Host.Outcome State Fault Refusal → Prop
  | .next s => Canon s
  | _ => True

/-- A due event keeps the canonical form. -/
def DueKeeps (f : Due) : Prop := ∀ t, Canon t → NextCanonical (f t)

/-- Every due event of a list keeps the canonical form. -/
def DuesKeep (fs : List Due) : Prop := ∀ f ∈ fs, DueKeeps f

/-- The state that stopped an instruction of a hart, where there is one, is in canonical form. -/
def HStopCanonical : HStop → Prop
  | .trapAt s _ _ => Canon s
  | .wait s => Canon s
  | _ => True

/-- What a hart's instruction computes has a property, and the state that stops it is in canonical form. -/
def HartAll {α : Type} (P : α → Prop) : HM α → Prop
  | .ok a => P a
  | .error e => HStopCanonical e

section
variable {α β ε : Type} {P : α → Prop} {Q : β → Prop}

theorem OkAll.of_eq {x : Except ε α} {a : α} (h : OkAll P x) (e : x = .ok a) : P a := by subst e; exact h

theorem OkAll.bind {x : Except ε α} {f : α → Except ε β} (h : OkAll P x) (hf : ∀ a, P a → OkAll Q (f a)) : OkAll Q (x >>= f) := by
  cases x with
  | ok a => exact hf a h
  | error e => trivial

theorem OkAll.step {x : Except ε α} {f : α → Except ε β} (hf : ∀ a, OkAll Q (f a)) : OkAll Q (x >>= f) := by
  cases x with
  | ok a => exact hf a
  | error e => trivial

theorem OkAll.map {x : Except ε α} {f : α → β} (h : OkAll P x) (hf : ∀ a, P a → Q (f a)) : OkAll Q (x.map f) := by
  cases x with
  | ok a => exact hf a h
  | error e => trivial

theorem OkAll.ite {x y : Except ε α} {c : Prop} [Decidable c] (hx : OkAll P x) (hy : OkAll P y) : OkAll P (if c then x else y) := by
  split
  · exact hx
  · exact hy

theorem SomeAll.intro {a : α} (h : P a) : SomeAll P (some a) := h

theorem SomeAll.of_eq {x : Option α} {a : α} (h : SomeAll P x) (e : x = some a) : P a := by subst e; exact h

theorem SomeAll.ite {x y : Option α} {c : Prop} [Decidable c] (hx : SomeAll P x) (hy : SomeAll P y) :
    SomeAll P (if c then x else y) := by
  split
  · exact hx
  · exact hy

theorem SomeAll.map {x : Option α} {f : α → β} (h : SomeAll P x) (hf : ∀ a, P a → Q (f a)) : SomeAll Q (x.map f) := by
  cases x with
  | some a => exact hf a h
  | none => trivial

theorem HartAll.of_eq {x : HM α} {a : α} (h : HartAll P x) (e : x = .ok a) : P a := by subst e; exact h

theorem HartAll.of_error {x : HM α} {a : HStop} (h : HartAll P x) (e : x = .error a) : HStopCanonical a := by subst e; exact h

theorem HartAll.bind {x : HM α} {f : α → HM β} (h : HartAll P x) (hf : ∀ a, P a → HartAll Q (f a)) : HartAll Q (x >>= f) := by
  cases x with
  | ok a => exact hf a h
  | error e => exact h

theorem HartAll.map {x : HM α} {f : α → β} (h : HartAll P x) (hf : ∀ a, P a → Q (f a)) : HartAll Q (x.map f) := by
  cases x with
  | ok a => exact hf a h
  | error e => exact h

theorem HartAll.ite {x y : HM α} {c : Prop} [Decidable c] (hx : HartAll P x) (hy : HartAll P y) : HartAll P (if c then x else y) := by
  split
  · exact hx
  · exact hy

theorem EngCanonical.of_ok {x : Eng α} {t : State} {a : α} (h : EngCanonical x) (e : x = .ok t a) : Canon t := by subst e; exact h

theorem EngCanonical.of_stop {x : Eng α} {t : State} {d : Nat} (h : EngCanonical x) (e : x = .stop t d) : Canon t := by subst e; exact h

theorem EngCanonical.of_dead {x : Eng α} {t : State} {a : Word} (h : EngCanonical x) (e : x = .dead t a) : Canon t :=
  by subst e; exact h

theorem PerfCanonical.of_wait {x : Perf} {t : State} (h : PerfCanonical x) (e : x = .wait t) : Canon t := by subst e; exact h

theorem PerfCanonical.of_done {x : Perf} {t : State} (h : PerfCanonical x) (e : x = .done t) : Canon t := by subst e; exact h

theorem PerfCanonical.of_dead {x : Perf} {t : State} {code : Nat} {v : Word} (h : PerfCanonical x) (e : x = .dead t code v) :
    Canon t := by
  subst e; exact h

theorem NextCanonical.of_eq {o : Host.Outcome State Fault Refusal} {t : State} (h : NextCanonical o) (e : o = .next t) : Canon t := by
  subst e; exact h

theorem NextCanonical.ite {x y : Host.Outcome State Fault Refusal} {c : Prop} [Decidable c] (hx : NextCanonical x)
    (hy : NextCanonical y) :
    NextCanonical (if c then x else y) := by
  split
  · exact hx
  · exact hy

theorem EngCanonical.ite {x y : Eng α} {c : Prop} [Decidable c] (hx : EngCanonical x) (hy : EngCanonical y) :
    EngCanonical (if c then x else y) := by
  split
  · exact hx
  · exact hy

theorem PerfCanonical.ite {x y : Perf} {c : Prop} [Decidable c] (hx : PerfCanonical x) (hy : PerfCanonical y) :
    PerfCanonical (if c then x else y) := by
  split
  · exact hx
  · exact hy

namespace Canon

theorem fst_of_eq {x : State × β} {t : State} {b : β} (h : Canon x.1) (e : x = (t, b)) : Canon t := by subst e; exact h

/-- An update of fields other than memory and the stores. -/
theorem frame {s : State} (h : Canon s) {quartz : Word} {free : Nat} {agenda : List Turn} {turn : Nat} {cur : StrandId} {hart : Nat}
    {core : Core}
    {cores : List Core} {clusters : List (Nat × Cluster)} {jobs : List Job} {jobSeq jobDone : Nat} {dev : List (Nat × Word)} {lm : Lm}
      {coh : Coh}
    {futures : List Future} {futSeq : Nat} {futGen pqSeq : List (Nat × Nat)} {harts : List (Nat × Hart)} {fab : Fabric} {zg : Zheuc}
      {agate : Agate}
    {beryl : List Beryl} {ras : Ras} {moduleFloor : Nat} {out : List (Nat × List Word)} :
    Canon { s with
      quartz, free, agenda, turn, cur, hart, core, cores, clusters, jobs, jobSeq, jobDone, dev, lm, coh, futures, futSeq, futGen, pqSeq,
      harts, fab, zg, agate, beryl, ras, moduleFloor, out } := ⟨h.mem, h.store⟩

theorem ite {t u : State} {c : Prop} [Decidable c] (ht : Canon t) (hu : Canon u) : Canon (if c then t else u) := by
  split
  · exact ht
  · exact hu

theorem ite_fst {x y : State × β} {c : Prop} [Decidable c] (hx : Canon x.1) (hy : Canon y.1) : Canon (if c then x else y).1 := by
  split
  · exact hx
  · exact hy

theorem ite_snd {x y : β × State} {c : Prop} [Decidable c] (hx : Canon x.2) (hy : Canon y.2) : Canon (if c then x else y).2 := by
  split
  · exact hx
  · exact hy

theorem getD {x : Option State} {t : State} (hx : SomeAll Canon x) (ht : Canon t) : Canon (x.getD t) := by
  cases x with
  | some u => exact hx
  | none => exact ht

theorem foldl {s : State} {f : State → α → State} {l : List α} (h : Canon s) (hf : ∀ t a, Canon t → Canon (f t a)) :
    Canon (l.foldl f s) :=
  List.foldlRecOn l f h fun t ht a _ => hf t a ht

theorem foldl_fst {p : State × β} {f : State × β → α → State × β} {l : List α} (h : Canon p.1)
    (hf : ∀ q a, Canon q.1 → Canon (f q a).1) : Canon (l.foldl f p).1 :=
  List.foldlRecOn (motive := fun q => Canon q.1) l f h fun t ht a _ => hf t a ht

theorem foldl_snd {p : β × State} {f : β × State → α → β × State} {l : List α} (h : Canon p.2)
    (hf : ∀ q a, Canon q.2 → Canon (f q a).2) : Canon (l.foldl f p).2 :=
  List.foldlRecOn (motive := fun q => Canon q.2) l f h fun t ht a _ => hf t a ht

end Canon
end

/-! ### Lists of due events -/

section
variable {α : Type} {f : Due} {fs gs : List Due} {l : List α}

theorem DuesKeep.nil : DuesKeep [] := by
  intro g hg
  cases hg

theorem DuesKeep.cons (hf : DueKeeps f) (hs : DuesKeep fs) : DuesKeep (f :: fs) := by
  intro g hg
  cases hg with
  | head => exact hf
  | tail _ hg => exact hs g hg

theorem DuesKeep.append (hs : DuesKeep fs) (ht : DuesKeep gs) : DuesKeep (fs ++ gs) := by
  intro g hg
  cases List.mem_append.1 hg with
  | inl hg => exact hs g hg
  | inr hg => exact ht g hg

theorem DuesKeep.map {d : α → Due} (hd : ∀ a, DueKeeps (d a)) : DuesKeep (l.map d) := by
  intro g hg
  obtain ⟨a, _, rfl⟩ := List.mem_map.1 hg
  exact hd a

theorem DuesKeep.flatMap {d : α → List Due} (hd : ∀ a, DuesKeep (d a)) : DuesKeep (l.flatMap d) := by
  intro g hg
  obtain ⟨a, _, ha⟩ := List.mem_flatMap.1 hg
  exact hd a g ha

theorem DuesKeep.filterMap {d : α → Option Due} (hd : ∀ a, SomeAll DueKeeps (d a)) : DuesKeep (l.filterMap d) := by
  intro g hg
  obtain ⟨a, _, ha⟩ := List.mem_filterMap.1 hg
  exact (hd a).of_eq ha

theorem DuesKeep.ite {c : Prop} [Decidable c] (hs : DuesKeep fs) (ht : DuesKeep gs) : DuesKeep (if c then fs else gs) := by
  split
  · exact hs
  · exact ht

end

/-! ### What a hart's accesses compute carries no state -/

theorem HartAll.hartIllegal {α : Type} {P : α → Prop} {w : ℕ} : HartAll P (hartIllegal w) := trivial

section
variable {s : State} {x : Hart} {p : Priv} {acc : HAcc}

theorem HartAll.hartWalk {sum mxr pbmt : Bool} {va level ppn : ℕ} :
    HartAll (fun _ => True) (s.hartWalk p acc sum mxr pbmt va level ppn) := by
  induction level generalizing ppn with
  | zero => trivial
  | succ level ih =>
    unfold State.hartWalk
    exact .ite trivial (.ite trivial (.ite (.ite trivial trivial) (.ite trivial ih)))

theorem HartAll.hartPa {va : ℕ} : HartAll (fun _ => True) (s.hartPa x p acc va) := by
  unfold State.hartPa
  exact .ite trivial (.ite trivial hartWalk)

theorem HartAll.hartPlace {va pa n : ℕ} : HartAll (fun _ => True) (s.hartPlace p acc va pa n) := by
  unfold State.hartPlace
  exact .ite trivial (.ite (.ite trivial trivial) (.ite trivial trivial))

theorem HartAll.hartRuns {f va n : ℕ} : HartAll (fun _ => True) (s.hartRuns x p acc f va n) := by
  induction f generalizing va n with
  | zero => trivial
  | succ f ih =>
    unfold State.hartRuns
    exact .ite trivial (.bind hartPa fun _ _ => .bind hartPlace fun _ _ => .bind ih fun _ _ => trivial)

theorem HartAll.hartAccess {va n : ℕ} : HartAll (fun _ => True) (s.hartAccess x p acc va n) := by
  unfold State.hartAccess
  exact .ite trivial hartRuns

theorem HartAll.hartParcel {a : ℕ} : HartAll (fun _ => True) (s.hartParcel x a) := .bind hartAccess fun _ _ => .ite trivial trivial

theorem HartAll.hartFetch {k : ℕ} : HartAll (fun _ => True) (s.hartFetch k) :=
  .bind hartParcel fun _ _ => .ite trivial (.bind hartParcel fun _ _ => trivial)

end

/-! ### What every function of the model leaves

One lemma for each function that answers a state, in the model's order, under the function's name: `h.f : Canon (s.f …)`. Memory and the
stores change in `writeRaw`, `flushUnit`, `putStore`, `loadSlice`, `saveSlice`, `moveLine`, `copyMarked`, `execCssplitChange` and
`execModuleReset`, which write bytes, copy them or drop them; everything else leaves them (`frame`) or goes through those. -/

namespace Canon
section
variable {s : State} (h : Canon s)
include h

/-! ### Dev: Access masks and reset values -/

theorem setReg {a : ℕ} {v : Word} : Canon (s.setReg a v) := h.frame

theorem writeReg {a : ℕ} {v : Word} : Canon (s.writeReg a v) := h.setReg

theorem count {a n : ℕ} : Canon (s.count a n) := h.setReg

theorem count64 {a : ℕ} : Canon (s.count64 a) := h.setReg

theorem setFld {a lo len v : ℕ} : Canon (s.setFld a lo len v) := h.setReg

/-! ### Regs: Cores -/

theorem setCore {c : Core} : Canon (s.setCore c) := .ite h.frame h.frame

theorem focus {k : ℕ} : Canon (s.focus k) := .ite h h.frame

theorem modCore {k : ℕ} {f : Core → Core} : Canon (s.modCore k f) := h.setCore

/-! ### Regs: Strands -/

theorem setStrand {σ : StrandId} {t : Strand} : Canon (s.setStrand σ t) := h.frame

theorem modStrand {σ : StrandId} {f : Strand → Strand} : Canon (s.modStrand σ f) := h.setStrand

theorem modMe {f : Strand → Strand} : Canon (s.modMe f) := h.modStrand

/-! ### Regs: g registers -/

theorem setG {r : BitVec 5} {v : Word} : Canon (s.setG r v) := h.modMe

/-! ### Regs: Free values -/

theorem drawEntry : Canon s.drawEntry.2 := h.frame

theorem drawWord : Canon s.drawWord.2 := h.frame

theorem drawBytes {n : ℕ} : Canon (s.drawBytes n).2 := h.frame

/-! ### Regs: Modes and addresses -/

theorem goto {a : Word} : Canon (s.goto a) := .ite h.modMe h.frame

/-! ### Regs: Messages that leave the module -/

theorem emit {kind : ℕ} {ws : List Word} : Canon (s.emit kind ws) := h.frame

/-! ### Msc -/

theorem modCoh {f : Coh → Coh} : Canon (s.modCoh f) := h.frame

/-! ### Msc: Trackers -/

theorem track {h1 pa die : ℕ} : Canon (s.track h1 pa die) := by
  unfold State.track
  refine .ite h ?_
  dsimp only
  split
  · exact h.modCoh
  · refine .ite h.modCoh ?_
    split
    · exact h
    · exact h.modCoh

/-! ### Msc: Forwarding -/

theorem forwarded {pa die : ℕ} {redirect : Bool} : Canon (s.forwarded pa die redirect) := .ite h.track.count h.track

/-! ### Msc: Memory-side cache -/

theorem mscPin {st line : ℕ} : Canon (s.mscPin st line).2 := .ite_snd h h.count

theorem mscTouch {pa n pol : ℕ} {write : Bool} : Canon (s.mscTouch pa n pol write) := by
  unfold State.mscTouch
  refine .ite h ?_
  extract_lets st line wins noted need
  have hnoted : Canon noted := h.modCoh
  split
  · dsimp only
    exact hnoted.modCoh
  · refine .ite hnoted ?_
    have hpinned : Canon (if wins.isEmpty then (false, noted) else noted.mscPin st line).2 := .ite_snd hnoted hnoted.mscPin
    exact hpinned.modCoh

/-! ### Caches: Writes -/

theorem wrote {x n : ℕ} : Canon (s.wrote x n) := h.frame

theorem writeRaw {x : ℕ} {bs : List Byte} : Canon (s.writeRaw x bs) :=
  have noted : Canon (s.wrote x bs.length) := h.wrote
  ⟨wf_cellWrite _ _ noted.1, noted.2⟩

theorem writeCopy {ctx x : ℕ} {bs : List Byte} : Canon (s.writeCopy ctx x bs) := by
  unfold State.writeCopy
  exact h.wrote.modCoh

/-! ### Caches: The directory's record -/

theorem dirSee {sl u : ℕ} : Canon (s.dirSee sl u) := by
  unfold State.dirSee
  split
  · exact h
  · exact h.modCoh

theorem dirGrant {sl grain agent u : ℕ} : Canon (s.dirGrant sl grain agent u) := h.modCoh.dirSee

theorem dirClear {sl agent : ℕ} : Canon (s.dirClear sl agent) := h.modCoh

/-! ### Caches: Write-backs and recalls -/

theorem flushUnit {ctx sl grain u : ℕ} : Canon (s.flushUnit ctx sl grain u) := by
  have written (a : ℕ) (bs : List Byte) : Canon { s with mem := cellWrite s.mem a bs } := ⟨wf_cellWrite _ _ h.1, h.2⟩
  unfold State.flushUnit
  exact (Canon.ite (written _ _) (written _ _).modCoh).mscTouch

theorem writeBack {agent ctx sl grain u : ℕ} : Canon (s.writeBack agent ctx sl grain u) :=
  Canon.dirSee (.ite h.track.flushUnit.modCoh.modCoh.dirClear h.track.flushUnit.modCoh)

theorem recallUnit {agent sl grain u : ℕ} {discard : Bool} : Canon (s.recallUnit agent sl grain u discard).2 := by
  unfold State.recallUnit
  dsimp only
  exact Canon.modCoh (.ite h (h.foldl (fun _ _ ht => ht.flushUnit)))

theorem probeAgent {agent ctx sl u kind : ℕ} : Canon (s.probeAgent agent ctx sl u kind).2 := by
  unfold State.probeAgent
  refine .ite_snd h.recallUnit (.ite_snd h.count ?_)
  dsimp only
  exact h.modCoh

theorem dirAnswer {agent sl u kind : ℕ} {a : Answer} : Canon (s.dirAnswer agent sl u kind a) := Canon.dirSee (.ite h.dirClear h)

theorem probeAll {except_ : Option ℕ} {ctx sl u kind : ℕ} : Canon (s.probeAll except_ ctx sl u kind) := by
  unfold State.probeAll
  split
  · exact h
  · exact h.foldl fun _ _ ht => .ite ht.probeAgent.dirAnswer ht

theorem recallLine {sl : ℕ} {discard : Bool} : Canon (s.recallLine sl discard).2 := by
  unfold State.recallLine
  split
  · exact h
  · exact h.foldl_snd fun _ _ ht => .ite_snd (ht.foldl_snd (fun _ _ ht1 => ht1.recallUnit.dirAnswer)) ht

theorem clearUnit {ctx sl grain u : ℕ} : Canon (s.clearUnit ctx sl grain u) := Canon.probeAll (h.foldl (fun _ _ ht => ht.flushUnit))

/-! ### Caches: Accesses of the hub's own units -/

theorem hubWrite {a a1 : ℕ} {a2 : List Byte} : Canon (s.hubWrite a a1 a2) := by
  induction a generalizing s a1 a2 with
  | zero => exact h
  | succ f ih =>
    unfold State.hubWrite
    split
    · exact h
    · exact ih h.clearUnit.writeRaw

theorem hubTouch {a a1 a2 : ℕ} : Canon (s.hubTouch a a1 a2) := by
  induction a generalizing s a1 a2 with
  | zero => exact h
  | succ f ih =>
    unfold State.hubTouch
    split
    · exact h
    · exact ih h.track.mscTouch

theorem writeMem {x : ℕ} {bs : List Byte} : Canon (s.writeMem x bs) := .ite h (.ite h.hubTouch.writeRaw h.hubTouch.hubWrite)

theorem writeWordAt {x : ℕ} {w : Word} : Canon (s.writeWordAt x w) := h.writeMem

theorem markPoison {x : ℕ} : Canon (s.markPoison x) := h.modCoh

/-! ### Handles: Accesses of strands -/

theorem countZerosOf {ctx : ℕ} {ss : List Span} : Canon (s.countZerosOf ctx ss) := .ite h.count64 h

theorem countZeros {ss : List Span} : Canon (s.countZeros ss) := h.countZerosOf

/-! ### Events: Host interrupts -/

theorem interrupt {n : ℕ} : Canon (s.interrupt n) := .ite h.writeMem.emit h

/-! ### Events: Event rings -/

theorem put {r : RingDesc} {ws : List Word} : Canon (r.put s ws) := h.writeMem.setFld

theorem rasAt {qtz : Word} {type low : ℕ} {w2 w3 : Word} : Canon (s.rasAt qtz type low w2 w3) := Canon.interrupt (.ite h.count h.put)

theorem ras0 {type low : ℕ} {w2 w3 : Word} : Canon (s.ras0 type low w2 w3) := h.rasAt

/-! ### Events: Trace records -/

theorem trace {c : Core} {type σ a : ℕ} {w2 w3 : Word} : Canon (s.trace c type σ a w2 w3) := .ite (.ite h.count h.put) h

/-! ### Events: Pending sets -/

theorem migEvent {host : Bool} : Canon (s.migEvent host) := .ite h.interrupt (h.foldl (fun _ _ ht => ht.modCore))

theorem superEvent : Canon s.superEvent := .ite h.modCore h.setFld

theorem superDeliver : Canon s.superDeliver := .ite h.setFld.modCore h

/-! ### Coherence: Pins -/

theorem widenPins {core sc : ℕ} : Canon (s.widenPins core sc) := h.modCoh

theorem endPins {core : ℕ} : Canon (s.endPins core) := h.widenPins

theorem endPinsOf {ctx : ℕ} : Canon (s.endPinsOf ctx) := h.modCoh

/-! ### Coherence: Evictions -/

theorem evictLine {agent ctx sl grain : ℕ} : Canon (s.evictLine agent ctx sl grain) := by
  unfold State.evictLine
  exact Canon.modCoh (h.foldl (fun _ _ ht => ht.writeBack))

theorem l2Room {agent ctx sl : ℕ} : SomeAll Canon (s.l2Room agent ctx sl) := by
  unfold State.l2Room
  refine .ite h (.ite h ?_)
  split
  · trivial
  · exact h.evictLine

/-! ### Coherence: Room in the directory -/

theorem dirEvict {d : DirEntry} : Canon (s.dirEvict d) := .ite h.recallLine.modCoh.count h.recallLine.modCoh

theorem dirRoom {sl : ℕ} : SomeAll Canon (s.dirRoom sl) := by
  unfold State.dirRoom
  refine .ite h (.ite h ?_)
  split
  · exact h.dirEvict
  · trivial

/-! ### Coherence: Queues of the home agents -/

theorem enqueue {w : Who} {pa : ℕ} : Canon (s.enqueue w pa) := by
  unfold State.enqueue
  split
  · exact h
  · exact .ite h.modCoh (.ite h.modCoh.modCoh h.modCoh)

theorem dequeue {a : Option Asker} : Canon (s.dequeue a) := by
  unfold State.dequeue
  split
  · exact h
  · exact .ite h h.modCoh

/-! ### Coherence: Holders and pins -/

theorem makePin {w : Who} {sl u scope : ℕ} : Canon (s.makePin w sl u scope) := by
  unfold State.makePin
  split
  · exact h.modCoh
  · exact h

/-! ### Coherence: A request for one unit -/

theorem homeGrant {w : Who} {pa grain u pol : ℕ} {write : Bool} : OkAll Canon (s.homeGrant w pa grain u pol write) := by
  unfold State.homeGrant
  refine .ite trivial ?_
  split
  · trivial
  · rename_i e
    split
    · trivial
    · rename_i e1
      exact Canon.dirGrant (Canon.modCoh (.ite ((h.dirRoom.of_eq e).l2Room.of_eq e1).track.probeAll
        ((h.dirRoom.of_eq e).l2Room.of_eq e1).track.probeAll.mscTouch))

theorem dieGrant {w : Who} {sl grain u : ℕ} {l1 write : Bool} : Canon (s.dieGrant w sl grain u l1 write) := by
  unfold State.dieGrant
  extract_lets own left l2 granted
  have hgranted : Canon granted := h.modCoh.modCoh
  clear_value granted
  cases w.clu with
  | none => exact hgranted
  | some g =>
    refine .ite hgranted ?_
    cases granted.coh.l1Room g (granted.l1Part g) w.ctx sl with
    | none => exact hgranted
    | some c => exact hgranted.frame

theorem cached {w : Who} {pa grain pol : ℕ} {l1 write : Bool} : OkAll Canon (s.cached w pa grain pol l1 write) := by
  unfold State.cached
  refine .ite trivial (.ite h.dieGrant ?_)
  split
  · trivial
  · rename_i e
    exact (h.homeGrant.of_eq e).dieGrant

theorem uncached {w : Who} {pa n pol : ℕ} {write : Bool} : OkAll Canon (s.uncached w pa n pol write) :=
  .ite trivial (Canon.mscTouch (.ite h.track (.ite h.track.clearUnit h.track.probeAll)))

theorem request {w : Who} {pa n grain pol : ℕ} {write : Bool} : OkAll (fun r => Canon r.1) (s.request w pa n grain pol write) := by
  have hit {t : State} (ht : Canon t) {lv : Bool} {f : State → Run} :
      OkAll (fun r => Canon r.1) ((t.cached w pa grain pol lv write).map fun u => (u, f u)) := ht.cached.map fun _ hu => hu
  have past {t : State} (ht : Canon t) {a p : ℕ} {r : Run} : OkAll (fun r => Canon r.1) ((t.uncached w a n p write).map (·, r)) :=
    ht.uncached.map fun _ hu => hu
  unfold State.request
  dsimp only
  cases s.homeOf pa with
  | queued => exact .ite (hit h) trivial
  | moved a redirect => exact .ite trivial (past h.forwarded)
  | own => exact .ite (hit h) (past h)

theorem requestRun {w : Who} {grain pol : ℕ} {write : Bool} {a a1 a2 : ℕ} :
    OkAll (fun r => Canon r.1) (s.requestRun w grain pol write a a1 a2) := by
  induction a generalizing s a1 a2 with
  | zero => exact h
  | succ f ih =>
    unfold State.requestRun
    split
    · exact h
    · dsimp only
      split
      · trivial
      · rename_i t r e
        have taken : Canon t := h.request.of_eq e
        split
        · trivial
        · rename_i u rs e
          have rest : Canon u := (ih taken).of_eq e
          exact rest

/-! ### Coherence: Runs of bytes -/

theorem writeRun {ctx : ℕ} {r : Run} {bs : List Byte} : Canon (s.writeRun ctx r bs) := .ite h.writeCopy h.writeRaw

theorem writeRuns {ctx : ℕ} {a : List Run} {a1 : List Byte} : Canon (s.writeRuns ctx a a1) := by
  induction a generalizing s a1 with
  | nil => exact h
  | cons r rs ih => exact ih h.writeRun

/-! ### Coherence: Spans -/

theorem putStore {x : ℕ} {bs : List Byte} : Canon (s.putStore x bs) := ⟨h.1, wf_cellWrite _ _ h.2⟩

theorem requestSpans {w : Who} {write : Bool} {a : List Span} : OkAll (fun r => Canon r.1) (s.requestSpans w write a) := by
  induction a generalizing s with
  | nil => exact h
  | cons p ps ih =>
    have taken : OkAll (fun r => Canon r.1)
        (if p.place = .mem then s.requestRun w p.grain p.pol write (p.len + 1) p.addr p.len else .ok (s, [])) := .ite h.requestRun h
    unfold State.requestSpans
    split
    · trivial
    · rename_i t rs e
      have granted : Canon t := taken.of_eq e
      split
      · trivial
      · rename_i u rss e
        have rest : Canon u := (ih granted).of_eq e
        exact rest

theorem readGranted {ctx : ℕ} {got : List (ℕ × List Byte)} {a : ℕ} {a1 : List Span} {a2 : List (List Run)} :
    Canon (s.readGranted ctx got a a1 a2).1 := by
  induction a1 generalizing s a a2 with
  | nil => exact h
  | cons p ps ih =>
    cases a2 with
    | nil => exact h
    | cons rs rss =>
      unfold State.readGranted
      refine ih ?_
      split
      · exact h
      · exact h
      · exact h.drawBytes (n := p.len)
      · exact h
      · exact h

theorem writeGranted {ctx : ℕ} {a : List Span} {a1 : List (List Run)} {a2 : List Byte} : Canon (s.writeGranted ctx a a1 a2) := by
  induction a generalizing s a1 a2 with
  | nil => exact h
  | cons p ps ih =>
    cases a1 with
    | nil => exact h
    | cons rs rss =>
      unfold State.writeGranted
      refine ih ?_
      split
      · exact h.writeRuns
      · exact h.putStore
      · exact h

theorem readSpans {w : Who} {ss : List Span} : OkAll (fun r => Canon r.1) (s.readSpans w ss) := by
  unfold State.readSpans
  split
  · trivial
  · rename_i e
    exact (h.requestSpans.of_eq e).dequeue.readGranted

theorem pinWrites {w : Who} {scope : ℕ} {rss : List (List Run)} : Canon (s.pinWrites w scope rss) := h.foldl fun _ _ ht => ht.makePin

theorem writeSpans {w : Who} {ss : List Span} {bs : List Byte} : OkAll Canon (s.writeSpans w ss bs) := by
  unfold State.writeSpans
  split
  · trivial
  · rename_i e
    exact (h.requestSpans.of_eq e).dequeue.writeGranted

/-! ### Context: Command records, as far as rings go -/

theorem syncRings {g : ℕ} : Canon (s.syncRings g) := h.foldl fun _ _ ht => ht.setFld

/-! ### Context: Cores and tasks -/

theorem mapCores {f : Core → Core} : Canon (s.mapCores f) := h.frame

theorem unhalt {k : ℕ} : Canon (s.unhalt k) := .ite h.setFld.setFld h.setFld

theorem endTasks {c : ℕ} : Canon (s.endTasks c) := Canon.frame (Canon.mapCores (h.foldl (fun _ _ ht => ht.unhalt)))

theorem emptyQueues {c : ℕ} : Canon (s.emptyQueues c) := Canon.frame (h.foldl (fun _ _ ht => .ite ht.writeWordAt ht))

theorem cancelFutures {c : ℕ} : Canon (s.cancelFutures c) := h.frame

theorem evictHart {h1 : ℕ} {x : Hart} : Canon (s.evictHart h1 x) := .ite h.dequeue.drawWord.frame h.dequeue.frame

theorem stopSandboxes {c : ℕ} : Canon (s.stopSandboxes c) := h.foldl fun _ _ ht => .ite ht.evictHart ht

theorem endJobs {c : ℕ} : Canon (s.endJobs c) := .foldl h.frame fun _ _ ht => ht.syncRings

theorem discardLines {c : ℕ} : Canon (s.discardLines c) := by
  unfold State.discardLines
  exact Canon.modCoh (h.foldl (fun _ _ ht => ht.flushUnit))

theorem stopContext {c : ℕ} : Canon (s.stopContext c) :=
  h.endTasks.emptyQueues.cancelFutures.stopSandboxes.endJobs.endPinsOf.discardLines.frame.superDeliver

/-! ### Context: Fatal errors -/

theorem killRecord {k : Core} {r : ℕ} {σ : StrandId} {code : ℕ} {val : Word} {cause : ℕ} : Canon (s.killRecord k r σ code val cause) :=
  h.writeMem.writeMem

theorem fatalError {c : ℕ} {o : Origin} {code : ℕ} {val : Word} {cause : ℕ} : Canon (s.fatalError c o code val cause) := by
  unfold State.fatalError
  refine .ite h (Canon.stopContext (Canon.ras0 (Canon.setFld (Canon.setFld ?_))))
  split
  · refine Canon.trace ?_
    split
    · exact h.killRecord
    · exact h
  · exact h

/-! ### Halt: Landing X results -/

theorem landCore {k : ℕ} {f : Core → Core} : Canon (s.landCore k f) := .ite h.setCore h.setCore.setFld

/-! ### Halt: Debug halt -/

theorem haltCluster {g cause : ℕ} : Canon (s.haltCluster g cause) :=
  .ite h (Canon.frame (.foldl (Canon.setReg (h.foldl (fun _ _ ht => ht.landCore.modCore))) (fun _ _ ht => ht.trace)))

/-! ### Halt: Beryl log points -/

theorem setBeryl {b : Beryl} : Canon (s.setBeryl b) := h.frame

theorem logPut {p : ℕ} {w : Word} : Canon (s.logPut p w) := .ite h (.ite h.setFld h.writeWordAt.setFld)

theorem logFlush {p : ℕ} : Canon (s.logFlush p) := by
  unfold State.logFlush
  dsimp only
  split
  · exact h.logPut.setBeryl
  · exact h

theorem logRecord {p key id : ℕ} : Canon (s.logRecord p key id) :=
  .ite h (.ite h.setBeryl (Canon.setBeryl (.ite h.logFlush h.logFlush.logPut)))

theorem diverge {p key id reason : ℕ} : Canon (s.diverge p key id reason) :=
  Canon.ras0 (.foldl h.setReg.setReg.setBeryl (fun _ _ ht => ht.haltCluster))

theorem logConsume {p : ℕ} {b : Beryl} {r : LogRun} {core uid : ℕ} : Canon (s.logConsume p b r core uid) := h.setBeryl.setFld

theorem logHold {p : ℕ} {b : Beryl} {never : Bool} {h1 : ℕ × ℕ × ℕ × ℕ × ℕ} : Canon (s.logHold p b never h1) :=
  .ite h.diverge (.ite h h.setBeryl)

theorem logAdmit {c pa id core uid : ℕ} : SomeAll Canon (s.logAdmit c pa id core uid).1 ∧ Canon (s.logAdmit c pa id core uid).2 := by
  unfold State.logAdmit
  split
  · exact ⟨h, h⟩
  · split
    · exact ⟨h, h⟩
    · dsimp only
      split
      · exact ⟨h.logRecord, h⟩
      · split
        · exact ⟨trivial, h⟩
        · split
          · split
            · exact ⟨h.logConsume, h⟩
            · exact ⟨trivial, h.logHold⟩
          · exact ⟨trivial, h.logHold⟩
      · exact ⟨h, h⟩

/-! ### Perform: Sequentially consistent values -/

theorem scRead {core : ℕ} {o : MemOp} : Canon (s.scRead core o) := .ite (.ite h h.modCore) h

theorem scMark {stamp : Option (ℕ × ℕ)} {ss : List Span} : Canon (s.scMark stamp ss) := by
  unfold State.scMark
  split
  · exact h
  · exact h.modCoh

theorem scWrote {o : MemOp} : Canon (s.scWrote o) := h.scMark

/-! ### Perform: Performing -/

theorem releaseAt {core : ℕ} {o : MemOp} {scope : ℕ} : Canon (s.releaseAt core o scope) := .ite h.widenPins h

theorem releaseOf {core : ℕ} {o : MemOp} : Canon (s.releaseOf core o) := by
  unfold State.releaseOf
  split
  · exact h.releaseAt
  · exact h

theorem writeAs {c : Core} {o : MemOp} {rss : List (List Run)} {bs : List Byte} : SomeAll Canon (s.writeAs c o rss bs) := by
  unfold State.writeAs
  split
  · exact h.writeGranted.scWrote
  · exact .ite trivial h.releaseAt.writeGranted.pinWrites.scWrote

theorem logged {c : Core} {o : MemOp} : SomeAll Canon (s.logged c o).1 ∧ Canon (s.logged c o).2 := by
  unfold State.logged
  split
  · split
    · exact h.logAdmit
    · exact ⟨h, h⟩
  · exact ⟨h, h⟩

theorem readModifyWrite {c : Core} {o : MemOp} {f : List Byte → Option (List Byte)} : PerfCanonical (s.readModifyWrite c o f) := by
  obtain ⟨admitted, noted⟩ : SomeAll Canon (s.logged c o).1 ∧ Canon (s.logged c o).2 := h.logged
  unfold State.readModifyWrite
  split
  · rename_i t e
    rw [e] at noted
    exact noted
  · rename_i t u e
    rw [e] at admitted
    have taken : OkAll (fun r => Canon r.1) (t.requestSpans (c.whoOf o) true o.spans) := Canon.requestSpans admitted
    split
    · exact h.enqueue
    · rename_i t2 rss e2
      have granted : Canon t2 := taken.of_eq e2
      have read := (granted.dequeue (a := (c.whoOf o).asker)).readGranted (ctx := c.view.ctx) (got := o.got) (a := 0) (a1 := o.spans)
        (a2 := rss)
      dsimp only
      split
      · exact read
      · split
        · exact read.releaseOf.scRead.modCore
        · split
          · exact h
          · rename_i e3
            have written := read.scRead.writeAs.of_eq e3
            exact written.modCore

theorem performLoad {c : Core} {o : MemOp} : PerfCanonical (s.performLoad c o) := by
  unfold State.performLoad
  refine .ite h ?_
  split
  · exact h.enqueue
  · rename_i e
    exact .ite (h.requestSpans.of_eq e).dequeue.readGranted (h.requestSpans.of_eq e).dequeue.readGranted.scRead.modCore

theorem performStore {c : Core} {o : MemOp} {data : List Byte} : PerfCanonical (s.performStore c o data) := by
  unfold State.performStore
  refine .ite h ?_
  split
  · exact h.enqueue
  · rename_i e
    split
    · exact h
    · rename_i e1
      exact ((h.requestSpans.of_eq e).dequeue.writeAs.of_eq e1).modCore

theorem perform {k uid : ℕ} : PerfCanonical (s.perform k uid) := by
  unfold State.perform
  split
  · dsimp only
    split
    · exact h
    · refine .ite h (.ite h ?_)
      split
      · exact h.performLoad
      · exact h.performStore
      · exact .ite (.ite h.modCore h) h.readModifyWrite
      · exact .ite h h.readModifyWrite
  · dsimp only
    split
    · exact h
    · refine .ite h (.ite h ?_)
      split
      · exact h.performLoad
      · exact h.performStore
      · exact .ite (.ite h.modCore h) h.readModifyWrite
      · exact .ite h.modCore h.readModifyWrite

theorem drainOps {k a : ℕ} {a1 : List ℕ} : Canon (s.drainOps k a a1).1 := by
  induction a generalizing s a1 with
  | zero => exact h
  | succ f ih =>
    cases a1 with
    | nil => exact h
    | cons u us =>
      have performed : PerfCanonical (s.perform k u) := h.perform
      unfold State.drainOps
      revert performed
      cases s.perform k u with
      | wait t => exact fun ht => ih ht
      | done t => exact fun ht => ih ht
      | dead t code val => exact fun ht => ht

theorem drainCore {k : ℕ} : Canon (s.drainCore k).1 := h.drainOps

/-! ### Ops: Taking a trap -/

theorem takeTrap {σ : StrandId} {cause detail : ℕ} {val : Word} : Canon (s.takeTrap σ cause detail val) :=
  .ite h.frame.trace h.fatalError

theorem trapStop {σ : StrandId} {cause detail : ℕ} {val : Word} : Canon (s.trapStop σ cause detail val) := by
  unfold State.trapStop
  dsimp only
  split
  · rename_i e
    exact (h.landCore.drainCore.fst_of_eq e).fatalError
  · rename_i e
    exact .ite (h.landCore.drainCore.fst_of_eq e).modStrand.takeTrap (h.landCore.drainCore.fst_of_eq e).modStrand

theorem watchStop {n : ℕ} {a : Word} : Canon (s.watchStop n a) := .ite h.trace.frame.haltCluster h.trace.trapStop

/-! ### Ops: Loop end tests -/

theorem applySteps {slots : List StepSlot} : Canon (s.applySteps slots) := h.foldl fun _ _ ht => ht.modStrand

theorem modLevel {σ : StrandId} {i : ℕ} {f : Loop → Loop} : Canon (s.modLevel σ i f) := h.modStrand

theorem loopTests {σ : StrandId} {unit : ℕ} {a : List ℕ} {a1 : Word} : Canon (s.loopTests σ unit a a1).1 := by
  induction a generalizing s a1 with
  | nil => exact h
  | cons i is ih =>
    unfold State.loopTests
    dsimp only
    split
    · exact h.modLevel.applySteps
    · exact ih h.modLevel.applySteps.modLevel

/-! ### Ops: Completion -/

theorem countIssue : Canon s.countIssue := .ite h.frame h

theorem landForIssue : Canon s.landForIssue := .ite h.landCore h

theorem advance {next : Word} : Canon (s.advance next) := h.loopTests.modMe.goto

theorem watchDone : Canon s.watchDone := h.frame

theorem complete {next : Word} : Canon (s.complete next) := .ite h.watchDone.countIssue.modMe h.watchDone.countIssue.advance

/-! ### Ops: Issue -/

theorem countOpen {i : Instr} : OkAll Canon (s.countOpen i) := by
  unfold State.countOpen
  split
  · exact h
  · exact .ite h (.ite trivial h.frame)

theorem slotChecked {i : Instr} {sem : Sem} (hsem : ∀ (a : State), Canon a → OkAll DoneCanonical (sem a)) :
    OkAll DoneCanonical (slotChecked i sem s) :=
  .step fun _ => .step fun _ => .bind h.countOpen fun _ ht => hsem _ ht

theorem checked {i : Instr} {sem : Sem} (hsem : ∀ (a : State), Canon a → OkAll DoneCanonical (sem a)) :
    OkAll DoneCanonical (checked i sem s) :=
  .bind (h.slotChecked (fun _ ht1 => hsem _ ht1)) fun _ ht => .step fun _ => ht

theorem stop {i : Instr} {a : Stop} : NextCanonical (s.stop i a) := by
  unfold State.stop
  split
  · exact h.modMe
  · exact h.trapStop
  · exact h.fatalError
  · exact h.watchStop

omit h in
/-- The way the word ends decides what else changes; memory and the stores it leaves are its own. -/
theorem done {d : Done} (hd : DoneCanonical d) : Canon (State.done d) := by
  cases d with
  | next s => exact Canon.complete hd
  | jump s a => exact Canon.complete hd
  | hold s code => exact Canon.modMe hd
  | raise s cause detail val =>
    have landed : Canon (s.landCore s.core.idx Core.landAll) := Canon.landCore hd
    unfold State.done
    dsimp only
    split
    · rename_i e
      exact (landed.drainCore.fst_of_eq e).fatalError
    · rename_i e
      have drained := landed.drainCore.fst_of_eq e
      exact .ite drained.complete.takeTrap drained.modMe
  | at_ s => exact hd

theorem issue {i : Instr} {sem : Sem} (hsem : ∀ (a : State), Canon a → OkAll DoneCanonical (sem a)) :
    NextCanonical (issue i sem s) := by
  unfold Machine.issue
  refine .ite (Canon.ite h h.advance) ?_
  dsimp only
  split
  · rename_i e
    exact Canon.done ((h.landForIssue.checked (fun _ ht => hsem _ ht)).of_eq e)
  · exact h.landForIssue.stop

/-! ### Ops: Marked words -/

theorem skip : Canon s.skip := .ite h h.advance

/-! ### Send: The rack ring -/

theorem rackSend {cw : Bool} {delay : ℕ} {fs : List Flit} : Canon (s.rackSend cw delay fs) := h.frame

/-! ### Send: End-to-end requests -/

theorem e2eEmit {e : E2eReq} : Canon (s.e2eEmit e) := .ite h.rackSend h

theorem e2eSend {dst : ℕ} {req : PeerReq} {agent : ℕ} {core : Option ℕ} {uid ctx : ℕ} : Canon (s.e2eSend dst req agent core uid ctx) :=
  h.frame.e2eEmit

/-! ### Send: Sync messages -/

theorem syncQueue {ws : List Word} : Canon (s.syncQueue ws) := h.frame

theorem queueBurst {b : Burst} {marker : List Word} : Canon (s.queueBurst b marker) := h.frame

theorem syncSc {op uid : ℕ} : Canon (s.syncSc op uid) := h.syncQueue

/-! ### Send: Group windows -/

theorem groupWrite {src ga : ℕ} {bs : List Byte} : SomeAll Canon (s.groupWrite src ga bs) := by
  unfold State.groupWrite
  split
  · exact h.count
  · split
    · trivial
    · rename_i e
      exact h.writeSpans.of_eq e

/-! ### Send: Posted window writes -/

theorem windowCount {g slot n : ℕ} : Canon (s.windowCount g slot n) := h.setFld

theorem windowSend {c : Core} {o : MemOp} : Canon (s.windowSend c o) := by
  unfold State.windowSend
  split
  · exact Canon.modCore (h.foldl_fst (fun _ _ ht => .ite ht.frame ht.e2eSend))
  · exact h

theorem windowPost {k : ℕ} {o : MemOp} {slot : ℕ} : Canon (s.windowPost k o slot) :=
  .ite h.windowCount.frame.modCore h.windowCount.frame.modCore.windowSend

/-! ### Send: Memory operations of strands -/

theorem peerTry {k uid : ℕ} : Canon (s.peerTry k uid) := by
  unfold State.peerTry
  dsimp only
  split
  · exact h
  · exact .ite h (Canon.modCore (.foldl_fst h.releaseOf (fun _ _ ht => .ite ht.e2eSend ht)))

theorem addOp {o : MemOp} : Canon (s.addOp o) := h.frame

theorem issueOp {ha : Word} {act : MemAct} {dest : Dest} {sig : Option ℕ} {ord scope : ℕ} :
    Canon (s.issueOp ha act dest sig ord scope) :=
  .ite (Canon.peerTry (.ite h.addOp.syncSc h.addOp)) (.ite h.addOp.syncSc h.addOp)

theorem signalAfter {sig : Option ℕ} : Canon (s.signalAfter sig) := by
  unfold State.signalAfter
  split
  · exact h
  · exact .ite h.addOp h.frame

theorem issueStore {ha : Word} {ss : List Span} {data : List Byte} {sig : Option ℕ} {ord scope : ℕ} :
    OkAll Canon (s.issueStore ha ss data sig ord scope) := by
  unfold State.issueStore
  split
  · exact h.issueOp
  · exact .ite trivial (Canon.signalAfter (.ite h.windowPost.syncSc h.windowPost))

/-! ### Operands: Sync field -/

theorem syncTake {y : BitVec 2} : OkAll (fun r => Canon r.1) (s.syncTake y) := by
  unfold State.syncTake
  split
  · exact .ite h trivial
  · exact .ite trivial (.ite trivial h.frame)

/-! ### Operands: Queues as L, S and K use them -/

theorem pushPending {code n uid : ℕ} : Canon (s.pushPending code n uid) := h.frame

theorem popLanded {code n : ℕ} : OkAll (fun r => Canon r.2) (s.popLanded code n) := .ite h.frame trivial

/-! ### Operands: Reads of an X word -/

omit h in
theorem value {x : XRead} (hx : Canon x.s) {code : ℕ} {e : FEntry} : Canon (x.value code e).2.s := by
  unfold XRead.value
  split
  · exact hx.drawEntry
  · exact hx

omit h in
theorem read {x : XRead} (hx : Canon x.s) {code : ℕ} {peek : Bool} : OkAll (fun r => Canon r.2.s) (x.read code peek) := by
  unfold XRead.read
  split
  · exact .ite trivial trivial
  · refine .ite trivial ?_
    cases peek with
    | true => exact value hx
    | false => exact (value hx).frame

omit h in
theorem operand {x : XRead} (hx : Canon x.s) {code w : ℕ} {peek : Bool} : OkAll (fun r => Canon r.2.s) (x.operand code w peek) := by
  unfold XRead.operand
  split
  · trivial
  · rename_i e y eq
    have left : Canon y.s := (read hx).of_eq eq
    exact left

omit h in
theorem mask {x : XRead} (hx : Canon x.s) {m : BitVec 3} : OkAll (fun r => Canon r.2.s) (x.mask m) := by
  unfold XRead.mask
  refine .ite hx ?_
  split
  · trivial
  · exact value hx

omit h in
theorem base {x : XRead} (hx : Canon x.s) {code : ℕ} : Canon (x.base code).2.s := by
  unfold XRead.base
  split
  · exact hx
  · split
    · exact hx
    · exact value hx

/-! ### Domains -/

theorem setDomain {d : Domain} : Canon (s.setDomain d) := h.frame

theorem imbalance {d : Domain} {lastMod t : ℕ} : Canon (s.imbalance d lastMod t) := .ite h (.ite h.count h.put)

theorem departSaved {t : Task} {level : ℕ} : Canon (s.departSaved t level) := by
  unfold State.departSaved
  split
  · exact h.writeWordAt
  · exact h

theorem mapTasks {f : Task → Task} : Canon (s.mapTasks f) := h.frame

theorem departDomain {d : Domain} {lastMod t : ℕ} : Canon (s.departDomain d lastMod t) := by
  unfold State.departDomain
  refine Canon.setDomain (Canon.mapTasks (Canon.foldl h.imbalance fun t task ht => ?_))
  split
  · exact ht.modCore
  · exact ht.departSaved

theorem openGroup {ctx id : ℕ} : Canon (s.openGroup ctx id) := by
  unfold State.openGroup
  split
  · exact h
  · exact h.frame

theorem sendArrival {d : Domain} : Canon (s.sendArrival d) := h.syncQueue

theorem domainFull {d : Domain} : Canon (s.domainFull d) := .ite h.sendArrival h.departDomain

theorem arriveDomain {d : Domain} : Canon (s.arriveDomain d) := .ite h.mapTasks.setDomain.domainFull h.mapTasks.setDomain

theorem leaveDomains {t : Task} : Canon (s.leaveDomains t) := by
  unfold State.leaveDomains
  refine h.foldl fun u p hu => ?_
  dsimp only
  split
  · exact hu
  · split
    · exact hu
    · exact .ite hu.frame (.ite hu.setDomain.domainFull hu.setDomain)

theorem groupArrival {src detail t : ℕ} : Canon (s.groupArrival src detail t).2 := by
  unfold State.groupArrival
  dsimp only
  split
  · exact .ite_snd (.ite h h.openGroup) (.ite_snd (Canon.departDomain (.ite h h.openGroup)) (Canon.setDomain (.ite h h.openGroup)))
  · exact .ite h h.openGroup

/-! ### Arith: Shared forms -/

theorem alu2 {f : Word → Word → Word} {rd ra rb : BitVec 5} : OkAll DoneCanonical (alu2 f rd ra rb s) := .step fun _ => h.setG

theorem alu1 {f : Word → Word} {rd ra : BitVec 5} : OkAll DoneCanonical (alu1 f rd ra s) := .step fun _ => h.setG

theorem divOp {op : ℕ} {rd ra rb : BitVec 5} : OkAll DoneCanonical (divOp op rd ra rb s) := .step fun _ => .ite trivial h.setG

/-! ### Control: Branches and jumps -/

theorem branch {t : Word} : OkAll DoneCanonical (s.branch t) := .step fun _ => h

theorem branchIf {f : Word → Word → Bool} {ra rb : BitVec 5} {off : BitVec 15} : OkAll DoneCanonical (branchIf f ra rb off s) :=
  .step fun _ => .ite h.branch h

theorem semJal {off : BitVec 25} : OkAll DoneCanonical (semJal off s) := .step fun _ => .step fun _ => h.setG

theorem semJr {ra : BitVec 5} : OkAll DoneCanonical (semJr ra s) := .step fun _ => .step fun _ => h

/-! ### Control: Windowed calls -/

theorem spillGo {a : ℕ} : OkAll Canon (spillGo a s) := by
  induction a generalizing s with
  | zero => exact h
  | succ f ih =>
    unfold Machine.spillGo
    exact .ite h (.step fun _ => .step fun _ => .bind h.issueStore fun _ ht => ih ht.modMe)

theorem fillKeys {ha : Word} {ss : List Span} {a : ℕ} {a1 : List ℕ} : Canon (fillKeys ha ss a a1 s) := by
  induction a1 generalizing s a with
  | nil => exact h
  | cons k ks ih => exact ih h.issueOp

theorem fillGo {a : ℕ} : OkAll Canon (fillGo a s) := by
  induction a generalizing s with
  | zero => exact h
  | succ f ih =>
    unfold Machine.fillGo
    exact .ite h (.step fun _ => ih h.countZeros.modMe.fillKeys)

theorem call {fc : ℕ} {t : Word} : OkAll DoneCanonical (s.call fc t) :=
  .step fun _ => .bind h.modMe.spillGo fun _ ht => .step fun _ => ht.setG.modMe

theorem semCallr {ra : BitVec 5} {fc : BitVec 2} : OkAll DoneCanonical (semCallr ra fc s) := .step fun _ => .step fun _ => h.call

theorem semRet : OkAll DoneCanonical (semRet s) := .step fun _ => .step fun _ => .bind h.modMe.fillGo fun _ ht => ht

/-! ### Control: The hold buffer: see Agate.lean. Fences and events -/

theorem semNop : OkAll DoneCanonical (semNop s) := h

theorem fenceBegin {scope ord : ℕ} : Canon (s.fenceBegin scope ord) := .ite h (.ite h.addOp.syncSc h.frame.modMe)

theorem fenceRelease {scope ord : ℕ} : Canon (s.fenceRelease scope ord) := .ite h.widenPins.modMe h

theorem semFence {scope ord : BitVec 3} : OkAll DoneCanonical (semFence scope ord s) :=
  .step fun _ => .ite (.ite (Canon.modMe (Canon.fenceRelease (Canon.ite h.fenceBegin h)))
    (Canon.fenceRelease (Canon.ite h.fenceBegin h))) (Canon.ite h.fenceBegin h)

theorem semWfe {rd : BitVec 5} : OkAll DoneCanonical (semWfe rd s) := .step fun _ => .step fun _ => h.setG.modMe

/-! ### Control: Tokens -/

theorem semTsig {p : BitVec 4} : OkAll DoneCanonical (semTsig p s) := .step fun _ => .step fun _ => h.frame.signalAfter

theorem semTwait {p : BitVec 4} : OkAll DoneCanonical (semTwait p s) := .step fun _ => .step fun _ => h.frame

theorem semTtry {rd : BitVec 5} {p : BitVec 4} : OkAll DoneCanonical (semTtry rd p s) :=
  .step fun _ => .step fun _ => .ite h.setG h.frame.setG

/-! ### Control: Condition-code sync bits -/

theorem semCcset {cc : BitVec 4} : OkAll DoneCanonical (semCcset cc s) := .step fun _ => h.frame

theorem semCcclr {cc : BitVec 4} : OkAll DoneCanonical (semCcclr cc s) := h.frame

theorem semCcwait {cc : BitVec 4} : OkAll DoneCanonical (semCcwait cc s) := .step fun _ => h

/-! ### Control: Arrival of a core -/

theorem coreArrival {level : ℕ} : Canon (s.coreArrival level) := by
  unfold State.coreArrival
  refine .ite h (.ite h.frame ?_)
  dsimp only
  split
  · exact h.widenPins.arriveDomain
  · exact h.widenPins

theorem parkArrival : Canon s.parkArrival := h.foldl fun _ _ ht => ht.coreArrival

theorem semJoin {cc : BitVec 4} : OkAll DoneCanonical (semJoin cc s) :=
  .step fun _ => .ite (.step fun _ => .step fun _ => .step fun _ => h.loopTests.frame)
    (.ite (Canon.parkArrival (Canon.modMe (Canon.loopTests (Canon.countIssue (Canon.frame (Canon.ite h.landCore h))))))
      (Canon.ite h.landCore h))

/-! ### Control: Named barriers -/

theorem barArrive {m : BitVec 4} {b : BitVec 8} : OkAll Canon (s.barArrive m b) :=
  .step fun _ => .step fun _ => .step fun _ => .step fun _ => h.frame

theorem semBararr {m : BitVec 4} {b : BitVec 8} : OkAll DoneCanonical (semBararr m b s) := .bind h.barArrive fun _ ht => ht

theorem semBarwait {b : BitVec 8} : OkAll DoneCanonical (semBarwait b s) := .ite h h

theorem semBarsync {m : BitVec 4} {b : BitVec 8} : OkAll DoneCanonical (semBarsync m b s) := by
  unfold Machine.semBarsync
  split
  · refine .bind h.barArrive fun t ht => ?_
    exact .ite ht ht
  · refine .bind (P := Canon) h fun t ht => ?_
    exact .ite ht ht

/-! ### Control: Domain synchronisation -/

theorem dsyncArrive {level : ℕ} : Canon (s.dsyncArrive level) := h.modMe.coreArrival

theorem semDsync {lv : BitVec 3} : OkAll DoneCanonical (semDsync lv s) := by
  unfold Machine.semDsync
  refine .step fun _ => .step fun _ => ?_
  dsimp only
  split
  · refine .step fun _ => .step fun _ => .step fun _ => .bind (P := Canon) h.dsyncArrive fun t ht => ?_
    exact .ite ht ht
  · refine .bind (P := Canon) h fun t ht => ?_
    exact .ite ht ht

/-! ### Control: Fork -/

theorem semFork {rd ra rb : BitVec 5} : OkAll DoneCanonical (semFork rd ra rb s) :=
  .step fun _ => .step fun _ => .step fun _ => .step fun _ => .step fun _ => .step fun _ => .step fun _ => .step fun _ =>
    h.loopTests.frame

/-! ### Loops -/

theorem startLoop {k : ℕ} {count : Word} {len : ℕ} : OkAll DoneCanonical (s.startLoop k count len) :=
  .step fun _ => .step fun _ => .step fun _ => .step fun _ => .ite h.modLevel h.modLevel.modLevel

theorem semLoop {k ra : BitVec 5} {len : BitVec 8} : OkAll DoneCanonical (semLoop k ra len s) := .step fun _ => h.startLoop

theorem semLstep {rd ra : BitVec 5} {k : BitVec 3} {j : BitVec 2} : OkAll DoneCanonical (semLstep rd ra k j s) :=
  .step fun _ => .step fun _ => .ite trivial h.modLevel

theorem markCheck {n : BitVec 5} {k : BitVec 3} : OkAll DoneCanonical (markCheck n k s) := by
  unfold Machine.markCheck
  refine .step fun a1 => ?_
  split
  · trivial
  · exact .step fun _ => h

theorem semLbreak {k : BitVec 3} : OkAll DoneCanonical (semLbreak k s) := .step fun _ => h.foldl fun _ _ ht => ht.modLevel

/-! ### Control regs -/

theorem writeCrn {r : Crn} {v : Word} : Canon (s.writeCrn r v) := by
  unfold State.writeCrn
  split
  · exact h.frame
  · exact h.frame
  · exact h.frame
  · exact h.frame
  · exact h.frame
  · exact h.frame
  · exact h.modMe
  · exact h.setFld
  · exact h.frame
  · exact h.frame
  · exact h.frame
  · exact h.frame
  · exact h.frame
  · exact h.modLevel
  · exact h.modLevel
  · exact h.modLevel
  · exact h
  · exact h
  · exact h
  · exact h
  · exact h

theorem semMfc {rd : BitVec 5} {crn : BitVec 8} : OkAll DoneCanonical (semMfc rd crn s) := by
  unfold Machine.semMfc
  split
  · trivial
  · exact .step fun _ => .step fun _ => h.setG

theorem semMtc {ra : BitVec 5} {crn : BitVec 8} : OkAll DoneCanonical (semMtc ra crn s) := by
  unfold Machine.semMtc
  split
  · trivial
  · exact .step fun _ => .step fun _ => .step fun _ => .step fun _ => .ite trivial h.writeCrn

theorem semMfcXq {rd : BitVec 5} : OkAll DoneCanonical (semMfcXq rd s) := by
  unfold Machine.semMfcXq
  refine .step fun a1 => .step fun a2 => ?_
  split
  · trivial
  · rename_i e
    exact (h.popLanded.of_eq e).setG

theorem semMtcQ3 {ra : BitVec 5} : OkAll DoneCanonical (semMtcQ3 ra s) := .step fun _ => .step fun _ => .step fun _ => h.frame

/-! ### Vector: Issue of an X word -/

omit h in
theorem readAll {x : XRead} (hx : Canon x.s) {rs : List (ℕ × Bool × ℕ)} : OkAll (fun r => Canon r.2.s) (readAll x rs) := by
  induction rs generalizing x with
  | nil => exact hx
  | cons r rs ih =>
    unfold Machine.readAll
    split
    · trivial
    · rename_i e y eq
      have left : Canon y.s := (operand hx).of_eq eq
      split
      · trivial
      · rename_i es z eq
        have rest : Canon z.s := (ih left).of_eq eq
        exact rest

theorem hazardTrace {hs : List (ℕ × ℕ)} : Canon (s.hazardTrace hs) := h.foldl fun _ _ ht => ht.trace

theorem vqPush : Canon s.vqPush := h.frame

theorem flightPush {code due : ℕ} {es : List Entry} {flags : ℕ} {sig : Bool} : Canon (s.flightPush code due es flags sig) :=
  h.frame.vqPush

theorem xrun {o : XOp} {p : XPlan} {f : XFun} : OkAll DoneCanonical (xrun o p f s) := by
  have based {x : XRead} (hx : Canon x.s) : Canon (if (p.merge && o.m != 0) = true then
      if o.ma = 0 then x.base p.vd else (x.s.drawEntry.1, { s := x.s.drawEntry.2, hazards := x.hazards }) else (0, x)).2.s := by
    split
    · split
      · exact base hx
      · exact hx.drawEntry
    · exact hx
  unfold Machine.xrun
  refine .step fun _ => .step fun _ => .bind h.syncTake fun r hr => ?_
  dsimp only
  split <;> refine .step fun _ => .step fun _ => ?_ <;> split
  case isTrue.isTrue | isFalse.isTrue =>
    exact .bind (mask hr) fun x hx => .bind (readAll (based hx)) fun y hy => hy.hazardTrace.flightPush
  case isTrue.isFalse | isFalse.isFalse =>
    exact .bind (P := fun q : Entry × XRead => Canon q.2.s) hr fun x hx => .bind (readAll (based hx)) fun y hy =>
      hy.hazardTrace.flightPush

/-! ### Vector: Forms -/

theorem typed {ok : BitVec 3 → Bool} {o : XOp} {p : XPlan} {f : XFun} : OkAll DoneCanonical (typed ok o p f s) := .step fun _ => h.xrun

/-! ### Vector: Compare, select and masks -/

theorem semVcmp {o : XOp} : OkAll DoneCanonical (semVcmp o s) := by
  unfold Machine.semVcmp
  exact h.typed

theorem semVsel {o : XOp} : OkAll DoneCanonical (semVsel o s) := .step fun _ => h.xrun

theorem maskLogic {o : XOp} {p : XPlan} {f : Bool → Bool → Bool} : OkAll DoneCanonical (maskLogic o p f s) := by
  unfold Machine.maskLogic
  exact h.xrun

theorem semViota {o : XOp} : OkAll DoneCanonical (semViota o s) := h.typed

/-! ### Vector: Conversions -/

theorem narrowing {o : XOp} {ws wd : ℕ} {f : ℕ → Bool → ℕ → FRes} : OkAll DoneCanonical (narrowing o ws wd f s) := .step fun _ => h.xrun

theorem widening {o : XOp} {ws wd : ℕ} {f : ℕ → Bool → ℕ → FRes} : OkAll DoneCanonical (widening o ws wd f s) := .step fun _ => h.xrun

theorem semVcvt {o : XOp} : OkAll DoneCanonical (semVcvt o s) := by
  unfold Machine.semVcvt
  split
  · trivial
  · exact .step fun _ => .ite h.widening h.narrowing

theorem semVpack {o : XOp} : OkAll DoneCanonical (semVpack o s) := .step fun _ => h.narrowing

theorem semVunpk {o : XOp} : OkAll DoneCanonical (semVunpk o s) := .step fun _ => h.widening

theorem semVzp {o : XOp} : OkAll DoneCanonical (semVzp o s) := by
  unfold Machine.semVzp
  split
  · trivial
  · exact h.xrun

/-! ### Vector: Reductions -/

theorem reduction {op : ℕ} {o : XOp} : OkAll DoneCanonical (reduction op o s) := .step fun _ => h.xrun

/-! ### Vector: Moves, permutes and clearing -/

theorem moveLanes {o : XOp} {p : XPlan} {f : Entry → Entry → ℕ → ℤ} : OkAll DoneCanonical (moveLanes o p f s) := by
  unfold Machine.moveLanes
  exact h.xrun

theorem semVclr {o : XOp} : OkAll DoneCanonical (semVclr o s) :=
  .step fun _ => .bind h.syncTake fun _ ht => .ite (.step fun _ => ht.frame.flightPush) (.step fun _ => ht.frame.flightPush)

theorem semVxtr {o : XOp} : OkAll DoneCanonical (semVxtr o s) := by
  unfold Machine.semVxtr
  exact h.xrun

/-! ### Vector: Integer and bitwise arithmetic -/

theorem intWord {o : XOp} {lat : ℕ} {f : ℕ → ℕ → ℕ → ℕ} : OkAll DoneCanonical (intWord o lat f s) := h.typed

theorem bitWord {o : XOp} {f : ℕ → ℕ → ℕ} : OkAll DoneCanonical (bitWord o f s) := h.xrun

/-! ### Engines: Updating jobs -/

theorem putJob {j : Job} : Canon (s.putJob j) := h.frame

theorem dropJob {j : Job} : Canon (s.dropJob j) := h.frame

theorem endJob {j : Job} {status : ℕ} : Canon (s.endJob j status) := h.putJob.syncRings

/-! ### Engines: Memory of engines -/

theorem engWait {j : Job} {a : EngWait} : Canon (s.engWait j a) := by
  unfold State.engWait
  split
  · exact h.enqueue
  · exact h
  · exact h.foldl fun _ _ ht => .ite ht ht.e2eSend

theorem pauseEng {j : Job} {sub : ℕ} : Canon (s.pauseEng j sub) := h.putJob

theorem holdEng {j : Job} : Canon (s.holdEng j) := h.putJob

theorem holdFor {j : Job} {w : EngWait} : Canon (s.holdFor j w) := h.engWait.holdEng

theorem jobUsed {j : Job} : Canon (s.jobUsed j) := .ite h h.putJob

theorem engRead {j : Job} {a : Word} {ss : List Span} : EngCanonical (s.engRead j a ss) := by
  unfold State.engRead
  refine .ite trivial (.ite h ?_)
  split
  · trivial
  · rename_i e
    exact .ite (h.requestSpans.of_eq e).dequeue.readGranted (h.requestSpans.of_eq e).dequeue.readGranted.countZerosOf

theorem engLoad {j : Job} {a : Word} {n : ℕ} : EngCanonical (s.engLoad j a n) := by
  unfold State.engLoad
  split
  · exact h.engRead
  · exact h

theorem jobWin {j : Job} : Canon (s.jobWin j) := h.putJob

theorem engPeers {j : Job} {a : List Span} {a1 : List Byte} : Canon (s.engPeers j a a1) := by
  induction a generalizing s a1 with
  | nil => exact h
  | cons p ps ih =>
    unfold State.engPeers
    exact ih (.ite h.e2eSend.jobWin h)

theorem engWrite {j : Job} {a : Word} {ss : List Span} {bs : List Byte} : EngCanonical (s.engWrite j a ss bs) := by
  unfold State.engWrite
  split
  · exact .ite trivial h.windowPost.jobWin
  · refine .ite h ?_
    split
    · trivial
    · rename_i e
      exact (h.writeSpans.of_eq e).engPeers

theorem jobBytes {j : Job} {n : ℕ} : Canon (s.jobBytes j n) := h.putJob

theorem engStore {j : Job} {a : Word} {bs : List Byte} : EngCanonical (s.engStore j a bs) := by
  unfold State.engStore
  dsimp only
  split
  · rename_i e
    split <;> exact (h.engWrite.of_ok e).jobBytes
  · exact h.engWrite

/-! ### Engines: Moves of the copy engine -/

theorem freeWhereWritten {written ss : List Span} {bs : List Byte} : Canon (s.freeWhereWritten written ss bs).1 := by
  unfold State.freeWhereWritten
  split
  · exact h.drawBytes (n := bs.length)
  · exact h

theorem engMove {j : Job} {written : List Span} {m : Move} : EngCanonical (s.engMove j written m) := by
  unfold State.engMove
  split
  · exact h.engStore
  · dsimp only
    split
    · rename_i e
      split
      · rename_i e2
        split <;> exact ((h.engRead.of_ok e).freeWhereWritten.engWrite.of_ok e2).jobBytes.jobUsed
      · exact (h.engRead.of_ok e).freeWhereWritten.engWrite
    · rename_i e
      exact h.engRead.of_stop e
    · trivial
    · rename_i e
      exact h.engRead.of_dead e

theorem engMoves {j : Job} {written : List Span} {done : ℕ} {a : List Move} : EngCanonical (s.engMoves j written done a) := by
  induction a generalizing s done with
  | nil => exact h
  | cons m ms ih =>
    unfold State.engMoves
    split
    · rename_i e
      exact ih (h.engMove.of_ok e)
    · exact h.engWait
    · rename_i e
      exact h.engMove.of_stop e
    · rename_i e
      exact h.engMove.of_dead e

/-! ### Engines: Arbitration -/

theorem ringPop {g n : ℕ} : Canon (s.ringPop g n) := h.setFld

theorem ringTail {g n k : ℕ} : Canon (s.ringTail g n k) := h.setFld

theorem retireCmd {j : Job} : Canon (s.retireCmd j) := by
  unfold State.retireCmd
  split
  · exact .ite h (.ite h.ringTail.putJob.syncRings (Canon.syncRings (Canon.putJob (h.foldl (fun _ _ ht => ht.ringPop)))))
  · exact h

theorem settle {g : ℕ} : Canon (s.settle g) := h.foldl fun _ _ ht => ht.retireCmd

theorem engDead {j : Job} {v : Word} : Canon (s.engDead j v) := h.fatalError

theorem engStart {j : Job} {d : ℕ} {f : Job → Job} : Canon (s.engStart j d f) := h.putJob

/-! ### Engines: Matrix commands -/

theorem accOf {j : Job} {a : ℕ} : Canon (s.accOf j a).2 := by
  unfold State.accOf
  split
  · exact h
  · exact h.drawBytes (n := 65536)

theorem runProduct {j : Job} {r : List Word} : Canon (s.runProduct j r) := by
  unfold State.runProduct
  split
  · exact h
  · exact h.accOf.engStart

theorem execMma {clu job : ℕ} : NextCanonical (execMma clu job s) := by
  unfold Machine.execMma
  dsimp only
  split
  · exact h.settle.runProduct
  · exact h.settle

theorem execMdist {clu job : ℕ} : NextCanonical (execMdist clu job s) := by
  unfold Machine.execMdist
  dsimp only
  split
  · exact h.settle.runProduct
  · exact h.settle

theorem execMzero {clu job : ℕ} : NextCanonical (execMzero clu job s) := by
  unfold Machine.execMzero
  dsimp only
  split
  · exact h.settle.engStart
  · exact h.settle

theorem loadRows {j : Job} {r : List Word} {a a1 : ℕ} {a2 : List FRes} : EngCanonical (s.loadRows j r a a1 a2) := by
  induction a generalizing s a1 a2 with
  | zero => exact h
  | succ n ih =>
    unfold State.loadRows
    dsimp only
    split
    · rename_i e
      exact ih (h.engLoad.of_ok e)
    · rename_i e
      exact h.engLoad.of_stop e
    · trivial
    · rename_i e
      exact h.engLoad.of_dead e

theorem execMload {clu job : ℕ} : NextCanonical (execMload clu job s) := by
  unfold Machine.execMload
  dsimp only
  split
  · exact h.settle
  · split
    · rename_i e
      exact (h.settle.loadRows.of_ok e).engStart
    · rename_i e
      exact (h.settle.loadRows.of_stop e).endJob
    · exact h.settle.holdFor
    · rename_i e
      exact (h.settle.loadRows.of_dead e).engDead

theorem jobFlags {j : Job} {fl : ℕ} : Canon (s.jobFlags j fl) := h.putJob

theorem moveRun {j : Job} {ms : List Move} {lim d : ℕ} : NextCanonical (s.moveRun j ms lim d) := by
  unfold State.moveRun
  split
  · rename_i e
    exact .ite (h.engMoves.of_ok e).engStart (h.engMoves.of_ok e).pauseEng
  · rename_i e
    exact (h.engMoves.of_stop e).endJob
  · exact h.holdFor
  · rename_i e
    exact (h.engMoves.of_dead e).engDead

theorem matrixStore {j : Job} {r : List Word} {addr : ℕ → Word} {rows : List (List Byte)} {fl : ℕ} :
    NextCanonical (s.matrixStore j r addr rows fl) :=
  h.jobFlags.putJob.moveRun

theorem execMout {clu job : ℕ} : NextCanonical (execMout clu job s) := by
  unfold Machine.execMout
  dsimp only
  split
  · exact h.settle
  · split
    · exact h.settle
    · exact h.settle.matrixStore
    · exact h.settle.accOf.matrixStore

theorem topRow {j : Job} {r : List Word} {acc : List (BitVec 32)} {i : ℕ} : EngCanonical (s.topRow j r acc i) := by
  unfold State.topRow
  refine .ite ?_ h
  split
  · rename_i e
    exact (h.engLoad.of_ok e).jobUsed
  · rename_i e
    exact h.engLoad.of_stop e
  · trivial
  · rename_i e
    exact h.engLoad.of_dead e

theorem topRun {j : Job} {r : List Word} {acc : List (BitVec 32)} {a : ℕ} {a1 : List (List Byte)} :
    NextCanonical (s.topRun j r acc a a1) := by
  induction a generalizing s a1 with
  | zero => exact h
  | succ f ih =>
    unfold State.topRun
    dsimp only
    split
    · rename_i e
      have moved := h.engMoves.of_ok e
      refine .ite moved.putJob.holdEng (.ite moved.putJob.engStart ?_)
      split
      · rename_i e
        exact ih (moved.putJob.topRow.of_ok e)
      · rename_i e
        exact (moved.putJob.topRow.of_stop e).endJob
      · exact moved.putJob.holdFor
      · rename_i e
        exact (moved.putJob.topRow.of_dead e).engDead
    · rename_i e
      exact (h.engMoves.of_stop e).endJob
    · exact h.holdFor
    · rename_i e
      exact (h.engMoves.of_dead e).engDead

theorem execMtopk {clu job : ℕ} : NextCanonical (execMtopk clu job s) := by
  unfold Machine.execMtopk
  dsimp only
  split
  · exact h.settle
  · exact h.settle.accOf.putJob.topRun

/-! ### Engines: Copy commands -/

theorem execCpy {clu job : ℕ} : NextCanonical (execCpy clu job s) := by
  unfold Machine.execCpy
  dsimp only
  split
  · exact h.settle.moveRun
  · exact h.settle

theorem execCfill {clu job : ℕ} : NextCanonical (execCfill clu job s) := by
  unfold Machine.execCfill
  dsimp only
  split
  · exact h.settle.moveRun
  · exact h.settle

theorem indexRows {j : Job} {r : List Word} {gather : Bool} {a a1 a2 a3 : ℕ} {a4 : Option (List Byte)} :
    EngCanonical (s.indexRows j r gather a a1 a2 a3 a4) := by
  induction a generalizing s a1 a2 a3 a4 with
  | zero => exact h
  | succ f ih =>
    unfold State.indexRows
    dsimp only
    split
    · exact h.putJob
    · have index {w : ℕ} : EngCanonical (match a4 with
          | some bs => Eng.ok s bs
          | none => s.engLoad j (recWord r 3 + BitVec.ofNat 64 (w * a1)) w) := by
        cases a4 with
        | some bs => exact h
        | none => exact h.engLoad
      split
      · rename_i e
        have read := index.of_ok e
        split
        · rename_i e
          have moved := read.jobUsed.engMoves.of_ok e
          exact .ite (ih moved) moved.putJob
        · rename_i e
          exact read.jobUsed.engMoves.of_stop e
        · exact h.engWait.putJob
        · rename_i e
          exact read.jobUsed.engMoves.of_dead e
      · rename_i e
        exact index.of_stop e
      · exact h.engWait.putJob
      · rename_i e
        exact index.of_dead e

theorem indexRun {j : Job} {r : List Word} {gather : Bool} : NextCanonical (s.indexRun j r gather) := by
  unfold State.indexRun
  dsimp only
  split
  · rename_i e
    exact (h.indexRows.of_ok e).engStart
  · rename_i e
    exact (h.indexRows.of_ok e).pauseEng
  · rename_i e
    exact (h.indexRows.of_stop e).endJob
  · exact h.holdFor
  · rename_i e
    exact (h.indexRows.of_dead e).engDead

theorem execCgath {clu job : ℕ} : NextCanonical (execCgath clu job s) := by
  unfold Machine.execCgath
  dsimp only
  split
  · exact h.settle.indexRun
  · exact h.settle

theorem execCscat {clu job : ℕ} : NextCanonical (execCscat clu job s) := by
  unfold Machine.execCscat
  dsimp only
  split
  · exact h.settle.indexRun
  · exact h.settle

theorem ringFill {j : Job} {at_ : ℕ} {a : Word} {n : ℕ} : EngCanonical (s.ringFill j at_ a n) := by
  unfold State.ringFill
  dsimp only
  split
  · rename_i e
    split <;> exact (h.engRead.of_ok e).putStore.jobBytes.jobUsed
  · rename_i e
    exact h.engRead.of_stop e
  · trivial
  · rename_i e
    exact h.engRead.of_dead e

theorem ringRun {j : Job} {at_ : ℕ} {a : Word} {ts a1 a2 : ℕ} : EngCanonical (s.ringRun j at_ a ts a1 a2) := by
  induction a1 generalizing s a2 with
  | zero => exact h
  | succ f ih =>
    unfold State.ringRun
    split
    · exact h
    · split
      · rename_i e
        exact ih (h.ringFill.of_ok e)
      · rename_i e
        exact h.ringFill.of_stop e
      · exact h.engWait
      · rename_i e
        exact h.ringFill.of_dead e

theorem execCring {clu job : ℕ} : NextCanonical (execCring clu job s) := by
  unfold Machine.execCring
  dsimp only
  split
  · exact h.settle
  · split
    · exact h.settle.endJob
    · split
      · rename_i e2
        exact .ite (h.settle.ringRun.of_ok e2).engStart (h.settle.ringRun.of_ok e2).pauseEng
      · rename_i e2
        exact (h.settle.ringRun.of_stop e2).endJob
      · exact h.settle.holdFor
      · rename_i e2
        exact (h.settle.ringRun.of_dead e2).engDead

/-! ### Engines: Retirement, misses and completion -/

theorem execCommandRetire {clu job : ℕ} : NextCanonical (execCommandRetire clu job s) := by
  unfold Machine.execCommandRetire
  split
  · exact h
  · exact h.retireCmd

theorem execStampMiss {clu job : ℕ} : NextCanonical (execStampMiss clu job s) := by
  unfold Machine.execStampMiss
  dsimp only
  split
  · exact h.settle
  · refine .ite h.settle ?_
    split
    · exact h.settle
    · exact h.settle.endJob
    · exact .ite h.settle.endJob (.ite h.settle.endJob h.settle)

theorem jobFinish {j : Job} : Canon (s.jobFinish j) := .ite h.trace.dropJob h.trace.putJob

theorem execJobComplete {clu job : ℕ} : NextCanonical (execJobComplete clu job s) := by
  unfold Machine.execJobComplete
  split
  · exact h
  · exact .ite h (.ite h.jobFinish h.putJob)

theorem execJobTokenPush {clu job : ℕ} : NextCanonical (execJobTokenPush clu job s) := by
  unfold Machine.execJobTokenPush
  split
  · exact h
  · exact .ite h (.ite h.jobFinish (.ite h h.modCore.jobFinish))

theorem execXResultLand {n : ℕ} : NextCanonical (execXResultLand n s) := h.landCore

/-! ### Engines: The vector unit -/

theorem execVectorBind {clu free : ℕ} : NextCanonical (execVectorBind clu free s) := h.frame

/-! ### Engines: Memory responses -/

omit h in
theorem perfOutcome {p : Perf} (hp : PerfCanonical p) {k : ℕ} {σ : StrandId} : NextCanonical (perfOutcome k σ p) := by
  cases p with
  | wait s => exact hp
  | done s => exact hp
  | dead s code v => exact Canon.fatalError hp

theorem execReadResponse {uid : ℕ} {_data : List Byte} : NextCanonical (execReadResponse uid _data s) := by
  unfold Machine.execReadResponse
  split
  · exact h
  · exact .ite h.peerTry (Canon.perfOutcome h.perform)

theorem execWriteCompletion {uid : ℕ} : NextCanonical (execWriteCompletion uid s) := by
  unfold Machine.execWriteCompletion
  split
  · exact h
  · exact .ite (.ite h h.releaseOf.windowSend) (.ite h.peerTry (Canon.perfOutcome h.perform))

/-! ### Launch: Lookups -/

theorem modTask {id : ℕ} {f : Task → Task} : Canon (s.modTask id f) := h.mapTasks

theorem modLm {f : Lm → Lm} : Canon (s.modLm f) := h.frame

/-! ### Launch: The choice -/

theorem chooseClass {free : ℕ → Bool} {cls k : ℕ} : SomeAll (fun r => Canon r.1) (s.chooseClass free cls k) := by
  have chosen {t : State} (ht : Canon t) {f : ℕ → Option (List (ℕ × ℕ))} {x : Option ℕ} :
      SomeAll (fun r => Canon r.1) (x.bind fun c => (f c).map fun g => (t, c, g)) := by
    cases x with
    | none => trivial
    | some c =>
      show SomeAll _ ((f c).map fun g => (t, c, g))
      cases f c with
      | none => trivial
      | some g => exact ht
  unfold State.chooseClass
  exact .ite trivial (.ite (chosen h) (chosen (.ite h h.modLm)))

theorem charge {c cls n : ℕ} : Canon (s.charge c cls n) := h.modLm

theorem choose {free : ℕ → Bool} {k : ℕ} : SomeAll (fun r => Canon r.1) (s.choose free k) := by
  unfold State.choose
  split
  · rename_i e
    exact (h.chooseClass.of_eq e).charge
  · exact .map h.chooseClass fun _ ht => ht.charge

theorem countNortn {k top : ℕ} : Canon (s.countNortn k top) := h.foldl fun _ _ ht => ht.count

/-! ### Launch: Domain ids -/

theorem joinDomain {t : Task} {desc : List Word} {level : ℕ} : Canon (s.joinDomain t desc level) := by
  unfold State.joinDomain
  refine .ite h ?_
  split
  · exact h.modTask
  · exact h.modLm.modTask

theorem joinGroup {t : Task} {desc : List Word} : Canon (s.joinGroup t desc) := .ite h h.openGroup.modTask

/-! ### Launch: Placement -/

theorem assign {p : ℕ × ℕ} : Canon (s.assign p) := by
  unfold State.assign
  split
  · exact h
  · refine .ite h.modLm.modTask (Canon.joinGroup (Canon.joinDomain (Canon.joinDomain (Canon.joinDomain ?_))))
    split
    · exact h.modLm.modTask.modLm
    · exact h.modLm.modTask

/-! ### Launch: Preload -/

theorem discardPreload {k : ℕ} : Canon (s.discardPreload k) := by
  unfold State.discardPreload
  split
  · exact h
  · exact h.modLm.count

theorem execPreload {k : ℕ} : NextCanonical (execPreload k s) := by
  unfold Machine.execPreload
  refine .ite h ?_
  split
  · rename_i e
    split
    · exact .ite h (h.choose.of_eq e).modLm
    · exact h
  · exact h

theorem recheckPreloads : Canon s.recheckPreloads := by
  unfold State.recheckPreloads
  refine h.foldl fun t p ht => ?_
  split
  · exact ht
  · exact .ite ht ht.discardPreload

theorem reoffer : Canon s.reoffer := h.modLm

theorem noteOffered {k : ℕ} : Canon (s.noteOffered k) := h.modLm

theorem offerVain {k : ℕ} : Canon (s.offerVain k) := .ite h h.countNortn.noteOffered

theorem execPlacementDecision {k : ℕ} : NextCanonical (execPlacementDecision k s) := by
  unfold Machine.execPlacementDecision
  refine .ite h.recheckPreloads ?_
  split
  · exact .ite (Canon.ite h.recheckPreloads h.recheckPreloads.count.noteOffered) h.recheckPreloads.modLm.assign
  · split
    · exact h.recheckPreloads.offerVain
    · rename_i e
      exact Canon.foldl (h.recheckPreloads.choose.of_eq e).countNortn fun _ _ ht => ht.assign

/-! ### Launch: Task start -/

theorem loadArray {k : ℕ} {t : Task} : OkAll Canon (s.loadArray k t) := by
  unfold State.loadArray
  split
  · trivial
  · split
    · trivial
    · exact h.modCore

theorem startOn {k : ℕ} {t : Task} {desc : List Word} {index count lid : ℕ} : Canon (s.startOn k t desc index count lid) := by
  unfold State.startOn
  dsimp only
  split
  · rename_i e
    exact h.setCore.frame.loadArray.of_eq e
  · exact h.setCore.frame.fatalError

theorem startTask {t : Task} {k : ℕ} : Canon (s.startTask t k) := h.startOn

theorem execTaskStart {t : ℕ} : NextCanonical (execTaskStart t s) := by
  unfold Machine.execTaskStart
  split
  · exact h
  · split
    · exact h
    · exact .ite h.startTask h

/-! ### Launch: Saves -/

theorem saveSlice {k a : ℕ} : Canon (s.saveSlice k a) := by
  have touched {b n : ℕ} : Canon ((s.hubTouch 130 b n).wrote b n) := h.hubTouch.wrote
  unfold State.saveSlice
  exact .ite ⟨wf_copyCells _ _ _ touched.1 _, touched.2⟩ h.writeMem

theorem loadSlice {k a : ℕ} : Canon (s.loadSlice k a) := ⟨h.1, wf_copyCells _ _ _ h.2 _⟩

theorem execContextSave {k why : ℕ} : NextCanonical (execContextSave k why s) := by
  unfold Machine.execContextSave
  refine .ite h ?_
  split
  · exact h.landCore.modCore.modTask
  · exact h.landCore.modCore

theorem requeue {t : Task} {why k : ℕ} : Canon (s.requeue t why k) := by
  unfold State.requeue
  split
  · dsimp only
    split
    · exact Canon.modLm (.ite h.modTask.modLm.count h.modTask.modLm)
    · exact h.modTask.modLm
  · exact .ite (Canon.modLm h.modTask) h.modTask
  · exact Canon.modLm h.modTask

theorem execSaveComplete {k : ℕ} : NextCanonical (execSaveComplete k s) := by
  unfold Machine.execSaveComplete
  split
  · exact h
  · refine .ite h ?_
    split
    · exact h
    · exact h.endPins.writeMem.saveSlice.frame.modTask.trace.modCore.requeue.superDeliver

/-! ### Launch: Resumption -/

theorem resumeTask {t : Task} {k r : ℕ} : Canon (s.resumeTask t k r) := by
  unfold State.resumeTask
  dsimp only
  split
  · exact h.loadSlice.setCore.frame.fatalError
  · rename_i e
    exact (h.loadSlice.setCore.frame.loadArray.of_eq e).modCore.modTask.trace

theorem execTaskResume {t : ℕ} : NextCanonical (execTaskResume t s) := by
  unfold Machine.execTaskResume
  split
  · exact h
  · split
    · exact .ite h.resumeTask h
    · exact h

/-! ### Launch: Vacating and budgets -/

theorem execVacate {t : ℕ} : NextCanonical (execVacate t s) := by
  unfold Machine.execVacate
  split
  · exact h
  · refine .ite h ?_
    split
    · exact h
    · exact (Canon.ite h h.discardPreload).modLm.modCore

theorem execBudgetOverrun {k : ℕ} : NextCanonical (execBudgetOverrun k s) := by
  unfold Machine.execBudgetOverrun
  split
  · exact h
  · exact .ite h h.modCore.count

/-! ### Launch: Rerun -/

theorem withdraw {t : Task} : Canon (s.withdraw t) := by
  unfold State.withdraw
  refine Canon.modTask (h.foldl fun u a hu => ?_)
  split
  · exact hu.setDomain
  · exact hu

theorem forgetRecords {t : Task} : Canon (s.forgetRecords t) := h.frame

theorem rerun {k : ℕ} {t : Task} : Canon (s.rerun k t) := by
  unfold State.rerun
  exact h.endPins.withdraw.forgetRecords.frame.frame.modTask.discardPreload.count.modCore

/-! ### Launch: Launch queues -/

theorem execLqTailUpdate {c q : ℕ} : NextCanonical (execLqTailUpdate c q s) := .ite h (.ite h.setFld.setFld.modLm h.modLm)

theorem acceptLaunch {c q lid : ℕ} {desc : List Word} : Canon (s.acceptLaunch c q lid desc) := h.modLm

theorem execLaunchTake {c q : ℕ} : NextCanonical (execLaunchTake c q s) := by
  unfold Machine.execLaunchTake
  refine .ite h ?_
  dsimp only
  split
  · exact h.writeWordAt.setReg
  · exact h.writeWordAt.acceptLaunch

/-! ### Launch: Pager tasks -/

theorem execPagerTaskPlace {k : ℕ} : NextCanonical (execPagerTaskPlace k s) :=
  .ite h (.ite h.modLm h.modLm.startOn.modCore.superDeliver)

theorem execPagerdescWrite {v : Word} : NextCanonical (execPagerdescWrite v s) := h.writeReg.modLm

/-! ### Job words: JCMD -/

theorem semJcmd {ra rb : BitVec 5} {eng : BitVec 2} {two : BitVec 1} : OkAll DoneCanonical (semJcmd ra rb eng two s) := by
  unfold Machine.semJcmd
  split
  · trivial
  · exact .step fun _ => .step fun _ => .step fun _ => .step fun _ => .step fun _ => .step fun _ => h.frame

/-! ### Job words: JEND -/

theorem acceptJob {o : OpenJob} {tok : ℕ} : Canon (s.acceptJob o tok).1 := h.frame.syncRings

theorem semJend {rd : BitVec 5} {tok : BitVec 2} : OkAll DoneCanonical (semJend rd tok s) := by
  unfold Machine.semJend
  split
  · trivial
  · exact .step fun _ => .step fun _ => .step fun _ => .step fun _ => h.widenPins.acceptJob.setG

/-! ### Job words: Retirement -/

theorem trapWith {cause detail : ℕ} {val : Word} {f : State → State} (hf : ∀ (a : State), Canon a → Canon (f a)) :
    OkAll DoneCanonical (s.trapWith cause detail val f) := by
  unfold State.trapWith
  dsimp only
  split
  · trivial
  · rename_i e
    exact .ite (Canon.takeTrap (Canon.modMe (hf _ (h.landCore.drainCore.fst_of_eq e)))) (h.landCore.drainCore.fst_of_eq e).modMe

theorem finishWait {rd : BitVec 5} {stat : BitVec 1} {w : Word} {retire : State → State}
    (hretire : ∀ (a : State), Canon a → Canon (retire a)) : OkAll DoneCanonical (s.finishWait rd stat w retire) := by
  unfold State.finishWait
  refine .ite (.ite ?_ (h.trapWith (fun _ ht => hretire _ ht))) (Canon.setG (hretire _ h))
  split
  · exact Canon.rerun (hretire _ h)
  · exact h

theorem retireHeld {e : ℕ} {w : Word} : Canon (State.retireHeld e w s) := h.modTask

theorem semJwait {rd ra : BitVec 5} {stat : BitVec 1} : OkAll DoneCanonical (semJwait rd ra stat s) := by
  unfold Machine.semJwait
  refine .step fun a1 => .step fun a2 => ?_
  split
  · exact h.finishWait fun _ ht => ht.retireHeld
  · split
    · trivial
    · exact .step fun _ => h.finishWait fun _ ht => ht.dropJob

theorem semJpoll {rd ra : BitVec 5} : OkAll DoneCanonical (semJpoll rd ra s) := by
  unfold Machine.semJpoll
  refine .step fun a1 => .step fun a2 => ?_
  split
  · exact h.setG
  · split
    · trivial
    · exact h.setG

theorem semJpop {rd : BitVec 5} {eng : BitVec 2} {stat : BitVec 1} : OkAll DoneCanonical (semJpop rd eng stat s) := by
  unfold Machine.semJpop
  split
  · trivial
  · refine .step fun a1 => ?_
    split
    · exact h.finishWait fun _ ht => ht.retireHeld
    · refine .step fun a2 => ?_
      split
      · trivial
      · exact h.finishWait fun _ ht => ht.dropJob

/-! ### Job words: Rings -/

theorem semRingdef {n ra : BitVec 5} : OkAll DoneCanonical (semRingdef n ra s) :=
  .step fun _ => .step fun _ => .step fun _ => .ite trivial h.setReg.setReg

theorem semRingadv {n : BitVec 5} {cnt : BitVec 7} : OkAll DoneCanonical (semRingadv n cnt s) := by
  unfold Machine.semRingadv
  refine .step fun a1 => ?_
  split
  · trivial
  · exact .step fun _ => .step fun _ => h.widenPins.ringTail

theorem semRingst {rd : BitVec 5} {n : BitVec 4} {sel : BitVec 1} : OkAll DoneCanonical (semRingst rd n sel s) := .step fun _ => h.setG

/-! ### Coh events: The split of the cluster store -/

theorem execCssplitWrite {clu : ℕ} {v : Word} : NextCanonical (execCssplitWrite clu v s) := h.writeReg.setFld

theorem dropL1Where {g : ℕ} {sel : ℕ → Bool} : Canon (s.dropL1Where g sel) := h.modCoh

theorem dropL1 {g : ℕ} : Canon (s.dropL1 g) := h.dropL1Where

theorem dropRings {g : ℕ} : Canon (s.dropRings g) := h.foldl fun _ _ ht => .ite ht.setFld ht

theorem execCssplitChange {clu : ℕ} : NextCanonical (execCssplitChange clu s) := by
  have dropped : Canon (s.dropL1 clu) := h.dropL1
  have cut {p : Host.Cell → Bool} {cs : List (ℕ × Cluster)} :
      Canon { s.dropL1 clu with store := (s.dropL1 clu).store.filter p, clusters := cs } := ⟨dropped.1, wf_filter _ dropped.2⟩
  unfold Machine.execCssplitChange
  exact .ite h cut.dropRings.setFld

/-! ### Coh events: MSC windows -/

theorem execMscWindowEnable {stack n : ℕ} {v : Word} : NextCanonical (execMscWindowEnable stack n v s) :=
  .ite h.setFld (.ite h.writeReg.setFld.setFld.setFld h.setFld.setFld)

theorem mscRepin {st : ℕ} : Canon (s.mscRepin st) := h.modCoh

theorem execMscWindowDisable {stack n : ℕ} {v : Word} : NextCanonical (execMscWindowDisable stack n v s) :=
  Canon.mscRepin (Canon.setFld (.ite h.setFld.setFld h.writeReg))

theorem mscFetch {st line : ℕ} : Canon (s.mscFetch st line) := by
  unfold State.mscFetch
  split
  · exact h.modCoh
  · exact h.mscPin.modCoh

theorem execMscWindowFill {stack n : ℕ} : NextCanonical (execMscWindowFill stack n s) := .ite (h.foldl (fun _ _ ht => ht.mscFetch)) h

theorem fadeWindow {st n : ℕ} : Canon (s.fadeWindow st n) :=
  .ite h (.ite h.setFld (.ite h.setFld.setFld.setFld.setFld.mscRepin.superEvent h.setFld))

theorem execMscFadeBoundary {stack : ℕ} : NextCanonical (execMscFadeBoundary stack s) :=
  .ite h (Canon.modCoh (h.foldl (fun _ _ ht => ht.fadeWindow)))

/-! ### Coh events: Home agents -/

theorem uncachedRun {w : Who} {pol : ℕ} {write : Bool} {a a1 a2 : ℕ} : OkAll Canon (s.uncachedRun w pol write a a1 a2) := by
  induction a generalizing s a1 a2 with
  | zero => exact h
  | succ f ih =>
    unfold State.uncachedRun
    split
    · exact h
    · dsimp only
      split
      · trivial
      · rename_i e
        exact ih (h.uncached.of_eq e)

theorem takeWriteback {q : HomeReq} : Canon (s.takeWriteback q) := .ite h (Canon.writeBack (.ite h.writeCopy h))

theorem homePerform {q : HomeReq} : OkAll Canon (s.homePerform q) := by
  unfold State.homePerform
  split
  · trivial
  · refine .ite trivial ?_
    split
    · exact h.forwarded.uncached
    · exact h.forwarded.uncached
    · exact h.forwarded.uncached
    · exact .map h.forwarded.uncachedRun fun _ ht => ht.writeRaw
    · exact h.forwarded
  · split
    · exact h.cached
    · exact h.cached
    · exact h.uncached
    · exact .map h.uncachedRun fun _ ht => ht.writeRaw
    · exact .ite trivial h.takeWriteback

theorem homeTake {q : HomeReq} : Canon (s.homeTake q) := by
  unfold State.homeTake
  split
  · rename_i e
    exact (h.homePerform.of_eq e).dequeue.modCoh
  · exact .ite h.enqueue.modCoh (.ite h h.modCoh)

theorem execHomeAgentRequest {q : HomeReq} : NextCanonical (execHomeAgentRequest q s) := .ite h.homeTake h

/-! ### Coh events: Probes -/

theorem probeArrives {p : Probe} : Canon (s.probeArrives p) :=
  .ite h.modCoh (Canon.modCoh (Canon.probeAgent (h.foldl (fun _ _ ht => ht.flushUnit))))

theorem execPrbs {p : Probe} : NextCanonical (execPrbs p s) := h.probeArrives

theorem execPrbx {p : Probe} : NextCanonical (execPrbx p s) := h.probeArrives

theorem execPrbsys {p : Probe} : NextCanonical (execPrbsys p s) := h.probeArrives

theorem answerTaken {p : Probe} {a : Answer} : Canon (s.answerTaken p a) := by
  unfold State.answerTaken
  split
  · exact h.modCoh
  · exact h.dirAnswer

theorem execProbeResponse {p : Probe} {a : Answer} : NextCanonical (execProbeResponse p a s) := .ite h.modCoh.answerTaken h

theorem execNotheld {p : Probe} : NextCanonical (execNotheld p s) := by
  unfold Machine.execNotheld
  split
  · exact h.modCoh.answerTaken
  · exact h

theorem execPinRetry {p : Probe} : NextCanonical (execPinRetry p s) := .ite h h.modCoh.probeArrives

/-! ### Coh events: Hot pages -/

theorem propose {t : Track} : Canon (s.propose t) := .ite h.count (.ite h (.ite h.count h.put.migEvent))

theorem execHptEpochEnd : NextCanonical (execHptEpochEnd s) :=
  .ite h (Canon.ite (Canon.foldl h.modCoh (fun _ _ ht => ht.propose)) h.modCoh)

/-! ### Coh events: Migration -/

theorem recallFree {sl : ℕ} {discard : Bool} : Canon (s.recallFree sl discard) := by
  unfold State.recallFree
  split
  · exact h
  · exact h.foldl fun _ _ ht => .ite ht (ht.foldl (fun _ _ ht1 => .ite ht1.recallUnit.dirAnswer ht1))

theorem recallRange {base size : ℕ} {discard : Bool} : Canon (s.recallRange base size discard) := h.foldl fun _ _ ht => ht.recallFree

theorem modMig {old : ℕ} {f : Mig → Mig} : Canon (s.modMig old f) := h.modCoh

theorem recallNew {m : Mig} : Canon (s.recallNew m) := .ite h h.recallRange.modMig

theorem execMigSubmit {v : Word} : NextCanonical (execMigSubmit v s) :=
  .ite h.writeReg (.ite h.writeReg.setFld h.writeReg.setFld.modCoh.recallNew)

theorem moveLine {a b : ℕ} : Canon (s.moveLine a b) := by
  have noted : Canon (s.wrote b 2048) := h.wrote
  exact ⟨wf_copyCells _ _ _ noted.1 _, noted.2⟩

theorem execMigLineCopy {old line : ℕ} : NextCanonical (execMigLineCopy old line s) := by
  unfold Machine.execMigLineCopy
  split
  · exact h
  · exact .ite h (Canon.modMig (.ite h.recallRange h.recallRange.recallRange.moveLine.mscTouch.mscTouch))

theorem execMigComplete {old : ℕ} : NextCanonical (execMigComplete old s) := by
  unfold Machine.execMigComplete
  split
  · exact h
  · exact .ite h h.modCoh

theorem execMigCompletionRecord : NextCanonical (execMigCompletionRecord s) := by
  unfold Machine.execMigCompletionRecord
  split
  · exact h
  · exact .ite h h.put.modCoh.migEvent

theorem execMigRelease {v : Word} : NextCanonical (execMigRelease v s) := .ite h.writeReg.modCoh h.writeReg

/-! ### Fabric -/

theorem modFab {f : Fabric → Fabric} : Canon (s.modFab f) := h.frame

/-! ### Fabric: The package ring -/

theorem insertFlit {f : Flit} : SomeAll Canon (s.insertFlit f) := by
  unfold State.insertFlit
  dsimp only
  cases State.freeLane _ _ _ with
  | none => trivial
  | some l => exact h.modFab

theorem goesOn {f : Flit} {back : Bool} : Canon (s.goesOn f back) := by
  unfold State.goesOn
  refine .ite h.rackSend ?_
  split <;> exact h.modFab

theorem enterRing {f : Flit} : Canon (s.enterRing f) := Canon.getD h.insertFlit h.modFab

theorem takeFlit {f : Flit} : Canon (s.takeFlit f) := .ite h.modFab.enterRing h.modFab

theorem execRingFirstFlit {f : Flit} {room : Bool} : NextCanonical (execRingFirstFlit f room s) :=
  .ite (Canon.ite h.takeFlit h.goesOn) (.ite h.modFab.takeFlit (.ite (Canon.goesOn (Canon.ite h.modFab h)) h.goesOn))

theorem execRingFlitReturn {f : Flit} : NextCanonical (execRingFlitReturn f s) := h.modFab.count

theorem reinsert {rack : Bool} {src tag : ℕ} : Canon (s.reinsert rack src tag) := by
  unfold State.reinsert
  split
  · exact h
  · rename_i r _
    have sent : SomeAll Canon (if rack then some
      (s.rackSend (s.goesCw s.modid r.flit.dmod) 0 [{ r.flit with cw := s.goesCw s.modid r.flit.dmod }])
        else s.insertFlit r.flit) := .ite (.intro h.rackSend) h.insertFlit
    split
    · exact h
    · rename_i e
      exact (sent.of_eq e).modFab

theorem execRingReinsert {src tag : ℕ} : NextCanonical (execRingReinsert src tag s) := h.reinsert

/-! ### Fabric: The rack ring -/

theorem forwardFlit {f : Flit} {cw : Bool} : Canon (s.forwardFlit f cw) := .ite h.takeFlit h.rackSend

theorem execRackForward {f : Flit} {cw : Bool} : NextCanonical (execRackForward f cw s) := h.forwardFlit

theorem execRackReinsert {src tag : ℕ} : NextCanonical (execRackReinsert src tag s) := h.reinsert

theorem enterWaiting : Canon s.enterWaiting := by
  unfold State.enterWaiting
  split
  · exact h
  · split
    · rename_i e
      exact (h.insertFlit.of_eq e).modFab
    · exact h

omit h in
theorem ringSlotDue {r : RingSlot} : SomeAll DueKeeps (RingSlot.due s r) :=
  .ite (.intro fun _ ht => ht.execRingFlitReturn) (.ite (.intro fun _ ht => ht.execRingFirstFlit) trivial)

/-! ### Fabric: Peer frames -/

theorem peerRefuse {other a : ℕ} : Canon (s.peerRefuse other a) := h.count.ras0

theorem peerModify {ctx pa n : ℕ} {f : List Byte → Option (List Byte)} : SomeAll (fun r => Canon r.1) (s.peerModify ctx pa n f) := by
  unfold State.peerModify
  dsimp only
  split
  · trivial
  · rename_i e
    refine .ite (h.requestSpans.of_eq e).readGranted ?_
    split
    · exact (h.requestSpans.of_eq e).readGranted
    · exact (h.requestSpans.of_eq e).readGranted.writeGranted

theorem peerPerform {src : ℕ} {p : PeerReq} : SomeAll (fun r => Canon r.1) (s.peerPerform src p) := by
  unfold State.peerPerform
  dsimp only
  split
  case h_1 | h_2 | h_3 => exact h
  case h_4 =>
    generalize (if rangeOk (peerPhys p.addr) (peerLen p.kind) ∧ region (peerPhys p.addr) ≤ 1 ∧ p.addr / 2 ^ 40 % 8 ≤ 1 then
      s.peerAdmits src (peerPhys p.addr) (peerLen p.kind) (peerWrites p.kind) else none) = admitted
    cases admitted with
    | none => exact .intro h.peerRefuse
    | some c =>
      dsimp only
      split
      · split
        · trivial
        · rename_i e
          exact .intro (h.writeSpans.of_eq e)
      · exact h.peerModify
      · exact h.peerModify.map fun _ hr => hr
      · split
        · trivial
        · rename_i t _ _ e
          have read : Canon t := h.readSpans.of_eq e
          exact .intro read

theorem answerPeer {dst kind sq : ℕ} {a : PeerAnswer} : Canon (s.answerPeer dst kind sq a) := h.rackSend

theorem putE2eSrc {e : E2eSrc} : Canon (s.putE2eSrc e) := h.modFab

theorem keepResult {src sq : ℕ} {p : PeerReq} {a : PeerAnswer} : Canon (s.keepResult src sq p a) := by
  unfold State.keepResult
  split
  · exact h.putE2eSrc
  · exact h

theorem execPeerAccess {src : ℕ} {p : PeerReq} : NextCanonical (execPeerAccess src p s) := by
  unfold Machine.execPeerAccess
  split
  · exact h
  · rename_i e
    split
    · exact (h.peerPerform.of_eq e).answerPeer
    · exact (h.peerPerform.of_eq e).modFab.keepResult.answerPeer

/-! ### Fabric: Optical links -/

theorem putLane {l : Lane} : Canon (s.putLane l) := h.modFab.setFld.setFld.setFld

theorem laneOut {l : Lane} {bs : List Byte} : Canon (s.laneOut l bs) := h.putLane.emit

theorem control {lg kind n : ℕ} {mask : BitVec 16} : Canon (s.control lg kind n mask) := h.laneOut

theorem laneAcked {lg n : ℕ} : Canon (s.laneAcked lg n) := h.putLane

theorem takeWaiting {u : ℕ} {f : Flit} : Canon (s.takeWaiting u f) := by
  unfold State.takeWaiting
  split
  · exact h.modFab
  · exact h

theorem execLinkSend {lg : ℕ} {f : Flit} : NextCanonical (execLinkSend lg f s) := by
  unfold Machine.execLinkSend
  dsimp only
  split
  · exact .ite h h.takeWaiting.putLane.laneOut
  · split
    · exact h.putLane
    · exact h.putLane.laneOut
  · exact h

theorem sendNak {l : Lane} : Canon (s.sendNak l) := h.putLane.control

theorem deliverFlit {l : Lane} {f : Flit} : Canon (s.deliverFlit l f) := Canon.forwardFlit (.ite h.putLane.control h.putLane)

theorem execLinkNak {lg n : ℕ} : NextCanonical (execLinkNak lg n s) := by
  unfold Machine.execLinkNak
  dsimp only
  split
  · exact h.putLane
  · exact h.putLane
  · exact h

theorem execLinkAck {lg n : ℕ} : NextCanonical (execLinkAck lg n s) := h.laneAcked

theorem receiveData {lg : ℕ} {x : LinkFlit} {room : Bool} : Canon (s.receiveData lg x room) := by
  unfold State.receiveData
  dsimp only
  split
  · exact .ite h.deliverFlit (.ite h.putLane.control h.sendNak)
  · exact .ite h.deliverFlit h
  · exact h

theorem execLinkAckTimer {lg : ℕ} : NextCanonical (execLinkAckTimer lg s) := .ite h h.putLane.control

theorem retrainLane {l : Lane} : Canon (s.retrainLane l) := Canon.putLane (.ite h.interrupt h)

theorem execLinkNakTimer {lg : ℕ} : NextCanonical (execLinkNakTimer lg s) :=
  .ite h (.ite h.count.control.retrainLane h.count.control.putLane)

theorem linkRecord {type lg elsu : ℕ} {old new : BitVec 16} {seen first count : ℕ} :
    Canon (s.linkRecord type lg elsu old new seen first count) :=
  h.rasAt

theorem reroutFlits : Canon s.reroutFlits := .ite h h.modFab

theorem laneDown {l : Lane} : Canon (s.laneDown l) := h.putLane.linkRecord.modFab.reroutFlits

theorem train {l : Lane} : Canon (s.train l) := h.laneOut

theorem execLossOfLight {lg : ℕ} {mask : BitVec 16} : NextCanonical (execLossOfLight lg mask s) :=
  .ite h (.ite h.control.laneDown h.control.putLane)

theorem execLinkTrainingLocked {lock : LinkLock} : NextCanonical (execLinkTrainingLocked lock s) := .ite h.putLane.linkRecord h

theorem svcreq {reason pos : ℕ} : Canon (s.svcreq reason pos) := h.setReg.ras0

theorem planeFault {p e : ℕ} : Canon (s.planeFault p e) := h.frame.setFld.svcreq

theorem execElsuFault {lg e : ℕ} : NextCanonical (execElsuFault lg e s) :=
  .ite (Canon.ite h.planeFault h) (.ite h (.ite h.setFld.svcreq.laneDown h.setFld.svcreq.train))

theorem tryReplay {l : Lane} : Canon (s.tryReplay l) := by
  unfold State.tryReplay
  split
  · exact h.putLane.linkRecord
  · exact h.putLane

theorem execLinkNotice {lg n : ℕ} {mask : BitVec 16} : NextCanonical (execLinkNotice lg n mask s) :=
  .ite h (.ite h.laneDown (.ite h.tryReplay h.train))

theorem execLinkDataFlit {lg : ℕ} {body : List Byte} {crc : Word} {room : Bool} :
    NextCanonical (execLinkDataFlit lg body crc room s) := by
  unfold Machine.execLinkDataFlit
  refine .ite h.receiveData ?_
  split
  · exact h.laneAcked.receiveData
  · exact h.execLinkAck
  · exact h.execLinkNak
  · exact h.execLinkNotice
  · exact h

theorem execLinkTrainingDone {lg : ℕ} : NextCanonical (execLinkTrainingDone lg s) := .ite h.tryReplay h

theorem execLinkRetrainResult {lg : ℕ} {trained : LinkTrained} : NextCanonical (execLinkRetrainResult lg trained s) :=
  .ite h (.ite h.putLane.linkRecord h.linkRecord.laneDown)

/-! ### Fabric: Remote windows -/

theorem winRef {g : ℕ} : Canon (s.winRef g) := h.count

theorem windowAnswer {w : WinWrite} {refused : Bool} : Canon (s.windowAnswer w refused) := .ite h.modFab h.answerPeer

theorem windowPerform {a : ℕ} : Canon (s.windowPerform a) := by
  induction a generalizing s with
  | zero => exact h
  | succ f ih =>
    unfold State.windowPerform
    split
    · exact h
    · exact ih (Canon.ite h.putStore.scMark h.winRef).modFab.windowAnswer

theorem execWindowWriteArrival {w : WinWrite} : NextCanonical (execWindowWriteArrival w s) := .ite h (.ite h h.modFab.windowPerform)

theorem jobWrote {seq : ℕ} : Canon (s.jobWrote seq) := h.frame

theorem windowDone {k : ℕ} {o : MemOp} {i : ℕ} : Canon (s.windowDone k o i) := by
  unfold State.windowDone
  refine .ite h.windowCount.modCore ?_
  split
  · split
    · exact h.windowCount.modCore.jobWrote
    · exact h.windowCount.modCore
  · split
    · exact h.windowCount.modCore.jobWrote
    · exact h.windowCount.modCore

theorem execWindowAck {clu slot seq : ℕ} {refused : Bool} : NextCanonical (execWindowAck clu slot seq refused s) := by
  unfold Machine.execWindowAck
  split
  · exact h
  · refine .ite ?_ (Canon.windowDone (.ite h.modFab.winRef h.modFab))
    split
    · exact h
    · exact Canon.windowDone (.ite h.modFab.winRef h.modFab)

/-! ### Agate -/

theorem modAg {f : Agate → Agate} : Canon (s.modAg f) := h.frame

/-! ### Agate: Messages between routers -/

theorem agMsg {rt kind : ℕ} {m : AgMsg} {mark : ℕ} : Canon (s.agMsg rt kind m mark) := h.modAg

theorem agTake {rt kind : ℕ} {m : AgMsg} {mark : ℕ} : Canon (s.agTake rt kind m mark) := h.modAg

theorem agLater {rt kind : ℕ} {m : AgMsg} {mark : ℕ} : Canon (s.agLater rt kind m mark) := .ite h.modAg h

theorem agSend {dst kind : ℕ} {m : AgMsg} : Canon (s.agSend dst kind m) := h.e2eSend

theorem agFrom {src kind : ℕ} {m : AgMsg} : Canon (s.agFrom src kind m) := h.agMsg

theorem agRack {cw : Bool} {kind : ℕ} {m : AgMsg} : Canon (s.agRack cw kind m) := by
  unfold State.agRack
  split
  · exact h.agSend
  · exact h

theorem agDown {rt kind : ℕ} {m : AgMsg} {mark : ℕ} : Canon (s.agDown rt kind m mark) :=
  .ite h.agMsg (.ite h.agMsg (.ite h.agRack (.ite h.agRack (.ite h.agMsg h))))

/-! ### Agate: The name routing table -/

theorem agUp {rt kind : ℕ} {m : AgMsg} : Canon (s.agUp rt kind m).1 := by
  unfold State.agUp
  split
  · exact h
  · exact .ite_fst (.ite_fst h (.ite_fst h.agMsg h)) (.ite_fst h.agRack h.agMsg)

/-! ### Agate: Pending-interest entries -/

theorem putPend {p : Pend} : Canon (s.putPend p) := h.modAg

theorem dropPend {p : Pend} : Canon (s.dropPend p) := h.modAg

/-! ### Agate: Tile stores -/

theorem dropTile {t : Tile} : Canon (s.dropTile t) := h.modAg

theorem makeRoom {rt n a : ℕ} : SomeAll Canon (s.makeRoom rt n a) := by
  induction a generalizing s with
  | zero => trivial
  | succ f ih =>
    unfold State.makeRoom
    dsimp only
    split
    · exact h
    · split
      · exact ih h.dropTile
      · trivial

theorem trimKey {rt key : ℕ} : Canon (s.trimKey rt key) := by
  unfold State.trimKey
  refine .ite h ?_
  split
  · exact h.dropTile
  · exact h

theorem insertTile {rt name size : ℕ} {data : List Byte} {prod : Bool} : Canon (s.insertTile rt name size data prod) := by
  unfold State.insertTile
  refine .ite (.ite h.modAg h) ?_
  split
  · exact h
  · rename_i e
    exact (h.makeRoom.of_eq e).modAg.trimKey

theorem sendTile {rt : ℕ} {m : AgMsg} {mark : ℕ} : Canon (s.sendTile rt m mark) := .ite h.agMsg (h.foldl (fun _ _ ht => ht.agDown))

/-! ### Agate: Interests -/

theorem agRefuse {rt : ℕ} {m : AgMsg} : Canon (s.agRefuse rt m) := .ite (.ite h.agMsg h) (.ite (.ite h.agRack h.agMsg) h)

theorem agInterest {rt : ℕ} {m : AgMsg} {mark : ℕ} : SomeAll Canon (s.agInterest rt m mark) := by
  unfold State.agInterest
  refine .ite h.count.agRefuse (.ite h.count ?_)
  split
  · exact h.modAg.count.sendTile
  · split
    · exact .ite h.count.putPend.agUp h.count.putPend
    · exact .ite trivial (Canon.ite h.agUp.modAg.interrupt.emit h.agUp.modAg)

theorem execAgateInterest {rt : ℕ} {m : AgMsg} {down : ℕ} : NextCanonical (execAgateInterest rt m down s) := by
  unfold Machine.execAgateInterest
  split
  · rename_i e
    exact Canon.agTake (.ite h (h.agInterest.of_eq e))
  · exact h.count.agLater

theorem execAgateRefresh {rt : ℕ} {m : AgMsg} {down : ℕ} : NextCanonical (execAgateRefresh rt m down s) := by
  unfold Machine.execAgateRefresh
  split
  · exact .ite h.agLater (.ite h.agTake.putPend.agUp h.agTake)
  · split
    · rename_i e
      exact Canon.agTake (.ite h (h.agInterest.of_eq e))
    · exact h.count.agLater

theorem leavePend {p : Pend} : Canon (s.leavePend p) := .ite (.ite h.dropPend.agUp h.dropPend) h.putPend

theorem execAgateCancel {rt : ℕ} {m : AgMsg} {down : ℕ} : NextCanonical (execAgateCancel rt m down s) := by
  unfold Machine.execAgateCancel
  refine .ite h.agLater ?_
  dsimp only
  split
  · exact h.agTake.leavePend
  · exact h.agTake

theorem execAgateRefusal {rt : ℕ} {m : AgMsg} : NextCanonical (execAgateRefusal rt m s) :=
  .ite h.agLater (.ite h.agTake h.agTake.agRefuse)

theorem execAgateEntryExpiry {rt n : ℕ} : NextCanonical (execAgateEntryExpiry rt n s) := by
  unfold Machine.execAgateEntryExpiry
  split
  · exact .ite h.dropPend h
  · exact h

theorem reroute {rt : ℕ} : Canon (s.reroute rt) := h.foldl fun _ _ ht => .ite ht ht.agUp.putPend

theorem execRoutingEntryWrite {rt n : ℕ} {w0 w1 : Word} : NextCanonical (execRoutingEntryWrite rt n w0 w1 s) :=
  .ite h h.writeReg.writeReg.reroute

/-! ### Agate: Announcements -/

theorem announce {rt name : ℕ} : Canon (s.announce rt name) := by
  unfold State.announce
  dsimp only
  split
  · exact h.modAg
  · exact Canon.modAg (.ite h h.modAg.count)

theorem learn {rt : ℕ} {m : AgMsg} : Canon (s.learn rt m) := by
  unfold State.learn
  refine .ite h ?_
  split
  · exact h
  · exact h.setReg.setReg.reroute

theorem execAgateAnnouncement {rt : ℕ} {m : AgMsg} : NextCanonical (execAgateAnnouncement rt m s) :=
  .ite h.agLater (.ite h.agTake (.ite h.agTake.announce.learn
    (.ite (.foldl h.agTake.announce.learn (fun _ _ ht => ht.agSend)) (.foldl h.agTake.announce.learn (fun _ _ ht => ht.agMsg)))))

/-! ### Agate: Delivery -/

theorem setSlot {c : Cons} {st : SlotState} {w : Word} : Canon (s.setSlot c st w) := by
  unfold State.setSlot
  split
  · exact h.modCore
  · exact h.mapTasks
  · exact h

theorem putCons {c : Cons} : Canon (s.putCons c) := h.modAg

theorem dropCons {c : Cons} : Canon (s.dropCons c) := h.modAg

theorem expireCons {c : Cons} : Canon (s.expireCons c) := h.setSlot.dropCons.modAg.count

theorem execAgateRecordExpiry {n : ℕ} : NextCanonical (execAgateRecordExpiry n s) := by
  unfold Machine.execAgateRecordExpiry
  split
  · exact .ite h.expireCons h
  · exact h

theorem arrive {c : Cons} {m : AgMsg} : Canon (s.arrive c m) := Canon.putCons (Canon.setSlot (.ite h.count64 h))

theorem deliverTile {rt : ℕ} {m : AgMsg} {mark : ℕ} : Canon (s.deliverTile rt m mark) := by
  unfold State.deliverTile
  split
  · dsimp only
    split
    · exact h.agTake
    · refine .ite (Canon.agTake (.ite h.count h)) ?_
      split
      · exact h
      · exact .ite h.agTake (.ite h h.arrive.agTake)
  · dsimp only
    split
    · exact h.agTake
    · refine .ite (Canon.agTake (.ite h.count h)) ?_
      split
      · exact h
      · refine .ite h.agTake (.ite h.expireCons.agTake ?_)
        split
        · exact h
        · rename_i e2
          exact .ite (h.writeSpans.of_eq e2).arrive.agTake
            (Canon.agMsg (Canon.agTake (.foldl (h.writeSpans.of_eq e2) (fun _ _ ht => ht.e2eSend))))

/-! ### Agate: Tiles at routers -/

theorem planeTile {m : AgMsg} : Canon (s.planeTile m) := .foldl h.modAg fun _ _ ht => ht.queueBurst

theorem tileHere {rt : ℕ} {m : AgMsg} : Canon (s.tileHere rt m) := by
  unfold State.tileHere
  extract_lets hits dups counted stns plane side marks dropped sent planed
  have hcounted : Canon counted := .ite h h.count
  have hdropped : Canon dropped := hcounted.foldl fun _ _ ht => ht.dropPend
  have hsent : Canon sent := hdropped.foldl fun _ _ ht => ht.sendTile
  have hplaned : Canon planed := .ite hsent hsent.planeTile
  exact .ite hplaned hplaned.insertTile

theorem fillOf {rt : ℕ} {m : AgMsg} : Canon (s.fillOf rt m).1 := by
  unfold State.fillOf
  split
  · exact h
  · rename_i e
    exact h.makeRoom.of_eq e

theorem execAgateTileSegment {rt : ℕ} {m : AgMsg} : NextCanonical (execAgateTileSegment rt m s) := by
  unfold Machine.execAgateTileSegment
  refine .ite h.agLater ?_
  split
  · exact h.deliverTile
  · refine .ite h.agTake (.ite (Canon.tileHere (Canon.modAg ?_)) (Canon.modAg (Canon.modAg ?_)))
    · split
      · exact h.agTake
      · exact h.agTake.fillOf
    · split
      · exact h.agTake
      · exact h.agTake.fillOf

/-! ### Agate: What strands ask of their station -/

theorem sendInterest {k slot name : ℕ} {rlx : Bool} {life : ℕ} {dst : List Span} : Canon (s.sendInterest k slot name rlx life dst) :=
  Canon.getD h.modAg.modCore.agInterest h.modAg.modCore

theorem undefine {ss : List Span} : Canon (s.undefine ss) := by
  unfold State.undefine
  refine h.foldl fun t p ht => ?_
  have drawn : Canon (t.drawBytes p.len).2 := ht.drawBytes
  dsimp only
  split
  · exact drawn.writeMem
  · exact drawn.putStore
  · exact ht

theorem cancelSlot {k slot : ℕ} : Canon (s.cancelSlot k slot) := by
  unfold State.cancelSlot
  split
  · exact h.modCore
  · exact .foldl (Canon.undefine (.ite h.modCore.dropCons h.modCore.modAg)) fun _ _ ht => ht.leavePend

theorem unprod {stn name : ℕ} : Canon (s.unprod stn name) := h.modAg

theorem publish {k name : ℕ} {data : List Byte} : Canon (s.publish k name data) :=
  .ite h.count (.foldl h.modAg.unprod.insertTile.tileHere (fun _ _ ht => ht.agMsg))

theorem agReset {c : ℕ} : Canon (s.agReset c) := by
  unfold State.agReset
  exact h.modAg

/-! ### E2e: At the destination -/

theorem e2eServe {src sq : ℕ} {p : PeerReq} : Canon (s.e2eServe src sq p) := by
  unfold State.e2eServe
  split
  · exact h.modFab.answerPeer
  · exact h.agFrom.answerPeer
  · exact h.agFrom.answerPeer
  · split
    · rename_i e
      exact (h.peerPerform.of_eq e).keepResult.answerPeer
    · exact h.modFab

theorem e2eAgain {src sq : ℕ} {p : PeerReq} : Canon (s.e2eAgain src sq p) := by
  unfold State.e2eAgain
  refine .ite h ?_
  split
  · exact h.e2eServe
  · exact h.answerPeer
  · exact h.answerPeer

theorem execE2eRequest {src sq : ℕ} {room : Bool} {p : PeerReq} : NextCanonical (execE2eRequest src sq room p s) :=
  .ite h.count.e2eAgain (.ite h h.putE2eSrc.e2eServe)

/-! ### E2e: At the source -/

theorem dropE2e {dst sq : ℕ} : Canon (s.dropE2e dst sq) := h.modFab

theorem jobAnswered {e : E2eReq} {data : List Byte} : Canon (s.jobAnswered e data) := by
  unfold State.jobAnswered
  split
  · exact h.frame
  · exact h.jobWrote

theorem execE2eAck {dst sq : ℕ} {ans : PeerAnswer} : NextCanonical (execE2eAck dst sq ans s) := by
  unfold Machine.execE2eAck
  split
  · exact h
  · refine .ite (Canon.fatalError (Canon.ite h.dropE2e.peerRefuse h.dropE2e)) ?_
    split
    · exact Canon.jobAnswered (Canon.ite h.dropE2e.peerRefuse h.dropE2e)
    · split
      · exact Canon.ite h.dropE2e.peerRefuse h.dropE2e
      · refine .ite (Canon.ite h.dropE2e.peerRefuse h.dropE2e) ?_
        split
        · rename_i e3
          exact (Canon.perform (Canon.modCore (Canon.ite h.dropE2e.peerRefuse h.dropE2e))).of_wait e3
        · rename_i e3
          exact (Canon.perform (Canon.modCore (Canon.ite h.dropE2e.peerRefuse h.dropE2e))).of_done e3
        · rename_i e3
          exact ((Canon.perform (Canon.modCore (Canon.ite h.dropE2e.peerRefuse h.dropE2e))).of_dead e3).fatalError

theorem windowLost {e : E2eReq} : Canon (s.windowLost e) := by
  unfold State.windowLost
  split
  · split
    · exact h.windowDone
    · exact h
  · exact h

theorem e2eGiveUp {b : ℕ} {e : E2eReq} : Canon (s.e2eGiveUp b e) := by
  unfold State.e2eGiveUp
  split
  · exact h.dropE2e.count.ras0
  · exact h.dropE2e.count.ras0
  · exact h.dropE2e.count.ras0.windowLost.fatalError

theorem execE2eTimeout {dst sq : ℕ} : NextCanonical (execE2eTimeout dst sq s) := by
  unfold Machine.execE2eTimeout
  split
  · exact h
  · exact .ite h.e2eGiveUp (.ite h (.ite h.modFab.e2eEmit h.e2eGiveUp))

/-! ### Zheuc -/

theorem modZg {f : Zheuc → Zheuc} : Canon (s.modZg f) := h.frame

/-! ### Zheuc: Token frames -/

theorem sendFrame {f : List Word} : Canon (s.sendFrame f) := h.modZg.emit

/-! ### Zheuc: Fencing -/

theorem zgFence : Canon s.zgFence := h.setFld.ras0

/-! ### Zheuc: Performing committed messages -/

theorem grpCommit {k uid t : ℕ} : Canon (s.grpCommit k uid t).1 := by
  unfold State.grpCommit
  split
  · exact h
  · rename_i o _
    extract_lets o' t u
    have sent : Canon u := .ite h.modCore.windowSend h.modCore.peerTry
    clear_value u
    split
    · exact sent
    · split
      · rename_i e
        exact sent.perform.of_done e
      · rename_i e
        exact sent.perform.of_wait e
      · rename_i e
        dsimp only
        exact (sent.perform.of_dead e).fatalError

theorem groupItems {src : ℕ} {a : List (ℕ × List Byte)} : SomeAll Canon (s.groupItems src a) := by
  induction a generalizing s with
  | nil => exact h
  | cons it its ih =>
    unfold State.groupItems
    split
    · trivial
    · rename_i e
      exact ih (h.groupWrite.of_eq e)

theorem planeArrival {src ga : ℕ} {head : List Byte} : Canon (s.planeArrival src ga head) := by
  unfold State.planeArrival
  refine .ite h ?_
  dsimp only
  split
  · exact h
  · exact .ite h h.tileHere

theorem askOnce {key : ℕ} {req : List Word} : Canon (s.askOnce key req) := .ite h h.modZg.syncQueue

theorem zgKeep : Canon s.zgKeep := by
  unfold State.zgKeep
  exact h.modZg

theorem syncPerform {m : List Word} : Canon (s.syncPerform m).1 := by
  unfold State.syncPerform
  dsimp only
  split
  · split
    · exact h
    · rename_i e
      have written := h.groupWrite.of_eq e
      exact .ite written.modCore written
  · split
    · exact h
    · rename_i b _
      split
      · exact h
      · rename_i t e
        have written : Canon t := h.groupItems.of_eq e
        have cleared {f : Zheuc → Zheuc} : Canon (t.modZg f) := written.modZg
        have noted {c : Prop} [Decidable c] {f : Zheuc → Zheuc} {g : State → ℕ × List Byte → Core → Core} :
            Canon (if c then b.items.foldl (fun u it => u.modCore (syncCore m) (g u it)) (t.modZg f) else t.modZg f) :=
          .ite (cleared.foldl fun _ _ hu => hu.modCore) cleared
        split
        · exact noted.planeArrival
        · exact noted
  · exact .ite_fst h.count (.ite_fst h.grpCommit h)
  · exact .ite h.groupArrival h.groupArrival.count
  · refine .ite_fst (.ite_fst ?_ h) (.ite h.modZg h)
    split
    · dsimp only
      exact h.modZg
    · exact h
  · exact h

theorem askBurst {m : List Word} : Canon (s.askBurst m) := .ite h.askOnce h

theorem zgDrain {a : ℕ} : Canon (s.zgDrain a) := by
  induction a generalizing s with
  | zero => exact h
  | succ f ih =>
    unfold State.zgDrain
    split
    · exact h
    · split
      · exact .ite (ih h.modZg) (.ite h.zgFence h.askOnce)
      · exact .ite h.syncPerform.askBurst (ih h.syncPerform.modZg)

theorem zgWork : Canon s.zgWork := .ite h.zgDrain h

/-! ### Zheuc: Tenures -/

theorem sendSync {m : List Word} : Canon (s.sendSync m) := h.modZg.emit

theorem passFrame {p sq t : ℕ} : Canon (s.passFrame p sq t) := h.modZg.sendFrame

theorem syncTenure : Canon s.syncTenure :=
  Canon.passFrame (.foldl (Canon.modZg (.foldl h.modZg (fun _ _ ht => ht.emit))) (fun _ _ ht => ht.sendSync))

theorem dataTenure {p : ℕ} : Canon (s.dataTenure p) := by
  unfold State.dataTenure
  refine Canon.passFrame ?_
  split
  · exact h
  · exact Canon.emit (.ite h h.modZg)

theorem tenure {p : ℕ} : Canon (s.tenure p) := .ite h.syncTenure h.dataTenure

/-! ### Zheuc: Quartz across the group -/

theorem qtzMeasure {f : List Word} : Canon (s.qtzMeasure f) := .ite h (.ite h.setFld.modZg.setFld.ras0 h.setFld.modZg)

theorem execQtzCorrection : NextCanonical (execQtzCorrection s) := .ite h (.ite h.modZg h.frame.modZg)

/-! ### Zheuc: Frames as they arrive -/

theorem heard {p : ℕ} : Canon (s.heard p) := h.modZg

theorem zgCommit {f : List Word} : Canon (s.zgCommit f) :=
  .ite h (Canon.zgWork (Canon.modZg (.ite (Canon.modZg (.ite h.frame.modZg.zgKeep h)) (.ite h.frame.modZg.zgKeep h))))

theorem tenureEnds {f : List Word} : Canon (s.tenureEnds f) := by
  unfold State.tenureEnds
  exact h.modZg

theorem endLoss {p : ℕ} : Canon (s.endLoss p) := h.modZg.setFld

theorem execZgPassFrame {f : List Word} : NextCanonical (execZgPassFrame f s) :=
  .ite h (Canon.ite h.modZg.heard.endLoss.qtzMeasure.tenureEnds.zgCommit.tenure h.modZg.heard.endLoss.qtzMeasure.tenureEnds.zgCommit)

theorem execZgSyncMessage {f : List Word} : NextCanonical (execZgSyncMessage f s) :=
  .ite h (.ite (Canon.ite (Canon.modZg (Canon.ite h.count h)) (Canon.ite h.count h))
    (Canon.zgWork (Canon.zgKeep (Canon.modZg (Canon.ite (Canon.modZg (Canon.ite h.count h)) (Canon.ite h.count h))))))

theorem badResend {b : Burst} : Canon (s.badResend b) := .ite h (.ite h.zgFence h.modZg.syncQueue)

theorem execZgDataBurst {b : Burst} : NextCanonical (execZgDataBurst b s) := .ite h (.ite h.heard.badResend h.heard.modZg.zgWork)

/-! ### Zheuc: Token loss -/

theorem dropUncommitted : Canon s.dropUncommitted := by
  unfold State.dropUncommitted
  exact h.modZg

theorem resendBursts {p : ℕ} : Canon (s.resendBursts p) := by
  unfold State.resendBursts
  exact h.modZg

theorem putLoss {l : Loss} : Canon (s.putLoss l) := h.modZg

theorem execZgTokenLossTimeout {plane : ℕ} : NextCanonical (execZgTokenLossTimeout plane s) :=
  .ite h (Canon.putLoss (.ite h.setFld.dropUncommitted h.setFld.resendBursts))

theorem execZgLossReport {f : List Word} : NextCanonical (execZgLossReport f s) := by
  unfold Machine.execZgLossReport
  refine .ite h ?_
  dsimp only
  split
  · exact h.modZg.heard
  · exact h.modZg.heard.putLoss

theorem execZgLossReportSlot {plane : ℕ} : NextCanonical (execZgLossReportSlot plane s) := by
  unfold Machine.execZgLossReportSlot
  split
  · exact h
  · exact .ite h h.putLoss.sendFrame

theorem execZgRegenerate {plane : ℕ} : NextCanonical (execZgRegenerate plane s) := by
  unfold Machine.execZgRegenerate
  split
  · exact h
  · exact .ite h h.sendFrame

theorem execZgRegenerateFrame {f : List Word} : NextCanonical (execZgRegenerateFrame f s) :=
  .ite h (Canon.ite h.modZg.heard.endLoss.count.modZg.zgCommit.tenure h.modZg.heard.endLoss.count.modZg.zgCommit)

/-! ### Zheuc: Broadcast stores -/

theorem sendBst {k ga : ℕ} {data : List Byte} {uid : ℕ} {sig : Option ℕ} : SomeAll Canon (s.sendBst k ga data uid sig) := by
  unfold State.sendBst
  dsimp only
  split
  · trivial
  · split
    · refine h.groupWrite.map fun t ht => ?_
      split
      · exact ht.modCore
      · exact ht
    · split
      · exact h.modCore.syncQueue
      · exact h.modCore.queueBurst

theorem zgForm {host : Bool} : Canon (s.zgForm host) := .ite h.modZg.setFld.modZg.dropUncommitted h.modZg

/-! ### Futures: Entries -/

theorem putFut {f : Future} : Canon (s.putFut f) := h.frame

theorem freeFut {id : ℕ} : Canon (s.freeFut id) := h.frame

theorem stale {c : ℕ} : Canon (s.stale c) := h.setFld

theorem peerFree {a : ℕ} {a1 : List Span} : Canon (s.peerFree a a1).1 := by
  induction a1 generalizing s a with
  | nil => exact h
  | cons p ps ih =>
    unfold State.peerFree
    split
    · exact ih h.drawBytes
    · exact ih h

theorem gather {w : Who} {ss : List Span} : SomeAll (fun r => Canon r.1) (s.gather w ss) := by
  unfold State.gather
  split
  · trivial
  · rename_i e
    exact (h.requestSpans.of_eq e).peerFree.readGranted

theorem scatter {w : Who} {uid : ℕ} {ss : List Span} {bs : List Byte} : SomeAll Canon (s.scatter w uid ss bs) := by
  unfold State.scatter
  split
  · trivial
  · rename_i e
    exact .foldl (h.writeSpans.of_eq e) fun _ _ ht => ht.e2eSend

/-! ### Futures: Queues -/

theorem pqGone {c q : ℕ} : Canon (s.pqGone c q) := h.frame

/-! ### Futures: Records -/

theorem ringUnits {h1 size a a1 : ℕ} {a2 : List Byte} : Canon (s.ringUnits h1 size a a1 a2) := by
  induction a generalizing s a1 a2 with
  | zero => exact h
  | succ n ih => exact ih h.writeMem

theorem putRecord {f : Future} {st h1 size : ℕ} {data : List Byte} : Canon (s.putRecord f st h1 size data) :=
  h.ringUnits.ringUnits.writeWordAt.frame.putFut

theorem writeReply {f : Future} {bs : List Byte} : SomeAll Canon (s.writeReply f bs) := by
  unfold State.writeReply
  split
  · trivial
  · exact h.scatter

theorem execPrefillRecordWrite {f : ℕ} : NextCanonical (execPrefillRecordWrite f s) := by
  unfold Machine.execPrefillRecordWrite
  split
  · exact h
  · split
    · split
      · rename_i e2
        exact (h.writeReply.of_eq e2).putFut
      · exact h
    · split
      · refine .ite h (.ite (.ite h h.setFld.putFut) (.ite h.putRecord ?_))
        split
        · exact h
        · split
          · rename_i e5
            exact (h.gather.of_eq e5).putRecord
          · exact h
      · exact h.pqGone
      · exact h

/-! ### Futures: Events at an entry -/

theorem futEnds {f : Future} {st : ℕ} : Canon (s.futEnds f st) := h.putFut.frame

theorem futTick {id : ℕ} : Canon (s.futTick id) := by
  unfold State.futTick
  split
  · exact .ite h.futEnds h
  · exact h

theorem execFutureDeadline {f : ℕ} : NextCanonical (execFutureDeadline f s) := by
  unfold Machine.execFutureDeadline
  split
  · exact .ite h.futEnds h
  · exact h

theorem execRemoteSendComplete {f : ℕ} : NextCanonical (execRemoteSendComplete f s) := by
  unfold Machine.execRemoteSendComplete
  dsimp only
  split
  · exact .ite h.futTick.putFut h.futTick
  · exact h.futTick

theorem execRemoteReply {gen f : ℕ} {data : List Byte} : NextCanonical (execRemoteReply gen f data s) := by
  unfold Machine.execRemoteReply
  dsimp only
  split
  · split
    · exact h.futTick.stale
    · split
      · exact h.futTick.stale
      · exact h.futTick
  · refine .ite ?_ ?_
    · split
      · exact h.futTick.stale
      · split
        · exact h.futTick.stale
        · exact h.futTick
    · split
      · exact h.futTick.futEnds
      · rename_i e
        exact (h.futTick.writeReply.of_eq e).futEnds

theorem execFutureWake {f : ℕ} : NextCanonical (execFutureWake f s) := by
  unfold Machine.execFutureWake
  split
  · exact h
  · refine .ite h (Canon.modLm (Canon.modTask ?_))
    split
    · exact h.putFut
    · exact h

/-! ### Futures: FCALL -/

theorem readNow {a : Word} {ss : List Span} : OkAll (fun r => Canon r.1) (s.readNow a ss) := by
  unfold State.readNow
  split
  · trivial
  · rename_i e
    exact .ite trivial (h.gather.of_eq e).countZeros

theorem sendRemote {f : Future} {ep : List Word} {bs : List Byte} : Canon (s.sendRemote f ep bs) := h.emit

theorem semFcall {rd ra : BitVec 5} : OkAll DoneCanonical (semFcall rd ra s) := by
  unfold Machine.semFcall
  refine .step fun _ => .step fun _ => .step fun _ => .step fun blk => .step fun _ => .bind h.readNow fun x hx => .step fun req => .step
    fun rpl => ?_
  dsimp only
  refine .ite hx.setG (.ite hx.pqGone.setG ?_)
  split
  · exact hx.setG
  · split
    · exact hx.setG
    · refine .step fun _ => .ite ?_ ?_
      · refine .bind hx.widenPins.frame.readNow fun y hy => .bind (P := Canon) hy.sendRemote fun u hu => ?_
        exact hu.setG
      · refine .bind (P := Canon) hx.widenPins.frame fun u hu => ?_
        exact hu.setG

/-! ### Futures: FAWAIT, FPOLL, FCANCEL -/

theorem takeResult {rd : BitVec 5} {f : Future} : DoneCanonical (s.takeResult rd f) := h.freeFut.setG

theorem semFawait {rd ra : BitVec 5} : OkAll DoneCanonical (semFawait rd ra s) :=
  .step fun _ => .step fun _ => .step fun _ => .step fun _ => .ite h.futTick.takeResult h.futTick.putFut.modTask.frame.modMe

theorem semFpoll {rd ra : BitVec 5} : OkAll DoneCanonical (semFpoll rd ra s) :=
  .step fun _ => .step fun _ => .ite h.futTick.takeResult h.futTick.setG

theorem semFcancel {rd ra : BitVec 5} : OkAll DoneCanonical (semFcancel rd ra s) :=
  .step fun _ => .step fun _ => .ite h.futTick.takeResult (.step fun _ => h.futTick.takeResult)

/-! ### Futures: Ends of tasks and contexts -/

theorem dropFutures {c owner : ℕ} : Canon (s.dropFutures c owner) := h.frame

theorem resetFutures {c : ℕ} : Canon (s.resetFutures c) := h.frame

/-! ### Context events: Ending a task -/

theorem endTask {k : ℕ} : Canon (s.endTask k) := by
  unfold State.endTask
  split
  · exact h.modCore
  · exact Canon.superDeliver (Canon.modCore
      (Canon.modLm (Canon.leaveDomains (Canon.frame
        (Canon.frame (Canon.dropFutures (.foldl h.landCore.endPins (fun _ _ ht => ht.cancelSlot))))))))

/-! ### Context events: Context state -/

theorem enableCtx {c : ℕ} : Canon (s.enableCtx c) := .ite h.setFld.setFld h.setFld

theorem execCtxEnable {c : ℕ} : NextCanonical (execCtxEnable c s) := .ite h h.enableCtx

theorem execCtxDisable {c : ℕ} : NextCanonical (execCtxDisable c s) := .ite h h.setFld

theorem startReset {c : ℕ} : Canon (s.startReset c) := .ite h.stopContext.resetFutures.setFld h

theorem execCtxReset {c : ℕ} : NextCanonical (execCtxReset c s) := .ite h h.startReset

theorem resetRings {c : ℕ} : Canon (s.resetRings c) := h.foldl fun _ _ ht => .ite ht.setFld ht

theorem resetWindows {c : ℕ} : Canon (s.resetWindows c) := h.foldl fun _ _ ht => .ite ht.setFld ht

theorem clearRegs {b : ℕ} {a : List ℕ} : Canon (clearRegs b a s) := by
  induction a generalizing s with
  | nil => exact h
  | cons o os ih => exact ih h.setReg

theorem finishReset {c : ℕ} : Canon (s.finishReset c) :=
  h.modLm.resetRings.resetWindows.agReset.resetFutures.clearRegs.setFld.setFld.setFld

theorem execCtxResetComplete {c : ℕ} : NextCanonical (execCtxResetComplete c s) := .ite h h.finishReset

theorem execCtxkillWrite {c : ℕ} : NextCanonical (execCtxkillWrite c s) := .ite h h.fatalError

/-! ### Context events: Pager replies -/

theorem deliverReply {src : Option ℕ} {v : Word} : Canon (s.deliverReply src v) := by
  unfold State.deliverReply
  split
  · dsimp only
    split
    · exact h.modLm.modCore
    · split
      · exact h.modLm.modTask
      · exact h.modLm.count
  · dsimp only
    split
    · exact h.modCore
    · split
      · exact h.modTask
      · exact h.count

theorem execPagerReplyArrival {src : Option ℕ} {v : Word} : NextCanonical (execPagerReplyArrival src v s) := h.deliverReply

/-! ### Context events: Pager cores -/

theorem endPager {k : ℕ} : Canon (s.endPager k) := .ite h.endTask h

theorem execPagercfgWrite {clu : ℕ} {v : Word} : NextCanonical (execPagercfgWrite clu v s) :=
  .ite h (.foldl h.writeReg.superDeliver (fun _ _ ht => ht.endPager))

/-! ### Debug: Halt and resume -/

theorem execDebugHalt {clu : ℕ} : NextCanonical (execDebugHalt clu s) := .ite h h.haltCluster

theorem execCrossTrigger {clu ch : ℕ} : NextCanonical (execCrossTrigger clu ch s) := .ite h h.haltCluster

theorem resumeCore {k : ℕ} : Canon (s.resumeCore k) := .ite h.modCore.trace h.modCore.trace.focus.takeTrap.focus

theorem debugResume {g : ℕ} : Canon (s.debugResume g) := .foldl h.setFld.setFld fun _ _ ht => ht.resumeCore

theorem execDebugResume {clu : ℕ} : NextCanonical (execDebugResume clu s) := .ite h h.debugResume

/-! ### Debug: State windows -/

theorem windowWrite {k o : ℕ} {v : Word} : Canon (s.windowWrite k o v) := .ite h.modCore h

/-! ### Debug: Samples -/

theorem execDebugSample {clu : ℕ} : NextCanonical (execDebugSample clu s) := .ite h (h.foldl (fun _ _ ht => ht.trace))

/-! ### Debug: Beryl modes -/

theorem releaseHeld {hs : List (ℕ × ℕ × ℕ × ℕ × ℕ)} : Canon (s.releaseHeld hs) := by
  unfold State.releaseHeld
  refine h.foldl fun t q ht => ?_
  have performed : PerfCanonical (t.perform q.1 q.2.1) := ht.perform
  revert performed
  cases t.perform q.1 q.2.1 with
  | done u => exact id
  | wait u => exact id
  | dead u code v => exact fun hu => Canon.fatalError hu

theorem berylMode {p mode : ℕ} : Canon (s.berylMode p mode) := by
  unfold State.berylMode
  extract_lets old flushed placed held moded limited renewed
  have hflushed : Canon flushed := .ite h.logFlush h
  have hplaced : Canon placed := .ite hflushed.setFld hflushed
  have hmoded : Canon moded := hplaced.setFld.setFld
  have hlimited : Canon limited := .ite hmoded.setFld hmoded
  exact .ite hlimited.setBeryl hlimited.setBeryl.releaseHeld

theorem execBerylModeOff {p : ℕ} : NextCanonical (execBerylModeOff p s) := .ite h h.berylMode

theorem execBerylModeRecord {p : ℕ} : NextCanonical (execBerylModeRecord p s) := .ite h h.berylMode

theorem execBerylModeReplay {p : ℕ} : NextCanonical (execBerylModeReplay p s) := .ite h h.berylMode

theorem execBerylReplayLimit {p : ℕ} : NextCanonical (execBerylReplayLimit p s) := by
  unfold Machine.execBerylReplayLimit
  refine .ite h ?_
  split
  · exact h.diverge
  · exact h

/-! ### Hosting: Module reset and boot -/

theorem execModuleReset : NextCanonical (execModuleReset s) := ⟨wf_coherentMem h.1, h.2⟩

theorem execBootGo : NextCanonical (execBootGo s) := .ite h.setFld h

theorem execBootVerify : NextCanonical (execBootVerify s) := .ite h (.ite h.frame.setFld h.setFld.setFld)

/-! ### Hosting: Attestation -/

theorem execAttestRequest {v : Word} : NextCanonical (execAttestRequest v s) := .ite h.writeReg h.writeReg.frame

theorem execAttestReport : NextCanonical (execAttestReport s) := by
  unfold Machine.execAttestReport
  split
  · exact h
  · exact h.writeMem.frame.interrupt

/-! ### Hosting: Power -/

theorem setPower {g d : ℕ} : Canon (s.setPower g d) := h.frame

theorem execClusterSleep {clu : ℕ} : NextCanonical (execClusterSleep clu s) := .ite h h.setPower

theorem execClusterWake {clu : ℕ} : NextCanonical (execClusterWake clu s) := .ite h h.setPower

theorem execCoreSleep {k : ℕ} : NextCanonical (execCoreSleep k s) := .ite h (Canon.modCore (.ite h.dropL1Where h))

theorem execCoreWake {k : ℕ} : NextCanonical (execCoreWake k s) := h.modCore

theorem execQtzrWake {k : ℕ} : NextCanonical (execQtzrWake k s) := h.modCore

/-! ### Hosting: Errors and fencing -/

theorem execCorrectedError {unit pa : ℕ} : NextCanonical (execCorrectedError unit pa s) := h.count.ras0

theorem fence {kind id : ℕ} : Canon (s.fence kind id) :=
  .ite h (.ite (.foldl h.frame.ras0.svcreq (fun _ _ ht => ht.fatalError)) h.frame.ras0.svcreq)

theorem execUncorrectableError {kind id pa : ℕ} : NextCanonical (execUncorrectableError kind id pa s) :=
  .ite (Canon.frame (Canon.ras0 (.ite h.markPoison h)))
    (.ite (Canon.frame (Canon.frame (Canon.ras0 (.ite h.markPoison h)))) (Canon.fence (Canon.frame (Canon.ras0 (.ite h.markPoison h)))))

/-! ### Hosting: Eye margins and channels -/

theorem askRetrain {mon : ℕ} : Canon (s.askRetrain mon) := by
  unfold State.askRetrain
  split
  · exact .ite h.interrupt h.frame
  · split
    · exact h.retrainLane
    · exact h

theorem execEyeMarginLow {mon mv mt : ℕ} : NextCanonical (execEyeMarginLow mon mv mt s) :=
  .ite h (.ite h.setFld.setFld h.setFld.setFld.setFld.ras0.askRetrain)

theorem execMemoryChannelRetrainDone {ch : ℕ} : NextCanonical (execMemoryChannelRetrainDone ch s) := h.frame

theorem execCranyLinkLaneLost {lane : ℕ} : NextCanonical (execCranyLinkLaneLost lane s) := h.svcreq

/-! ### Hosting: Checkpoints -/

theorem checkStart {v : Word} {dir : ℕ} : Canon (s.checkStart v dir) := .ite h.writeReg h.writeReg.setFld.setFld.frame.mapCores

theorem execCheckpointSave {v : Word} : NextCanonical (execCheckpointSave v s) := h.checkStart

theorem execCheckpointRestore {v : Word} : NextCanonical (execCheckpointRestore v s) := h.checkStart

theorem settleDirty {base n : ℕ} : Canon (s.settleDirty base n) := h.foldl fun _ _ ht => ht.foldl fun _ _ ht1 => ht1.flushUnit

theorem copyMarked {src n dst : ℕ} : Canon (s.copyMarked src n dst) := by
  have settled : Canon ((s.settleDirty src n).recallRange dst n true) := h.settleDirty.recallRange
  unfold State.copyMarked
  extract_lets settled' old new copied
  have hcopied : Canon copied := ⟨wf_copyCells _ _ _ settled.mem _, settled.store⟩
  exact hcopied.modCoh

theorem execCheckpointEnd : NextCanonical (execCheckpointEnd s) := by
  unfold Machine.execCheckpointEnd
  split
  · exact h
  · exact .ite h (Canon.interrupt (Canon.ras0
      (Canon.frame (Canon.setFld (.ite (h.foldl (fun _ _ ht => .ite ht.copyMarked ht.copyMarked)) h)))))

/-! ### Registers: Writes -/

theorem after {a : Host.Outcome State Fault Refusal} (ha : NextCanonical a) : Canon (after s a) := by
  cases a with
  | next t => exact ha
  | fault _ => exact h
  | refused _ => exact h

theorem moduleWrite {o : ℕ} {v : Word} {host : Bool} : Canon (s.moduleWrite o v host) := by
  unfold State.moduleWrite
  split
  · exact h.writeReg.zgForm
  · exact h.after h.execMigSubmit
  · exact h.after h.execMigRelease
  · exact h.after h.execPagerdescWrite
  · exact h.writeReg.superDeliver
  · exact .ite (h.after h.execBootGo) h
  · exact .ite h.writeReg h.checkStart
  · exact h.after h.execAttestRequest
  · exact h.writeReg

theorem ctxctlWrite {c : ℕ} {v : Word} : Canon (s.ctxctlWrite c v) :=
  .ite (Canon.enableCtx (.ite h.startReset h)) (Canon.setFld (.ite h.startReset h))

theorem lqcfgWrite {c q : ℕ} {v : Word} : Canon (s.lqcfgWrite c q v) := .ite h.writeReg h.writeReg.modLm

theorem ctxWrite {c o : ℕ} {v : Word} : Canon (s.ctxWrite c o v) :=
  .ite h.ctxctlWrite (.ite (.ite h.writeReg.reoffer h)
    (.ite h.writeReg.recheckPreloads.reoffer (.ite (.ite (h.after h.execCtxkillWrite) h) (.ite h.lqcfgWrite h.writeReg))))

theorem clusterWrite {g o : ℕ} {v : Word} : Canon (s.clusterWrite g o v) :=
  .ite (h.after h.execPagercfgWrite).reoffer (.ite (h.after h.execCssplitWrite) (.ite h.writeReg.recheckPreloads.reoffer h.writeReg))

theorem routerWrite {rt o a : ℕ} {v : Word} : Canon (s.routerWrite rt o a v) := .ite h.writeReg.reroute h.writeReg

theorem mscWrite {st o : ℕ} {v : Word} : Canon (s.mscWrite st o v) :=
  .ite (.ite h h.writeReg) (.ite (h.after h.execMscWindowEnable) (h.after h.execMscWindowDisable))

theorem berylWrite {p o : ℕ} {v : Word} : Canon (s.berylWrite p o v) := .ite (Canon.writeReg (.ite h h.berylMode)) h.writeReg

theorem dbgctlWrite {g : ℕ} {v : Word} : Canon (s.dbgctlWrite g v) :=
  .ite (Canon.debugResume (.ite h.writeReg.haltCluster h.writeReg)) (.ite h.writeReg.haltCluster h.writeReg)

theorem regWrite {a : ℕ} {v : Word} {host : Bool} : Canon (s.regWrite a v host) :=
  .ite h (.ite h.moduleWrite (.ite h.ctxWrite
    (.ite (.ite h.clusterWrite (.ite h.routerWrite h))
      (.ite h.mscWrite (.ite h.berylWrite (.ite h.routerWrite
        (.ite (.ite h.dbgctlWrite (.ite h.windowWrite h.writeReg)) (.ite h.berylWrite h.writeReg))))))))

theorem devWrite {a : ℕ} {v : Word} : Canon (s.devWrite a v) := h.regWrite

theorem execRegisterWrite {pa : ℕ} {v : Word} : NextCanonical (execRegisterWrite pa v s) := h.regWrite

/-! ### Scalar mem -/

theorem deviceDone {sig : Option ℕ} : DoneCanonical (s.deviceDone sig) := by
  unfold State.deviceDone
  split
  · exact h
  · exact h.signalAfter

theorem scalarLoad {size : ℕ} {signed : Bool} {rd ra : BitVec 5} {y : BitVec 2} {off : BitVec 13} :
    OkAll DoneCanonical (scalarLoad size signed rd ra y off s) := by
  unfold Machine.scalarLoad
  refine .step fun _ => .bind h.syncTake fun r hr => .step fun ss => ?_
  split
  · exact hr.setG.deviceDone
  · exact hr.countZeros.issueOp

theorem scalarStore {size : ℕ} {rd ra : BitVec 5} {y : BitVec 2} {off : BitVec 13} :
    OkAll DoneCanonical (scalarStore size rd ra y off s) := by
  unfold Machine.scalarStore
  refine .step fun _ => .bind h.syncTake fun r hr => .step fun ss => ?_
  split
  · exact hr.devWrite.deviceDone
  · exact .bind hr.issueStore fun t ht => ht

/-! ### Hold buffer -/

theorem hold {h1 : Held} : OkAll Canon (s.hold h1) := .ite trivial h.frame

theorem semAbort : OkAll DoneCanonical (semAbort s) := .step fun _ => h.frame

theorem sendHeld {h1 : Held} : SendCanonical (s.sendHeld h1) := by
  unfold State.sendHeld
  split
  · split
    · exact h.sendInterest
    · trivial
  · split
    · trivial
    · split
      · trivial
      · rename_i e
        split
        · exact (h.widenPins.gather.of_eq e).fatalError
        · exact (h.widenPins.gather.of_eq e).countZeros.publish
  · split
    · trivial
    · split
      · rename_i e
        exact h.sendBst.of_eq e
      · trivial

theorem sendAll {a : ℕ} : Canon (State.sendAll a s).1 := by
  induction a generalizing s with
  | zero => exact h
  | succ f ih =>
    unfold State.sendAll
    split
    · exact h
    · rename_i w hs _
      have sent : SendCanonical (({ s with core := s.core.setHold hs }).sendHeld w) := h.frame.sendHeld
      revert sent
      cases ({ s with core := s.core.setHold hs } : State).sendHeld w with
      | wait => exact fun _ => h
      | sent t => exact fun ht => ih ht
      | dead t => exact fun ht => ht

theorem semCommit : OkAll DoneCanonical (semCommit s) := .step fun _ => .ite h.sendAll (.ite h.sendAll h.sendAll.frame)

/-! ### Load strand: Vector loads -/

theorem queueLoad {a : Word} {ss : List Span} {dest : Dest} {code n : ℕ} {sig : Option ℕ} :
    OkAll DoneCanonical (s.queueLoad a ss dest code n sig) :=
  .step fun _ => h.countZeros.pushPending.issueOp

theorem semVld {rsz : BitVec 2} {q : BitVec 1} {ga : BitVec 5} {off : BitVec 13} {sync : BitVec 2} {row : BitVec 1} :
    OkAll DoneCanonical (semVld rsz q ga off sync row s) :=
  .step fun _ => .step fun _ => .bind h.syncTake fun _ ht => .step fun _ => .step fun _ => ht.queueLoad

theorem semVlds {esz : BitVec 2} {q : BitVec 1} {ga gs : BitVec 5} {off : BitVec 8} {sync : BitVec 2} :
    OkAll DoneCanonical (semVlds esz q ga gs off sync s) :=
  .step fun _ => .step fun _ => .bind h.syncTake fun _ ht => .step fun _ => .step fun _ => ht.queueLoad

theorem semVldb {esz : BitVec 2} {q : BitVec 1} {ga : BitVec 5} {off : BitVec 13} {sync : BitVec 2} :
    OkAll DoneCanonical (semVldb esz q ga off sync s) :=
  .step fun _ => .step fun _ => .bind h.syncTake fun _ ht => .step fun _ => .step fun _ => ht.queueLoad

/-! ### Load strand: Probes and prefetches -/

theorem semProbe {gl : BitVec 3} {ga : BitVec 5} {off : BitVec 13} {sync intent : BitVec 2} :
    OkAll DoneCanonical (semProbe gl ga off sync intent s) := by
  unfold Machine.semProbe
  refine .step fun _ => .bind h.syncTake fun r hr => ?_
  dsimp only
  split
  · exact hr.signalAfter
  · split
    · exact hr.signalAfter
    · trivial

theorem prefetchUnit {w : Who} {pa n grain pol lvl : ℕ} {write : Bool} : Canon (s.prefetchUnit w pa n grain pol lvl write) := by
  unfold State.prefetchUnit
  split
  · refine .ite h (.ite ?_ (.ite ?_ (.ite h.mscTouch h)))
    · dsimp only
      split
      · rename_i e
        exact h.cached.of_eq e
      · exact h
    · dsimp only
      split
      · rename_i e
        exact h.cached.of_eq e
      · exact h
  · exact h

theorem prefetchRun {w : Who} {grain pol lvl : ℕ} {write : Bool} {a a1 a2 : ℕ} :
    Canon (s.prefetchRun w grain pol lvl write a a1 a2) := by
  induction a generalizing s a1 a2 with
  | zero => exact h
  | succ f ih =>
    unfold State.prefetchRun
    exact .ite h (ih h.prefetchUnit)

theorem prefetch {lvl : ℕ} {write : Bool} {ss : List Span} : Canon (s.prefetch lvl write ss) :=
  .ite (h.foldl (fun _ _ ht => ht.prefetchRun)) h

theorem semPref {lvl : BitVec 3} {ga : BitVec 5} {off : BitVec 13} {sync : BitVec 2} {wr : BitVec 1} :
    OkAll DoneCanonical (semPref lvl ga off sync wr s) := by
  unfold Machine.semPref
  refine .step fun _ => .step fun _ => .bind h.syncTake fun r hr => ?_
  refine Canon.signalAfter ?_
  split
  · exact hr.prefetch
  · exact hr

/-! ### Load strand: Acquire loads -/

theorem semLda {gd : BitVec 3} {ga : BitVec 5} {scope ord : BitVec 3} {off : BitVec 7} {sync sz : BitVec 2} :
    OkAll DoneCanonical (semLda gd ga scope ord off sync sz s) :=
  .step fun _ => .step fun _ => .bind h.syncTake fun _ ht => .step fun _ => .step fun _ => ht.countZeros.issueOp

/-! ### Load strand: Named tiles -/

theorem semNreq {gl : BitVec 3} {ga gn : BitVec 5} {slot : BitVec 6} {rlx : BitVec 1} {sync : BitVec 2} :
    OkAll DoneCanonical (semNreq gl ga gn slot rlx sync s) := by
  unfold Machine.semNreq
  refine .step fun _ => .bind h.syncTake fun r hr => .step fun _ => ?_
  dsimp only
  split
  · trivial
  · refine .step fun _ => .step fun _ => .step fun _ => .step fun _ => .ite ?_ (.step fun _ => ?_)
    · exact .bind hr.hold fun t ht => ht.frame.signalAfter
    · exact hr.sendInterest.signalAfter

theorem takeSlot {i : BitVec 6} : Canon (s.takeSlot i) := by
  unfold State.takeSlot
  refine Canon.frame ?_
  split
  · exact h.dropCons
  · exact h

theorem semNwait {gd : BitVec 3} {slot : BitVec 6} {sync : BitVec 2} : OkAll DoneCanonical (semNwait gd slot sync s) := by
  unfold Machine.semNwait
  refine .step fun _ => .bind h.syncTake fun r hr => ?_
  dsimp only
  split
  · trivial
  · trivial
  · trivial
  · exact h.trapWith fun _ ht => ht.takeSlot
  · exact hr.takeSlot.setG.signalAfter

theorem semNcancel {slot : BitVec 6} {sync : BitVec 2} : OkAll DoneCanonical (semNcancel slot sync s) := by
  unfold Machine.semNcancel
  refine .bind h.syncTake fun r hr => ?_
  dsimp only
  split
  · trivial
  · exact hr.frame.signalAfter
  · exact hr.cancelSlot.signalAfter

/-! ### Store strand: Vector stores -/

theorem semVst {vsz : BitVec 2} {ga : BitVec 5} {off : BitVec 13} {sync : BitVec 2} : OkAll DoneCanonical (semVst vsz ga off sync s) :=
  .step fun _ => .step fun _ => .bind h.syncTake fun _ ht => .step fun _ => .bind ht.popLanded fun _ ht1 => .bind ht1.issueStore
    fun _ ht2 => ht2

theorem semVsts {esz : BitVec 2} {ga gs : BitVec 5} {off : BitVec 8} {sync : BitVec 2} :
    OkAll DoneCanonical (semVsts esz ga gs off sync s) :=
  .step fun _ => .step fun _ => .bind h.syncTake fun _ ht => .step fun _ => .step fun _ => .bind ht.popLanded fun _ ht1 => .bind
    ht1.issueStore fun _ ht2 => ht2

/-! ### Store strand: Release stores and atomics -/

theorem semStl {gd : BitVec 3} {ga : BitVec 5} {scope ord : BitVec 3} {off : BitVec 7} {sync sz : BitVec 2} :
    OkAll DoneCanonical (semStl gd ga scope ord off sync sz s) :=
  .step fun _ => .step fun _ => .bind h.syncTake fun _ ht => .step fun _ => .step fun _ => .bind ht.issueStore fun _ ht1 => ht1

theorem amo {op : AmoOp} {gd : BitVec 3} {ga : BitVec 5} {scope ord : BitVec 3} {gs : BitVec 5} {sync sz : BitVec 2} :
    OkAll DoneCanonical (amo op gd ga scope ord gs sync sz s) :=
  .step fun _ => .step fun _ => .bind h.syncTake fun _ ht => .step fun _ => .step fun _ => ht.issueOp

theorem semVradd {rsz : BitVec 2} {ty : BitVec 1} {ga : BitVec 5} {scope ord : BitVec 3} {off : BitVec 7} {sync : BitVec 2}
    {sat : BitVec 1} : OkAll DoneCanonical (semVradd rsz ty ga scope ord off sync sat s) :=
  .step fun _ => .step fun _ => .bind h.syncTake fun _ ht => .step fun _ => .step fun _ => .bind ht.popLanded fun _ ht1 => ht1.issueOp

/-! ### Store strand: Publishing -/

theorem semNpub {gz : BitVec 3} {ga gn : BitVec 5} {sync : BitVec 2} : OkAll DoneCanonical (semNpub gz ga gn sync s) := by
  unfold Machine.semNpub
  refine .step fun _ => .bind h.syncTake fun r hr => .step fun _ => ?_
  dsimp only
  split
  · trivial
  · refine .step fun _ => .step fun _ => .step fun _ => .ite ?_ (.step fun _ => .step fun _ => ?_)
    · exact .bind hr.hold fun t ht => ht.signalAfter
    · exact .bind hr.widenPins.readNow fun x hx => hx.publish.signalAfter

/-! ### Store strand: Broadcast stores -/

theorem bstData {bsz : BitVec 3} {gs : BitVec 5} : OkAll (fun r => Canon r.2) (s.bstData bsz gs) := by
  unfold State.bstData
  refine .ite ?_ (.ite h h)
  split
  · rename_i e
    exact h.popLanded.of_eq e
  · trivial

theorem semBst {bsz : BitVec 3} {ga gs : BitVec 5} {off : BitVec 8} {sync : BitVec 2} :
    OkAll DoneCanonical (semBst bsz ga gs off sync s) := by
  unfold Machine.semBst
  refine .step fun _ => .step fun _ => .bind h.syncTake fun r hr => .step fun _ => .step fun a => .bind hr.bstData fun x hx => ?_
  refine .ite (.bind hx.frame.hold fun t ht => ht.signalAfter) (.step fun _ => ?_)
  split
  · rename_i u e
    have sent : Canon u := hx.frame.sendBst.of_eq e
    exact .ite (.step fun _ => sent) sent
  · exact .ite (.step fun _ => trivial) trivial

/-! ### System: Traps -/

theorem semTrap {ra : BitVec 5} {n : BitVec 10} : OkAll DoneCanonical (semTrap ra n s) := .step fun _ => h

theorem reload {b : Bank} : OkAll Canon (s.reload b) := by
  unfold State.reload
  refine .ite h ?_
  split
  · exact h
  · split
    · rename_i e
      exact h.loadArray.of_eq e
    · trivial

theorem semTret : OkAll DoneCanonical (semTret s) := .step fun _ => .step fun _ => .bind h.reload fun _ ht => ht.frame.trace

/-! ### System: Supervisor calls -/

theorem semSyscReadContext {rd ra : BitVec 5} : OkAll DoneCanonical (semSyscReadContext rd ra s) :=
  .step fun _ => .ite h.setG (.ite h.setG (.ite (Canon.setG (.ite h.setFld h)) trivial))

theorem semSyscPagerRequest {rd : BitVec 5} : OkAll DoneCanonical (semSyscPagerRequest rd s) := by
  unfold Machine.semSyscPagerRequest
  refine .step fun a1 => .step fun a2 => ?_
  split
  · split
    · exact h.frame.setG
    · exact .ite h.frame.setG (Canon.setG (.ite h.frame.modLm.interrupt h.frame.modLm))
  · split
    · exact h.frame.setG
    · exact .ite h.frame.setG (Canon.setG (.ite h.frame.modLm.interrupt h.frame.modLm))

theorem semSyscPagerTake {rd ra : BitVec 5} : OkAll DoneCanonical (semSyscPagerTake rd ra s) := by
  unfold Machine.semSyscPagerTake
  refine .step fun a1 => .step fun a2 => .step fun a3 => .step fun a4 => ?_
  split
  · trivial
  · exact .bind h.issueStore fun _ ht => ht.modLm.frame.setG

theorem semSyscPagerReply {rd ra : BitVec 5} : OkAll DoneCanonical (semSyscPagerReply rd ra s) :=
  .step fun _ => .step fun _ => .step fun _ => .step fun _ => .step fun _ => h.widenPins.deliverReply.frame.setG

/-! ### System: Device registers -/

theorem semMfs {rd ra : BitVec 5} {off : BitVec 10} : OkAll DoneCanonical (semMfs rd ra off s) :=
  .step fun _ => .step fun _ => .step fun _ => h.setG

theorem semMts {ra rb : BitVec 5} {off : BitVec 10} : OkAll DoneCanonical (semMts ra rb off s) :=
  .step fun _ => .step fun _ => .step fun _ => h.devWrite.deviceDone

/-! ### System: Giving up and ending a task -/

theorem semYield : OkAll DoneCanonical (semYield s) := .step fun _ => .step fun _ => h.frame

theorem semTend : OkAll DoneCanonical (semTend s) := .step fun _ => .step fun _ => .ite h.endTask h

/-! ### System: Launching -/

theorem queueWrite {a : ℕ} {bs : List Byte} {scope : Option ℕ} : SomeAll Canon (s.queueWrite a bs scope) := by
  unfold State.queueWrite
  split
  · dsimp only
    split
    · trivial
    · rename_i e
      exact (h.requestSpans.of_eq e).writeGranted.pinWrites
  · dsimp only
    split
    · trivial
    · rename_i e
      exact (h.requestSpans.of_eq e).writeGranted

theorem appendLaunch {q : ℕ} {desc : List Byte} : OkAll (fun r => Canon r.1) (s.appendLaunch q desc) := by
  unfold State.appendLaunch
  refine .ite h (.ite h ?_)
  split
  · trivial
  · rename_i e
    split
    · trivial
    · rename_i e1
      exact (h.queueWrite.of_eq e).queueWrite.of_eq e1

theorem semLnch {rd ra q : BitVec 5} : OkAll DoneCanonical (semLnch rd ra q s) :=
  .step fun _ => .step fun _ => .step fun _ => .step fun _ => .ite h.setG
    (.step fun _ => .step fun _ => .bind h.widenPins.readNow fun _ ht => .bind ht.appendLaunch fun _ ht1 => ht1.setG)

/-! ### System: Quartz, bindings and breaks -/

theorem semQtzr {rd : BitVec 5} : OkAll DoneCanonical (semQtzr rd s) := .step fun _ => h.setG

theorem semQtzrUntil {rd ra : BitVec 5} : OkAll DoneCanonical (semQtzrUntil rd ra s) := .step fun _ => .step fun _ => h.setG

theorem bindImage {c rtn base n : ℕ} : Canon (s.bindImage c rtn base n).1 := by
  unfold State.bindImage
  refine .ite_fst h.setReg ?_
  split
  · exact h
  · exact h.modTask

theorem semLttld {rd ra rb : BitVec 5} : OkAll DoneCanonical (semLttld rd ra rb s) := by
  unfold Machine.semLttld
  refine .step fun a1 => .step fun a2 => .step fun a3 => .step fun a4 => .ite trivial ?_
  split
  · exact h.setG
  · exact h.bindImage.setG

theorem semDbg {n : BitVec 10} : OkAll DoneCanonical (semDbg n s) := .ite h.haltCluster h

/-! ### Harts: Harts -/

theorem putHart {h1 : ℕ} {x : Hart} : Canon (s.putHart h1 x) := h.frame

/-! ### Harts: Loads and stores -/

theorem hartWait {α : Type} {P : α → Prop} {w : Who} {pa : ℕ} : HartAll P (s.hartWait w pa) := h.enqueue

theorem hartRead {h1 : ℕ} {p : Priv} {acc : HAcc} {va n : ℕ} : HartAll (fun r => Canon r.1) (s.hartRead h1 p acc va n) := by
  unfold State.hartRead
  refine .bind HartAll.hartAccess fun a1 ht => ?_
  split
  · exact h
  · refine .ite h ?_
    split
    · exact h.hartWait
    · rename_i e
      exact .ite trivial (h.readSpans.of_eq e)

theorem hartWrite {h1 : ℕ} {p : Priv} {acc : HAcc} {va : ℕ} {bs : List Byte} : HartAll Canon (s.hartWrite h1 p acc va bs) := by
  unfold State.hartWrite
  refine .bind HartAll.hartAccess fun a1 ht => ?_
  split
  · exact h.devWrite
  · refine .ite h ?_
    split
    · exact h.hartWait
    · rename_i e
      exact h.writeSpans.of_eq e

theorem hartDone {h1 rd : ℕ} {v pc : Word} : Canon (s.hartDone h1 rd v pc) := h.putHart

theorem hartLoad {h1 f3 rd : ℕ} {va pc : Word} {w : ℕ} : HartAll Canon (s.hartLoad h1 f3 rd va pc w) :=
  .ite HartAll.hartIllegal (.bind h.hartRead fun _ ht => ht.hartDone)

theorem hartStore {h1 f3 : ℕ} {va v pc : Word} {w : ℕ} : HartAll Canon (s.hartStore h1 f3 va v pc w) :=
  .ite HartAll.hartIllegal (.bind h.hartWrite fun _ ht => ht.hartDone)

/-! ### Harts: Atomics -/

theorem hartScTurn {h1 : ℕ} {sc : Bool} {ss : List Span} {n : ℕ} : HartAll (fun _ => True) (s.hartScTurn h1 sc ss n) := by
  unfold State.hartScTurn
  refine .ite trivial ?_
  split
  · exact .ite trivial h
  · exact h.putHart

theorem hartScDone {h1 seen : ℕ} {t : Option (ℕ × ℕ)} {written : List Span} : Canon (s.hartScDone h1 seen t written) := by
  unfold State.hartScDone
  split
  · exact h
  · exact h.putHart.scMark

theorem hartLr {h1 n rd : ℕ} {va pc : Word} {w : ℕ} : HartAll Canon (s.hartLr h1 n rd va pc w) :=
  .bind HartAll.hartAccess fun _ _ => .ite trivial
    (.bind h.hartScTurn fun _ _ => .bind h.hartRead fun _ ht2 => ht2.hartScDone.hartDone.putHart)

theorem hartSc {h1 n rd : ℕ} {va v pc : Word} {w : ℕ} : HartAll Canon (s.hartSc h1 n rd va v pc w) := by
  unfold State.hartSc
  refine .bind .hartAccess fun ss _ => .ite trivial (.bind h.hartScTurn fun t _ => ?_)
  dsimp only
  split
  · exact .bind h.hartWrite fun u hu => hu.hartScDone.hartDone.putHart
  · exact .bind (P := Canon) h fun u hu => hu.hartScDone.hartDone.putHart

theorem hartModify {h1 : ℕ} {va : Word} {ss : List Span} {f : List Byte → Option (List Byte)} :
    HartAll (fun r => Canon r.1) (s.hartModify h1 va ss f) := by
  unfold State.hartModify
  refine .ite h ?_
  split
  · exact h.hartWait
  · rename_i e
    refine .ite trivial ?_
    split
    · exact (h.requestSpans.of_eq e).dequeue.readGranted
    · exact (h.requestSpans.of_eq e).dequeue.readGranted.writeGranted

theorem hartAmo {h1 f5 n rd : ℕ} {va v pc : Word} {w : ℕ} : HartAll Canon (s.hartAmo h1 f5 n rd va v pc w) := by
  unfold State.hartAmo
  refine .bind .hartAccess fun ss _ => .ite .hartIllegal (.bind h.hartScTurn fun t _ => ?_)
  dsimp only
  obtain ⟨admitted, noted⟩ : SomeAll Canon (s.logAdmit (s.hartAt h1).ctx (headAddr ss) (hartAgent h1) (hartAgent h1) 0).1 ∧
    Canon (s.logAdmit (s.hartAt h1).ctx (headAddr ss) (hartAgent h1) (hartAgent h1) 0).2 := h.logAdmit
  split
  · rename_i e
    rw [e] at admitted
    have done : Canon _ := admitted
    exact .bind (P := Canon) done fun u hu => .bind hu.hartModify fun r hr => hr.hartScDone.hartDone
  · rename_i e
    rw [e] at noted
    have stopped : HStopCanonical (.wait _) := noted
    exact stopped

theorem hartAtomic {h1 w : ℕ} {pc : Word} : HartAll Canon (s.hartAtomic h1 w pc) :=
  .ite HartAll.hartIllegal (.ite trivial (.ite (.ite h.hartLr HartAll.hartIllegal) (.ite h.hartSc h.hartAmo)))

/-! ### Harts: Control registers -/

theorem hartCsr {h1 w : ℕ} {pc : Word} : HartAll Canon (s.hartCsr h1 w pc) := by
  unfold State.hartCsr
  refine .ite HartAll.hartIllegal ?_
  split
  · exact HartAll.hartIllegal
  · exact h.putHart

/-! ### Ferle vector: Floating-point words -/

theorem hartVector {h1 w : ℕ} {pc : Word} : HartAll Canon (s.hartVector h1 w pc) := by
  unfold State.hartVector
  split
  · exact HartAll.hartIllegal
  · exact h.putHart

/-! ### Ferle vector: Memory -/

theorem vstopped {h1 i : ℕ} {e : HStop} (he : HStopCanonical e) : HStopCanonical (s.vstopped h1 i e) := by
  cases e with
  | trap c v => exact h.putHart
  | trapAt t c v => exact he
  | wait t => exact Canon.putHart he
  | uncorr va => trivial

theorem velems {h1 : ℕ} {f : State → ℕ → HM State} {a : List ℕ} (hf : ∀ (t : State) (i : ℕ), Canon t → HartAll Canon (f t i)) :
    HartAll Canon (s.velems h1 f a) := by
  induction a generalizing s with
  | nil => exact h
  | cons i is ih =>
    unfold State.velems
    split
    · rename_i e
      exact ih ((hf s i h).of_eq e)
    · rename_i e
      exact vstopped h ((hf s i h).of_error e)

theorem vfield {h1 : ℕ} {load : Bool} {va reg n i : ℕ} : HartAll Canon (s.vfield h1 load va reg n i) :=
  .ite (.bind h.hartRead fun _ ht => ht.putHart) h.hartWrite

theorem vsegment {h1 : ℕ} {load : Bool} {va reg n i step a : ℕ} : HartAll Canon (s.vsegment h1 load va reg n i step a) := by
  induction a with
  | zero => exact h
  | succ k ih => exact .bind ih fun t ht => ht.vfield

omit h in
theorem vfirstFault {h1 : ℕ} {pc : Word} {a : HM State} (ha : HartAll Canon a) : HartAll Canon (s.vfirstFault h1 pc a) := by
  cases a with
  | ok t => exact Canon.putHart ha
  | error e =>
    cases e with
    | trapAt t c v =>
      have stopped : Canon t := ha
      exact .ite stopped stopped.putHart
    | trap c v => trivial
    | wait t => exact ha
    | uncorr va => trivial

theorem vdone {h1 : ℕ} {pc : Word} : Canon (s.vdone h1 pc) := h.putHart

theorem hartVmem {h1 w : ℕ} {load : Bool} {pc : Word} : HartAll Canon (s.hartVmem h1 w load pc) := by
  unfold State.hartVmem
  dsimp only
  split
  · trivial
  · refine .ite .hartIllegal (.ite (.ite .hartIllegal ?_) (.ite .hartIllegal (.ite (.ite .hartIllegal ?_) (.ite .hartIllegal ?_))))
    · exact .bind (h.velems fun t i ht => ht.vfield) fun t ht => ht.vdone
    · exact .bind (h.velems fun t i ht => ht.vfield) fun t ht => ht.vdone
    · split
      · exact vfirstFault (h.velems fun t i ht => ht.vsegment)
      · exact (h.velems fun t i ht => ht.vsegment).map fun t ht => ht.vdone

/-! ### Ferle: System words -/

theorem hartSystem {h1 w : ℕ} {pc : Word} : HartAll Canon (s.hartSystem h1 w pc) :=
  .ite (.ite h.hartDone HartAll.hartIllegal)
    (.ite h.hartCsr (.ite trivial (.ite trivial
      (.ite (.ite h.putHart HartAll.hartIllegal)
        (.ite (.ite HartAll.hartIllegal h.putHart)
          (.ite (.ite HartAll.hartIllegal h.putHart)
            (.ite (.ite HartAll.hartIllegal h.hartDone)
              (.ite (.ite HartAll.hartIllegal h.hartDone) (.ite h.hartDone HartAll.hartIllegal)))))))))

/-! ### Ferle: Xkredunfut -/

theorem hartFget {h1 rs2 rs1 rd : ℕ} {pc : Word} : HartAll Canon (s.hartFget h1 rs2 rs1 rd pc) := by
  unfold State.hartFget
  dsimp only
  split
  · exact Canon.hartDone (h.foldl (fun _ _ ht => ht.futTick))
  · refine .bind HartAll.hartAccess fun a1 ht => ?_
    split
    · exact h.foldl fun _ _ ht1 => ht1.futTick
    · split
      · exact h.foldl fun _ _ ht1 => ht1.futTick
      · rename_i e2
        exact .ite trivial (.bind ((Canon.gather (h.foldl (fun _ _ ht1 => ht1.futTick))).of_eq e2).hartWrite fun _ ht1 =>
          ht1.putFut.hartDone)

theorem hartStale {h1 rd : ℕ} {x : Hart} {pc : Word} : Canon (s.hartStale h1 rd x pc) := h.stale.hartDone

theorem hartFres {h1 rs2 rs1 rd : ℕ} {pc : Word} {w : ℕ} : HartAll Canon (s.hartFres h1 rs2 rs1 rd pc w) := by
  unfold State.hartFres
  dsimp only
  refine .ite HartAll.hartIllegal ?_
  have ticked {id : ℕ} : Canon (s.futTick id) := h.futTick
  split
  · exact ticked.hartStale
  · refine .ite ticked.hartStale (.bind ticked.hartRead fun r hr => ?_)
    split
    · exact ticked
    · split
      · exact ticked
      · rename_i e
        exact (hr.scatter.of_eq e).futEnds.hartDone

theorem hartFext {h1 rs2 rs1 rd : ℕ} {pc : Word} {w : ℕ} : HartAll Canon (s.hartFext h1 rs2 rs1 rd pc w) := by
  unfold State.hartFext
  refine .ite HartAll.hartIllegal ?_
  dsimp only
  split
  · exact h.futTick.hartStale
  · exact .ite h.futTick.hartStale h.futTick.putFut.hartDone

theorem hartCustom {h1 w : ℕ} {pc : Word} : HartAll Canon (s.hartCustom h1 w pc) := by
  unfold State.hartCustom
  refine .ite HartAll.hartIllegal ?_
  split
  · exact h.hartFget
  · exact h.hartFres
  · exact h.hartFext
  · exact HartAll.hartIllegal

/-! ### Ferle: One instruction -/

theorem blockUnit {ctx k sl g u : ℕ} : Canon (s.blockUnit ctx k sl g u) :=
  .ite h.clearUnit (Canon.modCoh (h.foldl (fun _ _ ht => ht.flushUnit)))

theorem hartBlock {h1 w : ℕ} {pc : Word} : HartAll Canon (s.hartBlock h1 w pc) := by
  unfold State.hartBlock
  refine .ite .hartIllegal (.ite (.bind h.hartWrite fun t ht => ht.hartDone) ?_)
  extract_lets rest
  have kept (ss : List Span) : HartAll Canon (rest ss) := by
    refine HartAll.ite h.hartDone ?_
    split
    · exact h.hartWait
    · exact (h.dequeue.foldl fun t p ht => ht.blockUnit).hartDone
  split
  · exact kept _
  · exact .bind .hartAccess fun ss _ => kept ss

/-! ### Ferle: Floating point -/

theorem hartFOut {h1 rd w : ℕ} {pc : Word} {a : Option FOut} : HartAll Canon (s.hartFOut h1 rd w pc a) := by
  unfold State.hartFOut
  split
  · exact HartAll.hartIllegal
  · split <;> exact h.putHart

theorem hartFloat {h1 w raw : ℕ} {pc : Word} : HartAll Canon (s.hartFloat h1 w raw pc) :=
  .ite HartAll.hartIllegal (.ite h.hartFOut h.hartFOut)

theorem hartFmem {h1 w raw : ℕ} {pc : Word} : HartAll Canon (s.hartFmem h1 w raw pc) :=
  .ite HartAll.hartIllegal (.ite (.bind h.hartRead fun _ ht => ht.putHart) (.bind h.hartWrite fun _ ht => ht.hartDone))

/-! ### Ferle: One instruction -/

theorem hartAlu {h1 rd w : ℕ} {pc : Word} {a : Option Word} : HartAll Canon (s.hartAlu h1 rd w pc a) := by
  unfold State.hartAlu
  split
  · exact h.hartDone
  · exact HartAll.hartIllegal

theorem hartWord {h1 w raw : ℕ} {pc : Word} : HartAll Canon (s.hartWord h1 w raw pc) := by
  unfold State.hartWord
  split
  · exact h.hartDone
  · exact h.hartDone
  · exact h.hartDone
  · exact .ite h.hartDone HartAll.hartIllegal
  · dsimp only
    split
    · exact h.hartDone
    · exact h.hartDone
    · exact HartAll.hartIllegal
  · exact h.hartLoad
  · exact h.hartStore
  · exact h.hartAlu
  · exact h.hartAlu
  · exact h.hartAlu
  · exact h.hartAlu
  · exact .ite h.hartDone (.ite h.hartBlock HartAll.hartIllegal)
  · exact h.hartAtomic
  · exact h.hartSystem
  · exact h.hartCustom
  · exact .ite h.hartFmem h.hartVmem
  · exact .ite h.hartFmem h.hartVmem
  · exact h.hartFloat
  · exact h.hartFloat
  · exact h.hartFloat
  · exact h.hartFloat
  · exact h.hartFloat
  · exact h.hartVector
  · exact HartAll.hartIllegal

theorem hartExec {h1 w : ℕ} : HartAll Canon (s.hartExec h1 w) := by
  unfold State.hartExec
  refine .ite h.hartWord ?_
  split
  · exact h.hartWord
  · exact HartAll.hartIllegal

theorem hartTakes {h1 : ℕ} {intr : Bool} {c : ℕ} {v : Word} : Canon (s.hartTakes h1 intr c v) := h.dequeue.putHart

theorem hartUncorr {h1 : ℕ} {va : Word} : Canon (s.hartUncorr h1 va) := .ite h.fatalError h.hartTakes

theorem hartOutcome {h1 : ℕ} {a : HM State} (ha : HartAll Canon a) : NextCanonical (hartOutcome s h1 a) := by
  cases a with
  | ok t => exact Canon.putHart (Canon.dequeue ha)
  | error e =>
    cases e with
    | trap c v => exact h.hartTakes
    | trapAt t c v => exact Canon.hartTakes ha
    | wait t => exact ha
    | uncorr va => exact h.hartUncorr

theorem execFerleHartInstruction {h1 : ℕ} {w : IWord} : NextCanonical (execFerleHartInstruction h1 w s) :=
  .ite h (h.frame.hartOutcome h.frame.hartExec)

theorem execFget {rs2 rs1 rd : BitVec 5} : NextCanonical (execFget rs2 rs1 rd s) := h.hartOutcome h.hartCustom

theorem execFres {rs2 rs1 rd : BitVec 5} : NextCanonical (execFres rs2 rs1 rd s) := h.hartOutcome h.hartCustom

theorem execFext {rs2 rs1 rd : BitVec 5} : NextCanonical (execFext rs2 rs1 rd s) := h.hartOutcome h.hartCustom

/-! ### Ferle: Fetch -/

omit h in
theorem hartNext {h1 : ℕ} {e : HStop} (he : s.hartNext h1 = .stop e) : HStopCanonical e := by
  unfold State.hartNext at he
  dsimp only at he
  split at he
  · cases he
  · split at he
    · cases he
    · split at he
      · cases he
      · rename_i e2
        cases he
        exact HartAll.hartFetch.of_error e2

/-! ### Slots -/

theorem slotSem {a : Instr} : OkAll DoneCanonical (slotSem a s) := by
  unfold Machine.slotSem
  cases a
  case nop => exact h.semNop
  case fence => exact h.semFence
  case commit => exact h.semCommit
  case abort => exact h.semAbort
  case wfe => exact h.semWfe
  case tsig => exact h.semTsig
  case twait => exact h.semTwait
  case ttry => exact h.semTtry
  case ccset => exact h.semCcset
  case ccclr => exact h.semCcclr
  case ccwait => exact h.semCcwait
  case join => exact h.semJoin
  case add | sub | and | or | xor | andn | sll | srl | sra | rol | mul | mulh | mulhu | min | max | minu | maxu | slt | sltu | seq =>
    exact h.alu2
  case div | divu | rem | remu | divw | remw => exact h.divOp
  case clz | ctz | popc | addi | andi | ori | xori | slli | srli | srai | slti | sltiu | movhi => exact h.alu1
  case beq | bne | blt | bge | bltu | bgeu => exact h.branchIf
  case j => exact h.branch
  case jal => exact h.semJal
  case call => exact h.call
  case jr => exact h.semJr
  case callr => exact h.semCallr
  case ret => exact h.semRet
  case loop => exact h.semLoop
  case loopi => exact h.startLoop
  case lstep => exact h.semLstep
  case lfirst | llast => exact h.markCheck
  case lbreak => exact h.semLbreak
  case ldb | ldbu | ldh | ldhu | ldw | ldwu | ldd => exact h.scalarLoad
  case stb | sth | stw | std => exact h.scalarStore
  case bararr => exact h.semBararr
  case barwait => exact h.semBarwait
  case barsync => exact h.semBarsync
  case dsync => exact h.semDsync
  case fork => exact h.semFork
  case mfc => exact h.semMfc
  case mtc => exact h.semMtc
  case mfcXq => exact h.semMfcXq
  case mtcQ3 => exact h.semMtcQ3
  case vld => exact h.semVld
  case vlds => exact h.semVlds
  case vldb => exact h.semVldb
  case probe => exact h.semProbe
  case pref => exact h.semPref
  case lda => exact h.semLda
  case nreq => exact h.semNreq
  case nwait => exact h.semNwait
  case ncancel => exact h.semNcancel
  case vst => exact h.semVst
  case vsts => exact h.semVsts
  case stl => exact h.semStl
  case amoadd | amomin | amomax | amoand | amoor | amoxor | amoswp | amocas => exact h.amo
  case vradd => exact h.semVradd
  case npub => exact h.semNpub
  case bst => exact h.semBst
  case vadd | vsub | vmul | vfma | vfms | vfnma | vmin | vmax | vabs | vneg | vrcp | vrsq | vexp2 | vlog2 | vscacc | vscalex | viabs =>
    exact h.typed
  case vcmp => exact h.semVcmp
  case vsel => exact h.semVsel
  case vcvt => exact h.semVcvt
  case vpack => exact h.semVpack
  case vunpk => exact h.semVunpk
  case vzp => exact h.semVzp
  case vredadd | vredmax | vredmin => exact h.reduction
  case vperm | vslide | vbcast | vmov => exact h.moveLanes
  case vclr => exact h.semVclr
  case viadd | visub | vimul | vimulh | vimin | vimax | vsll | vsrl | vsra => exact h.intWord
  case vand | vor | vxor => exact h.bitWord
  case vmand | vmor | vmxor | vmnot => exact h.maskLogic
  case vmpop | vmfirst => exact h.xrun
  case viota => exact h.semViota
  case vxtr => exact h.semVxtr
  case jcmd => exact h.semJcmd
  case jend => exact h.semJend
  case jwait => exact h.semJwait
  case jpoll => exact h.semJpoll
  case jpop => exact h.semJpop
  case ringdef => exact h.semRingdef
  case ringadv => exact h.semRingadv
  case ringst => exact h.semRingst
  case trap => exact h.semTrap
  case tret => exact h.semTret
  case syscReadContext => exact h.semSyscReadContext
  case syscPagerRequest => exact h.semSyscPagerRequest
  case syscPagerTake => exact h.semSyscPagerTake
  case syscPagerReply => exact h.semSyscPagerReply
  case mfs => exact h.semMfs
  case mts => exact h.semMts
  case yield => exact h.semYield
  case tend => exact h.semTend
  case lnch => exact h.semLnch
  case fcall => exact h.semFcall
  case fawait => exact h.semFawait
  case fpoll => exact h.semFpoll
  case fcancel => exact h.semFcancel
  case qtzr => exact h.semQtzr
  case qtzrUntil => exact h.semQtzrUntil
  case lttld => exact h.semLttld
  case dbg => exact h.semDbg
  all_goals trivial

theorem run {t : Slot} : OkAll DoneCanonical (t.run s) := by
  unfold Slot.run
  split
  · trivial
  · exact h.frame.checked fun _ ht => ht.slotSem

theorem slotStop {t : Slot} {e : Stop} : NextCanonical (t.stop s e) := by
  unfold Slot.stop
  split
  · exact h.frame.modMe
  · exact h.frame.trapStop
  · exact h.frame.fatalError
  · exact h.frame.watchStop

omit h in
theorem endsStep {t : Slot} {d : Done} (hd : DoneCanonical d) : SomeAll Canon (endsStep s t d) := by
  cases d with
  | at_ u => exact .ite trivial (.ite hd trivial)
  | next _ => trivial
  | jump _ _ => trivial
  | hold _ _ => trivial
  | raise _ _ _ _ => trivial

theorem markSlot {σ : StrandId} : Canon (s.markSlot σ) := h.frame.modStrand

theorem performSlots {a : List Slot} : OkAll Canon (performSlots a s) := by
  induction a generalizing s with
  | nil => exact h
  | cons t ts ih =>
    have ran : OkAll DoneCanonical (t.run s) := h.run
    unfold Machine.performSlots
    refine .ite (ih h) ?_
    split
    · exact .ite (ih h.modStrand) trivial
    · trivial
    · rename_i e
      have next := ran.of_eq e
      exact ih (Canon.markSlot next)
    · rename_i e
      have held := ran.of_eq e
      exact ih (Canon.modStrand held)
    · exact ih h

theorem endBundle {next : Word} : Canon (s.endBundle next) := h.frame.complete

theorem raisePast {s0 : State} (h0 : Canon s0) {σ : StrandId} {next : Word} {cause detail : ℕ} {val : Word} :
    Canon (State.raisePast s0 s σ next cause detail val) := by
  have landed : Canon (s.landCore s.core.idx Core.landAll) := h.landCore
  unfold State.raisePast
  dsimp only
  split
  · rename_i e
    exact (landed.drainCore.fst_of_eq e).fatalError
  · rename_i e
    exact .ite (landed.drainCore.fst_of_eq e).endBundle.takeTrap h0.modStrand

theorem lastSlots {s0 : State} (h0 : Canon s0) {next : Word} {trap : Option (StrandId × ℕ × ℕ × Word)} {ts : List Slot} :
    NextCanonical (lastSlots s0 next trap ts s) := by
  induction ts generalizing s next trap with
  | nil =>
    cases trap with
    | none => exact h.endBundle
    | some p => exact raisePast h h0
  | cons t ts ih =>
    have ran : OkAll DoneCanonical (t.run s) := h.run
    unfold Machine.lastSlots
    refine .ite (ih h) ?_
    revert ran
    cases t.run s with
    | error e => exact fun _ => h.slotStop (e := e)
    | ok d =>
      cases d with
      | jump u a => exact fun hu => ih hu
      | raise u cause detail val => exact fun hu => ih hu
      | at_ u => exact id
      | next u => exact fun hu => ih hu
      | hold u code => exact fun hu => Canon.modStrand hu

theorem performBundle {ts : List Slot} : NextCanonical (s.performBundle ts) := by
  unfold State.performBundle
  split
  · exact h.slotStop
  · rename_i t e
    have performed : Canon t := h.performSlots.of_eq e
    exact .ite performed (lastSlots performed performed)

theorem markWaits {ts : List Slot} : Canon (s.markWaits ts) := h.foldl fun _ _ ht => ht.modStrand

theorem firstStop {a : List Slot} : SomeAll NextCanonical (s.firstStop a) := by
  induction a with
  | nil => trivial
  | cons t ts ih =>
    have ran : OkAll DoneCanonical (t.run s) := h.run
    unfold State.firstStop
    split
    · exact ih
    · exact h.slotStop
    · rename_i e
      split
      · rename_i u e2
        exact (endsStep (ran.of_eq e)).of_eq e2
      · exact ih

theorem bundleStop {ts : List Slot} : SomeAll NextCanonical (s.bundleStop ts) := by
  unfold State.bundleStop
  refine .ite h.markWaits ?_
  split
  · exact h.firstStop
  · split
    · exact .intro h.slotStop
    · exact h.firstStop

theorem issueBundle {ts : List Slot} : NextCanonical (s.issueBundle ts) := by
  have landed : Canon ({ s with cur := .k } : State).landForIssue := h.frame.landForIssue
  unfold State.issueBundle
  refine .ite (Canon.ite h.frame h.frame.advance) (.ite landed.performBundle ?_)
  split
  · exact landed.slotStop
  · cases e : State.bundleStop _ _ with
    | some o => exact landed.bundleStop.of_eq e
    | none => exact landed.performBundle

/-! ### Slots: Fetching the code -/

theorem fetchStop {a : Stop} : NextCanonical (s.fetchStop a) := by
  unfold State.fetchStop
  split
  · exact h.modMe
  · exact h.trapStop
  · exact h.fatalError
  · exact h.watchStop

theorem execBundleIssue {wl wx ws wk : BitVec 32} : NextCanonical (execBundleIssue wl wx ws wk s) := .ite h h.issueBundle

/-! ### Deadlock -/

theorem execDeadlockDetect {k : ℕ} : NextCanonical (execDeadlockDetect k s) := .ite h (.ite h h.focus.trapStop.focus)

/-! ### Dispatch -/

theorem exec {i : Instr} : NextCanonical (exec i s) := by
  unfold Machine.exec
  cases i
  case nop => exact h.issue fun _ ht => ht.semNop
  case fence => exact h.issue fun _ ht => ht.semFence
  case commit => exact h.issue fun _ ht => ht.semCommit
  case abort => exact h.issue fun _ ht => ht.semAbort
  case wfe => exact h.issue fun _ ht => ht.semWfe
  case tsig => exact h.issue fun _ ht => ht.semTsig
  case twait => exact h.issue fun _ ht => ht.semTwait
  case ttry => exact h.issue fun _ ht => ht.semTtry
  case ccset => exact h.issue fun _ ht => ht.semCcset
  case ccclr => exact h.issue fun _ ht => ht.semCcclr
  case ccwait => exact h.issue fun _ ht => ht.semCcwait
  case join => exact h.issue fun _ ht => ht.semJoin
  case add | sub | and | or | xor | andn | sll | srl | sra | rol | mul | mulh | mulhu | min | max | minu | maxu | slt | sltu | seq =>
    exact h.issue fun _ ht => ht.alu2
  case div | divu | rem | remu | divw | remw => exact h.issue fun _ ht => ht.divOp
  case clz | ctz | popc | addi | andi | ori | xori | slli | srli | srai | slti | sltiu | movhi => exact h.issue fun _ ht => ht.alu1
  case beq | bne | blt | bge | bltu | bgeu => exact h.issue fun _ ht => ht.branchIf
  case j => exact h.issue fun _ ht => ht.branch
  case jal => exact h.issue fun _ ht => ht.semJal
  case call => exact h.issue fun _ ht => ht.call
  case jr => exact h.issue fun _ ht => ht.semJr
  case callr => exact h.issue fun _ ht => ht.semCallr
  case ret => exact h.issue fun _ ht => ht.semRet
  case loop => exact h.issue fun _ ht => ht.semLoop
  case loopi => exact h.issue fun _ ht => ht.startLoop
  case lstep => exact h.issue fun _ ht => ht.semLstep
  case lfirst | llast => exact h.issue fun _ ht => ht.markCheck
  case lbreak => exact h.issue fun _ ht => ht.semLbreak
  case ldb | ldbu | ldh | ldhu | ldw | ldwu | ldd => exact h.issue fun _ ht => ht.scalarLoad
  case stb | sth | stw | std => exact h.issue fun _ ht => ht.scalarStore
  case bararr => exact h.issue fun _ ht => ht.semBararr
  case barwait => exact h.issue fun _ ht => ht.semBarwait
  case barsync => exact h.issue fun _ ht => ht.semBarsync
  case dsync => exact h.issue fun _ ht => ht.semDsync
  case fork => exact h.issue fun _ ht => ht.semFork
  case mfc => exact h.issue fun _ ht => ht.semMfc
  case mtc => exact h.issue fun _ ht => ht.semMtc
  case mfcXq => exact h.issue fun _ ht => ht.semMfcXq
  case mtcQ3 => exact h.issue fun _ ht => ht.semMtcQ3
  case vld => exact h.issue fun _ ht => ht.semVld
  case vlds => exact h.issue fun _ ht => ht.semVlds
  case vldb => exact h.issue fun _ ht => ht.semVldb
  case probe => exact h.issue fun _ ht => ht.semProbe
  case pref => exact h.issue fun _ ht => ht.semPref
  case lda => exact h.issue fun _ ht => ht.semLda
  case nreq => exact h.issue fun _ ht => ht.semNreq
  case nwait => exact h.issue fun _ ht => ht.semNwait
  case ncancel => exact h.issue fun _ ht => ht.semNcancel
  case vst => exact h.issue fun _ ht => ht.semVst
  case vsts => exact h.issue fun _ ht => ht.semVsts
  case stl => exact h.issue fun _ ht => ht.semStl
  case amoadd | amomin | amomax | amoand | amoor | amoxor | amoswp | amocas => exact h.issue fun _ ht => ht.amo
  case vradd => exact h.issue fun _ ht => ht.semVradd
  case npub => exact h.issue fun _ ht => ht.semNpub
  case bst => exact h.issue fun _ ht => ht.semBst
  case vadd | vsub | vmul | vfma | vfms | vfnma | vmin | vmax | vabs | vneg | vrcp | vrsq | vexp2 | vlog2 | vscacc | vscalex | viabs =>
    exact h.issue fun _ ht => ht.typed
  case vcmp => exact h.issue fun _ ht => ht.semVcmp
  case vsel => exact h.issue fun _ ht => ht.semVsel
  case vcvt => exact h.issue fun _ ht => ht.semVcvt
  case vpack => exact h.issue fun _ ht => ht.semVpack
  case vunpk => exact h.issue fun _ ht => ht.semVunpk
  case vzp => exact h.issue fun _ ht => ht.semVzp
  case vredadd | vredmax | vredmin => exact h.issue fun _ ht => ht.reduction
  case vperm | vslide | vbcast | vmov => exact h.issue fun _ ht => ht.moveLanes
  case vclr => exact h.issue fun _ ht => ht.semVclr
  case viadd | visub | vimul | vimulh | vimin | vimax | vsll | vsrl | vsra => exact h.issue fun _ ht => ht.intWord
  case vand | vor | vxor => exact h.issue fun _ ht => ht.bitWord
  case vmand | vmor | vmxor | vmnot => exact h.issue fun _ ht => ht.maskLogic
  case vmpop | vmfirst => exact h.issue fun _ ht => ht.xrun
  case viota => exact h.issue fun _ ht => ht.semViota
  case vxtr => exact h.issue fun _ ht => ht.semVxtr
  case jcmd => exact h.issue fun _ ht => ht.semJcmd
  case jend => exact h.issue fun _ ht => ht.semJend
  case jwait => exact h.issue fun _ ht => ht.semJwait
  case jpoll => exact h.issue fun _ ht => ht.semJpoll
  case jpop => exact h.issue fun _ ht => ht.semJpop
  case ringdef => exact h.issue fun _ ht => ht.semRingdef
  case ringadv => exact h.issue fun _ ht => ht.semRingadv
  case ringst => exact h.issue fun _ ht => ht.semRingst
  case trap => exact h.issue fun _ ht => ht.semTrap
  case tret => exact h.issue fun _ ht => ht.semTret
  case syscReadContext => exact h.issue fun _ ht => ht.semSyscReadContext
  case syscPagerRequest => exact h.issue fun _ ht => ht.semSyscPagerRequest
  case syscPagerTake => exact h.issue fun _ ht => ht.semSyscPagerTake
  case syscPagerReply => exact h.issue fun _ ht => ht.semSyscPagerReply
  case mfs => exact h.issue fun _ ht => ht.semMfs
  case mts => exact h.issue fun _ ht => ht.semMts
  case yield => exact h.issue fun _ ht => ht.semYield
  case tend => exact h.issue fun _ ht => ht.semTend
  case lnch => exact h.issue fun _ ht => ht.semLnch
  case fcall => exact h.issue fun _ ht => ht.semFcall
  case fawait => exact h.issue fun _ ht => ht.semFawait
  case fpoll => exact h.issue fun _ ht => ht.semFpoll
  case fcancel => exact h.issue fun _ ht => ht.semFcancel
  case qtzr => exact h.issue fun _ ht => ht.semQtzr
  case qtzrUntil => exact h.issue fun _ ht => ht.semQtzrUntil
  case lttld => exact h.issue fun _ ht => ht.semLttld
  case dbg => exact h.issue fun _ ht => ht.semDbg
  case fget => exact h.execFget
  case fres => exact h.execFres
  case fext => exact h.execFext
  case bundleIssue => exact h.execBundleIssue
  case mma => exact h.execMma
  case mdist => exact h.execMdist
  case mtopk => exact h.execMtopk
  case mzero => exact h.execMzero
  case mload => exact h.execMload
  case mout => exact h.execMout
  case cpy => exact h.execCpy
  case cfill => exact h.execCfill
  case cgath => exact h.execCgath
  case cscat => exact h.execCscat
  case cring => exact h.execCring
  case commandRetire => exact h.execCommandRetire
  case stampMiss => exact h.execStampMiss
  case jobComplete => exact h.execJobComplete
  case jobTokenPush => exact h.execJobTokenPush
  case vectorBind => exact h.execVectorBind
  case xResultLand => exact h.execXResultLand
  case readResponse => exact h.execReadResponse
  case writeCompletion => exact h.execWriteCompletion
  case taskStart => exact h.execTaskStart
  case taskResume => exact h.execTaskResume
  case placementDecision => exact h.execPlacementDecision
  case preload => exact h.execPreload
  case vacate => exact h.execVacate
  case budgetOverrun => exact h.execBudgetOverrun
  case contextSave => exact h.execContextSave
  case saveComplete => exact h.execSaveComplete
  case deadlockDetect => exact h.execDeadlockDetect
  case ctxkillWrite => exact h.execCtxkillWrite
  case ctxReset => exact h.execCtxReset
  case ctxResetComplete => exact h.execCtxResetComplete
  case ctxEnable => exact h.execCtxEnable
  case ctxDisable => exact h.execCtxDisable
  case lqTailUpdate => exact h.execLqTailUpdate
  case launchTake => exact h.execLaunchTake
  case pagerTaskPlace => exact h.execPagerTaskPlace
  case pagerdescWrite => exact h.execPagerdescWrite
  case pagercfgWrite => exact h.execPagercfgWrite
  case pagerReplyArrival => exact h.execPagerReplyArrival
  case cssplitWrite => exact h.execCssplitWrite
  case cssplitChange => exact h.execCssplitChange
  case mscWindowEnable => exact h.execMscWindowEnable
  case mscWindowDisable => exact h.execMscWindowDisable
  case mscWindowFill => exact h.execMscWindowFill
  case mscFadeBoundary => exact h.execMscFadeBoundary
  case homeAgentRequest => exact h.execHomeAgentRequest
  case prbs => exact h.execPrbs
  case prbx => exact h.execPrbx
  case prbsys => exact h.execPrbsys
  case probeResponse => exact h.execProbeResponse
  case notheld => exact h.execNotheld
  case pinRetry => exact h.execPinRetry
  case hptEpochEnd => exact h.execHptEpochEnd
  case migSubmit => exact h.execMigSubmit
  case migLineCopy => exact h.execMigLineCopy
  case migComplete => exact h.execMigComplete
  case migCompletionRecord => exact h.execMigCompletionRecord
  case migRelease => exact h.execMigRelease
  case ringFirstFlit => exact h.execRingFirstFlit
  case ringFlitReturn => exact h.execRingFlitReturn
  case ringReinsert => exact h.execRingReinsert
  case rackForward => exact h.execRackForward
  case rackReinsert => exact h.execRackReinsert
  case peerAccess => exact h.execPeerAccess
  case e2eRequest => exact h.execE2eRequest
  case e2eAck => exact h.execE2eAck
  case e2eTimeout => exact h.execE2eTimeout
  case linkSend => exact h.execLinkSend
  case linkDataFlit => exact h.execLinkDataFlit
  case linkAck => exact h.execLinkAck
  case linkNak => exact h.execLinkNak
  case linkAckTimer => exact h.execLinkAckTimer
  case linkNakTimer => exact h.execLinkNakTimer
  case lossOfLight => exact h.execLossOfLight
  case elsuFault => exact h.execElsuFault
  case linkNotice => exact h.execLinkNotice
  case linkTrainingDone => exact h.execLinkTrainingDone
  case linkTrainingLocked => exact h.execLinkTrainingLocked
  case linkRetrainResult => exact h.execLinkRetrainResult
  case windowWriteArrival => exact h.execWindowWriteArrival
  case windowAck => exact h.execWindowAck
  case zgPassFrame => exact h.execZgPassFrame
  case zgRegenerateFrame => exact h.execZgRegenerateFrame
  case zgLossReport => exact h.execZgLossReport
  case zgSyncMessage => exact h.execZgSyncMessage
  case zgDataBurst => exact h.execZgDataBurst
  case qtzCorrection => exact h.execQtzCorrection
  case zgTokenLossTimeout => exact h.execZgTokenLossTimeout
  case zgLossReportSlot => exact h.execZgLossReportSlot
  case zgRegenerate => exact h.execZgRegenerate
  case agateInterest => exact h.execAgateInterest
  case agateTileSegment => exact h.execAgateTileSegment
  case agateAnnouncement => exact h.execAgateAnnouncement
  case agateCancel => exact h.execAgateCancel
  case agateRefresh => exact h.execAgateRefresh
  case agateRefusal => exact h.execAgateRefusal
  case agateEntryExpiry => exact h.execAgateEntryExpiry
  case agateRecordExpiry => exact h.execAgateRecordExpiry
  case routingEntryWrite => exact h.execRoutingEntryWrite
  case futureDeadline => exact h.execFutureDeadline
  case remoteSendComplete => exact h.execRemoteSendComplete
  case remoteReply => exact h.execRemoteReply
  case prefillRecordWrite => exact h.execPrefillRecordWrite
  case futureWake => exact h.execFutureWake
  case qtzrWake => exact h.execQtzrWake
  case debugHalt => exact h.execDebugHalt
  case debugResume => exact h.execDebugResume
  case crossTrigger => exact h.execCrossTrigger
  case debugSample => exact h.execDebugSample
  case berylReplayLimit => exact h.execBerylReplayLimit
  case berylModeOff => exact h.execBerylModeOff
  case berylModeRecord => exact h.execBerylModeRecord
  case berylModeReplay => exact h.execBerylModeReplay
  case moduleReset => exact h.execModuleReset
  case bootGo => exact h.execBootGo
  case bootVerify => exact h.execBootVerify
  case attestRequest => exact h.execAttestRequest
  case attestReport => exact h.execAttestReport
  case clusterSleep => exact h.execClusterSleep
  case clusterWake => exact h.execClusterWake
  case coreSleep => exact h.execCoreSleep
  case coreWake => exact h.execCoreWake
  case correctedError => exact h.execCorrectedError
  case uncorrectableError => exact h.execUncorrectableError
  case eyeMarginLow => exact h.execEyeMarginLow
  case checkpointSave => exact h.execCheckpointSave
  case checkpointRestore => exact h.execCheckpointRestore
  case checkpointEnd => exact h.execCheckpointEnd
  case registerWrite => exact h.execRegisterWrite
  case ferleHartInstruction => exact h.execFerleHartInstruction
  case cranyLinkLaneLost => exact h.execCranyLinkLaneLost
  case memoryChannelRetrainDone => exact h.execMemoryChannelRetrainDone

/-! ### Schedule: A strand's turn -/

theorem fetchIssue : NextCanonical s.fetchIssue := by
  unfold State.fetchIssue
  refine .ite ?_ ?_
  · split
    · exact h.fetchStop
    · split
      · exact h.trapStop
      · exact h.exec
  · split
    · exact h.execBundleIssue
    · exact h.fetchStop
    · exact h.fetchStop
    · exact h.fetchStop
    · exact h.fetchStop

theorem issueTurn {σ : StrandId} : NextCanonical (s.issueTurn σ) := .ite h.frame (.ite h.frame.skip h.frame.fetchIssue)

/-! ### Schedule: A hart's turn -/

theorem hartTurn {h1 : ℕ} : NextCanonical (s.hartTurn h1) := by
  unfold State.hartTurn
  refine .ite h ?_
  dsimp only
  split
  · exact h.frame.putHart.hartTakes
  · exact h.frame
  · rename_i e
    have stopped : HStopCanonical _ := hartNext e
    exact h.frame.putHart.hartOutcome stopped
  · split
    · exact h.frame.putHart.execFget
    · exact h.frame.putHart.execFres
    · exact h.frame.putHart.execFext
    · exact h.frame.putHart.execFerleHartInstruction

/-! ### Schedule: Steps of the module that are due -/

theorem tryStep {f : Due} (hf : DueKeeps f) : SomeAll NextCanonical (tryStep s f) := by
  unfold Machine.tryStep
  split
  · rename_i e
    exact .ite trivial (.intro ((hf _ h).of_eq e))
  · exact hf _ h

theorem firstDue {fs : List Due} (hfs : DuesKeep fs) : SomeAll NextCanonical (firstDue s fs) := by
  induction fs with
  | nil => trivial
  | cons f fs ih =>
    unfold Machine.firstDue
    split
    · rename_i e
      exact (tryStep h (hfs f (by simp))).of_eq e
    · exact ih fun g hg => hfs g (List.mem_cons_of_mem f hg)

theorem onCore {k : ℕ} {f : Due} (hf : DueKeeps f) : NextCanonical (onCore k f s) := by
  unfold Machine.onCore
  split
  · rename_i e
    exact (tryStep h.focus hf).of_eq e
  · exact h

omit h in
theorem opDues : DuesKeep (opDues s) := by
  refine .flatMap fun c => .map fun o _ ht => ht.onCore fun _ hu => ?_
  split
  · exact hu.execReadResponse
  · exact hu.execReadResponse
  · exact hu.execWriteCompletion

theorem commandDue {j : Job} : NextCanonical (commandDue j s) := by
  unfold Machine.commandDue
  split
  · exact h.execMma
  · exact h.execMdist
  · exact h.execMtopk
  · exact h.execMzero
  · exact h.execMload
  · exact h.execMout
  · exact h.execCpy
  · exact h.execCfill
  · exact h.execCgath
  · exact h.execCscat
  · exact h.execCring
  · exact h

omit h in
theorem jobDues : DuesKeep (jobDues s) :=
  .append (.map fun _ _ ht => ht.execCommandRetire) (.flatMap fun _ =>
    .cons (fun _ ht => ht.execStampMiss) (.cons (fun _ ht => ht.commandDue) (.cons (fun _ ht => ht.execJobComplete)
      (.cons (fun _ ht => ht.execJobTokenPush) .nil))))

omit h in
theorem queueDues : DuesKeep (queueDues s) :=
  .append (.map fun _ _ ht => ht.execCtxResetComplete) (.flatMap fun _ =>
    .cons (fun _ ht => ht.execLqTailUpdate) (.cons (fun _ ht => ht.execLaunchTake) .nil))

omit h in
theorem wakeDues : DuesKeep (wakeDues s) := .map fun _ _ ht => ht.execFutureWake

omit h in
theorem taskDues : DuesKeep (taskDues s) := by
  refine .append wakeDues (.flatMap fun t => .append (.cons (fun u hu => ?_) (.cons (fun _ hu => hu.execTaskStart)
    (.cons (fun _ hu => hu.execTaskResume) .nil))) (.ite (.cons (fun _ hu => hu.execVacate) .nil) .nil))
  split
  · exact .ite hu hu.execClusterWake
  · exact hu

theorem placeDue : NextCanonical (placeDue s) := by
  have checked : Canon s.recheckPreloads := h.recheckPreloads
  unfold Machine.placeDue
  refine .ite checked ?_
  split
  · exact checked.execPlacementDecision
  · exact checked.foldl fun t k ht => ht.offerVain

omit h in
theorem coreDues : DuesKeep (coreDues s) :=
  .flatMap fun _ => .ite .nil (.cons (fun _ ht => ht.execBudgetOverrun) (.cons (fun _ ht => ht.execContextSave)
    (.cons (fun _ ht => ht.execSaveComplete) (.cons (fun _ ht => ht.execCoreSleep)
      (.cons (fun _ ht => .ite ht.execDeadlockDetect ht) .nil)))))

omit h in
theorem clusterDues : DuesKeep (clusterDues s) := by
  refine .append (.append (.append (.map fun _ _ ht => ht.execPreload) (.map fun _ _ ht => ht.execPagerTaskPlace))
    (.map fun _ _ ht => ht.endPager)) (.filterMap fun g => .ite (.intro fun _ ht => ht.execCssplitChange) trivial)

omit h in
theorem cohDues : DuesKeep (cohDues s) := by
  refine .append (.append (.append (.append
    (.flatMap fun _ => .cons (fun _ ht => ht.execNotheld) (.cons (fun _ ht => ht.execProbeResponse) .nil))
    (.map fun _ _ ht => ht.execPinRetry)) (.map fun _ _ ht => ht.execHomeAgentRequest))
      (.flatMap fun m => .cons (fun _ ht => ht.recallNew)
      (.append ?_ (.cons (fun _ ht => ht.execMigComplete) .nil)))) (.cons (fun _ ht => ht.execMigCompletionRecord) .nil)
  split
  · exact .cons (fun _ ht => ht.execMigLineCopy) .nil
  · exact .nil

omit h in
theorem linkDues : DuesKeep (linkDues s) := by
  refine .append (.flatMap fun l => .append (.cons (fun _ ht => ht.execLinkAckTimer) (.cons (fun _ ht => ht.execLinkNakTimer)
    (.cons (fun _ ht => ht.execLinkTrainingDone) .nil))) ?_) (.filterMap fun w => ?_)
  · split
    · exact .ite (.cons (fun _ ht => ht.execLinkSend) .nil) .nil
    · exact .nil
  · cases s.laneFor w.1 with
    | none => trivial
    | some g => exact fun _ ht => ht.execLinkSend

omit h in
theorem fabDues : DuesKeep (fabDues s) := by
  refine .append (.append (.append (.append (.append (.append (.filterMap fun r => ringSlotDue) (.map fun r _ ht => ?_))
    (.cons (fun _ ht => ht.enterWaiting) linkDues)) (.map fun _ _ ht => ht.execE2eTimeout)) (.map fun _ _ ht => ht.execPeerAccess))
    (.map fun _ _ ht => ht.execWindowWriteArrival)) (.map fun _ _ ht => ht.execWindowAck)
  split
  · exact ht.execRackReinsert
  · exact ht.execRingReinsert

omit h in
theorem zgDues : DuesKeep (zgDues s) :=
  .append (.append (.flatMap fun _ => .cons (fun _ ht => ht.execZgPassFrame) (.cons (fun _ ht => ht.execZgRegenerateFrame)
    (.cons (fun _ ht => ht.execZgLossReport) .nil)))
      (.cons (fun _ ht => ht.zgWork) (.ite (.map fun _ _ ht => ht.execZgTokenLossTimeout) .nil)))
    (.flatMap fun _ => .cons (fun _ ht => ht.execZgLossReportSlot) (.cons (fun _ ht => ht.execZgRegenerate) .nil))

theorem agateDue {rt kind : ℕ} {m : AgMsg} {down : ℕ} : NextCanonical (agateDue rt kind m down s) := by
  unfold Machine.agateDue
  split
  · exact h.execAgateInterest
  · exact h.execAgateTileSegment
  · exact h.execAgateAnnouncement
  · exact h.execAgateCancel
  · exact h.execAgateRefresh
  · exact h.execAgateRefusal

omit h in
theorem agateDues : DuesKeep (agateDues s) :=
  .append (.append (.map fun _ _ ht => ht.agateDue) (.map fun _ _ ht => ht.execAgateEntryExpiry))
    (.map fun _ _ ht => ht.execAgateRecordExpiry)

omit h in
theorem unitDues : DuesKeep (unitDues s) :=
  .append (.append (.append (.append (.flatMap fun _ => .cons (fun _ ht => ht.execFutureDeadline)
    (.cons (fun _ ht => ht.execPrefillRecordWrite) .nil)) (.ite (.cons (fun _ ht => ht.execBootVerify) .nil) .nil))
    (.ite (.cons (fun _ ht => ht.execAttestReport) .nil) .nil)) (.ite (.cons (fun _ ht => ht.execCheckpointEnd) .nil) .nil))
    (.map fun _ _ ht => ht.execBerylReplayLimit)

theorem dueStep : SomeAll NextCanonical s.dueStep := by
  have placing : DueKeeps Machine.placeDue := fun _ ht => ht.placeDue
  exact firstDue h (.append (.append (.append
    (.append (.append (.append (.append (.append (.append (.append opDues jobDues) queueDues) taskDues)
    (.cons placing coreDues)) clusterDues) cohDues) fabDues) zgDues) agateDues) unitDues)

/-! ### Schedule: A cycle -/

theorem runAll {fs : List Due} (hfs : DuesKeep fs) : Canon (s.runAll fs) := by
  unfold State.runAll
  exact List.foldlRecOn fs _ h fun t ht f hf => ht.after (hfs f hf t ht)

omit h in
theorem clockDues : DuesKeep (clockDues s) :=
  .append (.append (.ite (.cons (fun _ ht => ht.execHptEpochEnd) (.map fun _ _ ht => ht.execMscFadeBoundary)) .nil)
    (.ite (.map fun _ _ ht => ht.execDebugSample) .nil)) (.cons (fun _ ht => ht.execQtzCorrection) .nil)

omit h in
theorem arbDues : DuesKeep (arbDues s) := .map fun _ _ ht => ht.execVectorBind

theorem passCycle : Canon s.passCycle := by
  have landed : Canon ((s.allCores.filter Core.xIdle).foldl (fun s c => s.landCore c.idx Core.landAll) s) := h.foldl fun _ _ ht =>
    ht.landCore
  have ticked {l : List Core} {t : State} (ht : Canon t) : Canon (l.foldl (fun s c => s.modCore c.idx Core.tick) t) :=
    ht.foldl fun _ _ hu => hu.modCore
  exact runAll (runAll (ticked landed).frame arbDues) clockDues

/-! ### Schedule: The next step -/

theorem runTurn {a : Turn} : NextCanonical (s.runTurn a) := by
  unfold State.runTurn
  split
  · exact h.issueTurn
  · exact h.exec
  · exact h.passCycle
  · exact h.hartTurn
  · exact Canon.ite h.focus h
  · exact h.execCrossTrigger

theorem rotate : NextCanonical s.rotate := by
  unfold State.rotate
  split
  · exact h.passCycle
  · rename_i n _
    have moved : Canon ({ s with turn := n + 2 } : State) := h.frame
    split
    · exact moved.hartTurn
    · exact moved.focus.issueTurn

theorem freeStep : NextCanonical s.freeStep := by
  unfold State.freeStep
  refine .ite ?_ h.rotate
  split
  · rename_i e
    exact h.dueStep.of_eq e
  · exact h.frame

/-! ### Step -/

theorem step : NextCanonical (step s) := by
  unfold Machine.step
  split
  · exact h.frame.runTurn
  · exact h.freeStep

end
end Canon

/-- Settles O58: every word and event of the model leaves memory and the stores in canonical form (`Canon.step`). -/
theorem stepKeepsCanonical : Obligations.StepKeepsCanonical := by
  unfold Obligations.StepKeepsCanonical
  intro s t ⟨hmem, hstore⟩ e
  obtain ⟨hmem', hstore'⟩ := (Canon.mk hmem hstore).step.of_eq e
  exact ⟨hmem', hstore'⟩

end Sys2Proof.Machine

namespace Sys2Proof.Machine

/-! ### What reset leaves (R47, R222, R401, R433) -/

/-- A context's registers, within the map of R401. -/
theorem regSpec_ctx {c o : Nat} (hc : c < 64) (ho : o < 0x1000) (aligned : o % 8 = 0) : regSpec (ctxBase c + o) = ctxSpec o := by
  unfold regSpec ctxBase
  rw [if_neg (by omega), if_neg (by omega), if_pos (by omega)]
  congr 1
  omega

/-- A cluster's registers, within the map of R401. -/
theorem regSpec_cluster {g o : Nat} (hg : g < 256) (ho : o < 0x10000) (aligned : o % 8 = 0) :
    regSpec (clusterBase g + o) = clusterSpec (decide (g < 32)) o := by
  unfold regSpec clusterBase
  rw [if_neg (by omega), if_neg (by omega), if_neg (by omega), if_neg (by omega), if_neg (by omega), if_pos (by omega)]
  dsimp only
  rw [if_pos (by omega)]
  congr 1
  · exact decide_eq_decide.mpr (by omega)
  · omega

theorem State.reset_reg (a : Nat) : State.reset.reg a = BitVec.ofNat 64 (regSpec a).reset := rfl

theorem State.reset_coreAt (k : Nat) : State.reset.coreAt k = Core.reset k := by
  unfold State.coreAt
  split
  · next h => subst h; rfl
  · rfl

/-- Settles O50: nothing is listed after reset, so a core is its reset value and a register the one its place in R401's map gives. -/
theorem resetState : Obligations.ResetState := by
  refine ⟨⟨wf_nil, wf_nil⟩, rfl, rfl, rfl, rfl, fun k => ?_, fun c hc => ?_, fun g hg => ?_, rfl, rfl⟩
  · rw [State.reset_coreAt]
    exact ⟨rfl, rfl, rfl, rfl, rfl⟩
  · simp only [State.reset_reg]
    rw [regSpec_ctx hc (by omega) rfl, regSpec_ctx hc (by omega) rfl, regSpec_ctx hc (by omega) rfl]
    exact ⟨rfl, rfl, rfl⟩
  · rw [State.reset_reg, regSpec_cluster hg (by omega) rfl]
    rfl

/-! ### Registers that a write of another one leaves -/

theorem aget_adel_of_ne {α : Type} (d : α) {j k : Nat} (h : j ≠ k) (l : List (Nat × α)) : aget d j (adel k l) = aget d j l := by
  induction l with
  | nil => rfl
  | cons p l ih =>
    rw [adel, List.filter_cons, ← adel]
    by_cases e : p.1 = k
    · rw [if_neg (by simp [e]), ih, aget, if_neg (by omega)]
    · rw [if_pos (by simp [e]), aget, aget, ih]

theorem aget_aset_of_ne {α : Type} (d v : α) {j k : Nat} (h : j ≠ k) (l : List (Nat × α)) : aget d j (aset k v l) = aget d j l := by
  induction l with
  | nil => exact if_neg (Ne.symm h)
  | cons p l ih =>
    rw [aset]
    split_ifs with below same
    · exact if_neg (Ne.symm h)
    · rw [aget, if_neg (Ne.symm h), aget, if_neg (by omega)]
    · rw [aget, aget, ih]

theorem aget_aput_of_ne {α : Type} [DecidableEq α] (d e v : α) {j k : Nat} (h : j ≠ k) (l : List (Nat × α)) :
    aget d j (aput e k v l) = aget d j l := by
  unfold aput
  split
  · exact aget_adel_of_ne d h l
  · exact aget_aset_of_ne d v h l

theorem State.reg_setReg_of_ne (s : State) {a b : Nat} (h : a ≠ b) (v : Word) : (s.setReg b v).reg a = s.reg a :=
  aget_aput_of_ne _ _ v h s.dev

theorem State.reg_count_of_ne (s : State) {a b : Nat} (h : a ≠ b) : (s.count b).reg a = s.reg a := s.reg_setReg_of_ne h _

/-! ### The split of a cluster store (R47, R48) -/

/-- A split that no write has asked for, or that a task of the cluster holds up, does not change. -/
theorem execCssplitChange_of_held {s : State} {g : Nat} (h : bitAt (s.reg (splitReg g)) 9 = false ∨ s.clusterHolds g = true) :
    execCssplitChange g s = .next s := by
  refine if_pos ?_
  rcases h with pending | held
  · simp [pending]
  · simp [held]

/-- A split that is asked for, while no core of the cluster holds a task, takes effect. -/
theorem execCssplitChange_of_free {s : State} {g : Nat} (pending : bitAt (s.reg (splitReg g)) 9 = true) (free : s.clusterHolds g = false) :
    execCssplitChange g s =
      let cl : Cluster := aget Cluster.reset g s.clusters
      let size := bitsAt (s.reg (splitReg g)) 0 2
      let top := max (l1Bytes cl.split) (l1Bytes size)
      let u := s.dropL1 g
      .next ((({ u with
        store := u.store.filter fun c => !(c.1 / 2 ^ 21 == g && decide (2 ^ 18 - top ≤ c.1 % 2 ^ 18))
        clusters := aput Cluster.reset g (cl.withSplit size) u.clusters } : State).dropRings g).setFld (splitReg g) 8 2 0) :=
  if_neg (by simp [pending, free])

/-! ### Windows of the memory-side cache (R60-R62) -/

/-- A write with `EN` = 0 to a window that is not enabled reaches all of the register. -/
theorem execMscWindowDisable_of_closed {s : State} {st n : Nat} (v : Word) (closed : s.mscEnabled st n = false) :
    execMscWindowDisable st n v s = .next (((s.writeReg (mscBase st n + 8) v).setFld (mscBase st n + 8) 61 1 0).mscRepin st) := by
  unfold execMscWindowDisable
  simp [closed]

/-- A write with `EN` = 0 to an enabled window ends it. -/
theorem execMscWindowDisable_of_open {s : State} {st n : Nat} (v : Word) (opened : s.mscEnabled st n = true) :
    execMscWindowDisable st n v s = .next ((((s.setFld (mscBase st n + 8) 63 1 0).setFld (mscBase st n + 8) 60 1
      (if bitAt v 60 then 0 else s.rfld (mscBase st n + 8) 60 1)).setFld (mscBase st n + 8) 61 1 0).mscRepin st) := by
  unfold execMscWindowDisable
  simp [opened]

/-- A write with `EN` = 1 to a window that is not enabled enables it if it is admitted (R60, R61). -/
theorem execMscWindowEnable_of_closed {s : State} {st n : Nat} (v : Word) (closed : s.mscEnabled st n = false) :
    execMscWindowEnable st n v s = .next (
      let a := mscBase st n + 8
      if (s.writeReg a v).mscAdmits st n then (((s.writeReg a v).setFld a 61 1 1).setFld a 59 1 0).setFld a 40 8 (bitsAt v 48 8)
      else (s.setFld a 60 1 (if bitAt v 60 then 0 else s.rfld a 60 1)).setFld a 59 1 1) := by
  unfold execMscWindowEnable
  rw [if_neg (by simp [closed])]
  exact (apply_ite Host.Outcome.next _ _ _).symm

theorem execMscWindowFill_of_idle {s : State} {st n : Nat}
    (h : bitAt (s.reg (mscBase st n + 8)) 62 = false ∨ bitAt (s.reg (mscBase st n + 8)) 61 = false) :
    execMscWindowFill st n s = .next s := by
  refine if_neg ?_
  rcases h with h | h <;> simp [h]

theorem State.mscRange_mscFetch (s : State) (st n line : Nat) : (s.mscFetch st line).mscRange st n = s.mscRange st n := by
  have counted : (s.mscPin st line).2.mscRange st n = s.mscRange st n := by
    unfold State.mscPin
    dsimp only
    split
    · rfl
    · unfold State.mscRange State.rfld
      rw [State.reg_count_of_ne _ (by unfold mscBase; omega), State.reg_count_of_ne _ (by unfold mscBase; omega)]
  unfold State.mscFetch
  split
  · rfl
  · exact counted

/-- The lines of a window's range, fetched one after another, are those of the range at the start: no fetch changes the range. -/
theorem State.foldl_mscFetch_mscRange (s t : State) (st n : Nat) (l : List Nat) (same : t.mscRange st n = s.mscRange st n) :
    l.foldl (fun u i => u.mscFetch st ((u.mscRange st n).1 / 2048 + i)) t = l.foldl (fun u i => u.mscFetch st ((s.mscRange st n).1 / 2048 + i)) t := by
  induction l generalizing t with
  | nil => rw [List.foldl_nil, List.foldl_nil]
  | cons i l ih =>
    simp only [List.foldl_cons, same]
    exact ih (t.mscFetch st ((s.mscRange st n).1 / 2048 + i)) ((t.mscRange_mscFetch st n _).trans same)

/-- A window that acts and fetches in the background has every line of its range fetched. -/
theorem execMscWindowFill_of_filling {s : State} {st n : Nat} (acts : bitAt (s.reg (mscBase st n + 8)) 61 = true)
    (fills : bitAt (s.reg (mscBase st n + 8)) 62 = true) :
    execMscWindowFill st n s =
      .next ((List.range ((s.mscRange st n).2 / 2048)).foldl (fun s i => s.mscFetch st ((s.mscRange st n).1 / 2048 + i)) s) := by
  have lines := State.foldl_mscFetch_mscRange s s st n (List.range ((s.mscRange st n).2 / 2048)) rfl
  simp only [execMscWindowFill, acts, fills, Bool.and_self, if_true, lines]

/-- A window that does not act, or has no fade count, does not fade. -/
theorem State.fadeWindow_of_fixed {s : State} {st n : Nat}
    (h : bitAt (s.reg (mscBase st n + 8)) 61 = false ∨ s.rfld (mscBase st n + 8) 48 8 = 0) : s.fadeWindow st n = s := by
  refine if_pos ?_
  rcases h with idle | fixed
  · simp [idle]
  · rw [State.rfld] at fixed
    simp [fixed]

/-- What a fade period does to a window that fades: touched, it starts over; else it counts down, and ends when the count runs out (R62). -/
theorem State.fadeWindow_of_fading {s : State} {st n : Nat} (acts : bitAt (s.reg (mscBase st n + 8)) 61 = true)
    (fades : s.rfld (mscBase st n + 8) 48 8 ≠ 0) :
    s.fadeWindow st n =
      let a := mscBase st n + 8
      if s.coh.touched.contains (64 * st + n) then s.setFld a 40 8 (s.rfld a 48 8)
      else if s.rfld a 40 8 ≤ 1 then
        (((((s.setFld a 40 8 0).setFld a 61 1 0).setFld a 63 1 0).setFld a 60 1 1).mscRepin st).superEvent
      else s.setFld a 40 8 (s.rfld a 40 8 - 1) := by
  rw [State.rfld] at fades
  exact if_neg (by simp [acts, fades])

/-- Settles O35: each step by the branch that its hypotheses choose. -/
theorem storesAndMscWindows : Obligations.StoresAndMscWindows := by
  intro s g st n v a
  refine ⟨rfl, execCssplitChange_of_held, fun pending free size top cl u hsize hcl htop hu => ?_, execMscWindowDisable_of_closed v,
    execMscWindowDisable_of_open v, fun opened => if_pos opened, fun closed admitted => ?_, fun closed refused => ?_,
    execMscWindowFill_of_idle, execMscWindowFill_of_filling, fun early => if_pos early, fun due u hu => ?_,
    State.fadeWindow_of_fixed, fun acts fades => ⟨fun touched => ?_, fun untouched more => ?_, fun untouched last => ?_⟩⟩
  · subst hu htop hcl hsize
    exact execCssplitChange_of_free pending free
  · exact (execMscWindowEnable_of_closed v closed).trans (congrArg Host.Outcome.next (if_pos admitted))
  · exact (execMscWindowEnable_of_closed v closed).trans (congrArg Host.Outcome.next (if_neg (Bool.eq_false_iff.mp refused)))
  · subst hu
    exact if_neg (not_not_intro due)
  · rw [State.fadeWindow_of_fading acts fades]
    exact if_pos (List.contains_iff_mem.mpr touched)
  · rw [State.fadeWindow_of_fading acts fades]
    exact (if_neg (mt List.contains_iff_mem.mp untouched)).trans (if_neg (Nat.not_le_of_lt more))
  · rw [State.fadeWindow_of_fading acts fades]
    exact (if_neg (mt List.contains_iff_mem.mp untouched)).trans (if_pos last)

end Sys2Proof.Machine

namespace Sys2Proof.Machine

/-! ### Bytes that are copied -/

theorem cellRead_congr {m m' : List Host.Cell} {n x x' : Nat} (h : ∀ i < n, cellGet m (x + i) = cellGet m' (x' + i)) :
    cellRead m x n = cellRead m' x' n := by
  induction n generalizing x x' with
  | zero => rfl
  | succ n ih =>
    have rest : cellRead m (x + 1) n = cellRead m' (x' + 1) n := ih fun i hi => by
      have := h (i + 1) (by omega)
      rwa [Nat.add_right_comm, Nat.add_right_comm x'] at *
    rw [cellRead, cellRead, rest]
    exact congrArg (· :: _) (h 0 (by omega))

theorem cellGet_cons {m : List Host.Cell} {a lo : Nat} {b : Byte} (w : wfFrom lo ((a, b) :: m) = true) (x : Nat) :
    cellGet ((a, b) :: m) x = if a = x then b else cellGet m x := by
  simp only [wfFrom, Bool.and_eq_true] at w
  rw [cellGet]
  split_ifs with same below
  · rfl
  · exact (cellGet_below (by omega) w.2).symm
  · rfl

/-- Dropping cells by address leaves the bytes at the others. -/
theorem cellGet_filter (q : Nat → Bool) {m : List Host.Cell} {lo : Nat} (w : wfFrom lo m = true) (x : Nat) :
    cellGet (m.filter fun c => q c.1) x = if q x then cellGet m x else emptyByte := by
  induction m generalizing lo with
  | nil => exact (ite_self _).symm
  | cons c m ih =>
    obtain ⟨a, b⟩ := c
    have kept := wfFrom_filter (fun c => q c.1) w
    obtain ⟨-, rest⟩ := Bool.and_eq_true_iff.mp w
    rw [cellGet_cons w, List.filter_cons] at *
    by_cases keep : q a = true
    · rw [if_pos keep] at kept ⊢
      rw [cellGet_cons kept, ih rest]
      by_cases same : a = x
      · subst same; simp [keep]
      · simp only [if_neg same]
    · rw [if_neg keep, ih rest]
      by_cases same : a = x
      · subst same; simp [keep]
      · simp only [if_neg same]

/-- Cells written at a distance from their own addresses: a byte that they list takes its place, another stays. -/
theorem cellGet_foldl_cellSet {l m : List Host.Cell} {lo x dst : Nat} (wl : wfFrom lo l = true) (wm : Memory.wf m = true)
    (above : x ≤ lo) (i : Nat) :
    cellGet (l.foldl (fun m c => cellSet m (dst + (c.1 - x)) c.2) m) (dst + i) =
      if cellGet l (x + i) = emptyByte then cellGet m (dst + i) else cellGet l (x + i) := by
  induction l generalizing m lo with
  | nil => exact (if_pos rfl).symm
  | cons c l ih =>
    obtain ⟨a, b⟩ := c
    have head := cellGet_cons wl (x + i)
    simp only [wfFrom, Bool.and_eq_true, decide_eq_true_eq] at wl
    obtain ⟨⟨ha, hb⟩, rest⟩ := wl
    rw [List.foldl_cons, ih rest (wf_cellSet _ _ wm) (by omega), cellGet_cellSet wm, head]
    by_cases same : a = x + i
    · rw [if_pos (cellGet_below (by omega) rest), if_pos (by omega), if_pos same, if_neg hb]
    · rw [if_neg (show ¬dst + i = dst + (a - x) by omega), if_neg same]

/-- Canonical cells none of which lies below an address start at it. -/
theorem wfFrom_of_forall_le {m : List Host.Cell} {lo x : Nat} (w : wfFrom lo m = true) (above : ∀ c ∈ m, x ≤ c.1) : wfFrom x m = true := by
  cases m with
  | nil => rfl
  | cons c m =>
    have head : x ≤ c.1 := above c (by simp)
    simp only [wfFrom, Bool.and_eq_true, decide_eq_true_eq] at w ⊢
    exact ⟨⟨head, w.1.2⟩, w.2⟩

/-- A run that is copied reads at its new place as it did at the old one. -/
theorem cellRead_copyCells {src m : List Host.Cell} (ws : Memory.wf src = true) (wm : Memory.wf m = true) (x n dst : Nat) :
    cellRead (copyCells src x n m dst) dst n = cellRead src x n := by
  refine cellRead_congr fun i hi => ?_
  have cleared : cellGet (m.filter fun c => !(decide (dst ≤ c.1 ∧ c.1 < dst + n))) (dst + i) = emptyByte :=
    (cellGet_filter (fun a => !(decide (dst ≤ a ∧ a < dst + n))) wm _).trans (if_neg (by simp; omega))
  have taken : cellGet (src.filter fun c => decide (x ≤ c.1 ∧ c.1 < x + n)) (x + i) = cellGet src (x + i) :=
    (cellGet_filter (fun a => decide (x ≤ a ∧ a < x + n)) ws _).trans (if_pos (by simp; omega))
  have start : wfFrom x (src.filter fun c => decide (x ≤ c.1 ∧ c.1 < x + n)) = true :=
    wfFrom_of_forall_le (wf_filter _ ws) fun c hc => (of_decide_eq_true (List.mem_filter.mp hc).2).1
  unfold copyCells
  rw [cellGet_foldl_cellSet start (wf_filter _ wm) (le_refl x), cleared, taken]
  split_ifs with unlisted
  · exact unlisted.symm
  · rfl

/-! ### Hot pages and migration (R77-R84) -/

/-- A line that moves reads at its new place as it did at the old one (R80). -/
theorem State.cellRead_moveLine {s : State} (w : Memory.wf s.mem = true) (a b : Nat) :
    cellRead (s.moveLine a b).mem b 2048 = cellRead s.mem a 2048 :=
  cellRead_copyCells w w a 2048 b

/-- An epoch that ends clears the trackers; where they are on, the hot frames are proposed (R77). -/
theorem execHptEpochEnd_of_due {s : State} (due : s.now % 2 ^ (max 16 (min 30 (s.rfld 0x030 48 5))) = 0) :
    execHptEpochEnd s = .next (if bitAt (s.reg 0x030) 63 then
      (mergeTracks (s.coh.tracks.filter fun t => decide (s.rfld 0x030 0 16 ≤ t.count))).foldl State.propose (s.withCoh { s.coh with tracks := [] })
      else s.withCoh { s.coh with tracks := [] }) :=
  if_neg (not_not_intro due)

theorem execMigSubmit_of_idle {s : State} {v : Word} (idle : bitAt v 63 = false) : execMigSubmit v s = .next (s.writeReg 0x048 v) :=
  if_pos (by simp [idle])

theorem execMigRelease_of_idle {s : State} {v : Word} (idle : bitAt v 63 = false) : execMigRelease v s = .next (s.writeReg 0x050 v) :=
  if_neg (by simp [idle])

/-- A submission's status stands in `MIGCTL`, and one that passes its checks starts a migration (R79, R80). -/
theorem execMigSubmit_of_go {s : State} {v : Word} (go : bitAt v 63 = true) :
    execMigSubmit v s =
      let t := s.writeReg 0x048 v
      let u := t.setFld 0x048 48 8 t.migStatus
      let x : Mig := { old := u.rfld 0x038 16 36 * 2 ^ 16, new := u.rfld 0x040 16 36 * 2 ^ 16, size := u.rfld 0x038 0 5
                       nocopy := bitAt v 62, host := u.fmode 4, recalled := false, due := 0, copied := [] }
      if t.migStatus ≠ 1 then .next u else .next ((u.withCoh { u.coh with migs := u.coh.migs ++ [x] }).recallNew x) :=
  if_neg (by simp [go])

/-- The line that comes next is copied: recalled from the old frame and, unless nothing is copied, moved to the new one (R80). -/
theorem execMigLineCopy_of_next {s : State} {old line : Nat} {m : Mig} (found : s.coh.migs.find? (fun x => x.old == old) = some m)
    (next : s.migNext m = some line) :
    execMigLineCopy old line s =
      let t := s.recallRange (m.old + 2048 * line) 2048 false
      let u := if m.nocopy then t else (((t.recallRange (m.new + 2048 * line) 2048 false).moveLine (m.old + 2048 * line) (m.new + 2048 * line)).mscTouch
        (m.old + 2048 * line) 2048 2 false).mscTouch (m.new + 2048 * line) 2048 2 true
      .next (u.withCoh { u.coh with migs := u.coh.migs.map fun x => if x.old = old then { x with copied := line :: x.copied } else x }) := by
  unfold execMigLineCopy
  rw [found]
  exact if_neg (not_not_intro next)

theorem execMigComplete_of_found {s : State} {old : Nat} {m : Mig} (found : s.coh.migs.find? (fun x => x.old == old) = some m) :
    execMigComplete old s =
      if m.copied.length < 2 ^ m.size / 2048 then .next s
      else .next (s.withCoh { s.coh with
        migs := s.coh.migs.filter fun x => x.old != old, redirects := s.coh.redirects ++ [(m.old, m.new, m.size)]
        migDone := s.coh.migDone ++ [(mkWord [(2, 60), (0x02, 52), (m.old, 0)], mkWord [(m.new, 0), (m.size, 0)], m.host)] }) := by
  unfold execMigComplete
  rw [found]
  rfl

theorem execMigCompletionRecord_of_waiting {s : State} (h : s.coh.migDone = [] ∨ migRing.full s = true) : execMigCompletionRecord s = .next s := by
  unfold execMigCompletionRecord
  split
  · rfl
  · next r rs done => exact if_pos (h.resolve_left (by simp [done]))

/-- The first record that waits is written once the ring has room (R84). -/
theorem execMigCompletionRecord_of_room {s : State} {r : Word × Word × Bool} {rs : List (Word × Word × Bool)}
    (done : s.coh.migDone = r :: rs) (room : migRing.full s = false) :
    execMigCompletionRecord s =
      let t := migRing.put s [r.1, r.2.1]
      .next ((t.withCoh { t.coh with migDone := rs }).migEvent r.2.2) := by
  unfold execMigCompletionRecord
  rw [done]
  exact if_neg (by simp [room])
end Sys2Proof.Machine

namespace Sys2Proof.Machine

/-! ### Tags after a change to a super-line (R67) -/

@[simp] theorem Tag.withUnit_length (t : Tag) (u : Nat) (x : Moesi) : (t.withUnit u x).st.length = t.st.length := List.length_set

/-- The unit a tag is given takes its state, if the tag has such a unit. -/
theorem Tag.withUnit_unit (t : Tag) (u : Nat) (x : Moesi) : (t.withUnit u x).unit u = if u < t.st.length then x else .i := by
  simp only [Tag.withUnit, Tag.unit, List.getD_eq_getElem?_getD, List.getElem?_set, if_true]
  split <;> rfl

theorem Tag.withUnit_unit_i (t : Tag) (u : Nat) : (t.withUnit u .i).unit u = .i := (t.withUnit_unit u .i).trans (ite_self _)

/-- A tag that stands after a line is put in order stood before, but for the clusters that a die L2 names. -/
theorem Coh.mem_tags_tidy {c : Coh} {sl : Nat} {t : Tag} (h : t ∈ (c.tidy sl).tags) : ∃ r ∈ c.tags, ∃ clus, t = { r with clus := clus } := by
  obtain ⟨r, hr, rfl⟩ := List.mem_map.mp h
  refine ⟨r, (List.mem_filter.mp hr).1, ?_⟩
  split
  · exact ⟨_, rfl⟩
  · exact ⟨r.clus, rfl⟩

/-- A tag of a super-line whose tags change is the change of one that stood before, but for the clusters that a die L2 names. -/
theorem Coh.mem_tagsOf_modTags {c : Coh} {sl : Nat} {f : Tag → Tag} {t : Tag}
    (h : t ∈ (c.modTags sl f).tagsOf sl) : ∃ r ∈ c.tagsOf sl, ∃ clus, t = { f r with clus := clus } := by
  obtain ⟨ht, here⟩ := List.mem_filter.mp h
  obtain ⟨q, hq, clus, rfl⟩ := Coh.mem_tags_tidy ht
  obtain ⟨r, hr, rfl⟩ := List.mem_map.mp hq
  by_cases same : r.sline = sl
  · exact ⟨r, List.mem_filter.mpr ⟨hr, beq_iff_eq.mpr same⟩, clus, by rw [if_pos same]⟩
  · simp only [if_neg same, beq_iff_eq] at here
    exact absurd here same

/-! ### Probes and their answers (R70, R73-R75) -/

/-- What a probe of a kind leaves an agent of a unit: nothing it could write or evict silently and, unless it only downgrades, nothing at all. -/
def Moesi.yields (x : Moesi) (kind : Nat) : Prop := x ≠ .m ∧ x ≠ .e ∧ (kind ≠ 0 → x = .i)

theorem Moesi.yields_i (kind : Nat) : Moesi.yields .i kind := ⟨nofun, nofun, fun _ => rfl⟩

theorem Moesi.yields_probed (x : Moesi) (kind : Nat) : (x.probed kind).yields kind := by
  unfold Moesi.probed
  split
  · next downgrade => subst downgrade; cases x <;> exact ⟨nofun, nofun, nofun⟩
  · exact yields_i kind

/-- A recall leaves its agent nothing of the unit (R70). -/
theorem State.recallUnit_unit {s : State} {agent sl grain u : Nat} {discard : Bool} {t : Tag}
    (ht : t ∈ (s.recallUnit agent sl grain u discard).2.coh.tagsOf sl) (mine : t.agent = agent) : t.unit u = .i := by
  obtain ⟨r, -, clus, rfl⟩ := Coh.mem_tagsOf_modTags ht
  by_cases h : r.agent = agent
  · simp only [if_pos h]
    exact r.withUnit_unit_i u
  · simp only [if_neg h] at mine
    exact absurd mine h

/-- What an agent keeps, after a probe, of the unit under the contexts that the probe meets (R69, R70). -/
theorem State.probeAgent_yields {s : State} {agent ctx sl u kind : Nat} {t : Tag} (ht : t ∈ (s.probeAgent agent ctx sl u kind).2.coh.tagsOf sl)
    (mine : t.agent = agent) (met : ctxHits ctx t.ctx = true) : (t.unit u).yields kind := by
  unfold State.probeAgent at ht
  split at ht
  · rw [State.recallUnit_unit ht mine]
    exact Moesi.yields_i kind
  · dsimp only at ht
    split at ht
    · next missed =>
      have gone : t.unit u = .i := by
        by_contra held
        simp only [List.isEmpty_iff, List.filter_eq_nil_iff, List.mem_filter] at missed
        exact missed t ⟨ht, by simp [mine, held]⟩ met
      rw [gone]
      exact Moesi.yields_i kind
    · obtain ⟨r, -, clus, rfl⟩ := Coh.mem_tagsOf_modTags ht
      by_cases h : r.agent = agent ∧ ctxHits ctx r.ctx = true
      · simp only [if_pos h]
        show ((r.withUnit u ((r.unit u).probed kind)).unit u).yields kind
        rw [Tag.withUnit_unit]
        split
        · exact Moesi.yields_probed _ _
        · exact Moesi.yields_i kind
      · simp only [if_neg h] at mine met
        exact absurd ⟨mine, met⟩ h

/-- The three words that send a probe, with their kinds. -/
theorem exec_probe (s : State) (p : Probe) {i : Nat × Instr} (hi : i ∈ [(0, Instr.prbs p), (1, .prbx p), (2, .prbsys p)]) :
    exec i.2 s = .next (s.probeArrives { p with kind := i.1 }) := by
  simp only [List.mem_cons, List.not_mem_nil, or_false] at hi
  rcases hi with rfl | rfl | rfl <;> rfl

/-- A probe that meets a pin is answered `RETRY` (R75). -/
theorem State.probeArrives_of_refused {s : State} {p : Probe} (h : s.probeRefused p = true) :
    s.probeArrives p = s.withCoh { s.coh with answers := s.coh.answers ++ [(p, .retry, s.now)] } :=
  if_pos h

/-- The cycle at which an agent's answer to a probe that reaches it at `now` leaves it (R74). -/
def answerLeaves (b : Answer) (kind now : Nat) : Nat :=
  match b with
  | .notheld _ => if kind = 2 then now else now + 40
  | _ => now

theorem answerLeaves_of_prompt {b : Answer} {kind : Nat} (h : (∀ other, b ≠ .notheld other) ∨ kind = 2) (now : Nat) : answerLeaves b kind now = now := by
  cases b with
  | notheld other => exact if_pos (h.resolve_left fun differs => differs other rfl)
  | data | ack | retry => rfl

theorem answerLeaves_notheld {kind : Nat} (asks : kind ≠ 2) (other : Bool) (now : Nat) : answerLeaves (.notheld other) kind now = now + 40 :=
  if_neg asks

/-- A probe that no pin refuses is acted on, once the dirty data it invalidates have left, and answered (R69, R70). -/
theorem State.probeArrives_of_free {s u : State} {p : Probe} {b : Answer} (free : s.probeRefused p = false)
    (acts : (s.dirtyOut p p.kind).probeAgent p.agent (probeCtx p) p.sline p.unit p.kind = (b, u)) :
    s.probeArrives p = u.withCoh { u.coh with answers := u.coh.answers ++ [(p, b, answerLeaves b p.kind (s.dirtyOut p p.kind).now)] } := by
  refine (if_neg (by simp [free])).trans ?_
  show (let r := (s.dirtyOut p p.kind).probeAgent p.agent (probeCtx p) p.sline p.unit p.kind
    r.2.withCoh { r.2.coh with answers := r.2.coh.answers ++ [(p, r.1, answerLeaves r.1 p.kind (s.dirtyOut p p.kind).now)] }) = _
  rw [acts]

/-- An answer that is due reaches the home agent. -/
theorem execProbeResponse_of_due {s : State} {p : Probe} {a : Answer} {t : Nat} (due : t ≤ s.now) (out : s.coh.answers = [(p, a, t)]) :
    execProbeResponse p a s = .next ((s.withCoh { s.coh with answers := [] }).answerTaken p a) := by
  have left : dropAnswer p a s.coh.answers = [] := by rw [out]; exact if_pos ⟨rfl, rfl⟩
  rw [← left]
  exact if_pos (by simp [out, due])

theorem execProbeResponse_of_not_due {s : State} {p : Probe} {a : Answer} (h : ¬AnswerDue s p a) : execProbeResponse p a s = .next s := by
  refine if_neg fun due => h ?_
  obtain ⟨⟨q, b, t⟩, out, same⟩ := List.any_eq_true.mp due
  simp only [Bool.and_eq_true, beq_iff_eq, decide_eq_true_eq] at same
  obtain ⟨⟨rfl, rfl⟩, early⟩ := same
  exact ⟨t, early, out⟩

/-- The answer that its agent does not hold the unit reaches the home agent once it is due (R74). -/
theorem execNotheld_of_due {s : State} {p : Probe} {other : Bool} {t : Nat} (due : t ≤ s.now) (out : s.coh.answers = [(p, .notheld other, t)]) :
    execNotheld p s = .next ((s.withCoh { s.coh with answers := [] }).dirAnswer p.agent p.sline p.unit p.kind (.notheld other)) := by
  have left : dropAnswer p (.notheld other) s.coh.answers = [] := by rw [out]; exact if_pos ⟨rfl, rfl⟩
  rw [← left]
  unfold execNotheld
  rw [out, List.find?_cons_of_pos (by simp [due])]
  rw [← out]
  rfl

theorem execNotheld_of_none {s : State} {p : Probe} (h : ∀ x ∈ s.coh.answers, x.1 ≠ p) : execNotheld p s = .next s := by
  unfold execNotheld
  rw [List.find?_eq_none.mpr fun x hx => by simp [h x hx]]

/-- A refused probe is sent again once its 64 cycles have passed (R75). -/
theorem execPinRetry_of_due {s : State} {p : Probe} {t : Nat} (waits : s.coh.refused = [(p, t)]) (due : t ≤ s.now) :
    execPinRetry p s = .next ((s.withCoh { s.coh with refused := [] }).probeArrives p) := by
  have left : s.coh.refused.filter (fun x => x.1 != p) = [] := by simp [waits]
  rw [← left]
  exact if_neg (by simp [waits, due])

theorem execPinRetry_of_early {s : State} {p : Probe} {t : Nat} (waits : s.coh.refused = [(p, t)]) (early : s.now < t) :
    execPinRetry p s = .next s :=
  if_pos (by simp [waits, early])

/-! ### Requests of outside agents (R65, R69, R81) -/

theorem execHomeAgentRequest_of_served {s : State} {q : HomeReq} (exist : rangeOk q.addr (max 1 q.data.length) = true) (known : q.agent < 17)
    (serves : (1, s.homeAgent q.addr) ∉ s.ras.fenced) (due : ∀ w ∈ s.coh.queue, w.asker = .req q → w.due ≤ s.now) :
    execHomeAgentRequest q s = .next (s.homeTake q) := by
  have now : s.notYet (.req q) = false := by
    simp only [State.notYet, List.any_eq_false, Bool.and_eq_true, beq_iff_eq, decide_eq_true_eq, not_and, Nat.not_lt]
    exact due
  exact if_pos (by simp [exist, known, serves, now])

/-- A request that is performed leaves the queue. -/
theorem State.homeTake_of_ok {s t : State} {q : HomeReq} (done : s.homePerform q = .ok t) :
    s.homeTake q = (let u := t.dequeue (some (.req q)); u.withCoh { u.coh with retries := u.coh.retries.filter (· != q) }) := by
  unfold State.homeTake
  rw [done]
  rfl

section
variable {s : State} {q : HomeReq} {pa : Nat} (waits : s.homePerform q = .error pa)
include waits

/-- A request that must wait, and has its place in a queue, is no longer tried again. -/
theorem State.homeTake_of_queued (queued : ∃ e ∈ (s.enqueue (reqWho q) pa).coh.queue, e.asker = .req q) :
    s.homeTake q = (let u := s.enqueue (reqWho q) pa; u.withCoh { u.coh with retries := u.coh.retries.filter (· != q) }) := by
  unfold State.homeTake
  rw [waits]
  exact if_pos (by simpa using queued)

/-- A request that a full queue refuses is tried again. -/
theorem State.homeTake_of_full (full : ∀ e ∈ (s.enqueue (reqWho q) pa).coh.queue, e.asker ≠ .req q) :
    s.homeTake q = if q ∈ s.coh.retries then s else s.withCoh { s.coh with retries := s.coh.retries ++ [q] } := by
  unfold State.homeTake
  rw [waits]
  refine (if_neg (by simpa using full)).trans ?_
  by_cases again : q ∈ s.coh.retries
  · exact (if_pos (List.contains_iff_mem.mpr again)).trans (if_pos again).symm
  · exact (if_neg (mt List.contains_iff_mem.mp again)).trans (if_neg again).symm

end

end Sys2Proof.Machine

namespace Sys2Proof.Machine

/-! ### What leaves the tags alone -/

@[simp] theorem Coh.putMsc_tags (c : Coh) (l : MscLine) : (c.putMsc l).tags = c.tags := by
  unfold Coh.putMsc
  dsimp only
  split <;> rfl

@[simp] theorem State.track_tags (s : State) (h pa die : Nat) : (s.track h pa die).coh.tags = s.coh.tags := by
  unfold State.track
  dsimp only
  repeat' split
  all_goals rfl

@[simp] theorem State.mscPin_tags (s : State) (st line : Nat) : (s.mscPin st line).2.coh.tags = s.coh.tags := by
  unfold State.mscPin
  dsimp only
  split <;> rfl

@[simp] theorem State.mscTouch_tags (s : State) (pa n pol : Nat) (write : Bool) : (s.mscTouch pa n pol write).coh.tags = s.coh.tags := by
  unfold State.mscTouch
  dsimp only
  repeat' split
  all_goals simp [Coh.dropMsc]

@[simp] theorem State.flushUnit_tags (s : State) (ctx sl grain u : Nat) : (s.flushUnit ctx sl grain u).coh.tags = s.coh.tags := by
  unfold State.flushUnit
  dsimp only
  rw [State.mscTouch_tags]
  split
  · rfl
  · show Coh.tags (List.foldl _ _ _) = _
    refine foldl_keeps Coh.tags (fun c p => ?_) _ _
    rfl

theorem State.foldl_flushUnit_tags {α : Type} (s : State) (c : α → Nat) (sl grain u : Nat) (l : List α) :
    (l.foldl (fun s t => s.flushUnit (c t) sl grain u) s).coh.tags = s.coh.tags :=
  foldl_keeps (fun s : State => s.coh.tags) (fun b a => b.flushUnit_tags (c a) sl grain u) l s

@[simp] theorem State.dirSee_tags (s : State) (sl u : Nat) : (s.dirSee sl u).coh.tags = s.coh.tags := by
  unfold State.dirSee
  split <;> rfl

@[simp] theorem State.dirAnswer_tags (s : State) (agent sl u kind : Nat) (a : Answer) : (s.dirAnswer agent sl u kind a).coh.tags = s.coh.tags := by
  unfold State.dirAnswer
  rw [State.dirSee_tags]
  exact (apply_ite (fun s : State => s.coh.tags) _ _ _).trans (ite_self _)

@[simp] theorem State.dirGrant_tags (s : State) (sl grain agent u : Nat) : (s.dirGrant sl grain agent u).coh.tags = s.coh.tags := by
  unfold State.dirGrant
  rw [State.dirSee_tags]
  rfl

/-! ### Tags that have all sixteen units -/

/-- Every tag has the sixteen units of a super-line at the finest grain (R67). -/
def Coh.Full (c : Coh) : Prop := ∀ t ∈ c.tags, t.st.length = 16

theorem Tag.length_ite_withUnit (t : Tag) (p : Prop) [Decidable p] (u : Nat) (x : Moesi) :
    (if p then t.withUnit u x else t).st.length = t.st.length := by
  split
  · exact t.withUnit_length u x
  · rfl

namespace Coh.Full
section
variable {c d : Coh} (h : c.Full)
include h

theorem congr (same : d.tags = c.tags) : d.Full := by
  unfold Coh.Full
  rwa [same]

theorem filter (p : Tag → Bool) : Coh.Full { c with tags := c.tags.filter p } := fun t ht => h t (List.mem_of_mem_filter ht)

theorem tidy (sl : Nat) : (c.tidy sl).Full := by
  intro t ht
  obtain ⟨r, hr, clus, rfl⟩ := Coh.mem_tags_tidy ht
  exact h r hr

theorem modTags {sl : Nat} {f : Tag → Tag} (keeps : ∀ t, (f t).st.length = t.st.length) : (c.modTags sl f).Full := by
  refine tidy (fun t ht => ?_) sl
  obtain ⟨r, hr, rfl⟩ := List.mem_map.mp ht
  split
  · exact (keeps r).trans (h r hr)
  · exact h r hr

theorem addTag (cache ctx sl grain use : Nat) : Coh.Full { c with tags := Tag.new cache ctx sl grain use :: c.tags } := by
  intro t ht
  rcases List.mem_cons.mp ht with rfl | old
  · rfl
  · exact h t old

theorem setUnit (cache ctx sl grain u : Nat) (x : Moesi) : (c.setUnit cache ctx sl grain u x).Full := by
  unfold Coh.setUnit
  refine modTags ?_ fun t => by split <;> simp
  split
  · exact h
  · exact h.addTag cache ctx sl grain c.clock

end

section
variable {s : State} (h : s.coh.Full)
include h

theorem foldl {α : Type} {f : State → α → State} (hf : ∀ t a, t.coh.Full → (f t a).coh.Full) (l : List α) : (l.foldl f s).coh.Full :=
  List.foldlRecOn l f h fun t ht a _ => hf t a ht

theorem foldl_snd {α β : Type} {b : β} {f : β × State → α → β × State} (hf : ∀ p a, p.2.coh.Full → (f p a).2.coh.Full) (l : List α) :
    (l.foldl f (b, s)).2.coh.Full :=
  List.foldlRecOn l f (motive := fun p => p.2.coh.Full) h fun p hp a _ => hf p a hp

theorem writeBack (agent ctx sl grain u : Nat) : (s.writeBack agent ctx sl grain u).coh.Full := by
  have flushed (h1 pa die : Nat) : ((s.track h1 pa die).flushUnit ctx sl grain u).coh.Full := h.congr (by simp)
  unfold State.writeBack
  extract_lets sent invalid last kept
  have hinvalid : invalid.coh.Full := (flushed _ _ _).modTags fun t => t.length_ite_withUnit _ u .i
  refine congr (c := kept.coh) ?_ (kept.dirSee_tags sl u)
  unfold kept
  split
  · exact ((hinvalid.filter _).tidy sl).congr rfl
  · exact hinvalid

theorem recallUnit (agent sl grain u : Nat) (discard : Bool) : (s.recallUnit agent sl grain u discard).2.coh.Full := by
  unfold State.recallUnit
  refine modTags ?_ fun t => t.length_ite_withUnit _ u .i
  split
  · exact h
  · exact h.congr (s.foldl_flushUnit_tags Tag.ctx sl grain u _)

theorem probeAgent (agent ctx sl u kind : Nat) : (s.probeAgent agent ctx sl u kind).2.coh.Full := by
  unfold State.probeAgent
  split
  · exact h.recallUnit _ _ _ _ _
  · dsimp only
    split
    · exact h
    · exact h.modTags fun t => t.length_ite_withUnit _ u _

theorem dirAnswer (agent sl u kind : Nat) (a : Answer) : (s.dirAnswer agent sl u kind a).coh.Full := h.congr (s.dirAnswer_tags agent sl u kind a)

theorem probeAll (except_ : Option Nat) (ctx sl u kind : Nat) : (s.probeAll except_ ctx sl u kind).coh.Full := by
  unfold State.probeAll
  split
  · exact h
  · refine h.foldl (fun t a ht => ?_) _
    split
    · exact (ht.probeAgent a ctx sl u kind).dirAnswer a sl u kind _
    · exact ht

theorem recallLine (sl : Nat) (discard : Bool) : (s.recallLine sl discard).2.coh.Full := by
  unfold State.recallLine
  split
  · exact h
  · refine h.foldl_snd (fun p a hp => ?_) _
    split
    · exact foldl_snd hp (fun q u hq => (hq.recallUnit a sl _ u discard).dirAnswer a sl u 2 _) _
    · exact hp

theorem evictLine (agent ctx sl grain : Nat) : (s.evictLine agent ctx sl grain).coh.Full := by
  unfold State.evictLine
  exact ((h.foldl (fun t u ht => ht.writeBack agent ctx sl grain u) _).filter _).tidy sl

theorem dirEvict (d : DirEntry) : (s.dirEvict d).coh.Full := by
  unfold State.dirEvict
  dsimp only
  split
  · exact (h.recallLine d.sline false).congr rfl
  · exact (h.recallLine d.sline false).congr rfl

theorem dirRoom {sl : Nat} {t : State} (room : s.dirRoom sl = some t) : t.coh.Full := by
  have every : SomeAll (fun t : State => t.coh.Full) (s.dirRoom sl) := by
    unfold State.dirRoom
    dsimp only
    refine .ite h (.ite h ?_)
    split
    · exact h.dirEvict _
    · exact trivial
  exact every.of_eq room

theorem l2Room {agent ctx sl : Nat} {t : State} (room : s.l2Room agent ctx sl = some t) : t.coh.Full := by
  have every : SomeAll (fun t : State => t.coh.Full) (s.l2Room agent ctx sl) := by
    unfold State.l2Room
    dsimp only
    refine .ite h (.ite h ?_)
    split
    · exact trivial
    · exact h.evictLine agent _ _ _
  exact every.of_eq room

end
end Coh.Full

/-! ### A unit that a cache keeps -/

theorem Tag.lt_length_of_unit {t : Tag} {u : Nat} (held : t.unit u ≠ .i) : u < t.st.length := by
  by_contra out
  exact held (by simp [Tag.unit, List.getD_eq_getElem?_getD, List.getElem?_eq_none (Nat.le_of_not_lt out)])

theorem Tag.live_of_unit {t : Tag} {u : Nat} (held : t.unit u ≠ .i) : t.live = true := by
  have inside := Tag.lt_length_of_unit held
  refine List.any_eq_true.mpr ⟨t.st[u], List.getElem_mem inside, bne_iff_ne.mpr ?_⟩
  rwa [Tag.unit, List.getD_eq_getElem _ _ inside] at held

/-- The first match of a list stays the first where it is not filtered out, and a change keeps which elements match. -/
theorem find?_map_filter {α : Type} {p q : α → Bool} {g : α → α} (same : ∀ a, p (g a) = p a) {l : List α} {t : α} (found : l.find? p = some t)
    (kept : q t = true) : ((l.filter q).map g).find? p = some (g t) := by
  have first : (l.filter q).find? p = some t := by
    induction l with
    | nil => cases found
    | cons a l ih =>
      by_cases hit : p a = true
      · rw [List.find?_cons_of_pos hit] at found
        obtain rfl := Option.some.inj found
        rw [List.filter_cons_of_pos kept, List.find?_cons_of_pos hit]
      · rw [List.find?_cons_of_neg hit] at found
        rw [List.filter_cons]
        split
        · rw [List.find?_cons_of_neg hit, ih found]
        · exact ih found
  rw [List.find?_map, show p ∘ g = p from funext same, first]
  rfl

/-- The first tag of a key is that of the unit's state. -/
theorem Coh.tag_of_unitAt {c : Coh} {cache ctx sl u : Nat} (held : c.unitAt cache ctx sl u ≠ .i) :
    ∃ t, c.tag cache ctx sl = some t ∧ t.unit u = c.unitAt cache ctx sl u := by
  unfold Coh.unitAt at held ⊢
  split at held
  · next t found => exact ⟨t, found, rfl⟩
  · exact absurd rfl held

theorem Coh.unitAt_of_tag {c : Coh} {cache ctx sl : Nat} {t : Tag} (found : c.tag cache ctx sl = some t) (u : Nat) :
    c.unitAt cache ctx sl u = t.unit u := by
  unfold Coh.unitAt
  rw [found]

theorem Coh.key_of_tag {c : Coh} {cache ctx sl : Nat} {t : Tag} (found : c.tag cache ctx sl = some t) :
    t ∈ c.tags ∧ t.sline = sl ∧ t.cache = cache ∧ t.ctx = ctx := by
  have key := List.find?_some found
  simp only [Bool.and_eq_true, beq_iff_eq] at key
  exact ⟨List.mem_of_find?_eq_some found, key.1.1, key.1.2, key.2⟩

/-- Putting a line in order keeps a tag that holds a unit, but for the clusters that a die L2 names. -/
theorem Coh.tag_tidy {c : Coh} {cache ctx sl u : Nat} {t : Tag} (found : c.tag cache ctx sl = some t) (held : t.unit u ≠ .i) (sl' : Nat) :
    ∃ clus, (c.tidy sl').tag cache ctx sl = some { t with clus := clus } := by
  have kept := find?_map_filter (q := fun t => t.sline != sl' || t.live)
    (g := fun t => if t.sline = sl' ∧ t.cache < 8 then
      { t with clus := Coh.clusOf { c with tags := c.tags.filter fun t => t.sline != sl' || t.live } t.cache t.ctx sl' } else t)
    (fun a => by split <;> rfl) found (by simp [Tag.live_of_unit held])
  split at kept
  · exact ⟨_, kept⟩
  · exact ⟨t.clus, kept⟩

theorem Coh.unitAt_tidy {c : Coh} {cache ctx sl u : Nat} (held : c.unitAt cache ctx sl u ≠ .i) (sl' : Nat) :
    (c.tidy sl').unitAt cache ctx sl u = c.unitAt cache ctx sl u := by
  obtain ⟨t, found, same⟩ := Coh.tag_of_unitAt held
  obtain ⟨clus, kept⟩ := Coh.tag_tidy found (same ▸ held) sl'
  exact (Coh.unitAt_of_tag kept u).trans same

/-- A change to a line's tags that keeps their keys changes a unit as it changes the tag that holds it. -/
theorem Coh.unitAt_modTags {c : Coh} {cache ctx sl u : Nat} {f : Tag → Tag} {t : Tag}
    (keys : ∀ t, (f t).sline = t.sline ∧ (f t).cache = t.cache ∧ (f t).ctx = t.ctx) (found : c.tag cache ctx sl = some t)
    (held : (f t).unit u ≠ .i) : (c.modTags sl f).unitAt cache ctx sl u = (f t).unit u := by
  obtain ⟨-, here, -, -⟩ := Coh.key_of_tag found
  have changed := find?_map_filter (q := fun _ => true) (g := fun t => if t.sline = sl then f t else t)
    (fun a => by
      obtain ⟨ksl, kca, kctx⟩ := keys a
      split
      · rw [ksl, kca, kctx]
      · rfl) found rfl
  rw [List.filter_true, if_pos here] at changed
  have before : Coh.unitAt { c with tags := c.tags.map fun t => if t.sline = sl then f t else t } cache ctx sl u = (f t).unit u :=
    Coh.unitAt_of_tag (c := { c with tags := c.tags.map fun t => if t.sline = sl then f t else t }) changed u
  exact (Coh.unitAt_tidy (before ▸ held) sl).trans before

/-- A unit that is set holds its new state. -/
theorem Coh.unitAt_setUnit {c : Coh} (full : c.Full) {u : Nat} (hu : u < 16) {x : Moesi} (hx : x ≠ .i) (cache ctx sl grain : Nat) :
    (c.setUnit cache ctx sl grain u x).unitAt cache ctx sl u = x := by
  unfold Coh.setUnit
  extract_lets d
  have entered : ∃ t, d.tag cache ctx sl = some t ∧ t.st.length = 16 := by
    unfold d
    split
    · next old =>
      obtain ⟨t, found⟩ := Option.isSome_iff_exists.mp old
      exact ⟨t, found, full t (Coh.key_of_tag found).1⟩
    · exact ⟨Tag.new cache ctx sl grain c.clock, List.find?_cons_of_pos (by simp [Tag.new]), rfl⟩
  obtain ⟨t, found, long⟩ := entered
  obtain ⟨-, -, hcache, hctx⟩ := Coh.key_of_tag found
  have value : Tag.unit (if t.cache = cache ∧ t.ctx = ctx then { t.withUnit u x with use := d.clock } else t) u = x := by
    rw [if_pos ⟨hcache, hctx⟩]
    exact (t.withUnit_unit u x).trans (if_pos (by omega))
  refine (Coh.unitAt_modTags (c := { d with clock := d.clock + 1 }) (t := t) (fun r => ?_) found (value.symm ▸ hx)).trans value
  split <;> exact ⟨rfl, rfl, rfl⟩

/-- Another cache keeps a unit that it holds while one is set. -/
theorem Coh.unitAt_setUnit_of_ne {c : Coh} {cache cache' ctx' sl u' : Nat} (other : cache' ≠ cache) (held : c.unitAt cache' ctx' sl u' ≠ .i)
    (ctx grain u : Nat) (x : Moesi) : (c.setUnit cache ctx sl grain u x).unitAt cache' ctx' sl u' = c.unitAt cache' ctx' sl u' := by
  obtain ⟨t, found, same⟩ := Coh.tag_of_unitAt held
  obtain ⟨-, -, hcache, -⟩ := Coh.key_of_tag found
  unfold Coh.setUnit
  extract_lets d
  have still : d.tag cache' ctx' sl = some t := by
    unfold d
    split
    · exact found
    · exact (List.find?_cons_of_neg (by simp [Tag.new, Ne.symm other])).trans found
  have value : Tag.unit (if t.cache = cache ∧ t.ctx = ctx then { t.withUnit u x with use := d.clock } else t) u' = c.unitAt cache' ctx' sl u' := by
    rw [if_neg fun h => other (hcache.symm.trans h.1), same]
  refine (Coh.unitAt_modTags (c := { d with clock := d.clock + 1 }) (t := t) (fun r => ?_) still (value.symm ▸ held)).trans value
  split <;> exact ⟨rfl, rfl, rfl⟩

theorem Coh.mem_of_victim {c : Coh} {l : List Tag} {v : Tag} (h : c.victim l = some v) : v ∈ l := by
  induction l generalizing v with
  | nil => cases h
  | cons t l ih =>
    unfold Coh.victim at h
    split at h
    · exact List.mem_cons_of_mem t (ih h)
    · split at h
      · exact Option.some.inj h ▸ List.mem_cons_self
      · next w hw =>
        split at h
        · exact Option.some.inj h ▸ List.mem_cons_self
        · exact Option.some.inj h ▸ List.mem_cons_of_mem t (ih hw)

/-- Room in a cluster's L1 is made at no other cache's cost. -/
theorem Coh.unitAt_l1Room {c d : Coh} {g part ctx sl : Nat} (room : c.l1Room g part ctx sl = some d) {cache ctx' sl' u : Nat}
    (other : cache ≠ 32 + g) (held : c.unitAt cache ctx' sl' u ≠ .i) : d.unitAt cache ctx' sl' u = c.unitAt cache ctx' sl' u := by
  have every : SomeAll (fun d : Coh => d.unitAt cache ctx' sl' u = c.unitAt cache ctx' sl' u) (c.l1Room g part ctx sl) := by
    unfold Coh.l1Room
    dsimp only
    refine .ite rfl (.ite rfl ?_)
    split
    · exact trivial
    · next v hv =>
      obtain ⟨-, hset⟩ := List.mem_filter.mp (Coh.mem_of_victim hv)
      obtain ⟨t, found, same⟩ := Coh.tag_of_unitAt held
      obtain ⟨-, -, hcache, -⟩ := Coh.key_of_tag found
      have left := find?_map_filter (q := fun t => !(t.cache == v.cache && t.ctx == v.ctx && t.sline == v.sline)) (g := id) (fun _ => rfl) found
        (by simp at hset ⊢; omega)
      rw [List.map_id] at left
      have before := (Coh.unitAt_of_tag (c := { c with tags := c.tags.filter _ }) left u).trans same
      exact (Coh.unitAt_tidy (before ▸ held) v.sline).trans before
  exact every.of_eq room

end Sys2Proof.Machine

namespace Sys2Proof.Machine

/-! ### A cacheable access that is granted (R54, R68, R69) -/

theorem unitIn_lt (pa grain : Nat) : unitIn pa grain < 16 := by
  unfold unitIn grainBytes
  split_ifs <;> omega

theorem Coh.unitAt_congr {c d : Coh} (same : d.tags = c.tags) (cache ctx sl u : Nat) : d.unitAt cache ctx sl u = c.unitAt cache ctx sl u := by
  unfold Coh.unitAt Coh.tag
  rw [same]

theorem OkAll.dite {ε α : Type} {P : α → Prop} {x y : Except ε α} {c : Prop} [Decidable c] (hx : c → OkAll P x) (hy : ¬c → OkAll P y) :
    OkAll P (if c then x else y) := by
  split
  · next h => exact hx h
  · next h => exact hy h

/-- The home's grant leaves the unit in the agent's cache. -/
theorem State.homeGrant_holds {s t : State} {w : Who} {pa grain u pol : Nat} {write : Bool} (full : s.coh.Full) (hu : u < 16)
    (granted : s.homeGrant w pa grain u pol write = .ok t) :
    t.coh.Full ∧ t.coh.unitAt w.agent w.ctx (slineOf pa) u ≠ .i := by
  have every : OkAll (fun t : State => t.coh.Full ∧ t.coh.unitAt w.agent w.ctx (slineOf pa) u ≠ .i) (s.homeGrant w pa grain u pol write) := by
    unfold State.homeGrant
    refine .ite trivial ?_
    split
    · exact trivial
    · next s1 room1 =>
      split
      · exact trivial
      · next s2 room2 =>
        extract_lets had dirty d tracked probed others touched st entered
        have fullTouched : touched.coh.Full := by
          have fullProbed : probed.coh.Full := (((full.dirRoom room1).l2Room room2).congr (State.track_tags ..)).probeAll _ _ _ _ _
          unfold touched
          split
          · exact fullProbed
          · exact fullProbed.congr (State.mscTouch_tags ..)
        have grants : st ≠ .i := by unfold st; split_ifs <;> nofun
        have tags : (entered.dirGrant (slineOf pa) grain w.agent u).coh.tags = (touched.coh.setUnit w.agent w.ctx (slineOf pa) grain u st).tags :=
          State.dirGrant_tags ..
        refine ⟨(fullTouched.setUnit _ _ _ _ _ _).congr tags, ?_⟩
        rw [Coh.unitAt_congr tags, Coh.unitAt_setUnit fullTouched hu grants]
        exact grants
  exact every.of_eq granted

/-- The die's part leaves the unit in its L2, in M after a write, where a read found it there. -/
theorem State.dieGrant_holds {s : State} {w : Who} {sl grain u : Nat} {l1 write : Bool} (full : s.coh.Full) (hw : w.agent < 17) (hu : u < 16)
    (held : write = false → s.coh.unitAt w.agent w.ctx sl u ≠ .i) :
    (s.dieGrant w sl grain u l1 write).coh.unitAt w.agent w.ctx sl u ≠ .i ∧
      (write = true → (s.dieGrant w sl grain u l1 write).coh.unitAt w.agent w.ctx sl u = .m) := by
  unfold State.dieGrant
  extract_lets own downgraded l2 granted
  have stillHeld : write = false → l2 ≠ .i := fun read => by
    obtain ⟨t, found, same⟩ := Coh.tag_of_unitAt (held read)
    obtain ⟨-, -, hcache, -⟩ := Coh.key_of_tag found
    have kept : (if t.ctx = w.ctx ∧ 32 ≤ t.cache ∧ t.agent = w.agent ∧ t.cache ≠ own then t.withUnit u ((t.unit u).inDie write) else t) = t :=
      if_neg fun h => by omega
    have value : l2 = t.unit u := by
      refine (Coh.unitAt_modTags (fun r => ?_) found ?_).trans (congrArg (Tag.unit · u) kept)
      · split <;> exact ⟨rfl, rfl, rfl⟩
      · rw [kept, same]
        exact held read
    rw [value, same]
    exact held read
  have fullDowngraded : downgraded.coh.Full := full.modTags fun t => t.length_ite_withUnit _ u _
  have grants : (if write then Moesi.m else l2) ≠ .i := by
    cases write with
    | true => nofun
    | false => exact stillHeld rfl
  have value : granted.coh.unitAt w.agent w.ctx sl u = if write then .m else l2 := Coh.unitAt_setUnit fullDowngraded hu grants ..
  have outside : 32 ≤ own := by unfold own; split <;> omega
  have enough (x : State) (same : x.coh.unitAt w.agent w.ctx sl u = granted.coh.unitAt w.agent w.ctx sl u) :
      x.coh.unitAt w.agent w.ctx sl u ≠ .i ∧ (write = true → x.coh.unitAt w.agent w.ctx sl u = .m) := by
    rw [same, value]
    exact ⟨grants, fun h => if_pos h⟩
  have heldNow : granted.coh.unitAt w.agent w.ctx sl u ≠ .i := value ▸ grants
  refine enough _ ?_
  split
  · rfl
  · split
    · rfl
    · split
      · rfl
      · next g _ _ c room =>
        have roomy : c.unitAt w.agent w.ctx sl u = granted.coh.unitAt w.agent w.ctx sl u := Coh.unitAt_l1Room room (by omega) heldNow
        exact (Coh.unitAt_setUnit_of_ne (by omega) (roomy ▸ heldNow) ..).trans roomy

/-- A cacheable access that is granted leaves the unit in its agent's cache, in M after a write (R69). -/
theorem State.cached_holds {s t : State} {w : Who} {pa grain pol : Nat} {l1 write : Bool} (full : s.coh.Full) (hw : w.agent < 17)
    (granted : s.cached w pa grain pol l1 write = .ok t) :
    t.coh.unitAt w.agent w.ctx (slineOf pa) (unitIn pa (s.grainAt pa grain)) ≠ .i ∧
      (write = true → t.coh.unitAt w.agent w.ctx (slineOf pa) (unitIn pa (s.grainAt pa grain)) = .m) := by
  have hu := unitIn_lt pa (s.grainAt pa grain)
  have every : OkAll (fun t : State => t.coh.unitAt w.agent w.ctx (slineOf pa) (unitIn pa (s.grainAt pa grain)) ≠ .i ∧
      (write = true → t.coh.unitAt w.agent w.ctx (slineOf pa) (unitIn pa (s.grainAt pa grain)) = .m)) (s.cached w pa grain pol l1 write) := by
    unfold State.cached
    refine .ite trivial (.dite (fun hit => ?_) fun _ => ?_)
    · refine State.dieGrant_holds full hw hu fun read => ?_
      rw [read] at hit
      exact bne_iff_ne.mp hit
    · split
      · exact trivial
      · next s' home =>
        obtain ⟨full', held⟩ := State.homeGrant_holds full hu home
        exact State.dieGrant_holds full' hw hu fun _ => held
  exact every.of_eq granted

theorem State.homePerform_of_own {s : State} {q : HomeReq} (own : s.homeOf q.addr = .own) :
    (q.kind = .readShared → s.homePerform q = s.cached (reqWho q) q.addr q.grain q.pol false false) ∧
    (q.kind = .readExclusive → s.homePerform q = s.cached (reqWho q) q.addr q.grain q.pol false true) ∧
    (q.kind = .uncachedRead → s.homePerform q = s.uncached (reqWho q) q.addr 1 q.pol false) ∧
    (q.kind = .writeback → s.queuedBefore (reqWho q) q.addr = false → s.homePerform q = .ok (s.takeWriteback q)) := by
  unfold State.homePerform
  rw [own]
  refine ⟨fun kind => ?_, fun kind => ?_, fun kind => ?_, fun kind first => ?_⟩ <;> rw [kind]
  exact if_neg (by simp [first])

theorem State.homePerform_of_queued {s : State} {q : HomeReq} (waits : s.homeOf q.addr = .queued) : s.homePerform q = .error q.addr := by
  unfold State.homePerform
  rw [waits]

/-! ### Probes, requests of outside agents, and migrations together -/

/-- Settles O36: the probes and their answers, the requests of outside agents, and the frames that migrate, each by the lemma of its step. -/
theorem probesAndMigrations : Obligations.ProbesAndMigrations := by
  refine ⟨fun s p a q => ⟨fun i hi r hr => ?_, fun t due out asked => ?_, fun t due out => execProbeResponse_of_due due out,
      fun other t due out => execNotheld_of_due due out, execProbeResponse_of_not_due, execNotheld_of_none,
      fun t waits due => execPinRetry_of_due waits due, fun t waits early => execPinRetry_of_early waits early, execHomeAgentRequest_of_served⟩,
    fun s t q pa => ⟨fun done u hu => hu ▸ State.homeTake_of_ok done, fun waits u hu =>
        hu ▸ ⟨State.homeTake_of_queued waits, State.homeTake_of_full waits⟩, State.homePerform_of_own, State.homePerform_of_queued,
      fun w grain pol l1 write x full known granted hx => hx ▸ State.cached_holds full known granted⟩,
    fun s v old line m => ⟨fun early => if_pos early, fun due off => ?_, fun due on => ?_, fun idle => ⟨execMigSubmit_of_idle idle,
      execMigRelease_of_idle idle⟩, fun t go ht fails => ?_,
      fun t u go ht passes hu x hx => ?_, fun t found next ht u hu => ?_, fun a b wf => State.cellRead_moveLine wf a b, fun found all => ?_,
      fun found left => ?_, fun r rs t done room ht => ?_, execMigCompletionRecord_of_waiting, fun go t ht => ?_⟩⟩
  · subst hr
    rw [exec_probe s p hi]
    refine ⟨fun refused => congrArg Host.Outcome.next (State.probeArrives_of_refused refused), fun b u free acts => ⟨fun prompt => ?_,
      fun other missed asks => ?_, fun t ht mine _ met => ?_⟩⟩
    · rw [State.probeArrives_of_free free acts, answerLeaves_of_prompt prompt]
      rfl
    · subst missed
      rw [State.probeArrives_of_free free acts, answerLeaves_notheld asks]
      rfl
    · rw [← show _ = u from congrArg Prod.snd acts] at ht
      exact State.probeAgent_yields ht mine met
  · refine (execProbeResponse_of_due due out).trans ?_
    cases a with
    | retry => exact absurd rfl asked
    | data | ack | notheld other => rfl
  · exact (execHptEpochEnd_of_due due).trans (congrArg Host.Outcome.next (if_neg (Bool.eq_false_iff.mp off)))
  · exact (execHptEpochEnd_of_due due).trans (congrArg Host.Outcome.next (if_pos on))
  · subst ht
    exact (execMigSubmit_of_go go).trans (if_pos fails)
  · subst hx hu ht
    refine (execMigSubmit_of_go go).trans ((if_neg (not_not_intro passes)).trans ?_)
    rw [passes]
    rfl
  · subst hu ht
    exact execMigLineCopy_of_next found next
  · exact (execMigComplete_of_found found).trans (if_neg (Nat.not_lt_of_le all))
  · exact (execMigComplete_of_found found).trans (if_pos left)
  · subst ht
    exact execMigCompletionRecord_of_room done room
  · subst ht
    exact if_pos go

end Sys2Proof.Machine

namespace Sys2Proof.Machine

/-! ### A frame that names the next holder of its token (R147, R150) -/

theorem State.tenure_sync {s : State} {p : Nat} (sync : p = 0) : s.tenure p = s.syncTenure := if_pos sync

theorem State.tenure_data {s : State} {p : Nat} (data : p ≠ 0) : s.tenure p = s.dataTenure p := if_neg data

/-- The member whose frame `f` names it next takes the token. -/
def State.takeToken (s : State) (f : List Word) : State := if frameNext f = s.modid ∧ s.zgOn then s.tenure (framePlane f) else s

theorem State.takeToken_of_other {s : State} {f : List Word} (other : frameNext f ≠ s.modid ∨ s.zgOn = false) : s.takeToken f = s :=
  if_neg fun ⟨mine, on⟩ => other.elim (· mine) fun off => absurd (off.symm.trans on) nofun

theorem State.takeToken_of_mine {s : State} {f : List Word} (mine : frameNext f = s.modid) (on : s.zgOn = true) :
    s.takeToken f = s.tenure (framePlane f) :=
  if_pos ⟨mine, on⟩

/-! ### The procedure for a lost token (R150) -/

theorem execZgTokenLossTimeout_of_heard {s : State} {p : Nat} (heard : s.planeSilent p = false) : execZgTokenLossTimeout p s = .next s :=
  if_pos (by simp [heard])

theorem execZgTokenLossTimeout_of_silent {s : State} {p : Nat} (silent : s.planeSilent p = true) (plane : p < 16) :
    execZgTokenLossTimeout p s =
      let t := s.setFld 0x020 (16 + p) 1 1
      let u := if p = 0 then t.dropUncommitted else t.resendBursts p
      .next (u.putLoss { plane := p, base := lossBase s.now, reports := [], reported := false }) := by
  refine (if_neg (by simp [silent, plane])).trans ?_
  by_cases sync : p = 0
  · simp only [if_pos sync]; rfl
  · simp only [if_neg sync]; rfl

theorem execZgLossReport_of_broken {s : State} {f : List Word} (broken : s.frameOk f 3 = false) : execZgLossReport f s = .next s :=
  if_pos (by simp [broken])

theorem execZgLossReport_of_idle {s : State} {f : List Word} (whole : s.frameOk f 3 = true) (idle : s.lossOf (framePlane f) = none) :
    execZgLossReport f s = .next ((s.returned f).heard (framePlane f)) := by
  refine (if_neg (by simp [whole])).trans ?_
  dsimp only
  split
  · rfl
  · next lost => exact absurd (lost.symm.trans idle) nofun

/-- A report is kept, and before its own base a member adopts the reporter's. -/
theorem execZgLossReport_of_lost {s : State} {f : List Word} {l : Loss} (whole : s.frameOk f 3 = true) (lost : s.lossOf (framePlane f) = some l) :
    execZgLossReport f s = .next (((s.returned f).heard (framePlane f)).putLoss { l with
      base := if s.now < l.base then frameTlast f else l.base, reports := aset (frameFrom f) (frameSeq f) l.reports }) := by
  refine (if_neg (by simp [whole])).trans ?_
  dsimp only
  split
  · next idle => exact absurd (lost.symm.trans idle) nofun
  · next m found =>
    obtain rfl : l = m := Option.some.inj (lost.symm.trans found)
    rfl

theorem execZgLossReportSlot_of_idle {s : State} {p : Nat} (idle : s.lossOf p = none) : execZgLossReportSlot p s = .next s := by
  unfold execZgLossReportSlot
  rw [idle]

theorem execZgRegenerate_of_idle {s : State} {p : Nat} (idle : s.lossOf p = none) : execZgRegenerate p s = .next s := by
  unfold execZgRegenerate
  rw [idle]

section
variable {s : State} {p : Nat} {l : Loss} (lost : s.lossOf p = some l)
include lost

theorem execZgLossReportSlot_of_waiting (h : l.reported = true ∨ s.now < l.base + s.modid * s.lossSlot) : execZgLossReportSlot p s = .next s := by
  unfold execZgLossReportSlot
  rw [lost]
  refine if_pos ?_
  obtain reported | early := h
  · simp [reported]
  · simp [early]

/-- A member reports once, in its own slot. -/
theorem execZgLossReportSlot_of_slot (first : l.reported = false) (on : s.zgOn = true) (slot : l.base + s.modid * s.lossSlot ≤ s.now) :
    execZgLossReportSlot p s =
      let n := if p = 0 then s.lastCommitted else 0
      let u := s.putLoss { l with reported := true, reports := aset s.modid n l.reports }
      .next (u.sendFrame (u.mkFrame 3 u.nextMember p n l.base)) := by
  unfold execZgLossReportSlot
  rw [lost]
  exact if_neg (by simp [first, on, slot])

theorem execZgRegenerate_of_waiting (h : s.now < l.base + 32 * s.lossSlot ∨ (l.reports.map (·.1)).head? ≠ some s.modid) :
    execZgRegenerate p s = .next s := by
  unfold execZgRegenerate
  rw [lost]
  refine if_pos ?_
  obtain early | other := h
  · simp [early]
  · simp only [bne_iff_ne.mpr other, Bool.or_true]

/-- After the last slot the lowest member that reported regenerates the token. -/
theorem execZgRegenerate_of_lowest (on : s.zgOn = true) (last : l.base + 32 * s.lossSlot ≤ s.now)
    (lowest : (l.reports.map (·.1)).head? = some s.modid) :
    execZgRegenerate p s = .next (s.sendFrame (if p = 0 then s.mkFrame 2 s.modid 0 (maxReport l.reports) (s.timeOf (maxReport l.reports - 1))
      else s.mkFrame 2 s.modid p 0 0)) := by
  unfold execZgRegenerate
  rw [lost]
  exact if_neg (by simp only [on, lowest]; simp [last])

end

theorem execZgRegenerateFrame_of_broken {s : State} {f : List Word} (broken : s.frameOk f 2 = false) : execZgRegenerateFrame f s = .next s :=
  if_pos (by simp [broken])

/-- The lowest member that reported the highest number. -/
def Loss.holder (l : Loss) : Option Nat := ((l.reports.filter fun r => seqUp r.2 == maxReport l.reports).map (·.1)).head?

/-- The numbers that some member lacks of those another holds. -/
def Loss.lacked (l : Loss) : List Nat := (List.range (maxReport l.reports - minReport l.reports)).map (· + minReport l.reports)

/-- What a regenerate frame leaves before its member takes the token, with the numbers that this member is to send copies of. -/
def State.regenerated (s : State) (f : List Word) (cs : List Nat) : State :=
  let v := (((s.returned f).heard (framePlane f)).endLoss (framePlane f)).count (0x600 + 8 * framePlane f)
  (v.withZg { v.zg with copies := cs.map (·, []) ++ v.zg.copies.filter fun c => !cs.contains c.1 }).zgCommit f

/-- A regenerate frame ends the procedure, counts and commits. On the sync plane the lowest member with the highest report sends copies of what
others lack. -/
theorem execZgRegenerateFrame_of_whole {s : State} {f : List Word} {cs : List Nat} (whole : s.frameOk f 2 = true)
    (holds : ∀ l, s.lossOf (framePlane f) = some l → framePlane f = 0 ∧ l.holder = some s.modid → cs = l.lacked)
    (lacks : (∀ l, s.lossOf (framePlane f) = some l → ¬(framePlane f = 0 ∧ l.holder = some s.modid)) → cs = []) :
    execZgRegenerateFrame f s = .next ((s.regenerated f cs).takeToken f) := by
  refine (if_neg (by simp [whole])).trans ?_
  dsimp only
  split
  · next l lost =>
    split
    · next mine =>
      rw [holds l lost mine]
      rfl
    · next other =>
      rw [lacks fun m found => Option.some.inj (lost.symm.trans found) ▸ other]
      rfl
  · next idle =>
    rw [lacks fun l lost => absurd (lost.symm.trans idle) nofun]
    rfl

/-- On a data plane a regenerate frame commits nothing and asks for no copies. -/
theorem State.regenerated_of_data {s : State} {f : List Word} (data : framePlane f ≠ 0) :
    s.regenerated f [] = (((s.returned f).heard (framePlane f)).endLoss (framePlane f)).count (0x600 + 8 * framePlane f) := by
  have kept (l : List (Nat × List Nat)) : l.filter (fun c => !([] : List Nat).contains c.1) = l := List.filter_eq_self.mpr fun _ _ => rfl
  refine (if_pos data).trans ?_
  simp only [List.map_nil, List.nil_append, kept]
  rfl

/-- Settles O41: each step of the procedure by its lemma; on a data plane a regenerate frame asks for no copies. -/
theorem tokenLoss : Obligations.TokenLoss := by
  intro s u v p f cs
  refine ⟨execZgTokenLossTimeout_of_heard, fun silent plane hu => ?_, execZgLossReport_of_broken, execZgLossReport_of_idle,
    fun l => execZgLossReport_of_lost, fun idle => ⟨execZgLossReportSlot_of_idle idle, execZgRegenerate_of_idle idle⟩,
    fun l lost => ⟨execZgLossReportSlot_of_waiting lost, execZgRegenerate_of_waiting lost⟩, fun l n lost first on slot hn hu => ?_,
    fun l n rs lost on last reports => ?_, execZgRegenerateFrame_of_broken, fun whole hu hv => ?_⟩
  · refine (execZgTokenLossTimeout_of_silent silent plane).trans ?_
    split at hu
    · next sync => subst sync; rw [hu]; rfl
    · next data => subst hu; simp only [if_neg data]
  · subst hn hu
    exact execZgLossReportSlot_of_slot lost first on slot
  · have sends := execZgRegenerate_of_lowest lost on last (by rw [reports]; rfl)
    exact ⟨fun data => sends.trans (by rw [if_neg data]), fun sync => sends.trans (by rw [if_pos sync])⟩
  · subst hu hv
    have onData (data : framePlane f ≠ 0) := execZgRegenerateFrame_of_whole (cs := []) whole (fun _ _ sync => absurd sync.1 data) fun _ => rfl
    refine ⟨fun data other => ?_, fun data mine on => ?_, fun sync first none t ht => ?_⟩
    · refine (onData data).trans (congrArg Host.Outcome.next ?_)
      rw [State.regenerated_of_data data, State.takeToken_of_other other]
    · refine (onData data).trans (congrArg Host.Outcome.next ?_)
      rw [State.regenerated_of_data data, State.takeToken_of_mine mine on, State.tenure_data data]
    · have step : execZgRegenerateFrame f s = .next ((s.regenerated f cs).takeToken f) := by
        refine execZgRegenerateFrame_of_whole whole (fun l lost mine => first l (sync ▸ lost) mine.2) fun other => none ?_
        cases lost : s.lossOf 0 with
        | none => exact .inl lost
        | some l => exact .inr ⟨l, lost, fun mine => other l (sync ▸ lost) ⟨sync, mine⟩⟩
      subst ht
      refine ⟨fun other => step.trans (congrArg Host.Outcome.next ?_), fun mine on => step.trans (congrArg Host.Outcome.next ?_)⟩
      · exact State.takeToken_of_other other
      · exact (State.takeToken_of_mine mine on).trans (State.tenure_sync sync)
end Sys2Proof.Machine

namespace Sys2Proof.Machine

/-! ### Frames, messages and bursts as they arrive (R145-R148, R151) -/

theorem execZgPassFrame_of_broken {s : State} {f : List Word} (broken : s.frameOk f 1 = false) : execZgPassFrame f s = .next s :=
  if_pos (by simp [broken])

theorem execZgPassFrame_of_whole {s : State} {f : List Word} (whole : s.frameOk f 1 = true) :
    execZgPassFrame f s = .next (((s.passed f).zgCommit f).takeToken f) :=
  if_neg (by simp [whole])

theorem execZgSyncMessage_of_broken {s : State} {f : List Word} (broken : s.syncOk f = false) : execZgSyncMessage f s = .next s :=
  if_pos (by simpa [State.syncOk, Classical.or_iff_not_imp_left] using broken)

/-- What a whole sync message leaves before it is kept: one of a reserved kind is counted, a history copy has been sent. -/
def State.syncSeen (s : State) (f : List Word) : State :=
  let u := if syncKind f = 0 ∨ 6 < syncKind f then s.count 0x0A0 else s
  if syncKind f = 6 then u.withZg { u.zg with copies := adel (syncSeq f) u.zg.copies } else u

theorem execZgSyncMessage_of_ok {s : State} {f : List Word} (whole : s.syncOk f = true) :
    execZgSyncMessage f s =
      let v := s.syncSeen f
      if syncSeq f < v.zg.performed ∨ ∃ m ∈ v.zg.pending, syncSeq m = syncSeq f then .next v
      else .next (v.withZg { v.zg with pending := v.zg.pending ++ [f] }).zgKeep.zgWork := by
  refine (if_neg (by simpa [State.syncOk, and_assoc] using whole)).trans ?_
  simp only [Bool.or_eq_true, beq_iff_eq, decide_eq_true_eq, List.any_eq_true]
  rfl

theorem execZgDataBurst_of_stranger {s : State} {b : Burst} (h : s.zgOn = false ∨ b.src = s.modid ∨ b.src ∉ s.members) :
    execZgDataBurst b s = .next s := by
  refine if_pos ?_
  obtain off | own | stranger := h
  · simp [off]
  · simp [own]
  · simp [stranger]

theorem execZgDataBurst_of_member {s : State} {b : Burst} (on : s.zgOn = true) (member : b.src ∈ s.members) (other : b.src ≠ s.modid) :
    execZgDataBurst b s =
      let u := s.heard b.plane
      let rest := u.zg.bursts.filter fun x => !sameBurst x b.src b.plane b.burst
      let key := burstKey b.src b.plane b.burst
      if b.crcGood = false ∨ 4 ≤ (rest.filter fun x => x.src == b.src && x.plane == b.plane).length then .next (u.badResend b)
      else .next (u.withZg { u.zg with
        bursts := rest ++ [b], resends := adel key u.zg.resends, fresh := key :: u.zg.fresh.filter (· != key) }).zgWork := by
  refine (if_neg (by simp [on, member, other])).trans ?_
  simp only [Bool.not_eq_true']
  rfl

section
variable {s : State} {b : Burst}

theorem State.badResend_of_first (first : ahas (burstKey b.src b.plane b.burst) s.zg.resends = false) : s.badResend b = s :=
  if_pos (by simp [first])

theorem State.badResend_of_asked (asked : ahas (burstKey b.src b.plane b.burst) s.zg.resends = true) :
    s.badResend b =
      let key := burstKey b.src b.plane b.burst
      let n := aget 0 key s.zg.resends + 1
      if 4 ≤ n then s.zgFence
      else (s.withZg { s.zg with resends := aset key n s.zg.resends }).syncQueue (s.resendReq b.plane b.burst b.src 0) :=
  if_neg (by simp [asked])

end

/-! ### Commitment, and committed messages in order (R100, R106, R147-R149) -/

theorem State.zgCommit_of_sync {s : State} {f : List Word} (sync : framePlane f = 0) (member : s.zg.rejoin = false) :
    s.zgCommit f =
      let u := if s.zg.committed < frameSeq f then
        (({ s with moduleFloor := max s.moduleFloor (frameTlast f) } : State).withZg { s.zg with committed := frameSeq f }).zgKeep else s
      (u.withZg { u.zg with seq := frameSeq f, tlast := frameTlast f }).zgWork := by
  unfold State.zgCommit
  rw [if_neg (not_not_intro sync)]
  dsimp only
  split
  · rw [if_neg (by simp [State.zgKeep, member])]
    rfl
  · rw [if_neg (by simp [member])]
    rfl

section
variable {s : State} {n : Nat}

theorem State.zgDrain_of_performed (all : s.zg.committed ≤ s.zg.performed) : s.zgDrain (n + 1) = s := if_pos all

theorem State.zgDrain_of_missing (next : s.zg.performed < s.zg.committed)
    (missing : s.zg.pending.find? (fun x => syncSeq x == s.zg.performed) = none) (lost : s.zg.skip ≤ s.zg.performed) :
    s.zgDrain (n + 1) = if 256 < s.zg.committed - s.zg.performed then s.zgFence
      else s.askOnce (2 ^ 40 + s.zg.performed) (s.resendReq 0 0 0 s.zg.performed) := by
  unfold State.zgDrain
  rw [if_neg (Nat.not_le_of_lt next), missing]
  exact if_neg (Nat.not_lt_of_le lost)

/-- The next committed message that this member holds is tried; one that must wait holds every later one. -/
theorem State.zgDrain_of_held {m : List Word} (next : s.zg.performed < s.zg.committed)
    (held : s.zg.pending.find? (fun x => syncSeq x == s.zg.performed) = some m) :
    s.zgDrain (n + 1) =
      let r := s.syncPerform m
      if !r.2 && decide (s.zg.skip ≤ s.zg.performed) then r.1.askBurst m
      else (r.1.withZg { r.1.zg with
        performed := r.1.zg.performed + 1, pending := r.1.zg.pending.filter fun x => syncSeq x != syncSeq m }).zgDrain n := by
  conv_lhs => unfold State.zgDrain
  rw [if_neg (Nat.not_le_of_lt next), held]
  rfl

end

/-- The kind that a message is performed as: a history copy as what it copies (log 30). -/
def performedKind (m : List Word) : Nat := if syncKind m = 6 then copiedKind m else syncKind m

section
variable {s u : State} {m : List Word}

section
variable (store : performedKind m = 1)
include store

theorem State.syncPerform_of_waiting_store (waits : s.groupWrite (syncSrc m) (syncGa m) ((syncPay m).take (syncLen m)) = none) :
    s.syncPerform m = (s, false) := by
  unfold State.syncPerform
  rw [← performedKind, store, waits]
  rfl

theorem State.syncPerform_of_store (other : syncSrc m ≠ s.modid)
    (writes : s.groupWrite (syncSrc m) (syncGa m) ((syncPay m).take (syncLen m)) = some u) : s.syncPerform m = (u, true) := by
  unfold State.syncPerform
  rw [← performedKind, store, writes]
  simp [other]

end

section
variable (absent : ∀ b ∈ s.zg.bursts, b.crcGood = true → sameBurst b (syncSrc m) (syncPlane m) (syncBurst m) = false)
variable (marker : performedKind m = 2)
include marker absent

theorem State.syncPerform_of_absent_burst : s.syncPerform m = (s, false) := by
  have none_good : s.zg.bursts.find? (fun b => b.crcGood && sameBurst b (syncSrc m) (syncPlane m) (syncBurst m)) = none :=
    List.find?_eq_none.mpr fun b hb => by simpa using absent b hb
  unfold State.syncPerform
  rw [← performedKind, marker, none_good]
  rfl

/-- A marker asks for the burst it commits. -/
theorem State.askBurst_of_absent_burst :
    s.askBurst m = s.askOnce (burstKey (syncSrc m) (syncPlane m) (syncBurst m)) (s.resendReq (syncPlane m) (syncBurst m) (syncSrc m) 0) :=
  if_pos ⟨marker, by simpa using absent⟩

end

theorem State.syncPerform_of_group (group : performedKind m = 3) :
    s.syncPerform m =
      if syncOpc m < 0x10 ∨ 0x13 < syncOpc m then (s.count 0x0A0, true)
      else if syncSrc m = s.modid then s.grpCommit (syncCore m) (syncDetail m / 2 ^ 39 % 4096) (syncTime m) else (s, true) := by
  unfold State.syncPerform
  rw [← performedKind, group]
  simp only [beq_iff_eq]

theorem State.syncPerform_of_arrival (arrival : performedKind m = 4) :
    s.syncPerform m =
      let r := s.groupArrival (syncSrc m) (syncDetail m) (syncTime m)
      (if r.1 then r.2 else r.2.count 0x0A0, true) := by
  unfold State.syncPerform
  rw [← performedKind, arrival]
  rfl

end

/-! ### Quartz across the group (R153) -/

theorem execQtzCorrection_of_early {s : State} (h : s.zg.delta = 0 ∨ s.now < s.zg.lastCorr + (if s.zg.fast then 64 else 1024)) :
    execQtzCorrection s = .next s :=
  if_pos h

section
variable {s : State} (due : s.zg.lastCorr + (if s.zg.fast then 64 else 1024) ≤ s.now)
include due

/-- Quartz that is ahead holds one count. -/
theorem execQtzCorrection_of_ahead (ahead : 0 < s.zg.delta) :
    execQtzCorrection s = .next (s.withZg { s.zg with
      delta := s.zg.delta - 1, lastCorr := s.now, skipped := false, fast := s.zg.fast && decide (9 < s.zg.delta) }) := by
  have far : decide (9 < s.zg.delta) = decide (8 < s.zg.delta - 1) := decide_eq_decide.mpr (by omega)
  rw [far]
  exact (if_neg (not_or.mpr ⟨by omega, Nat.not_lt_of_le due⟩)).trans (if_pos ahead)

/-- Quartz that is behind skips one count. -/
theorem execQtzCorrection_of_behind (behind : s.zg.delta < 0) :
    execQtzCorrection s = .next (({ s with quartz := s.quartz + 2 } : State).withZg { s.zg with
      delta := s.zg.delta + 1, lastCorr := s.now + 2, skipped := true, fast := s.zg.fast && decide (s.zg.delta < -9) }) := by
  have far : decide (s.zg.delta < -9) = decide (s.zg.delta + 1 < -8) := decide_eq_decide.mpr (by omega)
  rw [far]
  exact (if_neg (not_or.mpr ⟨by omega, Nat.not_lt_of_le due⟩)).trans (if_neg (by omega))

end

/-- Settles O40: each arrival, each turn of the drain and each correction by its lemma; the token that a pass frame hands on is `State.takeToken`. -/
theorem planeArrivals : Obligations.PlaneArrivals := by
  refine ⟨fun s u v f b rest key => ?_, fun s u f m n done => ?_, fun s => ?_⟩
  · refine ⟨execZgPassFrame_of_broken, fun whole hu => ⟨fun other => ?_, fun mine on => ?_⟩,
      execZgSyncMessage_of_broken, fun whole hu hv => ?_,
      execZgDataBurst_of_stranger, fun on member other hu hk hr => ?_⟩
    · subst hu
      exact (execZgPassFrame_of_whole whole).trans (congrArg Host.Outcome.next (State.takeToken_of_other other))
    · subst hu
      exact (execZgPassFrame_of_whole whole).trans (congrArg Host.Outcome.next (State.takeToken_of_mine mine on))
    · have step := execZgSyncMessage_of_ok whole
      subst hu
      rw [show s.syncSeen f = v from hv.symm] at step
      refine ⟨fun known => step.trans (if_pos known), fun unseen unkept => step.trans (if_neg ?_)⟩
      rintro (seen | ⟨m, hm, same⟩)
      · exact absurd unseen (Nat.not_le_of_lt seen)
      · exact unkept m hm same
    · have step := execZgDataBurst_of_member on member other
      subst hu hr hk
      refine ⟨fun good room => step.trans (if_neg (not_or.mpr ⟨by simp [good], Nat.not_le_of_lt room⟩)), fun bad => ?_⟩
      have fails := step.trans (if_pos bad)
      refine ⟨fun first => fails.trans ?_, fun asked few => fails.trans ?_, fun asked many => fails.trans ?_⟩
      · rw [State.badResend_of_first first]
      · rw [State.badResend_of_asked asked]
        exact congrArg Host.Outcome.next (if_neg (by omega))
      · rw [State.badResend_of_asked asked]
        exact congrArg Host.Outcome.next (if_pos (by omega))
  · refine ⟨fun sync member new hu => ?_, fun sync member old => ?_, fun off => if_neg (by simp [off]), fun on => if_pos on,
      State.zgDrain_of_performed, fun next missing lost => ?_, fun next held performs => ?_, fun k hk => ?_⟩
    · rw [State.zgCommit_of_sync sync member, if_pos new, hu]
    · rw [State.zgCommit_of_sync sync member, if_neg (Nat.not_lt_of_le old)]
    · have asks := State.zgDrain_of_missing (n := n) next missing lost
      exact ⟨fun far => asks.trans (if_pos (by omega)), fun near => asks.trans (if_neg (by omega))⟩
    · have tried := State.zgDrain_of_held (n := n) next held
      rw [performs] at tried
      refine ⟨fun whole => tried.trans (if_neg (by simp [whole])), fun waits lost => tried.trans (if_pos (by simp [waits, lost]))⟩
    · subst hk
      refine ⟨State.syncPerform_of_waiting_store, fun store other writes _ => State.syncPerform_of_store store other writes,
        fun marker absent => ⟨State.syncPerform_of_absent_burst absent marker, State.askBurst_of_absent_burst absent marker⟩,
        fun group bad => ?_, fun group lo hi other => ?_, fun group lo hi own => ?_, fun arrival arrives => ?_, fun arrival arrives => ?_⟩
      · exact (State.syncPerform_of_group group).trans (if_pos bad)
      · exact (State.syncPerform_of_group group).trans ((if_neg (by omega)).trans (if_neg other))
      · exact (State.syncPerform_of_group group).trans ((if_neg (by omega)).trans (if_pos own))
      · rw [State.syncPerform_of_arrival arrival, arrives]
        rfl
      · rw [State.syncPerform_of_arrival arrival, arrives]
        rfl
  · exact ⟨execQtzCorrection_of_early, fun due => ⟨execQtzCorrection_of_ahead due, execQtzCorrection_of_behind due⟩⟩

end Sys2Proof.Machine

namespace Sys2Proof.Machine

/-! ### Remote window writes (R139-R141) -/

@[simp] theorem State.withFab_modid (s : State) (f : Fabric) : (s.withFab f).modid = s.modid := rfl
@[simp] theorem State.withFab_mem (s : State) (f : Fabric) : (s.withFab f).mem = s.mem := rfl
@[simp] theorem State.withFab_core (s : State) (f : Fabric) : (s.withFab f).core = s.core := rfl
@[simp] theorem State.withFab_store (s : State) (f : Fabric) : (s.withFab f).store = s.store := rfl
@[simp] theorem State.withFab_reg (s : State) (f : Fabric) (a : Nat) : (s.withFab f).reg a = s.reg a := rfl
@[simp] theorem State.scMark_fab (s : State) (stamp : Option (Nat × Nat)) (ss : List Span) : (s.scMark stamp ss).fab = s.fab := by
  cases stamp <;> rfl
@[simp] theorem State.scMark_mem (s : State) (stamp : Option (Nat × Nat)) (ss : List Span) : (s.scMark stamp ss).mem = s.mem := by
  cases stamp <;> rfl
@[simp] theorem State.scMark_store (s : State) (stamp : Option (Nat × Nat)) (ss : List Span) : (s.scMark stamp ss).store = s.store := by
  cases stamp <;> rfl
@[simp] theorem State.scMark_core (s : State) (stamp : Option (Nat × Nat)) (ss : List Span) : (s.scMark stamp ss).core = s.core := by
  cases stamp <;> rfl
@[simp] theorem State.scMark_dev (s : State) (stamp : Option (Nat × Nat)) (ss : List Span) : (s.scMark stamp ss).dev = s.dev := by
  cases stamp <;> rfl

/-- The answer to a write leaves all but what is on its way out; one of this module is acknowledged here. -/
theorem State.windowAnswer_frame (s : State) (w : WinWrite) (refused : Bool) :
    ∃ waiting acks, s.windowAnswer w refused = s.withFab { s.fab with waiting := waiting, winAcks := acks } ∧
      (w.smod = s.modid → acks = s.fab.winAcks ++ [(w.sclu, w.slot, w.seq, refused)]) := by
  by_cases own : w.smod = s.modid
  · exact ⟨s.fab.waiting, _, if_pos own, fun _ => rfl⟩
  · exact ⟨_, s.fab.winAcks, if_neg own, fun h => absurd h own⟩

/-- A write that is over at its target leaves the early arrivals, and the next of its source is awaited (R140). -/
def State.windowNext (s : State) (w : WinWrite) : State :=
  s.withFab { s.fab with
    winBuf := s.fab.winBuf.erase w, winNext := (winKey w, (w.seq + 1) % 2 ^ 16) :: s.fab.winNext.filter fun p => p.1 != winKey w }

/-- What a write does at its target: its bytes, where a window admits it, or a count. -/
def State.windowTaken (s : State) (w : WinWrite) : State :=
  if s.windowAdmits w then (s.putStore (storeAddr w.clu w.off) w.data).scMark w.stamp [storeSpan w.clu w.off w.data.length] else s.winRef w.clu

theorem State.modid_count_cluster (s : State) (g o : Nat) : (s.count (clusterBase g + o)).modid = s.modid := by
  unfold State.modid State.rfld
  rw [s.reg_count_of_ne]
  unfold clusterBase
  omega

@[simp] theorem State.windowTaken_fab (s : State) (w : WinWrite) : (s.windowTaken w).fab = s.fab := by
  unfold State.windowTaken
  split
  · exact State.scMark_fab ..
  · rfl

@[simp] theorem State.windowTaken_mem (s : State) (w : WinWrite) : (s.windowTaken w).mem = s.mem := by
  unfold State.windowTaken
  split
  · exact State.scMark_mem ..
  · rfl

@[simp] theorem State.windowTaken_core (s : State) (w : WinWrite) : (s.windowTaken w).core = s.core := by
  unfold State.windowTaken
  split
  · exact State.scMark_core ..
  · rfl

@[simp] theorem State.windowTaken_modid (s : State) (w : WinWrite) : (s.windowTaken w).modid = s.modid := by
  unfold State.windowTaken
  split
  · unfold State.modid State.rfld State.reg
    rw [State.scMark_dev]
    rfl
  · exact s.modid_count_cluster w.clu 0x020

theorem State.windowTaken_store_of_admitted {s : State} {w : WinWrite} (admitted : s.windowAdmits w = true) :
    (s.windowTaken w).store = cellWrite s.store (2 ^ 21 * w.clu + w.off) w.data := by
  unfold State.windowTaken
  rw [if_pos admitted]
  exact State.scMark_store ..

theorem State.windowTaken_of_refused {s : State} {w : WinWrite} (refused : s.windowAdmits w = false) :
    s.windowTaken w = s.count (clusterBase w.clu + 0x020) :=
  if_neg (by simp [refused])

theorem State.windowPerform_of_next {s : State} {w : WinWrite} {n : Nat}
    (next : s.fab.winBuf.find? (fun w => w.seq == s.winNextOf (winKey w)) = some w) :
    s.windowPerform (n + 1) = (((s.windowTaken w).windowNext w).windowAnswer w (!s.windowAdmits w)).windowPerform n := by
  conv_lhs => unfold State.windowPerform
  rw [next]
  rfl

theorem State.windowPerform_of_early {s : State} (early : ∀ x ∈ s.fab.winBuf, x.seq ≠ s.winNextOf (winKey x)) (n : Nat) :
    s.windowPerform n = s := by
  cases n with
  | zero => rfl
  | succ n =>
    unfold State.windowPerform
    rw [List.find?_eq_none.mpr fun x hx => by simp [early x hx]]

theorem execWindowWriteArrival_of_absent {s : State} {w : WinWrite} (absent : w ∉ s.fab.winFly) : execWindowWriteArrival w s = .next s :=
  if_pos (by simp [absent])

section
variable {s : State} {w : WinWrite} (flies : s.fab.winFly = [w])
include flies

theorem execWindowWriteArrival_of_room
    (room : w.seq = s.winNextOf (winKey w) ∨ (s.fab.winBuf.filter fun x => x.clu / 32 == w.clu / 32).length < 64) :
    execWindowWriteArrival w s =
      .next ((s.withFab { s.fab with winFly := [], winBuf := s.fab.winBuf ++ [w] }).windowPerform (s.fab.winBuf ++ [w]).length) := by
  have step : execWindowWriteArrival w s =
      let t := s.withFab { s.fab with winFly := s.fab.winFly.erase w, winBuf := s.fab.winBuf ++ [w] }
      .next (t.windowPerform (s.fab.winBuf ++ [w]).length) := by
    refine (if_neg (by simp [flies])).trans (if_neg ?_)
    rintro ⟨early, full⟩
    exact room.elim early (Nat.not_lt_of_le full)
  rwa [show s.fab.winFly.erase w = [] by simp [flies]] at step

theorem execWindowWriteArrival_of_full (early : w.seq ≠ s.winNextOf (winKey w))
    (full : 64 ≤ (s.fab.winBuf.filter fun x => x.clu / 32 == w.clu / 32).length) : execWindowWriteArrival w s = .next s :=
  (if_neg (by simp [flies])).trans (if_pos ⟨early, full⟩)

/-- The one write that has arrived, next in its sequence, is performed or counted, and answered (R140). -/
theorem execWindowWriteArrival_of_next (alone : s.fab.winBuf = []) (next : w.seq = s.winNextOf (winKey w)) :
    ∃ t : State, execWindowWriteArrival w s = .next t ∧
      (t.fab.winNext = (winKey w, (w.seq + 1) % 2 ^ 16) :: s.fab.winNext.filter (fun p => p.1 != winKey w) ∧
        t.fab.winFly = [] ∧ t.fab.winBuf = []) ∧
      (w.smod = s.modid → t.fab.winAcks = s.fab.winAcks ++ [(w.sclu, w.slot, w.seq, !s.windowAdmits w)]) ∧ t.mem = s.mem ∧ t.core = s.core ∧
      t.store = ((s.withFab { s.fab with winFly := [], winBuf := [w] }).windowTaken w).store ∧
      ∀ a, t.reg a = ((s.withFab { s.fab with winFly := [], winBuf := [w] }).windowTaken w).reg a := by
  let start := s.withFab { s.fab with winFly := [], winBuf := [w] }
  have due : start.fab.winBuf.find? (fun w => w.seq == start.winNextOf (winKey w)) = some w := List.find?_cons_of_pos (beq_iff_eq.mpr next)
  have step : execWindowWriteArrival w s = .next (start.windowPerform 1) := by
    refine (execWindowWriteArrival_of_room flies (.inl next)).trans ?_
    rw [alone]
    rfl
  obtain ⟨waiting, acks, answered, acked⟩ := ((start.windowTaken w).windowNext w).windowAnswer_frame w (!start.windowAdmits w)
  rw [State.windowPerform_of_next due, answered] at step
  unfold State.windowNext at step acked
  rw [State.withFab_modid, State.windowTaken_modid] at acked
  rw [State.windowTaken_fab] at step acked
  refine ⟨_, step, ⟨rfl, rfl, List.erase_cons_head w []⟩, acked, ?_, ?_, ?_, fun a => ?_⟩ <;> unfold State.windowPerform
  · rw [State.withFab_mem, State.withFab_mem]
    exact start.windowTaken_mem w
  · rw [State.withFab_core, State.withFab_core]
    exact start.windowTaken_core w
  · rw [State.withFab_store, State.withFab_store]
  · rw [State.withFab_reg, State.withFab_reg]

end

section
variable {s : State} {clu slot seq k i : Nat} {o : MemOp} {refused : Bool}

theorem execWindowAck_of_none (h : (s.windowOps clu).findSome? (fun p => (p.2.winAt slot seq).map fun i => (p.1, p.2, i)) = none) :
    execWindowAck clu slot seq refused s = .next s := by
  unfold execWindowAck
  rw [h]

variable (found : (s.windowOps clu).findSome? (fun p => (p.2.winAt slot seq).map fun i => (p.1, p.2, i)) = some (k, o, i))
include found

theorem execWindowAck_of_own {own : Bool} (here : (o.spans[i]?.map fun p => p.addr / 2 ^ 29) = some s.modid)
    (acks : s.fab.winAcks = [(clu, slot, seq, own)]) :
    execWindowAck clu slot seq refused s =
      let t := s.withFab { s.fab with winAcks := [] }
      .next ((if own then t.count (clusterBase clu + 0x020) else t).windowDone k o i) := by
  have left : s.fab.winAcks.erase (clu, slot, seq, own) = [] := by simp [acks]
  rw [← left]
  unfold execWindowAck
  rw [found]
  refine (if_pos here).trans ?_
  rw [show s.fab.winAcks.find? (fun a => a.1 == clu && a.2.1 == slot && a.2.2.1 == seq) = some (clu, slot, seq, own) by simp [acks]]
  rfl

theorem execWindowAck_of_remote (there : (o.spans[i]?.map fun p => p.addr / 2 ^ 29) ≠ some s.modid) :
    execWindowAck clu slot seq refused s =
      let t := s.withFab { s.fab with e2e := s.fab.e2e.filter fun e => !e.isWindow clu slot seq }
      .next ((if refused then t.count (clusterBase clu + 0x020) else t).windowDone k o i) := by
  unfold execWindowAck
  rw [found]
  exact if_neg there

end

section
variable {s : State} {k i slot : Nat} {o : MemOp} {q : Span} (span : o.spans[i]? = some q) (posted : o.slot = some slot)
include span posted

/-- The units of a write return; the operation is kept until its last write is over (R139). -/
theorem State.windowDone_of_posted :
    s.windowDone k o i =
      let g := (s.coreAt k).cluster
      let v := s.windowCount g slot (s.windowOut g slot - windowUnits q)
      if (aset i [] o.got).length < o.spans.length then
        v.modCore k fun c => { c with ops := c.ops.map fun x => if x.uid = o.uid then { o with got := aset i [] o.got } else x }
      else
        let t := v.modCore k fun c => { c with ops := c.ops.filter fun x => x.uid != o.uid }
        match o.job with
        | some j => t.jobWrote j
        | none => t := by
  unfold State.windowDone
  rw [span, posted]
  rfl

end

/-- Settles O39: a write that has come in its turn leaves what `State.windowTaken` does and its answer; an early one is kept or stays on its way; an
acknowledgement gives back the units of its write. -/
theorem windowWrites : Obligations.WindowWrites := by
  intro s w clu slot seq k i o ref
  refine ⟨fun flies alone next after hafter => ⟨fun admitted => ?_, fun refused => ?_⟩,
    fun flies early waiting => ⟨fun room => ?_, execWindowWriteArrival_of_full flies early⟩, execWindowWriteArrival_of_absent,
    fun found => ⟨fun own here acks t ht => ?_, fun there t ht => ?_⟩, execWindowAck_of_none, fun v q span posted _ hv => ?_⟩
  · obtain ⟨t, step, hfab, hacks, hmem, hcore, hstore, -⟩ := execWindowWriteArrival_of_next flies alone next
    obtain ⟨nexts, fly, buf⟩ := hfab
    exact ⟨t, step, hstore.trans (State.windowTaken_store_of_admitted admitted), nexts.trans hafter.symm, fly, buf, hmem, hcore, fun own => by
      rw [hacks own, admitted]; rfl⟩
  · obtain ⟨t, step, hfab, hacks, hmem, hcore, hstore, hreg⟩ := execWindowWriteArrival_of_next flies alone next
    have taken := State.windowTaken_of_refused (s := s.withFab { s.fab with winFly := [], winBuf := [w] }) refused
    rw [taken] at hstore hreg
    exact ⟨t, step, hstore, hfab.1.trans hafter.symm, hmem, hcore, fun a other => (hreg a).trans (State.reg_count_of_ne _ other), fun own => by
      rw [hacks own, refused]; rfl⟩
  · refine (execWindowWriteArrival_of_room flies (.inr room)).trans (congrArg Host.Outcome.next (State.windowPerform_of_early (fun x hx => ?_) _))
    obtain buffered | rfl := List.mem_append.mp hx |>.imp_right List.mem_singleton.mp
    · exact waiting x buffered
    · exact early
  · subst ht
    exact execWindowAck_of_own found here acks
  · subst ht
    exact execWindowAck_of_remote found there
  · subst hv
    have done := State.windowDone_of_posted (s := s) (k := k) span posted
    refine ⟨fun more => done.trans (if_pos more), fun last alone => done.trans ((if_neg (Nat.not_lt_of_le last)).trans ?_)⟩
    rw [alone]
end Sys2Proof.Machine

namespace Sys2Proof.Machine

/-! ### Flits of the package ring (R119-R123) -/

section
variable {s : State} {f : Flit}

theorem execRingFirstFlit_of_room (first : f.idx = 0) (free : f.rsv = false ∨ flitKey f ∉ s.fab.resv) :
    execRingFirstFlit f true s =
      .next (State.takeFlit (s.withFab { s.fab with returned := s.fab.returned.filter fun r => !sameMsg r.flit f }) f) := by
  have unheld : (f.rsv && s.fab.resv.contains (flitKey f)) = false := by
    obtain unreserved | absent := free
    · simp [unreserved]
    · simp [absent]
  refine (if_neg (not_not_intro first)).trans ((if_pos (Bool.true_or _)).trans ?_)
  rw [unheld]
  rfl

theorem execRingFirstFlit_of_reserved (room : Bool) (first : f.idx = 0) (claims : f.rsv = true) (held : flitKey f ∈ s.fab.resv) :
    execRingFirstFlit f room s = .next (State.takeFlit (s.withFab { s.fab with
      resv := s.fab.resv.erase (flitKey f), returned := s.fab.returned.filter fun r => !sameMsg r.flit f }) f) := by
  have held' : (f.rsv && s.fab.resv.contains (flitKey f)) = true := by simp [claims, held]
  refine (if_neg (not_not_intro first)).trans ((if_pos (by simp [claims, held])).trans ?_)
  rw [held']
  rfl

/-- A message whose buffer has no room goes on once, and then reserves a place and goes back to its source (R122). -/
theorem execRingFirstFlit_of_full (first : f.idx = 0) (free : f.rsv = false ∨ flitKey f ∉ s.fab.resv) :
    execRingFirstFlit f false s =
      if f.rfs then
        .next (State.goesOn (if (s.fab.resv.filter fun r => r.1 == flitTo f && r.2.1 == flitFrom f && r.2.2.2 == f.rack).length < 4 ∧
            flitKey f ∉ s.fab.resv then s.withFab { s.fab with resv := s.fab.resv ++ [flitKey f] } else s) f true)
      else .next (s.goesOn { f with rfs := true } false) := by
  have unheld : (f.rsv && s.fab.resv.contains (flitKey f)) = false := by
    obtain unreserved | absent := free
    · simp [unreserved]
    · simp [absent]
  refine (if_neg (not_not_intro first)).trans ((if_neg (by simp only [unheld]; simp)).trans ?_)
  simp only [Bool.and_eq_true, decide_eq_true_eq, Bool.not_eq_true', List.contains_eq_mem, decide_eq_false_iff_not]
  rfl

theorem execRingFirstFlit_of_continuation (room : Bool) (later : f.idx ≠ 0) :
    execRingFirstFlit f room s = .next (if ∃ g ∈ s.fab.incoming, sameMsg f g = true ∧ g.idx = 0 then s.takeFlit f else s.goesOn f false) := by
  refine (if_pos later).trans ?_
  simp only [List.any_eq_true, Bool.and_eq_true, beq_iff_eq]

theorem State.takeFlit_of_ring (package : f.rack = false) :
    s.takeFlit f = s.withFab { s.fab with ring := s.fab.ring.filter fun r => !sameFlit r.flit f, incoming := assemble s.fab.incoming f } :=
  if_neg (by simp [package])

/-- A flit goes into a slot that no other flit has, in the direction with fewer hops (R119, R121). -/
theorem State.insertFlit_slot {t : State} (enters : s.insertFlit f = some t) :
    ∃ r : RingSlot, t = s.withFab { s.fab with ring := s.fab.ring ++ [r] } ∧ r.flit = { f with cw := r.cw } ∧
      r.cw = decide ((stationPos f.dst + 10 - stationPos f.src) % 10 ≤ 5) ∧ r.back = false ∧
      (∀ q ∈ s.fab.ring, q.cw = r.cw → q.lane = r.lane → q.slot ≠ r.slot) := by
  obtain ⟨l, free, rfl⟩ := Option.map_eq_some_iff.mp enters
  refine ⟨_, rfl, rfl, rfl, rfl, fun q hq cw lane slot => ?_⟩
  have empty := List.find?_some free
  simp only [Bool.not_eq_true', List.any_eq_false, Bool.and_eq_true, beq_iff_eq, not_and] at empty
  exact empty q hq ⟨cw, lane⟩ slot

end

/-! ### Messages that went back to their source (R122, R123, R126) -/

/-- A message that was put back onto its ring keeps its count of returns until it is taken. -/
def State.putBack (s : State) (f : Flit) : State :=
  s.withFab { s.fab with returned := s.fab.returned.map fun x => if sameMsg x.flit f = true then { x with due := 2 ^ 64 } else x }

section
variable {s : State} {r : Returned} (one : s.fab.returned = [r]) (due : r.due ≤ s.now)
include one due

theorem State.reinsert_of_due {rack : Bool} {src tag : Nat} (ring : r.flit.rack = rack) (source : flitFrom r.flit = src) (same : r.flit.tag = tag) :
    s.reinsert rack src tag =
      match if rack then some (s.rackSend (s.goesCw s.modid r.flit.dmod) 0 [{ r.flit with cw := s.goesCw s.modid r.flit.dmod }])
        else s.insertFlit r.flit with
      | none => s
      | some t => t.putBack r.flit := by
  unfold State.reinsert
  rw [one, List.find?_cons_of_pos (by simp [ring, source, same, due])]
  rfl

end

theorem State.reinsert_of_early {s : State} (early : ∀ r ∈ s.fab.returned, s.now < r.due) (rack : Bool) (src tag : Nat) :
    s.reinsert rack src tag = s := by
  unfold State.reinsert
  rw [List.find?_eq_none.mpr fun r hr => by simp [early r hr]]

/-! ### Flits of the rack ring (R125, R135) -/

theorem State.forwardFlit_of_here {s : State} {f : Flit} {cw : Bool} (here : f.dmod = s.modid) :
    s.forwardFlit f cw = s.takeFlit { f with cw := cw, rack := true } :=
  if_pos here

theorem State.forwardFlit_of_other {s : State} {f : Flit} {cw : Bool} (other : f.dmod ≠ s.modid) :
    s.forwardFlit f cw =
      let out := if s.bundleCut (if cw then 0 else 2) then !cw else cw
      s.withFab { s.fab with waiting := s.fab.waiting ++ [(if out then 0 else 2, s.now + 12, { f with cw := cw, rack := true })] } :=
  if_neg other

/-! ### Accesses of other modules (R127) -/

section
variable {s t : State} {src sq : Nat} {p : PeerReq} {x : PeerAnswer}

theorem execPeerAccess_of_waiting (waits : s.peerPerform src p = none) : execPeerAccess src p s = .next s := by
  unfold execPeerAccess
  rw [waits]

theorem execPeerAccess_of_unprotected (performs : s.peerPerform src p = some (t, x)) (unkept : ∀ y ∈ s.fab.peers, y.1 = src → y.2.2 ≠ p) :
    execPeerAccess src p s = .next (t.answerPeer src (answerCode p.kind) 0 x) := by
  have none_kept : s.fab.peers.find? (fun y => y.1 == src && y.2.2 == p) = none :=
    List.find?_eq_none.mpr fun y hy => by simpa using unkept y hy
  unfold execPeerAccess
  rw [performs]
  dsimp only
  rw [none_kept]

theorem execPeerAccess_of_kept {y : Nat × Nat × PeerReq} (performs : s.peerPerform src p = some (t, x))
    (kept : s.fab.peers.find? (fun y => y.1 == src && y.2.2 == p) = some y) :
    execPeerAccess src p s = .next (((t.withFab { t.fab with peers := t.fab.peers.erase y }).keepResult src y.2.1 p x).answerPeer src
      (answerCode p.kind) y.2.1 x) := by
  unfold execPeerAccess
  rw [performs]
  dsimp only
  rw [kept]
  rfl

/-- An access that no entry of the peer list admits is counted, recorded and answered as refused. -/
theorem State.peerPerform_of_refused (access : PeerKind.access p.kind = true)
    (refused : ∀ c, s.peerAdmits src (peerPhys p.addr) (peerLen p.kind) (peerWrites p.kind) ≠ some c) :
    s.peerPerform src p = some (s.peerRefuse src p.addr, { status := 1, data := if peerWrites p.kind then [] else zeroBytes (peerLen p.kind) }) := by
  have unadmitted : s.peerAdmits src (peerPhys p.addr) (peerLen p.kind) (peerWrites p.kind) = none := Option.eq_none_iff_forall_ne_some.mpr refused
  have stopped (c : Prop) [Decidable c] : (if c then s.peerAdmits src (peerPhys p.addr) (peerLen p.kind) (peerWrites p.kind) else none) = none := by
    rw [unadmitted]
    exact ite_self _
  unfold State.peerPerform
  dsimp only
  rw [stopped]
  cases kind : p.kind with
  | window w | interest k m | publish k m => rw [kind] at access; exact absurd access nofun
  | read n | write d | atomic op size v e | rowAdd es sat row => rfl

/-! ### Protected requests at their destination (R129) -/

theorem execE2eRequest_of_new (new : NewNumber (s.e2eSrcOf src) sq) (room : Bool) :
    execE2eRequest src sq room p s = .next (if room then (s.numberTaken src sq).e2eServe src sq p else s) := by
  obtain ⟨above, near, fresh⟩ := new
  refine (if_neg (by simp [fresh]; omega)).trans ?_
  cases room with
  | false => exact if_pos (by simp)
  | true => exact if_neg (by simp; omega)

theorem execE2eRequest_of_far
    (far : 1024 < (sq + 2 ^ 24 - (s.e2eSrcOf src).high) % 2 ^ 24 ∧ (sq + 2 ^ 24 - (s.e2eSrcOf src).high) % 2 ^ 24 < 2 ^ 23 ∧
      sq ∉ (s.e2eSrcOf src).got) (room : Bool) : execE2eRequest src sq room p s = .next s := by
  obtain ⟨beyond, ahead, fresh⟩ := far
  exact (if_neg (by simp [fresh]; omega)).trans (if_pos (.inl beyond))

theorem execE2eRequest_of_old (old : OldNumber (s.e2eSrcOf src) sq) (room : Bool) :
    execE2eRequest src sq room p s = .next ((s.count (bridgeBase (s.bridgeFrom src) + 0x008)).e2eAgain src sq p) :=
  if_pos (by simpa [OldNumber] using old)

theorem State.e2eServe_of_performed (access : PeerKind.access p.kind = true) (performs : s.peerPerform src p = some (t, x)) :
    s.e2eServe src sq p = (t.keepResult src sq p x).answerPeer src (answerCode p.kind) sq x := by
  unfold State.e2eServe
  cases kind : p.kind with
  | window w | interest k m | publish k m => rw [kind] at access; exact absurd access nofun
  | read n | write d | atomic op size v e | rowAdd es sat row => dsimp only; rw [performs]

theorem State.e2eServe_of_waiting (access : PeerKind.access p.kind = true) (waits : s.peerPerform src p = none) :
    s.e2eServe src sq p = s.withFab { s.fab with peers := s.fab.peers ++ [(src, sq, p)] } := by
  unfold State.e2eServe
  cases kind : p.kind with
  | window w | interest k m | publish k m => rw [kind] at access; exact absurd access nofun
  | read n | write d | atomic op size v e | rowAdd es sat row => dsimp only; rw [waits]; rfl

theorem State.e2eServe_of_window {w : WinWrite} (kind : p.kind = .window w) :
    s.e2eServe src sq p = State.answerPeer (s.withFab { s.fab with winFly := s.fab.winFly ++ [w] }) src 11 sq { status := 0, data := [] } := by
  unfold State.e2eServe
  rw [kind]
  rfl

theorem State.e2eServe_of_tile {k : Nat} {m : AgMsg} (kind : p.kind = .interest k m ∨ p.kind = .publish k m) :
    s.e2eServe src sq p = (s.agFrom src k m).answerPeer src 11 sq { status := 0, data := [] } := by
  unfold State.e2eServe
  obtain kind | kind := kind <;> rw [kind]

/-- A duplicate of a request that no longer waits is answered again. -/
theorem State.e2eAgain_of_answered (answered : ∀ y ∈ s.fab.peers, y.1 = src → y.2.1 ≠ sq) :
    s.e2eAgain src sq p = match p.kind with
      | .read _ => s.e2eServe src sq p
      | .atomic _ _ _ _ => s.answerPeer src 3 sq { status := 0, data := aget [] sq (s.e2eSrcOf src).results }
      | _ => s.answerPeer src 11 sq { status := 0, data := [] } :=
  if_neg fun waits => by
    obtain ⟨y, hy, same⟩ := List.any_eq_true.mp waits
    simp only [Bool.and_eq_true, beq_iff_eq] at same
    exact answered y hy same.1 same.2

end

/-! ### Protected requests at their source (R128) -/

/-- The machine once an answer has taken its request; a refusal is counted and recorded here too. -/
def State.e2eAnswered (s : State) (dst sq st : Nat) (e : E2eReq) : State :=
  if st = 1 then (s.dropE2e dst sq).peerRefuse dst e.req.addr else s.dropE2e dst sq

section
variable {s : State} {dst sq : Nat}

theorem execE2eAck_of_none (none : s.e2eOf dst sq = none) (x : PeerAnswer) : execE2eAck dst sq x s = .next s := by
  unfold execE2eAck
  rw [none]

theorem State.e2eEmit_of_member {f : E2eReq} (member : dst ∈ s.rack) (target : f.dst = dst) :
    s.e2eEmit f = s.rackSend (s.goesCw s.modid dst) 0 (s.peerFlits f) := by
  subst target
  exact if_pos (List.contains_iff_mem.mpr member)

theorem execE2eTimeout_of_none (none : s.e2eOf dst sq = none) : execE2eTimeout dst sq s = .next s := by
  unfold execE2eTimeout
  rw [none]

variable {e : E2eReq} (waits : s.e2eOf dst sq = some e)
include waits

theorem execE2eAck_of_poison (bs : List Byte) :
    execE2eAck dst sq ⟨2, bs⟩ s = .next ((s.e2eAnswered dst sq 2 e).fatalError e.ctx (s.originOf e).1 0x84 (s.originOf e).2 0) := by
  unfold execE2eAck
  rw [waits]
  exact if_pos rfl

theorem execE2eAck_of_job {st : Nat} {bs : List Byte} (clean : st ≠ 2) (job : e.core = none) :
    execE2eAck dst sq ⟨st, bs⟩ s = .next ((s.e2eAnswered dst sq st e).jobAnswered e bs) := by
  unfold execE2eAck
  rw [waits]
  refine (if_neg clean).trans ?_
  rw [job]
  rfl

theorem execE2eAck_of_op {st k : Nat} {bs : List Byte} {o : MemOp} {w : State} (clean : st ≠ 2) (core : e.core = some k)
    (op : (s.coreAt k).ops.find? (fun o => o.uid == e.uid) = some o) (unposted : o.slot = none)
    (performs : ((s.e2eAnswered dst sq st e).modCore k fun c => { c with ops := c.ops.map (MemOp.take e bs) }).perform k e.uid = .done w ∨
      ((s.e2eAnswered dst sq st e).modCore k fun c => { c with ops := c.ops.map (MemOp.take e bs) }).perform k e.uid = .wait w) :
    execE2eAck dst sq ⟨st, bs⟩ s = .next w := by
  unfold execE2eAck
  rw [waits]
  refine (if_neg clean).trans ?_
  rw [core]
  dsimp only
  rw [op]
  refine (if_neg (by simp [unposted])).trans ?_
  show (match ((s.e2eAnswered dst sq st e).modCore k fun c => { c with ops := c.ops.map (MemOp.take e bs) }).perform k e.uid with
    | .wait s' => Host.Outcome.next s'
    | .done s' => .next s'
    | .dead s' code v => .next (s'.fatalError e.ctx (.strand k o.strand) code v 0)) = .next w
  obtain done | waiting := performs
  · rw [done]
  · rw [waiting]

theorem execE2eTimeout_of_off (off : dst ∉ s.rack) : execE2eTimeout dst sq s = .next (s.e2eGiveUp (s.bridgeTo dst) e) := by
  unfold execE2eTimeout
  rw [waits]
  exact if_pos (by simp [off])

/-- The timer of a request to a member of the rack: the request is sent again while it has tries left, and else given up. -/
theorem execE2eTimeout_of_member (member : dst ∈ s.rack) :
    execE2eTimeout dst sq s =
      if s.now < e.sentAt + s.e2eTimer (s.bridgeTo dst) then .next s
      else if e.sends < s.e2eTries (s.bridgeTo dst) then
        let f : E2eReq := { e with sends := e.sends + 1, sentAt := s.now }
        let u := s.withFab { s.fab with e2e := s.fab.e2e.map fun x => if x = e then f else x }
        .next (u.e2eEmit f)
      else .next (s.e2eGiveUp (s.bridgeTo dst) e) := by
  unfold execE2eTimeout
  rw [waits]
  exact if_neg (by simp [member])

theorem dst_of_e2eOf : e.dst = dst := by
  have same := List.find?_some waits
  simp only [Bool.and_eq_true, beq_iff_eq] at same
  exact same.1

end

/-- Settles O37: each step of a flit, a returned message, an access and a protected request by its lemma, case by case. -/
theorem ringsAndPeers : Obligations.RingsAndPeers := by
  refine ⟨fun s f src tag cw => ?_, fun s t src dst sq st p x bs e => ?_⟩
  · refine ⟨execRingFirstFlit_of_room, execRingFirstFlit_of_reserved,
      fun first free => ⟨fun once => ?_, fun twice few hfew => ⟨fun room unkept => ?_, fun h => ?_⟩⟩,
      fun room later => ⟨fun started => ?_, fun unstarted => ?_⟩,
      fun package => ⟨_, State.takeFlit_of_ring package, rfl, rfl, rfl, rfl⟩, fun k r hk hr => ?_,
      fun r one package source same due => ⟨fun t enters => ?_, fun blocked => ?_⟩, fun r d t one ring source same due hd ht => ?_,
      fun early => ⟨?_, ?_⟩, fun t => State.insertFlit_slot, fun here => ?_, fun other out hout => ?_⟩
    · exact (execRingFirstFlit_of_full first free).trans (if_neg (by simp [once]))
    · subst hfew
      refine (execRingFirstFlit_of_full first free).trans ((if_pos twice).trans ?_)
      rw [if_pos ⟨room, unkept⟩]
    · subst hfew
      refine (execRingFirstFlit_of_full first free).trans ((if_pos twice).trans ?_)
      rw [if_neg fun reserves => h.elim (Nat.not_le_of_lt reserves.1) reserves.2]
    · exact (execRingFirstFlit_of_continuation room later).trans (congrArg Host.Outcome.next (if_pos started))
    · refine (execRingFirstFlit_of_continuation room later).trans (congrArg Host.Outcome.next (if_neg ?_))
      exact fun ⟨g, hg, same, first⟩ => unstarted g hg same first
    · subst hr hk
      rfl
    · refine congrArg Host.Outcome.next ((State.reinsert_of_due one due package (by simp [flitFrom, package, source]) same).trans ?_)
      rw [enters]
      rfl
    · refine congrArg Host.Outcome.next ((State.reinsert_of_due one due package (by simp [flitFrom, package, source]) same).trans ?_)
      rw [blocked]
      rfl
    · subst ht hd
      exact congrArg Host.Outcome.next (State.reinsert_of_due one due ring (by simp [flitFrom, ring, source]) same)
    · exact congrArg Host.Outcome.next (State.reinsert_of_early early false src tag)
    · exact congrArg Host.Outcome.next (State.reinsert_of_early early true src tag)
    · exact congrArg Host.Outcome.next (State.forwardFlit_of_here here)
    · subst hout
      exact congrArg Host.Outcome.next (State.forwardFlit_of_other other)
  · refine ⟨execPeerAccess_of_unprotected, fun y => execPeerAccess_of_kept, execPeerAccess_of_waiting,
      fun access refused => ⟨_, State.peerPerform_of_refused access refused⟩,
      fun new => ⟨execE2eRequest_of_new new false, fun u hu => ?_⟩, execE2eRequest_of_far, fun room u old hu answered => ?_,
      fun none => ⟨execE2eAck_of_none none _, execE2eTimeout_of_none none⟩, fun waits u hu => ?_, execE2eTimeout_of_off,
      fun waits member => ?_⟩
    · subst hu
      have serves := execE2eRequest_of_new (p := p) new true
      refine ⟨fun access performs => serves.trans ?_, fun access waits => serves.trans ?_, fun w kind => serves.trans ?_,
        fun k m kind => serves.trans ?_⟩
      · exact congrArg Host.Outcome.next (State.e2eServe_of_performed access performs)
      · exact congrArg Host.Outcome.next (State.e2eServe_of_waiting access waits)
      · exact congrArg Host.Outcome.next (State.e2eServe_of_window kind)
      · exact congrArg Host.Outcome.next (State.e2eServe_of_tile kind)
    · have again := (execE2eRequest_of_old (p := p) old room).trans (congrArg Host.Outcome.next (State.e2eAgain_of_answered (hu ▸ answered)))
      rw [← hu] at again
      refine ⟨fun n kind performs => again.trans ?_, fun o z v w kind => again.trans ?_, fun unread unmodified => again.trans ?_⟩
      · rw [kind]
        refine congrArg Host.Outcome.next ((State.e2eServe_of_performed (by rw [kind]; rfl) performs).trans ?_)
        unfold State.keepResult
        rw [kind]
        rfl
      · rw [kind, hu]
        rfl
      · split
        · next n kind => exact absurd kind (unread n)
        · next o z v w kind => exact absurd kind (unmodified o z v w)
        · rfl
    · subst hu
      refine ⟨fun poison => ?_, fun clean job => execE2eAck_of_job waits clean job, fun k o v clean core op unposted hv w performs => ?_⟩
      · subst poison
        exact execE2eAck_of_poison waits bs
      · subst hv
        exact execE2eAck_of_op waits clean core op unposted performs
    · have step := execE2eTimeout_of_member waits member
      refine ⟨fun early => step.trans (if_pos early),
        fun due spent => step.trans ((if_neg (Nat.not_lt_of_le due)).trans (if_neg (Nat.not_lt_of_le spent))), fun due left f hf u hu => ?_⟩
      subst hf hu
      refine step.trans ((if_neg (Nat.not_lt_of_le due)).trans ((if_pos left).trans (congrArg Host.Outcome.next ?_)))
      have target := dst_of_e2eOf waits
      exact State.e2eEmit_of_member member target

end Sys2Proof.Machine

namespace Sys2Proof.Machine

/-! ### What a write to memory leaves -/

/-- `t` is `s` but for what a write to memory, its record or its notice to the host may change: memory, the coherent memory system, the harts'
reservations, registers, and words sent out. -/
def State.Wrote (s t : State) : Prop := t = { s with mem := t.mem, coh := t.coh, harts := t.harts, dev := t.dev, out := t.out }

namespace State.Wrote

theorem quartz {s t : State} (h : s.Wrote t) : t.quartz = s.quartz := by rw [h]

theorem now {s t : State} (h : s.Wrote t) : t.now = s.now := congrArg BitVec.toNat h.quartz

theorem refl (s : State) : s.Wrote s := rfl

theorem trans {s t u : State} (h : s.Wrote t) (k : t.Wrote u) : s.Wrote u := by
  unfold State.Wrote at *
  rw [k, h]

theorem after {s t u : State} (k : t.Wrote u) (h : s.Wrote t) : s.Wrote u := h.trans k

theorem ite {s t u : State} {c : Prop} [Decidable c] (ht : s.Wrote t) (hu : s.Wrote u) : s.Wrote (if c then t else u) := by
  split
  · exact ht
  · exact hu

theorem foldl {α : Type} {f : State → α → State} (hf : ∀ (u : State) a, u.Wrote (f u a)) (l : List α) (s : State) : s.Wrote (l.foldl f s) :=
  List.foldlRecOn l f (.refl s) fun u hu a _ => hu.trans (hf u a)

theorem setReg (s : State) (a : Nat) (v : Word) : s.Wrote (s.setReg a v) := rfl

theorem modCoh (s : State) (f : Coh → Coh) : s.Wrote (s.modCoh f) := rfl

theorem emit (s : State) (kind : Nat) (ws : List Word) : s.Wrote (s.emit kind ws) := rfl

theorem track (s : State) (h pa die : Nat) : s.Wrote (s.track h pa die) := by
  unfold State.track
  refine .ite rfl ?_
  dsimp only
  split
  · exact .modCoh ..
  · refine .ite (.modCoh ..) ?_
    split
    · rfl
    · exact .modCoh ..

theorem mscPin (s : State) (st line : Nat) : s.Wrote (s.mscPin st line).2 := by
  unfold State.mscPin
  dsimp only
  split <;> rfl

theorem mscTouch (s : State) (pa n pol : Nat) (write : Bool) : s.Wrote (s.mscTouch pa n pol write) := by
  unfold State.mscTouch
  refine .ite rfl ?_
  dsimp only
  split
  · rfl
  · refine .ite rfl (Wrote.trans ?_ (.modCoh _ _))
    split
    · rfl
    · exact (Wrote.mscPin ..).after (.modCoh ..)

theorem flushUnit (s : State) (ctx sl grain u : Nat) : s.Wrote (s.flushUnit ctx sl grain u) :=
  (Wrote.mscTouch ..).after (.ite rfl rfl)

theorem recallUnit (s : State) (agent sl grain u : Nat) (discard : Bool) : s.Wrote (s.recallUnit agent sl grain u discard).2 := by
  unfold State.recallUnit
  dsimp only
  refine (Wrote.modCoh ..).after ?_
  split
  · rfl
  · exact .foldl (fun _ _ => .flushUnit ..) ..

theorem probeAgent (s : State) (agent ctx sl u kind : Nat) : s.Wrote (s.probeAgent agent ctx sl u kind).2 := by
  unfold State.probeAgent
  dsimp only
  split
  · exact .recallUnit ..
  · split <;> rfl

theorem dirSee (s : State) (sl u : Nat) : s.Wrote (s.dirSee sl u) := by
  unfold State.dirSee
  split <;> rfl

theorem dirAnswer (s : State) (agent sl u kind : Nat) (a : Answer) : s.Wrote (s.dirAnswer agent sl u kind a) :=
  (Wrote.dirSee ..).after (.ite rfl rfl)

theorem probeAll (s : State) (except_ : Option Nat) (ctx sl u kind : Nat) : s.Wrote (s.probeAll except_ ctx sl u kind) := by
  unfold State.probeAll
  split
  · rfl
  · exact .foldl (fun t a => .ite ((Wrote.dirAnswer ..).after (.probeAgent ..)) (.refl t)) ..

theorem clearUnit (s : State) (ctx sl grain u : Nat) : s.Wrote (s.clearUnit ctx sl grain u) :=
  (Wrote.probeAll ..).after (.foldl (fun _ _ => .flushUnit ..) ..)

theorem writeRaw (s : State) (x : Nat) (bs : List Byte) : s.Wrote (s.writeRaw x bs) := rfl

theorem hubTouch (s : State) (f x n : Nat) : s.Wrote (s.hubTouch f x n) := by
  induction f generalizing s x n with
  | zero => rfl
  | succ f ih => exact .ite rfl ((ih ..).after ((Wrote.mscTouch ..).after (.track ..)))

theorem hubWrite (s : State) (f x : Nat) (bs : List Byte) : s.Wrote (s.hubWrite f x bs) := by
  induction f generalizing s x bs with
  | zero => rfl
  | succ f ih => exact .ite rfl ((ih ..).after ((Wrote.writeRaw ..).after (.clearUnit ..)))

theorem writeMem (s : State) (x : Nat) (bs : List Byte) : s.Wrote (s.writeMem x bs) :=
  .ite rfl (Wrote.trans (.hubTouch ..) (.ite (.writeRaw ..) (.hubWrite ..)))

theorem ringPut (r : RingDesc) (s : State) (ws : List Word) : s.Wrote (r.put s ws) := Wrote.trans (.writeMem ..) (.setReg ..)

theorem interrupt (s : State) (n : Nat) : s.Wrote (s.interrupt n) := .ite (Wrote.trans (.writeMem ..) (.emit ..)) rfl

theorem rasAt (s : State) (qtz : Word) (type low : Nat) (w2 w3 : Word) : s.Wrote (s.rasAt qtz type low w2 w3) :=
  Wrote.trans (.ite (.setReg ..) (.ringPut ..)) (.interrupt ..)

theorem svcreq (s : State) (reason pos : Nat) : s.Wrote (s.svcreq reason pos) := Wrote.trans (.setReg ..) (.rasAt ..)

end State.Wrote
end Sys2Proof.Machine

namespace Sys2Proof.Machine

/-! ### Lane groups: sending and acknowledgement (R132-R134) -/

theorem Lane.acked_of_send {l : Lane} {n : Nat} (sends : l.tx = .send) : l.acked n = l.free n := by
  unfold Lane.acked
  split
  · rfl
  · next replays _ => exact absurd (sends.symm.trans replays) nofun
  · next replays _ => exact absurd (sends.symm.trans replays) nofun
  · next other _ _ => exact absurd sends other

theorem Lane.acked_of_replay {l : Lane} {n r : Nat} (replays : l.tx = .replay) (at_ : l.resend = some r) (past : seqBefore r n = true) :
    l.acked n = l.replayFrom n := by
  unfold Lane.acked
  rw [replays, at_]
  exact if_pos past

section
variable {s : State} {lg n : Nat} {f : Flit} {l : Lane} (lane : s.laneOf lg = l)
include lane

/-- A new flit is numbered, kept, and acknowledges for the paired receiver. -/
theorem execLinkSend_of_new (sends : l.tx = .send) (room : l.copies.length < 4096) :
    execLinkSend lg f s =
      let u := (s.takeWaiting (lg / 28) f).putLane { s.laneOf (pairLane lg) with since := 0 }
      .next (u.laneOut { l with copies := l.copies ++ [(l.m, f)], m := (l.m + 1) % 2 ^ 24 } (s.dataBytes lg l.m f)) := by
  unfold execLinkSend
  rw [lane]
  dsimp only
  rw [sends]
  exact if_neg (Nat.not_le_of_lt room)

theorem execLinkSend_of_full (sends : l.tx = .send) (full : 4096 ≤ l.copies.length) : execLinkSend lg f s = .next s := by
  unfold execLinkSend
  rw [lane]
  dsimp only
  rw [sends]
  exact if_pos full

/-- In a replay the next copy is sent again; after the last one the lane group sends new flits. -/
theorem execLinkSend_of_replay {r : Nat} {c : Flit} (replays : l.tx = .replay) (at_ : l.resend = some r)
    (copy : l.copies.find? (fun c => c.1 == r) = some (r, c)) :
    execLinkSend lg f s =
      .next ((s.putLane { s.laneOf (pairLane lg) with since := 0 }).laneOut
        (if (r + 1) % 2 ^ 24 = l.m then { l with tx := .send, resend := none } else { l with resend := some ((r + 1) % 2 ^ 24) })
        (s.dataBytes lg r c)) := by
  unfold execLinkSend
  rw [lane]
  dsimp only
  rw [replays, at_, Option.bind_some, copy]

theorem execLinkAck_of_send (sends : l.tx = .send) :
    execLinkAck lg n s = .next (s.putLane { l with copies := l.copies.filter fun c => !seqBefore c.1 n }) := by
  unfold execLinkAck State.laneAcked
  rw [lane, Lane.acked_of_send sends]
  rfl

theorem execLinkAck_of_replay {r : Nat} (replays : l.tx = .replay) (at_ : l.resend = some r) (past : seqBefore r n = true) :
    execLinkAck lg n s = .next (s.putLane (l.replayFrom n)) := by
  unfold execLinkAck State.laneAcked
  rw [lane, Lane.acked_of_replay replays at_ past]

theorem execLinkNak_of_sending (sends : l.tx = .send ∨ l.tx = .replay) : execLinkNak lg n s = .next (s.putLane (l.replayFrom n)) := by
  unfold execLinkNak
  rw [lane]
  dsimp only
  obtain sends | replays := sends
  · rw [sends]
  · rw [replays]

theorem execLinkAckTimer_of_due (own : l.lg = lg) (accepts : l.rx = .accept) (delivered : l.since ≠ 0) (due : l.ackDue ≤ s.now) :
    execLinkAckTimer lg s = .next (laneAcks s l) := by
  unfold execLinkAckTimer laneAcks
  rw [lane]
  refine (if_neg (not_or.mpr ⟨delivered, not_or.mpr ⟨not_not_intro accepts, Nat.not_lt_of_le due⟩⟩)).trans ?_
  rw [own]

theorem execLinkAckTimer_of_early (h : l.since = 0 ∨ s.now < l.ackDue) : execLinkAckTimer lg s = .next s := by
  unfold execLinkAckTimer
  rw [lane]
  exact if_pos (h.imp_right .inr)

theorem execLinkNakTimer_of_due (awaits : l.rx = .nakwait) (due : l.nakDue ≤ s.now) :
    execLinkNakTimer lg s =
      let t := (s.count (linknak lg)).control lg 3 l.n 0
      if l.naks + 1 = 16 then .next (t.retrainLane { l with naks := 0 })
      else .next (t.putLane { l with naks := l.naks + 1, nakDue := s.now + 256 }) := by
  unfold execLinkNakTimer
  rw [lane]
  exact if_neg (by simp [awaits, due])

theorem execLinkNakTimer_of_early (early : s.now < l.nakDue) : execLinkNakTimer lg s = .next s := by
  unfold execLinkNakTimer
  rw [lane]
  exact if_pos (.inr early)

end

theorem Lane.replayFrom_of_copy {l : Lane} {n : Nat} (left : ∃ c ∈ l.copies, seqBefore c.1 n = false) :
    l.replayFrom n = { l with copies := l.copies.filter (fun c => !seqBefore c.1 n), tx := .replay, resend := some n } := by
  unfold Lane.replayFrom Lane.free
  exact if_neg (by simpa using left)

theorem Lane.replayFrom_of_none {l : Lane} {n : Nat} (gone : ∀ c ∈ l.copies, seqBefore c.1 n = true) :
    l.replayFrom n = { l with copies := [], tx := .send, resend := none } := by
  have none_left : l.copies.filter (fun c => !seqBefore c.1 n) = [] := List.filter_eq_nil_iff.mpr fun c hc => by simp [gone c hc]
  unfold Lane.replayFrom Lane.free
  rw [none_left]
  rfl

/-! ### What reaches a receiver (R130, R133) -/

theorem not_seqBefore_self (a : Nat) : seqBefore a a = false := by
  unfold seqBefore
  simp only [Nat.add_sub_cancel_left, Nat.mod_self]
  rfl

section
variable {s : State} {lg : Nat} {l : Lane} {x : LinkFlit} {room : Bool} (lane : s.laneOf lg = l)
include lane

theorem State.receiveData_of_next (listens : l.rx = .accept ∨ l.rx = .nakwait) (good : x.good = true) (next : x.sq = l.n) :
    s.receiveData lg x true = laneDelivers s l x.flit := by
  unfold State.receiveData
  rw [lane]
  dsimp only
  obtain accepts | awaits := listens
  · rw [accepts]
    exact if_pos (by simp [good, next])
  · rw [awaits]
    exact if_pos (by simp [good, next])

theorem State.receiveData_of_old (own : l.lg = lg) (accepts : l.rx = .accept) (good : x.good = true) (old : seqBefore x.sq l.n = true) :
    s.receiveData lg x room = laneAcks s l := by
  have other : x.sq ≠ l.n := fun same => absurd (not_seqBefore_self l.n) (by rw [same] at old; simp [old])
  unfold State.receiveData laneAcks
  rw [lane]
  dsimp only
  rw [accepts, own]
  refine (if_neg (by simp [other])).trans (if_pos (by simp [good, old]))

theorem State.receiveData_of_bad (accepts : l.rx = .accept)
    (bad : x.good = false ∨ (seqBefore x.sq l.n = false ∧ (x.sq ≠ l.n ∨ room = false))) :
    s.receiveData lg x room = laneNaks s l := by
  unfold State.receiveData
  rw [lane]
  dsimp only
  rw [accepts]
  obtain broken | ⟨ahead, other | full⟩ := bad
  · exact (if_neg (by simp [broken])).trans (if_neg (by simp [broken]))
  · exact (if_neg (by simp [other])).trans (if_neg (by simp [ahead]))
  · exact (if_neg (by simp [full])).trans (if_neg (by simp [ahead]))

theorem State.receiveData_of_waiting (awaits : l.rx = .nakwait) (bad : x.good = false ∨ x.sq ≠ l.n ∨ room = false) :
    s.receiveData lg x room = s := by
  unfold State.receiveData
  rw [lane]
  dsimp only
  rw [awaits]
  refine if_neg ?_
  obtain broken | other | full := bad
  · simp [broken]
  · simp [other]
  · simp [full]

theorem State.receiveData_of_deaf (deaf : l.rx = .realign ∨ l.rx = .retrain ∨ l.rx = .down) : s.receiveData lg x room = s := by
  unfold State.receiveData
  rw [lane]
  dsimp only
  obtain deaf | deaf | deaf := deaf <;> rw [deaf]

end

section
variable {s : State} {lg : Nat} {bs : List Byte} {cr : Word} {room : Bool}

theorem execLinkDataFlit_of_bad (bad : (linkFlit (bs ++ wordBytes cr)).good = false) :
    execLinkDataFlit lg bs cr room s = .next (s.receiveData lg (linkFlit (bs ++ wordBytes cr)) room) :=
  if_pos (by simp [bad])

/-- A good flit is read by its kind: data, acknowledgement, NAK, notice, or nothing for the receiver. -/
theorem execLinkDataFlit_of_good {x : LinkFlit} (hx : linkFlit (bs ++ wordBytes cr) = x) (good : x.good = true) :
    execLinkDataFlit lg bs cr room s = match x.kind with
      | 1 => .next ((s.laneAcked (pairLane lg) x.ack).receiveData lg x room)
      | 2 => execLinkAck (pairLane lg) x.ack s
      | 3 => execLinkNak (pairLane lg) x.ack s
      | 4 => execLinkNotice (pairLane lg) x.ack x.mask s
      | _ => .next s := by
  subst hx
  exact if_neg (by simp [good])

end

/-! ### Loss of light, notices, training and retraining (R135-R138) -/

theorem Lane.begins_eq (l : Lane) (now : Nat) :
    l.begins now = { l with oldMask := if l.tx = .realign then l.oldMask else l.mask, seen := if l.tx = .realign then l.seen else now } := by
  unfold Lane.begins
  by_cases trains : l.tx = .realign
  · simp only [if_pos trains]
  · simp only [if_neg trains]

section
variable {s : State} {lg n : Nat} {mask : BitVec 16} {l : Lane} (lane : s.laneOf lg = l)
include lane

theorem execLossOfLight_of_lost (up : l.rx ≠ .down) (lost : l.mask &&& mask ≠ l.mask) :
    execLossOfLight lg mask s =
      let m : Lane := { l with mask := l.mask &&& mask, oldMask := l.mask, rx := .realign, naks := 0, seen := s.now }
      let t := s.control lg 4 l.n (l.mask &&& mask)
      if lit (l.mask &&& mask) < 4 then .next (t.laneDown m) else .next (t.putLane m) := by
  unfold execLossOfLight
  rw [lane]
  exact if_neg (not_or.mpr ⟨up, lost⟩)

theorem execLossOfLight_of_kept (h : l.rx = .down ∨ l.mask &&& mask = l.mask) : execLossOfLight lg mask s = .next s := by
  unfold execLossOfLight
  rw [lane]
  exact if_pos h

theorem execLinkNotice_of_down (down : l.tx = .down) : execLinkNotice lg n mask s = .next s := by
  unfold execLinkNotice
  rw [lane]
  exact if_pos down

theorem execLinkNotice_of_up (up : l.tx ≠ .down) :
    execLinkNotice lg n mask s =
      let m : Lane := { l.begins s.now with mask := l.mask &&& mask, notice := some n }
      if lit m.mask < 4 then .next (s.laneDown m)
      else if l.tx = .realign ∧ m.mask = l.mask then .next (s.tryReplay m) else .next (s.train m) := by
  unfold execLinkNotice
  rw [lane]
  exact if_neg up

theorem execLinkTrainingDone_of_due (trains : l.tx = .realign) (due : l.trainDue ≤ s.now) :
    execLinkTrainingDone lg s = .next (s.tryReplay { l with trained := true }) := by
  unfold execLinkTrainingDone
  rw [lane]
  exact if_pos ⟨trains, due⟩

theorem execLinkTrainingDone_of_early (h : l.tx ≠ .realign ∨ s.now < l.trainDue) : execLinkTrainingDone lg s = .next s := by
  unfold execLinkTrainingDone
  rw [lane]
  exact if_neg fun ⟨trains, due⟩ => h.elim (· trains) (Nat.not_lt_of_le due)

theorem execLinkTrainingLocked_of_realigning (realigns : l.rx = .realign) (e : Nat) :
    execLinkTrainingLocked ⟨lg, e⟩ s = .next ((s.putLane { l with rx := .accept }).linkRecord 0x21 lg 0 l.oldMask l.mask l.seen l.n e) := by
  subst lane
  exact if_pos realigns

theorem execLinkTrainingLocked_of_other (other : l.rx ≠ .realign) (e : Nat) : execLinkTrainingLocked ⟨lg, e⟩ s = .next s := by
  subst lane
  exact if_neg other

theorem execLinkRetrainResult_of_retraining (retrains : l.rx = .retrain ∨ l.tx = .retrain) (good : Bool) :
    execLinkRetrainResult lg ⟨mask, good⟩ s =
      let new := mask &&& s.sound lg
      if good then
        let m : Lane := { l with rx := if l.rx = .retrain then .accept else l.rx, tx := if l.tx = .retrain then .send else l.tx
                                 mask := new, oldMask := new, naks := 0, beat := 0, own := 0 }
        .next ((s.putLane m).linkRecord 0x22 lg 0 l.mask new s.now l.n 0)
      else .next ((s.linkRecord 0x22 lg 0 l.mask l.mask s.now l.n 0).laneDown l) := by
  unfold execLinkRetrainResult
  rw [lane]
  exact if_neg fun ⟨rx, tx⟩ => retrains.elim rx tx

theorem execLinkRetrainResult_of_other (rx : l.rx ≠ .retrain) (tx : l.tx ≠ .retrain) (good : Bool) :
    execLinkRetrainResult lg ⟨mask, good⟩ s = .next s := by
  unfold execLinkRetrainResult
  rw [lane]
  exact if_pos ⟨rx, tx⟩

theorem execElsuFault_of_down (inside : lg < 112) (down : l.tx = .down) (e : Nat) : execElsuFault lg e s = .next s := by
  unfold execElsuFault
  rw [lane]
  exact (if_neg (Nat.not_le_of_lt inside)).trans (if_pos down)

/-- An ELSU of the sender's own end fails: its wavelengths go, and a replacement is asked for (R135, R468). -/
theorem execElsuFault_of_up (inside : lg < 112) (up : l.tx ≠ .down) (e : Nat) :
    execElsuFault lg e s =
      let t := s.setFld (lgstat lg) 20 4 (s.rfld (lgstat lg) 20 4 ||| 2 ^ (e % 4))
      let u := t.svcreq 1 (lg / 28 / 2 * 2 ^ 46 + lg / 28 % 4 * 2 ^ 44 + lg % 28 * 2 ^ 39 + 2 ^ (e % 4) * 2 ^ 35)
      let m : Lane := { l.begins t.now with mask := l.mask &&& ~~~(elsuMask e), own := l.own ||| 2 ^ (e % 4) }
      .next (if lit m.mask < 4 then u.laneDown m else u.train m) := by
  have seen := (State.Wrote.svcreq (s.setFld (lgstat lg) 20 4 (s.rfld (lgstat lg) 20 4 ||| 2 ^ (e % 4))) 1
    (lg / 28 / 2 * 2 ^ 46 + lg / 28 % 4 * 2 ^ 44 + lg % 28 * 2 ^ 39 + 2 ^ (e % 4) * 2 ^ 35)).now
  unfold execElsuFault
  rw [lane]
  refine (if_neg (Nat.not_le_of_lt inside)).trans ((if_neg up).trans ?_)
  dsimp only
  rw [seen]
  split <;> rfl

end

theorem execElsuFault_of_plane {s : State} {lg e : Nat} (lo : 112 ≤ lg) (hi : lg < 128) :
    execElsuFault lg e s = .next (s.planeFault (lg - 112) e) := by
  refine (if_pos lo).trans ?_
  rw [if_pos hi]

theorem State.tryReplay_of_unnoticed {s : State} {l : Lane} (none : l.notice = none) : s.tryReplay l = s.putLane l := by
  unfold State.tryReplay
  split
  · next n _ _ notice => exact absurd (none.symm.trans notice) nofun
  · rfl

/-- Once training is done and a notice is here, the sender resends from the sequence the notice names, and records the event. -/
theorem State.tryReplay_of_noticed {s : State} {l : Lane} {n : Nat} (trains : l.tx = .realign) (done : l.trained = true)
    (notice : l.notice = some n) :
    s.tryReplay l =
      let m := Lane.replayFrom { l with trained := false, notice := none, own := 0 } n
      (s.putLane m).linkRecord 0x21 l.lg l.own l.oldMask l.mask l.seen n m.copies.length := by
  unfold State.tryReplay
  rw [trains, done, notice]

end Sys2Proof.Machine

namespace Sys2Proof.Machine

/-! ### Bytes, CRC-32C and fields (R5, R6, R130) -/

theorem bytesNat_natBytes (k v : Nat) : bytesNat (natBytes k v) = v % 256 ^ k := by
  induction k generalizing v with
  | zero => exact (Nat.mod_one v).symm
  | succ k ih =>
    rw [natBytes, bytesNat, ih, BitVec.toNat_ofNat, show 256 ^ (k + 1) = 256 * 256 ^ k from Nat.pow_succ']
    exact Nat.mod_mul.symm

theorem bytesNat_wordBytes (w : Word) : bytesNat (wordBytes w) = w.toNat :=
  (bytesNat_natBytes 8 w.toNat).trans (Nat.mod_eq_of_lt w.isLt)

theorem crcBit_lt {c : Nat} (h : c < 2 ^ 32) : crcBit c < 2 ^ 32 := by
  unfold crcBit
  split
  · exact Nat.xor_lt_two_pow (by omega) (by norm_num)
  · omega

theorem crcByte_lt {c : Nat} (h : c < 2 ^ 32) (b : Byte) : crcByte c b < 2 ^ 32 := by
  have start : c ^^^ b.toNat < 2 ^ 32 := Nat.xor_lt_two_pow h (b.isLt.trans (by norm_num))
  exact crcBit_lt (crcBit_lt (crcBit_lt (crcBit_lt (crcBit_lt (crcBit_lt (crcBit_lt (crcBit_lt start)))))))

theorem crc32c_lt (bs : List Byte) : crc32c bs < 2 ^ 32 :=
  Nat.xor_lt_two_pow (List.foldlRecOn (motive := fun c => c < 2 ^ 32) bs crcByte (by norm_num) fun _ h b _ => crcByte_lt h b) (by norm_num)

/-! ### The 160 bytes of a link flit (R130) -/

/-- The fields of 160 bytes that are a link header, a slot header, a flit and a CRC. -/
theorem linkFlit_append {head slot data crc : List Byte} (hh : head.length = 8) (hs : slot.length = 16) (hd : data.length = 128)
    (hc : crc.length = 8) :
    linkFlit (head ++ slot ++ data ++ crc) =
      let h := bytesNat head
      { kind := h / 2 ^ 60 % 16, sq := h / 2 ^ 36 % 2 ^ 24, ack := h / 2 ^ 12 % 2 ^ 24, mask := BitVec.ofNat 16 (bytesNat (slot.take 2))
        good := decide (h / 2 ^ 60 % 16 < 6) && bytesNat crc == crc32c (head ++ slot ++ data)
        flit := flitOf (bytesNat slot) data (h / 2 ^ 7 % 32) (h / 2 ^ 2 % 32) } := by
  have all : (head ++ slot ++ data ++ crc).length = 160 := by simp [hh, hs, hd, hc]
  have atHead : (head ++ slot ++ data ++ crc).take 8 = head := by
    rw [List.append_assoc, List.append_assoc]
    exact List.take_left' hh
  have afterHead : (head ++ slot ++ data ++ crc).drop 8 = slot ++ (data ++ crc) := by
    rw [List.append_assoc, List.append_assoc]
    exact List.drop_left' hh
  have afterSlot : (head ++ slot ++ data ++ crc).drop 24 = data ++ crc := by
    rw [List.append_assoc]
    exact List.drop_left' (by simp [hh, hs])
  have body : (head ++ slot ++ data ++ crc).take 152 = head ++ slot ++ data := List.take_left' (by simp [hh, hs, hd])
  have afterBody : (head ++ slot ++ data ++ crc).drop 152 = crc := List.drop_left' (by simp [hh, hs, hd])
  unfold linkFlit
  rw [all, atHead, afterHead, afterSlot, body, afterBody, List.take_left' hs, List.take_left' hd, List.take_append_of_le_length (by omega)]
  rfl

/-- What the bytes of a link flit were made from is what they say, with a good CRC. -/
theorem linkFlit_linkBytes {kind sq ack dmod smod : Nat} {slot data : List Byte} (hk : kind < 6) (hq : sq < 2 ^ 24) (ha : ack < 2 ^ 24)
    (hd : dmod < 32) (hm : smod < 32) (slots : slot.length = 16) (datas : data.length = 128) :
    linkFlit (linkBytes kind sq ack dmod smod slot data) =
      { kind := kind, sq := sq, ack := ack, mask := BitVec.ofNat 16 (bytesNat (slot.take 2)), good := true
        flit := flitOf (bytesNat slot) data dmod smod } := by
  let w := mkWord [(kind % 16, 60), (sq % 2 ^ 24, 36), (ack % 2 ^ 24, 12), (dmod % 32, 7), (smod % 32, 2)]
  have header : w.toNat = kind * 2 ^ 60 + sq * 2 ^ 36 + ack * 2 ^ 12 + dmod * 2 ^ 7 + smod * 2 ^ 2 := by
    simp only [w, mkWord, packNat, BitVec.toNat_ofNat]
    omega
  have crc : bytesNat (natBytes 8 (crc32c (wordBytes w ++ slot ++ data))) = crc32c (wordBytes w ++ slot ++ data) :=
    (bytesNat_natBytes _ _).trans (Nat.mod_eq_of_lt ((crc32c_lt _).trans (by norm_num)))
  refine (linkFlit_append (head := wordBytes w) (length_natBytes 8 _) slots datas (length_natBytes 8 _)).trans ?_
  rw [bytesNat_wordBytes, header, crc]
  have hkind : (kind * 2 ^ 60 + sq * 2 ^ 36 + ack * 2 ^ 12 + dmod * 2 ^ 7 + smod * 2 ^ 2) / 2 ^ 60 % 16 = kind := by omega
  have hsq : (kind * 2 ^ 60 + sq * 2 ^ 36 + ack * 2 ^ 12 + dmod * 2 ^ 7 + smod * 2 ^ 2) / 2 ^ 36 % 2 ^ 24 = sq := by omega
  have hack : (kind * 2 ^ 60 + sq * 2 ^ 36 + ack * 2 ^ 12 + dmod * 2 ^ 7 + smod * 2 ^ 2) / 2 ^ 12 % 2 ^ 24 = ack := by omega
  have hdmod : (kind * 2 ^ 60 + sq * 2 ^ 36 + ack * 2 ^ 12 + dmod * 2 ^ 7 + smod * 2 ^ 2) / 2 ^ 7 % 32 = dmod := by omega
  have hsmod : (kind * 2 ^ 60 + sq * 2 ^ 36 + ack * 2 ^ 12 + dmod * 2 ^ 7 + smod * 2 ^ 2) / 2 ^ 2 % 32 = smod := by omega
  simp only [hkind, hsq, hack, hdmod, hsmod, hk, decide_true, beq_self_eq_true, Bool.and_self]

theorem length_linkBytes {kind sq ack dmod smod : Nat} {slot data : List Byte} (slots : slot.length = 16) (datas : data.length = 128) :
    (linkBytes kind sq ack dmod smod slot data).length = 160 := by
  simp [linkBytes, wordBytes, length_natBytes, slots, datas]

/-! ### The slot header (R120) -/

theorem b2n_le (b : Bool) : b2n b ≤ 1 := by cases b <;> decide

theorem decide_b2n (b : Bool) : decide (b2n b = 1) = b := by cases b <;> rfl

/-- The slot header says what the flit was. -/
theorem flitOf_flitHeader {f : Flit} (hkind : f.kind < 16) (hdst : f.dst < 16) (hsrc : f.src < 16) (hidx : f.idx < 64) (hctx : f.ctx < 64)
    (hagent : f.agent < 4096) (htag : f.tag < 4096) (he2e : f.e2e < 2 ^ 24) (haddr : f.addr < 2 ^ 52) (rack : f.rack = true) :
    flitOf (flitHeader f).toNat f.data f.dmod f.smod = f := by
  have hcw := b2n_le f.cw
  have hrsv := b2n_le f.rsv
  have hrfs := b2n_le f.rfs
  have hlast := b2n_le f.last
  have header : (flitHeader f).toNat = f.kind * 2 ^ 124 + f.dst * 2 ^ 120 + f.src * 2 ^ 116 + b2n f.cw * 2 ^ 115 + b2n f.rsv * 2 ^ 114 +
      b2n f.rfs * 2 ^ 113 + b2n f.last * 2 ^ 112 + f.idx * 2 ^ 106 + f.ctx * 2 ^ 100 + f.agent * 2 ^ 88 + f.tag * 2 ^ 76 +
      f.e2e * 2 ^ 52 + f.addr := by
    simp only [flitHeader, packNat, BitVec.toNat_ofNat]
    omega
  generalize (flitHeader f).toNat = h at header
  have kind : h / 2 ^ 124 % 16 = f.kind := by omega
  have dst : h / 2 ^ 120 % 16 = f.dst := by omega
  have src : h / 2 ^ 116 % 16 = f.src := by omega
  have cw : h / 2 ^ 115 % 2 = b2n f.cw := by omega
  have rsv : h / 2 ^ 114 % 2 = b2n f.rsv := by omega
  have rfs : h / 2 ^ 113 % 2 = b2n f.rfs := by omega
  have last : h / 2 ^ 112 % 2 = b2n f.last := by omega
  have idx : h / 2 ^ 106 % 64 = f.idx := by omega
  have ctx : h / 2 ^ 100 % 64 = f.ctx := by omega
  have agent : h / 2 ^ 88 % 4096 = f.agent := by omega
  have tag : h / 2 ^ 76 % 4096 = f.tag := by omega
  have e2e : h / 2 ^ 52 % 2 ^ 24 = f.e2e := by omega
  have addr : h % 2 ^ 52 = f.addr := by omega
  unfold flitOf
  simp only [Nat.testBit_eq_decide_div_mod_eq, kind, dst, src, cw, rsv, rfs, last, idx, ctx, agent, tag, e2e, addr, decide_b2n, ← rack]

/-! ### The ten beats of a flit (R131) -/

theorem getD_flatMap_blocks {α β : Type} {g : α → List β} {k : Nat} (block : ∀ a, (g a).length = k) (d : β) (e : α)
    {l : List α} {j i : Nat}     (hj : j < l.length) (hi : i < k) : (l.flatMap g).getD (k * j + i) d = (g (l.getD j e)).getD i d := by
  induction l generalizing j with
  | nil => exact absurd hj (Nat.not_lt_zero j)
  | cons a l ih =>
    rw [List.flatMap_cons]
    cases j with
    | zero =>
      rw [Nat.mul_zero, Nat.zero_add, List.getD_append _ _ _ _ (by rw [block]; exact hi)]
      rfl
    | succ j =>
      have past : k * (j + 1) + i = (g a).length + (k * j + i) := by rw [block]; ring
      rw [past, List.getD_append_right _ _ _ _ (Nat.le_add_right ..), Nat.add_sub_cancel_left]
      exact ih (Nat.lt_of_succ_lt_succ hj)

theorem mem_actives {m : BitVec 16} {i : Nat} : i ∈ actives m ↔ i < 16 ∧ m.getLsbD i = true := by
  simp [actives]

theorem actives_ne_nil {m : BitVec 16} (lit : m ≠ 0) : actives m ≠ [] := by
  intro none
  refine lit (BitVec.eq_of_getLsbD_eq fun i hi => ?_)
  by_contra on
  have active : i ∈ actives m := mem_actives.mpr ⟨hi, by simpa using on⟩
  rw [none] at active
  exact absurd active List.not_mem_nil

/-- The wavelength of a beat: the active ones in turn. -/
def Lane.wavelength (l : Lane) (j : Nat) : Nat := (actives l.mask).getD ((l.beat + j) % (actives l.mask).length) 0

theorem Lane.wavelength_active {l : Lane} (lit : l.mask ≠ 0) (j : Nat) : l.wavelength j ∈ actives l.mask := by
  have some_lit : 0 < (actives l.mask).length := List.length_pos_of_ne_nil (actives_ne_nil lit)
  unfold Lane.wavelength
  rw [List.getD_eq_getElem _ _ (Nat.mod_lt _ some_lit)]
  exact List.getElem_mem _

theorem Lane.length_beats (l : Lane) (bs : List Byte) : (l.beats bs).length = 30 := by
  simp [Lane.beats, List.length_flatMap, bytesWords]

/-- A beat is its wavelength and its two words. -/
theorem Lane.beats_getD (l : Lane) (bs : List Byte) {j i : Nat} (hj : j < 10) (hi : i < 3) :
    (l.beats bs).getD (3 * j + i) 0 = (BitVec.ofNat 64 (l.wavelength j) :: bytesWords 2 (bs.drop (16 * j))).getD i 0 := by
  have beat := getD_flatMap_blocks (g := fun j => BitVec.ofNat 64 (l.wavelength j) :: bytesWords 2 (bs.drop (16 * j))) (k := 3) (fun _ => rfl)
    (0 : Word) 0 (l := List.range 10) (j := j) (i := i) (by simpa using hj) hi
  have index : (List.range 10).getD j 0 = j := by rw [List.getD_eq_getElem _ _ (by simpa using hj), List.getElem_range]
  rwa [index] at beat

end Sys2Proof.Machine

namespace Sys2Proof.Machine

/-! ### Lane groups together -/

/-- Settles O38: a lane group's sending and receiving by the lemmas of its steps, the bytes by `linkFlit_linkBytes` and `flitOf_flitHeader`, the
beats by `Lane.beats_getD`, and its loss of light, notices and training by the lemmas of their steps. -/
theorem links : Obligations.Links := by
  refine ⟨fun s lg n f l room bs cr lane own => ?_, ⟨fun kind sq ack dmod smod slot data hk hq ha hd hm slots datas x hx => ?_,
    fun f => flitOf_flitHeader, fun l bs j hj lit => ?_⟩, fun s lg n e mask l lane own => ?_⟩
  · refine ⟨fun u p sends room hp hu => ?_, execLinkSend_of_full lane, fun r c p replays at_ copy hp => ?_,
      fun good kind => ?_, fun good kind => ?_, fun good kind => ?_, fun good kind => ?_, fun good kind => ?_, execLinkDataFlit_of_bad,
      fun x => ⟨State.receiveData_of_next lane, State.receiveData_of_old lane own, State.receiveData_of_bad lane, State.receiveData_of_waiting lane,
        State.receiveData_of_deaf lane⟩,
      execLinkAck_of_send lane, fun r => execLinkAck_of_replay lane, fun sending left => ?_, fun sending gone => ?_,
      execLinkAckTimer_of_due lane own, execLinkAckTimer_of_early lane,
      fun awaits due more => (execLinkNakTimer_of_due lane awaits due).trans (if_neg more),
      fun awaits due last => (execLinkNakTimer_of_due lane awaits due).trans (if_pos last), execLinkNakTimer_of_early lane⟩
    · subst hu hp
      exact execLinkSend_of_new lane sends room
    · subst hp
      exact execLinkSend_of_replay lane replays at_ copy
    · exact (execLinkDataFlit_of_good rfl good).trans (by rw [kind]; rfl)
    · exact (execLinkDataFlit_of_good rfl good).trans (by rw [kind]; rfl)
    · exact (execLinkDataFlit_of_good rfl good).trans (by rw [kind]; rfl)
    · exact (execLinkDataFlit_of_good rfl good).trans (by rw [kind]; rfl)
    · refine (execLinkDataFlit_of_good rfl good).trans ?_
      obtain kind | kind := kind <;> rw [kind] <;> rfl
    · exact (execLinkNak_of_sending lane sending).trans (by rw [Lane.replayFrom_of_copy left])
    · exact (execLinkNak_of_sending lane sending).trans (by rw [Lane.replayFrom_of_none gone])
  · rw [hx, linkFlit_linkBytes hk hq ha hd hm slots datas]
    exact ⟨rfl, rfl, rfl, rfl, rfl, rfl, length_linkBytes slots datas⟩
  · have active := mem_actives.mp (l.wavelength_active lit j)
    have first : (l.beats bs).getD (3 * j) 0 = BitVec.ofNat 64 (l.wavelength j) := l.beats_getD bs hj (i := 0) (by decide)
    have small : (BitVec.ofNat 64 (l.wavelength j)).toNat = l.wavelength j := by rw [BitVec.toNat_ofNat]; omega
    refine ⟨l.length_beats bs, first, ?_, l.beats_getD bs hj (i := 1) (by decide), ?_⟩
    · rw [first, small]
      exact active.2
    · refine (l.beats_getD bs hj (i := 2) (by decide)).trans ?_
      rw [← List.drop_drop]
      rfl
  · refine ⟨fun up lost m hm => ?_, execLossOfLight_of_kept lane, execLinkNotice_of_down lane, fun up m hm => ?_,
      fun trains due => ⟨fun unnoticed => ?_, fun m notice hm => ?_⟩, execLinkTrainingDone_of_early lane,
      fun realigns => execLinkTrainingLocked_of_realigning lane realigns e, fun other => execLinkTrainingLocked_of_other lane other e,
      fun retrains new hnew => ⟨fun m hm => ?_, execLinkRetrainResult_of_retraining lane retrains false⟩, execLinkRetrainResult_of_other lane,
      execElsuFault_of_plane, fun inside down => execElsuFault_of_down lane inside down e, fun inside up t u ht hu m hm => ?_, fun m hm => ?_⟩
    · subst hm
      refine (execLossOfLight_of_lost lane up lost).trans ?_
      split <;> rfl
    · have notice := execLinkNotice_of_up (n := n) (mask := mask) lane up
      rw [l.begins_eq] at notice
      subst hm
      refine ⟨fun dark => notice.trans (if_pos dark), fun bright new => notice.trans ((if_neg (Nat.not_lt_of_le bright)).trans (if_neg ?_)),
        fun bright trains same => notice.trans ((if_neg (Nat.not_lt_of_le bright)).trans (if_pos ⟨trains, same⟩))⟩
      exact fun ⟨trains, same⟩ => new.elim (· trains) (· same)
    · exact (execLinkTrainingDone_of_due lane trains due).trans (congrArg Host.Outcome.next (State.tryReplay_of_unnoticed unnoticed))
    · subst hm own
      exact (execLinkTrainingDone_of_due lane trains due).trans (congrArg Host.Outcome.next (State.tryReplay_of_noticed trains rfl notice))
    · subst hm hnew
      exact execLinkRetrainResult_of_retraining lane retrains true
    · have fails := execElsuFault_of_up lane inside up e
      dsimp only at fails
      rw [l.begins_eq] at fails
      subst hm hu ht
      exact fails
    · subst hm own
      rfl

end Sys2Proof.Machine

namespace Sys2Proof.Machine

/-! ### The winning route, and the way toward a producer (R163, R172) -/

/-- Mask bits of a routing entry. -/
def maskBits (r : Nat × Word × Word) : Nat := popCount 24 (bitsAt r.2.2 40 24)

/-- The better of the best route so far and a later entry: one with more mask bits. -/
def betterRoute (b : Option (Nat × Word × Word)) (r : Nat × Word × Word) : Option (Nat × Word × Word) :=
  match b with
  | none => some r
  | some q => if maskBits q < maskBits r then some r else some q

theorem State.route_eq (s : State) (rt name : Nat) :
    s.route rt name =
      (((s.routes rt).filter (routeMatch name)).foldl betterRoute none).map fun r => (bitsAt r.2.2 35 5, bitsAt r.2.2 31 4) := rfl

theorem betterRoute_some_of_le {q r : Nat × Word × Word} (le : maskBits r ≤ maskBits q) : betterRoute (some q) r = some q :=
  if_neg (Nat.not_lt_of_le le)

theorem foldl_betterRoute_of_le {q : Nat × Word × Word} {l : List (Nat × Word × Word)} (le : ∀ r ∈ l, maskBits r ≤ maskBits q) :
    l.foldl betterRoute (some q) = some q := by
  induction l with
  | nil => rfl
  | cons r l ih =>
    rw [List.foldl_cons, betterRoute_some_of_le (le r List.mem_cons_self)]
    exact ih fun a ha => le a (List.mem_cons_of_mem r ha)

/-- An entry with more mask bits than every entry before it is the best so far. -/
theorem betterRoute_foldl_of_lt {r : Nat × Word × Word} {l : List (Nat × Word × Word)} (lt : ∀ q ∈ l, maskBits q < maskBits r)
    {b : Option (Nat × Word × Word)} (hb : ∀ q, b = some q → maskBits q < maskBits r) :
    betterRoute (l.foldl betterRoute b) r = some r := by
  induction l generalizing b with
  | nil =>
    cases b with
    | none => rfl
    | some q => exact if_pos (hb q rfl)
  | cons a l ih =>
    refine ih (fun q hq => lt q (List.mem_cons_of_mem a hq)) fun q hq => ?_
    have ha := lt a List.mem_cons_self
    cases b with
    | none => exact Option.some.inj hq ▸ ha
    | some p =>
      dsimp only [betterRoute] at hq
      split at hq
      · exact Option.some.inj hq ▸ ha
      · exact Option.some.inj hq ▸ hb p rfl

theorem State.route_of_unmatched {s : State} {rt name : Nat} (unmatched : ∀ q ∈ s.routes rt, routeMatch name q = false) :
    s.route rt name = none := by
  rw [State.route_eq, List.filter_eq_nil_iff.mpr fun q hq => by simp [unmatched q hq]]
  rfl

theorem State.route_of_best {s : State} {rt name : Nat} {r : Nat × Word × Word} (sorted : (s.routes rt).Pairwise fun a b => a.1 < b.1)
    (mem : r ∈ s.routes rt) (hit : routeMatch name r = true)
    (best : ∀ q ∈ s.routes rt, routeMatch name q = true → maskBits q < maskBits r ∨ maskBits q = maskBits r ∧ r.1 ≤ q.1) :
    s.route rt name = some (bitsAt r.2.2 35 5, bitsAt r.2.2 31 4) := by
  obtain ⟨before, after, cut⟩ := List.append_of_mem (List.mem_filter.mpr ⟨mem, hit⟩)
  have ordered : (before ++ r :: after).Pairwise fun a b => a.1 < b.1 := cut ▸ sorted.filter _
  have matched : ∀ q ∈ before ++ r :: after, maskBits q < maskBits r ∨ maskBits q = maskBits r ∧ r.1 ≤ q.1 := fun q hq =>
    best q (List.mem_filter.mp (cut ▸ hq)).1 (List.mem_filter.mp (cut ▸ hq)).2
  have fewer : ∀ q ∈ before, maskBits q < maskBits r := fun q hq =>
    (matched q (List.mem_append_left _ hq)).resolve_right fun ⟨_, le⟩ =>
      Nat.not_lt_of_le le ((List.pairwise_append.mp ordered).2.2 q hq r List.mem_cons_self)
  have noMore : ∀ q ∈ after, maskBits q ≤ maskBits r := fun q hq =>
    (matched q (List.mem_append_right _ (List.mem_cons_of_mem r hq))).elim Nat.le_of_lt fun ⟨eq, _⟩ => Nat.le_of_eq eq
  rw [State.route_eq, cut, List.foldl_append, List.foldl_cons, betterRoute_foldl_of_lt fewer (b := none) nofun,
    foldl_betterRoute_of_le noMore]
  rfl

section
variable {s : State} {rt kind pm ps : Nat} {m : AgMsg}

theorem State.agUp_of_noroute (noRoute : s.route rt m.name = none) : s.agUp rt kind m = (s, .noroute) := by
  unfold State.agUp
  rw [noRoute]

variable (route : s.route rt m.name = some (pm, ps))
include route

theorem State.agUp_of_producer (here : pm = s.modid) (own : ps = rt) : s.agUp rt kind m = (s, .producer) := by
  unfold State.agUp
  rw [route]
  exact (if_pos here).trans (if_pos own)

theorem State.agUp_of_station (here : pm = s.modid) (other : ps ≠ rt) (station : ps < 8) :
    s.agUp rt kind m = (s.agMsg ps kind m (s.markOf rt m.omod), .forwarded) := by
  unfold State.agUp
  rw [route]
  exact (if_pos here).trans ((if_neg other).trans (if_pos station))

theorem State.agUp_of_rack (away : pm ≠ s.modid) (bridge : rt = 8) :
    s.agUp rt kind m = (s.agRack (s.goesCw s.modid pm) kind m, .forwarded) := by
  unfold State.agUp
  rw [route]
  exact (if_neg away).trans (if_pos bridge)

theorem State.agUp_of_bridge (away : pm ≠ s.modid) (station : rt ≠ 8) :
    s.agUp rt kind m = (s.agMsg 8 kind m (s.markOf rt m.omod), .forwarded) := by
  unfold State.agUp
  rw [route]
  exact (if_neg away).trans (if_neg station)

end

end Sys2Proof.Machine

namespace Sys2Proof.Machine

/-! ### The least free index -/

theorem freeIdx_free_or_covered (used : List Nat) (f i : Nat) :
    freeIdx used f i ∉ used ∨ freeIdx used f i = i + f ∧ ∀ j, i ≤ j → j < i + f → j ∈ used := by
  induction f generalizing i with
  | zero => exact .inr ⟨rfl, fun j lo hi => absurd hi (Nat.not_lt_of_le lo)⟩
  | succ f ih =>
    unfold freeIdx
    split
    · next taken =>
      refine (ih (i + 1)).imp id fun ⟨last, covered⟩ => ⟨by omega, fun j lo hi => ?_⟩
      obtain rfl | above := Nat.eq_or_lt_of_le lo
      · exact List.contains_iff_mem.mp taken
      · exact covered j above (by omega)
    · next free => exact .inl fun mem => free (List.contains_iff_mem.mpr mem)

/-- Among as many indices as are in use, and one more, one is free. -/
theorem freeIdx_not_mem (used : List Nat) : freeIdx used used.length 0 ∉ used := by
  obtain free | ⟨last, covered⟩ := freeIdx_free_or_covered used used.length 0
  · exact free
  · intro mem
    rw [last, Nat.zero_add] at mem
    have all : List.range (used.length + 1) ⊆ used := fun j hj => by
      obtain lt | rfl := Nat.lt_succ_iff_lt_or_eq.mp (List.mem_range.mp hj)
      · exact covered j (Nat.zero_le j) (by omega)
      · exact mem
    have long := (List.nodup_range.subperm all).length_le
    rw [List.length_range] at long
    omega

/-! ### Pending-interest entries (R166, R168, R175) -/

section
variable (p : Pend) (mark omod : Nat)

@[simp] theorem Pend.join_name : (p.join mark omod).name = p.name := by
  unfold Pend.join
  split_ifs <;> rfl

@[simp] theorem Pend.join_relaxed : (p.join mark omod).relaxed = p.relaxed := by
  unfold Pend.join
  split_ifs <;> rfl

@[simp] theorem Pend.join_exp : (p.join mark omod).exp = p.exp := by
  unfold Pend.join
  split_ifs <;> rfl

@[simp] theorem Pend.leave_rt : (p.leave mark).rt = p.rt := by
  unfold Pend.leave
  split_ifs <;> rfl

@[simp] theorem Pend.leave_st : (p.leave mark).st = p.st := by
  unfold Pend.leave
  split_ifs <;> rfl

@[simp] theorem Pend.leave_msg : (p.leave mark).msg = p.msg := by
  unfold Pend.leave
  split_ifs <;> rfl

end

section
variable {s : State} {rt : Nat} {p : Pend}

theorem State.pendFor_rt {name : Nat} {rlx : Bool} (found : s.pendFor rt name rlx = some p) : p.rt = rt := by
  have mem : p ∈ (s.pendsAt rt).filter fun p => covers p.name p.relaxed name rlx := by
    dsimp only [State.pendFor] at found
    split at found
    · next equal => exact Option.some.inj found ▸ List.mem_of_find?_eq_some equal
    · exact List.mem_of_head? found
  exact eq_of_beq (List.mem_filter.mp (List.mem_filter.mp mem).1).2

theorem State.leavePend_of_kept (kept : p.empty = false) : s.leavePend p = s.putPend p := if_neg (by simp [kept])

theorem State.leavePend_of_local (empty : p.empty = true) (here : p.st ≠ .forwarded) : s.leavePend p = s.dropPend p :=
  (if_pos empty).trans (if_neg here)

theorem State.leavePend_of_forwarded (empty : p.empty = true) (sent : p.st = .forwarded) :
    s.leavePend p = ((s.dropPend p).agUp p.rt 3 p.msg).1 :=
  (if_pos empty).trans (if_pos sent)

end

/-! ### An interest at a router (R158, R166, R168, R172) -/

/-- The entry that a router makes for an interest, before its downstream joins. -/
def State.newPend (s : State) (rt : Nat) (m : AgMsg) : Pend :=
  { rt := rt, idx := freeIdx ((s.pendsAt rt).map (·.idx)) (s.pendsAt rt).length 0, name := m.name, relaxed := m.relaxed
    st := (s.agUp rt 0 m).2, exp := m.exp, modmask := 0, cw := false, ccw := false, stns := 0, omod := m.omod, ostn := m.ostn, cons := [] }

/-- The interest has gone toward its producer, and its entry is in the router's table. -/
def State.entered (s : State) (rt : Nat) (m : AgMsg) (mark : Nat) : State :=
  let u := (s.agUp rt 0 m).1
  u.withAg { u.agate with pends := u.agate.pends ++ [(s.newPend rt m).join mark m.omod] }

theorem State.newPend_idx_fresh (s : State) (rt : Nat) (m : AgMsg) : ∀ q ∈ s.pendsAt rt, q.idx ≠ (s.newPend rt m).idx := by
  intro q hq same
  have free := freeIdx_not_mem ((s.pendsAt rt).map (·.idx))
  rw [List.length_map] at free
  exact free (List.mem_map.mpr ⟨q, hq, same⟩)

section
variable {s : State} {rt mark : Nat} {m : AgMsg}

theorem State.agInterest_of_refused (refused : s.agEnabled = false ∨ s.agAdmits (nameNs m.name) m.omod = false) :
    s.agInterest rt m mark = some ((s.count (agRef rt)).agRefuse rt m) :=
  if_pos (by simpa using refused)

/-- A router refuses an interest under the slot rules only when it is admitted, unknown, and the table is full. -/
theorem State.agInterest_eq_none (h : s.agInterest rt m mark = none) :
    s.agEnabled = true ∧ s.agAdmits (nameNs m.name) m.omod = true ∧ (m.omod = s.modid ∨ m.omod ∈ s.rack) ∧
      s.tileFor rt m.name m.relaxed = none ∧ s.pendFor rt m.name m.relaxed = none ∧ pendCap rt ≤ (s.pendsAt rt).length := by
  unfold State.agInterest at h
  split at h
  · cases h
  · next served =>
    split at h
    · cases h
    · next near =>
      split at h
      · cases h
      · next noTile =>
        split at h
        · dsimp only at h
          split at h <;> cases h
        · next noPend =>
          split at h
          · next full =>
            simp only [Bool.or_eq_true, Bool.not_eq_true', not_or, Bool.not_eq_false] at served
            refine ⟨served.1, served.2, ?_, noTile, noPend, full⟩
            simpa [or_iff_not_imp_left] using near
          · cases h

section
variable (enabled : s.agEnabled = true) (admitted : s.agAdmits (nameNs m.name) m.omod = true)
include enabled admitted

theorem State.agInterest_of_outside (away : m.omod ≠ s.modid) (outside : m.omod ∉ s.rack) :
    s.agInterest rt m mark = some (s.count (agRef rt)) := by
  unfold State.agInterest
  exact (if_neg (by simp [enabled, admitted])).trans (if_pos (by simp [away, outside]))

variable (near : m.omod = s.modid ∨ m.omod ∈ s.rack)
include near

theorem State.agInterest_of_tile {t : Tile} (tile : s.tileFor rt m.name m.relaxed = some t) :
    s.agInterest rt m mark =
      let u := s.withAg { s.agate with tiles := s.agate.tiles.map fun x => if x = t then { x with qtz := s.now } else x }
      some ((u.count (agHit rt)).sendTile rt { m with
        name := t.name, relaxed := false, hit := !t.prod, ostn := min rt 8, omod := u.modid, size := t.size, exp := 0, segoff := 0
        data := t.data } mark) := by
  unfold State.agInterest
  rw [if_neg (by simp [enabled, admitted]), if_neg (by simpa [or_iff_not_imp_left] using near), tile]
  rfl

variable (noTile : s.tileFor rt m.name m.relaxed = none)
include noTile

theorem State.agInterest_of_merged {p : Pend} (pend : s.pendFor rt m.name m.relaxed = some p) :
    s.agInterest rt m mark =
      let u := s.count (agMerge rt)
      if expAfter m.exp p.exp = true then
        some (((u.putPend { p.join mark m.omod with exp := m.exp }).agUp rt 4 { m with name := p.name, relaxed := p.relaxed }).1)
      else some (u.putPend (p.join mark m.omod)) := by
  unfold State.agInterest
  rw [if_neg (by simp [enabled, admitted]), if_neg (by simpa [or_iff_not_imp_left] using near), noTile, pend]
  simp only [Pend.join_name, Pend.join_relaxed, Pend.join_exp]

variable (noPend : s.pendFor rt m.name m.relaxed = none)
include noPend

theorem State.agInterest_of_full (full : pendCap rt ≤ (s.pendsAt rt).length) : s.agInterest rt m mark = none := by
  unfold State.agInterest
  rw [if_neg (by simp [enabled, admitted]), if_neg (by simpa [or_iff_not_imp_left] using near), noTile, noPend]
  exact if_pos full

theorem State.agInterest_of_new (room : (s.pendsAt rt).length < pendCap rt) :
    s.agInterest rt m mark =
      let v := s.entered rt m mark
      some (if (s.agUp rt 0 m).2 = .noroute ∧ v.fmode 2 = true then
        (v.interrupt 3).emit 0 [BitVec.ofNat 64 m.name, BitVec.ofNat 64 (m.name / 2 ^ 64)] else v) := by
  unfold State.agInterest
  rw [if_neg (by simp [enabled, admitted]), if_neg (by simpa [or_iff_not_imp_left] using near), noTile, noPend]
  exact if_neg (Nat.not_le_of_lt room)

end

theorem execAgateInterest_of_some {v : State} (answer : s.agInterest rt m mark = some v) :
    execAgateInterest rt m mark s = .next ((if s.agExpired rt 0 m mark = true then s else v).agTake rt 0 m mark) := by
  unfold execAgateInterest
  rw [answer]
  rfl

theorem execAgateInterest_of_fresh {v : State} (fresh : s.agExpired rt 0 m mark = false) (answer : s.agInterest rt m mark = some v) :
    execAgateInterest rt m mark s = .next (v.agTake rt 0 m mark) := by
  rw [execAgateInterest_of_some answer, if_neg (by simp [fresh])]

theorem execAgateInterest_of_none (full : s.agInterest rt m mark = none) :
    execAgateInterest rt m mark s = .next ((s.count (agFull rt)).agLater rt 0 m mark) := by
  unfold execAgateInterest
  rw [full]

/-- An interest that was held back and is past its expiry is discarded, unless the table is still full. -/
theorem execAgateInterest_of_expired (expired : s.agExpired rt 0 m mark = true)
    (taken : s.agEnabled = false ∨ s.agAdmits (nameNs m.name) m.omod = false ∨ (m.omod ≠ s.modid ∧ m.omod ∉ s.rack) ∨
      s.tileFor rt m.name m.relaxed ≠ none ∨ s.pendFor rt m.name m.relaxed ≠ none ∨ (s.pendsAt rt).length < pendCap rt) :
    execAgateInterest rt m mark s = .next (s.agTake rt 0 m mark) := by
  cases answer : s.agInterest rt m mark with
  | some v => rw [execAgateInterest_of_some answer, if_pos expired]
  | none =>
    obtain ⟨enabled, admitted, near, noTile, noPend, full⟩ := State.agInterest_eq_none answer
    obtain disabled | refused | ⟨away, outside⟩ | tile | pend | room := taken
    · exact absurd (enabled.symm.trans disabled) nofun
    · exact absurd (admitted.symm.trans refused) nofun
    · exact absurd near (not_or.mpr ⟨away, outside⟩)
    · exact absurd noTile tile
    · exact absurd noPend pend
    · exact absurd full (Nat.not_le_of_lt room)

/-! ### Refreshes, cancels and refusals (R158, R168, R175, R176) -/

theorem execAgateRefresh_of_later {p : Pend} (pend : s.pendFor rt m.name m.relaxed = some p) (enabled : s.agEnabled = true)
    (later : expAfter m.exp p.exp = true) (fresh : s.agExpired rt 4 m mark = false) :
    execAgateRefresh rt m mark s =
      .next (((s.agTake rt 4 m mark).putPend { p with exp := m.exp }).agUp rt 4 { m with name := p.name, relaxed := p.relaxed }).1 := by
  unfold State.agExpired at fresh
  unfold execAgateRefresh
  rw [pend]
  exact (if_neg (by simp [enabled])).trans (if_pos (by simp [later, fresh]))

theorem execAgateRefresh_of_kept {p : Pend} (pend : s.pendFor rt m.name m.relaxed = some p) (enabled : s.agEnabled = true)
    (kept : expAfter m.exp p.exp = false ∨ s.agExpired rt 4 m mark = true) :
    execAgateRefresh rt m mark s = .next (s.agTake rt 4 m mark) := by
  unfold State.agExpired at kept
  unfold execAgateRefresh
  rw [pend]
  exact (if_neg (by simp [enabled])).trans (if_neg (by obtain early | past := kept <;> simp [*]))

theorem execAgateRefresh_of_disabled {p : Pend} (pend : s.pendFor rt m.name m.relaxed = some p) (disabled : s.agEnabled = false) :
    execAgateRefresh rt m mark s = .next (s.agLater rt 4 m mark) := by
  unfold execAgateRefresh
  rw [pend]
  exact if_pos (by simp [disabled])

theorem execAgateRefresh_of_interest {v : State} (noPend : s.pendFor rt m.name m.relaxed = none)
    (answer : s.agInterest rt m mark = some v) :
    execAgateRefresh rt m mark s = .next ((if s.agExpired rt 4 m mark = true then s else v).agTake rt 4 m mark) := by
  unfold execAgateRefresh
  rw [noPend, answer]
  rfl

theorem execAgateRefresh_of_full (noPend : s.pendFor rt m.name m.relaxed = none) (full : s.agInterest rt m mark = none) :
    execAgateRefresh rt m mark s = .next ((s.count (agFull rt)).agLater rt 4 m mark) := by
  unfold execAgateRefresh
  rw [noPend, full]

theorem execAgateCancel_of_disabled (disabled : s.agEnabled = false) : execAgateCancel rt m mark s = .next (s.agLater rt 3 m mark) :=
  if_pos (by simp [disabled])

theorem execAgateCancel_of_some {p : Pend} (enabled : s.agEnabled = true) (pend : s.pendFor rt m.name m.relaxed = some p) :
    execAgateCancel rt m mark s = .next ((s.agTake rt 3 m mark).leavePend (p.leave mark)) := by
  have still : (s.agTake rt 3 m mark).pendFor rt m.name m.relaxed = some p := pend
  unfold execAgateCancel
  rw [if_neg (by simp [enabled])]
  dsimp only
  rw [still]

theorem execAgateCancel_of_none (enabled : s.agEnabled = true) (noPend : s.pendFor rt m.name m.relaxed = none) :
    execAgateCancel rt m mark s = .next (s.agTake rt 3 m mark) := by
  have still : (s.agTake rt 3 m mark).pendFor rt m.name m.relaxed = none := noPend
  unfold execAgateCancel
  rw [if_neg (by simp [enabled])]
  dsimp only
  rw [still]

theorem execAgateRefusal_of_disabled (disabled : s.agEnabled = false) : execAgateRefusal rt m s = .next (s.agLater rt 5 m noMark) :=
  if_pos (by simp [disabled])

theorem execAgateRefusal_of_home (enabled : s.agEnabled = true) (here : m.omod = s.modid) (home : m.ostn = rt) :
    execAgateRefusal rt m s = .next (s.agTake rt 5 m noMark) :=
  (if_neg (by simp [enabled])).trans (if_pos ⟨here, home⟩)

theorem execAgateRefusal_of_other (enabled : s.agEnabled = true) (other : ¬(m.omod = s.modid ∧ m.ostn = rt)) :
    execAgateRefusal rt m s = .next ((s.agTake rt 5 m noMark).agRefuse rt m) :=
  (if_neg (by simp [enabled])).trans (if_neg other)

/-! ### Entries that expire, and routing entries written (R163, R173) -/

theorem execAgateEntryExpiry_of_some {n : Nat} {p : Pend} (found : (s.pendsAt rt).find? (fun p => p.idx == n) = some p) :
    execAgateEntryExpiry rt n s = if s.agPast p.exp = true then .next (s.dropPend p) else .next s := by
  unfold execAgateEntryExpiry
  rw [found]

theorem execRoutingEntryWrite_of_inside {n : Nat} {w0 w1 : Word} (router : rt < 9) (entry : n < 1024) :
    execRoutingEntryWrite rt n w0 w1 s = .next (((s.writeReg (routeReg rt n) w0).writeReg (routeReg rt n + 8) w1).reroute rt) :=
  if_neg (not_or.mpr ⟨Nat.not_le_of_lt router, Nat.not_le_of_lt entry⟩)

end

end Sys2Proof.Machine

namespace Sys2Proof.Machine

/-! ### Segments of a tile (R158, R165, R169) -/

section
variable {s : State} {rt : Nat} {m : AgMsg}

/-- The tile with a segment put in its place. -/
def Tile.withSegment (t : Tile) (m : AgMsg) : Tile :=
  { t with
    segs := if t.segs.contains m.segoff then t.segs else m.segoff :: t.segs
    data := splice t.data (128 * m.segoff) (m.data.take (128 * (m.size - m.segoff))) }

/-- The tile being put together that a segment belongs to, or a new one, with the state that has it. -/
def State.filling (u : State) (rt : Nat) (m : AgMsg) : State × Tile :=
  match u.agate.tiles.find? (sameFill rt m) with
  | some t => (u, t)
  | none => u.fillOf rt m

theorem State.filling_eq {u v : State} {t : Tile}
    (h : u.agate.tiles.find? (sameFill rt m) = some t ∧ v = u ∨ u.agate.tiles.find? (sameFill rt m) = none ∧ u.fillOf rt m = (v, t)) :
    u.filling rt m = (v, t) := by
  unfold State.filling
  obtain ⟨found, rfl⟩ | ⟨missing, new⟩ := h
  · rw [found]
  · rw [missing]
    exact new

theorem execAgateTileSegment_of_disabled (disabled : s.agEnabled = false) :
    execAgateTileSegment rt m s = .next (s.agLater rt 1 m noMark) :=
  if_pos (by simp [disabled])

theorem execAgateTileSegment_of_record {k n mark : Nat} (enabled : s.agEnabled = true)
    (record : s.agate.msgs.find? (fun x => x.1 == rt && x.2.1 == 1 && x.2.2.1 == m && decide (16 ≤ x.2.2.2)) = some (k, n, m, mark)) :
    execAgateTileSegment rt m s = .next (s.deliverTile rt m mark) := by
  unfold execAgateTileSegment
  rw [if_neg (by simp [enabled]), record]

section
variable (enabled : s.agEnabled = true) (noRecord : ∀ x ∈ s.agate.msgs, x.1 = rt → x.2.1 = 1 → x.2.2.1 = m → x.2.2.2 < 16)
include noRecord

theorem State.find_record_of_unmarked :
    s.agate.msgs.find? (fun x => x.1 == rt && x.2.1 == 1 && x.2.2.1 == m && decide (16 ≤ x.2.2.2)) = none := by
  rw [List.find?_eq_none]
  intro x hx
  have low := noRecord x hx
  simp only [Bool.and_eq_true, beq_iff_eq, decide_eq_true_eq, not_and, Nat.not_le]
  exact fun ⟨⟨router, kind⟩, msg⟩ => low router kind msg

include enabled

theorem execAgateTileSegment_of_discarded (discarded : s.agAdmits (nameNs m.name) m.omod = false ∨ m.size = 0) :
    execAgateTileSegment rt m s = .next (s.agTake rt 1 m noMark) := by
  have still : (s.agTake rt 1 m noMark).agAdmits (nameNs m.name) m.omod = s.agAdmits (nameNs m.name) m.omod := rfl
  unfold execAgateTileSegment
  rw [if_neg (by simp [enabled]), State.find_record_of_unmarked noRecord]
  exact if_pos (by simpa [still] using discarded)

/-- A segment is put in its tile; the last one makes the tile whole at the router. -/
theorem execAgateTileSegment_of_segment (admitted : s.agAdmits (nameNs m.name) m.omod = true) (sized : m.size ≠ 0) {v : State} {t : Tile}
    (filling : (s.agTake rt 1 m noMark).filling rt m = (v, t)) :
    execAgateTileSegment rt m s =
      let w := v.withAg { v.agate with tiles := v.agate.tiles.filter fun x => !sameFill rt m x }
      if (m.size + 62) / 63 ≤ (t.withSegment m).segs.length then
        .next (w.tileHere rt { m with segoff := 0, data := (t.withSegment m).data })
      else .next (w.withAg { w.agate with tiles := t.withSegment m :: w.agate.tiles }) := by
  have still : (s.agTake rt 1 m noMark).agAdmits (nameNs m.name) m.omod = true := admitted
  obtain rfl : ((s.agTake rt 1 m noMark).filling rt m).1 = v := congrArg Prod.fst filling
  obtain rfl : ((s.agTake rt 1 m noMark).filling rt m).2 = t := congrArg Prod.snd filling
  unfold execAgateTileSegment
  rw [if_neg (by simp [enabled]), State.find_record_of_unmarked noRecord]
  exact if_neg (by simp [still, sized])

end

/-! ### Announcements (R158, R164, R179) -/

theorem execAgateAnnouncement_of_disabled (disabled : s.agEnabled = false) :
    execAgateAnnouncement rt m s = .next (s.agLater rt 2 m noMark) :=
  if_pos (by simp [disabled])

theorem execAgateAnnouncement_of_refused (enabled : s.agEnabled = true) (refused : s.agAdmits (nameNs m.name) m.omod = false) :
    execAgateAnnouncement rt m s = .next (s.agTake rt 2 m noMark) := by
  have still : (s.agTake rt 2 m noMark).agAdmits (nameNs m.name) m.omod = false := refused
  exact (if_neg (by simp [enabled])).trans (if_pos (by simp [still]))

/-- An admitted announcement is learned; the bridge router carries it on, to other modules or to the stations of this one. -/
theorem execAgateAnnouncement_of_admitted (enabled : s.agEnabled = true) (admitted : s.agAdmits (nameNs m.name) m.omod = true) :
    execAgateAnnouncement rt m s =
      let v := ((s.agTake rt 2 m noMark).announce rt m.name).learn rt m
      if rt ≠ 8 then .next v
      else if m.omod = v.modid then .next ((v.annModules (nameNs m.name)).foldl (fun s d => s.agSend d 2 m) v)
      else .next ((List.range 8).foldl (fun s d => s.agMsg d 2 m noMark) v) := by
  have still : (s.agTake rt 2 m noMark).agAdmits (nameNs m.name) m.omod = true := admitted
  exact (if_neg (by simp [enabled])).trans (if_neg (by simp [still]))

end

/-! ### Records that expire (R174) -/

section
variable {s : State} {n : Nat} {c : Cons} (found : (s.consAt (n / 8192)).find? (fun c => c.idx == n % 8192) = some c)
include found

theorem execAgateRecordExpiry_of_due (due : c.exp ≤ s.now) (waiting : c.arrived = false) (settled : s.consHome c ≠ .saving) :
    execAgateRecordExpiry n s = .next (s.expireCons c) := by
  unfold execAgateRecordExpiry
  rw [found]
  exact if_pos (by simp [due, waiting, settled])

theorem execAgateRecordExpiry_of_kept (kept : s.now < c.exp ∨ c.arrived = true ∨ s.consHome c = .saving) :
    execAgateRecordExpiry n s = .next s := by
  unfold execAgateRecordExpiry
  rw [found]
  refine if_neg ?_
  obtain early | arrived | saving := kept
  · simp [early]
  · simp [arrived]
  · simp [saving]

end

end Sys2Proof.Machine

namespace Sys2Proof.Machine

/-! ### A tile for a record of the station (R174, R177-R179, R206) -/

theorem peerParts_eq_nil {ss : List Span} (here : ∀ p ∈ ss, p.place ≠ .peer) (bs : List Byte) : peerParts ss bs = [] := by
  induction ss generalizing bs with
  | nil => rfl
  | cons p ss ih =>
    unfold peerParts
    rw [if_neg (here p List.mem_cons_self), ih fun q hq => here q (List.mem_cons_of_mem p hq)]
    rfl

theorem peerParts_ne_nil {ss : List Span} (away : ∃ p ∈ ss, p.place = .peer) (bs : List Byte) : peerParts ss bs ≠ [] := by
  induction ss generalizing bs with
  | nil => exact absurd away (by simp)
  | cons p ss ih =>
    unfold peerParts
    by_cases peer : p.place = .peer
    · simp [peer]
    · obtain ⟨q, hq, hpeer⟩ := away
      obtain rfl | rest := List.mem_cons.mp hq
      · exact absurd hpeer peer
      · exact List.append_ne_nil_of_right_ne_nil _ (ih ⟨q, rest, hpeer⟩ _)

/-- What the delivery of a tile that satisfies a waiting record does, where the destination lies now. -/
def State.tileLands (s : State) (c : Cons) (ss : List Span) (rt : Nat) (m : AgMsg) (mark : Nat) : State :=
  let cut := cutSpans ss 0 (128 * m.size)
  let away := peerParts cut m.data
  if s.ctxState c.ctx = 2 then s.agTake rt 1 m mark
  else if 2 ^ 16 ≤ mark then
    if (s.fab.e2e.any fun e => e.uid == agUid c) = true then s else (s.arrive c m).agTake rt 1 m mark
  else if c.exp ≤ s.now then (s.expireCons c).agTake rt 1 m mark
  else match s.writeSpans (hubWho c.ctx) (cut.filter fun p => p.place != .peer) (localParts cut m.data) with
    | .error _ => s
    | .ok u =>
      if away.isEmpty = true then (u.arrive c m).agTake rt 1 m mark
      else ((away.foldl (fun v p =>
        v.e2eSend (p.1.addr / 2 ^ 43 % 32) { kind := .write p.2, addr := p.1.addr % 2 ^ 43 } (3340 + c.stn) none (agUid c) c.ctx)
          u).agTake rt 1 m mark).agMsg rt 1 m (mark + 2 ^ 16)

section
variable {s : State} {rt mark : Nat} {m : AgMsg}

theorem State.deliverTile_of_missing (missing : (s.consAt rt).find? (fun c => c.idx == mark % 2 ^ 16 - 16) = none) :
    s.deliverTile rt m mark = s.agTake rt 1 m mark := by
  unfold State.deliverTile agSent
  dsimp only
  rw [missing]

section
variable {c : Cons} (found : (s.consAt rt).find? (fun c => c.idx == mark % 2 ^ 16 - 16) = some c)
include found

/-- A tile that the record does not wait for is dropped; the one it already has counts as a duplicate. -/
theorem State.deliverTile_of_unwanted (unwanted : c.arrived = true ∨ satisfies m.name c.name c.relaxed = false) :
    s.deliverTile rt m mark = (if (c.arrived && c.name == m.name) = true then s.count (agDup rt) else s).agTake rt 1 m mark := by
  unfold State.deliverTile agSent
  dsimp only
  rw [found]
  exact if_pos (by simpa using unwanted)

variable (waiting : c.arrived = false) (met : satisfies m.name c.name c.relaxed = true)
include waiting met

theorem State.deliverTile_of_saving (saving : s.landSpans c = none) : s.deliverTile rt m mark = s := by
  unfold State.deliverTile agSent
  dsimp only
  rw [found]
  dsimp only
  rw [if_neg (by simp [waiting, met]), saving]

theorem State.deliverTile_of_wanted {ss : List Span} (land : s.landSpans c = some ss) :
    s.deliverTile rt m mark = s.tileLands c ss rt m mark := by
  unfold State.deliverTile agSent
  dsimp only
  rw [found]
  dsimp only
  rw [if_neg (by simp [waiting, met]), land]
  rfl

end

section
variable {c : Cons} {ss : List Span}

theorem State.tileLands_of_halted (halted : s.ctxState c.ctx = 2) : s.tileLands c ss rt m mark = s.agTake rt 1 m mark := if_pos halted

variable (runs : s.ctxState c.ctx ≠ 2)
include runs

/-- A delivery whose writes to another module are on their way waits for them, and then the slot is ARRIVED. -/
theorem State.tileLands_of_sent (sent : 2 ^ 16 ≤ mark) :
    s.tileLands c ss rt m mark = if (s.fab.e2e.any fun e => e.uid == agUid c) = true then s else (s.arrive c m).agTake rt 1 m mark :=
  (if_neg runs).trans (if_pos sent)

variable (unsent : mark < 2 ^ 16)
include unsent

theorem State.tileLands_of_late (late : c.exp ≤ s.now) : s.tileLands c ss rt m mark = (s.expireCons c).agTake rt 1 m mark :=
  (if_neg runs).trans ((if_neg (Nat.not_le_of_lt unsent)).trans (if_pos late))

variable (inTime : s.now < c.exp)
include inTime

theorem State.tileLands_of_blocked {e : Nat}
    (blocked : s.writeSpans (hubWho c.ctx) ((cutSpans ss 0 (128 * m.size)).filter fun p => p.place != .peer)
      (localParts (cutSpans ss 0 (128 * m.size)) m.data) = .error e) :
    s.tileLands c ss rt m mark = s := by
  unfold State.tileLands
  dsimp only
  rw [if_neg runs, if_neg (Nat.not_le_of_lt unsent), if_neg (Nat.not_le_of_lt inTime), blocked]

section
variable {u : State} (written : s.writeSpans (hubWho c.ctx) ((cutSpans ss 0 (128 * m.size)).filter fun p => p.place != .peer)
  (localParts (cutSpans ss 0 (128 * m.size)) m.data) = .ok u)
include written

theorem State.tileLands_of_local (here : ∀ p ∈ cutSpans ss 0 (128 * m.size), p.place ≠ .peer) :
    s.tileLands c ss rt m mark = (u.arrive c m).agTake rt 1 m mark := by
  unfold State.tileLands
  dsimp only
  rw [if_neg runs, if_neg (Nat.not_le_of_lt unsent), if_neg (Nat.not_le_of_lt inTime), written]
  exact if_pos (List.isEmpty_iff.mpr (peerParts_eq_nil here m.data))

/-- Bytes that lie on another module are sent there, and the message comes again to wait for them. -/
theorem State.tileLands_of_peer (peer : ∃ p ∈ cutSpans ss 0 (128 * m.size), p.place = .peer) :
    s.tileLands c ss rt m mark =
      (((peerParts (cutSpans ss 0 (128 * m.size)) m.data).foldl (fun v p =>
        v.e2eSend (p.1.addr / 2 ^ 43 % 32) { kind := .write p.2, addr := p.1.addr % 2 ^ 43 } (3340 + c.stn) none (agUid c) c.ctx)
          u).agTake rt 1 m mark).agMsg rt 1 m (mark + 2 ^ 16) := by
  unfold State.tileLands
  dsimp only
  rw [if_neg runs, if_neg (Nat.not_le_of_lt unsent), if_neg (Nat.not_le_of_lt inTime), written]
  exact if_neg fun empty => peerParts_ne_nil peer m.data (List.isEmpty_iff.mp empty)

end

end

end

theorem State.arrive_eq {s u : State} {c : Cons} {m : AgMsg} {w : Word} {stale : Bool} (word : s.arrivalWord c m = (w, stale))
    (counted : u = if stale = true then s.count64 (ctxBase c.ctx + 0x038) else s) :
    s.arrive c m = (u.setSlot c .arrived w).putCons { c with arrived := true, name := m.name, relaxed := false } := by
  unfold State.arrive
  dsimp only
  rw [word, counted]

end Sys2Proof.Machine

namespace Sys2Proof.Machine

/-! ### Routers together -/

/-- Settles O42: each clause is the lemma of its case of the routers' functions; the winning route is the first of the most mask bits in the table's
order, and a new entry's index is free because as many indices as entries are tried, and one more. -/
theorem tileRouting : Obligations.TileRouting := by
  refine ⟨?routes, ?interests, ?tiles, ?deliveries⟩
  case routes =>
    intro s rt name pm ps kind m r
    exact ⟨State.route_of_unmatched, State.route_of_best, State.agUp_of_noroute, fun route =>
      ⟨State.agUp_of_producer route, State.agUp_of_station route, State.agUp_of_rack route, State.agUp_of_bridge route⟩⟩
  case interests =>
    intro s u rt down m w0 w1 n
    refine ⟨execAgateInterest_of_expired, fun fresh refused => execAgateInterest_of_fresh fresh (State.agInterest_of_refused refused),
      fun fresh enabled admitted away outside =>
        execAgateInterest_of_fresh fresh (State.agInterest_of_outside enabled admitted away outside),
      fun enabled admitted near => ⟨?hit, fun noTile => ⟨?merged, ?full, ?new⟩⟩,
      fun p pend => ⟨execAgateRefresh_of_disabled pend, ?refresh⟩,
      fun noPend => ⟨fun v => execAgateRefresh_of_interest noPend, execAgateRefresh_of_full noPend⟩,
      fun disabled => ⟨execAgateCancel_of_disabled disabled, execAgateRefusal_of_disabled disabled⟩, ?cancel,
      execAgateCancel_of_none, execAgateRefusal_of_home, execAgateRefusal_of_other, ?expiry, execRoutingEntryWrite_of_inside⟩
    case hit =>
      rintro t fresh tile rfl
      exact execAgateInterest_of_fresh fresh (State.agInterest_of_tile enabled admitted near tile)
    case merged =>
      rintro p fresh pend rfl
      have merged := State.agInterest_of_merged (mark := down) enabled admitted near noTile pend
      exact ⟨fun early => execAgateInterest_of_fresh fresh (merged.trans (if_neg (by simp [early]))),
        fun later => execAgateInterest_of_fresh fresh (merged.trans (if_pos later))⟩
    case full =>
      exact fun noPend full => execAgateInterest_of_none (State.agInterest_of_full enabled admitted near noTile noPend full)
    case new =>
      rintro fresh noPend room rfl
      have new := State.agInterest_of_new (mark := down) enabled admitted near noTile noPend room
      refine ⟨s.newPend rt m, rfl, rfl, rfl, rfl, rfl, rfl, rfl, rfl, rfl, rfl, rfl, rfl, s.newPend_idx_fresh rt m, ?_⟩
      rintro v rfl
      refine ⟨fun quiet => execAgateInterest_of_fresh fresh (new.trans (congrArg some (if_neg ?_))),
        fun noroute strict => execAgateInterest_of_fresh fresh (new.trans (congrArg some (if_pos ⟨noroute, strict⟩)))⟩
      exact fun ⟨noroute, strict⟩ => quiet.elim (· noroute) fun lax => absurd (strict.symm.trans lax) nofun
    case refresh =>
      rintro enabled rfl
      exact ⟨execAgateRefresh_of_kept pend enabled, execAgateRefresh_of_later pend enabled⟩
    case cancel =>
      rintro p enabled pend rfl
      have cancel := execAgateCancel_of_some (mark := down) enabled pend
      refine ⟨fun kept => ?_, fun empty here => ?_, fun empty sent => ?_⟩
      · rw [← State.leavePend_of_kept kept]
        exact cancel
      · rw [← State.leavePend_of_local empty (by simpa using here)]
        exact cancel
      · have left := State.leavePend_of_forwarded (s := s.agTake rt 3 m down) empty (by simpa using sent)
        rw [Pend.leave_rt, Pend.leave_msg, State.pendFor_rt pend] at left
        rw [← left]
        exact cancel
    case expiry =>
      intro p found
      exact ⟨fun past => (execAgateEntryExpiry_of_some found).trans (if_pos past),
        fun early => (execAgateEntryExpiry_of_some found).trans (if_neg (by simp [early]))⟩
  case tiles =>
    intro s u rt n m
    refine ⟨fun disabled => ⟨execAgateTileSegment_of_disabled disabled, execAgateAnnouncement_of_disabled disabled⟩,
      ?segment, ?announcement, fun c found => ⟨execAgateRecordExpiry_of_kept found, ?record⟩⟩
    case segment =>
      rintro enabled noRecord rfl
      refine ⟨execAgateTileSegment_of_discarded enabled noRecord, ?_⟩
      rintro admitted sized v w t t' filling rfl rfl
      have segment := execAgateTileSegment_of_segment enabled noRecord admitted sized (State.filling_eq filling)
      exact ⟨fun whole => segment.trans (if_pos whole), fun more => segment.trans (if_neg (Nat.not_le_of_lt more))⟩
    case announcement =>
      rintro enabled rfl
      refine ⟨execAgateAnnouncement_of_refused enabled, ?_⟩
      rintro admitted v rfl
      have announced := execAgateAnnouncement_of_admitted (rt := rt) enabled admitted
      exact ⟨fun station => announced.trans (if_pos station),
        fun bridge here => announced.trans ((if_neg (not_not_intro bridge)).trans (if_pos here)),
        fun bridge away => announced.trans ((if_neg (not_not_intro bridge)).trans (if_neg away))⟩
    case record =>
      rintro due waiting settled rfl
      exact execAgateRecordExpiry_of_due found due waiting settled
  case deliveries =>
    intro s u rt k n mark m enabled record
    have delivers {v : State} (h : s.deliverTile rt m mark = v) : exec (.agateTileSegment rt m) s = .next v :=
      (execAgateTileSegment_of_record enabled record).trans (congrArg Host.Outcome.next h)
    refine ⟨fun missing => delivers (State.deliverTile_of_missing missing), fun c found => ⟨?duplicate, ?other, ?unmet, ?wanted⟩,
      fun c w st => State.arrive_eq⟩
    case duplicate =>
      intro arrived same
      exact delivers ((State.deliverTile_of_unwanted found (.inl arrived)).trans (by rw [if_pos (by simp [arrived, same])]))
    case other =>
      intro arrived other
      exact delivers ((State.deliverTile_of_unwanted found (.inl arrived)).trans (by rw [if_neg (by simp [other])]))
    case unmet =>
      intro waiting unmet
      exact delivers ((State.deliverTile_of_unwanted found (.inr unmet)).trans (by rw [if_neg (by simp [waiting])]))
    case wanted =>
      intro waiting met
      refine ⟨fun saving => delivers (State.deliverTile_of_saving found waiting met saving), fun ss land => ?_⟩
      have lands {v : State} (h : s.tileLands c ss rt m mark = v) : exec (.agateTileSegment rt m) s = .next v :=
        delivers ((State.deliverTile_of_wanted found waiting met land).trans h)
      exact ⟨fun halted => lands (State.tileLands_of_halted halted),
        fun runs unsent late => lands (State.tileLands_of_late runs unsent late),
        fun runs unsent inTime => ⟨fun e blocked => lands (State.tileLands_of_blocked runs unsent inTime blocked), fun written =>
          ⟨fun here => lands (State.tileLands_of_local runs unsent inTime written here),
            fun peer => lands (State.tileLands_of_peer runs unsent inTime written peer)⟩⟩,
        fun runs sent => ⟨fun waits => lands ((State.tileLands_of_sent runs sent).trans (if_pos (by simpa using waits))),
          fun done => lands ((State.tileLands_of_sent runs sent).trans (if_neg (by simpa using done)))⟩⟩

end Sys2Proof.Machine

namespace Sys2Proof.Machine

/-! ### Words that a strand has not (R186, R271) -/

/-- A word of a strand half issues with the meaning it has in a slot. -/
theorem exec_eq_issue {i : Instr} (noStep : i.half ≠ .step) (noHart : i.half ≠ .ferle) (s : State) : exec i s = issue i (slotSem i) s := by
  cases i
  any_goals exact absurd rfl noStep
  any_goals exact absurd rfl noHart
  all_goals rfl

/-- What the checks turn away as `ILLEGAL` leaves the trap alone. -/
theorem issue_of_illegal {i : Instr} {sem : Sem} {s : State} (hf : Fresh s) (h : slotChecked i sem s = .error (.trap 1 0 0)) :
    issue i sem s = State.raisesIllegal s i := by
  unfold issue
  rw [if_neg (by simp [hf.1, tested]), landForIssue_of_landed hf.2.1]
  simp only [checked, h, error_bind]
  rfl

theorem slotChecked_of_foreign {i : Instr} {sem : Sem} {s : State} (h : i.issuedBy s.cur = false ∨ i.fieldsOk = false) :
    slotChecked i sem s = .error (.trap 1 0 0) := by
  have refused : (!(i.issuedBy s.cur && i.fieldsOk)) = true := by rcases h with h | h <;> simp [h]
  simp [slotChecked, refused]

/-- Settles O53: the first check of `slotChecked` turns the word away before its meaning is asked. -/
theorem illegalWords : Obligations.IllegalWords := by
  intro s i fresh noStep noHart foreign
  rw [exec_eq_issue noStep noHart]
  exact issue_of_illegal fresh (slotChecked_of_foreign foreign)

end Sys2Proof.Machine

namespace Sys2Proof.Machine

/-! ### A turn of the agenda (R187, R248, R271, R429) -/

theorem step_of_agenda {s : State} {t : Turn} {ts : List Turn} (h : s.agenda = t :: ts) :
    step s = ({ s with agenda := ts } : State).runTurn t := by
  unfold step
  rw [h]

theorem step_of_strandTurn {s : State} {n : Nat} (empty : s.agenda = []) (turn : s.turn ≠ 0) (next : nextTurn (s.turn - 1) s.turns = some n)
    (strand : n < 8192) : step s = (({ s with turn := n + 2 } : State).focus (n / 4)).issueTurn (strandOf (n % 4)) := by
  unfold step State.freeStep State.rotate
  simp only [empty, next]
  rw [if_neg turn, if_neg (by omega)]

section
variable {s u : State} {σ : StrandId} (acts : u = { s with cur := if s.wordMode then σ else .k })
include acts

theorem issueTurn_of_idle (idle : u.canIssue = false) : s.issueTurn σ = .next u := by
  subst acts
  simp [State.issueTurn, idle]

theorem issueTurn_of_skips (can : u.canIssue = true) (skips : u.skips = true) : s.issueTurn σ = .next u.skip := by
  subst acts
  simp [State.issueTurn, can, skips]

theorem issueTurn_of_issues (can : u.canIssue = true) (stays : u.skips = false) : s.issueTurn σ = u.fetchIssue := by
  subst acts
  simp [State.issueTurn, can, stays]
end

section
variable {s : State} {w : IWord} (mode : s.wordMode = true) (fetched : s.fetchCode s.here = .ok w)
include mode fetched

theorem fetchIssue_of_word {i : Instr} (decoded : decodeWord s.cur w = .ok i) : s.fetchIssue = exec i s := by
  simp [State.fetchIssue, mode, fetched, decoded]

theorem fetchIssue_of_noWord {e : Reject} (rejected : decodeWord s.cur w = .error e) :
    s.fetchIssue = .next (s.trapStop s.cur 1 0 (w.setWidth 64)) := by
  simp [State.fetchIssue, mode, fetched, rejected]
end

theorem fetchIssue_of_bundle {s : State} {wl wx ws wk : IWord} (mode : s.wordMode = false) (l : s.fetchCode s.here = .ok wl)
    (x : s.fetchCode (s.here + 4) = .ok wx) (st : s.fetchCode (s.here + 8) = .ok ws) (k : s.fetchCode (s.here + 12) = .ok wk) :
    s.fetchIssue = exec (.bundleIssue wl wx ws wk) s := by
  simp only [State.fetchIssue, mode, Bool.false_eq_true, if_false, l, x, st, k]
  rfl

section
variable {s v : State} {h n : Nat} (hart : h < 64) (word : ({ s with hart := h } : State).hartNext h = .word n)
  (awake : v = ({ s with hart := h } : State).putHart h { ({ s with hart := h } : State).hartAt h with wfi := false })
include hart word awake

theorem hartTurn_of_fget {a b c : BitVec 5} (decoded : decodeFerle n = some (.fget a b c)) : s.hartTurn h = exec (.fget a b c) v := by
  subst awake
  unfold State.hartTurn
  rw [if_neg (by omega)]
  simp only [word, decoded]
  rfl

theorem hartTurn_of_noFuture (decoded : decodeFerle n = none) : s.hartTurn h = exec (.ferleHartInstruction h (BitVec.ofNat 32 n)) v := by
  subst awake
  unfold State.hartTurn
  rw [if_neg (by omega)]
  simp only [word, decoded]
  rfl
end

theorem wordMode_acting (s : State) (ts : List Turn) (σ : StrandId) : ({ s with agenda := ts, cur := σ } : State).wordMode = s.wordMode := rfl

/-- The strand that a turn of the agenda makes the acting one. -/
theorem acting_of_mode {s u : State} {σ τ : StrandId} {ts : List Turn} (acts : u = { s with agenda := ts, cur := τ })
    (mode : (if s.wordMode then σ else .k) = τ) :
    u = { ({ s with agenda := ts } : State) with cur := if ({ s with agenda := ts } : State).wordMode then σ else .k } := by
  subst acts mode
  rfl

/-- Settles O48: a turn of the agenda or of the rotation is `issueTurn`, `hartTurn` or the event, each by its own lemma. -/
theorem stepRunsDecodedWord : Obligations.StepRunsDecodedWord := by
  intro s u σ ts w
  refine ⟨?word, ?bundle, ?rotation, ?hart, ?passes, fun i agenda => step_of_agenda agenda⟩
  case word =>
    intro agenda mode acts can stays fetched
    have words : u.wordMode = true := by rw [acts, wordMode_acting, mode]
    have acting : u.cur = σ := by rw [acts]
    have turn : step s = u.fetchIssue :=
      (step_of_agenda agenda).trans (issueTurn_of_issues (acting_of_mode acts (if_pos mode)) can stays)
    subst acting
    exact ⟨fun i decoded => turn.trans (fetchIssue_of_word words fetched decoded),
      fun e rejected => turn.trans (fetchIssue_of_noWord words fetched rejected)⟩
  case bundle =>
    intro agenda mode acts can stays wl wx ws wk l x st k
    have bundles : u.wordMode = false := by rw [acts, wordMode_acting, mode]
    have turn : step s = u.fetchIssue :=
      (step_of_agenda agenda).trans (issueTurn_of_issues (acting_of_mode acts (if_neg (by simp [mode]))) can stays)
    exact turn.trans (fetchIssue_of_bundle bundles l x st k)
  case rotation =>
    intro n empty turn next strand focused mode v acts can stays fetched i decoded
    have words : v.wordMode = true := by rw [acts]; exact mode
    have acting : v.cur = strandOf (n % 4) := by rw [acts]
    rw [step_of_strandTurn empty turn next strand, ← focused, issueTurn_of_issues (by rw [acts, if_pos mode]) can stays]
    exact fetchIssue_of_word words fetched (acting ▸ decoded)
  case hart =>
    intro h n agenda hart acts word v awake
    subst acts
    exact ⟨fun a b c decoded => (step_of_agenda agenda).trans (hartTurn_of_fget hart word awake decoded),
      fun decoded => (step_of_agenda agenda).trans (hartTurn_of_noFuture hart word awake decoded)⟩
  case passes =>
    intro agenda acts
    exact ⟨fun idle => (step_of_agenda agenda).trans (issueTurn_of_idle acts idle),
      fun can skips => (step_of_agenda agenda).trans (issueTurn_of_skips acts can skips)⟩

end Sys2Proof.Machine

namespace Sys2Proof.Machine

/-! ### What the landing of vector results leaves (R258) -/

@[simp] theorem Core.landX_idx (c : Core) (n : Nat) : (c.landX n).idx = c.idx := by
  unfold Core.landX
  split
  · rfl
  · dsimp only
    split <;> rfl

@[simp] theorem Core.landX_strand (c : Core) (n : Nat) (σ : StrandId) : (c.landX n).strand σ = c.strand σ := by
  unfold Core.landX
  split
  · rfl
  · dsimp only
    split <;> cases σ <;> rfl

@[simp] theorem Core.landAll_idx (c : Core) : c.landAll.idx = c.idx :=
  foldl_keeps Core.idx (fun (c : Core) (f : XFlight) => c.landX_idx f.n) c.flight c

@[simp] theorem Core.landAll_strand (c : Core) (σ : StrandId) : c.landAll.strand σ = c.strand σ :=
  foldl_keeps (fun c : Core => c.strand σ) (fun (c : Core) (f : XFlight) => c.landX_strand f.n σ) c.flight c

theorem State.landCore_core {s : State} {f : Core → Core} (h : (f s.core).idx = s.core.idx) : (s.landCore s.core.idx f).core = f s.core := by
  unfold State.landCore
  simp only [State.coreAt_self, State.setCore_self s _ h.symm]
  split <;> rfl

@[simp] theorem State.landCore_cur (s : State) (k : Nat) (f : Core → Core) : (s.landCore k f).cur = s.cur := by
  unfold State.landCore State.setCore
  dsimp only
  split <;> split <;> rfl

theorem State.landAll_me (s : State) : (s.landCore s.core.idx Core.landAll).me = s.me := by
  rw [State.me, State.strand, State.landCore_cur, State.landCore_core s.core.landAll_idx, Core.landAll_strand]
  rfl

/-! ### Words that are illegal where they stand (R188, R271) -/

theorem slotChecked_of_forbidden {i : Instr} {sem : Sem} {s : State} (mode : s.wordMode = false) (h : bundleForbids i s.cur = true) :
    slotChecked i sem s = .error (.trap 1 0 0) := by
  unfold slotChecked
  cases i.issuedBy s.cur && i.fieldsOk <;> simp [mode, h]

theorem slotChecked_of_refused {i : Instr} {sem : Sem} {s : State} (hf : Fresh s) (h : sem s = .error (.trap 1 0 0)) :
    slotChecked i sem s = .error (.trap 1 0 0) := by
  unfold slotChecked
  cases i.issuedBy s.cur && i.fieldsOk
  · simp
  · cases !s.wordMode && bundleForbids i s.cur <;> simp [countOpen_of_fresh hf, h]

/-! ### FORK (R191, R308) -/

theorem semFork_of_ready {s t : State} {next : Word} {rd ra rb : BitVec 5} (cur : s.cur = .k) (bundles : s.core.split = false)
    (level : s.core.tl = 0) (steps : s.stepsBusy = false) (written : Written s [rd, ra, rb]) (quieted : Quiet s)
    (starts : ∀ r ∈ [rd, ra, rb], (s.g r).toNat % 4 = 0 ∧ s.startOk (s.g r) = .ok ())
    (tests : s.loopTests .k 16 s.endLevels (s.core.k.pc + 4) = (t, next)) :
    semFork rd ra rb s = .ok (.at_ { t with core := { t.core with
      split := true, bdone := 0, xIssue := t.core.xIssue + 1
      l := started t.core.l (s.g rd) (bitsAt (s.g rd) 52 12 == 0), x := started t.core.x (s.g ra) (bitsAt (s.g ra) 52 12 == 0)
      s := started t.core.s (s.g rb) (bitsAt (s.g rb) 52 12 == 0), k := started t.core.k next false } }) := by
  obtain ⟨⟨alignedL, startL⟩, ⟨alignedX, startX⟩, ⟨alignedS, startS⟩⟩ : (_ ∧ _) ∧ (_ ∧ _) ∧ (_ ∧ _) := by simpa using starts
  have aligned : ([s.g rd, s.g ra, s.g rb].any fun a => bitsAt a 0 2 != 0) = false := by simp [bitsAt, alignedL, alignedX, alignedS]
  have here : (s.cur != .k || s.core.split || decide (s.core.tl ≠ 0)) = false := by simp [cur, bundles, level]
  unfold semFork
  simp only [here, aligned, ready_of_written written, quiet_of_quiet quieted, startL, startX, startS, steps, tests, illegalIf_false,
    waitIf_false, ok_bind]
  rfl

theorem semFork_of_elsewhere {s : State} {rd ra rb : BitVec 5} (h : s.cur ≠ .k ∨ s.core.split = true) :
    semFork rd ra rb s = .error (.trap 1 0 0) := by
  have there : (s.cur != .k || s.core.split || decide (s.core.tl ≠ 0)) = true := by rcases h with h | h <;> simp [h]
  simp only [semFork, there, illegalIf_true, error_bind]

/-! ### JOIN (R192, R291) -/

section
variable {s t : State} {next : Word} {cc : BitVec 4}

theorem semJoin_of_parked (cur : s.cur = .k) (level : s.core.tl = 0) (steps : s.stepsBusy = false) (code : cc = 0)
    (aligned : s.pcNext.toNat % 16 = 0) (l : s.core.l.parked = true) (x : s.core.x.parked = true) (st : s.core.s.parked = true)
    (tests : s.loopTests .k 4 s.endLevels s.pcNext = (t, next)) : semJoin cc s = .ok (.at_ { t with core := t.core.inBundles next }) := by
  have here : (cc != 0 || s.pcNext.toNat % 16 != 0) = false := by simp [code, aligned]
  simp only [semJoin, level, cur, here, l, x, st, steps, tests, illegalIf_false, waitIf_false, ok_bind, if_true, ne_eq, not_true_eq_false,
    decide_false, Bool.and_self, Bool.not_true]
  rfl

theorem semJoin_of_running (cur : s.cur = .k) (level : s.core.tl = 0) (code : cc = 0) (aligned : s.pcNext.toNat % 16 = 0)
    (running : (s.core.l.parked && s.core.x.parked && s.core.s.parked) = false) : semJoin cc s = .error (.wait 7) := by
  have here : (cc != 0 || s.pcNext.toNat % 16 != 0) = false := by simp [code, aligned]
  simp only [semJoin, level, cur, here, running, illegalIf_false, waitIf_true, ok_bind, error_bind, if_true, ne_eq, not_true_eq_false,
    decide_false, Bool.not_false]

theorem semJoin_of_badField (cur : s.cur = .k) (level : s.core.tl = 0) (bad : cc ≠ 0 ∨ s.pcNext.toNat % 16 ≠ 0) :
    semJoin cc s = .error (.trap 1 0 0) := by
  have here : (cc != 0 || s.pcNext.toNat % 16 != 0) = true := by simpa using bad
  simp only [semJoin, level, cur, here, illegalIf_false, illegalIf_true, ok_bind, error_bind, if_true, ne_eq, not_true_eq_false,
    decide_false]

/-- The state in which `JOIN` of L, X or S asks whether everything has landed. -/
def State.landedForJoin (s : State) : State := if s.cur = .x then s.landCore s.core.idx Core.landAll else s

theorem State.landedForJoin_cur (s : State) : s.landedForJoin.cur = s.cur := by
  unfold State.landedForJoin
  split
  · exact s.landCore_cur ..
  · rfl

theorem State.landedForJoin_me (s : State) : s.landedForJoin.me = s.me := by
  unfold State.landedForJoin
  split
  · exact s.landAll_me
  · rfl

theorem setCc_eq_withCc (s : State) (cc : BitVec 4) : ({ s with core := s.core.setCc cc.toNat true } : State) = s.withCc cc true := by
  have bit : BitVec.ofNat 16 (2 ^ cc.toNat) = (1 : BitVec 16) <<< cc.toNat := by
    apply BitVec.eq_of_toNat_eq
    simp [Nat.shiftLeft_eq]
  simp [Core.setCc, State.withCc, bit]

theorem State.countIssue_pcNext (s : State) : s.countIssue.pcNext = s.pcNext := by
  unfold State.countIssue
  split
  · unfold State.pcNext State.here State.me
    cases s.cur <;> rfl
  · rfl

/-- In L, X and S, `JOIN` parks the strand or waits for what it has issued. -/
theorem semJoin_of_split (cur : s.cur ≠ .k) (level : s.core.tl = 0) :
    semJoin cc s =
      if s.landedForJoin.core.strandLanded s.landedForJoin.cur then
        let v := (s.landedForJoin.withCc cc true).countIssue
        let r := v.loopTests v.cur 4 v.endLevels v.pcNext
        .ok (.at_ (r.1.modMe fun t => { t with pc := r.2, parked := true, stage := 0, wait := 6 }).parkArrival)
      else .ok (.hold s.landedForJoin outside) := by
  unfold semJoin
  rw [level, if_neg cur]
  simp only [← setCc_eq_withCc]
  rfl

theorem semJoin_of_landed {u : State} (cur : s.cur ≠ .k) (level : s.core.tl = 0) (landing : u = s.landedForJoin)
    (landed : u.core.strandLanded s.cur = true)
    (tests : (u.withCc cc true).countIssue.loopTests s.cur 4 (u.withCc cc true).countIssue.endLevels u.pcNext = (t, next)) :
    semJoin cc s = .ok (.at_ (t.modMe fun t => { t with pc := next, parked := true, stage := 0, wait := 6 }).parkArrival) := by
  have same : u.cur = s.cur := by rw [landing, State.landedForJoin_cur]
  have pc : (u.withCc cc true).countIssue.pcNext = u.pcNext := State.countIssue_pcNext _
  have cur' : (u.withCc cc true).countIssue.cur = s.cur := (State.countIssue_cur _).trans same
  rw [semJoin_of_split cur level, ← landing, if_pos (same ▸ landed)]
  simp only [cur', pc, tests]

theorem semJoin_of_unlanded {u : State} (cur : s.cur ≠ .k) (level : s.core.tl = 0) (landing : u = s.landedForJoin)
    (unlanded : u.core.strandLanded s.cur = false) : semJoin cc s = .ok (.hold u outside) := by
  have same : u.cur = s.cur := by rw [landing, State.landedForJoin_cur]
  rw [semJoin_of_split cur level, ← landing, if_neg (by rw [same, unlanded]; decide)]

end

/-- Settles O8: `FORK` and `JOIN` by the branch of their meanings that the mode and the strand choose. -/
theorem modes : Obligations.Modes := by
  intro s t next rd ra rb cc fresh level steps
  have words (split : s.core.split = true) : s.wordMode = true := by simp [State.wordMode, Core.wordMode, split]
  have bundles (split : s.core.split = false) : s.wordMode = false := by simp [State.wordMode, Core.wordMode, split, level]
  refine ⟨?forks, ?forksElsewhere, ?joins, ?waits, ?badField, ?parks, ?noStrands⟩
  case forks =>
    intro cur split written quieted starts tests
    exact issue_at fresh rfl rfl (bundles_k (.inr cur) rfl) (semFork_of_ready cur split level steps written quieted starts tests)
  case forksElsewhere => exact fun h => issue_of_illegal fresh (slotChecked_of_refused fresh (semFork_of_elsewhere h))
  case joins =>
    intro cur split code aligned l x st tests
    exact issue_at fresh rfl rfl (fun _ => words split) (semJoin_of_parked cur level steps code aligned l x st tests)
  case waits =>
    intro cur split code aligned running
    exact issue_wait fresh rfl rfl (fun _ => words split) (semJoin_of_running cur level code aligned running)
  case badField =>
    intro cur split bad
    exact issue_ill fresh rfl rfl (fun _ => words split) (semJoin_of_badField cur level bad)
  case parks =>
    intro u cur split landing
    refine ⟨fun landed tests => issue_at fresh rfl rfl (fun _ => words split) (semJoin_of_landed cur level landing landed tests),
      fun unlanded => ?_⟩
    have stage : u.me.stage = 0 := by rw [landing]; exact (congrArg Strand.stage s.landedForJoin_me).trans fresh.1
    rw [show exec (.join cc) s = _ from issue_hold fresh rfl rfl (fun _ => words split) (semJoin_of_unlanded cur level landing unlanded)]
    show Host.Outcome.next (u.modMe fun t => { t with stage := max 1 t.stage, wait := outside }) = _
    rw [State.modMe, State.modStrand, ← State.me, stage]
    rfl
  case noStrands => exact fun split => issue_of_illegal fresh (slotChecked_of_forbidden (bundles split) rfl)

end Sys2Proof.Machine

namespace Sys2Proof.Machine

/-! ### Which words transfer control (R188) -/

/-- The result transfers no control. -/
def Done.Stays : Done → Prop
  | .jump _ _ => False
  | _ => True

theorem State.deviceDone_stays (s : State) (sig : Option Nat) : (s.deviceDone sig).Stays := by
  unfold State.deviceDone
  split <;> trivial

theorem State.trapWith_stays (s : State) (cause detail : Nat) (val : Word) (f : State → State) :
    OkAll Done.Stays (s.trapWith cause detail val f) := by
  unfold State.trapWith
  dsimp only
  split
  · trivial
  · exact .ite trivial trivial

theorem State.finishWait_stays (s : State) (rd : BitVec 5) (stat : BitVec 1) (w : Word) (f : State → State) :
    OkAll Done.Stays (s.finishWait rd stat w f) := by
  unfold State.finishWait
  refine .ite (.ite ?_ (s.trapWith_stays ..)) trivial
  split <;> trivial

theorem markCheck_stays (n : BitVec 5) (k : BitVec 3) (s : State) : OkAll Done.Stays (markCheck n k s) := by
  unfold markCheck
  refine .step fun _ => ?_
  split
  · trivial
  · exact .step fun _ => trivial

theorem scalarLoad_stays (size : Nat) (signed : Bool) (rd ra : BitVec 5) (y : BitVec 2) (off : BitVec 13) (s : State) :
    OkAll Done.Stays (scalarLoad size signed rd ra y off s) := by
  refine .step fun _ => .step fun _ => .step fun _ => ?_
  split
  · exact State.deviceDone_stays ..
  · trivial

theorem scalarStore_stays (size : Nat) (rd ra : BitVec 5) (y : BitVec 2) (off : BitVec 13) (s : State) :
    OkAll Done.Stays (scalarStore size rd ra y off s) := by
  refine .step fun _ => .step fun _ => .step fun _ => ?_
  split
  · exact State.deviceDone_stays ..
  · exact .step fun _ => trivial

theorem xrun_stays (o : XOp) (p : XPlan) (f : XFun) (s : State) : OkAll Done.Stays (xrun o p f s) := by
  refine .step fun _ => .step fun _ => .step fun _ => .ite (.step fun _ => .step fun _ => ?_) (.step fun _ => .step fun _ => ?_)
  · exact .ite (.step fun _ => .step fun _ => trivial) (.step fun _ => .step fun _ => trivial)
  · exact .ite (.step fun _ => .step fun _ => trivial) (.step fun _ => .step fun _ => trivial)

theorem typed_stays (ok : BitVec 3 → Bool) (o : XOp) (p : XPlan) (f : XFun) (s : State) : OkAll Done.Stays (typed ok o p f s) :=
  .step fun _ => xrun_stays ..

theorem narrowing_stays (o : XOp) (ws wd : Nat) (f : Nat → Bool → Nat → FRes) (s : State) : OkAll Done.Stays (narrowing o ws wd f s) :=
  .step fun _ => xrun_stays ..

theorem widening_stays (o : XOp) (ws wd : Nat) (f : Nat → Bool → Nat → FRes) (s : State) : OkAll Done.Stays (widening o ws wd f s) :=
  .step fun _ => xrun_stays ..

theorem reduction_stays (op : Nat) (o : XOp) (s : State) : OkAll Done.Stays (reduction op o s) := by
  unfold reduction
  exact .step fun _ => xrun_stays ..

theorem moveLanes_stays (o : XOp) (p : XPlan) (f : Entry → Entry → Nat → Int) (s : State) : OkAll Done.Stays (moveLanes o p f s) := by
  unfold moveLanes
  exact xrun_stays ..

theorem intWord_stays (o : XOp) (lat : Nat) (f : Nat → Nat → Nat → Nat) (s : State) : OkAll Done.Stays (intWord o lat f s) := by
  unfold intWord
  exact typed_stays ..

theorem bitWord_stays (o : XOp) (f : Nat → Nat → Nat) (s : State) : OkAll Done.Stays (bitWord o f s) := by
  unfold bitWord
  exact xrun_stays ..

theorem maskLogic_stays (o : XOp) (p : XPlan) (f : Bool → Bool → Bool) (s : State) : OkAll Done.Stays (maskLogic o p f s) := by
  unfold maskLogic
  exact xrun_stays ..

theorem semVcmp_stays (o : XOp) (s : State) : OkAll Done.Stays (semVcmp o s) := by
  unfold semVcmp
  exact typed_stays ..

theorem semViota_stays (o : XOp) (s : State) : OkAll Done.Stays (semViota o s) := by
  unfold semViota
  exact typed_stays ..

theorem semVxtr_stays (o : XOp) (s : State) : OkAll Done.Stays (semVxtr o s) := by
  unfold semVxtr
  exact xrun_stays ..

theorem semVsel_stays (o : XOp) (s : State) : OkAll Done.Stays (semVsel o s) := by
  unfold semVsel
  exact .step fun _ => xrun_stays ..

theorem semDsync_stays (lv : BitVec 3) (s : State) : OkAll Done.Stays (semDsync lv s) := by
  exact .step fun _ => .step fun _ => .ite (.step fun _ => .step fun _ => .step fun _ => .ite trivial trivial) (.ite trivial trivial)

theorem semMfc_stays (rd : BitVec 5) (crn : BitVec 8) (s : State) : OkAll Done.Stays (semMfc rd crn s) := by
  unfold semMfc
  split
  · trivial
  · exact .step fun _ => .step fun _ => trivial

theorem semMtc_stays (ra : BitVec 5) (crn : BitVec 8) (s : State) : OkAll Done.Stays (semMtc ra crn s) := by
  unfold semMtc
  dsimp only
  split
  · trivial
  · exact .step fun _ => .step fun _ => .step fun _ => .step fun _ => .ite trivial trivial

theorem semMfcXq_stays (rd : BitVec 5) (s : State) : OkAll Done.Stays (semMfcXq rd s) := by
  refine .step fun _ => .step fun _ => ?_
  split <;> trivial

theorem semProbe_stays (gl : BitVec 3) (ga : BitVec 5) (off : BitVec 13) (sync : BitVec 2) (intent : BitVec 2) (s : State) :
    OkAll Done.Stays (semProbe gl ga off sync intent s) := by
  refine .step fun _ => .step fun _ => .ite trivial ?_
  split <;> trivial

theorem semNreq_stays (gl : BitVec 3) (ga gn : BitVec 5) (slot : BitVec 6) (rlx : BitVec 1) (sync : BitVec 2) (s : State) :
    OkAll Done.Stays (semNreq gl ga gn slot rlx sync s) := by
  refine .step fun _ => .step fun _ => .step fun _ => ?_
  dsimp only
  split
  · trivial
  · exact .step fun _ => .step fun _ => .step fun _ => .step fun _ => .ite (.step fun _ => trivial) (.step fun _ => trivial)

theorem semNwait_stays (gd : BitVec 3) (slot : BitVec 6) (sync : BitVec 2) (s : State) : OkAll Done.Stays (semNwait gd slot sync s) := by
  refine .step fun _ => .step fun _ => ?_
  dsimp only
  split
  case h_4 => exact State.trapWith_stays ..
  all_goals trivial

theorem semNcancel_stays (slot : BitVec 6) (sync : BitVec 2) (s : State) : OkAll Done.Stays (semNcancel slot sync s) := by
  refine .step fun _ => ?_
  dsimp only
  split <;> trivial

theorem semNpub_stays (gz : BitVec 3) (ga gn : BitVec 5) (sync : BitVec 2) (s : State) : OkAll Done.Stays (semNpub gz ga gn sync s) := by
  refine .step fun _ => .step fun _ => .step fun _ => ?_
  dsimp only
  split
  · trivial
  · exact .step fun _ => .step fun _ => .step fun _ => .ite (.step fun _ => trivial) (.step fun _ => .step fun _ => .step fun _ => trivial)

theorem semBst_stays (bsz : BitVec 3) (ga gs : BitVec 5) (off : BitVec 8) (sync : BitVec 2) (s : State) :
    OkAll Done.Stays (semBst bsz ga gs off sync s) := by
  refine .step fun _ => .step fun _ => .step fun _ => .step fun _ => .step fun _ => .step fun _ => .ite (.step fun _ => trivial)
    (.step fun _ => .ite (.step fun _ => ?_) ?_)
  all_goals dsimp only
  all_goals split <;> trivial

theorem semVcvt_stays (o : XOp) (s : State) : OkAll Done.Stays (semVcvt o s) := by
  unfold semVcvt
  dsimp only
  split
  · trivial
  · exact .step fun _ => .ite (widening_stays ..) (narrowing_stays ..)

theorem semVzp_stays (o : XOp) (s : State) : OkAll Done.Stays (semVzp o s) := by
  unfold semVzp
  dsimp only
  split
  · trivial
  · exact xrun_stays ..

theorem semJcmd_stays (ra rb : BitVec 5) (eng : BitVec 2) (two : BitVec 1) (s : State) : OkAll Done.Stays (semJcmd ra rb eng two s) := by
  unfold semJcmd
  dsimp only
  split
  · trivial
  · exact .step fun _ => .step fun _ => .step fun _ => .step fun _ => .step fun _ => .step fun _ => trivial

theorem semJend_stays (rd : BitVec 5) (tok : BitVec 2) (s : State) : OkAll Done.Stays (semJend rd tok s) := by
  unfold semJend
  dsimp only
  split
  · trivial
  · exact .step fun _ => .step fun _ => .step fun _ => .step fun _ => trivial

theorem semJwait_stays (rd ra : BitVec 5) (stat : BitVec 1) (s : State) : OkAll Done.Stays (semJwait rd ra stat s) := by
  refine .step fun _ => .step fun _ => ?_
  split
  · exact State.finishWait_stays ..
  · split
    · trivial
    · exact .step fun _ => State.finishWait_stays ..

theorem semJpoll_stays (rd ra : BitVec 5) (s : State) : OkAll Done.Stays (semJpoll rd ra s) := by
  refine .step fun _ => .step fun _ => ?_
  split
  · trivial
  · split <;> trivial

theorem semJpop_stays (rd : BitVec 5) (eng : BitVec 2) (stat : BitVec 1) (s : State) : OkAll Done.Stays (semJpop rd eng stat s) := by
  unfold semJpop
  split
  · trivial
  · refine .step fun _ => ?_
    split
    · exact State.finishWait_stays ..
    · refine .step fun _ => ?_
      split
      · trivial
      · exact State.finishWait_stays ..

theorem semRingadv_stays (n : BitVec 5) (cnt : BitVec 7) (s : State) : OkAll Done.Stays (semRingadv n cnt s) := by
  refine .step fun _ => ?_
  split
  · trivial
  · exact .step fun _ => .step fun _ => trivial

theorem semSyscPagerRequest_stays (rd : BitVec 5) (s : State) : OkAll Done.Stays (semSyscPagerRequest rd s) := by
  refine .step fun _ => .step fun _ => ?_
  dsimp only
  split
  · trivial
  · exact .ite trivial trivial

theorem semSyscPagerTake_stays (rd ra : BitVec 5) (s : State) : OkAll Done.Stays (semSyscPagerTake rd ra s) := by
  refine .step fun _ => .step fun _ => .step fun _ => .step fun _ => ?_
  split
  · trivial
  · exact .step fun _ => trivial

theorem semLnch_stays (rd ra q : BitVec 5) (s : State) : OkAll Done.Stays (semLnch rd ra q s) := by
  exact .step fun _ => .step fun _ => .step fun _ => .step fun _ => .ite trivial
    (.step fun _ => .step fun _ => .step fun _ => .step fun _ => trivial)

theorem semFcall_stays (rd ra : BitVec 5) (s : State) : OkAll Done.Stays (semFcall rd ra s) := by
  refine .step fun _ => .step fun _ => .step fun _ => .step fun _ => .step fun _ => .step fun _ => .step fun _ => .step fun _ =>
    .ite trivial (.ite trivial ?_)
  split
  · trivial
  · split
    · trivial
    · exact .step fun _ => .ite (.step fun _ => .step fun _ => trivial) (.step fun _ => trivial)

theorem semLttld_stays (rd ra rb : BitVec 5) (s : State) : OkAll Done.Stays (semLttld rd ra rb s) := by
  refine .step fun _ => .step fun _ => .step fun _ => .step fun _ => .ite trivial ?_
  split <;> trivial

theorem slotSem_stays {i : Instr} (h : ¬KSlotOnly i) (s : State) : OkAll Done.Stays (slotSem i s) := by
  unfold slotSem
  cases i
  case beq | bne | blt | bge | bltu | bgeu | j | jal | call | jr | callr | ret | loop | loopi | lbreak | fork =>
    exact absurd (by simp [KSlotOnly]) h
  case nop => trivial
  case fence => exact .step fun _ => .ite (.ite trivial trivial) trivial
  case commit => exact .step fun _ => .ite trivial (.ite trivial trivial)
  case abort => exact .step fun _ => trivial
  case wfe => exact .step fun _ => .step fun _ => trivial
  case tsig => exact .step fun _ => .step fun _ => trivial
  case twait => exact .step fun _ => .step fun _ => trivial
  case ttry => exact .step fun _ => .step fun _ => .ite trivial trivial
  case ccset => exact .step fun _ => trivial
  case ccclr => trivial
  case ccwait => exact .step fun _ => trivial
  case join => exact .step fun _ => .ite (.step fun _ => .step fun _ => .step fun _ => trivial) (.ite trivial trivial)
  case add | sub | and | or | xor | andn | sll | srl | sra | rol | mul | mulh | mulhu | min | max | minu | maxu | slt | sltu | seq =>
    exact .step fun _ => trivial
  case div | divu | rem | remu | divw | remw => exact .step fun _ => .ite trivial trivial
  case clz | ctz | popc | addi | andi | ori | xori | slli | srli | srai | slti | sltiu | movhi => exact .step fun _ => trivial
  case lstep =>
    refine .step fun _ => .step fun _ => .ite ?_ ?_ <;> trivial
  case lfirst | llast => exact markCheck_stays ..
  case ldb | ldbu | ldh | ldhu | ldw | ldwu | ldd => exact scalarLoad_stays ..
  case stb | sth | stw | std => exact scalarStore_stays ..
  case bararr => exact .step fun _ => trivial
  case barwait => exact .ite trivial trivial
  case barsync => exact .ite (.step fun _ => .ite trivial trivial) (.step fun _ => .ite trivial trivial)
  case dsync => exact semDsync_stays ..
  case mfc => exact semMfc_stays ..
  case mtc => exact semMtc_stays ..
  case mfcXq => exact semMfcXq_stays ..
  case mtcQ3 => exact .step fun _ => .step fun _ => .step fun _ => trivial
  case vld => exact .step fun _ => .step fun _ => .step fun _ => .step fun _ => .step fun _ => .step fun _ => trivial
  case vlds => exact .step fun _ => .step fun _ => .step fun _ => .step fun _ => .step fun _ => .step fun _ => trivial
  case vldb => exact .step fun _ => .step fun _ => .step fun _ => .step fun _ => .step fun _ => .step fun _ => trivial
  case probe => exact semProbe_stays ..
  case pref => exact .step fun _ => .step fun _ => .step fun _ => trivial
  case lda => exact .step fun _ => .step fun _ => .step fun _ => .step fun _ => .step fun _ => trivial
  case nreq => exact semNreq_stays ..
  case nwait => exact semNwait_stays ..
  case ncancel => exact semNcancel_stays ..
  case vst => exact .step fun _ => .step fun _ => .step fun _ => .step fun _ => .step fun _ => .step fun _ => trivial
  case vsts => exact .step fun _ => .step fun _ => .step fun _ => .step fun _ => .step fun _ => .step fun _ => .step fun _ => trivial
  case stl => exact .step fun _ => .step fun _ => .step fun _ => .step fun _ => .step fun _ => .step fun _ => trivial
  case amoadd | amomin | amomax | amoand | amoor | amoxor | amoswp | amocas =>
    exact .step fun _ => .step fun _ => .step fun _ => .step fun _ => .step fun _ => trivial
  case vradd => exact .step fun _ => .step fun _ => .step fun _ => .step fun _ => .step fun _ => .step fun _ => trivial
  case npub => exact semNpub_stays ..
  case bst => exact semBst_stays ..
  case vadd | vsub | vmul | vfma | vfms | vfnma | vmin | vmax | vabs | vneg | vrcp | vrsq | vexp2 | vlog2 | vscacc | vscalex | viabs =>
    exact typed_stays ..
  case vcmp => exact semVcmp_stays ..
  case vsel => exact semVsel_stays ..
  case vredadd | vredmax | vredmin => exact reduction_stays ..
  case vperm | vslide | vbcast | vmov => exact moveLanes_stays ..
  case viadd | visub | vimul | vimulh | vimin | vimax | vsll | vsrl | vsra => exact intWord_stays ..
  case vand | vor | vxor => exact bitWord_stays ..
  case vmand | vmor | vmxor | vmnot => exact maskLogic_stays ..
  case vmpop | vmfirst => exact xrun_stays ..
  case viota => exact semViota_stays ..
  case vxtr => exact semVxtr_stays ..
  case vcvt => exact semVcvt_stays ..
  case vpack => exact .step fun _ => narrowing_stays ..
  case vunpk => exact .step fun _ => widening_stays ..
  case vzp => exact semVzp_stays ..
  case vclr => exact .step fun _ => .step fun _ => .ite (.step fun _ => trivial) (.step fun _ => trivial)
  case jcmd => exact semJcmd_stays ..
  case jend => exact semJend_stays ..
  case jwait => exact semJwait_stays ..
  case jpoll => exact semJpoll_stays ..
  case jpop => exact semJpop_stays ..
  case ringdef => exact .step fun _ => .step fun _ => .step fun _ => .ite trivial trivial
  case ringadv => exact semRingadv_stays ..
  case ringst => exact .step fun _ => trivial
  case trap => exact .step fun _ => trivial
  case tret => exact .step fun _ => .step fun _ => .step fun _ => trivial
  case syscReadContext => exact .step fun _ => .ite trivial (.ite trivial (.ite trivial trivial))
  case syscPagerRequest => exact semSyscPagerRequest_stays ..
  case syscPagerTake => exact semSyscPagerTake_stays ..
  case syscPagerReply => exact .step fun _ => .step fun _ => .step fun _ => .step fun _ => .step fun _ => trivial
  case mfs => exact .step fun _ => .step fun _ => .step fun _ => trivial
  case mts => exact .step fun _ => .step fun _ => .step fun _ => State.deviceDone_stays ..
  case yield => exact .step fun _ => .step fun _ => trivial
  case tend => exact .step fun _ => .step fun _ => .ite trivial trivial
  case lnch => exact semLnch_stays ..
  case fcall => exact semFcall_stays ..
  case fawait => exact .step fun _ => .step fun _ => .step fun _ => .step fun _ => .ite trivial trivial
  case fpoll => exact .step fun _ => .step fun _ => .ite trivial trivial
  case fcancel => exact .step fun _ => .step fun _ => .ite trivial (.step fun _ => trivial)
  case qtzr => exact .step fun _ => trivial
  case qtzrUntil => exact .step fun _ => .step fun _ => trivial
  case lttld => exact semLttld_stays ..
  case dbg => exact .ite trivial trivial
  all_goals trivial

end Sys2Proof.Machine

namespace Sys2Proof.Machine

/-! ### The uses of a slot that R188 forbids -/

theorem bundleForbids_iff (i : Instr) (σ : StrandId) : bundleForbids i σ = true ↔ (KSlotOnly i ∧ σ ≠ .k) ∨ ∃ c, i = .join c := by
  constructor
  · intro h
    cases i
    case join c => exact .inr ⟨c, rfl⟩
    case beq | bne | blt | bge | bltu | bgeu | j | jal | call | jr | callr | ret | loop | loopi | lbreak | fork =>
      exact .inl ⟨by simp [KSlotOnly], bne_iff_ne.1 h⟩
    all_goals exact absurd h Bool.false_ne_true
  · rintro (⟨only, notK⟩ | ⟨_, rfl⟩)
    · have other : (σ != .k) = true := bne_iff_ne.2 notK
      rcases only with ⟨_, _, _, h⟩ | ⟨_, h⟩ | ⟨_, _, h⟩ | ⟨_, h⟩ | ⟨_, _, h⟩ | h | ⟨_, _, _, h⟩ | ⟨_, _, _, h⟩ | ⟨_, h⟩ | ⟨_, _, _, h⟩
      case inl => rcases h with h | h | h | h | h | h <;> subst h <;> exact other
      case inr.inl => rcases h with h | h <;> subst h <;> exact other
      all_goals subst h; exact other
    · rfl

/-- K has the words that transfer control, and their fields are all in use. -/
theorem KSlotOnly.checks {i : Instr} (h : KSlotOnly i) : i.issuedBy .k = true ∧ i.fieldsOk = true ∧ bundleForbids i .k = false := by
  rcases h with ⟨_, _, _, h⟩ | ⟨_, h⟩ | ⟨_, _, h⟩ | ⟨_, h⟩ | ⟨_, _, h⟩ | h | ⟨_, _, _, h⟩ | ⟨_, _, _, h⟩ | ⟨_, h⟩ | ⟨_, _, _, h⟩
  case inl => rcases h with h | h | h | h | h | h <;> subst h <;> exact ⟨rfl, rfl, rfl⟩
  case inr.inl => rcases h with h | h <;> subst h <;> exact ⟨rfl, rfl, rfl⟩
  all_goals subst h; exact ⟨rfl, rfl, rfl⟩

theorem Slot.instr_of_decoded {t : Slot} {i : Instr} (h : decodeWord t.id t.word = .ok i) : t.instr = some i := by
  unfold Slot.instr
  rw [h]

theorem Slot.instr_of_rejected {t : Slot} {e : Reject} (h : decodeWord t.id t.word = .error e) : t.instr = none := by
  unfold Slot.instr
  rw [h]

theorem Slot.instr_eq_some {t : Slot} {i : Instr} : t.instr = some i ↔ decodeWord t.id t.word = .ok i := by
  unfold Slot.instr
  split <;> simp [*]

theorem isDsync_iff (o : Option Instr) : isDsync o = true ↔ ∃ b, o = some (.dsync b) := by
  unfold isDsync
  split <;> simp_all

/-- The slot of a strand. -/
def slotOf (wl wx ws wk : IWord) (σ : StrandId) : Slot := ⟨σ, slotWord wl wx ws wk σ⟩

/-- The slots in front of a strand's, the nearest first. -/
def slotsBelow (wl wx ws : IWord) : StrandId → List Slot
  | .l => []
  | .x => [⟨.l, wl⟩]
  | .s => [⟨.x, wx⟩, ⟨.l, wl⟩]
  | .k => [⟨.s, ws⟩, ⟨.x, wx⟩, ⟨.l, wl⟩]

section
variable (wl wx ws wk : IWord)

theorem mem_slotsBelow (σ : StrandId) (t : Slot) : t ∈ slotsBelow wl wx ws σ ↔ ∃ τ, τ.num < σ.num ∧ t = slotOf wl wx ws wk τ := by
  constructor
  · intro h
    refine ⟨t.id, ?_⟩
    cases σ <;> simp only [slotsBelow, List.mem_cons, List.not_mem_nil, or_false] at h
    case x => subst h; simp [StrandId.num, slotOf, slotWord]
    case s => rcases h with rfl | rfl <;> simp [StrandId.num, slotOf, slotWord]
    case k => rcases h with rfl | rfl | rfl <;> simp [StrandId.num, slotOf, slotWord]
  · rintro ⟨τ, below, rfl⟩
    cases σ <;> cases τ <;> simp_all [slotsBelow, slotOf, slotWord, StrandId.num]

theorem slotBad_iff (σ : StrandId) : slotBad (slotsBelow wl wx ws σ) (slotOf wl wx ws wk σ) = true ↔ Forbidden wl wx ws wk σ := by
  have second : ((slotsBelow wl wx ws σ).any fun u => isDsync u.instr) = true ↔
      ∃ τ b, τ.num < σ.num ∧ decodeWord τ (slotWord wl wx ws wk τ) = .ok (.dsync b) := by
    simp only [List.any_eq_true, mem_slotsBelow wl wx ws wk, isDsync_iff, Slot.instr_eq_some]
    constructor
    · rintro ⟨_, ⟨τ, below, rfl⟩, b, decoded⟩
      exact ⟨τ, b, below, decoded⟩
    · rintro ⟨τ, b, below, decoded⟩
      exact ⟨_, ⟨τ, below, rfl⟩, b, decoded⟩
  unfold slotBad Forbidden
  cases decoded : decodeWord σ (slotWord wl wx ws wk σ) with
  | error e => simp [Slot.instr_of_rejected (t := slotOf wl wx ws wk σ) decoded]
  | ok i =>
    simp only [Slot.instr_of_decoded (t := slotOf wl wx ws wk σ) decoded, Bool.or_eq_true, Bool.and_eq_true, second, bundleForbids_iff,
      isDsync_iff, Except.ok.injEq, exists_eq_left', Option.some.injEq, or_assoc]
    rfl

theorem firstBad_of_lowest {σ : StrandId} (bad : Forbidden wl wx ws wk σ) (lowest : ∀ τ, τ.num < σ.num → ¬Forbidden wl wx ws wk τ) :
    firstBad [] (slotsOf wl wx ws wk) = some (slotOf wl wx ws wk σ) := by
  have here : slotBad (slotsBelow wl wx ws σ) (slotOf wl wx ws wk σ) = true := (slotBad_iff ..).2 bad
  have below (τ : StrandId) (h : τ.num < σ.num) : ¬slotBad (slotsBelow wl wx ws τ) (slotOf wl wx ws wk τ) = true :=
    mt (slotBad_iff wl wx ws wk τ).1 (lowest τ h)
  simp only [slotsOf, firstBad]
  cases σ
  case l => exact if_pos here
  case x => exact (if_neg (below .l (by decide))).trans (if_pos here)
  case s => exact (if_neg (below .l (by decide))).trans ((if_neg (below .x (by decide))).trans (if_pos here))
  case k =>
    exact (if_neg (below .l (by decide))).trans ((if_neg (below .x (by decide))).trans ((if_neg (below .s (by decide))).trans (if_pos here)))

theorem firstBad_of_admitted (admitted : ∀ τ, ¬Forbidden wl wx ws wk τ) : firstBad [] (slotsOf wl wx ws wk) = none := by
  have clean (τ : StrandId) : ¬slotBad (slotsBelow wl wx ws τ) (slotOf wl wx ws wk τ) = true := mt (slotBad_iff wl wx ws wk τ).1 (admitted τ)
  simp only [slotsOf, firstBad]
  exact (if_neg (clean .l)).trans ((if_neg (clean .x)).trans ((if_neg (clean .s)).trans (if_neg (clean .k))))
end

/-! ### A bundle that has not begun to issue (R187-R189) -/

section
variable {s : State} {wl wx ws wk : IWord} (fresh : BundleFresh s)
include fresh

theorem fresh_k_of_bundleFresh : Fresh { s with cur := .k } := by
  obtain ⟨_, _, ⟨_, _, _, stage⟩, later, jobs, _⟩ := fresh
  exact ⟨stage, .inr later, fun _ => jobs⟩

theorem exec_bundle_of_fresh : exec (.bundleIssue wl wx ws wk) s =
    match firstBad [] (slotsOf wl wx ws wk) with
    | some t => t.stop { s with cur := .k } (.trap 1 0 0)
    | none => (State.bundleStop { s with cur := .k } (slotsOf wl wx ws wk)).getD (State.performBundle { s with cur := .k } (slotsOf wl wx ws wk)) := by
  obtain ⟨mode, done, ⟨l, x, st, k⟩, _, _, unmarked⟩ := id fresh
  have begun : State.begun { s with cur := .k } = false := by
    simp [State.begun, done, allStrands, State.strand, Core.strand, l, x, st, k]
  show execBundleIssue wl wx ws wk s = _
  unfold execBundleIssue State.issueBundle
  rw [if_neg (by simp [mode]), if_neg (by simp [k, tested]), landForIssue_of_landed (fresh_k_of_bundleFresh fresh).2.1]
  simp only [unmarked, begun, Bool.false_eq_true, if_false] <;> rfl

theorem exec_bundle_of_forbidden {σ : StrandId} (bad : Forbidden wl wx ws wk σ) (lowest : ∀ τ, τ.num < σ.num → ¬Forbidden wl wx ws wk τ) :
    exec (.bundleIssue wl wx ws wk) s =
      .next (({ s with cur := σ } : State).trapStop σ 1 0 (BitVec.ofNat 64 ((slotWord wl wx ws wk σ).toNat + σ.num * 2 ^ 32))) := by
  rw [exec_bundle_of_fresh fresh, firstBad_of_lowest wl wx ws wk bad lowest]
  rfl

theorem exec_bundle_of_admitted (admitted : ∀ τ, ¬Forbidden wl wx ws wk τ) : exec (.bundleIssue wl wx ws wk) s =
    (State.bundleStop { s with cur := .k } (slotsOf wl wx ws wk)).getD (State.performBundle { s with cur := .k } (slotsOf wl wx ws wk)) := by
  rw [exec_bundle_of_fresh fresh, firstBad_of_admitted wl wx ws wk admitted]
end

/-! ### Targets that bundle mode does not admit (R188) -/

theorem Done.Stays.odd {d : Done} (h : d.Stays) (s : State) : d.odd s = false := by
  cases d with
  | jump u a => exact h.elim
  | next _ => rfl
  | hold _ _ => rfl
  | raise _ _ _ _ => rfl
  | at_ _ => rfl

theorem slotChecked_stays {i : Instr} {sem : Sem} (h : ∀ s, OkAll Done.Stays (sem s)) (s : State) : OkAll Done.Stays (slotChecked i sem s) :=
  .step fun _ => .step fun _ => .step fun s => h s

/-- A slot that holds no transfer leads nowhere. -/
theorem Slot.odd_of_stays {t : Slot} (h : ∀ i, t.instr = some i → ¬KSlotOnly i) (s : State) : t.odd s = false := by
  unfold Slot.odd
  cases held : t.instr with
  | none => rfl
  | some i =>
    have stays := slotChecked_stays (i := i) (slotSem_stays (h i held)) { s with cur := t.id }
    dsimp only
    revert stays
    cases slotChecked i (slotSem i) { s with cur := t.id } with
    | error e => exact fun _ => rfl
    | ok d => exact fun stays => stays.odd s

theorem Slot.odd_of_admitted {wl wx ws wk : IWord} {σ : StrandId} (admitted : ¬Forbidden wl wx ws wk σ) (notK : σ ≠ .k) (s : State) :
    (slotOf wl wx ws wk σ).odd s = false :=
  Slot.odd_of_stays (fun i held only => admitted ⟨i, Slot.instr_eq_some.1 held, .inl ⟨only, notK⟩⟩) s

theorem kSlotOnly_of_jump {i : Instr} {s u : State} {a : Word} (h : slotSem i s = .ok (.jump u a)) : KSlotOnly i := by
  by_contra other
  exact (slotSem_stays other s).of_eq h

theorem Slot.odd_k_of_jump {s u : State} {wk : IWord} {i : Instr} {a : Word} (fresh : BundleFresh s) (decoded : decodeWord .k wk = .ok i)
    (jump : slotSem i { s with cur := .k } = .ok (.jump u a)) (misaligned : a.toNat % 16 ≠ 0) :
    Slot.odd ⟨.k, wk⟩ { s with cur := .k } = true := by
  obtain ⟨issued, fields, allowed⟩ := (kSlotOnly_of_jump jump).checks
  have checked : slotChecked i (slotSem i) { s with cur := .k } = .ok (.jump u a) :=
    (slotChecked_of_fresh (fresh_k_of_bundleFresh fresh) issued fields (by simp [allowed])).trans jump
  have odd : ¬Done.odd { s with cur := .k } (.jump u a) = false := by
    rw [odd_iff]
    rintro (words | aligned)
    · exact absurd (fresh.1.symm.trans words) (by decide)
    · exact misaligned aligned
  unfold Slot.odd
  rw [Slot.instr_of_decoded decoded]
  dsimp only
  rw [checked]
  simpa using odd

/-- Where no slot waits or ends its context, the lowest target that bundle mode does not admit stops the bundle. -/
theorem State.bundleStop_of_odd {s : State} {ts : List Slot} {t : Slot} (clear : ∀ t ∈ ts, isWait (t.run s) = false ∧ isFatal (t.run s) = false)
    (odd : ts.find? (·.odd s) = some t) : s.bundleStop ts = some (t.stop s (.trap 1 0 0)) := by
  have ready : (ts.any fun t => isWait (t.run s)) = false := by simpa using fun t ht => (clear t ht).1
  have alive : (ts.find? fun t => isFatal (t.run s)) = none := by simpa using fun t ht => (clear t ht).2
  simp [State.bundleStop, ready, alive, odd]

/-- Settles O51: the lowest forbidden slot is what `firstBad` finds; else K's slot is the only one that can lead elsewhere. -/
theorem bundleUses : Obligations.BundleUses := by
  intro s u wl wx ws wk σ i a fresh
  refine ⟨exec_bundle_of_forbidden fresh, fun admitted decoded jump misaligned clear => ?_⟩
  have stays (τ : StrandId) (notK : τ ≠ .k) : (slotOf wl wx ws wk τ).odd { s with cur := .k } = false :=
    Slot.odd_of_admitted (admitted τ) notK _
  have odd : (slotsOf wl wx ws wk).find? (·.odd { s with cur := .k }) = some ⟨.k, wk⟩ := by
    have l := stays .l (by decide)
    have x := stays .x (by decide)
    have st := stays .s (by decide)
    simp only [slotOf, slotWord] at l x st
    simp [slotsOf, l, x, st, Slot.odd_k_of_jump fresh decoded jump misaligned]
  rw [exec_bundle_of_admitted fresh admitted, State.bundleStop_of_odd clear odd]
  rfl

end Sys2Proof.Machine

namespace Sys2Proof.Machine

/-! ### What a slot does (R189, R190) -/

theorem countOpen_of_otherLevel {s : State} (i : Instr) (h : ∀ j, s.core.openJob = some j → j.level ≠ s.core.tl) : s.countOpen i = .ok s := by
  unfold State.countOpen
  cases held : s.core.openJob with
  | none => rfl
  | some j => simp [h j held]

section
variable {s : State} {t : Slot} {i : Instr} (decoded : decodeWord t.id t.word = .ok i)
  (jobs : ∀ j, s.core.openJob = some j → j.level ≠ s.core.tl) (issued : i.issuedBy t.id = true) (fields : i.fieldsOk = true)
  (allowed : bundleForbids i t.id = false)
include decoded jobs issued fields allowed

omit decoded in
theorem Slot.checked_of_sem : slotChecked i (slotSem i) { s with cur := t.id } = slotSem i { s with cur := t.id } := by
  simp [slotChecked, issued, fields, allowed, countOpen_of_otherLevel (s := { s with cur := t.id }) i jobs]

theorem Slot.run_of_next {u : State} (sem : slotSem i { s with cur := t.id } = .ok (.next u)) : t.run s = .ok (.next u) := by
  unfold Slot.run
  rw [Slot.instr_of_decoded decoded]
  dsimp only
  rw [checked, Slot.checked_of_sem jobs issued fields allowed, sem]
  rfl

theorem Slot.run_of_error {e : Stop} (sem : slotSem i { s with cur := t.id } = .error e) : t.run s = .error e := by
  unfold Slot.run
  rw [Slot.instr_of_decoded decoded]
  dsimp only
  rw [checked, Slot.checked_of_sem jobs issued fields allowed, sem]
  rfl
end

theorem Slot.run_of_rejected {t : Slot} {e : Reject} (rejected : decodeWord t.id t.word = .error e) (s : State) :
    t.run s = .error (.trap 1 0 0) := by
  unfold Slot.run
  rw [Slot.instr_of_rejected rejected]
  rfl

theorem Slot.run_of_nop {s : State} {t : Slot} (decoded : decodeWord t.id t.word = .ok .nop)
    (jobs : ∀ j, s.core.openJob = some j → j.level ≠ s.core.tl) : t.run s = .ok (.next { s with cur := t.id }) :=
  Slot.run_of_next decoded jobs rfl rfl rfl rfl

@[simp] theorem isWait_ok (d : Done) : isWait (.ok d) = false := rfl

@[simp] theorem isFatal_ok (d : Done) : isFatal (.ok d) = false := rfl

/-! ### Slots one after the other -/

theorem performSlots_of_next {s u : State} {t : Slot} {ts : List Slot} (due : s.slotDone t.id = false) (run : t.run s = .ok (.next u)) :
    performSlots (t :: ts) s = performSlots ts (u.markSlot t.id) := by
  rw [performSlots, if_neg (by simp [due]), run]

theorem lastSlots_of_done {s0 s : State} {ts : List Slot} (next : Word) (trap : Option (StrandId × Nat × Nat × Word))
    (done : ∀ t ∈ ts, s.slotDone t.id = true) : lastSlots s0 next trap ts s = lastSlots s0 next trap [] s := by
  induction ts with
  | nil => rfl
  | cons t ts ih =>
    rw [lastSlots, if_pos (done t (by simp))]
    exact ih fun u hu => done u (by simp [hu])

theorem performBundle_of_done {s u : State} {ts : List Slot} (performed : performSlots (testsFirst ts) s = .ok u)
    (done : ∀ t ∈ ts, u.slotDone t.id = true) : s.performBundle ts = .next (u.endBundle u.pcNext) := by
  have settled : u.waitsOn ts = false := by
    unfold State.waitsOn
    simpa using fun t ht unfinished => absurd (done t ht) (by simp [unfinished])
  unfold State.performBundle
  rw [performed]
  simp only [settled, Bool.false_eq_true, if_false]
  rw [lastSlots_of_done _ _ done]
  rfl

theorem testsFirst_of_none {ts : List Slot} (h : ∀ t ∈ ts, t.tests = false) : testsFirst ts = ts := by
  have none : ts.filter Slot.tests = [] := List.filter_eq_nil_iff.2 fun t ht => by simp [h t ht]
  have all : (ts.filter fun t => !t.tests) = ts := List.filter_eq_self.2 fun t ht => by simp [h t ht]
  rw [testsFirst, none, all, List.nil_append]

theorem State.firstStop_of_next {s u : State} {t : Slot} {ts : List Slot} (run : t.run s = .ok (.next u)) : s.firstStop (t :: ts) = s.firstStop ts := by
  rw [State.firstStop, run]
  rfl

theorem Slot.odd_of_nop {t : Slot} (decoded : decodeWord t.id t.word = .ok .nop) (s : State) : t.odd s = false :=
  Slot.odd_of_stays (fun i held => by
    rw [Slot.instr_of_decoded decoded] at held
    cases held
    simp [KSlotOnly]) s

/-! ### A bundle whose L, X and S slots hold `NOP` -/

/-- L, X and S have completed their slots, and K is to act. -/
def State.threeDone (s : State) : State :=
  { s with cur := .k, core := { s.core with
    bdone := 7
    l := { s.core.l with stage := 0, wait := 9 }, x := { s.core.x with stage := 0, wait := 9 }, s := { s.core.s with stage := 0, wait := 9 } } }

theorem Strand.set_unwait (t : Strand) (r : BitVec 5) (v : Word) (m n : Nat) :
    ({ t with stage := m, wait := n } : Strand).set r v = { t.set r v with stage := m, wait := n } := by
  unfold Strand.set Strand.setKey
  split
  · rfl
  · show (if t.key r.toNat < 7 then _ else _) = _
    split <;> rfl

theorem not_forbidden_of_decoded {wl wx ws wk : IWord} {σ : StrandId} {i : Instr} (decoded : decodeWord σ (slotWord wl wx ws wk σ) = .ok i)
    (transfer : ¬KSlotOnly i) (join : ∀ c, i ≠ .join c) (dsync : ∀ a, i ≠ .dsync a) : ¬Forbidden wl wx ws wk σ := by
  rintro ⟨j, held, bad⟩
  obtain rfl : i = j := Except.ok.inj (decoded.symm.trans held)
  rcases bad with ⟨only, _⟩ | ⟨c, h⟩ | ⟨⟨a, h⟩, _⟩
  · exact transfer only
  · exact join c h
  · exact dsync a h

theorem not_forbidden_of_rejected {wl wx ws wk : IWord} {σ : StrandId} {e : Reject}
    (rejected : decodeWord σ (slotWord wl wx ws wk σ) = .error e) : ¬Forbidden wl wx ws wk σ := by
  rintro ⟨j, held, _⟩
  rw [rejected] at held
  cases held

section
variable {s : State} {wl wx ws wk : IWord} (l : decodeWord .l wl = .ok .nop) (x : decodeWord .x wx = .ok .nop) (st : decodeWord .s ws = .ok .nop)
include l x st

/-- No slot of the bundle is a forbidden use where K's is none. -/
theorem admitted_of_nops (k : ¬Forbidden wl wx ws wk .k) (τ : StrandId) : ¬Forbidden wl wx ws wk τ := by
  cases τ
  case l => exact not_forbidden_of_decoded l (by simp [KSlotOnly]) (by simp) (by simp)
  case x => exact not_forbidden_of_decoded x (by simp [KSlotOnly]) (by simp) (by simp)
  case s => exact not_forbidden_of_decoded st (by simp [KSlotOnly]) (by simp) (by simp)
  case k => exact k

variable (jobs : ∀ j, s.core.openJob = some j → j.level ≠ s.core.tl)
include jobs

/-- Where K's slot waits for nothing, is no fatal error and leads nowhere, what stops the bundle is what K's slot does. -/
theorem bundleStop_of_nops (wait : isWait (Slot.run ⟨.k, wk⟩ s) = false) (fatal : isFatal (Slot.run ⟨.k, wk⟩ s) = false)
    (odd : Slot.odd ⟨.k, wk⟩ s = false) : s.bundleStop (slotsOf wl wx ws wk) = s.firstStop [⟨.k, wk⟩] := by
  have runL : Slot.run ⟨.l, wl⟩ s = _ := Slot.run_of_nop l jobs
  have runX : Slot.run ⟨.x, wx⟩ s = _ := Slot.run_of_nop x jobs
  have runS : Slot.run ⟨.s, ws⟩ s = _ := Slot.run_of_nop st jobs
  have ready : ((slotsOf wl wx ws wk).any fun t => isWait (t.run s)) = false := by
    simp [slotsOf, runL, runX, runS, wait]
  have alive : ((slotsOf wl wx ws wk).find? fun t => isFatal (t.run s)) = none := by
    simp [slotsOf, runL, runX, runS, fatal]
  have straight : ((slotsOf wl wx ws wk).find? (·.odd s)) = none := by
    simp [slotsOf, Slot.odd_of_nop (t := ⟨.l, wl⟩) l, Slot.odd_of_nop (t := ⟨.x, wx⟩) x, Slot.odd_of_nop (t := ⟨.s, ws⟩) st, odd]
  simp only [State.bundleStop, ready, alive, straight, Bool.false_and, Bool.false_eq_true, if_false]
  rw [slotsOf, State.firstStop_of_next runL, State.firstStop_of_next runX, State.firstStop_of_next runS]

/-- L, X and S complete their slots, then K its own. -/
theorem performSlots_of_nops {u : State} (none : s.core.bdone = 0) (k : Slot.run ⟨.k, wk⟩ s.threeDone = .ok (.next u)) :
    performSlots (slotsOf wl wx ws wk) s = .ok (u.markSlot .k) := by
  have runL : Slot.run ⟨.l, wl⟩ s = _ := Slot.run_of_nop l jobs
  have runX : Slot.run ⟨.x, wx⟩ (({ s with cur := .l } : State).markSlot .l) = _ := Slot.run_of_nop x jobs
  have runS : Slot.run ⟨.s, ws⟩ (({ ({ s with cur := .l } : State).markSlot .l with cur := .x } : State).markSlot .x) = _ :=
    Slot.run_of_nop st jobs
  have marked : ({ ({ ({ s with cur := .l } : State).markSlot .l with cur := .x } : State).markSlot .x with cur := .s } : State).markSlot .s =
      { s.threeDone with cur := .s } := by
    simp [State.markSlot, State.threeDone, State.modStrand, State.setStrand, Core.setStrand, State.strand, Core.strand, none, slotBit,
      StrandId.num]
  have runK : Slot.run ⟨.k, wk⟩ { s.threeDone with cur := .s } = .ok (.next u) := k
  rw [slotsOf, performSlots_of_next (by simp [State.slotDone, none]) runL,
    performSlots_of_next (by simp [State.slotDone, State.markSlot, State.modStrand, none, slotBit, StrandId.num]) runX,
    performSlots_of_next (by simp [State.slotDone, State.markSlot, State.modStrand, none, slotBit, StrandId.num]) runS, marked,
    performSlots_of_next (by simp [State.slotDone, State.threeDone, slotBit, StrandId.num]) runK]
  rfl
end

/-! ### The end of such a bundle -/

theorem Strand.unwait_of_start {t : Strand} (h : t.stage = 0) : ({ t with stage := 0, wait := 0 } : Strand) = { t with wait := 0 } := by
  obtain ⟨⟩ := t
  simp only at h
  subst h
  rfl

theorem Core.setSlots_of_noneDone {c : Core} (h : c.bdone = 0) (l x s k : Strand) :
    ({ c with bdone := 0, l := l, x := x, s := s, k := k } : Core) = { c with l := l, x := x, s := s, k := k } := by
  obtain ⟨⟩ := c
  simp only at h
  subst h
  rfl

theorem State.pcNext_of_bundle {s : State} (mode : s.wordMode = false) : s.pcNext = s.core.l.pc + 16 := by
  simp [State.pcNext, State.here, State.unit, mode]

theorem written_of_busy {s t : State} {rs : List (BitVec 5)} (h : ∀ r, s.busy r = t.busy r) : Written s rs ↔ Written t rs := by
  rw [Written, Written, show s.busy = t.busy from funext h]

/-- The bundle ends with K's strand as its word left it, and no strand waits. -/
theorem endBundle_of_threeDone {s : State} (fresh : BundleFresh s) (t : Strand) (next : Word) :
    ((s.threeDone.setStrand .k t).markSlot .k).endBundle next = (s.allReady.setStrand .k { t with stage := 0, wait := 0 }).complete next := by
  obtain ⟨_, none, ⟨l, x, st, _⟩, _⟩ := fresh
  unfold State.endBundle
  refine congrArg (State.complete · next) ?_
  have core := Core.setSlots_of_noneDone none { s.core.l with stage := 0, wait := 0 } { s.core.x with stage := 0, wait := 0 }
    { s.core.s with stage := 0, wait := 0 } { t with stage := 0, wait := 0 }
  refine (congrArg (fun c => ({ s with cur := .k, core := c } : State)) core).trans ?_
  rw [Strand.unwait_of_start l, Strand.unwait_of_start x, Strand.unwait_of_start st]
  rfl

section
variable {s : State} {wl wx ws wk : IWord} (fresh : BundleFresh s) (l : decodeWord .l wl = .ok .nop) (x : decodeWord .x wx = .ok .nop)
  (st : decodeWord .s ws = .ok .nop)
include fresh l x st

/-- A word of K that completes in place ends the bundle. -/
theorem exec_bundle_of_completes {i : Instr} {u : State} {t : Strand} (decoded : decodeWord .k wk = .ok i) (transfer : ¬KSlotOnly i)
    (join : ∀ c, i ≠ .join c) (dsync : ∀ a, i ≠ .dsync a) (tests : Slot.tests ⟨.k, wk⟩ = false)
    (could : Slot.run ⟨.k, wk⟩ { s with cur := .k } = .ok (.next u))
    (does : Slot.run ⟨.k, wk⟩ s.threeDone = .ok (.next (s.threeDone.setStrand .k t))) :
    exec (.bundleIssue wl wx ws wk) s = .next ((s.allReady.setStrand .k { t with stage := 0, wait := 0 }).complete s.allReady.pcNext) := by
  obtain ⟨mode, none, _, _, jobs, _⟩ := id fresh
  have straight : Slot.odd ⟨.k, wk⟩ { s with cur := .k } = false :=
    Slot.odd_of_stays (fun j held => by rwa [← Option.some.inj ((Slot.instr_of_decoded decoded).symm.trans held)]) _
  have goes : State.bundleStop { s with cur := .k } (slotsOf wl wx ws wk) = Option.none :=
    (bundleStop_of_nops (s := { s with cur := .k }) l x st jobs (by simp [could]) (by simp [could]) straight).trans (State.firstStop_of_next could)
  have noTests : testsFirst (slotsOf wl wx ws wk) = slotsOf wl wx ws wk := by
    refine testsFirst_of_none fun t ht => ?_
    simp only [slotsOf, List.mem_cons, List.not_mem_nil, or_false] at ht
    rcases ht with rfl | rfl | rfl | rfl
    · simp [Slot.tests, Slot.instr_of_decoded (t := ⟨.l, wl⟩) l]
    · simp [Slot.tests, Slot.instr_of_decoded (t := ⟨.x, wx⟩) x]
    · simp [Slot.tests, Slot.instr_of_decoded (t := ⟨.s, ws⟩) st]
    · exact tests
  have performed : performSlots (slotsOf wl wx ws wk) { s with cur := .k } = .ok ((s.threeDone.setStrand .k t).markSlot .k) :=
    performSlots_of_nops (s := { s with cur := .k }) l x st jobs none does
  have done : ∀ t' ∈ slotsOf wl wx ws wk, ((s.threeDone.setStrand .k t).markSlot .k).slotDone t'.id = true := by
    intro t' ht
    simp only [slotsOf, List.mem_cons, List.not_mem_nil, or_false] at ht
    have bits (σ : StrandId) : ((7 ||| slotBit .k) &&& slotBit σ != 0) = true := by cases σ <;> decide
    rcases ht with rfl | rfl | rfl | rfl <;> exact bits _
  rw [exec_bundle_of_admitted fresh (admitted_of_nops l x st (not_forbidden_of_decoded decoded transfer join dsync)), goes, Option.getD_none,
    performBundle_of_done (noTests.symm ▸ performed) done, endBundle_of_threeDone fresh, State.pcNext_of_bundle (s := s.allReady) mode,
    State.pcNext_of_bundle]
  · rfl
  · exact mode
end

/-! ### A slot that waits (R190) -/

theorem Core.given_self (c d : Core) : c.given d d = c := by
  simp [Core.given, Core.occ, List.foldl_fixed]

/-- A slot that adds nothing gives another nothing to go on with. -/
theorem State.givenBy_of_idle {s : State} {t u : Slot} (idle : u.run s.withTokens = .ok (.next { s.withTokens with cur := u.id }))
    (waits : isWait (t.run s) = true) : s.givenBy t u = false := by
  unfold State.givenBy
  rw [idle]
  simp only [Core.given_self, waits, Bool.not_true, Bool.and_false]

/-- `TWAIT` of K waits where its count is zero (R303). -/
theorem run_of_twait {s : State} {wk : IWord} {p : BitVec 4} (jobs : ∀ j, s.core.openJob = some j → j.level ≠ s.core.tl)
    (decoded : decodeWord .k wk = .ok (.twait p)) (takes : p.toNat % 4 = 3 ∧ p.toNat / 4 ≠ 3) (empty : s.core.token p.toNat = 0) :
    Slot.run ⟨.k, wk⟩ s = .error (.wait 1) := by
  refine Slot.run_of_error decoded jobs rfl rfl rfl ?_
  have legal : (pairFrom p == pairTo p || pairTo p != StrandId.k.num) = false := by
    simp [pairFrom, pairTo, StrandId.num, takes]
  show semTwait p { s with cur := .k } = _
  unfold semTwait
  simp only [legal, empty, illegalIf_false, ok_bind, beq_self_eq_true, waitIf_true, error_bind]

/-- Settles O52: L, X and S complete their slots with nothing changed, so K's word decides what the bundle does. -/
theorem bundleIssues : Obligations.BundleIssues := by
  rintro s t wl wx ws wk rd ra rb fresh rfl l x st
  obtain ⟨mode, none, ⟨_, _, _, stage⟩, _, jobs, _⟩ := id fresh
  refine ⟨?nops, ?adds, ?rejected, ?waits⟩
  case nops =>
    intro k
    rw [exec_bundle_of_completes fresh l x st (t := s.core.k) k (by simp [KSlotOnly]) (by simp) (by simp)
      (by simp [Slot.tests, Slot.instr_of_decoded (t := ⟨.k, wk⟩) k]) (Slot.run_of_nop k jobs) (Slot.run_of_nop k jobs),
      Strand.unwait_of_start stage]
    rfl
  case adds =>
    intro k written
    have sem (z : State) (hz : Written z [rd, ra, rb]) : slotSem (.add rd ra rb) z = .ok (.next (z.setG rd (z.g ra + z.g rb))) := by
      show alu2 (fun a b => a + b) rd ra rb z = _
      unfold alu2
      rw [ready_of_written hz]
      rfl
    have could : Slot.run ⟨.k, wk⟩ { s with cur := .k } = .ok (.next _) :=
      Slot.run_of_next k jobs rfl rfl rfl (sem { s with cur := .k } ((written_of_busy fun _ => rfl).mp written))
    have does : Slot.run ⟨.k, wk⟩ s.threeDone = .ok (.next (s.threeDone.setG rd (s.threeDone.g ra + s.threeDone.g rb))) :=
      Slot.run_of_next (s := s.threeDone) k jobs rfl rfl rfl (sem s.threeDone ((written_of_busy fun _ => rfl).mp written))
    rw [exec_bundle_of_completes fresh l x st (t := s.core.k.set rd (s.allReady.g ra + s.allReady.g rb)) k (by simp [KSlotOnly]) (by simp) (by simp)
      (by simp [Slot.tests, Slot.instr_of_decoded (t := ⟨.k, wk⟩) k]) could does, ← Strand.set_unwait, Strand.unwait_of_start stage]
    rfl
  case rejected =>
    intro e k
    have run : Slot.run ⟨.k, wk⟩ { s with cur := .k } = .error (.trap 1 0 0) := Slot.run_of_rejected k _
    have straight : Slot.odd ⟨.k, wk⟩ { s with cur := .k } = false :=
      Slot.odd_of_stays (fun i held => by rw [Slot.instr_of_rejected (t := ⟨.k, wk⟩) k] at held; cases held) _
    rw [exec_bundle_of_admitted fresh (admitted_of_nops l x st (not_forbidden_of_rejected k)),
      bundleStop_of_nops (s := { s with cur := .k }) l x st jobs (by rw [run]; rfl) (by rw [run]; rfl) straight, State.firstStop, run]
    rfl
  case waits =>
    intro p k takes empty
    have run : Slot.run ⟨.k, wk⟩ { s with cur := .k } = .error (.wait 1) := run_of_twait jobs k takes empty
    have waits : ((slotsOf wl wx ws wk).any fun t => isWait (t.run { s with cur := .k })) = true := by
      simp [slotsOf, run, isWait]
    have held : ((slotsOf wl wx ws wk).any fun t => t.instr.isNone) = false := by
      simp [slotsOf, Slot.instr_of_decoded (t := ⟨.l, wl⟩) l, Slot.instr_of_decoded (t := ⟨.x, wx⟩) x, Slot.instr_of_decoded (t := ⟨.s, ws⟩) st,
        Slot.instr_of_decoded (t := ⟨.k, wk⟩) k]
    have idle (τ : StrandId) (w : IWord) (decoded : decodeWord τ w = .ok .nop) :
        State.givenBy { s with cur := .k } ⟨.k, wk⟩ ⟨τ, w⟩ = false :=
      State.givenBy_of_idle (Slot.run_of_nop decoded jobs) (by rw [run]; rfl)
    have self : State.givenBy { s with cur := .k } ⟨.k, wk⟩ ⟨.k, wk⟩ = false := by simp [State.givenBy]
    have given : (slotsOf wl wx ws wk).any (State.givenBy { s with cur := .k } ⟨.k, wk⟩) = false := by
      simp [slotsOf, idle .l wl l, idle .x wx x, idle .s ws st, self]
    have code : State.slotWait { s with cur := .k } (slotsOf wl wx ws wk) ⟨.k, wk⟩ = 1 := by
      simp [State.slotWait, run, given]
    refine ⟨State.markWaits { s with cur := .k } (slotsOf wl wx ws wk), ?_, code, fun τ => by cases τ <;> exact ⟨rfl, rfl, rfl⟩⟩
    rw [exec_bundle_of_admitted fresh (admitted_of_nops l x st (not_forbidden_of_decoded k (by simp [KSlotOnly]) (by simp) (by simp)))]
    simp [State.bundleStop, waits, held]

end Sys2Proof.Machine

namespace Sys2Proof.Machine

/-! ### Fields of registers (R5) -/

theorem aget_adel_same {α : Type} (d : α) (k : Nat) (l : List (Nat × α)) : aget d k (adel k l) = d := by
  induction l with
  | nil => rfl
  | cons p l ih =>
    by_cases same : p.1 = k
    · simpa [adel, same] using ih
    · simpa [adel, aget, same] using ih

theorem aget_aset_same {α : Type} (d v : α) (k : Nat) (l : List (Nat × α)) : aget d k (aset k v l) = v := by
  induction l with
  | nil => simp [aset, aget]
  | cons p l ih =>
    rw [aset]
    split_ifs with below same
    · simp [aget]
    · simp [aget]
    · simpa [aget, same] using ih

theorem aget_aput_same {α : Type} [DecidableEq α] (d v : α) (k : Nat) (l : List (Nat × α)) : aget d k (aput d k v l) = v := by
  unfold aput
  split_ifs with default
  · rw [default, aget_adel_same]
  · exact aget_aset_same d v k l

@[simp] theorem State.reg_setReg_same (s : State) (a : Nat) (v : Word) : (s.setReg a v).reg a = v := aget_aput_same _ v a s.dev

theorem bitsAt_setBits_same (w : Word) {lo len : Nat} (fits : lo + len ≤ 64) (v : Nat) : bitsAt (setBits w lo len v) lo len = v % 2 ^ len := by
  have inWord : 2 ^ lo * 2 ^ len ∣ 2 ^ 64 := by rw [← pow_add]; exact pow_dvd_pow 2 fits
  have low : w.toNat % 2 ^ lo < 2 ^ lo := Nat.mod_lt _ (by positivity)
  have parts : w.toNat = w.toNat % 2 ^ lo + 2 ^ lo * (bitsAt w lo len + 2 ^ len * (w.toNat / 2 ^ lo / 2 ^ len)) := by
    rw [bitsAt, Nat.mod_add_div, Nat.mod_add_div]
  have rest : w.toNat - bitsAt w lo len * 2 ^ lo + v % 2 ^ len * 2 ^ lo =
      w.toNat % 2 ^ lo + 2 ^ lo * (v % 2 ^ len + 2 ^ len * (w.toNat / 2 ^ lo / 2 ^ len)) := by
    rw [Nat.mul_add] at parts
    rw [Nat.mul_add, Nat.mul_comm (bitsAt w lo len), Nat.mul_comm (v % 2 ^ len)]
    omega
  rw [setBits, rest, bitsAt, BitVec.toNat_ofNat, ← Nat.mod_mul_right_div_self, Nat.mod_mod_of_dvd _ inWord, Nat.mod_mul_right_div_self,
    Nat.add_mul_div_left _ _ (by positivity), Nat.div_eq_of_lt low, Nat.zero_add, Nat.add_mul_mod_self_left, Nat.mod_mod]

theorem State.rfld_setFld_same (s : State) (a : Nat) {lo len : Nat} (fits : lo + len ≤ 64) (v : Nat) :
    (s.setFld a lo len v).rfld a lo len = v % 2 ^ len := by
  rw [State.rfld, State.setFld, State.reg_setReg_same, bitsAt_setBits_same _ fits]

/-! ### What the steps of a stop leave (R206) -/

namespace State.Wrote

theorem lm {s t : State} (h : s.Wrote t) : t.lm = s.lm := by rw [h]

theorem jobs {s t : State} (h : s.Wrote t) : t.jobs = s.jobs := by rw [h]

theorem futures {s t : State} (h : s.Wrote t) : t.futures = s.futures := by rw [h]

theorem setFld (s : State) (a lo len v : Nat) : s.Wrote (s.setFld a lo len v) := .setReg ..

theorem unhalt (s : State) (k : Nat) : s.Wrote (s.unhalt k) := Wrote.trans (.setFld ..) (.ite (.setFld ..) (.refl _))

theorem writeWordAt (s : State) (x : Nat) (w : Word) : s.Wrote (s.writeWordAt x w) := .writeMem ..

theorem dequeue (s : State) (a : Option Asker) : s.Wrote (s.dequeue a) := by
  unfold State.dequeue
  split
  · rfl
  · exact .ite rfl rfl

theorem syncRings (s : State) (g : Nat) : s.Wrote (s.syncRings g) := .foldl (fun _ _ => .setFld ..) ..

theorem discardLines (s : State) (c : Nat) : s.Wrote (s.discardLines c) := by
  unfold State.discardLines
  exact Wrote.trans (.foldl (fun _ _ => .flushUnit ..) ..) (.modCoh ..)

theorem clearRegs (b : Nat) (os : List Nat) (s : State) : s.Wrote (clearRegs b os s) := by
  induction os generalizing s with
  | nil =>
    rw [Machine.clearRegs]
    exact .refl s
  | cons o os ih =>
    rw [Machine.clearRegs]
    exact (Wrote.setReg ..).trans (ih _)

end State.Wrote

@[simp] theorem State.setFld_coh (s : State) (a lo len v : Nat) : (s.setFld a lo len v).coh = s.coh := by
  unfold State.setFld State.setReg
  rfl

@[simp] theorem State.modCore_lm (s : State) (k : Nat) (f : Core → Core) : (s.modCore k f).lm = s.lm := by
  unfold State.modCore State.setCore
  split <;> rfl

@[simp] theorem State.superDeliver_lm (s : State) : s.superDeliver.lm = s.lm := by
  unfold State.superDeliver
  dsimp only
  split
  · exact (State.modCore_lm ..).trans (State.Wrote.lm (.setFld ..))
  · rfl

@[simp] theorem State.modCore_jobs (s : State) (k : Nat) (f : Core → Core) : (s.modCore k f).jobs = s.jobs := by
  unfold State.modCore State.setCore
  split <;> rfl

@[simp] theorem State.superDeliver_jobs (s : State) : s.superDeliver.jobs = s.jobs := by
  unfold State.superDeliver
  dsimp only
  split
  · exact (State.modCore_jobs ..).trans (State.Wrote.jobs (.setFld ..))
  · rfl

@[simp] theorem State.modCore_coh (s : State) (k : Nat) (f : Core → Core) : (s.modCore k f).coh = s.coh := by
  unfold State.modCore State.setCore
  split <;> rfl

@[simp] theorem State.superDeliver_coh (s : State) : s.superDeliver.coh = s.coh := by
  unfold State.superDeliver
  dsimp only
  split
  · exact (State.modCore_coh ..).trans (State.setFld_coh ..)
  · rfl

@[simp] theorem State.evictHart_lm (s : State) (n : Nat) (x : Hart) : (s.evictHart n x).lm = s.lm := by
  rw [← (State.Wrote.dequeue s (some (.hart n))).lm]
  unfold State.evictHart
  dsimp only
  split <;> rfl

@[simp] theorem State.stopSandboxes_lm (s : State) (c : Nat) : (s.stopSandboxes c).lm = s.lm :=
  foldl_keeps State.lm (fun u p => (apply_ite State.lm _ _ _).trans (by rw [State.evictHart_lm, ite_self])) _ _

@[simp] theorem State.endJobs_lm (s : State) (c : Nat) : (s.endJobs c).lm = s.lm := (State.Wrote.foldl (fun _ _ => .syncRings ..) ..).lm

theorem State.endJobs_jobs (s : State) (c : Nat) : (s.endJobs c).jobs = s.jobs.filter fun j => j.view.ctx != c :=
  (State.Wrote.foldl (fun _ _ => .syncRings ..) ..).jobs

theorem State.emptyQueues_lm (s : State) (c : Nat) :
    (s.emptyQueues c).lm = { s.lm with launches := s.lm.launches.filter fun l => l.ctx != c } := by
  unfold State.emptyQueues
  refine congrArg (fun m : Lm => { m with launches := m.launches.filter fun l => l.ctx != c }) (State.Wrote.lm (.foldl (fun u q => ?_) ..))
  exact .ite (.writeWordAt ..) (.refl u)

theorem State.endTasks_domains (s : State) (c : Nat) : (s.endTasks c).lm.domains = s.lm.domains.filter fun d => d.ctx != c := by
  show List.filter _ (Lm.domains (State.lm (List.foldl _ _ _))) = _
  rw [(State.Wrote.foldl (fun _ _ => .unhalt ..) ..).lm]

theorem State.endTasks_tasks (s : State) (c : Nat) : ∀ x ∈ (s.endTasks c).lm.tasks, x.ctx ≠ c := by
  intro x left own
  obtain ⟨held, kept⟩ := List.mem_filter.mp left
  have held : x ∈ s.lm.tasks := (State.Wrote.foldl (fun _ _ => .unhalt ..) ..).lm ▸ held
  have gone : x.id ∈ (s.lm.tasks.filter fun t => t.ctx == c).map (·.id) :=
    List.mem_map_of_mem (List.mem_filter.mpr ⟨held, beq_iff_eq.mpr own⟩)
  simp [gone] at kept

@[simp] theorem State.endPinsOf_lm (s : State) (c : Nat) : (s.endPinsOf c).lm = s.lm := rfl

@[simp] theorem State.endPinsOf_jobs (s : State) (c : Nat) : (s.endPinsOf c).jobs = s.jobs := rfl

@[simp] theorem State.cancelFutures_lm (s : State) (c : Nat) : (s.cancelFutures c).lm = s.lm := rfl

@[simp] theorem State.discardLines_lm (s : State) (c : Nat) : (s.discardLines c).lm = s.lm := (State.Wrote.discardLines s c).lm

@[simp] theorem State.discardLines_jobs (s : State) (c : Nat) : (s.discardLines c).jobs = s.jobs := (State.Wrote.discardLines s c).jobs

theorem State.stopContext_lm (s : State) (c : Nat) : (s.stopContext c).lm = ((s.endTasks c).emptyQueues c).lm := by
  simp only [State.stopContext, State.superDeliver_lm, State.discardLines_lm, State.endPinsOf_lm, State.endJobs_lm, State.stopSandboxes_lm,
    State.cancelFutures_lm]

theorem State.stopContext_jobs (s : State) (c : Nat) : ∀ j ∈ (s.stopContext c).jobs, j.view.ctx ≠ c := by
  simp [State.stopContext, State.endJobs_jobs]

/-! ### Lines and pins of a context (R102, R425) -/

@[simp] theorem Coh.putMsc_pins (c : Coh) (l : MscLine) : (c.putMsc l).pins = c.pins := by
  unfold Coh.putMsc
  dsimp only
  split <;> rfl

@[simp] theorem State.mscPin_pins (s : State) (st line : Nat) : (s.mscPin st line).2.coh.pins = s.coh.pins := by
  unfold State.mscPin
  dsimp only
  split <;> rfl

@[simp] theorem State.mscTouch_pins (s : State) (pa n pol : Nat) (write : Bool) : (s.mscTouch pa n pol write).coh.pins = s.coh.pins := by
  unfold State.mscTouch
  dsimp only
  repeat' split
  all_goals simp [Coh.dropMsc]

@[simp] theorem State.flushUnit_pins (s : State) (ctx sl grain u : Nat) : (s.flushUnit ctx sl grain u).coh.pins = s.coh.pins := by
  unfold State.flushUnit
  dsimp only
  rw [State.mscTouch_pins]
  split
  · rfl
  · show Coh.pins (List.foldl _ _ _) = _
    exact foldl_keeps Coh.pins (fun c p => by rfl) _ _

@[simp] theorem State.foldl_flushUnits_pins (s : State) (c : Nat) (l : List (Nat × Nat × Nat)) :
    (l.foldl (fun s x => s.flushUnit c x.1 x.2.1 x.2.2) s).coh.pins = s.coh.pins := by
  refine foldl_keeps (fun s : State => s.coh.pins) (fun b x => ?_) l s
  exact State.flushUnit_pins ..

@[simp] theorem State.foldl_flushUnits_tags (s : State) (c : Nat) (l : List (Nat × Nat × Nat)) :
    (l.foldl (fun s x => s.flushUnit c x.1 x.2.1 x.2.2) s).coh.tags = s.coh.tags := by
  refine foldl_keeps (fun s : State => s.coh.tags) (fun b x => ?_) l s
  exact State.flushUnit_tags ..

theorem State.discardLines_pins (s : State) (c : Nat) : (s.discardLines c).coh.pins = s.coh.pins := by
  simp only [State.discardLines, State.modCoh, State.foldl_flushUnits_pins]

theorem State.discardLines_tags (s : State) (c : Nat) : (s.discardLines c).coh.tags = s.coh.tags.filter fun t => t.ctx != c := by
  simp only [State.discardLines, State.modCoh, State.foldl_flushUnits_tags]

@[simp] theorem State.endPinsOf_pins (s : State) (c : Nat) : (s.endPinsOf c).coh.pins = s.coh.pins.filter fun p => p.ctx != c := rfl

theorem State.stopContext_tags (s : State) (c : Nat) : ∀ t ∈ (s.stopContext c).coh.tags, t.ctx ≠ c := by
  simp [State.stopContext, State.discardLines_tags]

theorem State.stopContext_pins (s : State) (c : Nat) : ∀ p ∈ (s.stopContext c).coh.pins, p.ctx ≠ c := by
  simp [State.stopContext, State.discardLines_pins]

end Sys2Proof.Machine

namespace Sys2Proof.Machine

/-! ### The states of a context (R205, R206) -/

theorem State.ctxState_setFld_same (s : State) (c : Nat) {n : Nat} (small : n < 4) : (s.setFld (ctxCtl c) 60 2 n).ctxState c = n :=
  (s.rfld_setFld_same (ctxCtl c) (by omega) n).trans (Nat.mod_eq_of_lt small)

theorem State.fatalError_of_other {s : State} {c : Nat} (state : s.ctxState c ≠ 1) (o : Origin) (code : Nat) (val : Word) (cause : Nat) :
    s.fatalError c o code val cause = s := if_pos state

/-- A context that a reset has stopped holds no task, launch, domain or job, no cached line and no pin. -/
theorem State.stopped_empty (s : State) (c : Nat) : ∀ t, t = ((s.stopContext c).resetFutures c).setFld (ctxCtl c) 60 2 3 →
    (∀ x ∈ t.lm.tasks, x.ctx ≠ c) ∧ (∀ x ∈ t.lm.launches, x.ctx ≠ c) ∧ (∀ x ∈ t.lm.domains, x.ctx ≠ c) ∧ (∀ j ∈ t.jobs, j.view.ctx ≠ c) ∧
      (∀ x ∈ t.coh.tags, x.ctx ≠ c) ∧ (∀ p ∈ t.coh.pins, p.ctx ≠ c) := by
  rintro t rfl
  rw [(State.Wrote.setFld ..).lm, (State.Wrote.setFld ..).jobs, State.setFld_coh]
  have lm : ((s.stopContext c).resetFutures c).lm = { (s.endTasks c).lm with launches := (s.endTasks c).lm.launches.filter fun l => l.ctx != c } :=
    (s.stopContext_lm c).trans (State.emptyQueues_lm _ c)
  rw [lm]
  refine ⟨s.endTasks_tasks c, by simp, ?_, s.stopContext_jobs c, s.stopContext_tags c, s.stopContext_pins c⟩
  dsimp only
  simp [State.endTasks_domains]

theorem State.finishReset_futures (s : State) (c : Nat) : ∀ f ∈ (s.finishReset c).futures, f.ctx ≠ c := by
  have kept : (s.finishReset c).futures = State.futures (State.resetFutures _ c) :=
    (((State.Wrote.clearRegs ..).trans (.setFld ..)).trans (.setFld ..)).trans (.setFld ..) |>.futures
  rw [kept]
  simp [State.resetFutures]

theorem execCtxResetComplete_of_waiting {s : State} {c : Nat} (waits : ∃ e ∈ s.fab.e2e, e.ctx = c ∧ e.uid ≠ 2 ^ 40) :
    execCtxResetComplete c s = .next s := by
  obtain ⟨e, out, own, counted⟩ := waits
  exact if_pos (.inr (.inr (List.any_eq_true.mpr ⟨e, out, Bool.and_eq_true_iff.mpr ⟨beq_iff_eq.mpr own, bne_iff_ne.mpr counted⟩⟩)))

theorem execCtxResetComplete_of_answered {s : State} {c : Nat} (small : c < 64) (state : s.ctxState c = 3)
    (all : ∀ e ∈ s.fab.e2e, e.ctx = c → e.uid = 2 ^ 40) : execCtxResetComplete c s = .next (s.finishReset c) := by
  refine if_neg ?_
  rintro (big | other | out)
  · omega
  · exact other state
  · obtain ⟨e, held, out⟩ := List.any_eq_true.mp out
    simp only [Bool.and_eq_true, beq_iff_eq, bne_iff_ne] at out
    exact out.2 (all e held out.1)

/-! ### Pager cores (R37) -/

theorem State.endPager_of_ends {s : State} {k : Nat} (ends : PagerEnds s k) : s.endPager k = s.endTask k := by
  obtain ⟨task, core, held, drained⟩ := ends
  exact if_pos (by simp [task, core, held, drained])

theorem State.endPager_of_stays {s : State} {k : Nat} (stays : ¬PagerEnds s k) : s.endPager k = s := by
  refine if_neg fun ends => stays ?_
  simp only [Bool.and_eq_true, Bool.not_eq_true', List.isEmpty_iff] at ends
  obtain ⟨⟨⟨task, core⟩, held⟩, drained⟩ := ends
  exact ⟨task, core, held, drained⟩

/-- Cores whose pager tasks stay are passed over. -/
theorem foldl_endPager_of_stays {s : State} {g : Nat} {l : List Nat} (stay : ∀ i ∈ l, ¬PagerEnds s (g + i)) :
    l.foldl (fun s i => s.endPager (g + i)) s = s := by
  induction l with
  | nil => rfl
  | cons i l ih =>
    rw [List.foldl_cons, State.endPager_of_stays (stay i (.head l))]
    exact ih fun j hj => stay j (.tail i hj)

/-- One pager task has to end, and none after it. -/
theorem foldl_endPager_of_one {s : State} {g i : Nat} {l : List Nat} (listed : i ∈ l) (before : ∀ j ∈ l, j ≠ i → ¬PagerEnds s (g + j))
    (ends : PagerEnds s (g + i)) (after : ∀ j ∈ l, ¬PagerEnds (s.endTask (g + i)) (g + j)) :
    l.foldl (fun s i => s.endPager (g + i)) s = s.endTask (g + i) := by
  obtain ⟨l1, l2, rfl, first⟩ := List.eq_append_cons_of_mem listed
  rw [List.foldl_append, List.foldl_cons,
    foldl_endPager_of_stays fun j hj => before j (List.mem_append_left _ hj) fun same => first (same ▸ hj),
    State.endPager_of_ends ends, foldl_endPager_of_stays fun j hj => after j (List.mem_append_right _ (.tail i hj))]

theorem execPagercfgWrite_of_cluster {s : State} {clu : Nat} (small : clu < 256) (v : Word) :
    execPagercfgWrite clu v s =
      .next ((List.range 8).foldl (fun s i => s.endPager (8 * clu + i)) (s.writeReg (clusterBase clu) v).superDeliver) :=
  if_neg (by omega)

/-! ### Pager replies (R41, R42, R399) -/

section
variable {s : State} {src : Option Nat} {v : Word}

/-- The core of a task that waits for the reply. -/
def awaitsReply (v : Word) (c : Core) : Bool :=
  c.task.isSome && c.view.ctx == bitsAt v 42 6 && c.pagerOut == some (bitsAt v 31 11, bitsAt v 48 16)

/-- A saved task that waits for the reply. -/
def savedAwaitsReply (v : Word) (t : Task) : Bool :=
  t.saved && t.ctx == bitsAt v 42 6 && t.pagerOut == some (bitsAt v 31 11, bitsAt v 48 16)

theorem State.deliverReply_of_core {d : Core} (waits : (s.answered src v).allCores.find? (awaitsReply v) = some d) :
    s.deliverReply src v = (s.answered src v).modCore d.idx fun c => c.takeReply (replyValue v) := by
  unfold State.answered awaitsReply at *
  unfold State.deliverReply State.modLm
  dsimp only
  rw [waits]

variable (away : (s.answered src v).allCores.find? (awaitsReply v) = none)
include away

theorem State.deliverReply_of_saved {t : Task} (waits : (s.answered src v).lm.tasks.find? (savedAwaitsReply v) = some t) :
    s.deliverReply src v =
      (s.answered src v).modTask t.id fun x => { x with heldReply := some (replyValue v), pagerOut := none } := by
  unfold State.answered awaitsReply savedAwaitsReply at *
  unfold State.deliverReply State.modLm
  dsimp only
  rw [away]
  dsimp only
  rw [waits]

theorem State.deliverReply_of_stale (none : (s.answered src v).lm.tasks.find? (savedAwaitsReply v) = none) :
    s.deliverReply src v = (s.answered src v).count (staleReg src) := by
  unfold State.answered awaitsReply savedAwaitsReply at *
  unfold State.deliverReply State.modLm
  dsimp only
  rw [away]
  dsimp only
  rw [none]
end

/-! ### Pager tasks (R487) -/

theorem execPagerTaskPlace_of_invalid {s : State} (k : Nat) (invalid : bitAt (s.reg 0x070) 0 = false) : execPagerTaskPlace k s = .next s :=
  if_pos (by simp [invalid])

/-- An idle pager core that may take a pager task (R487). -/
abbrev PagerIdle (s : State) (k c : Nat) : Prop :=
  bitAt (s.reg 0x070) 0 = true ∧ k < 2048 ∧ s.isPagerCore k = true ∧ (s.coreAt k).task = none ∧ s.ctxState c = 1 ∧ k ∉ s.lm.pagerIdle ∧
    s.awake (k / 8) = true ∧ (0, k / 8) ∉ s.ras.fenced

/-- The task of the pager program on core `k`. -/
def State.pagerTask (s : State) (k c : Nat) : Task :=
  { id := s.lm.nextTask, launch := none, index := k, ctx := c, cls := 0, sup := true, st := .running, rtn := none, core := some k
    last := k, saved := false, binding := none, misses := 0, doms := [0, 0, 0, 0], arrived := [], heldJobs := [], heldReply := none
    heldSlots := [], future := none, pagerOut := none, stages := [], bdone := 0, rels := [], sched := s.csched c }

section
variable {s : State} {k c : Nat} {d : List Word} (idle : PagerIdle s k c) (hc : c = bitsAt (s.reg 0x070) 58 6)
  (hd : d = s.wordsAt (bitsAt (s.reg 0x070) 8 44 * 256) 32)
include idle hc hd

theorem execPagerTaskPlace_of_valid {h : Handle} (zero : descZero d true = true) (program : s.programHandle c d = some h)
    (entries : descEntries d h.len = true) (enabled : bitAt (s.reg (ctxBase c + 0x10)) 62 = true) (sup : bitAt (d.getD 0 0) 49 = true) :
    execPagerTaskPlace k s = .next (((State.startOn { s with lm := { s.lm with
        nextTask := s.lm.nextTask + 1, tasks := s.lm.tasks ++ [s.pagerTask k c] } } k (s.pagerTask k c) d k 1 0).modCore k fun x =>
      { x with k := { x.k with pend := x.k.pend ||| ((s.coreAt k).k.pend &&& 4) } }).superDeliver) := by
  obtain ⟨valid, small, pager, free, active, untried, awake, whole⟩ := idle
  subst hc hd
  unfold execPagerTaskPlace
  rw [if_neg (by simp [valid, small, pager, free, active, untried, awake, whole])]
  dsimp only
  rw [if_neg (by simp only [zero, program, entries, enabled, sup, Bool.and_true, Bool.not_true, Bool.false_eq_true, not_false_eq_true])]
  rfl

theorem execPagerTaskPlace_of_unfit (unfit : descZero d true = false ∨ s.programHandle c d = none ∨
      (∃ h, s.programHandle c d = some h ∧ descEntries d h.len = false) ∨ bitAt (s.reg (ctxBase c + 0x10)) 62 = false ∨
      bitAt (d.getD 0 0) 49 = false) :
    execPagerTaskPlace k s = .next { s with lm := { s.lm with pagerIdle := k :: s.lm.pagerIdle } } := by
  obtain ⟨valid, small, pager, free, active, untried, awake, whole⟩ := idle
  subst hc hd
  unfold execPagerTaskPlace
  rw [if_neg (by simp [valid, small, pager, free, active, untried, awake, whole])]
  refine if_pos ?_
  rcases unfit with bad | bad | ⟨h, held, bad⟩ | bad | bad
  · simp only [bad, Bool.false_and, Bool.not_false]
  · simp only [bad, Bool.and_false, Bool.false_and, Bool.not_false]
  · simp only [held, bad, Bool.and_false, Bool.false_and, Bool.not_false]
  · simp only [bad, Bool.and_false, Bool.false_and, Bool.not_false]
  · simp only [bad, Bool.and_false, Bool.not_false]
end

end Sys2Proof.Machine

namespace Sys2Proof.Machine

/-- Settles O34: the context states by what a stop leaves of the context, the pager's by which core, task or descriptor answers. -/
theorem contextsAndPager : Obligations.ContextsAndPager := by
  refine ⟨?contexts, ?pager⟩
  case contexts =>
    intro s c small
    have inside : ¬64 ≤ c := by omega
    refine ⟨if_neg inside, ?_, ?_, ?_, ?_, ?_, ?_, if_neg inside, ?_⟩
    · rintro t rfl free
      exact (if_neg inside).trans (congrArg Host.Outcome.next (if_pos free))
    · rintro t rfl held
      exact (if_neg inside).trans (congrArg Host.Outcome.next (if_neg held))
    · intro state
      refine (if_neg inside).trans (congrArg Host.Outcome.next (if_neg ?_))
      change ¬(bitsAt (s.reg (ctxBase c + 0x10)) 60 2 = 1 ∨ bitsAt (s.reg (ctxBase c + 0x10)) 60 2 = 2)
      omega
    · intro state
      exact ⟨_, (if_neg inside).trans (congrArg Host.Outcome.next (if_pos state)), rfl, State.ctxState_setFld_same _ c (by omega),
        s.stopped_empty c _ rfl⟩
    · intro _ waits
      exact execCtxResetComplete_of_waiting waits
    · intro state all
      exact ⟨execCtxResetComplete_of_answered small state all, State.ctxState_setFld_same _ c (by omega), s.finishReset_futures c⟩
    · intro other
      exact (if_neg inside).trans (congrArg Host.Outcome.next (State.fatalError_of_other other ..))
  case pager =>
    intro s k clu v src
    refine ⟨rfl, execPagerTaskPlace_of_invalid k, ?place, ?config, ?reply⟩
    case place =>
      intro d c hd hc valid small pager free active untried awake whole
      have idle : PagerIdle s k c := ⟨valid, small, pager, free, active, untried, awake, whole⟩
      refine ⟨fun h es zero program entries fits enabled sup => ?_, execPagerTaskPlace_of_unfit idle hc hd⟩
      refine ⟨s.pagerTask k c, rfl, rfl, rfl, rfl, rfl, rfl, ?_⟩
      rintro u rfl
      exact execPagerTaskPlace_of_valid idle hc hd zero program (entries ▸ fits) enabled sup
    case config =>
      rintro small u rfl
      refine ⟨fun stay => ?_, fun i hi before ends after => ?_⟩
      · exact (execPagercfgWrite_of_cluster small v).trans
          (congrArg Host.Outcome.next (foldl_endPager_of_stays fun i hi => stay i (List.mem_range.mp hi)))
      · refine (execPagercfgWrite_of_cluster small v).trans (congrArg Host.Outcome.next (foldl_endPager_of_one (List.mem_range.mpr hi) ?_ ends ?_))
        · exact fun j hj other ⟨pager, _⟩ => absurd pager (by simp only [before j (List.mem_range.mp hj) other, Bool.false_eq_true, not_false_eq_true])
        · exact fun j hj ⟨pager, _⟩ => absurd pager (by simp only [after j (List.mem_range.mp hj), Bool.false_eq_true, not_false_eq_true])
    case reply =>
      rintro u rfl
      refine ⟨fun d waits => congrArg Host.Outcome.next (State.deliverReply_of_core waits), fun away => ?_⟩
      have away : (s.answered src v).allCores.find? (awaitsReply v) = none := by
        refine List.find?_eq_none.mpr fun d hd waits => ?_
        simp only [awaitsReply, Bool.and_eq_true, beq_iff_eq] at waits
        obtain ⟨⟨task, ctx⟩, out⟩ := waits
        exact away d hd task ctx out
      refine ⟨fun t waits => congrArg Host.Outcome.next (State.deliverReply_of_saved away waits), fun none => ?_⟩
      refine congrArg Host.Outcome.next (State.deliverReply_of_stale away (List.find?_eq_none.mpr fun t ht waits => ?_))
      simp only [savedAwaitsReply, Bool.and_eq_true, beq_iff_eq] at waits
      obtain ⟨⟨saved, ctx⟩, out⟩ := waits
      exact none t ht saved ctx out

end Sys2Proof.Machine

namespace Sys2Proof.Machine

/-! ### A free core is offered (R213, R216, R221) -/

section
variable {s : State} {k : Nat} {t : Task}

theorem execPlacementDecision_of_busy (busy : s.recheckPreloads.coreIdle k = false) :
    execPlacementDecision k s = .next s.recheckPreloads :=
  if_pos (by rw [busy]; rfl)

variable (idle : s.recheckPreloads.coreIdle k = true)
include idle

/-- What a decision does for an idle core whose preloaded task is `t`. -/
theorem execPlacementDecision_of_preload (held : s.recheckPreloads.preloadOf k = some t) :
    execPlacementDecision k s =
      if !s.recheckPreloads.numbered t then
        .next (if s.recheckPreloads.lm.offered.contains k then s.recheckPreloads
          else (s.recheckPreloads.count (ctxBase t.ctx + 0x40)).noteOffered k)
      else .next ((s.recheckPreloads.unpreloaded k).assign (t.id, k)) := by
  refine (if_neg (by simp [idle])).trans ?_
  rw [held]
  rfl

theorem execPlacementDecision_of_numbered (held : s.recheckPreloads.preloadOf k = some t)
    (numbered : s.recheckPreloads.numbered t = true) :
    execPlacementDecision k s = .next ((s.recheckPreloads.unpreloaded k).assign (t.id, k)) :=
  (execPlacementDecision_of_preload idle held).trans (if_neg (by simp [numbered]))

theorem execPlacementDecision_of_unnumbered (held : s.recheckPreloads.preloadOf k = some t)
    (unnumbered : s.recheckPreloads.numbered t = false) (first : k ∉ s.recheckPreloads.lm.offered) :
    execPlacementDecision k s = .next ((s.recheckPreloads.count (ctxBase t.ctx + 0x40)).noteOffered k) :=
  (execPlacementDecision_of_preload idle held).trans <| (if_pos (by simp [unnumbered])).trans <|
    congrArg Host.Outcome.next (if_neg (by simpa using first))

variable (empty : s.recheckPreloads.preloadOf k = none)
include empty

theorem execPlacementDecision_of_choice {v : State} {cls c : Nat} {p : List (Nat × Nat)}
    (chosen : s.recheckPreloads.choose s.recheckPreloads.coreFree k = some (v, cls, c, p)) :
    execPlacementDecision k s = .next (p.foldl State.assign (v.countNortn k cls)) := by
  refine (if_neg (by simp [idle])).trans ?_
  rw [empty]
  dsimp only
  rw [chosen]

theorem execPlacementDecision_of_vain (unchosen : s.recheckPreloads.choose s.recheckPreloads.coreFree k = none)
    (first : k ∉ s.recheckPreloads.lm.offered) :
    execPlacementDecision k s = .next ((s.recheckPreloads.countNortn k 1).noteOffered k) := by
  refine (if_neg (by simp [idle])).trans ?_
  rw [empty]
  dsimp only
  rw [unchosen]
  exact congrArg Host.Outcome.next (if_neg (by simpa using first))
end

/-! ### Preloads, vacated cores and budgets (R218, R219, R221) -/

section
variable {s : State} {k : Nat} {t : Task}

theorem execPreload_of_pagerCore (pager : s.isPagerCore k = true) : execPreload k s = .next s :=
  if_pos (by simp only [pager, Bool.or_true, Bool.true_or])

theorem execPreload_of_choice {p : Task} {v : State} {cls c : Nat} (on : s.taskOn k = some p) (user : p.pager = false)
    (plain : s.isPagerCore k = false) (empty : ∀ q ∈ s.lm.preload, q.1 ≠ k)
    (chosen : s.choose (fun i => i == k || s.coreFree i) k = some (v, cls, c, [(t.id, k)])) (task : TaskIs v t)
    (unserved : ∀ q ∈ s.lm.vacates, q.2.2 ≠ t.id) :
    execPreload k s = .next { v with lm := { v.lm.leaveReady t.key t.id with preload := (k, t.id) :: v.lm.preload } } := by
  have noPreload : s.lm.preload.any (fun q => q.1 == k) = false :=
    List.any_eq_false.mpr fun q hq same => empty q hq (eq_of_beq same)
  refine (if_neg (by rw [on, plain, noPreload]; simp [user])).trans ?_
  rw [chosen]
  dsimp only
  rw [task]
  have noVacate : s.lm.vacates.any (fun q => q.2.2 == t.id) = false :=
    List.any_eq_false.mpr fun q hq same => unserved q hq (eq_of_beq same)
  exact if_neg (by rw [noVacate]; exact Bool.false_ne_true)

/-- A core that is vacated loses a preloaded bulk task. -/
def State.withoutBulkPreload (s : State) (k : Nat) : State :=
  if (s.preloadOf k).any (fun p => p.cls != 0) then s.discardPreload k else s

theorem State.withoutBulkPreload_of_match (s : State) (k : Nat) :
    (if (match s.preloadOf k with | some p => p.cls == 0 | none => true) then s else s.discardPreload k) = s.withoutBulkPreload k := by
  unfold State.withoutBulkPreload
  cases s.preloadOf k with
  | none => rfl
  | some p => by_cases latency : p.cls = 0 <;> simp [latency]

/-- Core `k` is ordered to be vacated for task `id`. -/
def State.vacatesFor (s : State) (k id : Nat) : State :=
  ({ s with lm := { s.lm with vacates := (k, s.now, id) :: s.lm.vacates } } : State).modCore k fun c => { c with preempt := 1 }

theorem execVacate_of_borrowed (task : TaskIs s t) (latency : t.cls = 0) (queued : t.st = .queued)
    (unserved : ∀ q ∈ s.lm.vacates, q.2.2 ≠ t.id) (full : ∀ i < 2048, (s.coreFree i && s.wouldTake t i) = false)
    (lowest : (List.range 2048).find? (fun i => s.borrowed i && s.wouldTake t i) = some k) :
    execVacate t.id s = .next ((s.withoutBulkPreload k).vacatesFor k t.id) := by
  have noVacate : s.lm.vacates.any (fun q => q.2.2 == t.id) = false :=
    List.any_eq_false.mpr fun q hq same => unserved q hq (eq_of_beq same)
  have noneFree : (List.range 2048).any (fun i => s.coreFree i && s.wouldTake t i) = false :=
    List.any_eq_false.mpr fun i hi => Bool.eq_false_iff.mp (full i (List.mem_range.mp hi))
  unfold execVacate
  rw [task]
  dsimp only
  rw [if_neg (by rw [noVacate, noneFree]; simp [latency, queued]), lowest]
  exact congrArg (fun v => Host.Outcome.next (v.vacatesFor k t.id)) (s.withoutBulkPreload_of_match k)

theorem execBudgetOverrun_of_used (on : s.taskOn k = some t) (user : t.pager = false) (runs : (s.coreAt k).preempt = 0)
    (stays : (s.coreAt k).saving = 0) (limited : s.budgetOf t ≠ 0) (used : s.budgetOf t ≤ (s.coreAt k).budget) :
    execBudgetOverrun k s = .next ((s.modCore k fun c => { c with preempt := 2 }).count (ctxBase t.ctx + 0x48)) := by
  unfold execBudgetOverrun
  rw [on]
  exact if_neg (by simp [user, runs, stays, limited, used])
end

/-! ### Starts and resumptions (R31, R196, R427) -/

section
variable {s : State} {k : Nat} {t : Task}

theorem State.loadArray_of_unbound (unbound : s.bindingOf t = none) : s.loadArray k t = .error (BitVec.allOnes 64) := by
  unfold State.loadArray
  rw [unbound]

theorem State.loadArray_of_badImage {a n i : Nat} (bound : s.bindingOf t = some (a, n)) (bad : s.loadImage a n = .error i) :
    s.loadArray k t = .error (BitVec.ofNat 64 i) := by
  unfold State.loadArray
  rw [bound]
  dsimp only
  rw [bad]

theorem State.loadArray_of_image {a n : Nat} {es : List (Word × Word)} (bound : s.bindingOf t = some (a, n))
    (image : s.loadImage a n = .ok es) : s.loadArray k t = .ok (s.modCore k fun c => c.withArray a n es) := by
  unfold State.loadArray
  rw [bound]
  dsimp only
  rw [image]
  rfl

/-- A task that starts is `State.started`, then its array is loaded. -/
theorem State.startTask_of_loaded {v : State} (loaded : (s.started t k).loadArray k t = .ok v) : s.startTask t k = v := by
  unfold State.started at loaded
  unfold State.startTask State.startOn
  dsimp only
  rw [loaded]

theorem State.startTask_of_refused {v : Word} (refused : (s.started t k).loadArray k t = .error v) :
    s.startTask t k = (s.started t k).fatalError t.ctx (.strand k .k) 0x80 v 0 := by
  unfold State.started at *
  unfold State.startTask State.startOn
  dsimp only
  rw [refused]

/-- A task that resumes is `State.resumed`, then its array is loaded, and what was held for it is applied. -/
theorem State.resumeTask_of_loaded {r : Nat} {u v : State} (loaded : (s.resumed t k r).loadArray k t = .ok u)
    (applied : v = (u.modCore k fun c => c.applyHeld t).modTask t.id
      fun x => { x with saved := false, heldSlots := [], heldReply := none, future := none }) :
    s.resumeTask t k r = v.trace (v.coreAt k) 11 0 0 (BitVec.ofNat 64 r) 0 := by
  subst applied
  unfold State.resumed at loaded
  unfold State.resumeTask
  dsimp only at loaded ⊢
  rw [loaded]

theorem State.resumeTask_of_refused {r : Nat} {v : Word} (refused : (s.resumed t k r).loadArray k t = .error v) :
    s.resumeTask t k r = (s.resumed t k r).fatalError t.ctx (.strand k .k) 0x80 v 0 := by
  unfold State.resumed at *
  unfold State.resumeTask
  dsimp only at refused ⊢
  rw [refused]

variable (task : TaskIs s t) (placed : t.core = some k) (running : t.st = .running) (free : (s.coreAt k).task = none)
  (awake : s.awake (k / 8) = true)
include task placed running free awake

theorem execTaskStart_of_placed (fresh : t.saved = false) : execTaskStart t.id s = .next (s.startTask t k) := by
  unfold execTaskStart
  rw [task]
  dsimp only
  rw [placed]
  exact if_pos (by simp [running, fresh, free, awake])

theorem execTaskResume_of_placed {r : Nat} (saved : t.saved = true) (number : t.rtn = some r) :
    execTaskResume t.id s = .next (s.resumeTask t k r) := by
  unfold execTaskResume
  rw [task]
  dsimp only
  rw [placed, number]
  exact if_pos (by simp [running, saved, free, awake])
end

/-! ### The start state (R195, R196) -/

theorem startStrand_win_length (pc : Word) (parked : Bool) (g : List Word) {win : List Word} (small : win.length ≤ 96) :
    (startStrand pc parked g win).win.length = 96 := by
  change (win ++ List.replicate (96 - win.length) 0).length = 96
  rw [List.length_append, List.length_replicate]
  omega

/-- The first four arguments of a descriptor. -/
theorem take_four_arguments {d : List Word} (long : d.length = 32) :
    ((d.drop 8).take 16).take 4 = [d.getD 8 0, d.getD 9 0, d.getD 10 0, d.getD 11 0] := by
  rw [List.drop_eq_getElem_cons (by omega), List.drop_eq_getElem_cons (by omega), List.drop_eq_getElem_cons (by omega),
    List.drop_eq_getElem_cons (by omega)]
  simp only [List.take_succ_cons, List.take_zero, List.getD_eq_getElem?_getD, List.getElem?_eq_getElem, long, Nat.reduceLT,
    Option.getD_some, Nat.reduceAdd]

/-- Every strand starts with the counts and the first arguments in its g registers, and with an empty call stack. -/
theorem Core.startState_strand (c : Core) {d : List Word} (index count lid dmem : Word) (long : d.length = 32) {t : Strand}
    (strand : t ∈ [(c.startState d index count lid dmem).l, (c.startState d index count lid dmem).x,
      (c.startState d index count lid dmem).s, (c.startState d index count lid dmem).k]) :
    t.g = [index, count, lid, d.getD 8 0, d.getD 9 0, d.getD 10 0, d.getD 11 0] ∧ t.depth = 0 ∧ t.wb = 0 ∧ t.sb = 0 ∧
      t.spillb = 0 ∧ t.pend = 0 ∧ t.win.length = 96 := by
  obtain ⟨pc, parked, win, small, rfl⟩ : ∃ pc parked win, win.length ≤ 96 ∧
      t = startStrand pc parked ([index, count, lid] ++ ((d.drop 8).take 16).take 4) win := by
    have args : ((d.drop 8).take 16).length ≤ 96 := (List.length_take_le ..).trans (by decide)
    simp only [List.mem_cons, List.not_mem_nil, or_false] at strand
    rcases strand with rfl | rfl | rfl | rfl
    · exact ⟨_, _, [], Nat.zero_le _, rfl⟩
    · exact ⟨_, _, [], Nat.zero_le _, rfl⟩
    · exact ⟨_, _, [], Nat.zero_le _, rfl⟩
    · exact ⟨_, _, _, args, rfl⟩
  rw [take_four_arguments long]
  exact ⟨rfl, rfl, rfl, rfl, rfl, rfl, startStrand_win_length _ _ _ small⟩

section
variable (c : Core) (d : List Word) (index count lid dmem : Word)

/-- In split mode L and K begin at their own entries, and L begins parked where its entry is not valid. -/
theorem Core.startState_of_split (split : (d.getD 0 0).getLsbD 51 = true) :
    (c.startState d index count lid dmem).l.pc = BitVec.ofNat 64 (bitsAt (d.getD 0 0) 52 12 * 2 ^ 52 + bitsAt (d.getD 1 0) 0 48) ∧
    (c.startState d index count lid dmem).k.pc = BitVec.ofNat 64 (bitsAt (d.getD 0 0) 52 12 * 2 ^ 52 + bitsAt (d.getD 4 0) 0 48) ∧
    (c.startState d index count lid dmem).l.parked = !(d.getD 1 0).getLsbD 63 := by
  unfold Core.startState startStrand bitAt
  simp only [split, if_true, Bool.true_and, and_self]

/-- In bundle mode L and K begin at the first and the last slot of the bundle at K's entry. -/
theorem Core.startState_of_bundled (bundled : (d.getD 0 0).getLsbD 51 = false) :
    (c.startState d index count lid dmem).l.pc = BitVec.ofNat 64 (bitsAt (d.getD 0 0) 52 12 * 2 ^ 52 + bitsAt (d.getD 4 0) 0 48) ∧
    (c.startState d index count lid dmem).k.pc = BitVec.ofNat 64 (bitsAt (d.getD 0 0) 52 12 * 2 ^ 52 + bitsAt (d.getD 4 0) 0 48 + 12) := by
  unfold Core.startState startStrand bitAt
  simp only [bundled, Bool.false_eq_true, if_false, Nat.mul_zero, Nat.reduceMul, Nat.reduceAdd, Nat.add_zero,
    Nat.add_assoc, and_self]
end

end Sys2Proof.Machine

namespace Sys2Proof.Machine

/-- Settles O32: each decision by the lemma of its branch, a start and a resumption by what the load of the array answers, and the start state by its
strands. -/
theorem placement : Obligations.Placement := by
  refine ⟨?decisions, ?starts, ?startState⟩
  case decisions =>
    rintro s u k t rfl
    refine ⟨execPlacementDecision_of_numbered, execPlacementDecision_of_unnumbered,
      fun _ _ _ _ idle empty => execPlacementDecision_of_choice idle empty, execPlacementDecision_of_vain,
      execPlacementDecision_of_busy, fun _ _ _ _ => execPreload_of_choice, execPreload_of_pagerCore, ?vacate, execBudgetOverrun_of_used⟩
    case vacate =>
      rintro task latency queued unserved full lowest v rfl
      exact execVacate_of_borrowed task latency queued unserved full lowest
  case starts =>
    intro s u k t task placed running free awake
    refine ⟨?start, ?resume, State.loadArray_of_unbound, fun _ _ _ => State.loadArray_of_badImage⟩
    case start =>
      rintro fresh rfl
      have starts := execTaskStart_of_placed task placed running free awake fresh
      refine ⟨fun a n es bound image => ?_, fun v refused => ?_⟩
      · exact starts.trans (congrArg Host.Outcome.next (State.startTask_of_loaded (State.loadArray_of_image bound image)))
      · exact starts.trans (congrArg Host.Outcome.next (State.startTask_of_refused refused))
    case resume =>
      rintro r saved number rfl
      have resumes := execTaskResume_of_placed task placed running free awake saved number
      refine ⟨fun a n es v bound image applied => ?_, fun v refused => ?_⟩
      · exact resumes.trans (congrArg Host.Outcome.next (State.resumeTask_of_loaded (State.loadArray_of_image bound image) applied))
      · exact resumes.trans (congrArg Host.Outcome.next (State.resumeTask_of_refused refused))
  case startState =>
    intro c d index count lid dmem long
    exact ⟨fun t => c.startState_strand index count lid dmem long, rfl, rfl, rfl, c.startState_of_split d index count lid dmem,
      c.startState_of_bundled d index count lid dmem⟩

end Sys2Proof.Machine

namespace Sys2Proof

/-! ### Fields of a word as bits (R249)

`pack` adds its fields to the fixed bits. Fields that stand apart may as well be joined by `|||`, and then every field of the sum is read part by
part: this is how an encoded word is read back. -/

theorem add_eq_or_of_and_eq_zero {a b : Nat} (apart : a &&& b = 0) : a + b = a ||| b := by
  have small (n : Nat) (h : n ≤ a + b) : n % 2 ^ (a + b) = n := Nat.mod_eq_of_lt (h.trans_lt Nat.lt_two_pow_self)
  have h := congrArg BitVec.toNat (BitVec.add_eq_or_of_and_eq_zero (BitVec.ofNat (a + b) a) (BitVec.ofNat (a + b) b)
    (by rw [← BitVec.ofNat_and, apart]))
  simpa [small a (by omega), small b (by omega), small (a + b) le_rfl] using h

/-- The field value `v` standing at bit `p` of a word. -/
def placed {l : Nat} (v : BitVec l) (p : Nat) : Nat := v.toNat * 2 ^ p

theorem testBit_placed {l : Nat} (v : BitVec l) (p i : Nat) : (placed v p).testBit i = (decide (p ≤ i) && v.getLsbD (i - p)) :=
  Nat.testBit_mul_two_pow ..

theorem testBit_fld (n lo len i : Nat) : (fld n lo len).testBit i = (decide (i < len) && n.testBit (i + lo)) := by
  rw [fld, Nat.testBit_mod_two_pow, Nat.testBit_div_two_pow]

theorem placed_eq_zero_iff {l : Nat} (v : BitVec l) (p : Nat) : placed v p = 0 ↔ v = 0 := by
  rw [placed, Nat.mul_eq_zero, BitVec.toNat_eq]
  simp

theorem ofNat_placed {l : Nat} (v : BitVec l) : BitVec.ofNat l (placed v 0) = v := by simp [placed]

theorem placed_ne {l : Nat} {v c : BitVec l} (h : (v != c) = true) : placed v 0 ≠ c.toNat := by
  simpa [placed, BitVec.toNat_eq] using h

theorem bf_eq (n len lo : Nat) : bf n len lo = BitVec.ofNat len (fld n lo len) := BitVec.eq_of_toNat_eq (by simp [bf, fld])

theorem major_eq (n : Nat) : n / 2 ^ 25 % 64 = fld n 25 6 := rfl

theorem fld_literal (b lo len : Nat) : fld (no_index (OfNat.ofNat b)) lo len = b / 2 ^ lo % 2 ^ len := rfl

theorem fld_or (a b lo len : Nat) : fld (a ||| b) lo len = fld a lo len ||| fld b lo len :=
  Nat.eq_of_testBit_eq fun i => by simp only [testBit_fld, Nat.testBit_or, Bool.and_or_distrib_left]

section
variable {p l : Nat} (v : BitVec l)

theorem fld_placed_outside {lo len : Nat} (apart : lo + len ≤ p ∨ p + l ≤ lo) : fld (placed v p) lo len = 0 :=
  Nat.eq_of_testBit_eq fun i => by
    simp only [testBit_fld, testBit_placed, Nat.zero_testBit, Bool.and_eq_false_imp, decide_eq_true_eq]
    exact fun _ _ => BitVec.getLsbD_of_ge _ _ (by omega)

theorem fld_placed_inside {lo len : Nat} (low : lo ≤ p) (high : p + l ≤ lo + len) : fld (placed v p) lo len = placed v (p - lo) :=
  Nat.eq_of_testBit_eq fun i => by
    rw [Bool.eq_iff_iff]
    simp only [testBit_fld, testBit_placed, Bool.and_eq_true, decide_eq_true_eq]
    have moved : i + lo - p = i - (p - lo) := by omega
    rw [moved]
    exact ⟨fun h => ⟨by omega, h.2.2⟩, fun h => ⟨by have := BitVec.lt_of_getLsbD h.2; omega, by omega, h.2⟩⟩

theorem placed_and_placed {q m : Nat} (u : BitVec m) (apart : p + l ≤ q ∨ q + m ≤ p) : placed v p &&& placed u q = 0 :=
  Nat.eq_of_testBit_eq fun i => by
    simp only [Nat.testBit_and, testBit_placed, Nat.zero_testBit, Bool.and_eq_false_imp, Bool.and_eq_true, decide_eq_true_eq]
    exact fun ⟨_, hv⟩ _ => BitVec.getLsbD_of_ge _ _ (by have := BitVec.lt_of_getLsbD hv; omega)

theorem and_placed {b : Nat} (free : b / 2 ^ p % 2 ^ l = 0) : b &&& placed v p = 0 :=
  Nat.eq_of_testBit_eq fun i => by
    simp only [Nat.testBit_and, testBit_placed, Nat.zero_testBit, Bool.and_eq_false_imp, decide_eq_true_eq]
    intro hb hp
    refine BitVec.getLsbD_of_ge _ _ (Nat.le_of_not_lt fun hi => ?_)
    have bit := testBit_fld b p l (i - p)
    rw [fld, free, Nat.zero_testBit, Nat.sub_add_cancel hp, hb, decide_eq_true hi] at bit
    exact Bool.false_ne_true bit

theorem packNat_cons {b : Nat} {fs : List (Nat × Nat)} (free : b &&& placed v p = 0) :
    packNat b ((v.toNat, p) :: fs) = packNat (b ||| placed v p) fs := by
  rw [packNat, ← add_eq_or_of_and_eq_zero free, placed]
end

theorem packNat_nil (b : Nat) : packNat b [] = b := rfl

theorem packNat_add (b c : Nat) (fs : List (Nat × Nat)) : packNat (b + c) fs = b + packNat c fs := by
  induction fs generalizing c with
  | nil => rfl
  | cons f fs ih => rw [packNat, packNat, Nat.add_assoc, ih]

theorem fld_pack (b : Nat) (fs : List (Nat × Nat)) {lo len : Nat} (inside : lo + len ≤ 32) :
    fld (pack b fs).toNat lo len = fld (packNat b fs) lo len :=
  Nat.eq_of_testBit_eq fun i => by
    simp only [testBit_fld, pack, BitVec.toNat_ofNat, Nat.testBit_mod_two_pow]
    by_cases h : i < len
    · simp [h, show i + lo < 32 by omega]
    · simp [h]

theorem fld_eq_split (n lo a b c : Nat) : fld n lo (a + b) = c ↔ fld n lo a = c % 2 ^ a ∧ fld n (lo + a) b = c / 2 ^ a := by
  have low : fld n lo (a + b) % 2 ^ a = fld n lo a := by rw [fld, Nat.mod_mod_of_dvd _ (pow_dvd_pow 2 (Nat.le_add_right a b))]; rfl
  have high : fld n lo (a + b) / 2 ^ a = fld n (lo + a) b := by
    rw [fld, pow_add, Nat.mod_mul_right_div_self, Nat.div_div_eq_div_mul, ← pow_add]; rfl
  rw [← low, ← high]
  refine ⟨fun h => by simp [h], fun ⟨hl, hh⟩ => ?_⟩
  rw [← Nat.div_add_mod (fld n lo (a + b)) (2 ^ a), hl, hh, Nat.div_add_mod]

/-! The common decoder tests runs of bits that overlap; these cut its tests where the fields of every format begin. -/

theorem fld_0_25 (n c : Nat) : fld n 0 25 = c ↔ fld n 0 20 = c % 2 ^ 20 ∧ fld n 20 5 = c / 2 ^ 20 := fld_eq_split n 0 20 5 c
theorem fld_0_20 (n c : Nat) : fld n 0 20 = c ↔ fld n 0 15 = c % 2 ^ 15 ∧ fld n 15 5 = c / 2 ^ 15 := fld_eq_split n 0 15 5 c
theorem fld_0_15 (n c : Nat) : fld n 0 15 = c ↔ fld n 0 10 = c % 2 ^ 10 ∧ fld n 10 5 = c / 2 ^ 10 := fld_eq_split n 0 10 5 c
theorem fld_0_10 (n c : Nat) : fld n 0 10 = c ↔ fld n 0 8 = c % 2 ^ 8 ∧ fld n 8 2 = c / 2 ^ 8 := fld_eq_split n 0 8 2 c
theorem fld_3_22 (n c : Nat) : fld n 3 22 = c ↔ fld n 3 5 = c % 2 ^ 5 ∧ fld n 8 17 = c / 2 ^ 5 := fld_eq_split n 3 5 17 c
theorem fld_8_17 (n c : Nat) : fld n 8 17 = c ↔ fld n 8 7 = c % 2 ^ 7 ∧ fld n 15 10 = c / 2 ^ 7 := fld_eq_split n 8 7 10 c

/-! ### Reading an encoded word

For each constructor the word is written as its fixed bits joined with its placed fields, and the decoder's tests are read off it. -/

theorem decodeCommon_of_encode {i : Instr} {w : IWord} (fields : i.fieldsOk = true) (stands : i.half = .common) (coded : encode i = some w) :
    fld w.toNat 31 1 = 0 ∧ decodeCommon w.toNat = some i := by
  rw [decodeCommon, major_eq]
  cases i
  all_goals try contradiction
  all_goals
    cases coded
    simp only [fld_pack, packNat_cons, packNat_nil, placed_and_placed, and_placed, Nat.and_or_distrib_right, fld_or, fld_placed_outside,
      fld_placed_inside, fld_literal, bf_eq, ofNat_placed, ↓fld_0_25, ↓fld_0_20, ↓fld_0_15, ↓fld_0_10, ↓fld_3_22, ↓fld_8_17, Nat.reduceAdd,
      Nat.reduceSub, Nat.reduceLeDiff, Nat.reducePow, Nat.reduceDiv, Nat.reduceMod, Nat.reduceEqDiff, le_refl, or_true, or_false, Nat.or_self,
      Nat.or_zero, Nat.zero_or, zero_add, and_true, true_and, false_and, and_false, ↓reduceIte, Nat.or_eq_zero_iff, and_self,
      OfNat.ofNat_ne_zero, OfNat.zero_ne_ofNat, one_ne_zero, zero_ne_one]
  case mfc => exact if_neg (placed_ne fields)
  case mtc => exact if_neg (placed_ne fields)

theorem decodePrivate_of_encode {σ : StrandId} {i : Instr} {w : IWord} (scalar : σ ≠ .x) (stands : i.half = .only σ)
    (coded : encode i = some w) : fld w.toNat 31 1 = 1 ∧ decodePrivate σ w.toNat = some i := by
  cases i
  all_goals try contradiction
  all_goals cases stands
  any_goals exact absurd rfl scalar
  all_goals
    cases coded
    simp only [decodePrivate, decodeL, decodeS, decodeK, major_eq, -Nat.reducePow]
    simp only [fld_pack, packNat_cons, packNat_nil, placed_and_placed, and_placed, Nat.and_or_distrib_right, fld_or, fld_placed_outside,
      fld_placed_inside, fld_literal, bf_eq, ofNat_placed, ↓fld_0_25, ↓fld_0_20, ↓fld_0_15, ↓fld_0_10, Nat.reduceAdd, Nat.reduceSub,
      Nat.reduceLeDiff, Nat.reducePow, Nat.reduceDiv, Nat.reduceMod, Nat.reduceEqDiff, le_refl, or_true, or_false, Nat.or_self, Nat.or_zero,
      Nat.zero_or, zero_add, and_true, false_and, ↓reduceIte, and_self, one_ne_zero]

theorem decodeFerle_of_encode {i : Instr} {w : IWord} (stands : i.half = .ferle) (coded : encode i = some w) :
    decodeFerle w.toNat = some i := by
  rw [decodeFerle]
  cases i
  all_goals try contradiction
  all_goals
    cases coded
    simp [fld_pack, packNat_cons, packNat_nil, placed_and_placed, and_placed, Nat.and_or_distrib_right, fld_or, fld_placed_outside,
      fld_placed_inside, fld_literal, bf_eq, ofNat_placed]

/-! ### X words (R252, R268) -/

/-- The ten fields of an X word below its major. -/
def xfields (o : XOp) : List (Nat × Nat) :=
  [(o.vd.toNat, 21), (o.va.toNat, 17), (o.vb.toNat, 13), (o.ty.toNat, 10), (o.m.toNat, 7), (o.ma.toNat, 6), (o.lat.toNat, 4),
   (o.sync.toNat, 2), (o.pa.toNat, 1), (o.pb.toNat, 0)]

theorem packNat_xfields (o : XOp) : packNat 0 (xfields o) =
    placed o.vd 21 ||| placed o.va 17 ||| placed o.vb 13 ||| placed o.ty 10 ||| placed o.m 7 ||| placed o.ma 6 ||| placed o.lat 4 |||
      placed o.sync 2 ||| placed o.pa 1 ||| placed o.pb 0 := by
  simp [xfields, packNat_cons, packNat_nil, placed_and_placed, Nat.and_or_distrib_right]

theorem packNat_xfields_lt (o : XOp) : packNat 0 (xfields o) < 2 ^ 25 := by
  have := o.vd.isLt; have := o.va.isLt; have := o.vb.isLt; have := o.ty.isLt; have := o.m.isLt
  have := o.ma.isLt; have := o.lat.isLt; have := o.sync.isLt; have := o.pa.isLt; have := o.pb.isLt
  simp only [xfields, packNat]
  omega

theorem fld_add_multiple (k m : Nat) {lo len e : Nat} (below : lo + len ≤ e) : fld (k * 2 ^ e + m) lo len = fld m lo len := by
  obtain ⟨d, rfl⟩ := Nat.exists_eq_add_of_le below
  have h : k * 2 ^ (lo + len + d) + m = m + 2 ^ lo * (2 ^ len * (2 ^ d * k)) := by ring
  rw [fld, fld, h, Nat.add_mul_div_left _ _ (by positivity), Nat.add_mul_mod_self_left]

section
variable (mj : Nat) (o : XOp)

theorem fld_xword {lo len : Nat} (below : lo + len ≤ 25) : fld (xword mj o).toNat lo len = fld (packNat 0 (xfields o)) lo len := by
  have base : packNat (2 ^ 31 + mj * 2 ^ 25) (xfields o) = (2 ^ 6 + mj) * 2 ^ 25 + packNat 0 (xfields o) := by
    rw [← packNat_add]; congr 1; ring
  rw [xword, fld_pack _ _ (by omega), ← xfields, base, fld_add_multiple _ _ below]

theorem xword_toNat : (xword mj o).toNat = (2 ^ 31 + mj * 2 ^ 25 + packNat 0 (xfields o)) % 2 ^ 32 := by
  rw [xword, ← xfields, pack, BitVec.toNat_ofNat, ← Nat.add_zero (2 ^ 31 + mj * 2 ^ 25), packNat_add, Nat.add_zero]

theorem xword_major : fld (xword mj o).toNat 25 6 = mj % 64 := by
  have low := packNat_xfields_lt o
  rw [xword_toNat, fld]
  omega

theorem xop_xword : xop (xword mj o).toNat = o := by
  simp [xop, bf_eq, fld_xword, packNat_xfields, fld_or, fld_placed_outside, fld_placed_inside, ofNat_placed]

/-! What each test of a reserved field says of the operand. -/

theorem xword_pb : fld (xword mj o).toNat 0 1 = 0 ↔ o.pb = 0 := by
  simp [fld_xword, packNat_xfields, fld_or, fld_placed_outside, fld_placed_inside, placed_eq_zero_iff]
theorem xword_peeks : fld (xword mj o).toNat 0 2 = 0 ↔ o.pa = 0 ∧ o.pb = 0 := by
  simp [fld_xword, packNat_xfields, fld_or, fld_placed_outside, fld_placed_inside, placed_eq_zero_iff]
theorem xword_ma : fld (xword mj o).toNat 6 1 = 0 ↔ o.ma = 0 := by
  simp [fld_xword, packNat_xfields, fld_or, fld_placed_outside, fld_placed_inside, placed_eq_zero_iff]
theorem xword_mask : fld (xword mj o).toNat 6 4 = 0 ↔ o.m = 0 ∧ o.ma = 0 := by
  simp [fld_xword, packNat_xfields, fld_or, fld_placed_outside, fld_placed_inside, placed_eq_zero_iff]
theorem xword_sources : fld (xword mj o).toNat 6 15 = 0 ↔ (((o.va = 0 ∧ o.vb = 0) ∧ o.ty = 0) ∧ o.m = 0) ∧ o.ma = 0 := by
  simp [fld_xword, packNat_xfields, fld_or, fld_placed_outside, fld_placed_inside, placed_eq_zero_iff]
theorem xword_ty : fld (xword mj o).toNat 10 3 = 0 ↔ o.ty = 0 := by
  simp [fld_xword, packNat_xfields, fld_or, fld_placed_outside, fld_placed_inside, placed_eq_zero_iff]
theorem xword_vb : fld (xword mj o).toNat 13 4 = 0 ↔ o.vb = 0 := by
  simp [fld_xword, packNat_xfields, fld_or, fld_placed_outside, fld_placed_inside, placed_eq_zero_iff]
theorem xword_vd : fld (xword mj o).toNat 21 4 = 0 ↔ o.vd = 0 := by
  simp [fld_xword, packNat_xfields, fld_or, fld_placed_outside, fld_placed_inside, placed_eq_zero_iff]
end

theorem xword_half {mj : Nat} (small : mj < 64) (o : XOp) : fld (xword mj o).toNat 31 1 = 1 := by
  have low := packNat_xfields_lt o
  rw [xword_toNat, fld]
  omega

theorem decodeX_of_encode {i : Instr} {w : IWord} (fields : i.fieldsOk = true) (stands : i.half = .only .x) (coded : encode i = some w) :
    fld w.toNat 31 1 = 1 ∧ decodeX w.toNat = some i := by
  cases i
  all_goals cases stands
  all_goals
    cases coded
    refine ⟨xword_half (by decide) _, ?_⟩
    rw [decodeX, major_eq, xword_major, xop_xword]
    simp only [Nat.reduceMod]
  case vabs | vneg | vrcp | vrsq | vexp2 | vlog2 | vmov | viabs | vmnot | viota =>
    obtain ⟨vb, pb⟩ := Bool.and_eq_true_iff.mp fields
    exact if_pos ⟨(xword_pb ..).2 (eq_of_beq pb), (xword_vb ..).2 (eq_of_beq vb)⟩
  case vcmp | vsel => exact if_pos ((xword_ma ..).2 (eq_of_beq fields))
  case vcvt | vpack | vunpk =>
    obtain ⟨ma, pb⟩ := Bool.and_eq_true_iff.mp fields
    exact if_pos ⟨(xword_pb ..).2 (eq_of_beq pb), (xword_ma ..).2 (eq_of_beq ma)⟩
  case vscacc => exact if_pos ((xword_ty ..).2 (eq_of_beq fields))
  case vredadd | vredmax | vredmin =>
    obtain ⟨rest, pb⟩ := Bool.and_eq_true_iff.mp fields
    obtain ⟨vb, ma⟩ := Bool.and_eq_true_iff.mp rest
    exact if_pos ⟨(xword_pb ..).2 (eq_of_beq pb), (xword_ma ..).2 (eq_of_beq ma), (xword_vb ..).2 (eq_of_beq vb)⟩
  case vclr =>
    obtain ⟨rest, pb⟩ := Bool.and_eq_true_iff.mp fields
    obtain ⟨rest, pa⟩ := Bool.and_eq_true_iff.mp rest
    refine if_pos ⟨(xword_peeks ..).2 ⟨eq_of_beq pa, eq_of_beq pb⟩, (xword_sources ..).2 ?_⟩
    simpa only [Bool.and_eq_true, beq_iff_eq] using rest
  case vmpop | vmfirst =>
    obtain ⟨rest, pb⟩ := Bool.and_eq_true_iff.mp fields
    obtain ⟨rest, ma⟩ := Bool.and_eq_true_iff.mp rest
    obtain ⟨vd, vb⟩ := Bool.and_eq_true_iff.mp rest
    exact if_pos ⟨(xword_pb ..).2 (eq_of_beq pb), (xword_ma ..).2 (eq_of_beq ma), (xword_vb ..).2 (eq_of_beq vb), (xword_vd ..).2 (eq_of_beq vd)⟩
  case vxtr =>
    obtain ⟨rest, ma⟩ := Bool.and_eq_true_iff.mp fields
    obtain ⟨vd, m⟩ := Bool.and_eq_true_iff.mp rest
    exact if_pos ⟨(xword_mask ..).2 ⟨eq_of_beq m, eq_of_beq ma⟩, (xword_vd ..).2 (eq_of_beq vd)⟩

/-! ### The word of a decoded instruction

A field is the difference of two numbers: the word with the bits below the field cleared, and with those below its end cleared. The fields and
the fixed bits of an instruction lie side by side, so their sum telescopes to the word. -/

/-- A number with its bits below `k` cleared. -/
def clearBelow (n k : Nat) : Int := ↑(n / 2 ^ k * 2 ^ k)

theorem fld_scaled (n lo len : Nat) : (fld n lo len : Int) * 2 ^ lo = clearBelow n lo - clearBelow n (lo + len) := by
  have h : fld n lo len * 2 ^ lo + n / 2 ^ (lo + len) * 2 ^ (lo + len) = n / 2 ^ lo * 2 ^ lo := by
    rw [fld, pow_add, ← Nat.div_div_eq_div_mul, mul_comm (2 ^ lo) (2 ^ len), ← mul_assoc, ← add_mul, Nat.mod_add_div']
  unfold clearBelow
  push_cast [← h]
  ring

theorem fld_eq_iff (n lo len v : Nat) : fld n lo len = v ↔ clearBelow n lo - clearBelow n (lo + len) = v * 2 ^ lo := by
  rw [← fld_scaled, mul_left_inj' (by positivity)]
  norm_cast

theorem bf_toNat (n len lo : Nat) : (bf n len lo).toNat = fld n lo len := BitVec.toNat_ofNat ..

theorem clearBelow_zero (n : Nat) : clearBelow n 0 = n := by simp [clearBelow]

theorem clearBelow_of_lt {n k : Nat} (h : n < 2 ^ k) : clearBelow n k = 0 := by simp [clearBelow, Nat.div_eq_of_lt h]

theorem pack_of_sum {n base : Nat} {fs : List (Nat × Nat)} (sum : (packNat base fs : Int) = clearBelow n 0) :
    pack base fs = BitVec.ofNat 32 n := by
  rw [clearBelow_zero] at sum
  rw [pack, Nat.cast_inj.1 sum]

/-- Whatever the decoder's answer names stands in `half` and has the word `n`. -/
def EncodesTo (n : Nat) (half : Half) (answer : Option Instr) : Prop :=
  ∀ i, answer = some i → encode i = some (BitVec.ofNat 32 n) ∧ i.half = half

section
variable {n : Nat} {half : Half}

theorem encodesTo_none : EncodesTo n half none := fun _ h => nomatch h

theorem encodesTo_ite {c : Prop} [Decidable c] {a e : Option Instr} (taken : c → EncodesTo n half a) (other : EncodesTo n half e) :
    EncodesTo n half (if c then a else e) := by
  split
  · exact taken ‹c›
  · exact other

theorem encodesTo_some {base : Nat} {fs : List (Nat × Nat)} {i : Instr} (coded : encode i = some (pack base fs)) (stands : i.half = half)
    (sum : (packNat base fs : Int) = clearBelow n 0) : EncodesTo n half (some i) := by
  rintro _ ⟨⟩
  exact ⟨by rw [coded, pack_of_sum sum], stands⟩
end

section
variable {n : Nat} (word : n < 2 ^ 32)
include word

theorem encodesTo_decodeCommon (half : fld n 31 1 = 0) : EncodesTo n .common (decodeCommon n) := by
  have top := clearBelow_of_lt word
  rw [decodeCommon, major_eq]
  split
  all_goals repeat' refine encodesTo_ite (fun fixed => ?_) ?_
  any_goals exact encodesTo_none
  all_goals
    refine encodesTo_some rfl rfl ?_
    simp only [packNat, bf_toNat, Nat.cast_add, Nat.cast_mul, Nat.cast_pow, Nat.cast_ofNat, fld_scaled, fld_eq_iff, Nat.reduceAdd, top] at *
    omega

theorem encodesTo_decodePrivate {σ : StrandId} (scalar : σ ≠ .x) (half : fld n 31 1 = 1) : EncodesTo n (.only σ) (decodePrivate σ n) := by
  have top := clearBelow_of_lt word
  cases σ
  case x => contradiction
  case' l => rw [decodePrivate, decodeL, major_eq]
  case' s => rw [decodePrivate, decodeS, major_eq]
  case' k => rw [decodePrivate, decodeK, major_eq]
  all_goals split
  all_goals repeat' refine encodesTo_ite (fun fixed => ?_) ?_
  any_goals exact encodesTo_none
  all_goals
    refine encodesTo_some rfl rfl ?_
    simp only [packNat, bf_toNat, Nat.cast_add, Nat.cast_mul, Nat.cast_pow, Nat.cast_ofNat, fld_scaled, fld_eq_iff, Nat.reduceAdd, top] at *
    omega

theorem xword_xop {mj : Nat} (half : fld n 31 1 = 1) (major : fld n 25 6 = mj) : xword mj (xop n) = BitVec.ofNat 32 n := by
  have top := clearBelow_of_lt word
  refine pack_of_sum ?_
  simp only [xop]
  simp only [packNat, bf_toNat, Nat.cast_add, Nat.cast_mul, Nat.cast_pow, Nat.cast_ofNat, fld_scaled, fld_eq_iff, Nat.reduceAdd, top] at *
  omega

theorem encodesTo_xword {mj : Nat} {i : Instr} (half : fld n 31 1 = 1) (major : fld n 25 6 = mj) (coded : encode i = some (xword mj (xop n)))
    (stands : i.half = .only .x) : EncodesTo n (.only .x) (some i) := by
  rintro _ ⟨⟩
  exact ⟨by rw [coded, xword_xop word half major], stands⟩

theorem encodesTo_decodeX (half : fld n 31 1 = 1) : EncodesTo n (.only .x) (decodeX n) := by
  rw [decodeX, major_eq]
  split
  all_goals repeat' refine encodesTo_ite (fun _ => ?_) ?_
  any_goals exact encodesTo_none
  all_goals exact encodesTo_xword word half ‹_› rfl rfl
end

/-! ### The two halves of a word (R248) -/

theorem half_eq_zero_iff {n : Nat} : n < 2 ^ 32 → (fld n 31 1 = 0 ↔ n < 2 ^ 31) := by
  unfold fld
  omega

theorem half_eq_one_iff {n : Nat} : n < 2 ^ 32 → (fld n 31 1 = 1 ↔ ¬n < 2 ^ 31) := by
  unfold fld
  omega

section
variable {σ : StrandId} {w : IWord} {i : Instr}

theorem decodeWord_of_common (half : fld w.toNat 31 1 = 0) (decoded : decodeCommon w.toNat = some i) : decodeWord σ w = .ok i := by
  unfold decodeWord
  simp only [if_pos ((half_eq_zero_iff w.isLt).1 half), decoded]

theorem decodeWord_of_strandHalf (half : fld w.toNat 31 1 = 1) (decoded : decodePrivate σ w.toNat = some i) : decodeWord σ w = .ok i := by
  unfold decodeWord
  simp only [if_neg ((half_eq_one_iff w.isLt).1 half), decoded]

theorem decoded_of_decodeWord (h : decodeWord σ w = .ok i) :
    (fld w.toNat 31 1 = 0 ∧ decodeCommon w.toNat = some i) ∨ (fld w.toNat 31 1 = 1 ∧ decodePrivate σ w.toNat = some i) := by
  rw [half_eq_zero_iff w.isLt, half_eq_one_iff w.isLt]
  unfold decodeWord at h
  by_cases low : w.toNat < 2 ^ 31
  · simp only [if_pos low] at h
    cases decoded : decodeCommon w.toNat with
    | none => simp [decoded] at h
    | some j => exact .inl ⟨low, by simpa [decoded] using h⟩
  · simp only [if_neg low] at h
    cases decoded : decodePrivate σ w.toNat with
    | none => simp [decoded] at h
    | some j => exact .inr ⟨low, by simpa [decoded] using h⟩

theorem issuedBy_of_common (stands : i.half = .common) : i.issuedBy σ = true := by rw [Instr.issuedBy, stands]

theorem issuedBy_of_only (stands : i.half = .only σ) : i.issuedBy σ = true := by rw [Instr.issuedBy, stands]; exact beq_self_eq_true σ

theorem half_of_issuedBy (issued : i.issuedBy σ = true) : i.half = .common ∨ i.half = .only σ := by
  unfold Instr.issuedBy at issued
  split at issued
  · exact .inl ‹_›
  · exact .inr (eq_of_beq issued ▸ ‹_›)
  · contradiction

theorem decodePrivate_of_fields (fields : i.fieldsOk = true) (stands : i.half = .only σ) (coded : encode i = some w) :
    fld w.toNat 31 1 = 1 ∧ decodePrivate σ w.toNat = some i := by
  by_cases x : σ = .x
  · subst x
    exact decodeX_of_encode fields stands coded
  · exact decodePrivate_of_encode x stands coded

theorem encodesTo_strandHalf {n : Nat} (word : n < 2 ^ 32) (half : fld n 31 1 = 1) : EncodesTo n (.only σ) (decodePrivate σ n) := by
  by_cases x : σ = .x
  · subst x
    exact encodesTo_decodeX word half
  · exact encodesTo_decodePrivate word x half
end

end Sys2Proof

namespace Sys2Proof.Machine

/-- Settles O54: in each half the decoder's tests are read off the word of the constructor. -/
theorem decodeOfEncode : Obligations.DecodeOfEncode := by
  intro i w fields coded
  refine ⟨fun σ issued => ?_, fun hart => decodeFerle_of_encode hart coded⟩
  rcases half_of_issuedBy issued with common | only
  · obtain ⟨half, decoded⟩ := decodeCommon_of_encode fields common coded
    exact decodeWord_of_common half decoded
  · obtain ⟨half, decoded⟩ := decodePrivate_of_fields fields only coded
    exact decodeWord_of_strandHalf half decoded

/-- Settles O55: behind every branch of the decoder stands an instruction whose fields and fixed bits add up to the word. -/
theorem encodeOfDecode : Obligations.EncodeOfDecode := by
  intro σ w i decoded
  rcases decoded_of_decodeWord decoded with ⟨half, common⟩ | ⟨half, own⟩
  · obtain ⟨coded, stands⟩ := encodesTo_decodeCommon w.isLt half i common
    exact ⟨by rw [coded, BitVec.ofNat_toNat, BitVec.setWidth_eq], issuedBy_of_common stands⟩
  · obtain ⟨coded, stands⟩ := encodesTo_strandHalf w.isLt half i own
    exact ⟨by rw [coded, BitVec.ofNat_toNat, BitVec.setWidth_eq], issuedBy_of_only stands⟩

/-- Settles O49: a word that some instruction has decodes to it, and the major of `0xFFFFFFFF` is reserved in every half. -/
theorem decodedWords : Obligations.DecodedWords := by
  refine ⟨(decodeOfEncode .nop _ rfl rfl).1 .k rfl, (decodeOfEncode (.add 9 10 11) _ rfl rfl).1 .l rfl,
    (decodeOfEncode (.ldd 5 9 1 0) _ rfl rfl).1 .l rfl, (decodeOfEncode (.std 6 9 2 0) _ rfl rfl).1 .s rfl,
    (decodeOfEncode (.dsync 3) _ rfl rfl).1 .k rfl, (decodeOfEncode (.vadd _) 0x8099A119 rfl rfl).1 .x rfl, ?reserved,
    (decodeOfEncode (.fget 12 11 10) 0x00C5850B rfl rfl).2 rfl, (decodeOfEncode (.fres 12 11 10) 0x00C5950B rfl rfl).2 rfl,
    (decodeOfEncode (.fext 12 11 10) 0x00C5A50B rfl rfl).2 rfl⟩
  case reserved =>
    intro σ
    cases σ <;> rfl

end Sys2Proof.Machine

namespace Sys2Proof.Machine

/-! ### Numbers of control registers (R264) -/

theorem Crn.ofNum_reserved {n : Nat} (reserved : ReservedCrn n) : Crn.ofNum n = none := by
  unfold Crn.ofNum
  repeat rw [if_neg (by omega)]

theorem Crn.ofNum_owa {n : Nat} (low : 0x10 ≤ n) (high : n < 0x20) : Crn.ofNum n = some (.owa (n - 0x10)) := by
  unfold Crn.ofNum
  iterate 11 rw [if_neg (by omega)]
  exact if_pos ⟨low, high⟩

theorem Crn.ofNum_slot : ∀ n < 16, Crn.ofNum (BitVec.ofNat 8 (0x10 + n)).toNat = some (.owa n) := by decide

theorem Crn.ofNum_level : ∀ k < 6, Crn.ofNum (BitVec.ofNat 8 (0x30 + k)).toNat = some (.lcnt k) ∧
    Crn.ofNum (BitVec.ofNat 8 (0x38 + k)).toNat = some (.lbeg k) ∧ Crn.ofNum (BitVec.ofNat 8 (0x40 + k)).toNat = some (.lend k) := by decide

/-- The numbers of the loop registers are not the one that has a word of its own, and keep their value in a word. -/
theorem levelNumbers : ∀ k < 6, BitVec.ofNat 8 (0x30 + k) ≠ 11 ∧ BitVec.ofNat 8 (0x38 + k) ≠ 11 ∧ BitVec.ofNat 8 (0x40 + k) ≠ 11 ∧
    (BitVec.ofNat 8 (0x38 + k)).setWidth 64 = BitVec.ofNat 64 (0x38 + k) ∧
    (BitVec.ofNat 8 (0x40 + k)).setWidth 64 = BitVec.ofNat 64 (0x40 + k) := by decide

/-- The registers of a trap level stand at twelve numbers in a row, and only K may write them, in a handler (R264). -/
theorem Crn.ofNum_bank : ∀ n < 12, ∃ r, Crn.ofNum (BitVec.ofNat 8 (0x24 + n)).toNat = some r ∧ r.supOnly = false ∧
    ∀ σ tl, r.writable σ tl = (σ == .k && tl != 0) := by
  intro n small
  interval_cases n <;> exact ⟨_, rfl, rfl, fun _ _ => rfl⟩

/-- What the checks turn away, and a word whose operand is a number that has a word of its own, is `ILLEGAL` alike. -/
theorem issue_of_refused {i : Instr} {sem : Sem} {s : State} (fresh : Fresh s) (issued : i.issuedBy s.cur = true)
    (anywhere : ∀ σ, bundleForbids i σ = false) (refused : sem s = .error (.trap 1 0 0)) : issue i sem s = State.raisesIllegal s i := by
  by_cases fields : i.fieldsOk = true
  · exact issue_ill fresh issued fields (bundles_any anywhere) refused
  · exact issue_of_illegal fresh (slotChecked_of_foreign (.inr (Bool.not_eq_true _ ▸ fields)))

/-! ### Reading a control register (R309) -/

section
variable {s : State} {rd : BitVec 5} {n : BitVec 8} {r : Crn} (fresh : Fresh s)
include fresh

theorem exec_mfc_of_unnamed (unnamed : Crn.ofNum n.toNat = none) : exec (.mfc rd n) s = State.raisesIllegal s (.mfc rd n) :=
  issue_of_refused fresh rfl (fun _ => rfl) (by rw [semMfc, unnamed]; rfl)

theorem exec_mfc_of_unreadable (named : Crn.ofNum n.toNat = some r) (barred : r.readable s.cur = false) :
    exec (.mfc rd n) s = State.raisesIllegal s (.mfc rd n) :=
  issue_of_refused fresh rfl (fun _ => rfl) (by rw [semMfc, named]; simp [barred])

theorem exec_mfc_of_readable (named : Crn.ofNum n.toNat = some r) (readable : r.readable s.cur = true) (written : Written s [rd])
    {v : Word} (reads : s.readCrn r = v) : exec (.mfc rd n) s = .next (s.setG rd v).retired := by
  have fields : (Instr.mfc rd n).fieldsOk = true := bne_iff_ne.2 fun nine => by rw [nine] at named; contradiction
  refine issue_next fresh rfl fields (bundles_any fun _ => rfl) ?_
  rw [semMfc, named]
  simp [readable, ready_of_written written, reads]

theorem exec_mfcXq_of_head (k : s.cur = .k) (written : Written s [rd]) {e : FEntry} {rest : List FEntry} (head : QueueHead s 16 e rest) :
    exec (.mfcXq rd) s = .next ((s.withQueue 16 rest).setG rd (e.data.setWidth 64)).retired := by
  refine issue_next fresh rfl rfl (bundles_any fun _ => rfl) ?_
  obtain ⟨queue, landed⟩ := head
  simp [semMfcXq, k, ready_of_written written, State.popLanded, Core.headsLanded, Core.occ, queue, landed, State.withQueue]

theorem exec_mfcXq_of_short (k : s.cur = .k) (written : Written s [rd]) (short : s.core.headsLanded 16 1 = false) :
    exec (.mfcXq rd) s = .next (s.modMe fun t => { t with wait := 3 }) := by
  refine issue_wait fresh rfl rfl (bundles_any fun _ => rfl) ?_
  simp [semMfcXq, k, ready_of_written written, State.popLanded, short]

theorem exec_mfcXq_of_notK (notK : s.cur ≠ .k) : exec (.mfcXq rd) s = State.raisesIllegal s (.mfcXq rd) :=
  issue_of_refused fresh rfl (fun _ => rfl) (by
    have foreign : (s.cur != .k) = true := bne_iff_ne.2 notK
    simp [semMfcXq, foreign])
end

/-! ### Writing a control register (R309) -/

section
variable {s : State} {ra : BitVec 5} {n : BitVec 8} {r : Crn} (fresh : Fresh s)
include fresh

theorem exec_mtc_of_unnamed (unnamed : Crn.ofNum n.toNat = none) : exec (.mtc ra n) s = State.raisesIllegal s (.mtc ra n) :=
  issue_of_refused fresh rfl (fun _ => rfl) (by rw [semMtc, unnamed]; rfl)

theorem exec_mtc_of_user (named : Crn.ofNum n.toNat = some r) (reserved : r.supOnly = true) (user : s.sup = false) :
    exec (.mtc ra n) s = State.raisesPriv s (.mtc ra n) := by
  have fields : (Instr.mtc ra n).fieldsOk = true := bne_iff_ne.2 fun eleven => by
    rw [eleven] at named
    cases named
    contradiction
  refine issue_priv fresh rfl fields (bundles_any fun _ => rfl) ?_
  rw [semMtc, named]
  simp [reserved, user]

section
variable (named : Crn.ofNum n.toNat = some r) (allowed : (r.supOnly && !s.sup) = false)
include named allowed

theorem exec_mtc_of_unwritable (barred : r.writable s.cur s.core.tl = false) : exec (.mtc ra n) s = State.raisesIllegal s (.mtc ra n) := by
  exact issue_of_refused fresh rfl (fun _ => rfl) (by rw [semMtc, named]; simp [allowed, barred])

variable (writable : r.writable s.cur s.core.tl = true) (written : Written s [ra])
include writable written

theorem exec_mtc_of_refused (refused : s.crnRefuses r (s.g ra) = true) : exec (.mtc ra n) s = State.raisesIllegal s (.mtc ra n) := by
  exact issue_of_refused fresh rfl (fun _ => rfl) (by rw [semMtc, named]; simp [allowed, writable, ready_of_written written, refused])

variable (own : n ≠ 11) (accepts : s.crnRefuses r (s.g ra) = false)
include own accepts

theorem exec_mtc_of_active (active : s.loopReg r = true) : exec (.mtc ra n) s = .next (s.trapStop s.cur 6 0 (n.setWidth 64)) := by
  refine issue_stop (e := .trap 6 0 (n.setWidth 64)) fresh rfl (bne_iff_ne.2 own) (bundles_any fun _ => rfl) ?_
  rw [semMtc, named]
  simp [allowed, writable, ready_of_written written, accepts, active]

theorem exec_mtc_of_writable (calm : s.loopReg r = false) {t : State} (writes : s.writeCrn r (s.g ra) = t) :
    exec (.mtc ra n) s = .next t.retired := by
  refine issue_next fresh rfl (bne_iff_ne.2 own) (bundles_any fun _ => rfl) ?_
  rw [semMtc, named]
  simp [allowed, writable, ready_of_written written, accepts, calm, writes]
end

theorem exec_mtcQ3_of_room (k : s.cur = .k) (written : Written s [ra]) (free : (s.core.queue 15).length < 8) :
    exec (.mtcQ3 ra) s = .next (s.withQueue 15 (s.core.queue 15 ++
      [{ data := (s.g ra).setWidth 1024, due := 0, src := 0, landed := true }])).retired := by
  refine issue_next fresh rfl rfl (bundles_any fun _ => rfl) ?_
  simp [semMtcQ3, k, ready_of_written written, room, fifoDepth, Core.occ, Nat.not_lt.2 free, State.withQueue, Core.push]

theorem exec_mtcQ3_of_full (k : s.cur = .k) (written : Written s [ra]) (full : 8 ≤ (s.core.queue 15).length) :
    exec (.mtcQ3 ra) s = .next (s.modMe fun t => { t with wait := 4 }) := by
  refine issue_wait fresh rfl rfl (bundles_any fun _ => rfl) ?_
  simp [semMtcQ3, k, ready_of_written written, room, fifoDepth, Core.occ, Nat.lt_succ_of_le full]

theorem exec_mtcQ3_of_notK (notK : s.cur ≠ .k) : exec (.mtcQ3 ra) s = State.raisesIllegal s (.mtcQ3 ra) :=
  issue_of_refused fresh rfl (fun _ => rfl) (by
    have foreign : (s.cur != .k) = true := bne_iff_ne.2 notK
    simp [semMtcQ3, foreign])
end

/-! ### The registers, one by one (R264, R285, R299, R420) -/

theorem Core.headsLanded_of_empty {c : Core} {code : Nat} (empty : c.queue code = []) : c.headsLanded code 1 = false := by
  simp [Core.headsLanded, Core.occ, empty]

theorem Core.headsLanded_of_pending {c : Core} {code : Nat} {e : FEntry} {rest : List FEntry} (head : c.queue code = e :: rest)
    (pending : e.landed = false) : c.headsLanded code 1 = false := by
  simp [Core.headsLanded, head, pending]

section
variable {s : State} {rd : BitVec 5} (fresh : Fresh s)
include fresh

theorem exec_mfc_common (written : Written s [rd]) :
    ∀ p ∈ [((0x00 : BitVec 8), s.core.xfctl), (0x01, s.quartz), (0x02, BitVec.ofNat 64 s.core.view.ctx), (0x03, s.core.dmem),
        (0x04, s.core.dphase), (0x05, s.core.vshare), (0x06, s.core.slpcfg), (0x07, s.core.specst), (0x0A, s.me.spillb)],
      exec (.mfc rd p.1) s = .next (s.setG rd p.2).retired := by
  simp only [List.forall_mem_cons]
  refine ⟨?_, ?_, ?_, ?_, ?_, ?_, ?_, ?_, ?_, by simp⟩ <;> exact exec_mfc_of_readable fresh rfl rfl written rfl

theorem exec_mfc_level (written : Written s [rd]) {k : Nat} (level : k < 6) :
    exec (.mfc rd (BitVec.ofNat 8 (0x30 + k))) s = .next (s.setG rd (s.ownLevel k).cnt).retired ∧
    exec (.mfc rd (BitVec.ofNat 8 (0x38 + k))) s = .next (s.setG rd (s.ownLevel k).beg).retired ∧
    exec (.mfc rd (BitVec.ofNat 8 (0x40 + k))) s = .next (s.setG rd (s.ownLevel k).fin).retired := by
  obtain ⟨count, first, last⟩ := Crn.ofNum_level k level
  exact ⟨exec_mfc_of_readable fresh count rfl written rfl, exec_mfc_of_readable fresh first rfl written rfl,
    exec_mfc_of_readable fresh last rfl written rfl⟩

/-- The registers that K alone reads: the others find the word `ILLEGAL`. -/
theorem exec_mfc_ownOfK {n : BitVec 8} {r : Crn} {v : Word} (written : Written s [rd]) (named : Crn.ofNum n.toNat = some r)
    (own : r.readable s.cur = (s.cur == .k)) (reads : s.readCrn r = v) :
    (s.cur = .k → exec (.mfc rd n) s = .next (s.setG rd v).retired) ∧
    (s.cur ≠ .k → exec (.mfc rd n) s = State.raisesIllegal s (.mfc rd n)) :=
  ⟨fun k => exec_mfc_of_readable fresh named (own.trans (beq_iff_eq.2 k)) written reads,
    fun notK => exec_mfc_of_unreadable fresh named (own.trans (beq_eq_false_iff_ne.2 notK))⟩

theorem exec_mfc_supervisor (written : Written s [rd]) :
    ∀ p ∈ [((0x08 : BitVec 8), s.core.pgreply), (0x20, BitVec.ofNat 64 s.core.tl), (0x21, s.core.trapen), (0x22, s.core.tvec),
        (0x24, s.core.bank1.cause), (0x25, s.core.bank2.cause), (0x26, s.core.bank1.val), (0x27, s.core.bank2.val),
        (0x28, s.core.bank1.pcl), (0x29, s.core.bank1.pcx), (0x2A, s.core.bank1.pcs), (0x2B, s.core.bank1.pck),
        (0x2C, s.core.bank2.pcl), (0x2D, s.core.bank2.pcx), (0x2E, s.core.bank2.pcs), (0x2F, s.core.bank2.pck)],
      (s.cur = .k → exec (.mfc rd p.1) s = .next (s.setG rd p.2).retired) ∧
      (s.cur ≠ .k → exec (.mfc rd p.1) s = State.raisesIllegal s (.mfc rd p.1)) := by
  simp only [List.forall_mem_cons]
  refine ⟨?_, ?_, ?_, ?_, ?_, ?_, ?_, ?_, ?_, ?_, ?_, ?_, ?_, ?_, ?_, ?_, by simp⟩ <;> exact exec_mfc_ownOfK fresh written rfl rfl rfl

theorem exec_mfc_slot (written : Written s [rd]) {n : Nat} (slot : n < 16) :
    (s.cur = .k → exec (.mfc rd (BitVec.ofNat 8 (0x10 + n))) s =
      .next (s.setG rd (s.reg (clusterBase s.core.cluster + 0x080 + 8 * n))).retired) ∧
    (s.cur ≠ .k → exec (.mfc rd (BitVec.ofNat 8 (0x10 + n))) s = State.raisesIllegal s (.mfc rd (BitVec.ofNat 8 (0x10 + n)))) :=
  exec_mfc_ownOfK fresh written (Crn.ofNum_slot n slot) rfl rfl

theorem exec_mfc_reserved {n : BitVec 8} (reserved : n = 0x0B ∨ ReservedCrn n.toNat) :
    exec (.mfc rd n) s = State.raisesIllegal s (.mfc rd n) := by
  rcases reserved with rfl | reserved
  · exact exec_mfc_of_unreadable fresh rfl rfl
  · exact exec_mfc_of_unnamed fresh (Crn.ofNum_reserved reserved)
end

section
variable {s : State} {ra : BitVec 5} {v : Word} (fresh : Fresh s)
include fresh

section
variable (written : Written s [ra]) (value : s.g ra = v)
include written value

theorem exec_mtc_xfctl (may : s.cur = .x ∨ (s.cur = .k ∧ s.core.tl ≠ 0)) :
    exec (.mtc ra 0x00) s = .next ({ s with core := { s.core with xfctl := v &&& 0x71F } } : State).retired := by
  have writable : Crn.writable .xfctl s.cur s.core.tl = true := by simpa [Crn.writable] using may
  subst value
  exact exec_mtc_of_writable fresh rfl rfl writable written (by decide) rfl rfl rfl

theorem exec_mtc_shared (sup : s.sup = true) :
    exec (.mtc ra 0x03) s = .next ({ s with core := { s.core with dmem := v &&& 0xFFFFFFFFFFFF0000 } } : State).retired ∧
    exec (.mtc ra 0x05) s = .next ({ s with core := { s.core with vshare := v &&& 0xF } } : State).retired := by
  subst value
  constructor <;> exact exec_mtc_of_writable fresh rfl (by simp [sup]) rfl written (by decide) rfl rfl rfl

theorem exec_mtc_slot (sup : s.sup = true) {n : Nat} (slot : n < 16) : exec (.mtc ra (BitVec.ofNat 8 (0x10 + n))) s =
    .next (s.setFld (clusterBase s.core.cluster + 0x080 + 8 * n) 0 11 (bitsAt v 0 11)).retired := by
  have own : BitVec.ofNat 8 (0x10 + n) ≠ 11 := fun same => absurd (congrArg BitVec.toNat same) (by simp; omega)
  subst value
  exact exec_mtc_of_writable fresh (Crn.ofNum_slot n slot) (by simp [sup]) rfl written own rfl rfl rfl

/-- The registers that K alone writes, with whatever the register refuses. -/
theorem exec_mtc_ownOfK {n : BitVec 8} {r : Crn} {t : State} (k : s.cur = .k) (named : Crn.ofNum n.toNat = some r) (own : n ≠ 11)
    (user : r.supOnly = false) (mine : r.writable s.cur s.core.tl = (s.cur == .k)) (accepts : s.crnRefuses r v = false)
    (calm : s.loopReg r = false) (writes : s.writeCrn r v = t) : exec (.mtc ra n) s = .next t.retired := by
  subst value
  exact exec_mtc_of_writable fresh named (by simp [user]) (mine.trans (beq_iff_eq.2 k)) written own accepts calm writes

theorem exec_mtc_pgreply (k : s.cur = .k) : exec (.mtc ra 0x08) s =
    .next (if v.getLsbD 63 then { s with core := { s.core with pgreply := setBits s.core.pgreply 63 1 0 } } else s : State).retired := by
  refine exec_mtc_ownOfK fresh written value k rfl (by decide) rfl rfl rfl rfl ?_
  by_cases taken : v.getLsbD 63 = true <;> simp only [State.writeCrn, bitAt, taken, if_true, if_false, Bool.false_eq_true]

theorem exec_mtc_tvec (k : s.cur = .k) :
    (bitsAt v 48 4 = 0 → bitsAt v 0 2 = 0 → exec (.mtc ra 0x22) s = .next ({ s with core := { s.core with tvec := v } } : State).retired) ∧
    ((bitsAt v 48 4 ≠ 0 ∨ bitsAt v 0 2 ≠ 0) → exec (.mtc ra 0x22) s = State.raisesIllegal s (.mtc ra 0x22)) := by
  constructor
  · intro kind aligned
    exact exec_mtc_ownOfK fresh written value k rfl (by decide) rfl rfl (by simp [State.crnRefuses, kind, aligned]) rfl rfl
  · intro bad
    subst value
    exact exec_mtc_of_refused fresh rfl rfl (beq_iff_eq.2 k) written (by simpa [State.crnRefuses] using bad)

theorem exec_mtc_spillb :
    (bitsAt v 0 6 = 0 → s.me.sb = 0 → exec (.mtc ra 0x0A) s = .next (s.modMe fun t => { t with spillb := v }).retired) ∧
    ((bitsAt v 0 6 ≠ 0 ∨ 0 < s.me.sb) → exec (.mtc ra 0x0A) s = State.raisesIllegal s (.mtc ra 0x0A)) := by
  subst value
  constructor
  · intro aligned empty
    exact exec_mtc_of_writable fresh rfl rfl rfl written (by decide) (by simp [State.crnRefuses, aligned, empty]) rfl rfl
  · intro bad
    exact exec_mtc_of_refused fresh rfl rfl rfl written (by simpa [State.crnRefuses] using bad)

theorem exec_mtc_bank (k : s.cur = .k) (handler : s.core.tl ≠ 0) {n : Nat} (bank : n = 1 ∨ n = 2) :
    exec (.mtc ra (BitVec.ofNat 8 (0x23 + n))) s =
      .next ({ s with core := s.core.setBank n { s.core.bank n with cause := v &&& 0xFFFFF } } : State).retired ∧
    exec (.mtc ra (BitVec.ofNat 8 (0x25 + n))) s = .next ({ s with core := s.core.setBank n { s.core.bank n with val := v } } : State).retired ∧
    ∀ σ : StrandId, exec (.mtc ra (BitVec.ofNat 8 (0x24 + 4 * n + σ.num))) s =
      .next ({ s with core := s.core.setBank n ((s.core.bank n).setPc σ (v &&& ~~~(2 : Word))) } : State).retired := by
  have may : (s.cur == .k && s.core.tl != 0) = true := by simp [k, handler]
  subst value
  rcases bank with rfl | rfl <;> refine ⟨?_, ?_, fun σ => by
    cases σ <;> exact exec_mtc_of_writable fresh rfl rfl (by exact may) written (by decide) rfl rfl rfl⟩
  all_goals exact exec_mtc_of_writable fresh rfl rfl (by exact may) written (by decide) rfl rfl rfl

theorem exec_mtc_level {k : Nat} (level : k < 6) :
    exec (.mtc ra (BitVec.ofNat 8 (0x30 + k))) s = .next (s.modLevel s.cur k fun l => { l with cnt := v }).retired ∧
    ((s.ownLevel k).active = true →
      exec (.mtc ra (BitVec.ofNat 8 (0x38 + k))) s = .next (s.trapStop s.cur 6 0 (BitVec.ofNat 64 (0x38 + k))) ∧
      exec (.mtc ra (BitVec.ofNat 8 (0x40 + k))) s = .next (s.trapStop s.cur 6 0 (BitVec.ofNat 64 (0x40 + k)))) ∧
    ((s.ownLevel k).active = false →
      exec (.mtc ra (BitVec.ofNat 8 (0x38 + k))) s = .next (s.modLevel s.cur k fun l => { l with beg := v }).retired ∧
      exec (.mtc ra (BitVec.ofNat 8 (0x40 + k))) s = .next (s.modLevel s.cur k fun l => { l with fin := v }).retired) := by
  obtain ⟨count, first, last⟩ := Crn.ofNum_level k level
  obtain ⟨ownCount, ownFirst, ownLast, wideFirst, wideLast⟩ := levelNumbers k level
  subst value
  refine ⟨exec_mtc_of_writable fresh count rfl rfl written ownCount rfl rfl rfl, fun active => ?_, fun calm => ?_⟩
  · rw [← wideFirst, ← wideLast]
    exact ⟨exec_mtc_of_active fresh first rfl rfl written ownFirst rfl active, exec_mtc_of_active fresh last rfl rfl written ownLast rfl active⟩
  · exact ⟨exec_mtc_of_writable fresh first rfl rfl written ownFirst rfl calm rfl,
      exec_mtc_of_writable fresh last rfl rfl written ownLast rfl calm rfl⟩
end

theorem exec_mtc_xfctl_barred (barred : s.cur = .l ∨ s.cur = .s ∨ (s.cur = .k ∧ s.core.tl = 0)) :
    exec (.mtc ra 0x00) s = State.raisesIllegal s (.mtc ra 0x00) := by
  refine exec_mtc_of_unwritable fresh rfl rfl ?_
  rcases barred with l | scalar | ⟨k, base⟩
  · simp [Crn.writable, l]
  · simp [Crn.writable, scalar]
  · simp [Crn.writable, k, base]

theorem exec_mtc_supervisor (user : s.sup = false) {n : BitVec 8} (reserved : n = 0x03 ∨ n = 0x05 ∨ (0x10 ≤ n.toNat ∧ n.toNat < 0x20)) :
    exec (.mtc ra n) s = State.raisesPriv s (.mtc ra n) := by
  rcases reserved with rfl | rfl | ⟨low, high⟩
  · exact exec_mtc_of_user fresh rfl rfl user
  · exact exec_mtc_of_user fresh rfl rfl user
  · exact exec_mtc_of_user fresh (Crn.ofNum_owa low high) rfl user

theorem exec_mtc_notK (notK : s.cur ≠ .k) :
    ∀ n ∈ [(0x06 : BitVec 8), 0x07, 0x08, 0x21, 0x22], exec (.mtc ra n) s = State.raisesIllegal s (.mtc ra n) := by
  have other : (s.cur == .k) = false := beq_eq_false_iff_ne.2 notK
  simp only [List.forall_mem_cons]
  refine ⟨?_, ?_, ?_, ?_, ?_, by simp⟩ <;> exact exec_mtc_of_unwritable fresh rfl rfl (by exact other)

theorem exec_mtc_bank_barred (barred : s.cur ≠ .k ∨ s.core.tl = 0) {n : Nat} (small : n < 12) :
    exec (.mtc ra (BitVec.ofNat 8 (0x24 + n))) s = State.raisesIllegal s (.mtc ra (BitVec.ofNat 8 (0x24 + n))) := by
  obtain ⟨r, named, user, writable⟩ := Crn.ofNum_bank n small
  refine exec_mtc_of_unwritable fresh named (by simp [user]) ?_
  rw [writable]
  rcases barred with notK | base
  · simp [beq_eq_false_iff_ne.2 notK]
  · simp [base]

theorem exec_mtc_readOnly {n : BitVec 8} (barred : n ∈ [(0x01 : BitVec 8), 0x02, 0x04, 0x09, 0x20] ∨ ReservedCrn n.toNat) :
    exec (.mtc ra n) s = State.raisesIllegal s (.mtc ra n) := by
  rcases barred with listed | reserved
  · simp only [List.mem_cons, List.not_mem_nil, or_false] at listed
    rcases listed with rfl | rfl | rfl | rfl | rfl
    case inr.inr.inr.inl => exact exec_mtc_of_unnamed fresh rfl
    all_goals exact exec_mtc_of_unwritable fresh rfl rfl rfl
  · exact exec_mtc_of_unnamed fresh (Crn.ofNum_reserved reserved)
end

/-- Settles O10: each number is looked up once (`Crn.ofNum`), and the reader's and the writer's rule applied to the register found. -/
theorem controlRegisters : Obligations.ControlRegisters := by
  unfold Obligations.ControlRegisters
  constructor
  · intro s rd fresh written
    exact ⟨exec_mfc_common fresh written, fun k => exec_mfc_level fresh written, exec_mfc_supervisor fresh written,
      fun k n slot => (exec_mfc_slot fresh written slot).1 k, fun k e rest => exec_mfcXq_of_head fresh k written,
      fun k empty => exec_mfcXq_of_short fresh k written (Core.headsLanded_of_empty empty),
      fun k e rest head pending => exec_mfcXq_of_short fresh k written (Core.headsLanded_of_pending head pending),
      fun notK => ⟨exec_mfcXq_of_notK fresh notK, fun n slot => (exec_mfc_slot fresh written slot).2 notK⟩,
      fun n => exec_mfc_reserved fresh⟩
  · intro s ra v fresh written value
    refine ⟨exec_mtc_xfctl fresh written value, exec_mtc_xfctl_barred fresh, fun sup => ?supervisor,
      fun user n => exec_mtc_supervisor fresh user, fun k => ?ownOfK,
      fun notK => ⟨exec_mtcQ3_of_notK fresh notK, exec_mtc_notK fresh notK⟩, fun k handler n => exec_mtc_bank fresh written value k handler,
      fun barred n => exec_mtc_bank_barred fresh barred, (exec_mtc_spillb fresh written value).1, (exec_mtc_spillb fresh written value).2,
      fun k level => (exec_mtc_level fresh written value level).1, fun k level => (exec_mtc_level fresh written value level).2.1,
      fun k level => (exec_mtc_level fresh written value level).2.2, fun n => exec_mtc_readOnly fresh⟩
    case supervisor =>
      obtain ⟨dmem, vshare⟩ := exec_mtc_shared fresh written value sup
      exact ⟨dmem, vshare, fun n => exec_mtc_slot fresh written value sup⟩
    case ownOfK =>
      obtain ⟨base, misplaced⟩ := exec_mtc_tvec fresh written value k
      refine ⟨?slpcfg, ?specst, exec_mtc_pgreply fresh written value k, ?trapen, base, misplaced,
        fun free => value ▸ exec_mtcQ3_of_room fresh k written free, exec_mtcQ3_of_full fresh k written⟩
      all_goals exact exec_mtc_ownOfK fresh written value k rfl (by decide) rfl rfl rfl rfl rfl

end Sys2Proof.Machine

namespace Sys2Proof.Machine

/-! ### The sync field (R263) -/

/-- What the sync field leaves where it does not wait: the token taken, then the place reserved. -/
def Core.afterSync (c : Core) (y : BitVec 2) (p q : Nat) : Core :=
  let c := if y.getLsbD 0 then c.popToken p else c
  if y.getLsbD 1 then c.setResv q (c.reserved q + 1) else c

section
variable {s : State} {w g : StrandId} {y : BitVec 2} (pair : partners s.cur = some (w, g))
include pair

theorem syncTake_of_noToken (takes : y.getLsbD 0 = true) (empty : s.core.token (pairOf w s.cur) = 0) : s.syncTake y = .error (.wait 1) := by
  simp only [State.syncTake, pair, takes, empty, beq_self_eq_true, Bool.and_self, if_true]

theorem syncTake_of_full (noShort : (y.getLsbD 0 && s.core.token (pairOf w s.cur) == 0) = false) (gives : y.getLsbD 1 = true)
    (full : s.core.tokenFull (pairOf s.cur g) = true) : s.syncTake y = .error (.wait 2) := by
  simp only [State.syncTake, pair, noShort, gives, full, Bool.and_self, Bool.false_eq_true, if_true, if_false]

theorem syncTake_of_free (noShort : (y.getLsbD 0 && s.core.token (pairOf w s.cur) == 0) = false)
    (noFull : (y.getLsbD 1 && s.core.tokenFull (pairOf s.cur g)) = false) :
    s.syncTake y = .ok ({ s with core := s.core.afterSync y (pairOf w s.cur) (pairOf s.cur g) },
      if y.getLsbD 1 then some (pairOf s.cur g) else none) := by
  simp only [State.syncTake, pair, noShort, noFull, Bool.false_eq_true, if_false, Core.afterSync]
end

/-- Settles O11: a code waits for the token it takes, then for the place it reserves, and else has both effects. -/
theorem syncField : Obligations.SyncField := by
  intro s w g pair p q
  have some_token (has : 0 < s.core.token p) : (s.core.token (pairOf w s.cur) == 0) = false := beq_eq_false_iff_ne.2 has.ne'
  have place (free : s.core.token q + s.core.reserved q < 63) : s.core.tokenFull (pairOf s.cur g) = false :=
    decide_eq_false (Nat.not_le.2 free)
  refine ⟨?nothing, fun has => ?takes, fun empty => ?short, fun free => ?gives, fun full => ?full, fun has free => ?both⟩
  case nothing => exact syncTake_of_free pair rfl rfl
  case takes => exact syncTake_of_free (y := 1) pair (some_token has) rfl
  case short => exact ⟨syncTake_of_noToken pair rfl empty, syncTake_of_noToken pair rfl empty⟩
  case gives => exact syncTake_of_free (y := 2) pair rfl (place free)
  case full => exact syncTake_of_full pair rfl rfl (decide_eq_true full)
  case both => exact syncTake_of_free (y := 3) pair (some_token has) (place free)

end Sys2Proof.Machine

namespace Sys2Proof.Machine

/-! ### A write of a register and the other registers (R254, R286) -/

/-- Two registers of a strand other than g0 have two places (R254, R286). -/
theorem Strand.key_injective {t : Strand} {r r' : BitVec 5} (one : r ≠ 0) (two : r' ≠ 0) (same : t.key r.toNat = t.key r'.toNat) : r = r' := by
  have pos : r.toNat ≠ 0 := fun h => one (BitVec.eq_of_toNat_eq h)
  have pos' : r'.toNat ≠ 0 := fun h => two (BitVec.eq_of_toNat_eq h)
  have small := r.isLt
  have small' := r'.isLt
  refine BitVec.eq_of_toNat_eq ?_
  unfold Strand.key at same
  split at same <;> split at same <;> omega

theorem Strand.getKey_setKey_of_ne {t : Strand} {k j : Nat} (v : Word) (other : k ≠ j) : (t.setKey k v).getKey j = t.getKey j := by
  unfold Strand.setKey Strand.getKey
  by_cases global : k < 7 <;> by_cases global' : j < 7 <;> simp only [global, global', if_true, if_false, List.getD_eq_getElem?_getD]
  · rw [List.getElem?_set_ne other]
  · rw [List.getElem?_set_ne (by omega)]

theorem Strand.get_set_of_ne {t : Strand} {r r' : BitVec 5} (v : Word) (other : r' ≠ r) : (t.set r v).get r' = t.get r' := by
  by_cases zero : r = 0
  · rw [Strand.set, if_pos zero]
  by_cases zero' : r' = 0
  · rw [Strand.get, Strand.get, if_pos zero', if_pos zero']
  have places : t.key r.toNat ≠ t.key r'.toNat := fun same => other (Strand.key_injective zero zero' same).symm
  have window : (t.set r v).key r'.toNat = t.key r'.toNat := by simp [Strand.key]
  rw [Strand.get, Strand.get, if_neg zero', if_neg zero', window, Strand.set, if_neg zero, Strand.getKey_setKey_of_ne v places]

/-! ### What a state keeps but for some registers -/

theorem State.sameOutside_fields {s t : State} (same : s.sameOutside t) : t.cur = s.cur ∧ t.mem = s.mem ∧ t.store = s.store := by
  rw [← (same : _ = s)]
  exact ⟨rfl, rfl, rfl⟩

/-- The slots of a loop level. -/
def Strand.slots (t : Strand) (k : Nat) : List StepSlot := (t.loops.getD k Loop.reset).slots

/-- A strand keeps its fields but for address, stage and wait, the slots of its levels, and its registers but for those of `W`. -/
structure Strand.KeepsBut (W : BitVec 5 → Prop) (t u : Strand) : Prop where
  fields : t.sameBut u
  regs : ∀ r, ¬W r → u.get r = t.get r
  slots : ∀ k, u.slots k = t.slots k

/-- A state keeps everything but the registers `W` of its strands, their loop levels and addresses. -/
structure State.KeepsBut (W : StrandId → BitVec 5 → Prop) (s t : State) : Prop where
  outside : s.sameOutside t
  core : s.core.sameBut t.core
  strands : ∀ τ, (s.strand τ).KeepsBut (W τ) (t.strand τ)

namespace Strand.KeepsBut
variable {W : BitVec 5 → Prop} {t u v : Strand}

theorem trans (first : t.KeepsBut W u) (second : u.KeepsBut W v) : t.KeepsBut W v where
  fields := by
    have one := first.fields
    have two := second.fields
    unfold Strand.sameBut at *
    rw [← one, ← two]
  regs r free := (second.regs r free).trans (first.regs r free)
  slots k := (second.slots k).trans (first.slots k)

/-- Another address, stage and wait. -/
theorem moved (t : Strand) (a : Word) (m n : Nat) : t.KeepsBut W { t with pc := a, stage := m, wait := n } := ⟨rfl, fun _ _ => rfl, fun _ => rfl⟩

theorem refl (t : Strand) : t.KeepsBut W t := moved t t.pc t.stage t.wait

theorem set (t : Strand) {r : BitVec 5} (v : Word) (mine : W r) : t.KeepsBut W (t.set r v) where
  fields := by
    unfold Strand.sameBut Strand.set Strand.setKey
    split
    · rfl
    · split <;> rfl
  regs r' free := Strand.get_set_of_ne v fun same => free (same ▸ mine)
  slots k := by simp [Strand.slots]

/-- A level that keeps its slots. -/
theorem level (t : Strand) (i : Nat) {f : Loop → Loop} (keeps : ∀ l, (f l).slots = l.slots) :
    t.KeepsBut W { t with loops := t.loops.set i (f (t.loops.getD i Loop.reset)) } where
  fields := rfl
  regs _ _ := rfl
  slots k := by
    simp only [Strand.slots, List.getD_eq_getElem?_getD, List.getElem?_set]
    split
    · next same =>
      subst same
      split
      · simp [keeps]
      · next short => rw [List.getElem?_eq_none (by omega)]
    · rfl
end Strand.KeepsBut

namespace State.KeepsBut
variable {W : StrandId → BitVec 5 → Prop} {s t u : State}

theorem trans (first : s.KeepsBut W t) (second : t.KeepsBut W u) : s.KeepsBut W u where
  outside := State.sameOutside_trans first.outside second.outside
  core := by
    have one := first.core
    have two := second.core
    unfold Core.sameBut at *
    rw [← one, ← two]
  strands τ := (first.strands τ).trans (second.strands τ)

theorem refl (s : State) : s.KeepsBut W s := ⟨rfl, rfl, fun _ => .refl _⟩

theorem slots (kept : s.KeepsBut W t) (σ : StrandId) (k : Nat) : (t.strand σ).slots k = (s.strand σ).slots k := (kept.strands σ).slots k

/-- The words that a loop end tests, and the strand that tests them, are the same. -/
theorem seqStrand (kept : s.KeepsBut W t) : t.seqStrand = s.seqStrand := by
  obtain ⟨cur, -, -⟩ := State.sameOutside_fields kept.outside
  have mode : t.core.wordMode = s.core.wordMode := by rw [← (kept.core : _ = s.core)]; rfl
  rw [State.seqStrand, State.seqStrand, State.wordMode, State.wordMode, cur, mode]

theorem modStrand {σ : StrandId} {f : Strand → Strand} (keeps : (s.strand σ).KeepsBut (W σ) (f (s.strand σ))) : s.KeepsBut W (s.modStrand σ f) where
  outside := rfl
  core := by cases σ <;> rfl
  strands τ := by
    by_cases own : τ = σ
    · subst own
      simpa [State.strand] using keeps
    · simpa [State.strand, Core.setStrand_strand_of_ne _ _ _ _ own] using Strand.KeepsBut.refl _

theorem modMe {f : Strand → Strand} (keeps : s.me.KeepsBut (W s.cur) (f s.me)) : s.KeepsBut W (s.modMe f) := modStrand keeps

theorem setG {r : BitVec 5} (v : Word) (mine : W s.cur r) : s.KeepsBut W (s.setG r v) := modMe (.set _ v mine)

theorem modLevel (σ : StrandId) (i : Nat) {f : Loop → Loop} (keeps : ∀ l, (f l).slots = l.slots) : s.KeepsBut W (s.modLevel σ i f) :=
  modStrand (.level _ i keeps)

theorem applySteps {l : List StepSlot} (mine : ∀ p ∈ l, W p.strand p.reg) : s.KeepsBut W (s.applySteps l) := by
  induction l generalizing s with
  | nil => exact refl s
  | cons p ps ih =>
    have step : s.KeepsBut W (s.modStrand p.strand fun t => t.set p.reg (t.get p.reg + p.stride)) :=
      modStrand (.set _ _ (mine p List.mem_cons_self))
    exact step.trans (ih fun q later => mine q (List.mem_cons_of_mem p later))

theorem loopTests {σ : StrandId} {unit : Nat} {is : List Nat} {next : Word} (mine : ∀ i ∈ is, ∀ p ∈ (s.strand σ).slots i, W p.strand p.reg) :
    s.KeepsBut W (s.loopTests σ unit is next).1 := by
  induction is generalizing s next with
  | nil => exact refl s
  | cons i is ih =>
    have counted : s.KeepsBut W (s.modLevel σ i fun l => { l with done := l.done + 1 }) := modLevel σ i fun _ => rfl
    have stepped := counted.trans (applySteps (mine i List.mem_cons_self))
    simp only [State.loopTests]
    split
    · exact stepped
    · have ended := stepped.trans (modLevel σ i (f := fun l => { l with active := false }) fun _ => rfl)
      exact ended.trans (ih fun j later p slot => mine j (List.mem_cons_of_mem i later) p (ended.slots σ j ▸ slot))

theorem goto (a : Word) : s.KeepsBut W (s.goto a) := by
  unfold State.goto
  split
  · exact modMe (.moved _ a _ _)
  · exact ⟨rfl, rfl, fun τ => by cases τ <;> exact .moved _ _ _ _⟩

theorem watchDone : s.KeepsBut W s.watchDone := ⟨rfl, rfl, fun _ => .refl _⟩

theorem countIssue : s.KeepsBut W s.countIssue := by
  unfold State.countIssue
  split
  · exact ⟨rfl, rfl, fun _ => .refl _⟩
  · exact refl s

theorem advance {next : Word} (mine : ∀ i ∈ s.endLevels, ∀ p ∈ (s.strand s.seqStrand).slots i, W p.strand p.reg) : s.KeepsBut W (s.advance next) :=
  (loopTests mine).trans ((modMe (.moved _ _ 0 0)).trans (goto _))
end State.KeepsBut

/-! ### The levels that a loop end tests -/

theorem mem_insLevel {ls : List Loop} {i j : Nat} {l : List Nat} (member : j ∈ insLevel ls i l) : j = i ∨ j ∈ l := by
  induction l with
  | nil => exact .inl (List.mem_singleton.1 member)
  | cons k ks ih =>
    unfold insLevel at member
    split at member
    · exact List.mem_cons.1 member
    · rcases List.mem_cons.1 member with rfl | deeper
      · exact .inr List.mem_cons_self
      · exact (ih deeper).imp_right (List.mem_cons_of_mem k)

theorem mem_foldl_insLevel {ls : List Loop} {j : Nat} {is l : List Nat} (member : j ∈ is.foldl (fun l i => insLevel ls i l) l) : j ∈ is ∨ j ∈ l := by
  induction is generalizing l with
  | nil => exact .inr member
  | cons i is ih =>
    rcases ih member with later | inserted
    · exact .inl (List.mem_cons_of_mem i later)
    · exact (mem_insLevel inserted).imp_left fun same => List.mem_cons.2 (.inl same)

theorem Strand.lt_of_mem_activeLevels {t : Strand} {k : Nat} (active : k ∈ t.activeLevels) : k < 6 := by
  rcases mem_foldl_insLevel active with level | absent
  · exact List.mem_range.1 (List.mem_filter.1 level).1
  · cases absent

theorem State.lt_of_mem_endLevels {s : State} {k : Nat} (ends : k ∈ s.endLevels) : k < 6 := by
  unfold State.endLevels at ends
  split at ends
  · cases ends
  · exact Strand.lt_of_mem_activeLevels (List.mem_filter.1 ends).1

/-- What a word that writes `rd` may write when it completes: `rd`, and the registers its loop ends step. -/
def WritesReg (s : State) (rd : BitVec 5) (τ : StrandId) (r : BitVec 5) : Prop := (τ = s.cur ∧ r = rd) ∨ StepsReg s τ r

theorem writesReg_of_slot {s t : State} {rd : BitVec 5} (kept : s.KeepsBut (WritesReg s rd) t) {k : Nat} (ends : k ∈ t.endLevels) {p : StepSlot}
    (slot : p ∈ (t.strand t.seqStrand).slots k) : WritesReg s rd p.strand p.reg := by
  rw [kept.seqStrand, kept.slots] at slot
  exact .inr ⟨k, State.lt_of_mem_endLevels ends, p, slot, rfl, rfl⟩

theorem State.keepsBut_retired {s t : State} {rd : BitVec 5} (kept : s.KeepsBut (WritesReg s rd) t) : s.KeepsBut (WritesReg s rd) t.retired := by
  have issued := kept.trans (State.KeepsBut.watchDone.trans .countIssue)
  simp only [State.retired, State.complete]
  split
  · exact issued.trans (.modMe (.moved _ _ tested outside))
  · exact issued.trans (.advance fun k ends p slot => writesReg_of_slot issued ends slot)

/-! ### The words that compute in registers (R278, R280, R281) -/

section
variable {s : State} {rd ra rb : BitVec 5}

theorem alu2_of_written (f : Word → Word → Word) (written : Written s [rd, ra, rb]) :
    alu2 f rd ra rb s = .ok (.next (s.setG rd (f (s.g ra) (s.g rb)))) := by
  simp [alu2, ready_of_written written]

theorem alu1_of_written (f : Word → Word) (written : Written s [rd, ra]) : alu1 f rd ra s = .ok (.next (s.setG rd (f (s.g ra)))) := by
  simp [alu1, ready_of_written written]

/-- Each register word issues one of the two shared forms. -/
theorem RegisterWord.exec {i : Instr} (word : RegisterWord rd ra rb i) :
    (∃ f, Machine.exec i s = issue i (alu2 f rd ra rb) s) ∨ ∃ f, Machine.exec i s = issue i (alu1 f rd ra) s := by
  cases word
  case clz | ctz | popc | addi | andi | ori | xori | slli | srli | srai | slti | sltiu | movhi => exact .inr ⟨_, rfl⟩
  all_goals exact .inl ⟨_, rfl⟩

/-- Every strand has the register words, in every slot, and they have no reserved field. -/
theorem RegisterWord.issues {i : Instr} {sem : Sem} {t : State} (word : RegisterWord rd ra rb i) (fresh : Fresh s) (result : sem s = .ok (.next t)) :
    issue i sem s = .next t.retired :=
  issue_next fresh (by cases word <;> rfl) (by cases word <;> rfl) (bundles_any fun _ => by cases word <;> rfl) result

theorem RegisterWord.exec_of_written {i : Instr} (word : RegisterWord rd ra rb i) (fresh : Fresh s) (written : Written s [rd, ra, rb]) :
    ∃ v, Machine.exec i s = .next (s.setG rd v).retired := by
  rcases word.exec with ⟨f, two⟩ | ⟨f, one⟩
  · exact ⟨_, two.trans (word.issues fresh (alu2_of_written f written))⟩
  · have fewer : Written s [rd, ra] := by
      simp only [Written, List.any_cons, List.any_nil, Bool.or_eq_false_iff, and_true] at written ⊢
      exact ⟨written.1, written.2.1⟩
    exact ⟨_, one.trans (word.issues fresh (alu1_of_written f fewer))⟩
end

/-! ### g0 (R254, R277) -/

theorem State.g_zero (s : State) : s.g 0 = 0 := by
  rw [State.g, Strand.get, if_pos rfl]

theorem State.setG_zero (s : State) (v : Word) : s.setG 0 v = s := by
  rw [State.setG, State.modMe_eq, Strand.set, if_pos rfl, State.setStrand, State.me, State.strand, Core.setStrand_self]

theorem written_zero {s : State} {rs : List (BitVec 5)} (written : Written s rs) : Written s (0 :: rs) := by
  simpa [Written, State.busy] using written

/-- Settles O56: a register word writes its destination and completes, and each part of the completion keeps all that it does not step. -/
theorem registerWordsFrame : Obligations.RegisterWordsFrame := by
  unfold Obligations.RegisterWordsFrame
  constructor
  · intro s t rd ra rb i word fresh written done
    obtain ⟨v, result⟩ := word.exec_of_written fresh written
    obtain rfl : (s.setG rd v).retired = t := Host.Outcome.next.inj (result.symm.trans done)
    obtain ⟨outside, core, strands⟩ := State.keepsBut_retired (.setG (W := WritesReg s rd) v (.inl ⟨rfl, rfl⟩))
    obtain ⟨-, memory, store⟩ := State.sameOutside_fields outside
    refine ⟨outside, core, fun a => by rw [memory, store]; exact ⟨rfl, rfl⟩, fun τ => (strands τ).fields, fun τ r other unstepped => ?_⟩
    exact (strands τ).regs r (not_or.2 ⟨fun ⟨own, same⟩ => other own same, unstepped⟩)
  · intro s v
    refine ⟨s.g_zero, s.setG_zero v, fun ra rb fresh written => ?_⟩
    obtain ⟨sum, added⟩ := RegisterWord.add.exec_of_written fresh (written_zero written)
    obtain ⟨next, stepped⟩ := (RegisterWord.addi (rb := rb) 1).exec_of_written fresh (written_zero written)
    exact ⟨added.trans (by rw [s.setG_zero]), stepped.trans (by rw [s.setG_zero])⟩

end Sys2Proof.Machine

namespace Sys2Proof.Machine

/-! ### What a register word writes (R278, R280, R281) -/

section
variable {s : State} {rd ra rb : BitVec 5} {i : Instr} {v : Word}

theorem RegisterWord.exec_alu2 (word : RegisterWord rd ra rb i) {f : Word → Word → Word} (form : Machine.exec i s = issue i (alu2 f rd ra rb) s)
    (fresh : Fresh s) (written : Written s [rd, ra, rb]) (value : f (s.g ra) (s.g rb) = v) : Machine.exec i s = .next (s.setG rd v).retired := by
  rw [form, word.issues fresh (alu2_of_written f written), value]

theorem RegisterWord.exec_alu1 (word : RegisterWord rd ra rb i) {f : Word → Word} (form : Machine.exec i s = issue i (alu1 f rd ra) s)
    (fresh : Fresh s) (written : Written s [rd, ra]) (value : f (s.g ra) = v) : Machine.exec i s = .next (s.setG rd v).retired := by
  rw [form, word.issues fresh (alu1_of_written f written), value]
end

theorem boolWord_slt (a b : Word) : boolWord (a.slt b) = if a.toInt < b.toInt then 1 else 0 := by simp [boolWord, BitVec.slt]

theorem boolWord_ult (a b : Word) : boolWord (a.ult b) = if a.toNat < b.toNat then 1 else 0 := by simp [boolWord, BitVec.ult]

theorem ite_slt (a b c d : Word) : (if a.slt b then c else d) = if a.toInt < b.toInt then c else d := by simp [BitVec.slt]

theorem ite_ult (a b c d : Word) : (if a.ult b then c else d) = if a.toNat < b.toNat then c else d := by simp [BitVec.ult]

/-- Settles O1: each word is one function of its two sources, which is the rule's. -/
theorem registerArithmetic : Obligations.RegisterArithmetic := by
  intro s rd ra rb fresh written
  refine ⟨?add, ?sub, ?and, ?or, ?xor, ?andn, ?sll, ?srl, ?sra, ?rol, ?mul, ?mulh, ?mulhu, ?min, ?max, ?minu, ?maxu, ?slt, ?sltu, ?seq⟩
  case add => exact RegisterWord.add.exec_alu2 rfl fresh written rfl
  case sub => exact RegisterWord.sub.exec_alu2 rfl fresh written rfl
  case and => exact RegisterWord.and.exec_alu2 rfl fresh written rfl
  case or => exact RegisterWord.or.exec_alu2 rfl fresh written rfl
  case xor => exact RegisterWord.xor.exec_alu2 rfl fresh written rfl
  case andn => exact RegisterWord.andn.exec_alu2 rfl fresh written rfl
  case sll => exact RegisterWord.sll.exec_alu2 rfl fresh written rfl
  case srl => exact RegisterWord.srl.exec_alu2 rfl fresh written rfl
  case sra => exact RegisterWord.sra.exec_alu2 rfl fresh written rfl
  case rol => exact RegisterWord.rol.exec_alu2 rfl fresh written rfl
  case mul => exact RegisterWord.mul.exec_alu2 rfl fresh written rfl
  case mulh => exact RegisterWord.mulh.exec_alu2 rfl fresh written rfl
  case mulhu => exact RegisterWord.mulhu.exec_alu2 rfl fresh written rfl
  case min => exact RegisterWord.min.exec_alu2 rfl fresh written (ite_slt ..)
  case max => exact RegisterWord.max.exec_alu2 rfl fresh written (ite_slt ..)
  case minu => exact RegisterWord.minu.exec_alu2 rfl fresh written (ite_ult ..)
  case maxu => exact RegisterWord.maxu.exec_alu2 rfl fresh written (ite_ult ..)
  case slt => exact RegisterWord.slt.exec_alu2 rfl fresh written (boolWord_slt ..)
  case sltu => exact RegisterWord.sltu.exec_alu2 rfl fresh written (boolWord_ult ..)
  case seq => exact RegisterWord.seq.exec_alu2 rfl fresh written (by simp [boolWord])

/-- The shifted register has no bit where the immediate stands. -/
theorem movhi_value (a : Word) (imm : BitVec 15) : (a <<< 15) ||| imm.setWidth 64 = a * 2 ^ 15 + imm.setWidth 64 := by
  have shift : a <<< 15 = a * 2 ^ 15 := BitVec.eq_of_toNat_eq (by simp [Nat.shiftLeft_eq])
  have apart : a <<< 15 &&& imm.setWidth 64 = 0 := by
    ext i small
    simp only [BitVec.getElem_and, BitVec.getElem_shiftLeft, BitVec.getElem_setWidth]
    by_cases low : i < 15
    · simp [low]
    · simp [BitVec.getLsbD_of_ge imm i (by omega)]
  rw [← shift, BitVec.add_eq_or_of_and_eq_zero _ _ apart]

/-- Settles O3: each word is one function of its source and its extended immediate. -/
theorem immediateForms : Obligations.ImmediateForms := by
  intro s rd ra fresh written
  refine ⟨fun imm => ⟨?addi, ?andi, ?ori, ?xori, ?movhi⟩, fun n => ⟨?slli, ?srli, ?srai⟩, fun imm => ⟨?slti, ?sltiu⟩⟩
  case addi => exact (RegisterWord.addi (rb := 0) imm).exec_alu1 rfl fresh written rfl
  case andi => exact (RegisterWord.andi (rb := 0) imm).exec_alu1 rfl fresh written rfl
  case ori => exact (RegisterWord.ori (rb := 0) imm).exec_alu1 rfl fresh written rfl
  case xori => exact (RegisterWord.xori (rb := 0) imm).exec_alu1 rfl fresh written rfl
  case movhi => exact (RegisterWord.movhi (rb := 0) imm).exec_alu1 rfl fresh written (movhi_value ..)
  case slli => exact (RegisterWord.slli (rb := 0) n).exec_alu1 rfl fresh written rfl
  case srli => exact (RegisterWord.srli (rb := 0) n).exec_alu1 rfl fresh written rfl
  case srai => exact (RegisterWord.srai (rb := 0) n).exec_alu1 rfl fresh written rfl
  case slti =>
    refine (RegisterWord.slti (rb := 0) imm).exec_alu1 rfl fresh written ?_
    rw [boolWord_slt, BitVec.toInt_signExtend_of_le (by decide)]
  case sltiu => exact (RegisterWord.sltiu (rb := 0) imm).exec_alu1 rfl fresh written (boolWord_ult ..)

/-- Settles O60: the decoder by the word that the encoder gives, and the result as a number. -/
theorem movhiResult : Obligations.MovhiResult := by
  intro s σ rd ra imm
  constructor
  · refine (decodeOfEncode (.movhi rd ra imm) _ rfl ?_).1 σ (by cases σ <;> rfl)
    simp [encode, pack, packNat]
  · intro fresh written
    refine (RegisterWord.movhi (rb := 0) imm).exec_alu1 rfl fresh written ((movhi_value ..).trans ?_)
    exact BitVec.eq_of_toNat_eq (by simp [Nat.add_mod])

/-! ### Counts of bits (R278) -/

theorem clzWord_of_highest {a : Word} {n : Nat} (small : n < 64) (one : a.getLsbD (63 - n) = true)
    (above : ∀ i, 63 - n < i → a.getLsbD i = false) : clzWord a = BitVec.ofNat 64 n := by
  have nonzero : a ≠ 0 := by rintro rfl; simp at one
  have lower : 2 ^ (63 - n) ≤ a.toNat := Nat.ge_two_pow_of_testBit one
  have upper : a.toNat < 2 ^ (63 - n + 1) := Nat.lt_pow_two_of_testBit _ fun i high => above i high
  have highest : a.toNat.log2 = 63 - n := (Nat.log2_eq_iff fun zero => nonzero (BitVec.eq_of_toNat_eq zero)).2 ⟨lower, upper⟩
  rw [clzWord, if_neg nonzero, highest, Nat.sub_sub_self (by omega)]

theorem ctzWord_of_lowest {a : Word} {n : Nat} (small : n < 64) (one : a.getLsbD n = true) (below : ∀ i, i < n → a.getLsbD i = false) :
    ctzWord a = BitVec.ofNat 64 n := by
  have found : (List.range 64).find? (fun i => a.getLsbD i) = some n :=
    List.find?_range_eq_some.2 ⟨one, List.mem_range.2 small, fun i less => by simp [below i less]⟩
  rw [ctzWord, found, Option.getD_some]

/-! ### Divisions (R279) -/

theorem toInt_eq_low32 (w : Word) : toInt 32 w.toNat = low32 w := by
  rw [low32, BitVec.toInt_eq_toNat_cond, toInt, BitVec.toNat_setWidth]
  split_ifs <;> omega

theorem sextNat_eq_signExtend (w v : Nat) : sextNat w v = (BitVec.ofNat w v).signExtend 64 := by
  apply BitVec.eq_of_toNat_eq
  rw [BitVec.toNat_signExtend, BitVec.msb_eq_decide, sextNat]
  simp only [BitVec.toNat_setWidth, BitVec.toNat_ofNat, decide_eq_true_eq]
  by_cases h : v % 2 ^ w < 2 ^ (w - 1)
  · rw [if_pos h, if_neg (Nat.not_le.2 h), BitVec.toNat_ofNat, Nat.add_zero]
  · rw [if_neg h, if_pos (Nat.not_lt.1 h), BitVec.toNat_ofNat]
    have small := Nat.mod_lt v (Nat.two_pow_pos w)
    rcases Nat.le_total w 64 with narrow | wide
    · have le : 2 ^ w ≤ 2 ^ 64 := Nat.pow_le_pow_right (by decide) narrow
      rw [Nat.mod_eq_of_lt (small.trans_le le), Nat.add_comm, Nat.mod_eq_of_lt]
      generalize 2 ^ w = m at le small ⊢
      omega
    · have le : 2 ^ 64 ≤ 2 ^ w := Nat.pow_le_pow_right (by decide) wide
      rw [Nat.sub_eq_zero_of_le le, Nat.zero_add, Nat.add_zero]

theorem ofNat_wrapInt (x : Int) : BitVec.ofNat 32 (wrapInt 32 x) = BitVec.ofInt 32 x := by
  apply BitVec.eq_of_toNat_eq
  rw [BitVec.toNat_ofNat, BitVec.toNat_ofInt, wrapInt]
  omega

theorem low32_eq_zero_iff (w : Word) : low32 w = 0 ↔ w.toNat % 2 ^ 32 = 0 := by
  rw [← toInt_eq_low32, toInt]
  split_ifs <;> omega

/-- The division words, with the opcode of their results. -/
inductive DivisionWord (rd ra rb : BitVec 5) : Nat → Instr → Prop where
  | div : DivisionWord rd ra rb 0 (.div rd ra rb)
  | divu : DivisionWord rd ra rb 1 (.divu rd ra rb)
  | rem : DivisionWord rd ra rb 2 (.rem rd ra rb)
  | remu : DivisionWord rd ra rb 3 (.remu rd ra rb)
  | divw : DivisionWord rd ra rb 4 (.divw rd ra rb)
  | remw : DivisionWord rd ra rb 5 (.remw rd ra rb)

section
variable {s : State} {rd ra rb : BitVec 5} {op : Nat} {i : Instr} (word : DivisionWord rd ra rb op i)
include word

theorem DivisionWord.exec : Machine.exec i s = issue i (divOp op rd ra rb) s := by cases word <;> rfl

theorem DivisionWord.issued (σ : StrandId) : i.issuedBy σ = true := by cases word <;> rfl

theorem DivisionWord.fieldsOk : i.fieldsOk = true := by cases word <;> rfl

theorem DivisionWord.anywhere (σ : StrandId) : bundleForbids i σ = false := by cases word <;> rfl

variable (fresh : Fresh s) (written : Written s [rd, ra, rb])
include fresh written

theorem DivisionWord.exec_of_value {v : Word} (untrapped : ¬divZero op (s.g rb) = true ∨ s.core.divzOn = false)
    (value : divResult op (s.g ra) (s.g rb) = v) : Machine.exec i s = .next (s.setG rd v).retired := by
  rw [word.exec]
  refine issue_next fresh (word.issued _) word.fieldsOk (bundles_any word.anywhere) ?_
  rcases untrapped with divisor | disabled
  · simp [divOp, ready_of_written written, divisor, value]
  · simp [divOp, ready_of_written written, disabled, value]

theorem DivisionWord.exec_of_zero (zero : divZero op (s.g rb) = true) (enabled : s.core.divzOn = true) :
    Machine.exec i s = .next (s.trapStop s.cur 3 0 (s.g ra)) := by
  rw [word.exec]
  refine issue_stop (e := .trap 3 0 (s.g ra)) fresh (word.issued _) word.fieldsOk (bundles_any word.anywhere) ?_
  simp [divOp, ready_of_written written, zero, enabled]
end

section
variable {a b : Word}

theorem divZero_wide {op : Nat} (wide : op < 4) : divZero op b = true ↔ b = 0 := by rw [divZero, if_pos wide, beq_iff_eq]

theorem divZero_narrow {op : Nat} (narrow : 4 ≤ op) : divZero op b = true ↔ low32 b = 0 := by
  rw [divZero, if_neg (Nat.not_lt.2 narrow), beq_iff_eq, low32_eq_zero_iff]

theorem divResult_of_divisor (divisor : b ≠ 0) : divResult 0 a b = BitVec.ofInt 64 (a.toInt.tdiv b.toInt) ∧
    divResult 1 a b = BitVec.ofNat 64 (a.toNat / b.toNat) ∧ divResult 2 a b = BitVec.ofInt 64 (a.toInt.tmod b.toInt) ∧
    divResult 3 a b = BitVec.ofNat 64 (a.toNat % b.toNat) := by
  simp only [divResult, if_neg divisor, sdiv, Int.tmod_def, and_self]

theorem divResult_of_zero : divResult 0 a 0 = BitVec.allOnes 64 ∧ divResult 1 a 0 = BitVec.allOnes 64 ∧ divResult 2 a 0 = a ∧
    divResult 3 a 0 = a := ⟨rfl, rfl, rfl, rfl⟩

theorem divResult_of_divisor32 (divisor : low32 b ≠ 0) :
    divResult 4 a b = (BitVec.ofInt 32 ((low32 a).tdiv (low32 b))).signExtend 64 ∧
    divResult 5 a b = (BitVec.ofInt 32 ((low32 a).tmod (low32 b))).signExtend 64 := by
  simp [divResult, toInt_eq_low32, divisor, sextNat_eq_signExtend, ofNat_wrapInt, sdiv, Int.tmod_def]

theorem divResult_of_zero32 (zero : low32 b = 0) :
    divResult 4 a b = BitVec.allOnes 64 ∧ divResult 5 a b = (a.setWidth 32).signExtend 64 := by
  simp [divResult, toInt_eq_low32, zero, sextNat_eq_signExtend]
end

/-- Settles O2: the counts by the bits that bound them, the divisions by their results for a divisor that is zero and for one that is not. -/
theorem countsAndDivisions : Obligations.CountsAndDivisions := by
  refine ⟨fun s rd ra fresh written => ⟨?zero, ?clz, ?ctz, ?popc⟩,
    fun s rd ra rb fresh written => ⟨?wide, ?narrow, ?zeroWide, ?zeroNarrow, ?trap⟩⟩
  case zero =>
    intro zero
    exact ⟨(RegisterWord.clz (rb := 0)).exec_alu1 rfl fresh written (if_pos zero),
      (RegisterWord.ctz (rb := 0)).exec_alu1 rfl fresh written (by rw [zero]; rfl)⟩
  case clz => exact fun n small one above =>
    (RegisterWord.clz (rb := 0)).exec_alu1 rfl fresh written (clzWord_of_highest small one above)
  case ctz => exact fun n small one below =>
    (RegisterWord.ctz (rb := 0)).exec_alu1 rfl fresh written (ctzWord_of_lowest small one below)
  case popc => exact (RegisterWord.popc (rb := 0)).exec_alu1 rfl fresh written (by rw [popcWord, List.countP_eq_length_filter])
  case wide =>
    intro divisor
    have untrapped {op : Nat} (wide : op < 4) : ¬divZero op (s.g rb) = true := mt (divZero_wide wide).1 divisor
    obtain ⟨div, divu, rem, remu⟩ := divResult_of_divisor (a := s.g ra) divisor
    exact ⟨DivisionWord.div.exec_of_value fresh written (.inl (untrapped (by decide))) div,
      DivisionWord.divu.exec_of_value fresh written (.inl (untrapped (by decide))) divu,
      DivisionWord.rem.exec_of_value fresh written (.inl (untrapped (by decide))) rem,
      DivisionWord.remu.exec_of_value fresh written (.inl (untrapped (by decide))) remu⟩
  case narrow =>
    intro divisor
    have untrapped {op : Nat} (narrow : 4 ≤ op) : ¬divZero op (s.g rb) = true := mt (divZero_narrow narrow).1 divisor
    obtain ⟨divw, remw⟩ := divResult_of_divisor32 (a := s.g ra) divisor
    exact ⟨DivisionWord.divw.exec_of_value fresh written (.inl (untrapped (by decide))) divw,
      DivisionWord.remw.exec_of_value fresh written (.inl (untrapped (by decide))) remw⟩
  case zeroWide =>
    intro zero disabled
    obtain ⟨div, divu, rem, remu⟩ := divResult_of_zero (a := s.g ra)
    rw [← zero] at div divu rem remu
    exact ⟨DivisionWord.div.exec_of_value fresh written (.inr disabled) div, DivisionWord.divu.exec_of_value fresh written (.inr disabled) divu,
      DivisionWord.rem.exec_of_value fresh written (.inr disabled) rem, DivisionWord.remu.exec_of_value fresh written (.inr disabled) remu⟩
  case zeroNarrow =>
    intro zero disabled
    obtain ⟨divw, remw⟩ := divResult_of_zero32 (a := s.g ra) zero
    exact ⟨DivisionWord.divw.exec_of_value fresh written (.inr disabled) divw, DivisionWord.remw.exec_of_value fresh written (.inr disabled) remw⟩
  case trap =>
    intro enabled
    constructor
    · intro zero
      have isZero {op : Nat} (wide : op < 4) : divZero op (s.g rb) = true := (divZero_wide wide).2 zero
      simp only [List.forall_mem_cons]
      exact ⟨DivisionWord.div.exec_of_zero fresh written (isZero (by decide)) enabled,
        DivisionWord.divu.exec_of_zero fresh written (isZero (by decide)) enabled,
        DivisionWord.rem.exec_of_zero fresh written (isZero (by decide)) enabled,
        DivisionWord.remu.exec_of_zero fresh written (isZero (by decide)) enabled, by simp⟩
    · intro zero
      have isZero {op : Nat} (narrow : 4 ≤ op) : divZero op (s.g rb) = true := (divZero_narrow narrow).2 zero
      simp only [List.forall_mem_cons]
      exact ⟨DivisionWord.divw.exec_of_zero fresh written (isZero (by decide)) enabled,
        DivisionWord.remw.exec_of_zero fresh written (isZero (by decide)) enabled, by simp⟩

end Sys2Proof.Machine

namespace Sys2Proof.Machine

/-! ### Words that transfer control (R188, R282-R284, R295) -/

section
variable {i : Instr} {sem : Sem} {s u : State} {a : Word} (fresh : Fresh s)
include fresh

theorem issue_of_illegalSem (refused : sem s = illegal) : issue i sem s = State.raisesIllegal s i :=
  issue_of_illegal fresh (slotChecked_of_refused fresh refused)

/-- A transfer to an address that bundle mode does not admit. -/
theorem issue_odd (issued : i.issuedBy s.cur = true) (fields : i.fieldsOk = true) (slot : bundleForbids i s.cur = true → s.wordMode = true)
    (jump : sem s = .ok (.jump u a)) (barred : ¬Admits s a) : issue i sem s = State.raisesIllegal s i := by
  have odd : (Done.jump u a).odd s = true := by rw [← Bool.not_eq_false, odd_iff]; exact barred
  unfold issue
  rw [if_neg (by simp [fresh.1, tested]), landForIssue_of_landed fresh.2.1]
  simp only [checked, slotChecked_of_fresh fresh issued fields slot, jump, ok_bind, odd, illegalIf_true, error_bind]
  rfl

/-- A word whose meaning transfers to `a` goes there, or is `ILLEGAL` where bundle mode does not admit the address. -/
theorem exec_of_jump (form : exec i s = issue i sem s) (issued : i.issuedBy s.cur = true) (fields : i.fieldsOk = true)
    (slot : bundleForbids i s.cur = true → s.wordMode = true) (jump : sem s = .ok (.jump u a)) :
    (Admits s a → exec i s = .next (u.complete a)) ∧ (¬Admits s a → exec i s = State.raisesIllegal s i) :=
  ⟨fun admits => form.trans (issue_jump fresh issued fields slot jump admits), fun barred => form.trans (issue_odd fresh issued fields slot jump barred)⟩
end

section
variable {i : Instr} {s : State} {t : Word}

theorem State.branchOk_iff : s.branchOk t = true ↔ InBody s t := by
  unfold State.branchOk InBody
  cases s.innermost with
  | none => simp
  | some l => simp

theorem State.branch_of_inBody (inside : InBody s t) : s.branch t = .ok (.jump s t) := by
  simp [State.branch, State.branchOk_iff.2 inside]

theorem State.branch_of_leaving (leaves : ¬InBody s t) : s.branch t = illegal := by
  simp [State.branch, Bool.eq_false_iff.2 (mt State.branchOk_iff.1 leaves), illegal]

theorem State.transferOk_iff : s.transferOk = true ↔ s.innermost = none := Option.isNone_iff_eq_none

/-- A word that branches to `t` where `c` holds and does nothing where it does not. -/
theorem branchRule_of_sem {sem : Sem} {c : Prop} (form : exec i s = issue i sem s) (fresh : Fresh s) (issued : i.issuedBy s.cur = true)
    (fields : i.fieldsOk = true) (slot : bundleForbids i s.cur = true → s.wordMode = true) (taken : c → sem s = s.branch t)
    (passed : ¬c → sem s = .ok (.next s)) : BranchRule s i c t := by
  rw [BranchRule, form]
  refine ⟨fun no => issue_next fresh issued fields slot (passed no), fun yes inside admits => ?_, fun yes bad => ?_⟩
  · exact issue_jump fresh issued fields slot ((taken yes).trans (State.branch_of_inBody inside)) admits
  · by_cases inside : InBody s t
    · exact issue_odd fresh issued fields slot ((taken yes).trans (State.branch_of_inBody inside)) fun admits => bad ⟨inside, admits⟩
    · exact issue_of_illegalSem fresh ((taken yes).trans (State.branch_of_leaving inside))

theorem branchRule_of_branchIf {f : Word → Word → Bool} {c : Prop} {ra rb : BitVec 5} {off : BitVec 15}
    (form : exec i s = issue i (branchIf f ra rb off) s) (fresh : Fresh s) (issued : i.issuedBy s.cur = true) (fields : i.fieldsOk = true)
    (slot : bundleForbids i s.cur = true → s.wordMode = true) (written : Written s [ra, rb]) (condition : f (s.g ra) (s.g rb) = true ↔ c) :
    BranchRule s i c (s.here + off.signExtend 64 * 4) := by
  refine branchRule_of_sem form fresh issued fields slot (fun yes => ?_) fun no => ?_
  · simp only [branchIf, ready_of_written written, ok_bind, condition.2 yes, if_true]
    rfl
  · simp only [branchIf, ready_of_written written, ok_bind, if_neg (mt condition.1 no)]
end

section
variable {s : State} {ra : BitVec 5} {far : BitVec 25} (fresh : Fresh s) (may : MayTransfer s)
include fresh may

theorem exec_jal_of_outside (written : Written s [7]) (outside : s.innermost = none) :
    (Admits s (s.here + far.signExtend 64 * 4) →
      exec (.jal far) s = .next ((s.setG 7 s.pcNext).complete (s.here + far.signExtend 64 * 4))) ∧
    (¬Admits s (s.here + far.signExtend 64 * 4) → exec (.jal far) s = State.raisesIllegal s (.jal far)) := by
  have jump : semJal far s = .ok (.jump (s.setG 7 s.pcNext) (s.target far)) := by
    simp only [semJal, ready_of_written written, ok_bind, State.transferOk_iff.2 outside, Bool.not_true, illegalIf_false]
  exact exec_of_jump fresh rfl rfl rfl (bundles_k may rfl) jump

theorem exec_jr_of_aligned (written : Written s [ra]) (outside : s.innermost = none) (aligned : (s.g ra).toNat % 4 = 0) :
    (Admits s (s.g ra) → exec (.jr ra) s = .next (s.complete (s.g ra))) ∧
    (¬Admits s (s.g ra) → exec (.jr ra) s = State.raisesIllegal s (.jr ra)) := by
  have jump : semJr ra s = .ok (.jump s (s.g ra)) := by
    simp [semJr, ready_of_written written, State.transferOk_iff.2 outside, bitsAt, aligned]
  exact exec_of_jump fresh rfl rfl rfl (bundles_k may rfl) jump
end

section
variable {s : State}

theorem semJal_of_loop {far : BitVec 25} (written : Written s [7]) (inside : s.innermost ≠ none) : semJal far s = illegal := by
  simp only [semJal, ready_of_written written, ok_bind, Bool.eq_false_iff.2 (mt State.transferOk_iff.1 inside), Bool.not_false, illegalIf_true,
    error_bind, illegal]

theorem semJr_of_bad {ra : BitVec 5} (written : Written s [ra]) (bad : s.innermost ≠ none ∨ (s.g ra).toNat % 4 ≠ 0) : semJr ra s = illegal := by
  have refused : (bitsAt (s.g ra) 0 2 != 0 || !s.transferOk) = true := by
    rcases bad with inside | odd
    · simp [Bool.eq_false_iff.2 (mt State.transferOk_iff.1 inside)]
    · simp [bitsAt, odd]
  simp [semJr, ready_of_written written, refused, illegal]
end

/-- Settles O4: a branch by its condition and the innermost body, a jump by the loop it may not stand in, and both by the target's place. -/
theorem branchesAndJumps : Obligations.BranchesAndJumps := by
  refine ⟨fun s ra rb off far fresh written may => ⟨?beq, ?bne, ?blt, ?bge, ?bltu, ?bgeu, ?j⟩,
    fun s ra far fresh may => ⟨?jal, ?jalIllegal, ?jr, ?jrIllegal⟩⟩
  case beq => exact branchRule_of_branchIf rfl fresh rfl rfl (bundles_k may rfl) written beq_iff_eq
  case bne => exact branchRule_of_branchIf rfl fresh rfl rfl (bundles_k may rfl) written bne_iff_ne
  case blt => exact branchRule_of_branchIf rfl fresh rfl rfl (bundles_k may rfl) written BitVec.slt_iff_toInt_lt
  case bge => exact branchRule_of_branchIf rfl fresh rfl rfl (bundles_k may rfl) written BitVec.sle_iff_toInt_le
  case bltu => exact branchRule_of_branchIf rfl fresh rfl rfl (bundles_k may rfl) written BitVec.ult_iff_toNat_lt
  case bgeu => exact branchRule_of_branchIf rfl fresh rfl rfl (bundles_k may rfl) written BitVec.ule_iff_toNat_le
  case j => exact branchRule_of_sem rfl fresh rfl rfl (bundles_k may rfl) (fun _ => rfl) fun no => absurd trivial no
  case jal => exact fun written outside => (exec_jal_of_outside fresh may written outside).1
  case jalIllegal =>
    intro written bad
    by_cases inside : s.innermost = none
    · exact (exec_jal_of_outside fresh may written inside).2 (bad.resolve_left (not_not_intro inside))
    · exact issue_of_illegalSem fresh (semJal_of_loop written inside)
  case jr => exact fun written outside aligned => (exec_jr_of_aligned fresh may written outside aligned).1
  case jrIllegal =>
    intro written bad
    by_cases clean : s.innermost = none ∧ (s.g ra).toNat % 4 = 0
    · obtain ⟨outside, aligned⟩ := clean
      exact (exec_jr_of_aligned fresh may written outside aligned).2 ((bad.resolve_left (not_not_intro outside)).resolve_left (not_not_intro aligned))
    · exact issue_of_illegalSem fresh (semJr_of_bad written (not_and_or.1 clean))

end Sys2Proof.Machine

namespace Sys2Proof.Machine

/-! ### Windowed calls (R285-R288) -/

/-- The window that a call with frame code `fc` opens. -/
def Strand.opened (t : Strand) (fc : BitVec 2) : Strand := { t with wb := t.wb + 8 * (fc.toNat + 1) }

/-- The window that a return through the link `l` goes back to. -/
def Strand.returned (t : Strand) (l : Word) : Strand := { t with wb := t.wb - 8 * (bitsAt l 48 2 + 1), depth := t.depth - 1 }

theorem frameSize_cast (n : Nat) : (frameSize n : Int) = 8 * (n + 1) := by
  rw [frameSize]
  push_cast
  ring

section
variable {s v : State} {fc : BitVec 2} {t : Word}

theorem State.call_of_spilled (outside : s.innermost = none) (code : fc ≠ 3) (depth : s.me.depth ≠ 65535)
    (spilled : spillGo (spillsDue s fc) (s.modMe fun t => t.opened fc) = .ok v) (free : v.core.busyKey v.cur (v.me.key 31) = false) :
    s.call fc.toNat t = .ok (.jump (callEnters v (callLink s fc)) t) := by
  have small : (fc.toNat == 3) = false := beq_eq_false_iff_ne.2 fun three => code (BitVec.eq_of_toNat_eq three)
  have shallow : (s.me.depth == 65535) = false := beq_eq_false_iff_ne.2 depth
  simp only [Strand.opened, ← frameSize_cast, spillsDue] at spilled
  simp only [State.call, small, shallow, State.transferOk_iff.2 outside, Bool.or_self, Bool.not_true, illegalIf_false, ok_bind, State.modMe_me,
    spilled, free, waitIf_false]
  rfl

theorem State.call_of_bad (bad : s.innermost ≠ none ∨ fc = 3 ∨ s.me.depth = 65535) : s.call fc.toNat t = illegal := by
  have refused : (fc.toNat == 3 || s.me.depth == 65535 || !s.transferOk) = true := by
    rcases bad with inside | rfl | deep
    · simp [Bool.eq_false_iff.2 (mt State.transferOk_iff.1 inside)]
    · rfl
    · simp [deep]
  simp only [State.call, refused, illegalIf_true, error_bind, illegal]

/-- Where the window is resident there is nothing to spill. -/
theorem spillGo_of_resident (n : Nat) (resident : s.me.wb + 24 - s.me.sb ≤ 96) : spillGo n s = .ok s := by
  cases n with
  | zero => rfl
  | succ n => rw [spillGo, if_pos resident]
end

section
variable {s : State} {ra : BitVec 5} {fc : BitVec 2}

theorem semCallr_of_aligned (written : Written s [ra]) (aligned : (s.g ra).toNat % 4 = 0) : semCallr ra fc s = s.call fc.toNat (s.g ra) := by
  simp [semCallr, ready_of_written written, bitsAt, aligned]

theorem semCallr_of_misaligned (written : Written s [ra]) (odd : (s.g ra).toNat % 4 ≠ 0) : semCallr ra fc s = illegal := by
  have refused : (bitsAt (s.g ra) 0 2 != 0) = true := by simpa [bitsAt] using odd
  simp only [semCallr, ready_of_written written, ok_bind, refused, illegalIf_true, error_bind, illegal]

theorem semCallr_of_bad (written : Written s [ra]) (bad : s.innermost ≠ none ∨ fc = 3 ∨ s.me.depth = 65535) : semCallr ra fc s = illegal := by
  by_cases aligned : (s.g ra).toNat % 4 = 0
  · rw [semCallr_of_aligned written aligned, State.call_of_bad bad]
  · exact semCallr_of_misaligned written aligned

theorem semRet_of_filled {v : State} (written : Written s [31]) (outside : s.innermost = none) (depth : s.me.depth ≠ 0)
    (reserved : bitsAt (s.g 31) 50 2 = 0) (code : bitsAt (s.g 31) 48 2 ≠ 3)
    (filled : fillGo (fillsDue s) (s.modMe fun t => t.returned (s.g 31)) = .ok v) :
    semRet s = .ok (.jump v (setBits (s.g 31) 48 4 0)) := by
  have called : (s.me.depth == 0) = false := beq_eq_false_iff_ne.2 depth
  have frame : (bitsAt (s.g 31) 48 2 == 3) = false := beq_eq_false_iff_ne.2 code
  have zero : (bitsAt (s.g 31) 50 2 != 0) = false := by rw [reserved]; rfl
  simp only [Strand.returned, ← frameSize_cast, fillsDue] at filled
  simp only [semRet, ready_of_written written, called, frame, zero, State.transferOk_iff.2 outside, Bool.or_self, Bool.not_true, illegalIf_false,
    ok_bind, State.modMe_me, filled]

theorem semRet_of_bad (written : Written s [31])
    (bad : s.innermost ≠ none ∨ s.me.depth = 0 ∨ bitsAt (s.g 31) 50 2 ≠ 0 ∨ bitsAt (s.g 31) 48 2 = 3) : semRet s = illegal := by
  have refused : (s.me.depth == 0 || bitsAt (s.g 31) 50 2 != 0 || bitsAt (s.g 31) 48 2 == 3 || !s.transferOk) = true := by
    rcases bad with inside | top | reserved | code
    · rw [Bool.eq_false_iff.2 (mt State.transferOk_iff.1 inside), Bool.not_false, Bool.or_true]
    · rw [top]; rfl
    · rw [bne_iff_ne.2 reserved, Bool.or_true]; rfl
    · rw [code]; simp
  simp only [semRet, ready_of_written written, ok_bind, refused, illegalIf_true, error_bind, illegal]
end

/-- Settles O5: a call once its window is spilled, a return once it is filled, and the checks that come before both. -/
theorem windowedCalls : Obligations.WindowedCalls := by
  intro s v ra fc off fresh may
  refine ⟨?calls, ?resident, ?ret, ?noCall, ?noRet⟩
  case calls =>
    intro outside code depth spilled free
    have enters (t : Word) := State.call_of_spilled (t := t) outside code depth spilled free
    have call := exec_of_jump (i := .call fc off) (sem := semCall fc off) fresh rfl rfl rfl (bundles_k may rfl) (enters _)
    have callr (written : Written s [ra]) (aligned : (s.g ra).toNat % 4 = 0) :=
      exec_of_jump (i := .callr ra fc) fresh rfl rfl rfl (bundles_k may rfl) ((semCallr_of_aligned written aligned).trans (enters _))
    refine ⟨call.1, call.2, fun written aligned => (callr written aligned).1, fun written bad => ?_⟩
    by_cases aligned : (s.g ra).toNat % 4 = 0
    · exact (callr written aligned).2 (bad.resolve_left (not_not_intro aligned))
    · exact issue_of_illegalSem fresh (semCallr_of_misaligned written aligned)
  case resident =>
    intro resident
    refine spillGo_of_resident _ ?_
    simpa using resident
  case ret =>
    intro written outside depth reserved code filled
    exact exec_of_jump fresh rfl rfl rfl (bundles_k may rfl) (semRet_of_filled written outside depth reserved code filled)
  case noCall =>
    intro bad
    exact ⟨issue_of_illegalSem fresh (State.call_of_bad bad), fun written => issue_of_illegalSem fresh (semCallr_of_bad written bad)⟩
  case noRet => exact fun written bad => issue_of_illegalSem fresh (semRet_of_bad written bad)

end Sys2Proof.Machine

namespace Sys2Proof.Machine

/-! ### Loop words (R290, R292-R294) -/

@[simp] theorem State.modLevel_seqStrand (s : State) (σ : StrandId) (i : Nat) (f : Loop → Loop) : (s.modLevel σ i f).seqStrand = s.seqStrand := by
  simp [State.seqStrand, State.wordMode, Core.wordMode, State.modLevel]

theorem illegalIf_bind {α : Type} (b : Bool) (f : Unit → Except Stop α) : (illegalIf b >>= f) = if b then illegal else f () := by
  cases b <;> rfl

section
variable {s : State} {k len : Nat} {count : Word}

/-- The four checks of a loop start. -/
theorem loopMay_iff : LoopMay s k len ↔ decide (6 ≤ k) = false ∧ (decide (s.core.tl ≠ 0) || (s.level k).active) = false ∧
    (!s.wordMode && decide (64 < len)) = false ∧
    ((s.strand s.seqStrand).activeLevels.any fun j => decide ((s.level j).fin.toNat < (bodyEnd s len).toNat)) = false := by
  rw [LoopMay, List.any_eq_false]
  cases s.wordMode <;> simp [and_assoc]

theorem State.startLoop_of_may (may : LoopMay s k len) : s.startLoop k count len =
    if count = 0 then
      .ok (.jump (s.modLevel s.seqStrand k fun l => { l with beg := s.pcNext, fin := bodyEnd s len, cnt := count })
        (bodyEnd s len + BitVec.ofNat 64 s.unit))
    else .ok (.next (loopStarts s k len count)) := by
  obtain ⟨level, state, long, nested⟩ := loopMay_iff.1 may
  simp only [State.startLoop, illegalIf_bind, level, state, long, Bool.false_eq_true, if_false, State.modLevel_seqStrand]
  exact if_neg (Bool.eq_false_iff.1 nested)

theorem State.startLoop_of_bad (bad : ¬LoopMay s k len) : s.startLoop k count len = illegal := by
  simp only [State.startLoop, illegalIf_bind]
  split_ifs with level state long nested
  any_goals rfl
  all_goals exact absurd (loopMay_iff.2 ⟨Bool.eq_false_iff.2 level, Bool.eq_false_iff.2 state, Bool.eq_false_iff.2 long,
    Bool.eq_false_iff.2 nested⟩) bad

theorem loopRule_of_sem {i : Instr} {sem : Sem} (form : exec i s = issue i sem s) (fresh : Fresh s) (issued : i.issuedBy s.cur = true)
    (fields : i.fieldsOk = true) (slot : bundleForbids i s.cur = true → s.wordMode = true) (starts : sem s = s.startLoop k count len) :
    LoopRule s i k len count := by
  refine ⟨fun may some => ?_, fun may zero admits => ?_, fun bad => ?_⟩
  · have sem_next := starts.trans ((State.startLoop_of_may may).trans (if_neg some))
    exact form.trans (issue_next fresh issued fields slot sem_next)
  · subst zero
    have sem_jump := starts.trans ((State.startLoop_of_may may).trans (if_pos rfl))
    exact (exec_of_jump fresh form issued fields slot sem_jump).1 admits
  · exact form.trans (issue_of_illegalSem fresh (starts.trans (State.startLoop_of_bad bad)))
end

/-- The strand that tests a loop is the same while levels end. -/
theorem foldl_modLevel_seqStrand (f : Loop → Loop) (ls : List Nat) (s : State) :
    ls.foldl (fun t i => t.modLevel t.seqStrand i f) s = ls.foldl (fun t i => t.modLevel s.seqStrand i f) s := by
  have same (u : State) (h : u.seqStrand = s.seqStrand) :
      ls.foldl (fun t i => t.modLevel t.seqStrand i f) u = ls.foldl (fun t i => t.modLevel s.seqStrand i f) u := by
    induction ls generalizing u with
    | nil => rfl
    | cons i is ih =>
      rw [List.foldl_cons, List.foldl_cons, h]
      exact ih _ (by simp [h])
  exact same s rfl

section
variable {s : State} {rd ra n : BitVec 5} {k : BitVec 3} {j : BitVec 2}

theorem semLstep_of_inactive (level : k.toNat < 6) (written : Written s [ra]) (inactive : (s.level k.toNat).active = false) :
    semLstep rd ra k j s = .ok (.next (s.modLevel s.seqStrand k.toNat fun l =>
      { l with slots := l.slots.set j.toNat { reg := rd, strand := s.cur, stride := s.g ra } })) := by
  simp [semLstep, Nat.not_le.2 level, ready_of_written written, inactive]

theorem semLstep_of_active (level : k.toNat < 6) (written : Written s [ra]) (active : (s.level k.toNat).active = true) :
    semLstep rd ra k j s = .error (.trap 6 0 (0x100 + k.setWidth 64)) := by
  simp [semLstep, Nat.not_le.2 level, ready_of_written written, active]

theorem markCheck_of_inside (may : MayTransfer s) (level : k.toNat < 6) (count : n ≠ 0) (user : s.core.tl = 0)
    (active : (s.level k.toNat).active = true) (body : ∀ l, s.innermost = some l → s.here.toNat + n.toNat * s.unit ≤ l.fin.toNat)
    (inside : s.innermost ≠ none) : markCheck n k s = .ok (.next s) := by
  obtain ⟨l, inner⟩ := Option.ne_none_iff_exists'.1 inside
  have slot : (!s.wordMode && s.cur != .k) = false := by rcases may with words | k <;> simp [*]
  have refused : (decide (6 ≤ k.toNat) || n == 0 || (!s.wordMode && s.cur != .k) || decide (s.core.tl ≠ 0) || !(s.level k.toNat).active) = false := by
    rw [decide_eq_false (Nat.not_le.2 level), beq_eq_false_iff_ne.2 count, slot, user, active]
    rfl
  simp only [markCheck, refused, illegalIf_false, ok_bind, inner, decide_eq_false (Nat.not_lt.2 (body l inner))]

theorem markCheck_of_inactive (inactive : (s.level k.toNat).active = false) : markCheck n k s = illegal := by
  simp [markCheck, inactive, illegal]

theorem semLbreak_of_active (level : k.toNat < 6) (user : s.core.tl = 0) (active : (s.level k.toNat).active = true) :
    semLbreak k s = .ok (.jump (((s.strand s.seqStrand).activeLevels.filter fun i =>
        decide ((s.level k.toNat).beg.toNat ≤ (s.level i).beg.toNat)).foldl
      (fun t i => t.modLevel s.seqStrand i fun m => { m with active := false }) s) ((s.level k.toNat).fin + BitVec.ofNat 64 s.unit)) := by
  rw [← foldl_modLevel_seqStrand]
  simp [semLbreak, Nat.not_le.2 level, user, active]

theorem semLbreak_of_inactive (inactive : (s.level k.toNat).active = false) : semLbreak k s = illegal := by
  simp [semLbreak, inactive, illegal]
end

/-- Settles O6: a loop starts where `LoopMay` admits it, a marker and a break by their level, and the end test by its count. -/
theorem loops : Obligations.Loops := by
  refine ⟨fun s k ra len cnt fresh may written => ⟨?loop, ?loopi⟩,
    fun s rd ra n k j fresh => ⟨?lstep, ?lstepActive, ?markers, ?noMarkers, ?lbreak, ?noBreak⟩, fun s k next ends steps => ⟨?repeats, ?finishes⟩⟩
  case loop =>
    refine loopRule_of_sem rfl fresh rfl rfl (bundles_k may rfl) ?_
    simp [semLoop, ready_of_written written]
  case loopi => exact loopRule_of_sem rfl fresh rfl rfl (bundles_k may rfl) rfl
  case lstep =>
    exact fun level written inactive =>
      issue_next fresh rfl rfl (bundles_any fun _ => rfl) (semLstep_of_inactive level written inactive)
  case lstepActive =>
    exact fun level written active =>
      issue_stop fresh rfl rfl (bundles_any fun _ => rfl) (semLstep_of_active level written active)
  case markers =>
    intro may level count user active body inside
    have passes := markCheck_of_inside may level count user active body inside
    exact ⟨issue_next fresh rfl rfl (bundles_any fun _ => rfl) passes, issue_next fresh rfl rfl (bundles_any fun _ => rfl) passes⟩
  case noMarkers =>
    exact fun _ inactive =>
      ⟨issue_of_illegalSem fresh (markCheck_of_inactive inactive), issue_of_illegalSem fresh (markCheck_of_inactive inactive)⟩
  case lbreak =>
    exact fun may level user active admits =>
      (exec_of_jump fresh rfl rfl rfl (bundles_k may rfl) (semLbreak_of_active level user active)).1 admits
  case noBreak => exact fun _ inactive => issue_of_illegalSem fresh (semLbreak_of_inactive inactive)
  case repeats =>
    intro below
    simp only [State.advance, ends, State.loopTests, ← State.level.eq_1, if_pos below]
  case finishes =>
    intro atEnd
    simp only [State.advance, ends, State.loopTests, ← State.level.eq_1, if_neg (Nat.not_lt.2 atEnd)]

end Sys2Proof.Machine

namespace Sys2Proof.Machine

/-! ### Updates of the executing strand that agree -/

theorem State.modMe_congr {s : State} {f g : Strand → Strand} (same : f s.me = g s.me) : s.modMe f = s.modMe g := by
  rw [State.modMe_eq, State.modMe_eq, same]

theorem State.modMe_of_same {s : State} {f : Strand → Strand} (same : f s.me = s.me) : s.modMe f = s := by
  rw [State.modMe_eq, same, State.setStrand, State.me, State.strand, Core.setStrand_self]

theorem State.modMe_modMe (s : State) (f g : Strand → Strand) : (s.modMe f).modMe g = s.modMe fun t => g (f t) := by
  rw [State.modMe_eq (s.modMe f), State.modMe_me, State.modMe_cur, State.modMe_eq, State.modMe_eq, State.setStrand, State.setStrand_core,
    Core.setStrand_setStrand]
  rfl

theorem State.me_of_strands {s t : State} (cur : t.cur = s.cur) (strands : ∀ σ, t.core.strand σ = s.core.strand σ) : t.me = s.me := by
  rw [State.me, State.me, State.strand, State.strand, cur, strands]

theorem State.me_of_scLast (s : State) (n : Nat) : ({ s with core := { s.core with scLast := n } } : State).me = s.me :=
  State.me_of_strands rfl fun σ => by cases σ <;> rfl

/-! ### The operation that a word adds (R94, R99, R263) -/

section
variable (s : State) (ha : Word) (act : MemAct) (dest : Dest) (sig : Option Nat) (ord scope : Nat)

theorem State.opOf_eq_newOrdered : s.opOf ha act dest sig ord scope = newOrdered s ha act dest sig ord scope := by
  have stamp : (if ord = 4 ∧ (!(ord == 4 && s.effScope scope == 4)) = true then some (s.scStampNow, s.core.idx) else none) = Machine.scStamp s ord scope := by
    by_cases sc : ord = 4 <;> simp [Machine.scStamp, sc]
  simp only [State.opOf, MemOp.plain, stamp]
  rfl

theorem State.addOp_of_unstamped {o : MemOp} (unstamped : o.stamp = none) : s.addOp o = s.withOp o := by
  simp [State.addOp, State.withOp, Core.raisedBy, unstamped]

theorem newOrdered_plain : newOrdered s ha act dest sig 0 0 = s.newOp ha act dest sig 0 0 none false := by
  simp [newOrdered, Machine.scStamp]

@[simp] theorem State.withOp_me (o : MemOp) : (s.withOp o).me = s.me := State.me_of_strands rfl fun σ => by cases σ <;> rfl

@[simp] theorem State.syncSc_me (op uid : Nat) : (s.syncSc op uid).me = s.me := rfl

theorem State.issueOp_eq_orderedOp : s.issueOp ha act dest sig ord scope = orderedOp s ha act dest sig ord scope := by
  simp only [State.issueOp, State.opOf_eq_newOrdered]
  rfl
end

/-! ### A word that has issued and waits at its own address (R187) -/

section
variable {i : Instr} {sem : Sem} {s u : State} {d : Done} {code : Nat}

/-- What a word that has issued does in a later turn is what its meaning says. -/
theorem issue_of_begun (begun : s.me.stage = 1) (landed : Landed s) (issued : i.issuedBy s.cur = true) (fields : i.fieldsOk = true)
    (anywhere : ∀ σ, bundleForbids i σ = false) (result : sem s = .ok d) (even : d.odd s = false) : issue i sem s = .next (State.done d) := by
  have counted : s.countOpen i = .ok s := by
    unfold State.countOpen
    cases s.core.openJob <;> simp [begun]
  have checks : slotChecked i sem s = .ok d := by simp [slotChecked, issued, fields, anywhere, counted, result]
  unfold issue
  rw [if_neg (by simp [begun, tested]), landForIssue_of_landed landed]
  simp [checked, checks, even]

theorem done_hold_of_stage (first : u.me.stage ≤ 1) :
    State.done (.hold u code) = u.modMe fun t => { t with stage := 1, wait := code } :=
  State.modMe_congr (by rw [Nat.max_eq_left first])

theorem done_hold_of_begun (begun : u.me.stage = 1) : State.done (.hold u code) = u.modMe fun t => { t with wait := code } :=
  State.modMe_congr (by simp [begun])
end

/-! ### Fences (R95, R98, R99, R298) -/

section
variable {s u v : State} {scope ord : BitVec 3}

theorem semFence_of_codes (within : scope.toNat < 6) (some : 1 ≤ ord.toNat) (known : ord.toNat < 5)
    (begun : (if s.me.stage = 0 then s.fenceBegin scope.toNat ord.toNat else s) = u) : semFence scope ord s =
      if u.fenceMet scope.toNat ord.toNat then
        if (u.fenceRelease scope.toNat ord.toNat).fenceTurn then
          .ok (.next ((u.fenceRelease scope.toNat ord.toNat).modMe fun t => { t with fence := none }))
        else .ok (.hold (u.fenceRelease scope.toNat ord.toNat) outside)
      else .ok (.hold u outside) := by
  have codes : (decide (6 ≤ scope.toNat) || ord.toNat == 0 || decide (5 ≤ ord.toNat)) = false := by
    simp only [Bool.or_eq_false_iff, decide_eq_false_iff_not, beq_eq_false_iff_ne]
    omega
  simp only [semFence, codes, illegalIf_false, ok_bind, begun]

theorem semFence_of_badCode (bad : scope.toNat = 6 ∨ scope.toNat = 7 ∨ ord.toNat = 0 ∨ 5 ≤ ord.toNat) : semFence scope ord s = illegal := by
  have codes : (decide (6 ≤ scope.toNat) || ord.toNat == 0 || decide (5 ≤ ord.toNat)) = true := by
    simp only [Bool.or_eq_true, decide_eq_true_eq, beq_iff_eq]
    omega
  simp only [semFence, codes, illegalIf_true, error_bind, illegal]

theorem State.fenceRelease_eq {n m : Nat} (some : 1 ≤ m) (known : m < 5) : s.fenceRelease n m = if m = 1 then s else fenceReleases s n := by
  interval_cases m <;> rfl

@[simp] theorem fenceReleases_me (s : State) (n : Nat) : (fenceReleases s n).me = { s.me with rel := max s.me.rel (n + 1) } := by
  simp [fenceReleases, State.widenPins, State.modCoh, State.me, State.strand]

/-- A strand that is in no sequentially consistent fence has no turn to wait for. -/
theorem State.fenceTurn_of_none (unstamped : s.me.fence = none) : s.fenceTurn = true := by rw [State.fenceTurn, unstamped]

/-- A fence that takes its stamp now does not have its turn in the same cycle. -/
theorem State.fenceTurn_of_now {n m sc : Nat} (stamped : s.me.fence = some (n, m, sc)) (late : s.now ≤ n) : s.fenceTurn = false := by
  rw [State.fenceTurn, stamped]
  simp [Nat.not_lt.2 late]
end

section
variable {s : State} {scope ord : BitVec 3} (within : scope.toNat < 6) (fresh : Fresh s)
include within fresh

theorem exec_fence_of_met (some : 1 ≤ ord.toNat) (plain : ord.toNat < 4) (unstamped : s.me.fence = none)
    (met : s.fenceMet scope.toNat ord.toNat = true) :
    exec (.fence scope ord) s = .next (if ord.toNat = 1 then s else fenceReleases s scope.toNat).retired := by
  have begun : (if s.me.stage = 0 then s.fenceBegin scope.toNat ord.toNat else s) = s := by simp [State.fenceBegin, plain.ne]
  have result : semFence scope ord s = .ok (.next (s.fenceRelease scope.toNat ord.toNat)) := by
    have still : (s.fenceRelease scope.toNat ord.toNat).me.fence = none := by
      rw [State.fenceRelease_eq some (by omega)]
      split <;> simp [unstamped]
    rw [semFence_of_codes within some (by omega) begun, if_pos met, if_pos (State.fenceTurn_of_none still),
      State.modMe_of_same (by rw [← still])]
  rw [← State.fenceRelease_eq some (by omega)]
  exact issue_next fresh rfl rfl (bundles_any fun _ => rfl) result

theorem exec_fence_of_unmet (some : 1 ≤ ord.toNat) (plain : ord.toNat < 4) (unmet : s.fenceMet scope.toNat ord.toNat = false) :
    exec (.fence scope ord) s = .next (s.modMe fun t => { t with stage := 1, wait := outside }) := by
  have begun : (if s.me.stage = 0 then s.fenceBegin scope.toNat ord.toNat else s) = s := by simp [State.fenceBegin, plain.ne]
  have result : semFence scope ord s = .ok (.hold s outside) := by
    rw [semFence_of_codes within some (by omega) begun, if_neg (Bool.eq_false_iff.1 unmet)]
  rw [← done_hold_of_stage (fresh.1.trans_le (Nat.zero_le 1))]
  exact issue_ok fresh rfl rfl (bundles_any fun _ => rfl) result rfl

theorem exec_fence_of_stamped {u : State} (sc : ord.toNat = 4) (near : s.effScope scope.toNat ≠ 4)
    (stamps : u = ({ s with core := { s.core with scLast := s.scStampNow } } : State).modMe fun t =>
      { t with fence := some (s.scStampNow, s.core.idx, s.effScope scope.toNat) }) :
    exec (.fence scope ord) s = .next ((if u.fenceMet scope.toNat 4 then fenceReleases u scope.toNat else u).modMe fun t =>
      { t with stage := 1, wait := outside }) := by
  have begun : (if s.me.stage = 0 then s.fenceBegin scope.toNat ord.toNat else s) = u := by
    simp only [fresh.1, if_true, State.fenceBegin, sc, ne_eq, not_true_eq_false, if_false, near, stamps]
  have me : u.me = { s.me with fence := some (s.scStampNow, s.core.idx, s.effScope scope.toNat) } := by
    rw [stamps, State.modMe_me, State.me_of_scLast]
  have turn : (fenceReleases u scope.toNat).fenceTurn = false := by
    refine State.fenceTurn_of_now (n := s.scStampNow) (by rw [fenceReleases_me, me]) ?_
    have same : (fenceReleases u scope.toNat).now = s.now := by rw [stamps]; rfl
    rw [same]
    exact le_max_left ..
  have result : semFence scope ord s = .ok (.hold (if u.fenceMet scope.toNat 4 then fenceReleases u scope.toNat else u) outside) := by
    rw [semFence_of_codes within (by omega) (by omega) begun, sc, State.fenceRelease_eq (by decide) (by decide), if_neg (show ¬4 = 1 by decide)]
    by_cases met : u.fenceMet scope.toNat 4 = true
    · simp only [met, turn, if_true, Bool.false_eq_true, if_false]
    · simp only [met, if_false, Bool.false_eq_true]
  have first : (if u.fenceMet scope.toNat 4 then fenceReleases u scope.toNat else u).me.stage ≤ 1 := by
    split <;> simp [me, fresh.1]
  rw [← done_hold_of_stage first]
  exact issue_ok fresh rfl rfl (bundles_any fun _ => rfl) result rfl

theorem exec_fence_of_group (sc : ord.toNat = 4) (group : s.effScope scope.toNat = 4) :
    exec (.fence scope ord) s = .next (((s.withOp (s.newOp 0 (.load []) .none none 4 scope.toNat none true)).syncSc 0x13 s.core.nextUid).modMe
      fun t => { t with stage := 1, wait := outside }) := by
  have op : s.opOf 0 (.load []) .none none 4 scope.toNat = s.newOp 0 (.load []) .none none 4 scope.toNat none true := by
    simp [State.opOf_eq_newOrdered, newOrdered, Machine.scStamp, group]
  have begun : (if s.me.stage = 0 then s.fenceBegin scope.toNat ord.toNat else s) =
      (s.withOp (s.newOp 0 (.load []) .none none 4 scope.toNat none true)).syncSc 0x13 s.core.nextUid := by
    simp only [fresh.1, if_true, State.fenceBegin, sc, ne_eq, not_true_eq_false, if_false, group, op]
    rw [State.addOp_of_unstamped _ rfl]
    rfl
  have unmet : ((s.withOp (s.newOp 0 (.load []) .none none 4 scope.toNat none true)).syncSc 0x13 s.core.nextUid).fenceMet scope.toNat ord.toNat =
      false := by
    have pending : ((s.withOp (s.newOp 0 (.load []) .none none 4 scope.toNat none true)).syncSc 0x13 s.core.nextUid).unperformed = true := by
      simp [State.unperformed, State.syncSc, State.syncQueue, State.withOp, State.newOp]
    rw [State.fenceMet, pending]
    rfl
  have result := semFence_of_codes within (by omega) (by omega) begun
  rw [if_neg (Bool.eq_false_iff.1 unmet)] at result
  have first : ((s.withOp (s.newOp 0 (.load []) .none none 4 scope.toNat none true)).syncSc 0x13 s.core.nextUid).me.stage ≤ 1 := by
    rw [State.syncSc_me, State.withOp_me, fresh.1]
    exact Nat.zero_le 1
  rw [← done_hold_of_stage first]
  exact issue_ok fresh rfl rfl (bundles_any fun _ => rfl) result rfl
end

section
variable {s u : State} {scope ord : BitVec 3} (begun : s.me.stage = 1) (landed : Landed s) (within : scope.toNat < 6) (some : 1 ≤ ord.toNat)
  (known : ord.toNat < 5)
include begun landed within some known

theorem exec_fence_of_begun_unmet (unmet : s.fenceMet scope.toNat ord.toNat = false) :
    exec (.fence scope ord) s = .next (s.modMe fun t => { t with wait := outside }) := by
  have result := semFence_of_codes within some known (if_neg (begun ▸ Nat.one_ne_zero) : (if s.me.stage = 0 then _ else s) = s)
  rw [if_neg (Bool.eq_false_iff.1 unmet)] at result
  rw [← done_hold_of_begun begun]
  exact issue_of_begun begun landed rfl rfl (fun _ => rfl) result rfl

theorem exec_fence_of_begun_met (met : s.fenceMet scope.toNat ord.toNat = true)
    (releases : u = if ord.toNat = 1 then s else fenceReleases s scope.toNat) :
    (u.fenceTurn = true → exec (.fence scope ord) s = .next (u.modMe fun t => { t with fence := none }).retired) ∧
    (u.fenceTurn = false → exec (.fence scope ord) s = .next (u.modMe fun t => { t with wait := outside })) := by
  have result := semFence_of_codes within some known (if_neg (begun ▸ Nat.one_ne_zero) : (if s.me.stage = 0 then _ else s) = s)
  rw [if_pos met, State.fenceRelease_eq some known, ← releases] at result
  constructor
  · intro turn
    rw [if_pos turn] at result
    exact issue_of_begun begun landed rfl rfl (fun _ => rfl) result rfl
  · intro turn
    have still : u.me.stage = 1 := by
      rw [releases]
      split <;> simp [begun]
    rw [if_neg (Bool.eq_false_iff.1 turn)] at result
    rw [← done_hold_of_begun still]
    exact issue_of_begun begun landed rfl rfl (fun _ => rfl) result rfl
end

/-! ### Pending sets (R302) -/

section
variable {s : State} {rd : BitVec 5} (written : Written s [rd])
include written

theorem semWfe_of_pending (some : s.me.pend ≠ 0) :
    semWfe rd s = .ok (.next ((s.setG rd s.me.pend).modMe fun t => { t with pend := 0 })) := by
  simp only [semWfe, ready_of_written written, ok_bind, beq_eq_false_iff_ne.2 some, waitIf_false]

theorem semWfe_of_empty (empty : s.me.pend = 0) : semWfe rd s = .error (.wait outside) := by
  simp only [semWfe, ready_of_written written, ok_bind, beq_iff_eq.2 empty, waitIf_true, error_bind]
end

/-! ### Tokens (R303) -/

theorem pair_split_iff (p : BitVec 4) (σ : StrandId) :
    ((pairFrom p == pairTo p || pairFrom p != σ.num) = false ↔ p.toNat / 4 = σ.num ∧ p.toNat % 4 ≠ σ.num) ∧
    ((pairFrom p == pairTo p || pairTo p != σ.num) = false ↔ p.toNat % 4 = σ.num ∧ p.toNat / 4 ≠ σ.num) := by
  simp only [pairFrom, pairTo, Bool.or_eq_false_iff, beq_eq_false_iff_ne, bne_eq_false_iff_eq]
  omega

section
variable {s : State} {p : BitVec 4} {rd : BitVec 5}

theorem semTsig_of_giver (gives : GivesTo s p) : semTsig p s = (do
    waitIf (s.core.tokenFull p.toNat) 2
    .ok (.next (({ s with core := s.core.setResv p.toNat (s.core.reserved p.toNat + 1) } : State).signalAfter (some p.toNat)))) := by
  simp only [semTsig, (pair_split_iff p s.cur).1.2 gives, illegalIf_false, ok_bind]

theorem semTwait_of_taker (takes : TakesFrom s p) : semTwait p s = (do
    waitIf (s.core.token p.toNat == 0) 1
    .ok (.next (s.withToken p (s.core.token p.toNat - 1)))) := by
  simp only [semTwait, (pair_split_iff p s.cur).2.2 takes, illegalIf_false, ok_bind]
  rfl

theorem semTtry_of_taker (takes : TakesFrom s p) (written : Written s [rd]) : semTtry rd p s =
    if s.core.token p.toNat = 0 then .ok (.next (s.setG rd 0)) else .ok (.next ((s.withToken p (s.core.token p.toNat - 1)).setG rd 1)) := by
  simp only [semTtry, (pair_split_iff p s.cur).2.2 takes, ready_of_written written, illegalIf_false, ok_bind]
  rfl

theorem semTsig_of_stranger (other : ¬GivesTo s p) : semTsig p s = illegal := by
  simp only [semTsig, Bool.not_eq_false _ ▸ mt (pair_split_iff p s.cur).1.1 other, illegalIf_true, error_bind, illegal]

theorem semTwait_of_stranger (other : ¬TakesFrom s p) : semTwait p s = illegal := by
  simp only [semTwait, Bool.not_eq_false _ ▸ mt (pair_split_iff p s.cur).2.1 other, illegalIf_true, error_bind, illegal]

theorem semTtry_of_stranger (other : ¬TakesFrom s p) : semTtry rd p s = illegal := by
  simp only [semTtry, Bool.not_eq_false _ ▸ mt (pair_split_iff p s.cur).2.1 other, illegalIf_true, error_bind, illegal]

/-- A place that is reserved and pushed at once leaves the reservations as they were. -/
theorem Core.pushReserved_setResv (c : Core) (p : Nat) : (c.setResv p (c.reserved p + 1)).pushReserved p = c.setToken p (c.token p + 1) := by
  have kept : (c.resv.set p (c.reserved p + 1)).set p ((c.setResv p (c.reserved p + 1)).reserved p - 1) = c.resv := by
    rw [List.set_set]
    by_cases inside : p < c.resv.length
    · simp [Core.reserved, inside]
    · exact List.set_eq_of_length_le (Nat.not_lt.1 inside)
  simp only [Core.pushReserved, Core.setToken, Core.setResv] at kept ⊢
  rw [kept]
  rfl

theorem State.unperformed_setResv (p n : Nat) : ({ s with core := s.core.setResv p n } : State).unperformed = s.unperformed := rfl

theorem signalAfter_of_quiet (quiet : Quiet s) (p : Nat) :
    ({ s with core := s.core.setResv p (s.core.reserved p + 1) } : State).signalAfter (some p) = { s with core := s.core.setToken p (s.core.token p + 1) } := by
  rw [State.signalAfter]
  dsimp only
  rw [State.unperformed_setResv, if_neg (Bool.eq_false_iff.1 quiet), Core.pushReserved_setResv]

theorem signalAfter_of_unperformed {u : State} (p : Nat) (pending : u.unperformed = true) :
    u.signalAfter (some p) = u.withOp (u.newOp 0 (.load []) .none (some p) 0 0 none false) := by
  rw [State.signalAfter]
  rw [if_pos pending, State.opOf_eq_newOrdered, newOrdered_plain, State.addOp_of_unstamped _ rfl]
end

/-! ### Sync bits (R193) -/

theorem State.setCc_eq (s : State) (cc : BitVec 4) (b : Bool) : ({ s with core := s.core.setCc cc.toNat b } : State) = s.withCc cc b := by
  have bit : BitVec.ofNat 16 (2 ^ cc.toNat) = (1 : BitVec 16) <<< cc.toNat := by
    apply BitVec.eq_of_toNat_eq
    simp [Nat.shiftLeft_eq]
  rw [Core.setCc, State.withCc, bit]

/-- Settles O7: each word by the branch that its hypotheses choose, a fence by whether what it orders is performed and by its turn. -/
theorem fencesTokensAndSyncBits : Obligations.FencesTokensAndSyncBits := by
  refine ⟨fun s rd scope ord fresh => ⟨?nop, ?met, ?unmet, ?stamped, ?group, ?badCode, ?wfe, ?wfeWaits⟩,
    fun s u scope ord begun landed within some known => ⟨?begunMet, ?begunUnmet⟩,
    fun s rd p fresh => ⟨?tsig, ?tsigLater, ?tsigFull, ?twait, ?twaitEmpty, ?ttry, ?ttryEmpty, ?noTsig, ?noTake⟩,
    fun s cc fresh => ⟨?ccset, ?ccsetWaits, ?ccclr, ?ccwait, ?ccwaitWaits⟩⟩
  case nop => exact issue_next fresh rfl rfl (bundles_any fun _ => rfl) rfl
  case met => exact fun within some plain unstamped met => exec_fence_of_met within fresh some plain unstamped met
  case unmet => exact fun within some plain unmet => exec_fence_of_unmet within fresh some plain unmet
  case stamped => exact fun u stamps within sc near => exec_fence_of_stamped within fresh sc near stamps
  case group => exact fun within sc group => exec_fence_of_group within fresh sc group
  case badCode => exact fun bad => issue_of_illegalSem fresh (semFence_of_badCode bad)
  case wfe => exact fun written some => issue_next fresh rfl rfl (bundles_any fun _ => rfl) (semWfe_of_pending written some)
  case wfeWaits => exact fun written empty => issue_wait fresh rfl rfl (bundles_any fun _ => rfl) (semWfe_of_empty written empty)
  case begunMet => exact fun met releases => exec_fence_of_begun_met begun landed within some known met releases
  case begunUnmet => exact exec_fence_of_begun_unmet begun landed within some known
  case tsig =>
    intro gives free quiet
    refine issue_next fresh rfl rfl (bundles_any fun _ => rfl) ((semTsig_of_giver gives).trans ?_)
    rw [Core.tokenFull, decide_eq_false (Nat.not_le.2 free), waitIf_false, ok_bind, signalAfter_of_quiet quiet]
    rfl
  case tsigLater =>
    intro u reserves gives free busy
    subst reserves
    refine issue_next fresh rfl rfl (bundles_any fun _ => rfl) ((semTsig_of_giver gives).trans ?_)
    rw [Core.tokenFull, decide_eq_false (Nat.not_le.2 free), waitIf_false, ok_bind, signalAfter_of_unperformed]
    rw [State.unperformed_setResv]
    exact Bool.not_eq_false _ ▸ busy
  case tsigFull =>
    intro gives full
    refine issue_wait fresh rfl rfl (bundles_any fun _ => rfl) ((semTsig_of_giver gives).trans ?_)
    rw [Core.tokenFull, decide_eq_true full, waitIf_true, error_bind]
  case twait =>
    intro takes some
    refine issue_next fresh rfl rfl (bundles_any fun _ => rfl) ((semTwait_of_taker takes).trans ?_)
    rw [beq_eq_false_iff_ne.2 some.ne', waitIf_false, ok_bind]
  case twaitEmpty =>
    intro takes empty
    refine issue_wait fresh rfl rfl (bundles_any fun _ => rfl) ((semTwait_of_taker takes).trans ?_)
    rw [beq_iff_eq.2 empty, waitIf_true, error_bind]
  case ttry => exact fun takes written some =>
    (issue_next fresh rfl rfl (bundles_any fun _ => rfl) ((semTtry_of_taker takes written).trans (if_neg some.ne')))
  case ttryEmpty => exact fun takes written empty =>
    (issue_next fresh rfl rfl (bundles_any fun _ => rfl) ((semTtry_of_taker takes written).trans (if_pos empty)))
  case noTsig => exact fun other => issue_of_illegalSem fresh (semTsig_of_stranger other)
  case noTake => exact fun other => ⟨issue_of_illegalSem fresh (semTwait_of_stranger other), issue_of_illegalSem fresh (semTtry_of_stranger other)⟩
  case ccset =>
    intro quiet
    refine issue_next fresh rfl rfl (bundles_any fun _ => rfl) ?_
    simp only [semCcset, quiet_of_quiet quiet, ok_bind, State.setCc_eq]
  case ccsetWaits =>
    intro busy
    refine issue_wait fresh rfl rfl (bundles_any fun _ => rfl) ?_
    simp only [semCcset, quiet, (Bool.not_eq_false _ ▸ busy : s.unperformed = true), waitIf_true, error_bind]
  case ccclr => exact issue_next fresh rfl rfl (bundles_any fun _ => rfl) (by rw [semCcclr, State.setCc_eq])
  case ccwait =>
    intro set
    exact issue_next fresh rfl rfl (bundles_any fun _ => rfl) (by simp only [semCcwait, set, Bool.not_true, waitIf_false, ok_bind])
  case ccwaitWaits =>
    intro clear
    exact issue_wait fresh rfl rfl (bundles_any fun _ => rfl) (by simp only [semCcwait, clear, Bool.not_false, waitIf_true, error_bind])

end Sys2Proof.Machine

namespace Sys2Proof.Machine

/-! ### Named barriers (R305) -/

theorem Barrier.arrive_eq (v : Barrier) (m : BitVec 4) (σ : StrandId) : v.arrive m σ.num = barArrives v m σ.num := by
  have bit : BitVec.ofNat 4 (2 ^ σ.num) = (1 : BitVec 4) <<< σ.num := by cases σ <;> rfl
  rw [Barrier.arrive, barArrives, bit]

/-- Unless it is the last, a strand that arrives stands among those that have arrived. -/
theorem barArrives_getLsbD (v : Barrier) (m : BitVec 4) (σ : StrandId) :
    (barArrives v m σ.num).a.getLsbD σ.num = decide ((barArrives v m σ.num).a ≠ 0) := by
  have bit : (v.a ||| (1 : BitVec 4) <<< σ.num).getLsbD σ.num = true := by cases σ <;> simp [StrandId.num]
  unfold barArrives
  split
  · simp
  · have some : v.a ||| (1 : BitVec 4) <<< σ.num ≠ 0 := fun zero => by rw [zero] at bit; simp at bit
    rw [bit, decide_eq_true some]

theorem State.bar_withBar {s : State} (whole : s.core.bars.length = 256) (b : BitVec 8) (v : Barrier) : (s.withBar b v).core.bar b = v := by
  have inside : b.toNat < s.core.bars.length := whole ▸ b.isLt
  simp [State.withBar, Core.bar, List.getD_eq_getElem?_getD, inside]

section
variable {s : State} {m : BitVec 4} {b : BitVec 8}

theorem State.barArrive_of_stranger (other : m.getLsbD s.cur.num = false) : s.barArrive m b = illegal := by
  simp only [State.barArrive, other, Bool.not_false, Bool.or_true, illegalIf_true, error_bind, illegal]

section
variable (member : m.getLsbD s.cur.num = true)
include member

theorem State.barArrive_of_member : s.barArrive m b = (do
    waitIf ((s.core.bar b).a.getLsbD s.cur.num) 10
    illegalIf ((s.core.bar b).a != 0 && (s.core.bar b).p != m)
    quiet s
    .ok (s.withBar b (barArrives (s.core.bar b) m s.cur.num))) := by
  have some : (m == 0) = false := beq_eq_false_iff_ne.2 fun zero => by rw [zero] at member; simp at member
  simp only [State.barArrive, some, member, Bool.not_true, Bool.or_self, illegalIf_false, ok_bind, Barrier.arrive_eq]
  rfl

theorem State.barArrive_of_arrived (arrived : (s.core.bar b).a.getLsbD s.cur.num = true) : s.barArrive m b = .error (.wait 10) := by
  rw [State.barArrive_of_member member, arrived, waitIf_true, error_bind]

variable (absent : (s.core.bar b).a.getLsbD s.cur.num = false)
include absent

theorem State.barArrive_of_otherMask (some : (s.core.bar b).a ≠ 0) (other : (s.core.bar b).p ≠ m) : s.barArrive m b = illegal := by
  rw [State.barArrive_of_member member, absent, waitIf_false, ok_bind, bne_iff_ne.2 some, bne_iff_ne.2 other]
  rfl

variable (phase : (s.core.bar b).a = 0 ∨ (s.core.bar b).p = m)
include phase

theorem State.barArrive_of_samePhase : s.barArrive m b = (do
    quiet s
    .ok (s.withBar b (barArrives (s.core.bar b) m s.cur.num))) := by
  have agrees : ((s.core.bar b).a != 0 && (s.core.bar b).p != m) = false := by rcases phase with h | h <;> simp [h]
  rw [State.barArrive_of_member member, absent, waitIf_false, ok_bind, agrees, illegalIf_false, ok_bind]

theorem State.barArrive_of_quiet (still : Quiet s) : s.barArrive m b = .ok (s.withBar b (barArrives (s.core.bar b) m s.cur.num)) := by
  rw [State.barArrive_of_samePhase member absent phase, quiet_of_quiet still, ok_bind]

theorem State.barArrive_of_unquiet (busy : ¬Quiet s) : s.barArrive m b = .error (.wait outside) := by
  rw [State.barArrive_of_samePhase member absent phase, quiet, (Bool.not_eq_false _ ▸ busy : s.unperformed = true), waitIf_true, error_bind]
end

section
variable (fresh : Fresh s)
include fresh

/-- Both words that arrive stop as their arrival does. -/
theorem exec_bararr_of_stop {e : Stop} (stops : s.barArrive m b = .error e) :
    exec (.bararr m b) s = s.stop (.bararr m b) e ∧ exec (.barsync m b) s = s.stop (.barsync m b) e :=
  ⟨issue_stop fresh rfl rfl (bundles_any fun _ => rfl) (by rw [semBararr, stops, error_bind]),
    issue_stop fresh rfl rfl (bundles_any fun _ => rfl) (by rw [semBarsync, if_pos fresh.1, stops, error_bind])⟩

theorem exec_bararr_of_arrival {u : State} (arrives : s.barArrive m b = .ok u) : exec (.bararr m b) s = .next u.retired :=
  issue_next fresh rfl rfl (bundles_any fun _ => rfl) (by rw [semBararr, arrives, ok_bind])

theorem exec_barsync_of_arrival {v : Barrier} (whole : s.core.bars.length = 256) (arrives : s.barArrive m b = .ok (s.withBar b v)) :
    (v.a.getLsbD s.cur.num = false → exec (.barsync m b) s = .next (s.withBar b v).retired) ∧
    (v.a.getLsbD s.cur.num = true → exec (.barsync m b) s = .next ((s.withBar b v).modMe fun t => { t with stage := 1, wait := 10 })) := by
  have sem : semBarsync m b s = if v.a.getLsbD s.cur.num then .ok (.hold (s.withBar b v) 10) else .ok (.next (s.withBar b v)) := by
    rw [semBarsync, if_pos fresh.1, arrives, ok_bind]
    beta_reduce
    rw [State.bar_withBar whole]
    rfl
  constructor
  · intro last
    rw [last, if_neg Bool.false_ne_true] at sem
    exact issue_next fresh rfl rfl (bundles_any fun _ => rfl) sem
  · intro waits
    have first : (s.withBar b v).me.stage ≤ 1 := by
      rw [State.me_of_strands (s := s) (t := s.withBar b v) rfl fun σ => by cases σ <;> rfl, fresh.1]
      exact Nat.zero_le 1
    rw [waits, if_pos rfl] at sem
    rw [← done_hold_of_stage first]
    exact issue_ok fresh rfl rfl (bundles_any fun _ => rfl) sem rfl

theorem exec_barwait :
    ((s.core.bar b).a.getLsbD s.cur.num = false → exec (.barwait b) s = .next s.retired) ∧
    ((s.core.bar b).a.getLsbD s.cur.num = true → exec (.barwait b) s = .next (s.modMe fun t => { t with stage := 1, wait := 10 })) := by
  constructor
  · intro absent
    exact issue_next fresh rfl rfl (bundles_any fun _ => rfl) (if_neg (Bool.eq_false_iff.1 absent))
  · intro arrived
    rw [← done_hold_of_stage (fresh.1.trans_le (Nat.zero_le 1))]
    exact issue_ok (d := .hold s 10) fresh rfl rfl (bundles_any fun _ => rfl) (if_pos arrived) rfl
end
end

/-! ### Domain synchronisation (R202, R306) -/

theorem flipPhase_core (w : Word) : flipPhase w 0 =
    if w.getLsbD 59 then setBits (setBits w 59 1 0) 48 8 (bitsAt w 48 8 + 1) else setBits w 59 1 1 := by
  have bit : w.getLsbD 59 = decide (bitsAt w 59 1 = 1) := Nat.testBit_eq_decide_div_mod_eq
  have kept : bitsAt (setBits w 59 1 0) 48 8 = bitsAt w 48 8 := by
    have small := w.isLt
    simp only [bitsAt, setBits, BitVec.toNat_ofNat]
    omega
  have two : bitsAt w 59 1 < 2 := Nat.mod_lt _ (by decide)
  rw [bit]
  by_cases one : bitsAt w 59 1 = 1
  · simp [flipPhase, ssField, one, kept]
  · have zero : bitsAt w 59 1 = 0 := by omega
    simp [flipPhase, zero]

section
variable {s : State} {lv : BitVec 3}

/-- What `DSYNC` does once its checks pass: it arrives unless it has, and completes where its core has departed. -/
theorem semDsync_of_checks (live : s.me.wait ≠ stranded) (user : s.core.tl = 0) (level : lv.toNat < 5)
    (named : lv.toNat = 0 ∨ dmemId s.core.dmem lv.toNat ≠ 0) : semDsync lv s = (do
      let s ← if s.me.stage = 0 then do
          waitIf (lv.toNat != 0 && (s.domainOf s.ctx lv.toNat (dmemId s.core.dmem lv.toNat)).isNone) stranded
          quiet s
          waitIf (!s.drainedNow s.core.idx (s.effScope lv.toNat)) outside
          .ok (s.dsyncArrive lv.toNat)
        else .ok s
      if s.me.stage = 1 then .ok (.next s) else .ok (.hold s (if lv.toNat = 0 then 8 else outside))) := by
  have checks : (decide (5 ≤ lv.toNat) || decide (s.core.tl ≠ 0) || (lv.toNat != 0 && dmemId s.core.dmem lv.toNat == 0)) = false := by
    rcases named with zero | named
    · simp [user, zero]
    · simp [user, named, Nat.not_le.2 level]
  simp only [semDsync, beq_eq_false_iff_ne.2 live, waitIf_false, ok_bind, checks, illegalIf_false]
  rfl

theorem semDsync_of_bad (live : s.me.wait ≠ stranded)
    (bad : 5 ≤ lv.toNat ∨ s.core.tl ≠ 0 ∨ (lv.toNat ≠ 0 ∧ dmemId s.core.dmem lv.toNat = 0)) : semDsync lv s = illegal := by
  have checks : (decide (5 ≤ lv.toNat) || decide (s.core.tl ≠ 0) || (lv.toNat != 0 && dmemId s.core.dmem lv.toNat == 0)) = true := by
    rcases bad with high | handler | ⟨level, unnamed⟩
    · simp [high]
    · simp [handler]
    · simp [level, unnamed]
  simp only [semDsync, beq_eq_false_iff_ne.2 live, waitIf_false, ok_bind, checks, illegalIf_true, error_bind, illegal]

theorem semDsync_of_departed (live : s.me.wait ≠ stranded) (departed : s.me.stage = 1) (user : s.core.tl = 0) (level : lv.toNat < 5)
    (named : lv.toNat = 0 ∨ dmemId s.core.dmem lv.toNat ≠ 0) : semDsync lv s = .ok (.next s) := by
  rw [semDsync_of_checks live user level named, if_neg (by rw [departed]; decide), ok_bind]
  exact if_pos departed

theorem semDsync_of_noDomain (live : s.me.wait ≠ stranded) (first : s.me.stage = 0) (user : s.core.tl = 0) (level : lv.toNat < 5)
    (domain : lv.toNat ≠ 0) (named : dmemId s.core.dmem lv.toNat ≠ 0)
    (none : s.domainOf s.core.view.ctx lv.toNat (dmemId s.core.dmem lv.toNat) = .none) : semDsync lv s = .error (.wait stranded) := by
  have lost : (lv.toNat != 0 && (s.domainOf s.ctx lv.toNat (dmemId s.core.dmem lv.toNat)).isNone) = true := by
    rw [State.ctx, none, bne_iff_ne.2 domain]
    rfl
  rw [semDsync_of_checks live user level (.inr named), if_pos first, lost, waitIf_true, error_bind]

/-- A strand whose earlier operations are performed arrives. -/
theorem semDsync_of_arrival {t : State} (live : s.me.wait ≠ stranded) (first : s.me.stage = 0) (user : s.core.tl = 0) (level : lv.toNat < 5)
    (domain : lv.toNat ≠ 0 → dmemId s.core.dmem lv.toNat ≠ 0 ∧
      (s.domainOf s.core.view.ctx lv.toNat (dmemId s.core.dmem lv.toNat)).isSome = true)
    (still : Quiet s) (drained : s.drainedNow s.core.idx (s.effScope lv.toNat) = true) (arrives : s.dsyncArrive lv.toNat = t) :
    semDsync lv s = if t.me.stage = 1 then .ok (.next t) else .ok (.hold t (if lv.toNat = 0 then 8 else outside)) := by
  have named : lv.toNat = 0 ∨ dmemId s.core.dmem lv.toNat ≠ 0 := or_iff_not_imp_left.2 fun some => (domain some).1
  have found : (lv.toNat != 0 && (s.domainOf s.ctx lv.toNat (dmemId s.core.dmem lv.toNat)).isNone) = false := by
    by_cases zero : lv.toNat = 0
    · simp [zero]
    · rw [State.ctx, Option.isNone_eq_false_iff.2 (domain zero).2, Bool.and_false]
  rw [semDsync_of_checks live user level named, if_pos first, found, waitIf_false, ok_bind, quiet_of_quiet still, ok_bind, drained, Bool.not_true,
    waitIf_false, ok_bind, ok_bind, arrives]

/-- K's departure from the core's own level, where no other strand waits there. -/
theorem Core.depart_of_k {c : Core} (l : c.l.stage ≠ 2) (x : c.x.stage ≠ 2) (st : c.s.stage ≠ 2) (t : Strand) :
    (c.setStrand .k { t with stage := 2 + 0 }).depart 0 = c.stepsOn.setStrand .k { t with stage := 1, wait := 0 } := by
  simp [Core.depart, Core.setStrand, Strand.departed, l, x, st, Core.stepsOn, flipPhase_core]

/-- In a bundle the core's own level is complete at once. -/
theorem State.dsyncArrive_of_bundle (bundles : s.core.split = false) (user : s.core.tl = 0) (cur : s.cur = .k) (l : s.core.l.stage ≠ 2)
    (x : s.core.x.stage ≠ 2) (st : s.core.s.stage ≠ 2) :
    s.dsyncArrive 0 = { s with core := s.core.stepsOn.setStrand s.cur { s.me with stage := 1, wait := 0 } } := by
  have arrived : (s.modMe fun t => { t with stage := 2 + 0 }).coreArrived 0 = true := by
    simp [State.coreArrived, State.wordMode, Core.wordMode, State.modMe_eq, bundles, user]
  rw [State.dsyncArrive, State.coreArrival, arrived, if_neg (by decide), if_pos rfl]
  have departs := Core.depart_of_k l x st s.me
  rw [← cur] at departs
  exact congrArg (fun c => { s with core := c }) departs

theorem State.dsyncArrive_of_waiting {n : Nat} (split : s.core.split = true)
    (others : ∃ σ, σ ≠ s.cur ∧ (s.strand σ).stage ≠ 2 + n ∧ (s.strand σ).parked = false) :
    s.dsyncArrive n = s.modMe fun t => { t with stage := 2 + n } := by
  obtain ⟨σ, other, stage, awake⟩ := others
  have same : (s.modMe fun t => { t with stage := 2 + n }).strand σ = s.strand σ := by
    rw [State.modMe_eq, State.strand, State.setStrand_core, Core.setStrand_strand_of_ne _ _ _ _ other, State.strand]
  have words : (s.modMe fun t => { t with stage := 2 + n }).wordMode = true := by
    simp [State.wordMode, Core.wordMode, State.modMe_eq, split]
  have absent : (allStrands.all fun τ => ((s.modMe fun t => { t with stage := 2 + n }).strand τ).stage == 2 + n ||
      ((s.modMe fun t => { t with stage := 2 + n }).strand τ).parked) = false := by
    refine List.all_eq_false.2 ⟨σ, by cases σ <;> decide, ?_⟩
    rw [same, beq_eq_false_iff_ne.2 stage, awake]
    decide
  rw [State.dsyncArrive, State.coreArrival, State.coreArrived, words, absent]
  rfl
end

/-- Settles O9: a barrier by who has arrived with which mask, `DSYNC` by what the arrival of its core leaves of the strand. -/
theorem barriersAndDomains : Obligations.BarriersAndDomains := by
  refine ⟨fun s m b fresh whole => ⟨?arrived, ?unquiet, ?bararr, ?last, ?waits, ?barwait, ?barwaitWaits, ?stranger, ?otherMask⟩,
    fun s lv live => ⟨?bundle, ?split, ?departed, ?noDomain, ?bad⟩⟩
  case arrived => exact fun member arrived => exec_bararr_of_stop fresh (State.barArrive_of_arrived member arrived)
  case unquiet => exact fun member absent phase busy => exec_bararr_of_stop fresh (State.barArrive_of_unquiet member absent phase busy)
  case bararr =>
    rintro ⟨member, absent, phase, still⟩
    exact exec_bararr_of_arrival fresh (State.barArrive_of_quiet member absent phase still)
  case last =>
    rintro ⟨member, absent, phase, still⟩ zero
    refine (exec_barsync_of_arrival fresh whole (State.barArrive_of_quiet member absent phase still)).1 ?_
    rw [barArrives_getLsbD, zero]
    decide
  case waits =>
    rintro ⟨member, absent, phase, still⟩ some
    refine (exec_barsync_of_arrival fresh whole (State.barArrive_of_quiet member absent phase still)).2 ?_
    rw [barArrives_getLsbD, decide_eq_true some]
  case barwait => exact (exec_barwait fresh).1
  case barwaitWaits => exact (exec_barwait fresh).2
  case stranger => exact fun other => exec_bararr_of_stop fresh (State.barArrive_of_stranger other)
  case otherMask => exact fun member absent some other => exec_bararr_of_stop fresh (State.barArrive_of_otherMask member absent some other)
  case bundle =>
    intro fresh user bundles cur still drained l x st
    have result := semDsync_of_arrival (lv := 0) live fresh.1 user (by decide) (absurd rfl) still drained
      (State.dsyncArrive_of_bundle bundles user cur l x st)
    refine issue_next fresh rfl rfl (bundles_any fun _ => rfl) (result.trans (if_pos ?_))
    simp [State.me, State.strand]
  case split =>
    intro fresh user level domain still drained
    constructor
    · intro t arrives departed
      have result := semDsync_of_arrival live fresh.1 user level domain still drained arrives.symm
      exact issue_next fresh rfl rfl (bundles_any fun _ => rfl) (result.trans (if_pos departed))
    · intro split others
      have result := semDsync_of_arrival live fresh.1 user level domain still drained (State.dsyncArrive_of_waiting split others)
      rw [if_neg (by rw [State.modMe_me]; exact fun one => by simp at one; omega)] at result
      refine (issue_ok fresh rfl rfl (bundles_any fun _ => rfl) result rfl).trans (congrArg _ ?_)
      rw [State.done, State.modMe_modMe]
      exact State.modMe_congr (by rw [Nat.max_eq_right (Nat.le_add_right_of_le (by decide))])
  case departed => exact fun departed landed user level named =>
    (issue_of_begun departed landed rfl rfl (fun _ => rfl) (semDsync_of_departed live departed user level named) rfl)
  case noDomain => exact fun fresh user level domain named none =>
    (issue_wait fresh rfl rfl (bundles_any fun _ => rfl) (semDsync_of_noDomain live fresh.1 user level domain named none))
  case bad => exact fun fresh bad => issue_of_illegalSem fresh (semDsync_of_bad live bad)

end Sys2Proof.Machine

namespace Sys2Proof.Machine

/-! ### What the sync field leaves (R263) -/

theorem Core.afterSync_eq (c : Core) (y : BitVec 2) (p q : Nat) :
    ∃ tokens resv, c.afterSync y p q = { c with tokens := tokens, resv := resv } := by
  unfold Core.afterSync
  cases y.getLsbD 0 <;> cases y.getLsbD 1 <;> exact ⟨_, _, rfl⟩

/-- The sync field changes the token counters and their reservations alone. -/
theorem State.syncTake_frame {s v : State} {y : BitVec 2} {sig : Option Nat} (taken : s.syncTake y = .ok (v, sig)) :
    ∃ tokens resv, v = { s with core := { s.core with tokens := tokens, resv := resv } } := by
  rcases pair : partners s.cur with _ | ⟨w, g⟩
  · rw [State.syncTake, pair] at taken
    dsimp only at taken
    split at taken
    · cases taken
      exact ⟨_, _, rfl⟩
    · cases taken
  · cases short : (y.getLsbD 0 && s.core.token (pairOf w s.cur) == 0)
    · cases full : (y.getLsbD 1 && s.core.tokenFull (pairOf s.cur g))
      · rw [syncTake_of_free pair short full] at taken
        obtain ⟨tokens, resv, eq⟩ := Core.afterSync_eq s.core y (pairOf w s.cur) (pairOf s.cur g)
        exact ⟨tokens, resv, by rw [← eq, (Prod.mk.inj (Except.ok.inj taken)).1]⟩
      · obtain ⟨gives, full⟩ := Bool.and_eq_true_iff.1 full
        rw [syncTake_of_full pair short gives full] at taken
        cases taken
    · obtain ⟨takes, empty⟩ := Bool.and_eq_true_iff.1 short
      rw [syncTake_of_noToken pair takes (by simpa using empty)] at taken
      cases taken

section
variable {s v : State} {y : BitVec 2} {sig : Option Nat} (taken : s.syncTake y = .ok (v, sig))
include taken

theorem State.syncTake_me : v.me = s.me := by
  obtain ⟨tokens, resv, rfl⟩ := State.syncTake_frame taken
  exact State.me_of_strands rfl fun σ => by cases σ <;> rfl

theorem State.syncTake_g (r : BitVec 5) : v.g r = s.g r := by rw [State.g, State.g, State.syncTake_me taken]
end

/-! ### Accesses of a word as it issues (R22, R94, R139, R297) -/

section
variable {α : Type} {i : Instr} {sem : Sem} {s t : State} (form : exec i s = issue i sem s) (fresh : Fresh s) (issued : i.issuedBy s.cur = true)
  (fields : i.fieldsOk = true) (anywhere : ∀ σ, bundleForbids i σ = false)
include form fresh issued fields anywhere

theorem stopRule_of_sem {r : Except Stop α} {f : α → Except Stop Done} (does : sem s = r >>= f) : StopRule s i r := by
  rintro e rfl
  exact form.trans (issue_stop fresh issued fields (bundles_any anywhere) does)

theorem loadRule_of_sem {a : Word} {ss : List Span} {dest : Dest} {sig : Option Nat} {ord scope : Nat}
    (does : sem s = .ok (.next (t.issueOp a (.load ss) dest sig ord scope))) : LoadRule s t i a ss dest sig ord scope := by
  rw [State.issueOp_eq_orderedOp] at does
  exact form.trans (issue_next fresh issued fields (bundles_any anywhere) does)

theorem storeRule_of_sem {a : Word} {ss : List Span} {data : List Byte} {sig : Option Nat} {ord scope : Nat}
    (does : sem s = t.issueStore a ss data sig ord scope >>= fun u => .ok (.next u)) : StoreRule s t i a ss data sig ord scope := by
  rw [State.issueStore] at does
  constructor
  · intro near
    rw [List.find?_eq_none.2 fun p member => by simpa using near p member] at does
    dsimp only at does
    rw [State.issueOp_eq_orderedOp] at does
    exact form.trans (issue_next fresh issued fields (bundles_any anywhere) does)
  · intro p found
    rw [found] at does
    dsimp only at does
    constructor
    · intro full
      rw [if_pos full] at does
      exact form.trans (issue_wait fresh issued fields (bundles_any anywhere) does)
    · intro free u posts
      rw [if_neg (Bool.eq_false_iff.1 free), State.opOf_eq_newOrdered, ← posts] at does
      exact form.trans (issue_next fresh issued fields (bundles_any anywhere) does)
end

/-! ### Scalar loads and stores (R297) -/

section
variable {s v : State} {rd ra : BitVec 5} {y : BitVec 2} {off : BitVec 13} {sig : Option Nat} (written : Written s [ra, rd])
  (taken : s.syncTake y = .ok (v, sig))
include written taken

theorem scalarLoad_of_taken (size : Nat) (signed : Bool) : scalarLoad size signed rd ra y off s = (do
    let ss ← v.access (if size = 8 then .loadD else .load) (baseOff s ra off size) size
    match devSpan ss with
    | some d => .ok ((v.setG rd (v.devRead d)).deviceDone sig)
    | none => .ok (.next ((v.countZeros ss).issueOp (baseOff s ra off size) (.load ss)
        (if rd = 0 then .none else .reg (s.me.key rd.toNat) size signed) sig 0 0))) := by
  simp only [scalarLoad, ready_of_written written, taken, ok_bind, State.syncTake_g taken, State.regDest, State.syncTake_me taken]
    <;> rfl

theorem scalarStore_of_taken (size : Nat) : scalarStore size rd ra y off s = (do
    let ss ← v.access (if size = 8 then .storeD else .store) (baseOff s ra off size) size
    match devSpan ss with
    | some d => .ok ((v.devWrite d (s.g rd)).deviceDone sig)
    | none => v.issueStore (baseOff s ra off size) ss (natBytes size (s.g rd).toNat) sig 0 0 >>= fun u => .ok (.next u)) := by
  simp only [scalarStore, ready_of_written written, taken, ok_bind, State.syncTake_g taken]
    <;> rfl

variable (fresh : Fresh s)
include fresh

theorem scalarLoad_rule {i : Instr} {size : Nat} {signed : Bool} (form : exec i s = issue i (scalarLoad size signed rd ra y off) s)
    (issued : i.issuedBy s.cur = true) (fields : i.fieldsOk = true) (anywhere : ∀ σ, bundleForbids i σ = false) :
    ScalarLoad s v i rd ra off size signed sig := by
  rintro r rfl
  have does := scalarLoad_of_taken (off := off) written taken size signed
  refine ⟨stopRule_of_sem form fresh issued fields anywhere does, fun ss granted plain => ?_⟩
  refine loadRule_of_sem form fresh issued fields anywhere (does.trans ?_)
  rw [granted, ok_bind, plain]
  rfl

theorem scalarStore_rule {i : Instr} {size : Nat} (form : exec i s = issue i (scalarStore size rd ra y off) s)
    (issued : i.issuedBy s.cur = true) (fields : i.fieldsOk = true) (anywhere : ∀ σ, bundleForbids i σ = false) :
    ScalarStore s v i rd ra off size sig := by
  rintro r rfl
  have does := scalarStore_of_taken (off := off) written taken size
  refine ⟨stopRule_of_sem form fresh issued fields anywhere does, fun ss granted plain => ?_⟩
  refine storeRule_of_sem form fresh issued fields anywhere (does.trans ?_)
  rw [granted, ok_bind, plain]
end

/-- Settles O12: each word is one of the two shared forms, at its size and sign. -/
theorem scalarLoadsAndStores : Obligations.ScalarLoadsAndStores := by
  refine ⟨fun s v rd ra y off sig fresh written taken => ⟨?ldb, ?ldbu, ?ldh, ?ldhu, ?ldw, ?ldwu, ?ldd⟩,
    fun s v rd ra y off sig fresh written taken => ⟨?stb, ?sth, ?stw, ?std⟩⟩
  case ldb | ldbu | ldh | ldhu | ldw | ldwu | ldd => exact scalarLoad_rule written taken fresh rfl rfl rfl fun _ => rfl
  case stb | sth | stw | std => exact scalarStore_rule written taken fresh rfl rfl rfl fun _ => rfl

end Sys2Proof.Machine

namespace Sys2Proof.Machine

/-! ### An operation that is performed (R94, R263) -/

theorem loadValue_eq (size : Nat) (signed : Bool) (bs : List Byte) : loadValue size signed bs =
    if signed then (BitVec.ofNat (8 * size) (bytesNat (bs.take size))).signExtend 64 else BitVec.ofNat 64 (bytesNat (bs.take size)) := by
  rw [loadValue, sextNat_eq_signExtend]

theorem MemOp.hasPlace_peer {o : MemOp} (near : NoPeer o.spans) : o.hasPlace .peer = false :=
  List.any_eq_false.2 fun p member => by simpa using near p member

theorem MemOp.answered_of_near {o : MemOp} (near : NoPeer o.spans) : o.answered = true :=
  List.all_eq_true.2 fun p member => by simp [near p.1 (List.fst_mem_of_mem_zipIdx member)]

theorem MemOp.relScope_of_plain {o : MemOp} (ord : o.ord = 0) (rel : o.rel = 0) : o.relScope = none := by
  simp [MemOp.relScope, ord, rel, relSide]

section
variable {s : State} {o : MemOp} {ss : List Span} (plain : PlainOp s o)
include plain

/-- Nothing holds a plain operation up where it is its turn and no span of it is another module's. -/
theorem State.perform_of_plain (near : NoPeer o.spans) (unfenced : s.spansFenced o.spans = false) :
    (o.act = .load ss → s.perform s.core.idx o.uid = s.performLoad s.core o) ∧
      ∀ bs, o.act = .store ss bs → s.perform s.core.idx o.uid = s.performStore s.core o bs := by
  obtain ⟨found, noSlot, -, -, -, -, -, ready, due, free⟩ := plain
  have goes : (o.slot.isSome || (!o.sent && (o.hasPlace .peer || !s.opReady s.core o)) || s.notYet (.op s.core.idx o.uid) ||
      s.flitHeld s.core.idx o.uid) = false := by
    simp [noSlot, MemOp.hasPlace_peer near, ready, due, free]
  constructor
  · intro act
    simp only [State.perform, State.coreAt_self, found, goes, unfenced, act, Bool.false_eq_true, if_false]
  · intro bs act
    simp only [State.perform, State.coreAt_self, found, goes, unfenced, act, Bool.false_eq_true, if_false]

/-- A plain load whose units are granted delivers the bytes read and retires. -/
theorem State.performLoad_of_plain {v : State} {bs : List Byte} (act : o.act = .load ss) (near : NoPeer ss)
    (read : s.readSpans (s.core.whoOf o) ss = .ok (v, bs, false)) :
    s.performLoad s.core o = .done (v.modCore s.core.idx fun c => (c.deliver o bs).retire o) := by
  obtain ⟨-, -, -, ord, -, -, got, -⟩ := plain
  have spans : o.spans = ss := by rw [MemOp.spans, act, MemAct.spans]
  rw [State.readSpans] at read
  split at read
  · cases read
  next s1 rss asked =>
    have granted := Except.ok.inj read
    rw [State.performLoad, MemOp.answered_of_near (spans ▸ near), spans, asked]
    simp only [Bool.not_true, Bool.false_eq_true, if_false, got]
    rw [show s.core.view.ctx = (s.core.whoOf o).ctx from rfl, granted]
    simp only [Bool.false_eq_true, if_false, State.scRead, ord]
    rfl

/-- A plain store whose units are granted writes its bytes and retires. -/
theorem State.performStore_of_plain {v : State} {bs : List Byte} (act : o.act = .store ss bs) (rel : o.rel = 0) (near : NoPeer ss)
    (wrote : s.writeSpans (s.core.whoOf o) ss bs = .ok v) :
    s.performStore s.core o bs = .done (v.modCore s.core.idx fun c => c.retire o) := by
  obtain ⟨-, -, -, ord, stamp, -⟩ := plain
  have spans : o.spans = ss := by rw [MemOp.spans, act, MemAct.spans]
  have pinless : o.pinScope = none := by rw [MemOp.pinScope, act]; exact MemOp.relScope_of_plain ord rel
  rw [State.writeSpans] at wrote
  split at wrote
  · cases wrote
  next s1 rss asked =>
    rw [State.performStore, MemOp.hasPlace_peer (spans ▸ near), spans, asked, ← Except.ok.inj wrote]
    simp only [State.writeAs, pinless, State.scWrote, stamp, State.scMark, spans]
    rfl
end

/-- Settles O16: a plain operation performs at once, and its completion is the step that delivers or writes. -/
theorem operationsPerformed : Obligations.OperationsPerformed := by
  constructor
  · intro s v o ss bs d key size signed plain act dest near unfenced read
    have spans : o.spans = ss := by rw [MemOp.spans, act, MemAct.spans]
    have performed := ((State.perform_of_plain plain (spans ▸ near) (spans ▸ unfenced)).1 act).trans
      (State.performLoad_of_plain plain act near read)
    have form : exec (.readResponse o.uid d) s = execReadResponse o.uid d s := rfl
    rw [form, execReadResponse, plain.1]
    simp only [MemOp.hasPlace_peer (spans ▸ near), performed, Bool.false_eq_true, if_false, perfOutcome, Core.deliver, dest, loadValue_eq]
  · intro s v o ss bs plain act rel near unfenced wrote
    have spans : o.spans = ss := by rw [MemOp.spans, act, MemAct.spans]
    have performed := ((State.perform_of_plain plain (spans ▸ near) (spans ▸ unfenced)).2 bs act).trans
      (State.performStore_of_plain plain act rel near wrote)
    have form : exec (.writeCompletion o.uid) s = execWriteCompletion o.uid s := rfl
    rw [form, execWriteCompletion, plain.1]
    simp only [plain.2.1, MemOp.hasPlace_peer (spans ▸ near), performed, Option.isSome_none, Bool.false_and, Bool.false_eq_true, if_false, perfOutcome]

end Sys2Proof.Machine

namespace Sys2Proof.Machine

/-! ### A store where a record of the line is too short (R66) -/

/-- A store of four bytes inside the line whose record is too short. -/
def shortStore : MemOp := shortCopy.newOp 0 (.store [innerSpan] fourBytes) .none none 0 0 none false

/-- The strand's one outstanding operation is that store; no cache holds a line and no frame moves. -/
def storingShort : State := { shortCopy with core := { shortCopy.core with ops := [shortStore] } }

theorem storingShort_plain : PlainOp storingShort shortStore := by decide +kernel

theorem storingShort_grants : (storingShort.writeSpans (storingShort.core.whoOf shortStore) [innerSpan] fourBytes).toOption.isSome = true := by
  decide +kernel

/-- The first byte of the store, read by the hub once it is performed: the dirty copy has no byte at its place in the unit. -/
def shortStoreRead : Option (List Byte) :=
  match exec (.writeCompletion shortStore.uid) storingShort with
  | .next t => some (t.readMem 132 1)
  | _ => none

theorem shortStoreRead_eq : shortStoreRead = some [] := by decide +kernel

/-- Refutes O57: no cache holds a line, but a record of its bytes is left that is shorter than the line, and a store through the caches lays its
bytes over that record at the wrong place: the byte at address 132 then reads as nothing. -/
theorem not_memoryFrame : ¬ Obligations.MemoryFrame := by
  intro frame
  obtain ⟨v, granted⟩ : ∃ v, storingShort.writeSpans (storingShort.core.whoOf shortStore) [innerSpan] fourBytes = .ok v := by
    have grants := storingShort_grants
    revert grants
    cases storingShort.writeSpans (storingShort.core.whoOf shortStore) [innerSpan] fourBytes with
    | error e => exact fun refused => absurd refused Bool.false_ne_true
    | ok v => exact fun _ => ⟨v, rfl⟩
  have read := shortStoreRead_eq
  unfold shortStoreRead at read
  cases performed : exec (.writeCompletion shortStore.uid) storingShort with
  | next t =>
    rw [performed] at read
    obtain ⟨inMemory, -⟩ := (frame storingShort t v 0 0 0 0 none 0).2 shortStore innerSpan fourBytes storingShort_plain rfl rfl (by decide +kernel)
      rfl (by decide) rfl rfl rfl (by decide) granted performed
    have kept : t.readMem 132 1 = [1] := (inMemory rfl).1 132 (by decide)
    exact absurd (kept.symm.trans (Option.some.inj read)) (by decide)
  | _ => rw [performed] at read; cases read

end Sys2Proof.Machine

namespace Sys2Proof.Machine

/-! ### What stands behind the home agents leaves the current core -/

@[simp] theorem State.track_core (s : State) (h pa die : Nat) : (s.track h pa die).core = s.core := by
  unfold State.track
  dsimp only
  repeat' split
  all_goals rfl

@[simp] theorem State.mscPin_core (s : State) (st line : Nat) : (s.mscPin st line).2.core = s.core := by
  unfold State.mscPin
  dsimp only
  split <;> rfl

@[simp] theorem State.mscTouch_core (s : State) (pa n pol : Nat) (write : Bool) : (s.mscTouch pa n pol write).core = s.core := by
  unfold State.mscTouch
  dsimp only
  repeat' split
  all_goals simp

@[simp] theorem State.forwarded_core (s : State) (pa die : Nat) (redirect : Bool) : (s.forwarded pa die redirect).core = s.core := by
  unfold State.forwarded
  dsimp only
  split <;> simp

@[simp] theorem State.flushUnit_core (s : State) (ctx sl grain u : Nat) : (s.flushUnit ctx sl grain u).core = s.core := by
  unfold State.flushUnit
  dsimp only
  rw [State.mscTouch_core]
  split <;> rfl

theorem State.foldl_flushUnit_core {α : Type} (s : State) (c : α → Nat) (sl grain u : Nat) (l : List α) :
    (l.foldl (fun s t => s.flushUnit (c t) sl grain u) s).core = s.core :=
  foldl_keeps State.core (fun b a => b.flushUnit_core (c a) sl grain u) l s

@[simp] theorem State.dirSee_core (s : State) (sl u : Nat) : (s.dirSee sl u).core = s.core := by
  unfold State.dirSee
  split <;> rfl

@[simp] theorem State.dirGrant_core (s : State) (sl grain agent u : Nat) : (s.dirGrant sl grain agent u).core = s.core := State.dirSee_core _ _ _

@[simp] theorem State.dirClear_core (s : State) (sl agent : Nat) : (s.dirClear sl agent).core = s.core := rfl

@[simp] theorem State.dirAnswer_core (s : State) (agent sl u kind : Nat) (a : Answer) : (s.dirAnswer agent sl u kind a).core = s.core := by
  unfold State.dirAnswer
  rw [State.dirSee_core]
  exact (apply_ite State.core _ _ _).trans (ite_self _)

@[simp] theorem State.recallUnit_core (s : State) (agent sl grain u : Nat) (discard : Bool) :
    (s.recallUnit agent sl grain u discard).2.core = s.core := by
  unfold State.recallUnit
  dsimp only [State.modCoh]
  split
  · rfl
  · exact s.foldl_flushUnit_core Tag.ctx sl grain u _

@[simp] theorem State.probeAgent_core (s : State) (agent ctx sl u kind : Nat) : (s.probeAgent agent ctx sl u kind).2.core = s.core := by
  unfold State.probeAgent
  dsimp only
  repeat' split
  all_goals simp

@[simp] theorem State.probeAll_core (s : State) (except_ : Option Nat) (ctx sl u kind : Nat) : (s.probeAll except_ ctx sl u kind).core = s.core := by
  unfold State.probeAll
  split
  · rfl
  · refine foldl_keeps State.core (fun b a => ?_) _ _
    split <;> simp

@[simp] theorem State.recallLine_core (s : State) (sl : Nat) (discard : Bool) : (s.recallLine sl discard).2.core = s.core := by
  unfold State.recallLine
  split
  · rfl
  · refine foldl_keeps (fun r : Bool × State => r.2.core) (fun b a => ?_) _ _
    dsimp only
    split
    · exact foldl_keeps (fun r : Bool × State => r.2.core) (fun q u => by simp) _ b
    · rfl

@[simp] theorem State.writeBack_core (s : State) (agent ctx sl grain u : Nat) : (s.writeBack agent ctx sl grain u).core = s.core := by
  unfold State.writeBack
  dsimp only
  rw [State.dirSee_core, apply_ite State.core, State.dirClear_core, State.modCoh_core, State.modCoh_core, ite_self, State.flushUnit_core,
    State.track_core]

@[simp] theorem State.evictLine_core (s : State) (agent ctx sl grain : Nat) : (s.evictLine agent ctx sl grain).core = s.core := by
  unfold State.evictLine
  exact foldl_keeps State.core (fun b u => b.writeBack_core agent ctx sl grain u) _ s

@[simp] theorem State.dirEvict_core (s : State) (d : DirEntry) : (s.dirEvict d).core = s.core := by
  unfold State.dirEvict
  dsimp only
  split <;> simp

@[simp] theorem State.clearUnit_core (s : State) (ctx sl grain u : Nat) : (s.clearUnit ctx sl grain u).core = s.core := by
  unfold State.clearUnit
  rw [State.probeAll_core]
  exact s.foldl_flushUnit_core id sl grain u _

theorem State.l2Room_core (s : State) (agent ctx sl : Nat) : SomeAll (fun t => t.core = s.core) (s.l2Room agent ctx sl) := by
  unfold State.l2Room
  refine .ite rfl (.ite rfl ?_)
  split
  · trivial
  · exact s.evictLine_core _ _ _ _

theorem State.dirRoom_core (s : State) (sl : Nat) : SomeAll (fun t => t.core = s.core) (s.dirRoom sl) := by
  unfold State.dirRoom
  refine .ite rfl (.ite rfl ?_)
  split
  · exact s.dirEvict_core _
  · trivial

/-! ### A request leaves the current core -/

theorem State.homeGrant_core (s : State) (w : Who) (pa grain u pol : Nat) (write : Bool) :
    OkAll (fun t => t.core = s.core) (s.homeGrant w pa grain u pol write) := by
  unfold State.homeGrant
  refine .ite trivial ?_
  split
  · trivial
  next t room =>
    have inDirectory : t.core = s.core := (s.dirRoom_core _).of_eq room
    split
    · trivial
    next v room =>
      have inCache : v.core = s.core := ((t.l2Room_core _ _ _).of_eq room).trans inDirectory
      rw [OkAll, State.dirGrant_core, State.modCoh_core]
      split <;> simpa using inCache

@[simp] theorem State.dieGrant_core (s : State) (w : Who) (sl grain u : Nat) (l1 write : Bool) : (s.dieGrant w sl grain u l1 write).core = s.core := by
  unfold State.dieGrant
  dsimp only
  repeat' split
  all_goals rfl

theorem State.cached_core (s : State) (w : Who) (pa grain pol : Nat) (l1 write : Bool) :
    OkAll (fun t => t.core = s.core) (s.cached w pa grain pol l1 write) := by
  unfold State.cached
  refine .ite trivial (.ite (s.dieGrant_core _ _ _ _ _ _) ?_)
  split
  · trivial
  next t granted => exact (t.dieGrant_core _ _ _ _ _ _).trans ((s.homeGrant_core _ _ _ _ _ _).of_eq granted)

theorem State.uncached_core (s : State) (w : Who) (pa n pol : Nat) (write : Bool) : OkAll (fun t => t.core = s.core) (s.uncached w pa n pol write) := by
  unfold State.uncached
  refine .ite trivial ?_
  rw [OkAll, State.mscTouch_core]
  repeat' split
  all_goals simp

theorem State.request_core (s : State) (w : Who) (pa n grain pol : Nat) (write : Bool) :
    OkAll (fun r => r.1.core = s.core) (s.request w pa n grain pol write) := by
  have hit {lv : Bool} {f : State → Run} : OkAll (fun r => r.1.core = s.core) ((s.cached w pa grain pol lv write).map fun u => (u, f u)) :=
    (s.cached_core _ _ _ _ _ _).map fun _ kept => kept
  unfold State.request
  dsimp only
  cases s.homeOf pa with
  | queued => exact .ite hit trivial
  | moved a redirect =>
    exact .ite trivial ((State.uncached_core _ _ _ _ _ _).map fun _ kept => kept.trans (s.forwarded_core _ _ _))
  | own => exact .ite hit ((s.uncached_core _ _ _ _ _).map fun _ kept => kept)

theorem State.requestRun_core (s : State) (w : Who) (grain pol : Nat) (write : Bool) (f pa n : Nat) :
    OkAll (fun r => r.1.core = s.core) (s.requestRun w grain pol write f pa n) := by
  induction f generalizing s pa n with
  | zero => exact rfl
  | succ f ih =>
    unfold State.requestRun
    split
    · exact rfl
    · dsimp only
      split
      · trivial
      next t r first =>
        have taken : t.core = s.core := (s.request_core _ _ _ _ _ _).of_eq first
        split
        · trivial
        next u rs rest => exact ((ih t _ _).of_eq rest : u.core = t.core).trans taken

theorem State.requestSpans_core (s : State) (w : Who) (write : Bool) (ss : List Span) :
    OkAll (fun r => r.1.core = s.core) (s.requestSpans w write ss) := by
  induction ss generalizing s with
  | nil => exact rfl
  | cons p ps ih =>
    have one : OkAll (fun r => r.1.core = s.core)
        (if p.place = .mem then s.requestRun w p.grain p.pol write (p.len + 1) p.addr p.len else .ok (s, [])) :=
      .ite (s.requestRun_core _ _ _ _ _ _ _) rfl
    unfold State.requestSpans
    split
    · trivial
    next t rs first =>
      have taken : t.core = s.core := one.of_eq first
      split
      · trivial
      next u rss rest => exact ((ih t).of_eq rest : u.core = t.core).trans taken

theorem State.readGranted_core (s : State) (ctx : Nat) (got : List (Nat × List Byte)) (i : Nat) (ss : List Span) (rss : List (List Run)) :
    (s.readGranted ctx got i ss rss).1.core = s.core := by
  induction ss generalizing s i rss with
  | nil => rfl
  | cons p ps ih =>
    cases rss with
    | nil => rfl
    | cons rs rss =>
      unfold State.readGranted
      dsimp only
      rw [ih]
      split <;> rfl

theorem State.peerFree_core (s : State) (i : Nat) (ss : List Span) : (s.peerFree i ss).1.core = s.core := by
  induction ss generalizing s i with
  | nil => rfl
  | cons p ps ih =>
    unfold State.peerFree
    split
    · exact ih _ _
    · exact ih _ _

theorem State.gather_core (s : State) (w : Who) (ss : List Span) : SomeAll (fun r => r.1.core = s.core) (s.gather w ss) := by
  unfold State.gather
  split
  · trivial
  next t rss granted =>
    exact (State.readGranted_core _ _ _ _ _ _).trans ((State.peerFree_core _ _ _).trans ((s.requestSpans_core _ _ _).of_eq granted))

@[simp] theorem State.countZeros_core (s : State) (ss : List Span) : (s.countZeros ss).core = s.core := by
  unfold State.countZeros State.countZerosOf
  split <;> rfl

/-- The strand's own read of a range leaves its core. -/
theorem State.readNow_core (s : State) (a : Word) (ss : List Span) : OkAll (fun r => r.1.core = s.core) (s.readNow a ss) := by
  unfold State.readNow
  split
  · trivial
  next t bs bad gathered => exact .ite trivial ((t.countZeros_core ss).trans ((s.gather_core _ _).of_eq gathered))

end Sys2Proof.Machine

namespace Sys2Proof.Machine

/-! ### The hold buffer (R299-R301) -/

/-- The sync field leaves what the words of the hold buffer read. -/
theorem State.syncTake_core {s v : State} {y : BitVec 2} {sig : Option Nat} (taken : s.syncTake y = .ok (v, sig)) :
    v.core.idx = s.core.idx ∧ v.core.hold = s.core.hold ∧ v.core.holding = s.core.holding ∧ v.core.die = s.core.die ∧ v.ctx = s.core.view.ctx ∧
      v.core.slots = s.core.slots ∧ v.core.bsts = s.core.bsts ∧ v.core.nextUid = s.core.nextUid := by
  obtain ⟨tokens, resv, rfl⟩ := State.syncTake_frame taken
  exact ⟨rfl, rfl, rfl, rfl, rfl, rfl, rfl, rfl⟩

/-- A word that waits on either of two conditions. -/
theorem waitIf_waitIf {α : Type} {a b : Bool} {c : Nat} {f : Unit → Except Stop α} (blocked : (a || b) = true) :
    (waitIf a c >>= fun _ => waitIf b c >>= f) = .error (.wait c) := by
  cases a
  · rw [Bool.false_or] at blocked
    rw [blocked]
    rfl
  · rfl

theorem State.hold_of_room {s : State} {h : Held} (room : s.core.hold.length < 32) :
    s.hold h = .ok { s with core := s.core.setHold (s.core.hold ++ [h]) } := if_neg (Nat.not_le.2 room)

theorem State.hold_of_full {s : State} {h : Held} (full : 32 ≤ s.core.hold.length) : s.hold h = .error (.wait outside) := if_pos full

section
variable {s v : State} (fresh : Fresh s) (k : s.cur = .k)
include k

theorem holdCheck_of_open (opened : s.core.holding = true) : holdCheck s = .ok () := by
  simp [holdCheck, k, opened]

theorem holdCheck_of_closed (closed : s.core.holding = false) : holdCheck s = .error (.trap 8 0 s.core.specst) := by
  simp [holdCheck, k, closed]

include fresh

theorem exec_abort_of_open (opened : s.core.holding = true) :
    exec .abort s = .next ({ s with core := (s.core.hold.foldl Core.dropHeld s.core).closeHold } : State).retired := by
  refine issue_next fresh (by rw [k]; rfl) rfl (bundles_any fun _ => rfl) ?_
  rw [semAbort, holdCheck_of_open k opened]
  rfl

theorem exec_commit_of_sent (opened : s.core.holding = true) (sent : s.sendAll (s.core.hold.length + 1) = (v, true)) (task : v.core.task.isSome) :
    exec .commit s = .next ({ v with core := v.core.closeHold } : State).retired := by
  refine issue_next fresh (by rw [k]; rfl) rfl (bundles_any fun _ => rfl) ?_
  simp [semCommit, holdCheck_of_open k opened, sent, Option.isSome_iff_ne_none.1 task]

theorem exec_commit_of_unsent (opened : s.core.holding = true) (sent : s.sendAll (s.core.hold.length + 1) = (v, false)) :
    exec .commit s = .next (v.modMe fun t => { t with stage := max 1 t.stage, wait := outside }) := by
  refine issue_hold fresh (by rw [k]; rfl) rfl (bundles_any fun _ => rfl) ?_
  simp [semCommit, holdCheck_of_open k opened, sent]

theorem exec_hold_of_closed (closed : s.core.holding = false) : ∀ i ∈ [Instr.commit, .abort], exec i s = .next (s.trapStop s.cur 8 0 s.core.specst) := by
  simp only [List.forall_mem_cons, List.not_mem_nil, false_imp_iff, implies_true, and_true]
  constructor
  · refine issue_stop fresh (by rw [k]; rfl) rfl (bundles_any fun _ => rfl) (e := .trap 8 0 s.core.specst) ?_
    rw [semCommit, holdCheck_of_closed k closed]
    rfl
  · refine issue_stop fresh (by rw [k]; rfl) rfl (bundles_any fun _ => rfl) (e := .trap 8 0 s.core.specst) ?_
    rw [semAbort, holdCheck_of_closed k closed]
    rfl
end

/-! ### Requests for named tiles (R320) -/

section
variable {s v : State} {y : BitVec 2} {sig : Option Nat} {name bit : Nat} (taken : s.syncTake y = .ok (v, sig))
include taken

theorem State.nsCheck_of_admitted (admitted : v.nsAdmits (nameNs name) s.core.view.ctx bit = true) : v.nsCheck name bit = .ok () := by
  obtain ⟨-, -, -, -, ctx, -⟩ := State.syncTake_core taken
  rw [State.nsCheck, ctx, if_pos admitted]

theorem State.nsCheck_of_barred (barred : v.nsAdmits (nameNs name) s.core.view.ctx bit = false) :
    v.nsCheck name bit = .error (.fatal 0x82 (BitVec.ofNat 64 name)) := by
  obtain ⟨-, -, -, -, ctx, -⟩ := State.syncTake_core taken
  rw [State.nsCheck, ctx, if_neg (Bool.eq_false_iff.1 barred)]
end

section
variable {s v : State} {y : BitVec 2} {sig : Option Nat} {gl : BitVec 3} {ga gn : BitVec 5} {slot : BitVec 6} {rlx : BitVec 1}
  (taken : s.syncTake y = .ok (v, sig)) (written : Written s [ga, gn, gn + 1, g3 gl])
include taken written

theorem semNreq_of_disabled (off : v.agEnabled = false) : semNreq gl ga gn slot rlx y s = .error (.wait outside) := by
  simp only [semNreq, ready_of_written written, taken, ok_bind, off, Bool.not_false, waitIf_true, error_bind]

theorem semNreq_of_refused (on : v.agEnabled = true)
    (refused : v.namePair gn = none ∨ bitsAt (s.g (g3 gl)) 26 38 ≠ 0 ∨ 512 < bitsAt (s.g (g3 gl)) 16 10 ∨ (v.slot slot).st ≠ .free) :
    semNreq gl ga gn slot rlx y s = illegal := by
  simp only [semNreq, ready_of_written written, taken, ok_bind, on, Bool.not_true, waitIf_false, State.syncTake_g taken, illegalIf_bind]
  cases name : v.namePair gn with
  | none => rfl
  | some name =>
    dsimp only
    rcases refused with none | high | long | busy
    · exact absurd (name.symm.trans none) (by simp)
    · rw [if_pos (by simp [high])]
    · rw [if_pos (by simp [long])]
    · split
      · rfl
      · rw [if_pos (by simpa using busy)]

variable {name : Nat} (on : v.agEnabled = true) (named : v.namePair gn = some name) (reserved : bitsAt (s.g (g3 gl)) 26 38 = 0)
  (long : bitsAt (s.g (g3 gl)) 16 10 ≤ 512) (free : (v.slot slot).st = .free)
include on named reserved long free

theorem semNreq_of_named : semNreq gl ga gn slot rlx y s =
    v.nsCheck name 61 >>= fun _ => v.access .nreq (s.g ga) (destBytes (s.g (g3 gl))) >>= fun dst =>
      let life := if bitsAt (s.g (g3 gl)) 0 16 = 0 then v.defLife (nameNs name) else bitsAt (s.g (g3 gl)) 0 16
      if s.core.holding then
        v.hold (.nreq slot.toNat name (rlx == 1) life dst) >>= fun t =>
          .ok (.next (({ t with core := t.core.setSlot slot.toNat .held 0 } : State).signalAfter sig))
      else waitIf (!v.nreqRoom s.core.die name (rlx == 1)) outside >>= fun _ =>
        .ok (.next ((v.sendInterest s.core.idx slot.toNat name (rlx == 1) life dst).signalAfter sig)) := by
  obtain ⟨idx, -, holding, die, -⟩ := State.syncTake_core taken
  simp only [semNreq, ready_of_written written, taken, ok_bind, on, Bool.not_true, waitIf_false, State.syncTake_g taken, named, reserved, free,
    idx, holding, die, bne_self_eq_false, Bool.false_or, decide_eq_false (Nat.not_lt.2 long), illegalIf_false]

theorem semNreq_of_barred (barred : v.nsAdmits (nameNs name) s.core.view.ctx 61 = false) :
    semNreq gl ga gn slot rlx y s = .error (.fatal 0x82 (BitVec.ofNat 64 name)) := by
  rw [semNreq_of_named taken written on named reserved long free, State.nsCheck_of_barred taken barred]
  rfl

theorem semNreq_of_admitted (admitted : v.nsAdmits (nameNs name) s.core.view.ctx 61 = true) : semNreq gl ga gn slot rlx y s =
    v.access .nreq (s.g ga) (destBytes (s.g (g3 gl))) >>= fun dst =>
      let life := if bitsAt (s.g (g3 gl)) 0 16 = 0 then v.defLife (nameNs name) else bitsAt (s.g (g3 gl)) 0 16
      if s.core.holding then
        v.hold (.nreq slot.toNat name (rlx == 1) life dst) >>= fun t =>
          .ok (.next (({ t with core := t.core.setSlot slot.toNat .held 0 } : State).signalAfter sig))
      else waitIf (!v.nreqRoom s.core.die name (rlx == 1)) outside >>= fun _ =>
        .ok (.next ((v.sendInterest s.core.idx slot.toNat name (rlx == 1) life dst).signalAfter sig)) := by
  rw [semNreq_of_named taken written on named reserved long free, State.nsCheck_of_admitted taken admitted, ok_bind]
end

/-! ### Waits for and cancels of named tiles (R321, R322) -/

/-- With nothing in flight and nothing outstanding a trap at the word is taken at once. -/
theorem State.trapWith_of_still {s : State} (still : Still s) (cause detail : Nat) (val : Word) (f : State → State) :
    s.trapWith cause detail val f = .ok (.at_ (((f s).modMe fun t => { t with wait := 0 }).takeTrap s.cur cause detail val)) := by
  obtain ⟨flight, ops⟩ := still
  have lands : s.core.landAll = s.core := by rw [Core.landAll, flight, List.foldl_nil]
  have drains : s.drainCore s.core.idx = (s, none) := by
    rw [State.drainCore, State.coreAt_self, ops]
    rfl
  have landed : s.core.landed = true := by rw [Core.landed, ops, List.all_nil]
  simp only [State.trapWith, landCore_of_same lands, drains, landed, if_true]

section
variable {s v : State} {y : BitVec 2} {sig : Option Nat} {gd : BitVec 3} {slot : BitVec 6} (taken : s.syncTake y = .ok (v, sig))
include taken

theorem State.slot_of_taken : v.slot slot = s.slot slot := by
  obtain ⟨-, -, -, -, -, slots, -⟩ := State.syncTake_core taken
  rw [State.slot, State.slot, slots]

section
variable (written : Written s [g3 gd])
include written

theorem semNwait_of_arrived (arrived : (v.slot slot).st = .arrived) :
    semNwait gd slot y s = .ok (.next (((v.takeSlot slot).setG (g3 gd) (v.slot slot).word).signalAfter sig)) := by
  simp only [semNwait, ready_of_written written, taken, ok_bind, arrived]

theorem semNwait_of_expired (expired : (v.slot slot).st = .expired) (still : Still s) : semNwait gd slot y s =
    .ok (.at_ (((s.takeSlot slot).modMe fun t => { t with wait := 0 }).takeTrap s.cur 9 0 (s.slot slot).word)) := by
  simp only [semNwait, ready_of_written written, taken, ok_bind, expired, State.trapWith_of_still still]
  rw [State.slot_of_taken taken]

theorem semNwait_of_awaited (awaited : (v.slot slot).st = .pending ∨ (v.slot slot).st = .held) :
    semNwait gd slot y s = .error (.wait outside) := by
  rcases awaited with st | st <;> simp only [semNwait, ready_of_written written, taken, ok_bind, st]

theorem semNwait_of_free (free : (v.slot slot).st = .free) : semNwait gd slot y s = illegal := by
  simp only [semNwait, ready_of_written written, taken, ok_bind, free]
end

theorem semNcancel_of_free (free : (v.slot slot).st = .free) : semNcancel slot y s = illegal := by
  simp only [semNcancel, taken, ok_bind, free]

theorem semNcancel_of_held (held : (v.slot slot).st = .held) : semNcancel slot y s = .ok (.next ((v.onCore
    ((v.core.setHold (v.core.hold.filter fun h => !h.isReq slot.toNat)).setSlot slot.toNat .free 0)).signalAfter sig)) := by
  simp only [semNcancel, taken, ok_bind, held]
  rfl

theorem semNcancel_of_sent (used : (v.slot slot).st ≠ .free) (unheld : (v.slot slot).st ≠ .held) :
    semNcancel slot y s = .ok (.next ((v.cancelSlot s.core.idx slot.toNat).signalAfter sig)) := by
  obtain ⟨idx, -⟩ := State.syncTake_core taken
  rw [semNcancel, taken, ok_bind, ← idx]
  cases st : (v.slot slot).st with
  | free => exact absurd st used
  | held => exact absurd st unheld
  | pending | arrived | expired => simp only [st]
end

/-! ### Publishes (R331) -/

section
variable {s v : State} {y : BitVec 2} {sig : Option Nat} {gl : BitVec 3} {ga gn : BitVec 5} (taken : s.syncTake y = .ok (v, sig))
  (written : Written s [ga, gn, gn + 1, g3 gl])
include taken written

theorem semNpub_of_disabled (off : v.agEnabled = false) : semNpub gl ga gn y s = .error (.wait outside) := by
  simp only [semNpub, ready_of_written written, taken, ok_bind, off, Bool.not_false, waitIf_true, error_bind]

/-- The length field of a publish: a register other than g0 whose value is 1 to 512 units of 128 bytes. -/
def PublishLength (s : State) (gl : BitVec 3) : Prop := gl ≠ 0 ∧ 1 ≤ (s.g (g3 gl)).toNat ∧ (s.g (g3 gl)).toNat ≤ 512

omit taken written in
theorem publishLength_iff : PublishLength s gl ↔ (gl == 0 || bitsAt (s.g (g3 gl)) 10 54 != 0 || bitsAt (s.g (g3 gl)) 0 10 == 0 ||
    decide (512 < bitsAt (s.g (g3 gl)) 0 10)) = false := by
  have small := (s.g (g3 gl)).isLt
  simp only [PublishLength, Bool.or_eq_false_iff, beq_eq_false_iff_ne, bne_eq_false_iff_eq, decide_eq_false_iff_not, ne_eq, and_assoc]
  refine and_congr_right fun _ => ?_
  rw [bitsAt, bitsAt]
  omega

omit taken written in
theorem bitsAt_of_publishLength (len : PublishLength s gl) : bitsAt (s.g (g3 gl)) 0 10 = (s.g (g3 gl)).toNat := by
  obtain ⟨-, -, small⟩ := len
  rw [bitsAt]
  omega

variable (on : v.agEnabled = true)
include on

theorem semNpub_of_refused (refused : ¬PublishLength s gl ∨ v.namePair gn = none) : semNpub gl ga gn y s = illegal := by
  simp only [semNpub, ready_of_written written, taken, ok_bind, on, Bool.not_true, waitIf_false, State.syncTake_g taken, illegalIf_bind]
  cases named : v.namePair gn with
  | none => rfl
  | some name =>
    dsimp only
    rcases refused with len | none
    · rw [publishLength_iff, Bool.not_eq_false] at len
      rw [if_pos len]
    · exact absurd (named.symm.trans none) (by simp)

variable {name : Nat} (len : PublishLength s gl) (named : v.namePair gn = some name)
include len named

theorem semNpub_of_named : semNpub gl ga gn y s =
    v.nsCheck name 62 >>= fun _ => v.access .npub (s.g ga) (128 * (s.g (g3 gl)).toNat) >>= fun src =>
      if s.core.holding then v.hold (.npub name src) >>= fun t => .ok (.next (t.signalAfter sig))
      else quiet v >>= fun _ =>
        waitIf (!v.drainedNow s.core.idx (v.effScope 4) || !v.npubRoom s.core.die name (s.g (g3 gl)).toNat) outside >>= fun _ =>
          (v.widenPins s.core.idx (v.effScope 4)).readNow (s.g ga) src >>= fun r =>
            .ok (.next ((r.1.publish r.1.core.idx name r.2).signalAfter sig)) := by
  obtain ⟨idx, -, holding, die, -⟩ := State.syncTake_core taken
  simp only [semNpub, ready_of_written written, taken, ok_bind, on, Bool.not_true, waitIf_false, State.syncTake_g taken, named,
    publishLength_iff.1 len, illegalIf_false, idx, holding, die]
  simp only [bitsAt_of_publishLength len]

theorem semNpub_of_barred (barred : v.nsAdmits (nameNs name) s.core.view.ctx 62 = false) :
    semNpub gl ga gn y s = .error (.fatal 0x82 (BitVec.ofNat 64 name)) := by
  rw [semNpub_of_named taken written on len named, State.nsCheck_of_barred taken barred]
  rfl

theorem semNpub_of_admitted (admitted : v.nsAdmits (nameNs name) s.core.view.ctx 62 = true) : semNpub gl ga gn y s =
    v.access .npub (s.g ga) (128 * (s.g (g3 gl)).toNat) >>= fun src =>
      if s.core.holding then v.hold (.npub name src) >>= fun t => .ok (.next (t.signalAfter sig))
      else quiet v >>= fun _ =>
        waitIf (!v.drainedNow s.core.idx (v.effScope 4) || !v.npubRoom s.core.die name (s.g (g3 gl)).toNat) outside >>= fun _ =>
          (v.widenPins s.core.idx (v.effScope 4)).readNow (s.g ga) src >>= fun r =>
            .ok (.next ((r.1.publish r.1.core.idx name r.2).signalAfter sig)) := by
  rw [semNpub_of_named taken written on len named, State.nsCheck_of_admitted taken admitted, ok_bind]
end

/-! ### Broadcast stores (R332, R333) -/

theorem State.popLanded_of_head {s : State} {code : Nat} {e : FEntry} {rest : List FEntry} (head : QueueHead s code e rest) :
    s.popLanded code 1 = .ok ([e.data], s.withQueue code rest) := by
  obtain ⟨queue, landed⟩ := head
  have lands : s.core.headsLanded code 1 = true := by simp [Core.headsLanded, Core.occ, queue, landed]
  rw [State.popLanded, if_pos lands, queue]
  rfl

theorem State.popLanded_of_short {s : State} {code n : Nat} (short : QueueShort s code n) : s.popLanded code n = .error (.wait 3) := by
  refine if_neg ?_
  rw [Core.headsLanded, Core.occ, Bool.and_eq_true, decide_eq_true_eq, List.all_eq_true]
  rintro ⟨enough, landed⟩
  rcases short with few | ⟨e, member, unlanded⟩
  · exact absurd enough (Nat.not_le.2 few)
  · exact absurd (landed e member) (Bool.eq_false_iff.1 unlanded)

section
variable {s w : State} {bsz : BitVec 3} {gs : BitVec 5} {data : List Byte} (takes : BroadcastData s bsz gs data w)
include takes

theorem State.bstData_of_takes (size : bsz.toNat < 6) : s.bstData bsz gs = .ok (data, w) := by
  obtain ⟨low, pair, entry⟩ := takes
  by_cases five : bsz = 5
  · obtain ⟨e, rest, head, rfl, rfl⟩ := entry five
    rw [State.bstData, if_pos five, q2, State.popLanded_of_head head]
    simp
  · rw [State.bstData, if_neg five]
    by_cases four : bsz = 4
    · obtain ⟨rfl, rfl⟩ := pair four
      rw [if_pos four]
    · have small : bsz.toNat < 4 := by bv_omega
      obtain ⟨rfl, rfl⟩ := low small
      rw [if_neg four, bszBytes, if_neg five]

/-- Taking the data leaves all of the core but its queues. -/
theorem State.core_of_takes (size : bsz.toNat < 6) : w.core.idx = s.core.idx ∧ w.core.hold = s.core.hold ∧ w.core.holding = s.core.holding ∧
    w.core.bsts = s.core.bsts ∧ w.core.nextUid = s.core.nextUid := by
  obtain ⟨low, pair, entry⟩ := takes
  by_cases five : bsz = 5
  · obtain ⟨e, rest, -, -, rfl⟩ := entry five
    exact ⟨rfl, rfl, rfl, rfl, rfl⟩
  · by_cases four : bsz = 4
    · obtain ⟨-, rfl⟩ := pair four
      exact ⟨rfl, rfl, rfl, rfl, rfl⟩
    · have small : bsz.toNat < 4 := by bv_omega
      obtain ⟨-, rfl⟩ := low small
      exact ⟨rfl, rfl, rfl, rfl, rfl⟩
end

/-- The state in which a broadcast store has its number. -/
def State.withNextUid (w : State) : State := w.onCore { w.core with nextUid := w.core.nextUid + 1 }

section
variable {s v : State} {y : BitVec 2} {sig : Option Nat} {bsz : BitVec 3} {ga gs : BitVec 5} {off : BitVec 8}
  (taken : s.syncTake y = .ok (v, sig)) (written : Written s [ga, gs, gs + 1])
include taken written

omit taken in
theorem ready_of_broadcast : ready s [ga, gs, if bsz = 4 then gs + 1 else 0] = .ok () := by
  refine ready_of_written (List.any_eq_false.2 fun r read => ?_)
  have free := List.any_eq_false.1 written
  simp only [List.mem_cons, List.not_mem_nil, or_false] at read free
  rcases read with rfl | rfl | rfl
  · exact free _ (.inl rfl)
  · exact free _ (.inr (.inl rfl))
  · split
    · exact free _ (.inr (.inr rfl))
    · simp [State.busy]

theorem semBst_of_refused (refused : 6 ≤ bsz.toNat ∨ (bsz = 5 ∧ gs ≠ 0) ∨ (bsz = 4 ∧ (gs = 0 ∨ gs.toNat % 2 = 1))) :
    semBst bsz ga gs off y s = illegal := by
  simp only [semBst, ready_of_broadcast written, taken, ok_bind, illegalIf_bind]
  split
  · rfl
  next shaped =>
    rw [if_pos]
    rcases refused with size | entry | ⟨four, odd⟩
    · exact absurd (by simp [size]) shaped
    · exact absurd (by simpa [entry.1] using entry.2) shaped
    · simpa [four] using odd

variable (size : bsz.toNat < 6) (entry : bsz = 5 → gs = 0) (pair : bsz = 4 → gs ≠ 0 ∧ gs.toNat % 2 = 0)
include size entry pair

theorem semBst_of_shaped : semBst bsz ga gs off y s =
    v.groupAddr (baseOff s ga off (bszBytes bsz)) (bszBytes bsz) >>= fun a => v.bstData bsz gs >>= fun d =>
      if d.2.core.holding then d.2.withNextUid.hold (.bst a d.1 d.2.core.nextUid) >>= fun t => .ok (.next (t.signalAfter sig))
      else waitIf (decide (16 ≤ d.2.core.bsts.length)) outside >>= fun _ => waitIf (sig.isSome && d.2.withNextUid.unperformed) outside >>= fun _ =>
        match d.2.withNextUid.sendBst d.2.core.idx a d.1 d.2.core.nextUid sig with
        | some t => .ok (.next t)
        | none => .error (.wait outside) := by
  have shaped : (decide (6 ≤ bsz.toNat) || (bsz == 5 && gs != 0)) = false := by
    simpa [size] using entry
  have even : (bsz == 4 && (gs == 0 || gs.toNat % 2 == 1)) = false := by
    simpa using pair
  simp only [semBst, ready_of_broadcast written, taken, ok_bind, shaped, even, illegalIf_false, State.syncTake_g taken]
  cases sig <;> rfl

variable {a : Nat} {data : List Byte} {w : State} (granted : v.groupAddr (baseOff s ga off (bszBytes bsz)) (bszBytes bsz) = .ok a)
  (takes : BroadcastData v bsz gs data w)
include granted takes

theorem semBst_of_granted : semBst bsz ga gs off y s =
    if s.core.holding then w.withNextUid.hold (.bst a data s.core.nextUid) >>= fun t => .ok (.next (t.signalAfter sig))
    else waitIf (decide (16 ≤ s.core.bsts.length)) outside >>= fun _ => waitIf (sig.isSome && w.withNextUid.unperformed) outside >>= fun _ =>
      match w.withNextUid.sendBst s.core.idx a data s.core.nextUid sig with
      | some t => .ok (.next t)
      | none => .error (.wait outside) := by
  obtain ⟨idx, -, holding, -, -, -, bsts, nextUid⟩ := State.syncTake_core taken
  obtain ⟨takenIdx, -, takenHolding, takenBsts, takenUid⟩ := State.core_of_takes takes size
  rw [semBst_of_shaped taken written size entry pair, granted, ok_bind, State.bstData_of_takes takes size, ok_bind, takenIdx, takenHolding, takenBsts,
    takenUid, idx, holding, bsts, nextUid]

theorem semBst_held (holding : s.core.holding = true) (room : s.core.hold.length < 32) : semBst bsz ga gs off y s = .ok (.next
    ((w.withNextUid.onCore (w.withNextUid.core.setHold (w.withNextUid.core.hold ++ [.bst a data s.core.nextUid]))).signalAfter sig)) := by
  obtain ⟨-, hold, -⟩ := State.syncTake_core taken
  obtain ⟨-, takenHold, -⟩ := State.core_of_takes takes size
  have free : w.withNextUid.core.hold.length < 32 := by rwa [show w.withNextUid.core.hold = s.core.hold from takenHold.trans hold]
  rw [semBst_of_granted taken written size entry pair granted takes, if_pos holding, State.hold_of_room free]
  rfl

theorem semBst_of_full (holding : s.core.holding = true) (full : 32 ≤ s.core.hold.length) : semBst bsz ga gs off y s = .error (.wait outside) := by
  obtain ⟨-, hold, -⟩ := State.syncTake_core taken
  obtain ⟨-, takenHold, -⟩ := State.core_of_takes takes size
  have filled : 32 ≤ w.withNextUid.core.hold.length := by rwa [show w.withNextUid.core.hold = s.core.hold from takenHold.trans hold]
  rw [semBst_of_granted taken written size entry pair granted takes, if_pos holding, State.hold_of_full filled]
  rfl

variable (closed : s.core.holding = false)
include closed

theorem semBst_of_busy (busy : ¬(s.core.bsts.length < 16 ∧ (sig ≠ none → Quiet w.withNextUid))) :
    semBst bsz ga gs off y s = .error (.wait outside) := by
  rw [semBst_of_granted taken written size entry pair granted takes, if_neg (Bool.eq_false_iff.1 closed)]
  refine waitIf_waitIf ?_
  rw [← Bool.not_eq_false]
  simpa [Option.isSome_iff_ne_none] using busy

variable (room : s.core.bsts.length < 16) (quiet : sig ≠ none → Quiet w.withNextUid)
include room quiet

theorem semBst_of_free : semBst bsz ga gs off y s = match w.withNextUid.sendBst s.core.idx a data s.core.nextUid sig with
    | some t => .ok (.next t)
    | none => .error (.wait outside) := by
  have still : (sig.isSome && w.withNextUid.unperformed) = false := by
    rw [Bool.and_eq_false_imp, Option.isSome_iff_ne_none]
    exact quiet
  rw [semBst_of_granted taken written size entry pair granted takes, if_neg (Bool.eq_false_iff.1 closed), decide_eq_false (Nat.not_le.2 room), still,
    waitIf_false, ok_bind, ok_bind]
end

/-! ### The obligation -/

/-- What a word of a fresh strand does, by what its meaning answers. -/
theorem exec_of_sem {i : Instr} {sem : Sem} {s : State} (form : exec i s = issue i sem s) (fresh : Fresh s) (issued : i.issuedBy s.cur = true)
    (fields : i.fieldsOk = true) (anywhere : ∀ σ, bundleForbids i σ = false) :
    (∀ {t}, sem s = .ok (.next t) → exec i s = .next t.retired) ∧ (sem s = .error (.wait outside) → exec i s = s.waits outside) ∧
      (sem s = illegal → exec i s = State.raisesIllegal s i) ∧
      (∀ {code val}, sem s = .error (.fatal code val) → exec i s = s.raisesFatal code val) :=
  ⟨fun answer => form.trans (issue_next fresh issued fields (bundles_any anywhere) answer),
    fun answer => form.trans (issue_wait fresh issued fields (bundles_any anywhere) answer),
    fun answer => form.trans (issue_of_illegalSem fresh answer),
    fun answer => form.trans (issue_stop fresh issued fields (bundles_any anywhere) answer)⟩

/-- Settles O29: each word by what its meaning answers once its sync field has acted. -/
theorem holdBufferAndTiles : Obligations.HoldBufferAndTiles := by
  refine ⟨fun s fresh k => ⟨?abort, ?empty, ?commit, ?unsent, ?closed⟩,
    fun s v gl gd ga gn gs slot rlx off bsz y sig fresh taken => ⟨fun strand written => ?nreq, fun strand written => ?nwait, fun strand => ?ncancel,
      fun strand written => ?npub, fun strand written n size => ?bst⟩⟩
  case abort => exact exec_abort_of_open fresh k
  case empty =>
    intro opened none task
    exact exec_commit_of_sent fresh k opened (by simp [none, State.sendAll]) task
  case commit => exact fun v opened sent task => exec_commit_of_sent fresh k opened sent task
  case unsent => exact fun v opened sent => exec_commit_of_unsent fresh k opened sent
  case closed => exact exec_hold_of_closed fresh k
  case nreq =>
    have issued : (Instr.nreq gl ga gn slot rlx y).issuedBy s.cur = true := by rw [strand]; rfl
    obtain ⟨completes, waits, refuses, dies⟩ := exec_of_sem (i := .nreq gl ga gn slot rlx y) rfl fresh issued rfl fun _ => rfl
    obtain ⟨-, hold, -⟩ := State.syncTake_core taken
    refine ⟨fun off => waits (semNreq_of_disabled taken written off), fun on refused => refuses (semNreq_of_refused taken written on refused),
      fun name on named reserved long free => ⟨fun barred => dies (semNreq_of_barred taken written on named reserved long free barred),
        fun admitted => ?_⟩⟩
    rintro r rfl
    have form := semNreq_of_admitted taken written on named reserved long free admitted (rlx := rlx)
    refine ⟨stopRule_of_sem rfl fresh issued rfl (fun _ => rfl) form, fun dst life granted lifetime => ?_⟩
    rw [granted, ok_bind] at form
    dsimp only at form
    rw [← lifetime] at form
    refine ⟨fun closed room => completes ?_, fun closed noRoom => waits ?_, fun holding room c entered => completes ?_,
      fun holding full => waits ?_⟩
    · rw [form, if_neg (Bool.eq_false_iff.1 closed), room]
      rfl
    · rw [form, if_neg (Bool.eq_false_iff.1 closed), noRoom]
      rfl
    · rw [form, if_pos holding, State.hold_of_room (by rwa [hold]), hold, ← entered]
      rfl
    · rw [form, if_pos holding, State.hold_of_full (by rwa [hold])]
      rfl
  case nwait =>
    have issued : (Instr.nwait gd slot y).issuedBy s.cur = true := by rw [strand]; rfl
    obtain ⟨completes, waits, refuses, -⟩ := exec_of_sem (i := .nwait gd slot y) rfl fresh issued rfl fun _ => rfl
    exact ⟨fun arrived => completes (semNwait_of_arrived taken written arrived),
      fun expired still => issue_at fresh issued rfl (bundles_any fun _ => rfl) (semNwait_of_expired taken written expired still),
      fun awaited => waits (semNwait_of_awaited taken written awaited), fun free => refuses (semNwait_of_free taken written free)⟩
  case ncancel =>
    have issued : (Instr.ncancel slot y).issuedBy s.cur = true := by rw [strand]; rfl
    obtain ⟨completes, -, refuses, -⟩ := exec_of_sem (i := .ncancel slot y) rfl fresh issued rfl fun _ => rfl
    refine ⟨fun free => refuses (semNcancel_of_free taken free), ?_, fun used unheld => completes (semNcancel_of_sent taken used unheld)⟩
    rintro held c rfl
    exact completes (semNcancel_of_held taken held)
  case npub =>
    have issued : (Instr.npub gl ga gn y).issuedBy s.cur = true := by rw [strand]; rfl
    obtain ⟨completes, waits, refuses, dies⟩ := exec_of_sem (i := .npub gl ga gn y) rfl fresh issued rfl fun _ => rfl
    obtain ⟨idx, hold, -⟩ := State.syncTake_core taken
    refine ⟨fun off => waits (semNpub_of_disabled taken written off), ?_⟩
    rintro n ok rfl rfl on
    refine ⟨fun refused => refuses (semNpub_of_refused taken written on refused), fun name len named =>
      ⟨fun barred => dies (semNpub_of_barred taken written on len named barred), fun admitted => ?_⟩⟩
    rintro r rfl
    have form := semNpub_of_admitted taken written on len named admitted
    refine ⟨stopRule_of_sem rfl fresh issued rfl (fun _ => rfl) form, fun src granted => ?_⟩
    rw [granted, ok_bind] at form
    refine ⟨fun holding room => completes ?_, fun holding full => waits ?_, ?_⟩
    · rw [form, if_pos holding, State.hold_of_room (by rwa [hold]), hold]
      rfl
    · rw [form, if_pos holding, State.hold_of_full (by rwa [hold])]
      rfl
    · rintro closed free rfl
      rw [if_neg (Bool.eq_false_iff.1 closed)] at form
      constructor
      · intro busy
        refine waits (form.trans (waitIf_waitIf ?_))
        rw [← Bool.not_eq_false]
        simpa using busy
      · rintro ⟨still, drained, room⟩
        rw [quiet_of_quiet still, drained, room, ok_bind, Bool.not_true, Bool.or_self, waitIf_false, ok_bind] at form
        rintro r rfl
        refine ⟨stopRule_of_sem rfl fresh issued rfl (fun _ => rfl) form, fun u bs read => completes ?_⟩
        have kept : u.core.idx = s.core.idx := (congrArg Core.idx ((State.readNow_core _ _ _).of_eq read)).trans idx
        rw [form, read, ok_bind, kept]
  case bst =>
    have issued : (Instr.bst bsz ga gs off y).issuedBy s.cur = true := by rw [strand]; rfl
    obtain ⟨completes, waits, refuses, -⟩ := exec_of_sem (i := .bst bsz ga gs off y) rfl fresh issued rfl fun _ => rfl
    subst size
    refine ⟨fun refused => refuses (semBst_of_refused taken written refused), fun size entry pair => ?_, ?short⟩
    case short =>
      rintro rfl rfl a granted short
      refine issue_wait fresh issued rfl (bundles_any fun _ => rfl) ?_
      rw [semBst_of_shaped taken written (by decide) (fun _ => rfl) (fun four => absurd four (by decide)), granted, ok_bind, State.bstData, if_pos rfl,
        q2, State.popLanded_of_short short]
      rfl
    rintro r rfl
    refine ⟨stopRule_of_sem rfl fresh issued rfl (fun _ => rfl) (semBst_of_shaped taken written size entry pair), ?_⟩
    rintro a data w granted takes u rfl
    refine ⟨fun holding room => completes (semBst_held taken written size entry pair granted takes holding room),
      fun holding full => waits (semBst_of_full taken written size entry pair granted takes holding full), ?_⟩
    rintro closed free rfl
    refine ⟨fun busy => waits (semBst_of_busy taken written size entry pair granted takes closed busy), fun ⟨room, quiet⟩ => ?_⟩
    have form := semBst_of_free taken written size entry pair granted takes closed room quiet
    refine ⟨fun unsent => waits ?_, fun t sent => completes ?_⟩
    · rw [form, show w.withNextUid.sendBst s.core.idx a data s.core.nextUid sig = none from unsent]
    · rw [form, show w.withNextUid.sendBst s.core.idx a data s.core.nextUid sig = some t from sent]

end Sys2Proof.Machine

namespace Sys2Proof.Machine

/-! ### Operands of the memory words of L and S (R277, R310, R311) -/

theorem ready_of_subset {s : State} {rs ts : List (BitVec 5)} (written : Written s rs) (sub : ts ⊆ rs) : ready s ts = .ok () :=
  ready_of_written (List.any_eq_false.2 fun r member => List.any_eq_false.1 written r (sub member))

theorem eszBytes_of_size {c : BitVec 2} (sized : c ≠ 3) : eszBytes c = 4 / 2 ^ c.toNat := by
  revert c
  decide

theorem szBytes_of_size {c : BitVec 2} (sized : c.toNat < 2) : szBytes c = 8 / 2 ^ c.toNat := by
  revert c
  decide

theorem vszBytes_of_size {c : BitVec 2} (sized : c ≠ 3) : vszBytes c = 128 / 2 ^ c.toNat := by
  revert c
  decide

theorem misaligned_eq_decide (a : Word) (n : Nat) : misaligned a n = decide (a.toNat % n ≠ 0) := by
  rw [misaligned, bne, Bool.beq_eq_decide_eq, decide_not]

theorem effAddr_eq_baseOff {m : Nat} (s : State) (ga : BitVec 5) (off : BitVec m) (u : Nat) : effAddr (s.g ga) off u = baseOff s ga off u := rfl

theorem baseOff_of_taken {s v : State} {y : BitVec 2} {sig : Option Nat} {m : Nat} (taken : s.syncTake y = .ok (v, sig)) (ga : BitVec 5)
    (off : BitVec m) (u : Nat) : baseOff v ga off u = baseOff s ga off u := by
  rw [← effAddr_eq_baseOff, State.syncTake_g taken, effAddr_eq_baseOff]

/-- The checks before and after the sync field, as one condition. -/
theorem illegalIf_illegalIf {α : Type} (a b : Bool) (f : Unit → Except Stop α) :
    (illegalIf a >>= fun _ => illegalIf b >>= f) = if a || b then illegal else f () := by
  cases a <;> cases b <;> rfl

/-! ### Queues that a word fills or empties (R256, R316) -/

theorem Core.setQueue_queue (c : Core) (code : Nat) : c.setQueue code (c.queue code) = c := by
  by_cases inside : code < c.fifo.length
  · simp [Core.setQueue, Core.queue, inside]
  · simp [Core.setQueue, List.set_eq_of_length_le (Nat.not_lt.1 inside)]

/-- A queue that takes one more entry; a core that has no such queue takes none. -/
theorem Core.push_setQueue (c : Core) (code : Nat) (q : List FEntry) (e : FEntry) :
    (c.setQueue code q).push code e = c.setQueue code (q ++ [e]) := by
  by_cases inside : code < c.fifo.length
  · simp [Core.push, Core.setQueue, Core.queue, inside]
  · simp [Core.push, Core.setQueue, List.set_eq_of_length_le (Nat.not_lt.1 inside)]

theorem State.pushPending_eq_awaiting (s : State) (code n uid : Nat) : s.pushPending code n uid = s.awaiting code n uid := by
  unfold State.pushPending State.awaiting
  congr 1
  induction n with
  | zero => simp [Core.setQueue_queue]
  | succ n ih => rw [List.range_succ, List.foldl_append, ih, List.foldl_cons, List.foldl_nil, Core.push_setQueue, List.append_assoc,
      ← List.replicate_succ']

theorem room_of_queueRoom {s : State} {code n : Nat} (deep : 12 ≤ code) (free : QueueRoom s code n) : room s code n = .ok () := by
  rw [room, fifoDepth, Core.occ, if_neg (Nat.not_lt.2 deep), decide_eq_false (Nat.not_lt.2 free), waitIf_false]

theorem room_of_full {s : State} {code n : Nat} (deep : 12 ≤ code) (full : ¬QueueRoom s code n) : room s code n = .error (.wait 4) := by
  rw [room, fifoDepth, Core.occ, if_neg (Nat.not_lt.2 deep), decide_eq_true (Nat.not_le.1 full), waitIf_true]

theorem State.popLanded_of_heads {s : State} {code : Nat} {es rest : List FEntry} (heads : QueueHeads s code es rest) :
    s.popLanded code es.length = .ok (es.map (·.data), s.withQueue code rest) := by
  obtain ⟨queue, landed⟩ := heads
  have lands : s.core.headsLanded code es.length = true := by simpa [Core.headsLanded, Core.occ, queue] using landed
  rw [State.popLanded, if_pos lands, queue, List.take_left, List.drop_left]
  rfl

/-! ### Vector loads and vector stores as they issue (R312-R316, R323, R324) -/

section
variable {i : Instr} {sem : Sem} {s v : State} {r : Except Stop (List Span)} {a : Word} {sig : Option Nat} (form : exec i s = issue i sem s)
  (fresh : Fresh s) (issued : i.issuedBy s.cur = true) (fields : i.fieldsOk = true) (anywhere : ∀ σ, bundleForbids i σ = false)
include form fresh issued fields anywhere

theorem vectorLoad_of_sem {dest : Dest} {code n : Nat} (deep : 12 ≤ code) (does : sem s = r >>= fun ss => v.queueLoad a ss dest code n sig) :
    VectorLoad s v i a r dest code n sig := by
  refine ⟨stopRule_of_sem form fresh issued fields anywhere does, ?_⟩
  rintro ss rfl
  rw [ok_bind, State.queueLoad] at does
  constructor
  · intro free
    rw [room_of_queueRoom deep free, ok_bind, State.pushPending_eq_awaiting] at does
    exact loadRule_of_sem form fresh issued fields anywhere does
  · intro full
    rw [room_of_full deep full, error_bind] at does
    exact form.trans (issue_wait fresh issued fields (bundles_any anywhere) does)

/-- A store of what the oldest entry of q2 gives. -/
theorem vectorStore_of_sem {n : Nat} (bytes : List Entry → List Byte) (gives : ∀ e, bytes [e] = (entryBytes e).take n)
    (does : sem s = r >>= fun ss => v.popLanded q2 1 >>= fun p => p.2.issueStore a ss (bytes p.1) sig 0 0 >>= fun u => .ok (.next u)) :
    VectorStore s v i a r n sig := by
  refine ⟨stopRule_of_sem form fresh issued fields anywhere does, ?_⟩
  rintro ss rfl
  rw [ok_bind, q2] at does
  constructor
  · intro e rest head
    rw [State.popLanded_of_head head, ok_bind, gives] at does
    exact storeRule_of_sem form fresh issued fields anywhere does
  · intro short
    rw [State.popLanded_of_short short, error_bind] at does
    exact form.trans (issue_wait fresh issued fields (bundles_any anywhere) does)
end

/-! ### The words of L (R312-R319) -/

section
variable {s v : State} {y : BitVec 2} {sig : Option Nat} (taken : s.syncTake y = .ok (v, sig))
include taken

section
variable {ga gs : BitVec 5} {q : BitVec 1} {off : BitVec 13} {off8 : BitVec 8} (written : Written s [ga, gs])
include written

theorem semVld_of_plain : semVld 0 q ga off y 0 s = v.access .load (baseOff s ga off 128) 128 >>= fun ss =>
    v.queueLoad (baseOff s ga off 128) ss (.queue (12 + q.toNat) 1) (12 + q.toNat) 1 sig := by
  simp only [semVld, ready_of_subset written (ts := [ga]) (by simp), taken, ok_bind, effAddr_eq_baseOff, baseOff_of_taken taken]
  rfl

theorem semVld_of_row (rsz : BitVec 2) : semVld rsz q ga off y 1 s = if (baseOff s ga off 128).toNat % (64 * 2 ^ rsz.toNat) ≠ 0 then illegal
    else v.access .load (baseOff s ga off 128) (64 * 2 ^ rsz.toNat) >>= fun ss =>
      v.queueLoad (baseOff s ga off 128) ss (.queue (12 + q.toNat) (max 1 (64 * 2 ^ rsz.toNat / 128))) (12 + q.toNat)
        (max 1 (64 * 2 ^ rsz.toNat / 128)) sig := by
  simp only [semVld, ready_of_subset written (ts := [ga]) (by simp), taken, ok_bind, effAddr_eq_baseOff, baseOff_of_taken taken,
    illegalIf_illegalIf, misaligned_eq_decide]
  simp [rszBytes]

omit taken written in
theorem semVld_of_reserved {rsz : BitVec 2} (reserved : rsz ≠ 0) : semVld rsz q ga off y 0 s = illegal := by
  simp only [semVld, bne_iff_ne.2 reserved, beq_self_eq_true, Bool.and_self, illegalIf_true, error_bind, illegal]

theorem semVlds_of_taken (esz : BitVec 2) : semVlds esz q ga gs off8 y s =
    let e := 4 / 2 ^ esz.toNat
    let a := baseOff s ga off8 e
    if esz = 3 ∨ a.toNat % e ≠ 0 ∨ (s.g gs).toNat % e ≠ 0 then illegal
    else v.accessAll .load e (strided a (s.g gs) (128 / e)) >>= fun ss => v.queueLoad a ss (.queue (12 + q.toNat) 1) (12 + q.toNat) 1 sig := by
  by_cases sized : esz = 3
  · simp [semVlds, sized, illegal]
  · simp only [semVlds, ready_of_written written, taken, ok_bind, State.syncTake_g taken, effAddr_eq_baseOff, baseOff_of_taken taken,
      eszBytes_of_size sized, illegalIf_illegalIf, misaligned_eq_decide, Bool.or_eq_true, beq_iff_eq, decide_eq_true_eq]

theorem semVldb_of_taken (esz : BitVec 2) : semVldb esz q ga off y s =
    let e := 4 / 2 ^ esz.toNat
    let a := baseOff s ga off e
    if esz = 3 ∨ a.toNat % e ≠ 0 then illegal
    else v.access .load a e >>= fun ss => v.queueLoad a ss (.bcast (12 + q.toNat) e) (12 + q.toNat) 1 sig := by
  by_cases sized : esz = 3
  · simp [semVldb, sized, illegal]
  · simp only [semVldb, ready_of_subset written (ts := [ga]) (by simp), taken, ok_bind, effAddr_eq_baseOff,
      baseOff_of_taken taken, eszBytes_of_size sized, illegalIf_illegalIf, misaligned_eq_decide, Bool.or_eq_true, beq_iff_eq, decide_eq_true_eq]
end

section
variable {gl gd : BitVec 3} {ga : BitVec 5} {off : BitVec 13} {intent : BitVec 2} (written : Written s [ga, g3 gl, g3 gd])
include written

theorem semProbe_of_passed (passes : s.g (g3 gl) = 0 ∨
      ∃ ss, v.checks v.core.view v.core.cluster (intentKind intent) true (baseOff s ga off 128) (s.g (g3 gl)).toNat = .ok ss) :
    semProbe gl ga off y intent s = .ok (.next (v.signalAfter sig)) := by
  simp only [semProbe, ready_of_subset written (ts := [ga, g3 gl]) (by simp), taken, ok_bind, State.syncTake_g taken,
    effAddr_eq_baseOff, baseOff_of_taken taken]
  rcases passes with none | ⟨ss, granted⟩
  · rw [if_pos (by rw [none]; rfl)]
  · rw [granted, ite_self]

theorem semProbe_of_denied {reason dist : Nat} (asked : s.g (g3 gl) ≠ 0) (denied :
      v.checks v.core.view v.core.cluster (intentKind intent) true (baseOff s ga off 128) (s.g (g3 gl)).toNat = .error (reason, dist)) :
    semProbe gl ga off y intent s = .error (.trap 7 (reason + 256 * intent.toNat) (baseOff s ga off 128 + BitVec.ofNat 64 dist)) := by
  simp only [semProbe, ready_of_subset written (ts := [ga, g3 gl]) (by simp), taken, ok_bind, State.syncTake_g taken,
    effAddr_eq_baseOff, baseOff_of_taken taken]
  have asks : (s.g (g3 gl)).toNat ≠ 0 := fun none => asked (BitVec.eq_of_toNat_eq none)
  rw [if_neg asks, denied]

theorem semPref_of_granted {lvl : BitVec 3} {wr : BitVec 1} {ss : List Span} (level : lvl.toNat < 3)
    (granted : v.checks v.core.view v.core.cluster (if wr = 1 then .store else .load) false (baseOff s ga off 128) 128 = .ok ss) :
    semPref lvl ga off y wr s = .ok (.next ((v.prefetch lvl.toNat (wr == 1) ss).signalAfter sig)) := by
  simp only [semPref, ready_of_subset written (ts := [ga]) (by simp), taken, ok_bind, effAddr_eq_baseOff,
    baseOff_of_taken taken, decide_eq_false (Nat.not_le.2 level), illegalIf_false, granted]

theorem semPref_of_denied {lvl : BitVec 3} {wr : BitVec 1} {d : Deny} (level : lvl.toNat < 3)
    (denied : v.checks v.core.view v.core.cluster (if wr = 1 then .store else .load) false (baseOff s ga off 128) 128 = .error d) :
    semPref lvl ga off y wr s = .ok (.next (v.signalAfter sig)) := by
  simp only [semPref, ready_of_subset written (ts := [ga]) (by simp), taken, ok_bind, effAddr_eq_baseOff,
    baseOff_of_taken taken, decide_eq_false (Nat.not_le.2 level), illegalIf_false, denied]

omit taken written in
theorem semPref_of_reserved {lvl : BitVec 3} {wr : BitVec 1} (reserved : 3 ≤ lvl.toNat) : semPref lvl ga off y wr s = illegal := by
  simp [semPref, reserved, illegal]

theorem semLda_of_taken (scope ord : BitVec 3) (near : BitVec 7) (sz : BitVec 2) : semLda gd ga scope ord near y sz s =
    let n := 8 / 2 ^ sz.toNat
    let a := baseOff s ga near n
    if 6 ≤ scope.toNat ∨ (ord ≠ 1 ∧ ord ≠ 4) ∨ 2 ≤ sz.toNat ∨ a.toNat % n ≠ 0 then illegal
    else v.access .load a n >>= fun ss =>
      .ok (.next ((v.counted ss).issueOp a (.load ss) (v.regDest (g3 gd) n true) sig ord.toNat scope.toNat)) := by
  by_cases sized : sz.toNat < 2
  · simp only [semLda, ready_of_subset written (ts := [ga, g3 gd]) (by simp), taken, ok_bind, effAddr_eq_baseOff,
      baseOff_of_taken taken, szBytes_of_size sized, illegalIf_illegalIf, misaligned_eq_decide, Bool.or_eq_true, Bool.not_eq_true',
      Bool.or_eq_false_iff, beq_eq_false_iff_ne, decide_eq_true_eq, or_assoc, State.counted]
  · simp [semLda, Nat.not_lt.1 sized, illegal]
end
end

/-- Settles O13: each vector load by the shared form of a load into a queue, a probe and a prefetch by what their checks answer. -/
theorem vectorLoadsAndProbes : Obligations.VectorLoadsAndProbes := by
  refine ⟨fun s v q ga gs y esz rsz off off8 sig fresh strand taken written => ?loads,
    fun s v gl gd ga off intent y sig fresh strand written taken => ?others⟩
  case loads =>
    have issued {i : Instr} (ofL : i.issuedBy .l = true) : i.issuedBy s.cur = true := strand ▸ ofL
    have deep : 12 ≤ 12 + q.toNat := Nat.le_add_right ..
    have row := semVld_of_row (q := q) (off := off) taken written rsz
    have gather := semVlds_of_taken (q := q) (off8 := off8) taken written esz
    have spread := semVldb_of_taken (q := q) (off := off) taken written esz
    refine ⟨vectorLoad_of_sem rfl fresh (issued rfl) rfl (fun _ => rfl) deep (semVld_of_plain taken written),
      fun aligned => vectorLoad_of_sem rfl fresh (issued rfl) rfl (fun _ => rfl) deep (row.trans (if_neg (not_not.2 aligned))),
      fun odd => issue_of_illegalSem fresh (row.trans (if_pos odd)), fun reserved => issue_of_illegalSem fresh (semVld_of_reserved reserved),
      fun sized aligned stride => vectorLoad_of_sem rfl fresh (issued rfl) rfl (fun _ => rfl) deep (gather.trans (if_neg ?_)),
      fun refused => issue_of_illegalSem fresh (gather.trans (if_pos refused)),
      fun sized aligned => vectorLoad_of_sem rfl fresh (issued rfl) rfl (fun _ => rfl) deep (spread.trans (if_neg ?_)),
      fun refused => issue_of_illegalSem fresh (spread.trans (if_pos refused))⟩
    · exact not_or.2 ⟨sized, not_or.2 ⟨not_not.2 aligned, not_not.2 stride⟩⟩
    · exact not_or.2 ⟨sized, not_not.2 aligned⟩
  case others =>
    have issued {i : Instr} (ofL : i.issuedBy .l = true) : i.issuedBy s.cur = true := strand ▸ ofL
    refine ⟨fun passes => ?passed, fun reason dist asked denied => ?denied, ?pref, ?lda⟩
    case passed => exact issue_next fresh (issued rfl) rfl (bundles_any fun _ => rfl) (semProbe_of_passed taken written passes)
    case denied => exact issue_stop fresh (issued rfl) rfl (bundles_any fun _ => rfl) (semProbe_of_denied taken written asked denied)
    case pref =>
      rintro lvl wr r rfl
      exact ⟨fun d level denied => issue_next fresh (issued rfl) rfl (bundles_any fun _ => rfl) (semPref_of_denied taken written level denied),
        fun ss level granted => issue_next fresh (issued rfl) rfl (bundles_any fun _ => rfl) (semPref_of_granted taken written level granted),
        fun reserved => issue_of_illegalSem fresh (semPref_of_reserved reserved)⟩
    case lda =>
      rintro scope ord near sz n r rfl rfl
      have does := semLda_of_taken taken written scope ord near sz
      refine ⟨fun within order sized aligned => ?_, fun refused => issue_of_illegalSem fresh (does.trans (if_pos refused))⟩
      have ordered := not_and_or.2 (order.imp not_not.2 not_not.2)
      have may := does.trans (if_neg (not_or.2 ⟨Nat.not_le.2 within, not_or.2 ⟨ordered, not_or.2 ⟨Nat.not_le.2 sized, not_not.2 aligned⟩⟩⟩))
      refine ⟨stopRule_of_sem rfl fresh (issued rfl) rfl (fun _ => rfl) may, fun ss granted => ?_⟩
      rw [granted, ok_bind] at may
      exact loadRule_of_sem rfl fresh (issued rfl) rfl (fun _ => rfl) may

end Sys2Proof.Machine

namespace Sys2Proof.Machine

/-! ### The words of S (R323-R325, R330) -/

section
variable {s v : State} {y : BitVec 2} {sig : Option Nat} {ga gs : BitVec 5} {gd : BitVec 3} (taken : s.syncTake y = .ok (v, sig))
  (written : Written s [ga, gs, g3 gd])
include taken written

theorem semVst_of_taken (vsz : BitVec 2) (off : BitVec 13) : semVst vsz ga off y s =
    let n := 128 / 2 ^ vsz.toNat
    let a := baseOff s ga off 128
    if vsz = 3 then illegal
    else v.access .store a n >>= fun ss => v.popLanded q2 1 >>= fun p =>
      p.2.issueStore a ss ((p.1.flatMap entryBytes).take n) sig 0 0 >>= fun u => .ok (.next u) := by
  by_cases sized : vsz = 3
  · simp [semVst, sized, illegal]
  · simp only [semVst, ready_of_subset written (ts := [ga]) (by simp), taken, ok_bind, effAddr_eq_baseOff,
      baseOff_of_taken taken, vszBytes_of_size sized, illegalIf_bind, beq_iff_eq]

theorem semVsts_of_taken (esz : BitVec 2) (off : BitVec 8) : semVsts esz ga gs off y s =
    let e := 4 / 2 ^ esz.toNat
    let a := baseOff s ga off e
    if esz = 3 ∨ a.toNat % e ≠ 0 ∨ (s.g gs).toNat % e ≠ 0 then illegal
    else v.accessAll .store e (strided a (s.g gs) (128 / e)) >>= fun ss => v.popLanded q2 1 >>= fun p =>
      p.2.issueStore a ss (p.1.flatMap entryBytes) sig 0 0 >>= fun u => .ok (.next u) := by
  by_cases sized : esz = 3
  · simp [semVsts, sized, illegal]
  · simp only [semVsts, ready_of_subset written (ts := [ga, gs]) (by simp), taken, ok_bind, State.syncTake_g taken,
      effAddr_eq_baseOff, baseOff_of_taken taken, eszBytes_of_size sized, illegalIf_illegalIf, misaligned_eq_decide, Bool.or_eq_true, beq_iff_eq,
      decide_eq_true_eq]

theorem semStl_of_taken (scope ord : BitVec 3) (near : BitVec 7) (sz : BitVec 2) : semStl gd ga scope ord near y sz s =
    let n := 8 / 2 ^ sz.toNat
    let a := baseOff s ga near n
    if 6 ≤ scope.toNat ∨ (ord ≠ 2 ∧ ord ≠ 4) ∨ 2 ≤ sz.toNat ∨ a.toNat % n ≠ 0 then illegal
    else v.access .store a n >>= fun ss =>
      v.issueStore a ss (natBytes n (s.g (g3 gd)).toNat) sig ord.toNat scope.toNat >>= fun u => .ok (.next u) := by
  by_cases sized : sz.toNat < 2
  · simp only [semStl, ready_of_subset written (ts := [ga, g3 gd]) (by simp), taken, ok_bind, State.syncTake_g taken,
      effAddr_eq_baseOff, baseOff_of_taken taken, szBytes_of_size sized, illegalIf_illegalIf, misaligned_eq_decide, Bool.or_eq_true,
      Bool.not_eq_true', Bool.or_eq_false_iff, beq_eq_false_iff_ne, decide_eq_true_eq, or_assoc]
  · simp [semStl, Nat.not_lt.1 sized, illegal]

theorem semVradd_of_taken (rsz : BitVec 2) (ty : BitVec 1) (scope ord : BitVec 3) (near : BitVec 7) (sat : BitVec 1) :
    semVradd rsz ty ga scope ord near y sat s =
    let n := 64 * 2 ^ rsz.toNat
    let a := baseOff s ga near n
    if 6 ≤ scope.toNat ∨ (ord ≠ 0 ∧ ord ≠ 2) ∨ a.toNat % n ≠ 0 then illegal
    else v.access .amo a n >>= fun ss => v.popLanded q2 (max 1 (n / 128)) >>= fun p =>
      .ok (.next (p.2.issueOp a (.vradd ss (if ty = 0 then 2 else 4) ((p.1.flatMap entryBytes).take n) (sat == 1)) .none sig ord.toNat
        scope.toNat)) := by
  simp only [semVradd, ready_of_subset written (ts := [ga]) (by simp), taken, ok_bind, effAddr_eq_baseOff,
    baseOff_of_taken taken, rszBytes, illegalIf_illegalIf, misaligned_eq_decide, Bool.or_eq_true, Bool.not_eq_true', Bool.or_eq_false_iff,
    beq_eq_false_iff_ne, decide_eq_true_eq, or_assoc]

theorem amo_of_taken (op : AmoOp) {scope ord : BitVec 3} {sz : BitVec 2} (within : scope.toNat < 6) (order : ord.toNat < 5) (sized : sz.toNat < 2) :
    amo op gd ga scope ord gs y sz s =
    let n := 8 / 2 ^ sz.toNat
    if (s.g ga).toNat % n ≠ 0 then illegal
    else v.access .amo (s.g ga) n >>= fun ss =>
      .ok (.next (v.issueOp (s.g ga) (.amo op ss n (s.g gs) (s.g (g3 gd))) (v.regDest (g3 gd) n true) sig ord.toNat scope.toNat)) := by
  simp only [amo, ready_of_subset written (ts := [ga, gs, g3 gd]) (by simp), taken, ok_bind, State.syncTake_g taken,
    szBytes_of_size sized, decide_eq_false (Nat.not_le.2 within), decide_eq_false (Nat.not_le.2 order), decide_eq_false (Nat.not_le.2 sized),
    Bool.or_self, illegalIf_false, illegalIf_bind, misaligned_eq_decide, decide_eq_true_eq]
end

/-- The bytes of one entry, all 128 of them in its lanes. -/
theorem flatMap_entryBytes_singleton (e : Entry) : [e].flatMap entryBytes = (entryBytes e).take 128 := by
  rw [List.flatMap_singleton, List.take_of_length_le (by rw [entryBytes, length_natBytes])]

/-- Settles O14: a store gives the bytes of its popped entry or its register to the shared form of a store, a row add its entries to an operation. -/
theorem vectorStores : Obligations.VectorStores := by
  intro s v ga gs y vsz esz rsz off off8 off7 scope ord gd sz ty sat sig fresh strand taken written e n row
  have issued {i : Instr} (ofS : i.issuedBy .s = true) : i.issuedBy s.cur = true := strand ▸ ofS
  have whole := semVst_of_taken taken written vsz off
  have scatter := semVsts_of_taken taken written esz off8
  have release := semStl_of_taken taken written scope ord off7 sz
  have add := semVradd_of_taken taken written rsz ty scope ord off7 sat
  refine ⟨fun sized => ?vst, fun reserved => issue_of_illegalSem fresh (whole.trans (if_pos reserved)), fun sized aligned stride => ?vsts,
    fun refused => issue_of_illegalSem fresh (scatter.trans (if_pos refused)), ?stl,
    fun refused => issue_of_illegalSem fresh (release.trans (if_pos refused)), ?vradd,
    fun refused => issue_of_illegalSem fresh (add.trans (if_pos refused))⟩
  case vst =>
    exact vectorStore_of_sem rfl fresh (issued rfl) rfl (fun _ => rfl) (fun es => (es.flatMap entryBytes).take (128 / 2 ^ vsz.toNat))
      (fun _ => by rw [List.flatMap_singleton]) (whole.trans (if_neg sized))
  case vsts =>
    have may := scatter.trans (if_neg (not_or.2 ⟨sized, not_or.2 ⟨not_not.2 aligned, not_not.2 stride⟩⟩))
    exact vectorStore_of_sem rfl fresh (issued rfl) rfl (fun _ => rfl) (fun es => es.flatMap entryBytes) flatMap_entryBytes_singleton may
  case stl =>
    rintro within order sized aligned r rfl
    have ordered := not_and_or.2 (order.imp not_not.2 not_not.2)
    have may := release.trans (if_neg (not_or.2 ⟨Nat.not_le.2 within, not_or.2 ⟨ordered, not_or.2 ⟨Nat.not_le.2 sized, not_not.2 aligned⟩⟩⟩))
    refine ⟨stopRule_of_sem rfl fresh (issued rfl) rfl (fun _ => rfl) may, fun ss granted => ?_⟩
    rw [granted, ok_bind] at may
    exact storeRule_of_sem rfl fresh (issued rfl) rfl (fun _ => rfl) may
  case vradd =>
    rintro within order aligned r rfl
    have ordered := not_and_or.2 (order.imp not_not.2 not_not.2)
    have may := add.trans (if_neg (not_or.2 ⟨Nat.not_le.2 within, not_or.2 ⟨ordered, not_not.2 aligned⟩⟩))
    refine ⟨stopRule_of_sem rfl fresh (issued rfl) rfl (fun _ => rfl) may, fun ss granted => ⟨fun es rest count heads => ?_, fun short => ?_⟩⟩
    · rw [granted, ok_bind, ← count, q2, State.popLanded_of_heads heads, ok_bind, State.issueOp_eq_orderedOp, List.flatMap_map] at may
      exact issue_next fresh (issued rfl) rfl (bundles_any fun _ => rfl) may
    · rw [granted, ok_bind, q2, State.popLanded_of_short short, error_bind] at may
      exact issue_wait fresh (issued rfl) rfl (bundles_any fun _ => rfl) may

/-! ### Atomics as they issue, and the values they write (R326-R328) -/

section
variable {i : Instr} {s v : State} {op : AmoOp} {gd scope ord : BitVec 3} {ga gs : BitVec 5} {y sz : BitVec 2} {sig : Option Nat}

theorem atomicRule_of_taken (form : exec i s = issue i (amo op gd ga scope ord gs y sz) s) (fresh : Fresh s) (issued : i.issuedBy s.cur = true)
    (fields : i.fieldsOk = true) (anywhere : ∀ σ, bundleForbids i σ = false) (written : Written s [ga, gs, g3 gd]) (within : scope.toNat < 6)
    (order : ord.toNat < 5) (sized : sz.toNat < 2) (taken : s.syncTake y = .ok (v, sig)) :
    AtomicRule s v i op gd ga gs scope ord (8 / 2 ^ sz.toNat) sig := by
  have does := amo_of_taken taken written op within order sized
  refine ⟨fun odd => form.trans (issue_of_illegalSem fresh (does.trans (if_pos odd))), ?_⟩
  rintro aligned r rfl
  have may := does.trans (if_neg (not_not.2 aligned))
  refine ⟨stopRule_of_sem form fresh issued fields anywhere may, fun ss granted => ?_⟩
  rw [granted, ok_bind, State.issueOp_eq_orderedOp] at may
  exact form.trans (issue_next fresh issued fields (bundles_any anywhere) may)
end

/-- The signed value of a number within its width. -/
theorem toInt_of_lt {w x : Nat} (bound : x < 2 ^ w) : toInt w x = if x < 2 ^ (w - 1) then (x : Int) else (x : Int) - 2 ^ w := by
  have same : (x : Int) % 2 ^ w = x := Int.emod_eq_of_lt (Int.natCast_nonneg x) (by exact_mod_cast bound)
  rw [toInt, Nat.mod_eq_of_lt bound, same]

/-- Settles O15: the eight words are one shape with their operation, and each operation's value is its case on operands within the width. -/
theorem atomics : Obligations.Atomics := by
  constructor
  · rintro s v gd scope ord ga gs y sz sig n fresh strand written within order sized rfl taken
    have issued {i : Instr} (ofS : i.issuedBy .s = true) : i.issuedBy s.cur = true := strand ▸ ofS
    refine ⟨?add, ?min, ?minu, ?max, ?maxu, ?and, ?or, ?xor, ?swp, ?cas⟩
    case add | min | minu | max | maxu | and | or | xor | swp | cas =>
      exact atomicRule_of_taken rfl fresh (issued rfl) rfl (fun _ => rfl) written within order sized taken
  · intro size m x e _ boundM boundX boundE sgn
    have signedM : toInt (8 * size) m = sgn m := toInt_of_lt boundM
    have signedX : toInt (8 * size) x = sgn x := toInt_of_lt boundX
    refine ⟨?add, ?min, ?max, ?minu, ?maxu, ?and, ?or, ?xor, ?swp, ?hit, fun differ => ?miss⟩ <;>
      simp only [AmoOp.apply, Nat.mod_eq_of_lt boundX]
    case min | max => rw [signedM, signedX]
    case minu => exact congrArg some ((min_comm m x).trans (min_def_lt x m))
    case maxu => exact congrArg some (max_def_lt m x)
    case hit => rw [if_pos (Nat.mod_eq_of_lt boundM).symm]
    case miss => rw [Nat.mod_eq_of_lt boundE, if_neg differ]

end Sys2Proof.Machine
